-- ==== Sys2Proof/Word.lean ====
section
/-!
DEFINITION. The word types of the model: a byte, and the numbers that name the numbered objects of R7.
-/

namespace Sys2Proof

/-- One byte. -/
abbrev Byte := BitVec 8

/-- A link ID, 4p + s for sub-port p.s (R89). -/
abbrev LinkId := Fin 1024
/-- A port, 0 to 255 (R7). -/
abbrev PortId := Fin 256
/-- A tile, its Garnet engine and its optical engine, 0 to 31 (R7). -/
abbrev TileId := Fin 32
/-- A die, 0 to 3 (R7). -/
abbrev DieId := Fin 4
/-- A traffic class, TC0 to TC7 (R8). -/
abbrev ClassId := Fin 8
/-- A die pair, 0 to 5 for pairs 01, 02, 03, 12, 13 and 23 (R158). -/
abbrev PairId := Fin 6
/-- An Agate link, 8P + k (R158). -/
abbrev AgateId := Fin 48
/-- A host DMA ring (R468). -/
abbrev RingId := Fin 1024
/-- A collective command queue (R228). -/
abbrev QueueId := Fin 4096
/-- A ring of the Foiraeth router, 64i + k (R325). -/
abbrev WaveId := Fin 4096
/-- A lane of an optical engine, 8q + l (R20). -/
abbrev LaneNo := Fin 64
/-- A laser module (R7). -/
abbrev ElsId := Fin 16
/-- A gateway (R277). -/
abbrev GatewayId := Fin 256
/-- A shard (R288). -/
abbrev ShardId := Fin 16384
/-- A Shale stream (R304). -/
abbrev StreamId := Fin 256
/-- A power domain, 0 to 163 (R421). -/
abbrev DomainId := Fin 164
/-- A margin monitor, 0 to 123 (R368). -/
abbrev MonitorId := Fin 124

end Sys2Proof
end

