-- ==== Sys2Proof/Syntax.lean ====
section
/-!
DEFINITION. The commands of the block and the data they carry.
-/

namespace Sys2Proof

/-- The path an access comes from: the PCI Express host, the management cores, the JTAG port (R101, R495). -/
inductive Path where
  | host | mgmt | jtag
  deriving DecidableEq, Repr

/-- An Ethernet frame less its preamble and frame check sequence: MAC addresses, the tag control information of at
most one IEEE 802.1Q tag, the EtherType and the bytes that follow it. -/
structure Frame where
  dmac : BitVec 48
  smac : BitVec 48
  tci : Option (BitVec 16)
  etype : BitVec 16
  data : List Byte
  deriving DecidableEq, Repr

/-- How much of a frame a command brings: its first bytes (its headers at least), the rest of the frame begun before
on the same link, or the whole frame. -/
inductive Part where
  | head | tail | whole
  deriving DecidableEq, Repr

/-- What a receiver finds in a frame's FCS: right, the bitwise inverse of the right one (R143), or neither. -/
inductive Fcs where
  | good | stomped | bad
  deriving DecidableEq, Repr

/-- The fields of a link control frame (R51), its type apart. -/
structure Lcf where
  llv : BitVec 8
  features : BitVec 16
  rxHold : BitVec 16
  txStamp : BitVec 32
  echoStamp : BitVec 32
  classVal : List (BitVec 16)
  maxFrame : BitVec 16
  conf : Bool
  deriving DecidableEq, Repr

/-- A credit report: one class in a link word, or every class in a CREDIT LCF (R55, R56). -/
inductive CreditReport where
  | word (cls : ClassId) (total : BitVec 10)
  | lcf (totals : List (BitVec 16))
  deriving DecidableEq, Repr

/-- Where a table update record comes from: a TBL ring, or the management cores' own queue (R100). -/
inductive TblSource where
  | ring (r : RingId)
  | mgmtQueue
  deriving DecidableEq, Repr

/-- A table update record: its head and its body (R103). -/
structure TblRecord where
  table : BitVec 8
  op : BitVec 8
  count : BitVec 16
  first : BitVec 32
  tag : BitVec 32
  body : List Byte
  deriving DecidableEq, Repr

/-- The 64 bytes of a collective descriptor (R229) or of a checkpoint command (R297), as one number: byte 0 is its most significant. -/
abbrev Bytes64 := BitVec 512

/-- The 32 bytes of a Gneiss job (R281), likewise. -/
abbrev Bytes32 := BitVec 256

/-- The fields of a collective descriptor beside its kind (R229). -/
structure ColDesc where
  sigFail : Bool
  notify : Bool
  group : BitVec 12
  seq : BitVec 16
  fmt : BitVec 4
  op : BitVec 4
  chunks : BitVec 32
  member : BitVec 16
  timeout : BitVec 16
  waitTok : BitVec 16
  sigTok : BitVec 16
  waitVal : BitVec 32
  tag : BitVec 32
  cring : BitVec 10
  addr : BitVec 64
  args : List Byte
  deriving DecidableEq, Repr

/-- What an engine's checks find as it takes a contribution (R212, R213): nothing; a residue mismatch that the second
execution clears, or that it repeats; a scratch word corrected, or one that cannot be. -/
inductive EngineTrouble where
  | none | residueOnce | residueTwice | corrected (line : Nat) | lost (line : Nat)
  deriving DecidableEq, Repr

/-- What an engine's checks find as it rounds a chunk: as above, and whether the audit copy's result differs (R217). -/
inductive ReleaseTrouble where
  | none | residueOnce | residueTwice | corrected (line : Nat) | lost (line : Nat) | auditDiffers
  deriving DecidableEq, Repr

/-- What a contribution meets at the engine that takes it, and at the engine of its chunk's audit copy, if it has one (R217). -/
structure UpdateFindings where
  engine : EngineTrouble
  copy : EngineTrouble
  deriving DecidableEq, Repr

/-- The same of a release. -/
structure ReleaseFindings where
  engine : ReleaseTrouble
  copy : EngineTrouble
  deriving DecidableEq, Repr

/-- What a RoCEv2 NAK reports (R278, R280). -/
inductive RoceNak where
  | sequence | access | invalid
  deriving DecidableEq, Repr

/-- What a modulator loop's update brings (R323, R344): heater code, lock error, and the two power monitors. -/
structure LaneSample where
  heater : BitVec 16
  lockErr : BitVec 8
  txPower : BitVec 16
  rxPower : BitVec 16
  deriving DecidableEq, Repr

/-- A power monitor tap of the router (R336). -/
inductive Tap where
  | input (i : Fin 64) | drop (r : WaveId) | output (o : Fin 64)
  deriving DecidableEq, Repr

/-- A clock that a monitor of R428 watches. -/
inductive ClockId where
  | ref | mref | pcie | time | mgmt | core (d : DieId) | hbm (d : DieId) | lane (d : DieId)
  deriving DecidableEq, Repr

/-- What a reload meets (R393, R442, R446, R454): the flash reads well; memory repairs found by a cold start's BIST, the always-on
memory's spares sufficing; the Basalt cells retired on each die; the lanes whose lock error has grown beyond ±12.7 GHz
while their controller was stopped (R322); the domains that the cold start's BIST fails, their spares having run out; and an
error of Obsidian as it senses the fuses. -/
structure ReloadFindings where
  flashOk : Bool
  aonRepairable : Bool
  softSram : Nat
  softHbm : Nat
  retired : List Nat
  far : List (TileId × LaneNo)
  failed : List DomainId
  senseErr : Bool
  deriving DecidableEq, Repr

/-- What a domain's BIST finds (R443, R446): the domain passes, the soft repairs made, the Basalt cells retired, the rows of its
stack retired, each by its store lines; and the flash reads well where the domain then loads from it (R423). -/
structure BistFindings where
  pass : Bool
  softSram : Nat
  softHbm : Nat
  retired : Nat
  rows : List (List Nat)
  flashOk : Bool
  deriving DecidableEq, Repr

/-- A word of the device's SRAM, by what it belongs to (R454). -/
inductive SramWord where
  | basalt (d : DieId) (cell : Fin 524288) (frame : Option Nat)
  | staging (frame : Nat)
  | scratch (t : TileId) (line : Nat)
  | table (d : DieId) (table : Fin 9) (entry : BitVec 20)
  | group (d : DieId) (entry : BitVec 12)
  | member (d : DieId) (entry : BitVec 16)
  | mgmt
  | alwaysOn
  | other (block : Fin 20) (inst : BitVec 16)
  deriving DecidableEq, Repr

/-- What a scrub read decodes to (R450, R451). -/
inductive WordFinding where
  | clean | corrected | uncorrectable
  deriving DecidableEq, Repr

/-- An RX descriptor as the host wrote it (R472): buffer address and length. -/
structure RxDesc where
  addr : BitVec 64
  len : BitVec 32
  deriving DecidableEq, Repr

/-- A TX descriptor as the host wrote it (R476), its buffer's address apart. -/
structure TxDesc where
  len : BitVec 16
  flags : BitVec 8
  link : BitVec 16
  deriving DecidableEq, Repr

/-- What the loaded image's classification makes of a frame (R8, R161): the class of a frame that names none, and its
subscriber node; and the word with an uncorrectable error that the frame's lookups read, if there is one (R454). -/
structure ImageClass where
  cls : ClassId
  node : BitVec 5
  badWord : Option SramWord
  deriving DecidableEq, Repr

/-- Whose host access fails (R480). -/
inductive HostPlace where
  | ring (r : RingId) | queue (q : QueueId)
  deriving DecidableEq, Repr

/-- How an I²C transfer ends (R489, R490): with the bytes read, by NACK, by lost arbitration, or with SCL stuck. -/
inductive I2cEnd where
  | good (read : List Byte) | nack | arbLost | sclStuck
  deriving DecidableEq, Repr

/-- How a bus clear ends (R490). -/
inductive ClearEnd where
  | released | sdaStuck | sclStuck
  deriving DecidableEq, Repr

/-- A window of the PCI Express function (R463). -/
inductive Bar where
  | bar0 | bar2 | bar4
  deriving DecidableEq, Repr

/-- An access: a read of some bytes, or a write of 32 or 64 bits. -/
inductive BusAccess where
  | read (bytes : Nat) | write (value : BitVec 64) (wide : Bool)
  deriving DecidableEq, Repr

/-- How a frame arrives: how much of it, what its FCS is, a codeword left errored in it (R47), and what the FEC decoder
counts: corrected codewords and symbols (R46). -/
structure Arrival where
  part : Part
  fcs : Fcs
  errored : Bool
  corrected : Nat
  symbols : Nat
  deriving DecidableEq, Repr


/-- The commands: one constructor for each row of spec/opcode_table.json, in the table's order. Each denotes the
event its rule describes, with what comes from outside the block as operands. -/
inductive Instr where
  /-- REGISTER_WRITE (R12). A write to a register field that has no row of its own sets, clears or acts on the field according to its
  access code. -/
  | registerWrite (path : Path) (address : BitVec 26) (value : BitVec 64) (wide : Bool)
  /-- LOW_WORD_READ (R11). A 32-bit read of the low word of a 64-bit register returns it and latches the high word for the following
  read. -/
  | lowWordRead (address : BitVec 26)
  /-- LOW_WORD_WRITE (R11). A 32-bit write to the low word of a 64-bit register is held until a write to that register's high word
  commits it. -/
  | lowWordWrite (path : Path) (address : BitVec 26) (value : BitVec 32)
  /-- HIGH_WORD_WRITE (R11). A 32-bit write to the high word commits it together with any held low word, or writes the high word alone if
  none is held. -/
  | highWordWrite (path : Path) (address : BitVec 26) (value : BitVec 32)
  /-- ISOLATED_ACCESS (R415). An access to a domain that is off, powering or in reset returns 0xDEAD_0000 plus the domain index, discards
  writes and doorbells, and counts and latches the access. -/
  | isolatedAccess (bar : Bar) (address : BitVec 30) (access : BusAccess)
  /-- CQ_STATUS_READ (R283). A read of GNS_CQ_STATUS returns the peak of the update queue and clears it. -/
  | cqStatusRead (die : DieId)
  /-- MARGIN_READ (R372). A read of JSP_MRG_RDm returns the monitor's worst value and clears it. -/
  | marginRead (monitor : MonitorId)
  /-- FRAME_RECEIVED (R26). A frame arrives on a link, lands in ingress staging and passes FEC decode, link-word handling and the
  ingress pipeline. -/
  | frameReceived (link : LinkId) (word : Option (BitVec 48)) (frame : Frame) (arrival : Arrival) (image : ImageClass)
  /-- LEARN_EVENT (R98). The table engine learns, refreshes or moves a source MAC entry, or refuses it. -/
  | learnEvent
  /-- AGEING_SWEEP (R99). The ageing sweep visits learning entries and removes dynamic entries older than age_s. -/
  | ageingSweep
  /-- ADMISSION_REQUEST (R128). The egress die's allocator decides whole-packet admission of a frame in rotating tile order. -/
  | admissionRequest (die : DieId) (idle : Nat)
  /-- ADMISSION_RETRY (R132). A refused lossless frame requests admission again 32 core clocks later. -/
  | admissionRetry (frame : Nat) (die : DieId)
  /-- ADMISSION_STALL (R133). A lossless frame refused for longer than stall_us is counted in BSL_ADM_STALL and raises the stall
  interrupt. -/
  | admissionStall (frame : Nat) (die : DieId)
  /-- FIRST_CELL_WRITTEN (R137). The first cell of a cut-through frame is written into Basalt and the frame is enqueued. -/
  | firstCellWritten (frame : Nat) (die : DieId)
  /-- LAST_CELL_WRITTEN (R137). The last cell of a store-and-forward frame is written, and the frame is enqueued or discarded on a failed
  check. -/
  | lastCellWritten (frame : Nat) (die : DieId)
  /-- AGATE_CELL_SEND (R150). A cell holding an Agate credit is placed on the live link of the bundle with the fewest cells waiting. -/
  | agateCellSend (frame : Nat) (die : DieId)
  /-- AGATE_CELL_LANDED (R151). A cell lands in the receiving die's landing buffer and its stream order is restored. -/
  | agateCellLanded (link : AgateId) (back : Bool)
  /-- AGATE_CREDIT_RETURN (R150). An Agate credit returns to the sending die for its pair, direction and class. -/
  | agateCreditReturn (pair : PairId) (back : Bool) (cls : ClassId)
  /-- FLIT_CRC_FAIL (R152). A flit with a CRC failure is replayed, and a third failed replay fails the link. -/
  | flitCrcFail (link : AgateId) (back : Bool)
  /-- AGATE_EN_SET (R153). Writing D2D_LNK_CTL.en = 1 starts training once both ends are enabled and powered. -/
  | agateEnSet (link : AgateId) (endJ : Bool)
  /-- AGATE_EN_CLEAR (R153). Writing D2D_LNK_CTL.en = 0 moves the link to DRAINING or OFF in both directions. -/
  | agateEnClear (link : AgateId) (endJ : Bool)
  /-- AGATE_RETRAIN (R158). Writing D2D_LNK_CTL.retrain puts every LIVE direction of the link into FAILED. -/
  | agateRetrain (link : AgateId)
  /-- AGATE_TRAINED (R153). A training Agate module completes training and the direction becomes LIVE. -/
  | agateTrained (link : AgateId) (back : Bool)
  /-- AGATE_TRAINING_TIMEOUT (R153). An Agate direction fails after 1 ms without training. -/
  | agateTrainingTimeout (link : AgateId) (back : Bool)
  /-- AGATE_DRAINED (R153). A DRAINING Agate link has no unacknowledged cells left and goes OFF. -/
  | agateDrained (link : AgateId) (back : Bool)
  /-- AGATE_FAILED_EXPIRY (R153). After 10 µs in FAILED with auto_retrain = 1, the link starts training again. -/
  | agateFailedExpiry (link : AgateId) (back : Bool)
  /-- AGATE_LOSS_OF_LOCK (R153). A LIVE Agate direction loses lock and fails, and its cells move to the other live links. -/
  | agateLossOfLock (link : AgateId) (back : Bool)
  /-- COUNT_SNAP (R144). Writing BSL_CNT_SNAP.snap latches the free, queued, reserved and retired cell counts in one clock. -/
  | countSnap (die : DieId)
  /-- AUDIT_SWEEP (R145). The auditor sweeps a die's cells and marks their owners. -/
  | auditSweep (die : DieId) (lost astray : List Nat)
  /-- FLD_SELECTION (R163). Feldspar selects a link's next frame by strict priority and the virtual-time rule. -/
  | fldSelection (link : LinkId) (lead : Fin 225) (cut : Option Nat)
  /-- EGRESS_PIPELINE (R26). A selected frame passes the egress pipeline, FEC encode and transmit, with egress check and oversize test. -/
  | egressPipeline (link : LinkId) (corrupt : Bool)
  /-- GATE_BOUNDARY (R172). A gate list interval boundary is reached and the next gate vector takes effect. -/
  | gateBoundary (link : LinkId)
  /-- GATE_COMMIT (R175). Writing FLD_GATE_CTL.commit schedules a switch to the inactive gate bank. -/
  | gateCommit (link : LinkId)
  /-- GATE_BANK_SWITCH (R175). At the first cycle start of the new bank, the active bank toggles and pending clears. -/
  | gateBankSwitch (link : LinkId)
  /-- PORT_SPLIT_WRITE (R160). A write to FLD_PORT_SPLIT is applied only while every sub-port of the port is disabled. -/
  | portSplitWrite (port : PortId) (value : BitVec 64)
  /-- PORT_MODE_WRITE (R43). A write to TIL_PORT_MODE changes breakout only while every sub-port is disabled, else sets bo_reject. -/
  | portModeWrite (port : PortId) (value : BitVec 32)
  /-- LINK_ENABLE (R44). Writing lnk_en = 1 starts transmission and receive acquisition. -/
  | linkEnable (link : LinkId)
  /-- LINK_DISABLE (R44). Writing lnk_en = 0 applies the link-down effects and enters DISABLED. -/
  | linkDisable (link : LinkId)
  /-- PCS_ALIGNED (R44). PCS alignment on every lane moves an acquiring link to EXCHANGE or UP, and a waking link to UP. -/
  | pcsAligned (link : LinkId)
  /-- CAP_RECEIVED (R52). A received CAP is echoed, confirms a direction and may settle the link into UP or restart EXCHANGE. -/
  | capReceived (link : LinkId) (cap : Lcf)
  /-- CAP_TIMER (R52). A link in EXCHANGE sends a CAP every 100 µs. -/
  | capTimer (link : LinkId)
  /-- EXCHANGE_TIMEOUT (R44). After 10 ms in EXCHANGE with no valid CAP, the link starts Ethernet mode or goes to HOLD_DOWN. -/
  | exchangeTimeout (link : LinkId)
  /-- ETHERNET_CAP_TIMER (R54). An Ethernet-mode link with link_mode 0 sends a CAP every 100 ms. -/
  | ethernetCapTimer (link : LinkId)
  /-- CREDIT_REPORT_TIMER (R56). Each side reports every class's credit count at least every 400 ns, sending a CREDIT LCF if no frame carries
  it. -/
  | creditReportTimer (link : LinkId)
  /-- CREDIT_RECEIVED (R56). A credit return in a link word or CREDIT LCF updates the sender's credits. -/
  | creditReceived (link : LinkId) (report : CreditReport)
  /-- AUDIT_TIMER (R59). A sender with credit audit settled sends an AUDIT LCF every 1 ms. -/
  | auditTimer (link : LinkId)
  /-- AUDIT_RECEIVED (R59). An AUDIT LCF is compared with the receiver's counts, and a mismatch starts RESYNC. -/
  | auditReceived (link : LinkId) (sent : List (BitVec 16))
  /-- RESYNC_REQ (R60). On RESYNC_REQ, the sender finishes its frame, stops data and sends RESYNC_MARK. -/
  | resyncReq (link : LinkId)
  /-- RESYNC_MARK (R60). On RESYNC_MARK, the receiver sends RESYNC_ACK with the cells charged per class. -/
  | resyncMark (link : LinkId)
  /-- RESYNC_ACK (R60). On RESYNC_ACK, the sender resets held credits and cumulative counts and resumes. -/
  | resyncAck (link : LinkId) (charged : List (BitVec 16))
  /-- RESYNC_TIMEOUT (R60). A credit re-initialisation not ended 2 × rtt + 2 µs after it began takes the link into RETRAIN. -/
  | resyncTimeout (link : LinkId)
  /-- UNCORRECTABLE_CODEWORD (R48). An uncorrectable codeword marks frames as errored and may begin a burst event and trigger RETRAIN. -/
  | uncorrectableCodeword (link : LinkId)
  /-- BURST_GAP_EXPIRY (R48). A burst event ends when burst_gap passes with no uncorrectable codeword. -/
  | burstGapExpiry (link : LinkId)
  /-- RETRY_CLOCK_EXPIRY (R63). A frame not arrived 2 µs after its retry clock started is declared lost and RESYNC begins. -/
  | retryClockExpiry (link : LinkId)
  /-- NAK_RECEIVED (R64). On nak = 1, the sender finishes its frame and replays from ack_lsn + 1. -/
  | nakReceived (link : LinkId) (ack : BitVec 13)
  /-- REPLAY_TIMEOUT (R64). An oldest frame not covered within rtt + 400 ns of its last transmission is replayed without a NAK. -/
  | replayTimeout (link : LinkId)
  /-- SENDER_ACK_TIMEOUT (R64). A frame still uncovered 4 µs after its first transmission takes the link into RETRAIN. -/
  | senderAckTimeout (link : LinkId)
  /-- RETRAIN_WRITE (R76). Writing TIL_LNK_CTL.retrain in UP enters RETRAIN. -/
  | retrainWrite (link : LinkId)
  /-- KEEPALIVE_REQUEST (R66). Writing ka_req = 1 makes the link send KA_REQ. -/
  | keepaliveRequest (link : LinkId)
  /-- KEEPALIVE_RELEASE (R67). Writing ka_req = 0 wakes a link in KEEPALIVE. -/
  | keepaliveRelease (link : LinkId)
  /-- KA_REQ (R66). A received KA_REQ is answered with KA_ACK when the egress is empty and the side accepts. -/
  | kaReq (link : LinkId)
  /-- KA_ACK (R66). A received KA_ACK moves the link into KEEPALIVE and parks its upper lanes. -/
  | kaAck (link : LinkId)
  /-- KA_RETRY_TIMER (R66). A partner that did not answer within 100 µs is asked again 1 ms later. -/
  | kaRetryTimer (link : LinkId)
  /-- KEEPALIVE_WORD_TIMER (R67). The lowest lane of a parked link sends a keepalive word every 1 µs. -/
  | keepaliveWordTimer (link : LinkId)
  /-- KEEPALIVE_WORD (R67). A received keepalive word with its wake flag set moves the link to WAKE. -/
  | keepaliveWord (link : LinkId) (wake : Bool)
  /-- KEEPALIVE_WORD_TIMEOUT (R44). After 10 µs with no valid keepalive word, the link goes to HOLD_DOWN. -/
  | keepaliveWordTimeout (link : LinkId)
  /-- WAKE (R44). A wake from either partner powers the parked lanes and enters WAKE. -/
  | wake (link : LinkId)
  /-- WAKE_TIMEOUT (R44). After 25 µs in WAKE without alignment, the link goes to HOLD_DOWN. -/
  | wakeTimeout (link : LinkId)
  /-- RETRAIN_DONE (R44). Equalisers adapt and PCS aligns in RETRAIN, and the capability exchange starts. -/
  | retrainDone (link : LinkId)
  /-- RETRAIN_TIMEOUT (R44). After 50 ms in RETRAIN without alignment, the link goes to HOLD_DOWN. -/
  | retrainTimeout (link : LinkId)
  /-- HOLD_DOWN_EXPIRY (R44). After 1 ms in HOLD_DOWN, the link restarts acquisition. -/
  | holdDownExpiry (link : LinkId)
  /-- LOSS_OF_SIGNAL (R44). Loss of signal or alignment lasting 5 µs takes the link to HOLD_DOWN. -/
  | lossOfSignal (link : LinkId) (light : Bool)
  /-- PFC_RECEIVED (R69). A received PFC frame pauses or resumes a class on an Ethernet-mode link. -/
  | pfcReceived (link : LinkId) (cls : ClassId) (quanta : BitVec 16)
  /-- PFC_REFRESH_TIMER (R70). XOFF is sent again every 10 µs while its condition holds. -/
  | pfcRefreshTimer (link : LinkId)
  /-- LOCK_TAKE (R101). Writing DMA_TBL_LOCKn.locked = 1 takes a free table lock for the writer's path. -/
  | lockTake (table : Fin 9) (path : Path)
  /-- LOCK_RELEASE (R101). Writing locked = 0 frees the lock under the path rules, and learning resumes from the learn queue. -/
  | lockRelease (table : Fin 9) (path : Path)
  /-- TBL_WRITE (R103). A write record is checked and its entries are written into all four die copies. -/
  | tblWrite (source : TblSource) (rec_ : TblRecord)
  /-- TBL_CLEAR (R103). A clear record writes count zero entries from first. -/
  | tblClear (source : TblSource) (rec_ : TblRecord)
  /-- TBL_INSERT (R103). An insert record writes each key into a free or matching entry of its learning bucket. -/
  | tblInsert (source : TblSource) (rec_ : TblRecord)
  /-- TBL_DELETE (R103). A delete record removes each key from the learning table. -/
  | tblDelete (source : TblSource) (rec_ : TblRecord)
  /-- CMAP_SNAPSHOT (R114). At each 2^n µs of hall time, every tile latches its links' state into a congestion map snapshot. -/
  | cmapSnapshot
  /-- REPLICATION_TAKE (R29). The replication logic takes one input from Garnet, Gneiss restore or the piece path in rotation and copies
  it to members. -/
  | replicationTake (tile : TileId)
  /-- CONTRIB_ACCEPT (R195). A checked contribution is applied exactly to its chunk's lanes, opening the chunk if needed. -/
  | contribAccept (frame : Nat) (trouble : UpdateFindings)
  /-- SPILL_REQUEST (R208). An engine requests a spill allocation from its die's allocator. -/
  | spillRequest (tile : TileId) (idle : Nat)
  /-- CONTRIB_RETRY (R209). A contribution refused for space or table entry requests again 32 core clocks later. -/
  | contribRetry (frame : Nat) (trouble : UpdateFindings)
  /-- SPILL_WAIT_TIMEOUT (R209). A contribution still refused wait_us after its first refusal fails its chunk with NO_SCRATCH. -/
  | spillWaitTimeout (frame : Nat)
  /-- CHUNK_RELEASE (R206). A completed chunk is rounded once and its result or failure is released to replication and completion. -/
  | chunkRelease (tile : TileId) (group : BitVec 12) (seq : BitVec 16) (chunk : BitVec 18) (trouble : ReleaseFindings)
  /-- QUARANTINE (R215). Writing GRN_CTL.quarantine in ACTIVE fixes the substitute and starts moving open chunks. -/
  | quarantine (tile : TileId)
  /-- GARNET_RELEASE (R215). Writing GRN_CTL.release in QUARANTINED starts a full self-test. -/
  | garnetRelease (tile : TileId)
  /-- EVACUATION_DONE (R216). Every open chunk has moved or failed, and the engine enters SELFTEST or QUARANTINED. -/
  | evacuationDone (tile : TileId)
  /-- SELFTEST_DONE (R215). A full self-test ends, and the engine enters ACTIVE or QUARANTINED. -/
  | selftestDone (tile : TileId) (pass : Bool)
  /-- IST_TURN_EXPIRY (R218). An engine that has not finished its idle-slot pass in period_ms ÷ 32 is marked starved and the controller
  moves on. -/
  | istTurnExpiry
  /-- IST_PASS_DONE (R218). An idle-slot self-test pass completes, passing or taking the engine out of ACTIVE. -/
  | istPassDone (pass : Bool)
  /-- ALL_REDUCE (R237). An ALL_REDUCE descriptor opens a context whose chunks are reduced and copied to all members. -/
  | allReduce (queue : QueueId) (desc : Bytes64)
  /-- REDUCE_SCATTER (R237). A REDUCE_SCATTER descriptor opens a context whose chunk results go each to one member. -/
  | reduceScatter (queue : QueueId) (desc : Bytes64)
  /-- ALL_GATHER (R237). An ALL_GATHER descriptor opens a context whose pieces are copied to all but the sender. -/
  | allGather (queue : QueueId) (desc : Bytes64)
  /-- BROADCAST (R237). A BROADCAST descriptor opens a context whose root pieces are copied to all other members. -/
  | broadcast (queue : QueueId) (desc : Bytes64)
  /-- BARRIER (R237). A BARRIER descriptor opens a context that counts one arrival per member. -/
  | barrier (queue : QueueId) (desc : Bytes64)
  /-- ABORT (R248). An ABORT descriptor fails an OPEN or CLOSING context with ABORTED, or completes with NOT_FOUND. -/
  | abort (queue : QueueId) (desc : Bytes64)
  /-- REBIND (R241). A REBIND descriptor fences its group for a member replacement. -/
  | rebind (queue : QueueId) (desc : Bytes64)
  /-- GROUP_SET (R242). A GROUP_SET descriptor writes a group entry from host memory and advances the epoch. -/
  | groupSet (queue : QueueId) (desc : Bytes64) (data : Option (List Byte))
  /-- GROUP_CLEAR (R242). A GROUP_CLEAR descriptor invalidates a group and advances its epoch. -/
  | groupClear (queue : QueueId) (desc : Bytes64)
  /-- MEMBER_SET (R242). A MEMBER_SET descriptor writes member table entries from host memory. -/
  | memberSet (queue : QueueId) (desc : Bytes64) (data : Option (List Byte))
  /-- NOP (R230). A NOP descriptor waits on and signals tokens only and writes its record. -/
  | nop (queue : QueueId) (desc : Bytes64)
  /-- TOKEN_WRITE (R232). A host or management write sets a COL_TOKEN counter. -/
  | tokenWrite (token : Fin 4096) (value : BitVec 32)
  /-- CONTRIB (R235). A received CONTRIB frame is checked against its context and passed to its home engine. -/
  | contrib (frame : Nat)
  /-- GATHER (R235). A received GATHER piece is checked and handed to replication. -/
  | gather (frame : Nat)
  /-- BCAST (R235). A received BCAST piece from the root is checked and handed to replication. -/
  | bcast (frame : Nat)
  /-- BARRIER_ARRIVAL (R235). A received BARRIER frame is checked and counted at the home tile of chunk 0. -/
  | barrierArrival (frame : Nat)
  /-- CONTEXT_TIMEOUT (R243). An OPEN context's timer expires and the context fails with TIMEOUT. -/
  | contextTimeout (group : BitVec 12) (seq : BitVec 16)
  /-- CONTEXT_FINISH (R238). A CLOSING context whose results are enqueued and journaled writes its record and signals its token. -/
  | contextFinish (group : BitVec 12) (seq : BitVec 16)
  /-- CONTEXT_FAILURE (R249). A failing context stops taking frames, aborts its chunks, writes the missing map, sends STATUS frames and
  writes its record. -/
  | contextFailure (group : BitVec 12) (seq : BitVec 16)
  /-- REBIND_COMMIT (R241). When the fenced group's open count reaches 0, the member entry is replaced, the epoch advances and the fence
  clears. -/
  | rebindCommit (group : BitVec 12)
  /-- FENCE_TIMEOUT (R241). A fence not cleared within fence_ms is cleared with no change and the REBIND fails. -/
  | fenceTimeout (group : BitVec 12)
  /-- READ (R265). A READ request reads the lines of a range and returns them in one response. -/
  | read (frame : Nat)
  /-- WRITE (R265). A WRITE request stores a range, or passes it through a gateway for a pass-through region. -/
  | write (frame : Nat)
  /-- ADD (R265). An ADD request adds an operand to a 4- or 8-byte word. -/
  | add (frame : Nat)
  /-- FETCH_ADD (R265). A FETCH_ADD request adds an operand and returns the prior value. -/
  | fetchAdd (frame : Nat)
  /-- SWAP (R265). A SWAP request writes an operand and returns the prior value. -/
  | swap (frame : Nat)
  /-- CAS (R265). A CAS request writes the swap value when the prior value equals the compare value. -/
  | cas (frame : Nat)
  /-- FETCH_OR (R265). A FETCH_OR request ORs an operand into a word and returns the prior value. -/
  | fetchOr (frame : Nat)
  /-- FETCH_AND (R265). A FETCH_AND request ANDs an operand into a word and returns the prior value. -/
  | fetchAnd (frame : Nat)
  /-- UPDATE_APPLY (R273). A queued update is applied to its line in the hot-line buffer, or ends with REGION_CHANGED. -/
  | updateApply (die : DieId) (pos : Nat)
  /-- UPDATE_QUEUE_RETRY (R272). A request that found no update queue entry requests again 32 core clocks later. -/
  | updateQueueRetry (frame : Nat)
  /-- ORDER_TIMEOUT (R271). An ordered store whose predecessors are not applied within 10 µs ends unapplied with ORDER_TIMEOUT. -/
  | orderTimeout (frame : Nat)
  /-- WRITE_RESP (R295). A response to a spine-issued WRITE completes a mirror, replay or notification write, or is counted as stray. -/
  | writeResp (frame : Nat)
  /-- RGN_SET (R262). The RGN_SET command defines a region and advances its generation. -/
  | rgnSet
  /-- RGN_CLEAR (R262). The RGN_CLEAR command invalidates a region and starts its zeroing sweep. -/
  | rgnClear
  /-- RGN_RETAG (R262). The RGN_RETAG command replaces rights and owner and starts a zeroing sweep. -/
  | rgnRetag
  /-- GW_SET (R262). The GW_SET command writes a gateway entry and puts it in IDLE. -/
  | gwSet
  /-- GW_CLEAR (R262). The GW_CLEAR command invalidates an unused gateway. -/
  | gwClear
  /-- SWEEP_DONE (R264). A zeroing sweep ends, clearing sweeping and setting sweep_done. -/
  | sweepDone (region : BitVec 16)
  /-- GNEISS_JOB (R281). A posted Gneiss job is queued on its gateway and runs in posting order. -/
  | gneissJob (ring : RingId) (job : Bytes32)
  /-- ROCE_ACK (R281). A RoCEv2 ACK acknowledges PSNs and completes the job or pass-through store it covers. -/
  | roceAck (gw : GatewayId) (psn : BitVec 24) (bad : Bool)
  /-- ROCE_NAK (R280). A PSN sequence error NAK causes go-back-N, and an access or invalid-request NAK fails the gateway. -/
  | roceNak (gw : GatewayId) (psn : BitVec 24) (nak : RoceNak)
  /-- RNR_NAK (R278). An RNR NAK holds the gateway for the timer it carries. -/
  | rnrNak (gw : GatewayId) (psn : BitVec 24)
  /-- RNR_TIMER (R278). The RNR timer expires and the gateway resends, or fails when rnr_retry is exhausted. -/
  | rnrTimer (gw : GatewayId)
  /-- ACK_TIMEOUT (R278). An ack timeout retransmits from the oldest unacknowledged PSN, or fails the gateway after retry_cnt. -/
  | ackTimeout (gw : GatewayId)
  /-- CNP (R279). A received CNP halves the gateway's rate down to 1 Gb/s. -/
  | cnp (gw : GatewayId)
  /-- RATE_RECOVERY (R279). Every 50 µs without a CNP, the gateway rate grows by one twentieth of its rate field. -/
  | rateRecovery (gw : GatewayId)
  /-- PART_WRITE (R286). A write to GNS_PART moves the partitions when no region is affected, else sets reject. -/
  | partWrite (value : BitVec 32)
  /-- OPEN (R298). The OPEN command writes a shard entry and puts it in FILLING. -/
  | openShard (ring : RingId) (cmd : Bytes64)
  /-- RELEASE (R298). The RELEASE command clears a shard entry to FREE. -/
  | release (ring : RingId) (cmd : Bytes64)
  /-- MIRROR (R298). The MIRROR command restarts a shard's mirror from its first byte. -/
  | mirror (ring : RingId) (cmd : Bytes64)
  /-- DRAIN (R298). The DRAIN command restarts a shard's drain to storage. -/
  | drain (ring : RingId) (cmd : Bytes64)
  /-- RESTORE (R301). The RESTORE command starts sending a region range as WRITE frames to a unicast or multicast destination. -/
  | restore (ring : RingId) (cmd : Bytes64)
  /-- MARK (R307). The MARK command appends a mark record and keeps its position. -/
  | mark (ring : RingId) (cmd : Bytes64)
  /-- TRIM (R307). The TRIM command moves a stream's trim position to a kept mark. -/
  | trim (ring : RingId) (cmd : Bytes64)
  /-- REPLAY (R309). The REPLAY command starts copying a stream's records of one group to a destination. -/
  | replay (ring : RingId) (cmd : Bytes64)
  /-- FILL_TIMEOUT (R292). A FILLING shard's fill timer expires and the shard fails with FILL_TIMEOUT. -/
  | fillTimeout (shard : ShardId)
  /-- MIRROR_WRITE_SEND (R295). The mirror sends the next 8,192-byte WRITE of a shard when rate and the unanswered limit allow. -/
  | mirrorWriteSend (shard : ShardId)
  /-- RESP_TIMEOUT (R295). A mirror, replay or notification WRITE unanswered after resp_us is resent or fails. -/
  | respTimeout (reqId : BitVec 16)
  /-- RESTORE_FRAME (R301). A restore reads its next lines and hands one frame to the replication logic. -/
  | restoreFrame (work : Nat)
  /-- REPLAY_WRITE (R309). A replay reads its next records and sends them as WRITE requests, or stops at a gap, the end or full space. -/
  | replayWrite (work : Nat)
  /-- JOURNAL_APPEND (R306). A chunk result passed to Shale is appended to its stream, or discarded for lack of stream or room. -/
  | journalAppend
  /-- JOURNAL_RECORD_VISIBLE (R306). When every byte of a record is in HBM, the stream's write position advances past it. -/
  | journalRecordVisible (stream : StreamId)
  /-- STREAM_ENABLE (R314). Writing SHL_STR_CTL.en = 1 on a valid journal region resets the stream's positions and marks. -/
  | streamEnable (stream : StreamId) (region : BitVec 16)
  /-- STREAM_DISABLE (R314). Writing SHL_STR_CTL.en = 0 stops appending at once. -/
  | streamDisable (stream : StreamId) (region : BitVec 16)
  /-- GROUP_MAP_WRITE (R314). A write to SHL_GRP_MAPg maps a group to a stream for contexts opened after it. -/
  | groupMapWrite (group : BitVec 12) (value : BitVec 32)
  /-- QUENCH (R316). Writing MICA_OE_CTL.quench closes or reopens every shutter of the engine. -/
  | quench (tile : TileId) (on : Bool)
  /-- OE_SWEEP (R322). Writing MICA_OE_CTL.sweep restarts heater sweeps on faulted lanes whose links are disabled. -/
  | oeSweep (tile : TileId)
  /-- ELS_EN_WRITE (R319). A write to MICA_ELS_CTLm.en drives ELS_EN when the module is present. -/
  | elsEnWrite (els : ElsId) (en : Bool)
  /-- ELS_PRESENCE_CHANGE (R319). A change of ELS_PRSNT_N updates status, and a removal drives ELS_EN low and clears en. -/
  | elsPresenceChange (els : ElsId) (present : Bool)
  /-- ELS_FAULT_CHANGE (R319). A change of ELS_FAULT_N updates the module's status and interrupt. -/
  | elsFaultChange (els : ElsId) (fault : Bool)
  /-- LASER_LIGHT_LOST (R320). A laser below +14 dBm for 10 µs puts its lanes in HOLD and takes their links down. -/
  | laserLightLost (els : ElsId) (laser : Fin 8) (power : BitVec 16)
  /-- LASER_LIGHT_RETURN (R320). A laser reaching +15 dBm again resumes its lanes' loops. -/
  | laserLightReturn (els : ElsId) (laser : Fin 8) (power : BitVec 16) (far : BitVec 16)
  /-- RESONANCE_FOUND (R322). A heater sweep finds resonance and the lane loop moves to PILOT. -/
  | resonanceFound (tile : TileId) (lane : LaneNo) (heater : BitVec 16)
  /-- SWEEP_TIMEOUT (R322). A sweep that finds no resonance in 50 ms puts the lane in FAULT. -/
  | sweepTimeout (tile : TileId) (lane : LaneNo)
  /-- HEATER_RANGE_END (R322). A modulator heater code at the end of its range puts the lane in FAULT. -/
  | heaterRangeEnd (tile : TileId) (lane : LaneNo)
  /-- LOOP_UPDATE (R323). A modulator loop updates its heater at least every 4 µs in LIVE or PILOT. -/
  | loopUpdate (tile : TileId) (lane : LaneNo) (sample : LaneSample)
  /-- LANE_DRIVER_CHANGE (R323). A lane driver parking or starting to modulate moves its loop between LIVE and PILOT. -/
  | laneDriverChange (tile : TileId) (lane : LaneNo) (modulates : Bool)
  /-- FOI_ENABLE (R328). FOI_CTL.en = 1 with MICA0 or MICA1 running starts the router rings or resumes them from HOLD. -/
  | foiEnable
  /-- FOI_DISABLE (R328). FOI_CTL.en = 0 holds every router heater code. -/
  | foiDisable
  /-- RING_LIGHT (R328). A TRACK ring whose drop tap reads at least −20 dBm starts its dither lock. -/
  | ringLight (ring : WaveId)
  /-- RING_DARK (R328). A LOCK ring whose drop tap stays below −25 dBm for 1 ms returns to TRACK. -/
  | ringDark (ring : WaveId)
  /-- RING_HEATER_END (R328). A router heater code at the end of its range puts the ring and its directory entry in FAULT. -/
  | ringHeaterEnd (ring : WaveId)
  /-- RING_LOCK_UPDATE (R329). A router ring is updated at least every 64 µs in LOCK. -/
  | ringLockUpdate (ring : WaveId) (heater : BitVec 16) (lockErr : BitVec 8)
  /-- TAP_SAMPLE (R336). Every router monitor tap is sampled at least every 100 µs. -/
  | tapSample (tap : Tap) (power : BitVec 16)
  /-- ROGUE_LIGHT (R330). Light above rogue_dbm for 100 µs on a FREE ring is counted, and blocked when block_rogue = 1. -/
  | rogueLight (ring : WaveId)
  /-- CIRCUIT_ACTIVE (R330). A GRANTED ring with drop tap above act_dbm for 100 µs becomes ACTIVE. -/
  | circuitActive (ring : WaveId)
  /-- CIRCUIT_LOSS (R330). An ACTIVE ring below act_dbm for 1 ms returns to GRANTED and is counted as a loss. -/
  | circuitLoss (ring : WaveId)
  /-- REVOKE_DARK (R330). A REVOKING ring whose drop tap falls below rogue_dbm becomes FREE. -/
  | revokeDark (ring : WaveId)
  /-- REVOKE_TIMER (R330). The revoke timer expires with light still present and the ring is blocked. -/
  | revokeTimer (ring : WaveId)
  /-- GRANT (R331). The GRANT command gives a FREE ring to a holder. -/
  | grant
  /-- REVOKE (R331). The REVOKE command starts the revoke timer of a held ring. -/
  | revoke
  /-- BLOCK (R331). The BLOCK command moves a ring to its block point. -/
  | block
  /-- UNBLOCK (R331). The UNBLOCK command returns a blocked ring to FREE. -/
  | unblock
  /-- CAL (R331). The CAL command relearns a ring's target from live light. -/
  | cal (inRange : Bool) (heater : BitVec 16)
  /-- LOCATE (R339). The LOCATE command places a circuit's loss at one of four stages. -/
  | locate
  /-- DIRECTORY_PUBLICATION (R333). Jasper writes the colour directory into its region after a change or once a second. -/
  | directoryPublication
  /-- RAW_WRAP (R348). The raw counter wraps and offset is adjusted to keep time continuous. -/
  | rawWrap
  /-- STEP_COMMIT (R350). Writing QTZ_CTL.step commits the step registers for the next time-clock cycle. -/
  | stepCommit
  /-- STEP_APPLY (R350). A committed step is applied to offset, or ignored when valid = 1 and not armed. -/
  | stepApply
  /-- RATE_WRITE (R348). A write to QTZ_RATE changes the rate and adjusts offset so that time stays continuous. -/
  | rateWrite (value : BitVec 32)
  /-- INVALIDATE (R350). Writing QTZ_CTL.invalidate clears valid. -/
  | invalidate
  /-- QTZ_SNAP (R370). Writing QTZ_SNAP.snap latches raw, time, offset and rate in one cycle. -/
  | qtzSnap
  /-- TILE_COPY_SYNC (R353). A tile's Quartz copy comes into agreement with the master after release, and its sync bit sets. -/
  | tileCopySync (tile : TileId)
  /-- TXTS_POP (R356). Writing QTZ_TXTS_POP.pop loads the oldest transmit timestamp record. -/
  | txtsPop (tile : TileId)
  /-- PPS_IN_EDGE (R359). A rising edge on PPS_IN latches hall time less in_dly. -/
  | ppsInEdge
  /-- PPS_OUT_EDGE (R359). PPS_OUT rises at each whole second of valid hall time plus out_dly. -/
  | ppsOutEdge
  /-- PPS_OUT_FALL (R359). PPS_OUT falls pps_width_ms after its rise. -/
  | ppsOutFall
  /-- COUNTER_CARRY (R360). A near counter's overflow is carried into its far counter within 64 core clocks. -/
  | counterCarry
  /-- SNAP_GO (R361). Writing JSP_SNAP_CTL.go starts a counter snapshot, at once or at a set time. -/
  | snapGo (atTime : Bool) (groups : BitVec 11)
  /-- SNAP_LATCH (R361). At the set hall time, every tile latches the chosen counter groups into the shadow copy. -/
  | snapLatch
  /-- SNAP_DONE (R361). A counter snapshot completes, busy clears and seq advances. -/
  | snapDone
  /-- PRUN_WRITE (R363). A write to JSP_PRUN starts or stops the programmable counters on every die. -/
  | prunWrite (run : Bool)
  /-- TRACE_RECORD (R367). A tile delivers a buffered trace record to its host ring within the rate limit, or discards it. -/
  | traceRecord (tile : TileId)
  /-- MONITOR_SAMPLE (R368). A margin monitor is sampled and raises warn or alarm when it crosses a threshold. -/
  | monitorSample (monitor : MonitorId) (value : BitVec 16)
  /-- MONITOR_REARM (R369). A monitor that stayed on the good side of warn for 10 ms re-arms. -/
  | monitorRearm (monitor : MonitorId)
  /-- DL_BEGIN (R394). The DL_BEGIN command opens a download to the inactive slot or the RAM stage. -/
  | dlBegin
  /-- DL_CHUNK (R394). The DL_CHUNK command writes the staging window's bytes at the next offset. -/
  | dlChunk
  /-- VERIFY (R394). The VERIFY command verifies the downloaded bundle and its epochs. -/
  | verify (flashOk : Bool)
  /-- ACTIVATE_NEXT (R394). ACTIVATE with mode NEXT writes a TRIAL record naming the inactive slot. -/
  | activateNext
  /-- ACTIVATE_ROLL (R398). ACTIVATE with mode ROLL moves a running device to the new bundle group by group. -/
  | activateRoll
  /-- ACTIVATE_RUN (R394). ACTIVATE with mode RUN starts the verified RAM bundle in a host-load start. -/
  | activateRun
  /-- CONFIRM (R394). The CONFIRM command writes a CONFIRMED record for the trial slot. -/
  | confirm
  /-- TILE_LOAD (R397). The TILE_LOAD command reloads one tile's Plaper section while other tiles carry traffic. -/
  | tileLoad (flashOk : Bool)
  /-- ROLL_GROUP (R398). A roll loads the next group once the previous group's links are UP or wait_ms passes. -/
  | rollGroup (flashOk : Bool) (far : List (TileId × LaneNo))
  /-- MICA_START (R391). MICA0 and MICA1 start the Mica firmware and the router loops run. -/
  | micaStart (far : List (TileId × LaneNo))
  /-- IMAGE_RUNNING (R391). Every tile section is loaded and the device reaches image running. -/
  | imageRunning (far : List (TileId × LaneNo))
  /-- POWER_ON (R403). VDD_AON rises through its threshold and a cold reset is raised. -/
  | powerOn
  /-- POWER_GOOD_HOLD_END (R505). Every rail has stayed above 92 % for 1 ms and the cold-reset hold ends. -/
  | powerGoodHoldEnd (bootSrc : BitVec 2) (clkMode : BitVec 2)
  /-- BROWN_OUT (R505). A rail below 92 % of nominal for 1 µs raises a brown-out reset. -/
  | brownOut
  /-- RESET_N (R403). RESET_N low for at least 1 µs raises a reset of its fused level; its rise samples the straps. -/
  | resetN (low : Bool) (bootSrc : BitVec 2) (clkMode : BitVec 2)
  /-- WATCHDOG_KICK (R407). Writing RSTC_WDT_KICK.kick restarts the watchdog count. -/
  | watchdogKick
  /-- WATCHDOG_HALF (R407). Half of timeout_ms passes without a kick and wdt_half is set. -/
  | watchdogHalf
  /-- WATCHDOG_TIMEOUT (R407). timeout_ms passes without a kick and the watchdog raises a reset. -/
  | watchdogTimeout
  /-- SOFTWARE_REQUEST (R406). A keyed write to RSTC_SWRST requests a reset of the named level and target. -/
  | softwareRequest (value : BitVec 32)
  /-- MGMT_LOCKUP (R408). A management core that retires nothing for 100 ms or waits 10 ms on a bus access raises a reset. -/
  | mgmtLockup
  /-- CLOCK_FAILURE (R429). A clock monitor trips, sets its status and raises a reset held while the clock is bad. -/
  | clockFailure (clock : ClockId)
  /-- CLOCK_RECOVERY (R429). A failed clock is good again and the held reset releases 1 ms later. -/
  | clockRecovery (clock : ClockId)
  /-- RESET_ASSERT_END (R409). The logic reset has been held its time and the domains are released. -/
  | resetAssertEnd (run : Nat)
  /-- RESET_RELOAD (R409). Released domains reload their sections, tables and firmware, or start the boot ROM. -/
  | resetReload (run : Nat) (found : ReloadFindings)
  /-- TABLE_COPY_RELOAD (R414). A die's table copies finish copying from another die or rebuilding from the image. -/
  | tableCopyReload (die : DieId)
  /-- FAILS_CLEAR (R420). Writing RSTC_FAILS.clear sets the failed-start count to 0 and clears locked. -/
  | failsClear
  /-- DOMAIN_POWER_UP (R422). Writing PWR_DOM_CTLn.on = 1 queues a domain for staggered power-up if its requirements are ON. -/
  | domainPowerUp (domain : DomainId)
  /-- DOMAIN_POWER_DOWN (R423). Writing PWR_DOM_CTLn.on = 0 powers a domain down with the effects of its kind, unless refused. -/
  | domainPowerDown (domain : DomainId)
  /-- DOMAIN_ON (R423). A powering domain reaches ON and runs its power-up effects. -/
  | domainOn (domain : DomainId) (flashOk : Bool)
  /-- TILE_CELL_DISCARD (R423). Cells of a powered-down tile slice still owned 10 ms later are discarded and counted. -/
  | tileCellDiscard (tile : TileId)
  /-- SLEEP_REQUEST (R424). A write to PWR_SLEEP.target starts a sleep transition, or is refused. -/
  | sleepRequest (target : BitVec 2)
  /-- SLEEP_DONE (R424). A sleep transition completes and sleep_done is set. -/
  | sleepDone
  /-- LC_ADVANCE (R432). The LC_ADVANCE command moves the life-cycle state one step. -/
  | lcAdvance (failAt : Option Nat)
  /-- RMA_UNLOCK (R439). The RMA_UNLOCK command verifies a signed request, zeroes memory, destroys the secret and enters RMA. -/
  | rmaUnlock (failAt : Option Nat)
  /-- KEY_SET (R434). The KEY_SET command fuses a public key hash into a slot. -/
  | keySet (failAt : Option Nat)
  /-- KEY_REVOKE (R434). The KEY_REVOKE command programs a slot's revoke fuse. -/
  | keyRevoke (failAt : Option Nat)
  /-- SVN_RAISE (R436). The SVN_RAISE command raises a component's minimum security version. -/
  | svnRaise (failAt : Option Nat)
  /-- RSTMAP_SET (R434). The RSTMAP_SET command fuses the reset level of one source. -/
  | rstmapSet (failAt : Option Nat)
  /-- REPAIR_FUSE (R446). The REPAIR_FUSE command makes soft repairs permanent. -/
  | repairFuse (failAt : Option Nat)
  /-- ATTEST (R441). The ATTEST command signs the nonce, identity, state and measurements with the device key. -/
  | attest
  /-- BIST (R443). The BIST command runs logic and memory BIST on one domain. -/
  | bist (found : BistFindings)
  /-- SCAN_ENTRY (R440). The scan-entry instruction zeroes SRAM, stops secret sensing and confirms scan. -/
  | scanEntry
  /-- SRAM_SCRUB (R450). The scrubber reads SRAM words in idle slots and writes back corrected words. -/
  | sramScrub (word : SramWord) (found : WordFinding)
  /-- PATROL_SCRUB (R451). The HBM patrol scrub reads a line, writes back corrections and poisons uncorrectable lines. -/
  | patrolScrub (line : Fin 2415919104) (found : WordFinding)
  /-- RING_DOORBELL (R470). A tail doorbell for a host DMA ring is applied or ignored with tail_err. -/
  | ringDoorbell (ring : RingId) (tail : BitVec 32)
  /-- CQ_DOORBELL (R470). A tail doorbell for a collective command queue is applied or ignored with tail_err. -/
  | cqDoorbell (queue : QueueId) (tail : BitVec 32)
  /-- RING_ENABLE (R469). Writing DMA_RING_CFG.en = 1 enables a ring and sets its head and tail to 0, unless refused. -/
  | ringEnable (ring : RingId) (value : BitVec 32)
  /-- RING_RESET (R480). Writing DMA_RING_CTL.reset truncates, discards pending records, moves head to tail and clears faults. -/
  | ringReset (ring : RingId)
  /-- CQ_RESET (R479). Writing DMA_CQ_CTL.reset discards unstarted descriptors and clears the queue's faults. -/
  | cqReset (queue : QueueId)
  /-- HOST_RX_FRAME (R475). A frame for the host is written into RX descriptors, or discarded or truncated. -/
  | hostRxFrame (ring : RingId) (descs : List RxDesc)
  /-- HOST_TX_FRAME (R476). A TX frame from the host is sent to egress or the pipeline and its status is written back. -/
  | hostTxFrame (ring : RingId) (descs : List TxDesc) (bytes : List Byte) (image : ImageClass)
  /-- CPL_RECORD (R477). A completion, event or error record is written to its CPL ring or held pending. -/
  | cplRecord (ring : RingId)
  /-- HOST_ACCESS_FAULT (R480). A host access ending in error or timeout stops its ring or queue and sets fault. -/
  | hostAccessFault (place : HostPlace)
  /-- FUNCTION_LEVEL_RESET (R467). A Function Level Reset resets PCI Express configuration, MSI-X and side-0 rings and queues. -/
  | functionLevelReset
  /-- BUS_MASTER_ENABLE (R467). A change of Bus Master Enable stops or resumes side-0 rings and queues. -/
  | busMasterEnable (on : Bool)
  /-- RING_IRQ_DELAY (R488). delay_us passes after an unreported head advance and the ring becomes pending. -/
  | ringIrqDelay (ring : RingId)
  /-- IRQ_ARM (R487). Writing MGT_IRQ_ARM re-arms a vector and resends its message if anything is pending. -/
  | irqArm (vector : Fin 64)
  /-- MAILBOX_DOORBELL (R482). A mailbox doorbell takes the next H2D message, or is ignored with bad_seq. -/
  | mailboxDoorbell (seq : BitVec 32)
  /-- D2H_ACK (R482). A write to MGT_MBX_D2H_ACK consumes D2H messages, or is ignored with bad_seq. -/
  | d2hAck (value : BitVec 32)
  /-- PING (R485). The PING message is answered with its own payload. -/
  | ping
  /-- FW_INFO (R485). The FW_INFO message returns the running versions and the mailbox epoch. -/
  | fwInfo
  /-- PTP_CFG (R485). The PTP_CFG message sets the firmware's lock, step and rate thresholds. -/
  | ptpCfg
  /-- TOD_SET (R485). The TOD_SET message gives the hall-time seconds of the next PPS_IN edge. -/
  | todSet
  /-- TIME_SRC (R485). The TIME_SRC message selects PTP or PPS_IN as the time source. -/
  | timeSrc
  /-- UART_FRAME (R496). A recovery frame on the debug UART is unstuffed, checked and taken as a mailbox message. -/
  | uartFrame (bytes : List Byte)
  /-- REG_READ (R496). The REG_READ recovery message reads a BAR0 or BAR2 register. -/
  | regRead
  /-- REG_WRITE (R496). The REG_WRITE recovery message writes a BAR0 or BAR2 register. -/
  | regWrite
  /-- BAUD (R496). The BAUD recovery message changes the UART rate after its response. -/
  | baud
  /-- STAGE_WRITE (R496). The STAGE_WRITE recovery message writes bytes into the staging window. -/
  | stageWrite
  /-- I2C_START (R489). Writing I2C_CMD.start begins a write-then-read transfer on the controller. -/
  | i2cStart (ctrl : Fin 2) (value : BitVec 32)
  /-- I2C_TRANSFER_END (R489). A transfer ends normally, by NACK, by lost arbitration or by SCL stuck. -/
  | i2cTransferEnd (ctrl : Fin 2) (outcome : I2cEnd)
  /-- I2C_CLEAR (R490). Writing I2C_CTL.clear pulses SCL until SDA is released, or reports the bus stuck. -/
  | i2cClear (ctrl : Fin 2) (outcome : ClearEnd)
  /-- I2C_RESET (R490). Writing I2C_CTL.reset resets the controller and clears the bus if SDA is low. -/
  | i2cReset (ctrl : Fin 2) (sdaLow : Bool) (outcome : ClearEnd)
  /-- SMBUS_BLOCK_READ (R491). An SMBus Block Read returns the register named by its command code. -/
  | smbusBlockRead (code : BitVec 8)
  /-- ALERT_RESPONSE (R491). The target answers the SMBus Alert Response Address while it drives SMB_ALERT_N. -/
  | alertResponse
  /-- GPIO_FUNC_WRITE (R493). A write changing GPIO_FUNCn disconnects the pin and starts the switch. -/
  | gpioFuncWrite (pin : Fin 16) (func : BitVec 2)
  /-- GPIO_SWITCH_END (R493). Two peripheral clocks later the new function connects and any held write is applied. -/
  | gpioSwitchEnd (pin : Fin 16)
  /-- GPIO_EDGE (R501). A selected edge on a GPIO pin sets its interrupt bit. -/
  | gpioEdge (pin : Fin 16) (rising : Bool)
  /-- BYPASS (R495). The JTAG BYPASS instruction selects the bypass register. -/
  | bypass (shift : BitVec 1)
  /-- IDCODE (R495). The JTAG IDCODE instruction returns the device identity. -/
  | idcode
  /-- SAMPLE_PRELOAD (R495). The JTAG SAMPLE/PRELOAD instruction samples and preloads the boundary register. -/
  | samplePreload (sampled : Nat) (data : Nat)
  /-- EXTEST (R495). The JTAG EXTEST instruction drives digital pins from the boundary register. -/
  | extest (data : Nat)
  /-- DEBUG_TRANSPORT (R495). The JTAG instruction 0x10 reaches the management cores' RISC-V debug transport module. -/
  | debugTransport
  /-- BAR_ACCESS (R495). The JTAG instruction 0x11 makes a 32-bit BAR0 or BAR2 access. -/
  | barAccess (bar2 : Bool) (address : BitVec 30) (write : Option (BitVec 32))
  /-- OBSIDIAN_COMMAND_PATH (R495). The JTAG instruction 0x12 issues an Obsidian command. -/
  | obsidianCommandPath (op : BitVec 4) (index : BitVec 8)
  /-- RESET_REQ (R495). The JTAG RESET_REQ instruction raises a debug reset request of the given level and target. -/
  | resetReq (level : BitVec 3) (die : BitVec 2) (tile : BitVec 5)
  /-- THERMAL_TRIP (R520). A hardware thermal trip drives THERMTRIP_N low, closes shutters and stops every PLL until VDD_AON falls. -/
  | thermalTrip
  /-- PFC_PAUSE_EXPIRY (R69). The pause time carried by a received PFC XOFF runs out and the paused class of an Ethernet-mode link may
  start frames again. -/
  | pfcPauseExpiry (link : LinkId) (cls : ClassId)
  /-- READ_RESP (R282). A READ_RESP frame delivered to the spine's Gneiss engine matches no request and is counted in GNS_STRAY. -/
  | readResp (frame : Nat)
  /-- ATOMIC_RESP (R282). An ATOMIC_RESP frame delivered to the spine's Gneiss engine matches no request and is counted in GNS_STRAY. -/
  | atomicResp (frame : Nat)
  /-- POWER_UP_TURN (R447). 100 µs after the previous domain reached ON, the next requested domain starts its power-switch ramp. -/
  | powerUpTurn
  /-- STALE_BLOCKS_COPIED (R275). A re-powered HBM stack finishes copying its stale blocks from the live copies and starts serving them. -/
  | staleBlocksCopied (stack : Fin 12)
  /-- USER_VIEW_READ (R362). A read of the BAR2 user counter view returns the live or shadow value if its group is permitted, or 0 and
  counts JSP_UREAD_DENIED. -/
  | userViewRead (shadow : Bool) (address : BitVec 26)
  deriving DecidableEq, Repr

end Sys2Proof
end

