-- ==== Sys2Proof/Config.lean ====
section
/-!
DEFINITION. What the spec leaves open: free values, and functions that it names without giving them. They are constants
without a body, so that nothing can be proved of them.
-/

namespace Sys2Proof

/-- A free value: the n-th that the block needed, n being `Blk.fresh`. Its users cut it to the width they need. -/
opaque Config.freeValue : Nat → Nat

/-- What a tile's Quartz copy reads before it agrees with the master, by tile and master time: the spec gives no value (R36,
R353). -/
opaque Config.tileCopy : Nat → Nat → Nat

/-- The fused delays and the deskew that a timestamp of a link takes in, in units of 2⁻¹⁶ ns, for reception and for transmission
(R354): the spec gives no values. -/
opaque Config.stampDelay : Nat → Bool → Int

/-- The source MAC address of link control frames on a link: the spec gives none (R50). -/
opaque Config.linkMac : Nat → Nat

/-- The register writes that an image section encodes, as BAR0 addresses and 32-bit values. The encoding inside sections is
the Plaper compiler's own (R380). -/
opaque Config.sectionWrites : List (BitVec 8) → List (Nat × Nat)

/-- max_frame as a GLOBAL section sets it, if it does (R83, R380). -/
opaque Config.sectionMaxFrame : List (BitVec 8) → Option Nat

/-- The link control EtherType as a GLOBAL section sets it, if it does (R50, R380). -/
opaque Config.sectionLinkType : List (BitVec 8) → Option Nat

/-- The update records that a TABLES section holds (R379, R380). -/
opaque Config.sectionRecords : List (BitVec 8) → List (List (BitVec 8))

/-- The device key that Obsidian derives from the device secret of a number: the private key, modulo the order of the base point
(R441). -/
opaque Config.deviceKey : Nat → Nat

/-- What a content of the boundary register makes of a digital pin: the level driven, or none (R495). The spec gives no order of its
cells. Pins are numbered: GPIO n at n, ELS_EN of module m at 16 + m, PPS_OUT at 32, THERMTRIP_N at 33. -/
opaque Config.boundaryPad : Nat → Nat → Option Bool

/-- The manufacturer identity in the JTAG IDCODE, 11 bits of it used (R495): the spec names it without its value. -/
opaque Config.jtagManufacturer : Nat

end Sys2Proof
end

