-- ==== Sys2Proof/Machine/RegMap.lean ====
section
/-!
DEFINITION. The register map, read from the register tables of spec/: every named field of every register
(`Fld`), every register (`Reg`), the bits, access code and reset value of a field, and the address, the
repetition, the width, the reset scope and the power domain of a register. A field's value is held once, in
`State.fields`; a register is put together from its fields. MSIX_PBA stands for the pending bit array of BAR4 (R466), beyond the
addresses of BAR0.
-/

namespace Sys2Proof.Machine

/-- Access codes of R12. -/
inductive Access where
  | rw | ro | wo | w1c | w1s | rc
  deriving DecidableEq, Repr

/-- Which resets take a register: those of its tile, of its die, of its Agate link end, those at the cold
and warm levels, or those at the cold level alone (R402, R412). -/
inductive Scope where
  | tile | die | agate | warm | cold
  deriving DecidableEq, Repr

/-- The kind of power domain a register lies in (R415). -/
inductive DomKind where
  | none | tile | oe | garnet | die | agate
  deriving DecidableEq, Repr

/-- Position, access code and reset value of a field. -/
structure FldInfo where
  lo : Nat
  width : Nat
  access : Access
  reset : Nat
  deriving DecidableEq, Repr

/-- Every named register field of spec/: the register's name followed by the field's. -/
inductive Fld where
  | MGT_DEVICE_ID_part_num | MGT_DEVICE_ID_family | MGT_DEVICE_ID_step_major | MGT_DEVICE_ID_step_minor
  | TIL_PORT_MODE_bo_reject | TIL_PORT_MODE_loopback | TIL_PORT_MODE_breakout | TIL_LNK_CTL_ka_accept
  | TIL_LNK_CTL_ka_req | TIL_LNK_CTL_retrain | TIL_LNK_CTL_link_mode | TIL_LNK_CTL_lnk_en
  | TIL_LNK_STATUS_state | TIL_LNK_STATUS_ka_cap | TIL_LNK_STATUS_retry_on | TIL_LNK_STATUS_staketu
  | TIL_LNK_STATUS_signal | TIL_LNK_STATUS_up | TIL_LNK_INT_credit_mismatch | TIL_LNK_INT_ka_change
  | TIL_LNK_INT_retrain | TIL_LNK_INT_frame_lost | TIL_LNK_INT_burst | TIL_LNK_INT_down | TIL_LNK_INT_up
  | TIL_LNK_INT_EN_bits | TIL_LNK_BURST_CFG_retrain_count | TIL_LNK_BURST_CFG_retrain_window
  | TIL_LNK_BURST_CFG_burst_gap | TIL_LNK_PFC_CFG_pfc_rx_en | TIL_LNK_PFC_CFG_pfc_tx_en | TIL_LNK_RTT_rtt_ns
  | TIL_LNK_GRANT_TC_partner_grant | TIL_LNK_GRANT_TC_local_grant | TIL_LNK_FEC_CORR_count
  | TIL_LNK_FEC_UNCORR_count | TIL_LNK_FEC_SYMERR_count | TIL_LNK_RETRY_count | TIL_LNK_LOST_count
  | TIL_LNK_BURSTS_count | TIL_LNK_RETRAINS_count | TIL_LNK_RESYNCS_count | TIL_LNK_FLUSH_count
  | TIL_FWD_CFG_xeirrik_etype | TIL_FWD_CFG_ce_level | TIL_FWD_CFG_learn_en | TIL_FWD_CFG_route_en
  | TIL_FWD_CFG_fwd_en | TIL_FWD_RMAC_rmac | TIL_FWD_DROP_count | DMA_TBL_LOCK_locked | DMA_TBL_LOCK_holder
  | DMA_TBL_AGE_age_s | DMA_TBL_LRN_MISS_count | DMA_TBL_MOVES_count | JSP_CMAP_CTL_en
  | JSP_CMAP_CTL_host_copy | JSP_CMAP_CTL_interval | JSP_CMAP_CTL_group | JSP_CMAP_SRC_eid | TIL_CT_CFG_ct_en
  | TIL_STG_CTL_out_verify | TIL_STG_STATUS_grant_over | TIL_STG_STATUS_used | TIL_CHK_FAIL_IN_count
  | TIL_CHK_FAIL_OUT_count | TIL_CHK_STOMP_RX_count | BSL_ADM_CFG_stall_us | BSL_ADM_CFG_lossless
  | BSL_FREE_count | BSL_QUEUED_count | BSL_RESERVED_count | BSL_RETIRED_count | BSL_CNT_SNAP_snap
  | BSL_REPAIRED_count | BSL_AUDIT_CTL_en | BSL_AUDIT_CTL_period_ms | BSL_AUDIT_STATUS_suspect
  | BSL_INT_double | BSL_INT_leak | BSL_INT_stall | BSL_INT_cfg_reject | BSL_INT_EN_bits
  | BSL_DROP_NOCELL_count | BSL_DROP_LINKDOWN_count | BSL_DROP_PAIRDOWN_count | BSL_ADM_STALL_count
  | BSL_AUDIT_RECLAIM_count | BSL_AUDIT_DOUBLE_count | BSL_POOL_TC_alpha | BSL_POOL_TC_min_cells
  | D2D_LNK_CTL_auto_retrain | D2D_LNK_CTL_retrain | D2D_LNK_CTL_en | D2D_LNK_STATUS_mgmt
  | D2D_LNK_STATUS_state | D2D_LNK_CRCERR_count | D2D_LNK_REPLAY_count | D2D_LNK_FAILS_count
  | D2D_PAIR_CFG_min_links | D2D_PAIR_STATUS_live_ji | D2D_PAIR_STATUS_live_ij | D2D_PAIR_INT_down
  | D2D_PAIR_INT_degraded | D2D_PAIR_INT_link_fail | D2D_PAIR_INT_EN_bits | FLD_SUB_CFG_rate
  | FLD_SUB_CFG_burst | FLD_SUB_CFG_weight | FLD_SUB_DEPTH_cells | FLD_PORT_SPLIT_nodes
  | FLD_SRC_NODE_gneiss_node | FLD_SRC_NODE_host_node | FLD_SRC_NODE_jasper_node | FLD_INT_tc7_over
  | FLD_INT_gate_err | FLD_INT_cfg_reject | FLD_INT_EN_bits | FLD_TC7_OVER_count | FLD_GATE_DROP_count
  | FLD_DROP_DETACHED_count | FLD_LNK_CTL_preempt | FLD_TC7_MON_rate | FLD_TC7_MON_burst
  | FLD_GATE_CTL_gate_en | FLD_GATE_CTL_len1 | FLD_GATE_CTL_len0 | FLD_GATE_CTL_commit
  | FLD_GATE_STATUS_time_wait | FLD_GATE_STATUS_pending | FLD_GATE_STATUS_active | FLD_GATE_STATUS_entry
  | FLD_GATE_BASE_S_sec | FLD_GATE_BASE_NS_nsec | FLD_GATE_CYCLE_NS_cycle | FLD_CLS_CFG_strict
  | FLD_CLS_CFG_cbs_en | FLD_CLS_CFG_weight | FLD_CBS_CFG_idle_slope | FLD_CBS_CFG_hi_limit
  | FLD_GATE_ENT_gates | FLD_GATE_ENT_interval | GRN_FMT_CTL_mx_sat | GRN_FMT_CTL_e4m3_sat
  | GRN_FMT_CTL_op_en | GRN_FMT_CTL_fmt_en | GRN_AUDIT_CFG_audit_log2 | GRN_IST_CTL_en
  | GRN_IST_CTL_period_ms | GRN_IST_STATUS_busy | GRN_IST_STATUS_engine | GRN_IST_STARVED_starved
  | GRN_IST_FAIL_fail | GRN_IST_PASSES_count | GRN_CTL_release | GRN_CTL_quarantine | GRN_STATUS_chunks
  | GRN_STATUS_subst | GRN_STATUS_state | GRN_SPILL_CFG_wait_us | GRN_SPILL_CFG_quota | GRN_SPILL_USED_cells
  | GRN_SCR_USED_lines | GRN_INT_audit_mismatch | GRN_INT_quarantined | GRN_INT_residue | GRN_INT_scr_uncorr
  | GRN_INT_scr_corr | GRN_INT_no_scratch | GRN_INT_conflict | GRN_INT_EN_bits | GRN_RELEASED_count
  | GRN_FAILED_count | GRN_ELEMS_count | GRN_DUP_count | GRN_LATE_count | GRN_RESIDUE_ERR_count
  | GRN_MOVED_count | GRN_AUDITED_count | GRN_ESCAPES_count | GRN_SCR_CORR_count | GRN_SPILL_WAITS_count
  | COL_CTL_en | COL_CTL_fence_ms | COL_CTL_def_timeout | COL_STATUS_open | COL_INT_fence_timeout
  | COL_INT_desc_err | COL_INT_ctx_fail | COL_INT_EN_bits | COL_COMPLETED_count | COL_FAILED_count
  | COL_TOKEN_value | COL_DISCARD_count | GNS_CTL_en | GNS_CTL_sweep_pct | GNS_CTL_resp_hops | GNS_CMD_op
  | GNS_CMD_index | GNS_CMD_STATUS_busy | GNS_CMD_STATUS_result | GNS_INT_gw_fail | GNS_INT_mem_err
  | GNS_INT_sweep_done | GNS_INT_cmd_reject | GNS_INT_EN_bits | GNS_REQ_OK_count | GNS_REQ_ERR_count
  | GNS_NW_READS_count | GNS_STRAY_count | GNS_GW_DISCARD_count | GNS_CMD_DATA_data | GNS_CQ_STATUS_peak
  | GNS_CQ_STATUS_used | GNS_CQ_WAITS_count | GNS_COMBINED_count | GNS_STALE_count | GNS_PART_abs_gib
  | GNS_PART_mem_gib | GNS_PART_STATUS_reject | GNS_PART_STATUS_jrn_gib | GNS_BW_CFG_w_fab | GNS_BW_CFG_w_rd
  | GNS_BW_CFG_w_jrn | GNS_CKP_CFG_mirror_gbps | GNS_CKP_CFG_retries | GNS_CKP_CFG_resp_us
  | GNS_CKP_FILL_fill_ms | GNS_CKP_STATUS_open | GNS_CKP_INT_notify_err | GNS_CKP_INT_drain_fail
  | GNS_CKP_INT_mirror_fail | GNS_CKP_INT_shard_fail | GNS_CKP_INT_EN_bits | GNS_CKP_ABSORBED_count
  | GNS_CKP_MIRRORED_count | GNS_CKP_DURABLE_count | GNS_CKP_FAILED_count | GNS_CKP_LATE_WR_count
  | GNS_CKP_RESTORE_FR_count | GNS_CKP_NOTIFY_ERR_count | SHL_CTL_en | SHL_INT_cfg_reject
  | SHL_INT_stream_lost | SHL_INT_overflow | SHL_INT_no_stream | SHL_INT_EN_bits | SHL_RECORDS_count
  | SHL_BYTES_count | SHL_DISCARDED_count | SHL_STR_CTL_en | SHL_STR_CTL_ovf | SHL_STR_CTL_region
  | SHL_STR_WPOS_pos | SHL_STR_TPOS_pos | SHL_STR_LOST_count | SHL_GRP_MAP_valid | SHL_GRP_MAP_stream
  | MICA_OE_CTL_sweep | MICA_OE_CTL_quench | MICA_OE_STATUS_locked | MICA_OE_STATUS_light
  | MICA_OE_INT_lane_fault | MICA_OE_INT_light_loss | MICA_OE_INT_light_ok | MICA_OE_INT_all_locked
  | MICA_OE_INT_EN_bits | MICA_LANE_STATUS_heater | MICA_LANE_STATUS_lock_err | MICA_LANE_STATUS_shut
  | MICA_LANE_STATUS_state | MICA_LANE_PWR_tx_pwr | MICA_LANE_PWR_rx_pwr | MICA_OE_FAULTS_count | FOI_CTL_en
  | FOI_CTL_block_rogue | FOI_CFG_act_dbm | FOI_CFG_rogue_dbm | FOI_CFG_ring_db | FOI_CFG_out_db
  | FOI_CFG_revoke_ms | FOI_CMD_op | FOI_CMD_index | FOI_CMD_DATA_eid | FOI_CMD_STATUS_busy
  | FOI_CMD_STATUS_loc | FOI_CMD_STATUS_result | FOI_STATUS_hold_s | FOI_STATUS_active | FOI_STATUS_loops
  | FOI_INT_cmd_reject | FOI_INT_hold_over | FOI_INT_pub_err | FOI_INT_loss | FOI_INT_revoke_block
  | FOI_INT_rogue | FOI_INT_ring_fault | FOI_INT_EN_bits | FOI_PUB_CTL_en | FOI_PUB_CTL_min_us
  | FOI_PUB_CTL_region | FOI_PUB_OFF_offset | FOI_PUB_SEQ_seq | FOI_ROGUE_count | FOI_LOSS_count
  | FOI_BPI_PWR_pwr | FOI_BPO_PWR_pwr | MICA_CTRL_STATUS_run | MICA_ELS_INT_change | MICA_ELS_INT_EN_bits
  | MICA_ELS_CTL_en | MICA_ELS_STATUS_on | MICA_ELS_STATUS_fault | MICA_ELS_STATUS_present | MICA_ELS_PWR_pwr
  | QTZ_CTL_step | QTZ_CTL_step_arm | QTZ_CTL_invalidate | QTZ_CTL_pps_out_en | QTZ_CTL_pps_width_ms
  | QTZ_STATUS_step_pending | QTZ_STATUS_valid | QTZ_INT_wrap | QTZ_INT_pps_in | QTZ_INT_step_reject
  | QTZ_INT_stepped | QTZ_INT_EN_bits | QTZ_RATE_rate | QTZ_RAW_raw | QTZ_SNAP_snap | QTZ_SNAP_RAW_raw
  | QTZ_SNAP_SEC_sec | QTZ_SNAP_NSEC_nsec | QTZ_SNAP_FRAC_frac | QTZ_SNAP_RATE_rate | QTZ_PPS_IN_SEC_sec
  | QTZ_PPS_IN_NSEC_nsec | QTZ_PPS_DLY_out_dly | QTZ_PPS_DLY_in_dly | QTZ_STEPS_count | QTZ_TILE_SYNC_sync
  | QTZ_STEP_step | QTZ_SNAP_OFF_offset | QTZ_LNK_ASYM_known | QTZ_LNK_ASYM_asym_ps | QTZ_TXTS_record
  | QTZ_TXTS_POP_empty | QTZ_TXTS_POP_pop | QTZ_TXTS_LOST_count | JSP_SNAP_CTL_go | JSP_SNAP_CTL_at_time
  | JSP_SNAP_CTL_groups | JSP_SNAP_SEC_sec | JSP_SNAP_NSEC_nsec | JSP_SNAP_STATUS_busy | JSP_SNAP_STATUS_seq
  | JSP_UPERM_groups | JSP_UREAD_DENIED_count | JSP_INT_mrg_alarm | JSP_INT_mrg_warn | JSP_INT_trc_lost
  | JSP_INT_pcnt_ovf | JSP_INT_sat | JSP_INT_EN_bits | JSP_TRC_SEED_seed | JSP_PRUN_run | JSP_MRG_RD_peak
  | JSP_MRG_RD_value | JSP_MRG_THR_alarm | JSP_MRG_THR_warn | JSP_MRG_TRIP0_trip | JSP_MRG_TRIP1_trip
  | JSP_PSEL_en | JSP_PSEL_chain | JSP_PSEL_src | JSP_PCNT_count | JSP_PCNT_OVF_ovf | JSP_TRC_CTL_en
  | JSP_TRC_CTL_rate_log2 | JSP_TRC_CTL_tc_mask | JSP_TRC_CTL_ring | JSP_TRC_LINK_match_en
  | JSP_TRC_LINK_link | JSP_TRC_LIMIT_limit | JSP_TRC_TAGGED_count | JSP_TRC_LOST_count | IMG_CMD_op
  | IMG_CMD_ARG0_arg | IMG_CMD_ARG1_arg | IMG_CMD_STATUS_busy | IMG_CMD_STATUS_fail_pair
  | IMG_CMD_STATUS_result | IMG_BOOT_phase | IMG_BOOT_src | IMG_BOOT_trial | IMG_BOOT_trials
  | IMG_BOOT_reverted | IMG_BOOT_slot | IMG_BOOT_conf_slot | IMG_BOOT_mgmt_slot | IMG_BOOT_mica_src
  | IMG_BOOT_boot_pair | IMG_BOOT_boot_err | IMG_DL_STATUS_state | IMG_DL_STATUS_target | IMG_DL_STATUS_bytes
  | IMG_ROLL_CFG_wait_ms | IMG_INT_reload_err | IMG_INT_roll_link | IMG_INT_fell_back | IMG_INT_reverted
  | IMG_INT_cmd_reject | IMG_INT_cmd_done | IMG_INT_EN_bits | IMG_TILE_SRC_src | IMG_RUN_VER_version
  | IMG_SI_RANGE_hi | IMG_SI_RANGE_lo | RSTC_CAUSE_resets | RSTC_CAUSE_level | RSTC_CAUSE_src
  | RSTC_CAUSE_die | RSTC_CAUSE_tile | RSTC_MAP_levels | RSTC_SWRST_key | RSTC_SWRST_level | RSTC_SWRST_die
  | RSTC_SWRST_tile | RSTC_WDT_CTL_en | RSTC_WDT_CTL_timeout_ms | RSTC_WDT_KICK_kick | RSTC_FAILS_locked
  | RSTC_FAILS_clear | RSTC_FAILS_count | RSTC_INT_wdt_half | RSTC_INT_clk_fail | RSTC_INT_sw_reject
  | RSTC_INT_iso | RSTC_INT_EN_bits | RSTC_ISO_ADDR_bar | RSTC_ISO_ADDR_offset | RSTC_ISO_CNT_count
  | RSTC_LOST_CELLS_count | RSTC_CLK_STATUS_lane_pll | RSTC_CLK_STATUS_hbm_pll | RSTC_CLK_STATUS_core_pll
  | RSTC_CLK_STATUS_mgmt_pll | RSTC_CLK_STATUS_time_pll | RSTC_CLK_STATUS_pcie_ref | RSTC_CLK_STATUS_mref
  | RSTC_CLK_STATUS_ref | RSTC_DIE_RST_die | RSTC_TILE_RST_tile | PWR_DOM_CTL_on | PWR_DOM_STATUS_state
  | PWR_SLEEP_busy | PWR_SLEEP_state | PWR_SLEEP_target | PWR_INT_sleep_done | PWR_INT_sleep_reject
  | PWR_INT_dep_reject | PWR_INT_EN_bits | OBS_LC_dbg_open | OBS_LC_scan | OBS_LC_state | OBS_CMD_op
  | OBS_CMD_index | OBS_CMD_STATUS_busy | OBS_CMD_STATUS_result | OBS_KEY_STATUS_revoked
  | OBS_KEY_STATUS_programmed | OBS_REPAIR_fused | OBS_REPAIR_pending | OBS_REPAIR_hbm_retired
  | OBS_INT_bist_fail | OBS_INT_fuse_err | OBS_INT_cmd_reject | OBS_INT_cmd_done | OBS_INT_EN_bits
  | OBS_DEV_ID_id | OBS_SVN_MIN_min | OBS_CMD_DATA_data | OBS_MEAS_hash | OBS_NONCE_nonce | MGT_ERR_CFG_en
  | MGT_ERR_CFG_fatal_act | MGT_ERR_CFG_uc_act | MGT_ERR_CFG_ring | MGT_ERR_LOST_count | MGT_ERR_INT_fatal
  | MGT_ERR_INT_uc_uncont | MGT_ERR_INT_uc_cont | MGT_ERR_INT_ce | MGT_ERR_INT_EN_bits | MGT_ERR_HEAD_next
  | MGT_ERR_CNT_count | MGT_ERR_LOG_record | GNS_SCRUB_CTL_en | GNS_SCRUB_CTL_period_h | GNS_HBM_CE_count
  | GNS_POISONED_count | DMA_RING_BASE_base | DMA_RING_CFG_en | DMA_RING_CFG_side | DMA_RING_CFG_func
  | DMA_RING_CFG_size_log2 | DMA_RING_CFG_irq_en | DMA_RING_CFG_vector | DMA_RING_CFG_cpl_ring
  | DMA_RING_WB_addr | DMA_RING_MOD_count | DMA_RING_MOD_delay_us | DMA_RING_HEAD_head | DMA_RING_TAIL_tail
  | DMA_RING_STATUS_bm_stop | DMA_RING_STATUS_tail_err | DMA_RING_STATUS_fault | DMA_RING_CTL_reset
  | DMA_RING_NOBUF_count | DMA_RING_TRUNC_count | DMA_INT_cfg_reject | DMA_INT_cpl_full | DMA_INT_misroute
  | DMA_INT_trunc | DMA_INT_tail_err | DMA_INT_fault | DMA_INT_EN_bits | DMA_PTP_MAP_en | DMA_PTP_MAP_ring
  | DMA_RX_DROP_count | DMA_CPL_DISCARD_count | DMA_RX_MAP_en | DMA_RX_MAP_count | DMA_RX_MAP_ring
  | DMA_CQ_BASE_base | DMA_CQ_CFG_en | DMA_CQ_CFG_side | DMA_CQ_CFG_size_log2 | DMA_CQ_HEAD_head
  | DMA_CQ_CTL_reset | DMA_CQ_STATUS_tail_err | DMA_CQ_STATUS_fault | MGT_MBX_H2D_word | MGT_MBX_D2H_word
  | MGT_MBX_H2D_TAKEN_seq | MGT_MBX_H2D_DONE_seq | MGT_MBX_D2H_SENT_seq | MGT_MBX_D2H_ACK_seq
  | MGT_MBX_STATUS_epoch | MGT_MBX_STATUS_fw_ready | MGT_MBX_INT_restarted | MGT_MBX_INT_bad_seq
  | MGT_MBX_INT_d2h | MGT_MBX_INT_EN_bits | MGT_IRQ_ROUTE_host_en | MGT_IRQ_ROUTE_mgmt_en
  | MGT_IRQ_ROUTE_vector | MGT_IRQ_PEND_pend | MGT_IRQ_ARM_vector | MGT_IRQ_ARMED_armed | MSIX_PBA_pend | MGT_IRQ_RPEND_pend
  | MGT_UART_CFG_baud | GPIO_FUNC_func | GPIO_OUT_out | GPIO_OE_oe | GPIO_IN_in | GPIO_INT_edge
  | GPIO_INT_EN_bits | GPIO_EDGE_sel | GPIO_STATUS_switching | I2C_CTL_en | I2C_CTL_reset | I2C_CTL_clear
  | I2C_CTL_speed | I2C_CMD_start | I2C_CMD_addr | I2C_CMD_rd_count | I2C_CMD_wr_count | I2C_DATA_byte
  | I2C_STATUS_busy | I2C_STATUS_scl_stuck | I2C_STATUS_sda_stuck | I2C_STATUS_arb_lost | I2C_STATUS_nack
  | I2C_STATUS_done | I2C_INT_reject | I2C_INT_stuck | I2C_INT_done | I2C_INT_EN_bits | I2C_TGT_CFG_alert_en
  | I2C_TGT_CFG_pec_en | I2C_TGT_CFG_addr
  deriving DecidableEq, Repr

/-- Every register of spec/, by the name its table gives it (less the trailing index letter). -/
inductive Reg where
  | MGT_DEVICE_ID | TIL_PORT_MODE | TIL_LNK_CTL | TIL_LNK_STATUS | TIL_LNK_INT | TIL_LNK_INT_EN
  | TIL_LNK_BURST_CFG | TIL_LNK_PFC_CFG | TIL_LNK_RTT | TIL_LNK_GRANT_TC | TIL_LNK_FEC_CORR
  | TIL_LNK_FEC_UNCORR | TIL_LNK_FEC_SYMERR | TIL_LNK_RETRY | TIL_LNK_LOST | TIL_LNK_BURSTS
  | TIL_LNK_RETRAINS | TIL_LNK_RESYNCS | TIL_LNK_FLUSH | TIL_FWD_CFG | TIL_FWD_RMAC | TIL_FWD_DROP
  | DMA_TBL_LOCK | DMA_TBL_AGE | DMA_TBL_LRN_MISS | DMA_TBL_MOVES | JSP_CMAP_CTL | JSP_CMAP_SRC | TIL_CT_CFG
  | TIL_STG_CTL | TIL_STG_STATUS | TIL_CHK_FAIL_IN | TIL_CHK_FAIL_OUT | TIL_CHK_STOMP_RX | BSL_ADM_CFG
  | BSL_FREE | BSL_QUEUED | BSL_RESERVED | BSL_RETIRED | BSL_CNT_SNAP | BSL_REPAIRED | BSL_AUDIT_CTL
  | BSL_AUDIT_STATUS | BSL_INT | BSL_INT_EN | BSL_DROP_NOCELL | BSL_DROP_LINKDOWN | BSL_DROP_PAIRDOWN
  | BSL_ADM_STALL | BSL_AUDIT_RECLAIM | BSL_AUDIT_DOUBLE | BSL_POOL_TC | D2D_LNK_CTL | D2D_LNK_STATUS
  | D2D_LNK_CRCERR | D2D_LNK_REPLAY | D2D_LNK_FAILS | D2D_PAIR_CFG | D2D_PAIR_STATUS | D2D_PAIR_INT
  | D2D_PAIR_INT_EN | FLD_SUB_CFG | FLD_SUB_DEPTH | FLD_PORT_SPLIT | FLD_SRC_NODE | FLD_INT | FLD_INT_EN
  | FLD_TC7_OVER | FLD_GATE_DROP | FLD_DROP_DETACHED | FLD_LNK_CTL | FLD_TC7_MON | FLD_GATE_CTL
  | FLD_GATE_STATUS | FLD_GATE_BASE_S | FLD_GATE_BASE_NS | FLD_GATE_CYCLE_NS | FLD_CLS_CFG | FLD_CBS_CFG
  | FLD_GATE_ENT | GRN_FMT_CTL | GRN_AUDIT_CFG | GRN_IST_CTL | GRN_IST_STATUS | GRN_IST_STARVED
  | GRN_IST_FAIL | GRN_IST_PASSES | GRN_CTL | GRN_STATUS | GRN_SPILL_CFG | GRN_SPILL_USED | GRN_SCR_USED
  | GRN_INT | GRN_INT_EN | GRN_RELEASED | GRN_FAILED | GRN_ELEMS | GRN_DUP | GRN_LATE | GRN_RESIDUE_ERR
  | GRN_MOVED | GRN_AUDITED | GRN_ESCAPES | GRN_SCR_CORR | GRN_SPILL_WAITS | COL_CTL | COL_STATUS | COL_INT
  | COL_INT_EN | COL_COMPLETED | COL_FAILED | COL_TOKEN | COL_DISCARD | GNS_CTL | GNS_CMD | GNS_CMD_STATUS
  | GNS_INT | GNS_INT_EN | GNS_REQ_OK | GNS_REQ_ERR | GNS_NW_READS | GNS_STRAY | GNS_GW_DISCARD
  | GNS_CMD_DATA | GNS_CQ_STATUS | GNS_CQ_WAITS | GNS_COMBINED | GNS_STALE | GNS_PART | GNS_PART_STATUS
  | GNS_BW_CFG | GNS_CKP_CFG | GNS_CKP_FILL | GNS_CKP_STATUS | GNS_CKP_INT | GNS_CKP_INT_EN
  | GNS_CKP_ABSORBED | GNS_CKP_MIRRORED | GNS_CKP_DURABLE | GNS_CKP_FAILED | GNS_CKP_LATE_WR
  | GNS_CKP_RESTORE_FR | GNS_CKP_NOTIFY_ERR | SHL_CTL | SHL_INT | SHL_INT_EN | SHL_RECORDS | SHL_BYTES
  | SHL_DISCARDED | SHL_STR_CTL | SHL_STR_WPOS | SHL_STR_TPOS | SHL_STR_LOST | SHL_GRP_MAP | MICA_OE_CTL
  | MICA_OE_STATUS | MICA_OE_INT | MICA_OE_INT_EN | MICA_LANE_STATUS | MICA_LANE_PWR | MICA_OE_FAULTS
  | FOI_CTL | FOI_CFG | FOI_CMD | FOI_CMD_DATA | FOI_CMD_STATUS | FOI_STATUS | FOI_INT | FOI_INT_EN
  | FOI_PUB_CTL | FOI_PUB_OFF | FOI_PUB_SEQ | FOI_ROGUE | FOI_LOSS | FOI_BPI_PWR | FOI_BPO_PWR
  | MICA_CTRL_STATUS | MICA_ELS_INT | MICA_ELS_INT_EN | MICA_ELS_CTL | MICA_ELS_STATUS | MICA_ELS_PWR
  | QTZ_CTL | QTZ_STATUS | QTZ_INT | QTZ_INT_EN | QTZ_RATE | QTZ_RAW | QTZ_SNAP | QTZ_SNAP_RAW | QTZ_SNAP_SEC
  | QTZ_SNAP_NSEC | QTZ_SNAP_FRAC | QTZ_SNAP_RATE | QTZ_PPS_IN_SEC | QTZ_PPS_IN_NSEC | QTZ_PPS_DLY
  | QTZ_STEPS | QTZ_TILE_SYNC | QTZ_STEP | QTZ_SNAP_OFF | QTZ_LNK_ASYM | QTZ_TXTS | QTZ_TXTS_POP
  | QTZ_TXTS_LOST | JSP_SNAP_CTL | JSP_SNAP_SEC | JSP_SNAP_NSEC | JSP_SNAP_STATUS | JSP_UPERM
  | JSP_UREAD_DENIED | JSP_INT | JSP_INT_EN | JSP_TRC_SEED | JSP_PRUN | JSP_MRG_RD | JSP_MRG_THR
  | JSP_MRG_TRIP0 | JSP_MRG_TRIP1 | JSP_PSEL | JSP_PCNT | JSP_PCNT_OVF | JSP_TRC_CTL | JSP_TRC_LINK
  | JSP_TRC_LIMIT | JSP_TRC_TAGGED | JSP_TRC_LOST | IMG_CMD | IMG_CMD_ARG0 | IMG_CMD_ARG1 | IMG_CMD_STATUS
  | IMG_BOOT | IMG_DL_STATUS | IMG_ROLL_CFG | IMG_INT | IMG_INT_EN | IMG_TILE_SRC | IMG_RUN_VER
  | IMG_SI_RANGE | RSTC_CAUSE | RSTC_MAP | RSTC_SWRST | RSTC_WDT_CTL | RSTC_WDT_KICK | RSTC_FAILS | RSTC_INT
  | RSTC_INT_EN | RSTC_ISO_ADDR | RSTC_ISO_CNT | RSTC_LOST_CELLS | RSTC_CLK_STATUS | RSTC_DIE_RST
  | RSTC_TILE_RST | PWR_DOM_CTL | PWR_DOM_STATUS | PWR_SLEEP | PWR_INT | PWR_INT_EN | OBS_LC | OBS_CMD
  | OBS_CMD_STATUS | OBS_KEY_STATUS | OBS_REPAIR | OBS_INT | OBS_INT_EN | OBS_DEV_ID | OBS_SVN_MIN
  | OBS_CMD_DATA | OBS_MEAS | OBS_NONCE | MGT_ERR_CFG | MGT_ERR_LOST | MGT_ERR_INT | MGT_ERR_INT_EN
  | MGT_ERR_HEAD | MGT_ERR_CNT | MGT_ERR_LOG | GNS_SCRUB_CTL | GNS_HBM_CE | GNS_POISONED | DMA_RING_BASE
  | DMA_RING_CFG | DMA_RING_WB | DMA_RING_MOD | DMA_RING_HEAD | DMA_RING_TAIL | DMA_RING_STATUS
  | DMA_RING_CTL | DMA_RING_NOBUF | DMA_RING_TRUNC | DMA_INT | DMA_INT_EN | DMA_PTP_MAP | DMA_RX_DROP
  | DMA_CPL_DISCARD | DMA_RX_MAP | DMA_CQ_BASE | DMA_CQ_CFG | DMA_CQ_HEAD | DMA_CQ_CTL | DMA_CQ_STATUS
  | MGT_MBX_H2D | MGT_MBX_D2H | MGT_MBX_H2D_TAKEN | MGT_MBX_H2D_DONE | MGT_MBX_D2H_SENT | MGT_MBX_D2H_ACK
  | MGT_MBX_STATUS | MGT_MBX_INT | MGT_MBX_INT_EN | MGT_IRQ_ROUTE | MGT_IRQ_PEND | MGT_IRQ_ARM
  | MGT_IRQ_ARMED | MSIX_PBA | MGT_IRQ_RPEND | MGT_UART_CFG | GPIO_FUNC | GPIO_OUT | GPIO_OE | GPIO_IN | GPIO_INT
  | GPIO_INT_EN | GPIO_EDGE | GPIO_STATUS | I2C_CTL | I2C_CMD | I2C_DATA | I2C_STATUS | I2C_INT | I2C_INT_EN
  | I2C_TGT_CFG
  deriving DecidableEq, Repr

/-- Bits, access code and reset value of each field, as its register table gives them. Where the reset value
or the access depends on the index, `Fld.resetAt` and `Fld.accessAt` say how. -/
def Fld.info : Fld → FldInfo
  | .MGT_DEVICE_ID_part_num => ⟨20, 12, .ro, 0x410⟩
  | .MGT_DEVICE_ID_family => ⟨16, 4, .ro, 0x5⟩
  | .MGT_DEVICE_ID_step_major => ⟨12, 4, .ro, 0xa⟩
  | .MGT_DEVICE_ID_step_minor => ⟨8, 4, .ro, 0x1⟩
  | .TIL_PORT_MODE_bo_reject => ⟨8, 1, .w1c, 0x0⟩
  | .TIL_PORT_MODE_loopback => ⟨4, 2, .rw, 0x0⟩
  | .TIL_PORT_MODE_breakout => ⟨0, 2, .rw, 0x0⟩
  | .TIL_LNK_CTL_ka_accept => ⟨10, 1, .rw, 0x1⟩
  | .TIL_LNK_CTL_ka_req => ⟨9, 1, .rw, 0x0⟩
  | .TIL_LNK_CTL_retrain => ⟨8, 1, .wo, 0x0⟩
  | .TIL_LNK_CTL_link_mode => ⟨4, 2, .rw, 0x0⟩
  | .TIL_LNK_CTL_lnk_en => ⟨0, 1, .rw, 0x0⟩
  | .TIL_LNK_STATUS_state => ⟨8, 4, .ro, 0x0⟩
  | .TIL_LNK_STATUS_ka_cap => ⟨4, 1, .ro, 0x0⟩
  | .TIL_LNK_STATUS_retry_on => ⟨3, 1, .ro, 0x0⟩
  | .TIL_LNK_STATUS_staketu => ⟨2, 1, .ro, 0x0⟩
  | .TIL_LNK_STATUS_signal => ⟨1, 1, .ro, 0x0⟩
  | .TIL_LNK_STATUS_up => ⟨0, 1, .ro, 0x0⟩
  | .TIL_LNK_INT_credit_mismatch => ⟨6, 1, .w1c, 0x0⟩
  | .TIL_LNK_INT_ka_change => ⟨5, 1, .w1c, 0x0⟩
  | .TIL_LNK_INT_retrain => ⟨4, 1, .w1c, 0x0⟩
  | .TIL_LNK_INT_frame_lost => ⟨3, 1, .w1c, 0x0⟩
  | .TIL_LNK_INT_burst => ⟨2, 1, .w1c, 0x0⟩
  | .TIL_LNK_INT_down => ⟨1, 1, .w1c, 0x0⟩
  | .TIL_LNK_INT_up => ⟨0, 1, .w1c, 0x0⟩
  | .TIL_LNK_INT_EN_bits => ⟨0, 7, .rw, 0x0⟩
  | .TIL_LNK_BURST_CFG_retrain_count => ⟨24, 8, .rw, 0x10⟩
  | .TIL_LNK_BURST_CFG_retrain_window => ⟨16, 8, .rw, 0x64⟩
  | .TIL_LNK_BURST_CFG_burst_gap => ⟨8, 8, .rw, 0xa⟩
  | .TIL_LNK_PFC_CFG_pfc_rx_en => ⟨8, 8, .rw, 0xfc⟩
  | .TIL_LNK_PFC_CFG_pfc_tx_en => ⟨0, 8, .rw, 0xfc⟩
  | .TIL_LNK_RTT_rtt_ns => ⟨0, 16, .ro, 0xffff⟩
  | .TIL_LNK_GRANT_TC_partner_grant => ⟨16, 16, .ro, 0x0⟩
  | .TIL_LNK_GRANT_TC_local_grant => ⟨0, 16, .rw, 0x0⟩
  | .TIL_LNK_FEC_CORR_count => ⟨0, 64, .ro, 0x0⟩
  | .TIL_LNK_FEC_UNCORR_count => ⟨0, 64, .ro, 0x0⟩
  | .TIL_LNK_FEC_SYMERR_count => ⟨0, 64, .ro, 0x0⟩
  | .TIL_LNK_RETRY_count => ⟨0, 64, .ro, 0x0⟩
  | .TIL_LNK_LOST_count => ⟨0, 64, .ro, 0x0⟩
  | .TIL_LNK_BURSTS_count => ⟨0, 64, .ro, 0x0⟩
  | .TIL_LNK_RETRAINS_count => ⟨0, 64, .ro, 0x0⟩
  | .TIL_LNK_RESYNCS_count => ⟨0, 64, .ro, 0x0⟩
  | .TIL_LNK_FLUSH_count => ⟨0, 64, .ro, 0x0⟩
  | .TIL_FWD_CFG_xeirrik_etype => ⟨16, 16, .rw, 0x88b5⟩
  | .TIL_FWD_CFG_ce_level => ⟨12, 4, .rw, 0xa⟩
  | .TIL_FWD_CFG_learn_en => ⟨2, 1, .rw, 0x1⟩
  | .TIL_FWD_CFG_route_en => ⟨1, 1, .rw, 0x1⟩
  | .TIL_FWD_CFG_fwd_en => ⟨0, 1, .rw, 0x0⟩
  | .TIL_FWD_RMAC_rmac => ⟨0, 48, .rw, 0x0⟩
  | .TIL_FWD_DROP_count => ⟨0, 64, .ro, 0x0⟩
  | .DMA_TBL_LOCK_locked => ⟨31, 1, .rw, 0x0⟩
  | .DMA_TBL_LOCK_holder => ⟨0, 2, .ro, 0x0⟩
  | .DMA_TBL_AGE_age_s => ⟨0, 15, .rw, 0x12c⟩
  | .DMA_TBL_LRN_MISS_count => ⟨0, 64, .ro, 0x0⟩
  | .DMA_TBL_MOVES_count => ⟨0, 64, .ro, 0x0⟩
  | .JSP_CMAP_CTL_en => ⟨31, 1, .rw, 0x0⟩
  | .JSP_CMAP_CTL_host_copy => ⟨30, 1, .rw, 0x0⟩
  | .JSP_CMAP_CTL_interval => ⟨16, 4, .rw, 0x6⟩
  | .JSP_CMAP_CTL_group => ⟨0, 14, .rw, 0x0⟩
  | .JSP_CMAP_SRC_eid => ⟨0, 20, .rw, 0x0⟩
  | .TIL_CT_CFG_ct_en => ⟨0, 64, .rw, 0xffffffffffffffff⟩
  | .TIL_STG_CTL_out_verify => ⟨0, 1, .rw, 0x1⟩
  | .TIL_STG_STATUS_grant_over => ⟨31, 1, .w1c, 0x0⟩
  | .TIL_STG_STATUS_used => ⟨0, 15, .ro, 0x0⟩
  | .TIL_CHK_FAIL_IN_count => ⟨0, 64, .ro, 0x0⟩
  | .TIL_CHK_FAIL_OUT_count => ⟨0, 64, .ro, 0x0⟩
  | .TIL_CHK_STOMP_RX_count => ⟨0, 64, .ro, 0x0⟩
  | .BSL_ADM_CFG_stall_us => ⟨8, 16, .rw, 0x3e8⟩
  | .BSL_ADM_CFG_lossless => ⟨0, 8, .rw, 0xfc⟩
  | .BSL_FREE_count => ⟨0, 20, .ro, 0x80000⟩
  | .BSL_QUEUED_count => ⟨0, 20, .ro, 0x0⟩
  | .BSL_RESERVED_count => ⟨0, 20, .ro, 0x0⟩
  | .BSL_RETIRED_count => ⟨0, 20, .ro, 0x0⟩
  | .BSL_CNT_SNAP_snap => ⟨0, 1, .wo, 0x0⟩
  | .BSL_REPAIRED_count => ⟨0, 20, .ro, 0x0⟩
  | .BSL_AUDIT_CTL_en => ⟨31, 1, .rw, 0x1⟩
  | .BSL_AUDIT_CTL_period_ms => ⟨0, 16, .rw, 0x64⟩
  | .BSL_AUDIT_STATUS_suspect => ⟨0, 16, .ro, 0x0⟩
  | .BSL_INT_double => ⟨3, 1, .w1c, 0x0⟩
  | .BSL_INT_leak => ⟨2, 1, .w1c, 0x0⟩
  | .BSL_INT_stall => ⟨1, 1, .w1c, 0x0⟩
  | .BSL_INT_cfg_reject => ⟨0, 1, .w1c, 0x0⟩
  | .BSL_INT_EN_bits => ⟨0, 4, .rw, 0x0⟩
  | .BSL_DROP_NOCELL_count => ⟨0, 64, .ro, 0x0⟩
  | .BSL_DROP_LINKDOWN_count => ⟨0, 64, .ro, 0x0⟩
  | .BSL_DROP_PAIRDOWN_count => ⟨0, 64, .ro, 0x0⟩
  | .BSL_ADM_STALL_count => ⟨0, 64, .ro, 0x0⟩
  | .BSL_AUDIT_RECLAIM_count => ⟨0, 64, .ro, 0x0⟩
  | .BSL_AUDIT_DOUBLE_count => ⟨0, 64, .ro, 0x0⟩
  | .BSL_POOL_TC_alpha => ⟨28, 4, .rw, 0x4⟩
  | .BSL_POOL_TC_min_cells => ⟨0, 20, .rw, 0x4000⟩
  | .D2D_LNK_CTL_auto_retrain => ⟨2, 1, .rw, 0x1⟩
  | .D2D_LNK_CTL_retrain => ⟨1, 1, .wo, 0x0⟩
  | .D2D_LNK_CTL_en => ⟨0, 1, .rw, 0x1⟩
  | .D2D_LNK_STATUS_mgmt => ⟨8, 1, .ro, 0x0⟩
  | .D2D_LNK_STATUS_state => ⟨0, 4, .ro, 0x0⟩
  | .D2D_LNK_CRCERR_count => ⟨0, 64, .ro, 0x0⟩
  | .D2D_LNK_REPLAY_count => ⟨0, 64, .ro, 0x0⟩
  | .D2D_LNK_FAILS_count => ⟨0, 64, .ro, 0x0⟩
  | .D2D_PAIR_CFG_min_links => ⟨0, 4, .rw, 0x6⟩
  | .D2D_PAIR_STATUS_live_ji => ⟨4, 4, .ro, 0x0⟩
  | .D2D_PAIR_STATUS_live_ij => ⟨0, 4, .ro, 0x0⟩
  | .D2D_PAIR_INT_down => ⟨2, 1, .w1c, 0x0⟩
  | .D2D_PAIR_INT_degraded => ⟨1, 1, .w1c, 0x0⟩
  | .D2D_PAIR_INT_link_fail => ⟨0, 1, .w1c, 0x0⟩
  | .D2D_PAIR_INT_EN_bits => ⟨0, 3, .rw, 0x0⟩
  | .FLD_SUB_CFG_rate => ⟨44, 20, .rw, 0x0⟩
  | .FLD_SUB_CFG_burst => ⟨16, 16, .rw, 0x40⟩
  | .FLD_SUB_CFG_weight => ⟨0, 16, .rw, 0x100⟩
  | .FLD_SUB_DEPTH_cells => ⟨0, 20, .ro, 0x0⟩
  | .FLD_PORT_SPLIT_nodes => ⟨0, 64, .rw, 0x0⟩
  | .FLD_SRC_NODE_gneiss_node => ⟨16, 5, .rw, 0x0⟩
  | .FLD_SRC_NODE_host_node => ⟨8, 5, .rw, 0x0⟩
  | .FLD_SRC_NODE_jasper_node => ⟨0, 5, .rw, 0x0⟩
  | .FLD_INT_tc7_over => ⟨2, 1, .w1c, 0x0⟩
  | .FLD_INT_gate_err => ⟨1, 1, .w1c, 0x0⟩
  | .FLD_INT_cfg_reject => ⟨0, 1, .w1c, 0x0⟩
  | .FLD_INT_EN_bits => ⟨0, 3, .rw, 0x0⟩
  | .FLD_TC7_OVER_count => ⟨0, 64, .ro, 0x0⟩
  | .FLD_GATE_DROP_count => ⟨0, 64, .ro, 0x0⟩
  | .FLD_DROP_DETACHED_count => ⟨0, 64, .ro, 0x0⟩
  | .FLD_LNK_CTL_preempt => ⟨24, 7, .rw, 0x7f⟩
  | .FLD_TC7_MON_rate => ⟨12, 20, .rw, 0x3e80⟩
  | .FLD_TC7_MON_burst => ⟨0, 12, .rw, 0xfa⟩
  | .FLD_GATE_CTL_gate_en => ⟨31, 1, .rw, 0x0⟩
  | .FLD_GATE_CTL_len1 => ⟨16, 7, .rw, 0x1⟩
  | .FLD_GATE_CTL_len0 => ⟨8, 7, .rw, 0x1⟩
  | .FLD_GATE_CTL_commit => ⟨0, 1, .wo, 0x0⟩
  | .FLD_GATE_STATUS_time_wait => ⟨9, 1, .ro, 0x1⟩
  | .FLD_GATE_STATUS_pending => ⟨8, 1, .ro, 0x0⟩
  | .FLD_GATE_STATUS_active => ⟨7, 1, .ro, 0x0⟩
  | .FLD_GATE_STATUS_entry => ⟨0, 6, .ro, 0x0⟩
  | .FLD_GATE_BASE_S_sec => ⟨0, 48, .rw, 0x0⟩
  | .FLD_GATE_BASE_NS_nsec => ⟨0, 30, .rw, 0x0⟩
  | .FLD_GATE_CYCLE_NS_cycle => ⟨0, 32, .rw, 0x186a0⟩
  | .FLD_CLS_CFG_strict => ⟨31, 1, .rw, 0x0⟩
  | .FLD_CLS_CFG_cbs_en => ⟨30, 1, .rw, 0x0⟩
  | .FLD_CLS_CFG_weight => ⟨0, 16, .rw, 0x100⟩
  | .FLD_CBS_CFG_idle_slope => ⟨12, 20, .rw, 0x0⟩
  | .FLD_CBS_CFG_hi_limit => ⟨0, 12, .rw, 0x100⟩
  | .FLD_GATE_ENT_gates => ⟨24, 8, .rw, 0xff⟩
  | .FLD_GATE_ENT_interval => ⟨0, 24, .rw, 0x0⟩
  | .GRN_FMT_CTL_mx_sat => ⟨25, 1, .rw, 0x1⟩
  | .GRN_FMT_CTL_e4m3_sat => ⟨24, 1, .rw, 0x1⟩
  | .GRN_FMT_CTL_op_en => ⟨16, 6, .rw, 0x3f⟩
  | .GRN_FMT_CTL_fmt_en => ⟨0, 9, .rw, 0x1ff⟩
  | .GRN_AUDIT_CFG_audit_log2 => ⟨0, 4, .rw, 0xa⟩
  | .GRN_IST_CTL_en => ⟨31, 1, .rw, 0x1⟩
  | .GRN_IST_CTL_period_ms => ⟨0, 16, .rw, 0x3e8⟩
  | .GRN_IST_STATUS_busy => ⟨8, 1, .ro, 0x0⟩
  | .GRN_IST_STATUS_engine => ⟨0, 5, .ro, 0x0⟩
  | .GRN_IST_STARVED_starved => ⟨0, 32, .w1c, 0x0⟩
  | .GRN_IST_FAIL_fail => ⟨0, 32, .w1c, 0x0⟩
  | .GRN_IST_PASSES_count => ⟨0, 64, .ro, 0x0⟩
  | .GRN_CTL_release => ⟨1, 1, .wo, 0x0⟩
  | .GRN_CTL_quarantine => ⟨0, 1, .wo, 0x0⟩
  | .GRN_STATUS_chunks => ⟨16, 16, .ro, 0x0⟩
  | .GRN_STATUS_subst => ⟨8, 5, .ro, 0x0⟩
  | .GRN_STATUS_state => ⟨0, 3, .ro, 0x1⟩
  | .GRN_SPILL_CFG_wait_us => ⟨20, 12, .rw, 0x3e8⟩
  | .GRN_SPILL_CFG_quota => ⟨0, 20, .rw, 0x2000⟩
  | .GRN_SPILL_USED_cells => ⟨0, 20, .ro, 0x0⟩
  | .GRN_SCR_USED_lines => ⟨0, 16, .ro, 0x0⟩
  | .GRN_INT_audit_mismatch => ⟨6, 1, .w1c, 0x0⟩
  | .GRN_INT_quarantined => ⟨5, 1, .w1c, 0x0⟩
  | .GRN_INT_residue => ⟨4, 1, .w1c, 0x0⟩
  | .GRN_INT_scr_uncorr => ⟨3, 1, .w1c, 0x0⟩
  | .GRN_INT_scr_corr => ⟨2, 1, .w1c, 0x0⟩
  | .GRN_INT_no_scratch => ⟨1, 1, .w1c, 0x0⟩
  | .GRN_INT_conflict => ⟨0, 1, .w1c, 0x0⟩
  | .GRN_INT_EN_bits => ⟨0, 7, .rw, 0x0⟩
  | .GRN_RELEASED_count => ⟨0, 64, .ro, 0x0⟩
  | .GRN_FAILED_count => ⟨0, 64, .ro, 0x0⟩
  | .GRN_ELEMS_count => ⟨0, 64, .ro, 0x0⟩
  | .GRN_DUP_count => ⟨0, 64, .ro, 0x0⟩
  | .GRN_LATE_count => ⟨0, 64, .ro, 0x0⟩
  | .GRN_RESIDUE_ERR_count => ⟨0, 64, .ro, 0x0⟩
  | .GRN_MOVED_count => ⟨0, 64, .ro, 0x0⟩
  | .GRN_AUDITED_count => ⟨0, 64, .ro, 0x0⟩
  | .GRN_ESCAPES_count => ⟨0, 64, .ro, 0x0⟩
  | .GRN_SCR_CORR_count => ⟨0, 64, .ro, 0x0⟩
  | .GRN_SPILL_WAITS_count => ⟨0, 64, .ro, 0x0⟩
  | .COL_CTL_en => ⟨31, 1, .rw, 0x0⟩
  | .COL_CTL_fence_ms => ⟨16, 8, .rw, 0x64⟩
  | .COL_CTL_def_timeout => ⟨0, 16, .rw, 0x64⟩
  | .COL_STATUS_open => ⟨0, 15, .ro, 0x0⟩
  | .COL_INT_fence_timeout => ⟨2, 1, .w1c, 0x0⟩
  | .COL_INT_desc_err => ⟨1, 1, .w1c, 0x0⟩
  | .COL_INT_ctx_fail => ⟨0, 1, .w1c, 0x0⟩
  | .COL_INT_EN_bits => ⟨0, 3, .rw, 0x0⟩
  | .COL_COMPLETED_count => ⟨0, 64, .ro, 0x0⟩
  | .COL_FAILED_count => ⟨0, 64, .ro, 0x0⟩
  | .COL_TOKEN_value => ⟨0, 32, .rw, 0x0⟩
  | .COL_DISCARD_count => ⟨0, 64, .ro, 0x0⟩
  | .GNS_CTL_en => ⟨31, 1, .rw, 0x0⟩
  | .GNS_CTL_sweep_pct => ⟨16, 8, .rw, 0x2⟩
  | .GNS_CTL_resp_hops => ⟨0, 4, .rw, 0x4⟩
  | .GNS_CMD_op => ⟨28, 4, .wo, 0x0⟩
  | .GNS_CMD_index => ⟨0, 16, .wo, 0x0⟩
  | .GNS_CMD_STATUS_busy => ⟨31, 1, .ro, 0x0⟩
  | .GNS_CMD_STATUS_result => ⟨0, 8, .ro, 0x0⟩
  | .GNS_INT_gw_fail => ⟨3, 1, .w1c, 0x0⟩
  | .GNS_INT_mem_err => ⟨2, 1, .w1c, 0x0⟩
  | .GNS_INT_sweep_done => ⟨1, 1, .w1c, 0x0⟩
  | .GNS_INT_cmd_reject => ⟨0, 1, .w1c, 0x0⟩
  | .GNS_INT_EN_bits => ⟨0, 4, .rw, 0x0⟩
  | .GNS_REQ_OK_count => ⟨0, 64, .ro, 0x0⟩
  | .GNS_REQ_ERR_count => ⟨0, 64, .ro, 0x0⟩
  | .GNS_NW_READS_count => ⟨0, 64, .ro, 0x0⟩
  | .GNS_STRAY_count => ⟨0, 64, .ro, 0x0⟩
  | .GNS_GW_DISCARD_count => ⟨0, 64, .ro, 0x0⟩
  | .GNS_CMD_DATA_data => ⟨0, 32, .rw, 0x0⟩
  | .GNS_CQ_STATUS_peak => ⟨16, 16, .rc, 0x0⟩
  | .GNS_CQ_STATUS_used => ⟨0, 15, .ro, 0x0⟩
  | .GNS_CQ_WAITS_count => ⟨0, 64, .ro, 0x0⟩
  | .GNS_COMBINED_count => ⟨0, 64, .ro, 0x0⟩
  | .GNS_STALE_count => ⟨0, 64, .ro, 0x0⟩
  | .GNS_PART_abs_gib => ⟨10, 10, .rw, 0x0⟩
  | .GNS_PART_mem_gib => ⟨0, 10, .rw, 0x240⟩
  | .GNS_PART_STATUS_reject => ⟨31, 1, .w1c, 0x0⟩
  | .GNS_PART_STATUS_jrn_gib => ⟨0, 10, .ro, 0x0⟩
  | .GNS_BW_CFG_w_fab => ⟨16, 8, .rw, 0x14⟩
  | .GNS_BW_CFG_w_rd => ⟨8, 8, .rw, 0x3⟩
  | .GNS_BW_CFG_w_jrn => ⟨0, 8, .rw, 0x1⟩
  | .GNS_CKP_CFG_mirror_gbps => ⟨16, 16, .rw, 0x3200⟩
  | .GNS_CKP_CFG_retries => ⟨12, 4, .rw, 0x3⟩
  | .GNS_CKP_CFG_resp_us => ⟨0, 12, .rw, 0x64⟩
  | .GNS_CKP_FILL_fill_ms => ⟨0, 16, .rw, 0x2710⟩
  | .GNS_CKP_STATUS_open => ⟨0, 15, .ro, 0x0⟩
  | .GNS_CKP_INT_notify_err => ⟨3, 1, .w1c, 0x0⟩
  | .GNS_CKP_INT_drain_fail => ⟨2, 1, .w1c, 0x0⟩
  | .GNS_CKP_INT_mirror_fail => ⟨1, 1, .w1c, 0x0⟩
  | .GNS_CKP_INT_shard_fail => ⟨0, 1, .w1c, 0x0⟩
  | .GNS_CKP_INT_EN_bits => ⟨0, 4, .rw, 0x0⟩
  | .GNS_CKP_ABSORBED_count => ⟨0, 64, .ro, 0x0⟩
  | .GNS_CKP_MIRRORED_count => ⟨0, 64, .ro, 0x0⟩
  | .GNS_CKP_DURABLE_count => ⟨0, 64, .ro, 0x0⟩
  | .GNS_CKP_FAILED_count => ⟨0, 64, .ro, 0x0⟩
  | .GNS_CKP_LATE_WR_count => ⟨0, 64, .ro, 0x0⟩
  | .GNS_CKP_RESTORE_FR_count => ⟨0, 64, .ro, 0x0⟩
  | .GNS_CKP_NOTIFY_ERR_count => ⟨0, 64, .ro, 0x0⟩
  | .SHL_CTL_en => ⟨31, 1, .rw, 0x0⟩
  | .SHL_INT_cfg_reject => ⟨3, 1, .w1c, 0x0⟩
  | .SHL_INT_stream_lost => ⟨2, 1, .w1c, 0x0⟩
  | .SHL_INT_overflow => ⟨1, 1, .w1c, 0x0⟩
  | .SHL_INT_no_stream => ⟨0, 1, .w1c, 0x0⟩
  | .SHL_INT_EN_bits => ⟨0, 4, .rw, 0x0⟩
  | .SHL_RECORDS_count => ⟨0, 64, .ro, 0x0⟩
  | .SHL_BYTES_count => ⟨0, 64, .ro, 0x0⟩
  | .SHL_DISCARDED_count => ⟨0, 64, .ro, 0x0⟩
  | .SHL_STR_CTL_en => ⟨31, 1, .rw, 0x0⟩
  | .SHL_STR_CTL_ovf => ⟨30, 1, .ro, 0x0⟩
  | .SHL_STR_CTL_region => ⟨0, 16, .rw, 0x0⟩
  | .SHL_STR_WPOS_pos => ⟨0, 64, .ro, 0x0⟩
  | .SHL_STR_TPOS_pos => ⟨0, 64, .ro, 0x0⟩
  | .SHL_STR_LOST_count => ⟨0, 64, .ro, 0x0⟩
  | .SHL_GRP_MAP_valid => ⟨31, 1, .rw, 0x0⟩
  | .SHL_GRP_MAP_stream => ⟨0, 8, .rw, 0x0⟩
  | .MICA_OE_CTL_sweep => ⟨1, 1, .wo, 0x0⟩
  | .MICA_OE_CTL_quench => ⟨0, 1, .rw, 0x0⟩
  | .MICA_OE_STATUS_locked => ⟨16, 7, .ro, 0x0⟩
  | .MICA_OE_STATUS_light => ⟨0, 4, .ro, 0x0⟩
  | .MICA_OE_INT_lane_fault => ⟨3, 1, .w1c, 0x0⟩
  | .MICA_OE_INT_light_loss => ⟨2, 1, .w1c, 0x0⟩
  | .MICA_OE_INT_light_ok => ⟨1, 1, .w1c, 0x0⟩
  | .MICA_OE_INT_all_locked => ⟨0, 1, .w1c, 0x0⟩
  | .MICA_OE_INT_EN_bits => ⟨0, 4, .rw, 0x0⟩
  | .MICA_LANE_STATUS_heater => ⟨16, 16, .ro, 0x0⟩
  | .MICA_LANE_STATUS_lock_err => ⟨8, 8, .ro, 0x0⟩
  | .MICA_LANE_STATUS_shut => ⟨3, 1, .ro, 0x1⟩
  | .MICA_LANE_STATUS_state => ⟨0, 3, .ro, 0x0⟩
  | .MICA_LANE_PWR_tx_pwr => ⟨16, 16, .ro, 0x8000⟩
  | .MICA_LANE_PWR_rx_pwr => ⟨0, 16, .ro, 0x8000⟩
  | .MICA_OE_FAULTS_count => ⟨0, 64, .ro, 0x0⟩
  | .FOI_CTL_en => ⟨31, 1, .rw, 0x1⟩
  | .FOI_CTL_block_rogue => ⟨30, 1, .rw, 0x0⟩
  | .FOI_CFG_act_dbm => ⟨24, 8, .rw, 0xec⟩
  | .FOI_CFG_rogue_dbm => ⟨16, 8, .rw, 0xd8⟩
  | .FOI_CFG_ring_db => ⟨12, 4, .rw, 0x7⟩
  | .FOI_CFG_out_db => ⟨8, 4, .rw, 0x5⟩
  | .FOI_CFG_revoke_ms => ⟨0, 8, .rw, 0xa⟩
  | .FOI_CMD_op => ⟨28, 4, .wo, 0x0⟩
  | .FOI_CMD_index => ⟨0, 12, .wo, 0x0⟩
  | .FOI_CMD_DATA_eid => ⟨0, 20, .rw, 0x0⟩
  | .FOI_CMD_STATUS_busy => ⟨31, 1, .ro, 0x0⟩
  | .FOI_CMD_STATUS_loc => ⟨8, 4, .ro, 0x0⟩
  | .FOI_CMD_STATUS_result => ⟨0, 8, .ro, 0x0⟩
  | .FOI_STATUS_hold_s => ⟨24, 8, .ro, 0x0⟩
  | .FOI_STATUS_active => ⟨8, 11, .ro, 0x0⟩
  | .FOI_STATUS_loops => ⟨0, 2, .ro, 0x0⟩
  | .FOI_INT_cmd_reject => ⟨6, 1, .w1c, 0x0⟩
  | .FOI_INT_hold_over => ⟨5, 1, .w1c, 0x0⟩
  | .FOI_INT_pub_err => ⟨4, 1, .w1c, 0x0⟩
  | .FOI_INT_loss => ⟨3, 1, .w1c, 0x0⟩
  | .FOI_INT_revoke_block => ⟨2, 1, .w1c, 0x0⟩
  | .FOI_INT_rogue => ⟨1, 1, .w1c, 0x0⟩
  | .FOI_INT_ring_fault => ⟨0, 1, .w1c, 0x0⟩
  | .FOI_INT_EN_bits => ⟨0, 7, .rw, 0x0⟩
  | .FOI_PUB_CTL_en => ⟨31, 1, .rw, 0x0⟩
  | .FOI_PUB_CTL_min_us => ⟨16, 15, .rw, 0x64⟩
  | .FOI_PUB_CTL_region => ⟨0, 16, .rw, 0x0⟩
  | .FOI_PUB_OFF_offset => ⟨8, 24, .rw, 0x0⟩
  | .FOI_PUB_SEQ_seq => ⟨0, 32, .ro, 0x0⟩
  | .FOI_ROGUE_count => ⟨0, 64, .ro, 0x0⟩
  | .FOI_LOSS_count => ⟨0, 64, .ro, 0x0⟩
  | .FOI_BPI_PWR_pwr => ⟨0, 16, .ro, 0x8000⟩
  | .FOI_BPO_PWR_pwr => ⟨0, 16, .ro, 0x8000⟩
  | .MICA_CTRL_STATUS_run => ⟨0, 8, .ro, 0x0⟩
  | .MICA_ELS_INT_change => ⟨0, 16, .w1c, 0x0⟩
  | .MICA_ELS_INT_EN_bits => ⟨0, 16, .rw, 0x0⟩
  | .MICA_ELS_CTL_en => ⟨0, 1, .rw, 0x0⟩
  | .MICA_ELS_STATUS_on => ⟨8, 8, .ro, 0x0⟩
  | .MICA_ELS_STATUS_fault => ⟨2, 1, .ro, 0x0⟩
  | .MICA_ELS_STATUS_present => ⟨0, 1, .ro, 0x0⟩
  | .MICA_ELS_PWR_pwr => ⟨0, 16, .ro, 0x8000⟩
  | .QTZ_CTL_step => ⟨31, 1, .wo, 0x0⟩
  | .QTZ_CTL_step_arm => ⟨30, 1, .rw, 0x0⟩
  | .QTZ_CTL_invalidate => ⟨29, 1, .wo, 0x0⟩
  | .QTZ_CTL_pps_out_en => ⟨28, 1, .rw, 0x0⟩
  | .QTZ_CTL_pps_width_ms => ⟨8, 8, .rw, 0x64⟩
  | .QTZ_STATUS_step_pending => ⟨1, 1, .ro, 0x0⟩
  | .QTZ_STATUS_valid => ⟨0, 1, .ro, 0x0⟩
  | .QTZ_INT_wrap => ⟨3, 1, .w1c, 0x0⟩
  | .QTZ_INT_pps_in => ⟨2, 1, .w1c, 0x0⟩
  | .QTZ_INT_step_reject => ⟨1, 1, .w1c, 0x0⟩
  | .QTZ_INT_stepped => ⟨0, 1, .w1c, 0x0⟩
  | .QTZ_INT_EN_bits => ⟨0, 4, .rw, 0x0⟩
  | .QTZ_RATE_rate => ⟨0, 32, .rw, 0x0⟩
  | .QTZ_RAW_raw => ⟨0, 64, .ro, 0x0⟩
  | .QTZ_SNAP_snap => ⟨0, 1, .wo, 0x0⟩
  | .QTZ_SNAP_RAW_raw => ⟨0, 64, .ro, 0x0⟩
  | .QTZ_SNAP_SEC_sec => ⟨0, 48, .ro, 0x0⟩
  | .QTZ_SNAP_NSEC_nsec => ⟨0, 30, .ro, 0x0⟩
  | .QTZ_SNAP_FRAC_frac => ⟨0, 16, .ro, 0x0⟩
  | .QTZ_SNAP_RATE_rate => ⟨0, 32, .ro, 0x0⟩
  | .QTZ_PPS_IN_SEC_sec => ⟨0, 48, .ro, 0x0⟩
  | .QTZ_PPS_IN_NSEC_nsec => ⟨0, 30, .ro, 0x0⟩
  | .QTZ_PPS_DLY_out_dly => ⟨16, 16, .rw, 0x0⟩
  | .QTZ_PPS_DLY_in_dly => ⟨0, 16, .rw, 0x0⟩
  | .QTZ_STEPS_count => ⟨0, 64, .ro, 0x0⟩
  | .QTZ_TILE_SYNC_sync => ⟨0, 32, .ro, 0x0⟩
  | .QTZ_STEP_step => ⟨0, 32, .rw, 0x0⟩
  | .QTZ_SNAP_OFF_offset => ⟨0, 32, .ro, 0x0⟩
  | .QTZ_LNK_ASYM_known => ⟨31, 1, .rw, 0x0⟩
  | .QTZ_LNK_ASYM_asym_ps => ⟨0, 24, .rw, 0x0⟩
  | .QTZ_TXTS_record => ⟨0, 32, .ro, 0x0⟩
  | .QTZ_TXTS_POP_empty => ⟨31, 1, .ro, 0x1⟩
  | .QTZ_TXTS_POP_pop => ⟨0, 1, .wo, 0x0⟩
  | .QTZ_TXTS_LOST_count => ⟨0, 64, .ro, 0x0⟩
  | .JSP_SNAP_CTL_go => ⟨31, 1, .wo, 0x0⟩
  | .JSP_SNAP_CTL_at_time => ⟨30, 1, .rw, 0x0⟩
  | .JSP_SNAP_CTL_groups => ⟨0, 11, .rw, 0x7ff⟩
  | .JSP_SNAP_SEC_sec => ⟨0, 48, .rw, 0x0⟩
  | .JSP_SNAP_NSEC_nsec => ⟨0, 30, .rw, 0x0⟩
  | .JSP_SNAP_STATUS_busy => ⟨31, 1, .ro, 0x0⟩
  | .JSP_SNAP_STATUS_seq => ⟨0, 16, .ro, 0x0⟩
  | .JSP_UPERM_groups => ⟨0, 11, .rw, 0x0⟩
  | .JSP_UREAD_DENIED_count => ⟨0, 64, .ro, 0x0⟩
  | .JSP_INT_mrg_alarm => ⟨4, 1, .w1c, 0x0⟩
  | .JSP_INT_mrg_warn => ⟨3, 1, .w1c, 0x0⟩
  | .JSP_INT_trc_lost => ⟨2, 1, .w1c, 0x0⟩
  | .JSP_INT_pcnt_ovf => ⟨1, 1, .w1c, 0x0⟩
  | .JSP_INT_sat => ⟨0, 1, .w1c, 0x0⟩
  | .JSP_INT_EN_bits => ⟨0, 5, .rw, 0x0⟩
  | .JSP_TRC_SEED_seed => ⟨0, 32, .rw, 0x1⟩
  | .JSP_PRUN_run => ⟨31, 1, .rw, 0x0⟩
  | .JSP_MRG_RD_peak => ⟨16, 16, .rc, 0x0⟩
  | .JSP_MRG_RD_value => ⟨0, 16, .ro, 0x0⟩
  | .JSP_MRG_THR_alarm => ⟨16, 16, .rw, 0x7fff⟩
  | .JSP_MRG_THR_warn => ⟨0, 16, .rw, 0x7fff⟩
  | .JSP_MRG_TRIP0_trip => ⟨0, 64, .w1c, 0x0⟩
  | .JSP_MRG_TRIP1_trip => ⟨0, 60, .w1c, 0x0⟩
  | .JSP_PSEL_en => ⟨31, 1, .rw, 0x0⟩
  | .JSP_PSEL_chain => ⟨30, 1, .rw, 0x0⟩
  | .JSP_PSEL_src => ⟨0, 26, .rw, 0x0⟩
  | .JSP_PCNT_count => ⟨0, 32, .rw, 0x0⟩
  | .JSP_PCNT_OVF_ovf => ⟨0, 64, .w1c, 0x0⟩
  | .JSP_TRC_CTL_en => ⟨31, 1, .rw, 0x0⟩
  | .JSP_TRC_CTL_rate_log2 => ⟨24, 5, .rw, 0x10⟩
  | .JSP_TRC_CTL_tc_mask => ⟨16, 8, .rw, 0xff⟩
  | .JSP_TRC_CTL_ring => ⟨0, 10, .rw, 0x0⟩
  | .JSP_TRC_LINK_match_en => ⟨31, 1, .rw, 0x0⟩
  | .JSP_TRC_LINK_link => ⟨0, 10, .rw, 0x0⟩
  | .JSP_TRC_LIMIT_limit => ⟨0, 16, .rw, 0x400⟩
  | .JSP_TRC_TAGGED_count => ⟨0, 64, .ro, 0x0⟩
  | .JSP_TRC_LOST_count => ⟨0, 64, .ro, 0x0⟩
  | .IMG_CMD_op => ⟨28, 4, .wo, 0x0⟩
  | .IMG_CMD_ARG0_arg => ⟨0, 32, .rw, 0x0⟩
  | .IMG_CMD_ARG1_arg => ⟨0, 32, .rw, 0x0⟩
  | .IMG_CMD_STATUS_busy => ⟨31, 1, .ro, 0x0⟩
  | .IMG_CMD_STATUS_fail_pair => ⟨8, 4, .ro, 0x0⟩
  | .IMG_CMD_STATUS_result => ⟨0, 8, .ro, 0x0⟩
  | .IMG_BOOT_phase => ⟨30, 2, .ro, 0x0⟩
  | .IMG_BOOT_src => ⟨28, 2, .ro, 0x0⟩
  | .IMG_BOOT_trial => ⟨27, 1, .ro, 0x0⟩
  | .IMG_BOOT_trials => ⟨25, 2, .ro, 0x0⟩
  | .IMG_BOOT_reverted => ⟨24, 1, .ro, 0x0⟩
  | .IMG_BOOT_slot => ⟨23, 1, .ro, 0x0⟩
  | .IMG_BOOT_conf_slot => ⟨22, 1, .ro, 0x0⟩
  | .IMG_BOOT_mgmt_slot => ⟨21, 1, .ro, 0x0⟩
  | .IMG_BOOT_mica_src => ⟨8, 8, .ro, 0x0⟩
  | .IMG_BOOT_boot_pair => ⟨4, 4, .ro, 0x0⟩
  | .IMG_BOOT_boot_err => ⟨0, 4, .ro, 0x0⟩
  | .IMG_DL_STATUS_state => ⟨30, 2, .ro, 0x0⟩
  | .IMG_DL_STATUS_target => ⟨29, 1, .ro, 0x0⟩
  | .IMG_DL_STATUS_bytes => ⟨0, 26, .ro, 0x0⟩
  | .IMG_ROLL_CFG_wait_ms => ⟨0, 16, .rw, 0xc8⟩
  | .IMG_INT_reload_err => ⟨5, 1, .w1c, 0x0⟩
  | .IMG_INT_roll_link => ⟨4, 1, .w1c, 0x0⟩
  | .IMG_INT_fell_back => ⟨3, 1, .w1c, 0x0⟩
  | .IMG_INT_reverted => ⟨2, 1, .w1c, 0x0⟩
  | .IMG_INT_cmd_reject => ⟨1, 1, .w1c, 0x0⟩
  | .IMG_INT_cmd_done => ⟨0, 1, .w1c, 0x0⟩
  | .IMG_INT_EN_bits => ⟨0, 6, .rw, 0x0⟩
  | .IMG_TILE_SRC_src => ⟨0, 32, .ro, 0x0⟩
  | .IMG_RUN_VER_version => ⟨0, 32, .ro, 0x0⟩
  | .IMG_SI_RANGE_hi => ⟨16, 16, .ro, 0x1⟩
  | .IMG_SI_RANGE_lo => ⟨0, 16, .ro, 0x1⟩
  | .RSTC_CAUSE_resets => ⟨24, 8, .ro, 0x0⟩
  | .RSTC_CAUSE_level => ⟨16, 3, .ro, 0x0⟩
  | .RSTC_CAUSE_src => ⟨8, 3, .ro, 0x0⟩
  | .RSTC_CAUSE_die => ⟨5, 2, .ro, 0x0⟩
  | .RSTC_CAUSE_tile => ⟨0, 5, .ro, 0x0⟩
  | .RSTC_MAP_levels => ⟨0, 24, .ro, 0x849240⟩
  | .RSTC_SWRST_key => ⟨24, 8, .wo, 0x0⟩
  | .RSTC_SWRST_level => ⟨16, 3, .wo, 0x0⟩
  | .RSTC_SWRST_die => ⟨5, 2, .wo, 0x0⟩
  | .RSTC_SWRST_tile => ⟨0, 5, .wo, 0x0⟩
  | .RSTC_WDT_CTL_en => ⟨31, 1, .w1s, 0x1⟩
  | .RSTC_WDT_CTL_timeout_ms => ⟨0, 16, .rw, 0x7530⟩
  | .RSTC_WDT_KICK_kick => ⟨0, 1, .wo, 0x0⟩
  | .RSTC_FAILS_locked => ⟨31, 1, .ro, 0x0⟩
  | .RSTC_FAILS_clear => ⟨8, 1, .wo, 0x0⟩
  | .RSTC_FAILS_count => ⟨0, 3, .ro, 0x0⟩
  | .RSTC_INT_wdt_half => ⟨3, 1, .w1c, 0x0⟩
  | .RSTC_INT_clk_fail => ⟨2, 1, .w1c, 0x0⟩
  | .RSTC_INT_sw_reject => ⟨1, 1, .w1c, 0x0⟩
  | .RSTC_INT_iso => ⟨0, 1, .w1c, 0x0⟩
  | .RSTC_INT_EN_bits => ⟨0, 4, .rw, 0x0⟩
  | .RSTC_ISO_ADDR_bar => ⟨30, 2, .ro, 0x0⟩
  | .RSTC_ISO_ADDR_offset => ⟨0, 30, .ro, 0x0⟩
  | .RSTC_ISO_CNT_count => ⟨0, 64, .ro, 0x0⟩
  | .RSTC_LOST_CELLS_count => ⟨0, 64, .ro, 0x0⟩
  | .RSTC_CLK_STATUS_lane_pll => ⟨16, 4, .ro, 0x0⟩
  | .RSTC_CLK_STATUS_hbm_pll => ⟨12, 4, .ro, 0x0⟩
  | .RSTC_CLK_STATUS_core_pll => ⟨8, 4, .ro, 0x0⟩
  | .RSTC_CLK_STATUS_mgmt_pll => ⟨4, 1, .ro, 0x0⟩
  | .RSTC_CLK_STATUS_time_pll => ⟨3, 1, .ro, 0x0⟩
  | .RSTC_CLK_STATUS_pcie_ref => ⟨2, 1, .ro, 0x0⟩
  | .RSTC_CLK_STATUS_mref => ⟨1, 1, .ro, 0x0⟩
  | .RSTC_CLK_STATUS_ref => ⟨0, 1, .ro, 0x0⟩
  | .RSTC_DIE_RST_die => ⟨0, 4, .ro, 0x0⟩
  | .RSTC_TILE_RST_tile => ⟨0, 32, .ro, 0x0⟩
  | .PWR_DOM_CTL_on => ⟨0, 1, .rw, 0x1⟩
  | .PWR_DOM_STATUS_state => ⟨0, 2, .ro, 0x1⟩
  | .PWR_SLEEP_busy => ⟨8, 1, .ro, 0x0⟩
  | .PWR_SLEEP_state => ⟨4, 2, .ro, 0x0⟩
  | .PWR_SLEEP_target => ⟨0, 2, .rw, 0x0⟩
  | .PWR_INT_sleep_done => ⟨2, 1, .w1c, 0x0⟩
  | .PWR_INT_sleep_reject => ⟨1, 1, .w1c, 0x0⟩
  | .PWR_INT_dep_reject => ⟨0, 1, .w1c, 0x0⟩
  | .PWR_INT_EN_bits => ⟨0, 3, .rw, 0x0⟩
  | .OBS_LC_dbg_open => ⟨9, 1, .ro, 0x1⟩
  | .OBS_LC_scan => ⟨8, 1, .ro, 0x0⟩
  | .OBS_LC_state => ⟨0, 3, .ro, 0x0⟩
  | .OBS_CMD_op => ⟨28, 4, .wo, 0x0⟩
  | .OBS_CMD_index => ⟨0, 8, .wo, 0x0⟩
  | .OBS_CMD_STATUS_busy => ⟨31, 1, .ro, 0x0⟩
  | .OBS_CMD_STATUS_result => ⟨0, 8, .ro, 0x0⟩
  | .OBS_KEY_STATUS_revoked => ⟨8, 5, .ro, 0x0⟩
  | .OBS_KEY_STATUS_programmed => ⟨0, 5, .ro, 0x0⟩
  | .OBS_REPAIR_fused => ⟨20, 12, .ro, 0x0⟩
  | .OBS_REPAIR_pending => ⟨8, 12, .ro, 0x0⟩
  | .OBS_REPAIR_hbm_retired => ⟨0, 8, .ro, 0x0⟩
  | .OBS_INT_bist_fail => ⟨3, 1, .w1c, 0x0⟩
  | .OBS_INT_fuse_err => ⟨2, 1, .w1c, 0x0⟩
  | .OBS_INT_cmd_reject => ⟨1, 1, .w1c, 0x0⟩
  | .OBS_INT_cmd_done => ⟨0, 1, .w1c, 0x0⟩
  | .OBS_INT_EN_bits => ⟨0, 4, .rw, 0x0⟩
  | .OBS_DEV_ID_id => ⟨0, 64, .ro, 0x0⟩
  | .OBS_SVN_MIN_min => ⟨0, 7, .ro, 0x0⟩
  | .OBS_CMD_DATA_data => ⟨0, 32, .rw, 0x0⟩
  | .OBS_MEAS_hash => ⟨0, 32, .ro, 0x0⟩
  | .OBS_NONCE_nonce => ⟨0, 32, .ro, 0x0⟩
  | .MGT_ERR_CFG_en => ⟨31, 1, .rw, 0x1⟩
  | .MGT_ERR_CFG_fatal_act => ⟨28, 1, .rw, 0x1⟩
  | .MGT_ERR_CFG_uc_act => ⟨24, 1, .rw, 0x0⟩
  | .MGT_ERR_CFG_ring => ⟨0, 10, .rw, 0x0⟩
  | .MGT_ERR_LOST_count => ⟨0, 64, .ro, 0x0⟩
  | .MGT_ERR_INT_fatal => ⟨3, 1, .w1c, 0x0⟩
  | .MGT_ERR_INT_uc_uncont => ⟨2, 1, .w1c, 0x0⟩
  | .MGT_ERR_INT_uc_cont => ⟨1, 1, .w1c, 0x0⟩
  | .MGT_ERR_INT_ce => ⟨0, 1, .w1c, 0x0⟩
  | .MGT_ERR_INT_EN_bits => ⟨0, 4, .rw, 0x0⟩
  | .MGT_ERR_HEAD_next => ⟨0, 6, .ro, 0x0⟩
  | .MGT_ERR_CNT_count => ⟨0, 64, .ro, 0x0⟩
  | .MGT_ERR_LOG_record => ⟨0, 32, .ro, 0x0⟩
  | .GNS_SCRUB_CTL_en => ⟨31, 1, .rw, 0x1⟩
  | .GNS_SCRUB_CTL_period_h => ⟨0, 16, .rw, 0x18⟩
  | .GNS_HBM_CE_count => ⟨0, 64, .ro, 0x0⟩
  | .GNS_POISONED_count => ⟨0, 64, .ro, 0x0⟩
  | .DMA_RING_BASE_base => ⟨6, 58, .rw, 0x0⟩
  | .DMA_RING_CFG_en => ⟨31, 1, .rw, 0x0⟩
  | .DMA_RING_CFG_side => ⟨30, 1, .rw, 0x0⟩
  | .DMA_RING_CFG_func => ⟨27, 3, .rw, 0x0⟩
  | .DMA_RING_CFG_size_log2 => ⟨20, 5, .rw, 0x0⟩
  | .DMA_RING_CFG_irq_en => ⟨16, 1, .rw, 0x0⟩
  | .DMA_RING_CFG_vector => ⟨10, 6, .rw, 0x0⟩
  | .DMA_RING_CFG_cpl_ring => ⟨0, 10, .rw, 0x0⟩
  | .DMA_RING_WB_addr => ⟨3, 61, .rw, 0x0⟩
  | .DMA_RING_MOD_count => ⟨16, 16, .rw, 0x1⟩
  | .DMA_RING_MOD_delay_us => ⟨0, 16, .rw, 0x0⟩
  | .DMA_RING_HEAD_head => ⟨0, 32, .ro, 0x0⟩
  | .DMA_RING_TAIL_tail => ⟨0, 32, .ro, 0x0⟩
  | .DMA_RING_STATUS_bm_stop => ⟨2, 1, .ro, 0x0⟩
  | .DMA_RING_STATUS_tail_err => ⟨1, 1, .w1c, 0x0⟩
  | .DMA_RING_STATUS_fault => ⟨0, 1, .ro, 0x0⟩
  | .DMA_RING_CTL_reset => ⟨0, 1, .wo, 0x0⟩
  | .DMA_RING_NOBUF_count => ⟨0, 64, .ro, 0x0⟩
  | .DMA_RING_TRUNC_count => ⟨0, 64, .ro, 0x0⟩
  | .DMA_INT_cfg_reject => ⟨5, 1, .w1c, 0x0⟩
  | .DMA_INT_cpl_full => ⟨4, 1, .w1c, 0x0⟩
  | .DMA_INT_misroute => ⟨3, 1, .w1c, 0x0⟩
  | .DMA_INT_trunc => ⟨2, 1, .w1c, 0x0⟩
  | .DMA_INT_tail_err => ⟨1, 1, .w1c, 0x0⟩
  | .DMA_INT_fault => ⟨0, 1, .w1c, 0x0⟩
  | .DMA_INT_EN_bits => ⟨0, 6, .rw, 0x0⟩
  | .DMA_PTP_MAP_en => ⟨31, 1, .rw, 0x0⟩
  | .DMA_PTP_MAP_ring => ⟨0, 10, .rw, 0x0⟩
  | .DMA_RX_DROP_count => ⟨0, 64, .ro, 0x0⟩
  | .DMA_CPL_DISCARD_count => ⟨0, 64, .ro, 0x0⟩
  | .DMA_RX_MAP_en => ⟨31, 1, .rw, 0x0⟩
  | .DMA_RX_MAP_count => ⟨20, 10, .rw, 0x0⟩
  | .DMA_RX_MAP_ring => ⟨0, 10, .rw, 0x0⟩
  | .DMA_CQ_BASE_base => ⟨6, 58, .rw, 0x0⟩
  | .DMA_CQ_CFG_en => ⟨31, 1, .rw, 0x0⟩
  | .DMA_CQ_CFG_side => ⟨30, 1, .rw, 0x0⟩
  | .DMA_CQ_CFG_size_log2 => ⟨20, 5, .rw, 0x0⟩
  | .DMA_CQ_HEAD_head => ⟨0, 32, .ro, 0x0⟩
  | .DMA_CQ_CTL_reset => ⟨0, 1, .wo, 0x0⟩
  | .DMA_CQ_STATUS_tail_err => ⟨1, 1, .w1c, 0x0⟩
  | .DMA_CQ_STATUS_fault => ⟨0, 1, .ro, 0x0⟩
  | .MGT_MBX_H2D_word => ⟨0, 32, .rw, 0x0⟩
  | .MGT_MBX_D2H_word => ⟨0, 32, .ro, 0x0⟩
  | .MGT_MBX_H2D_TAKEN_seq => ⟨0, 32, .ro, 0x0⟩
  | .MGT_MBX_H2D_DONE_seq => ⟨0, 32, .ro, 0x0⟩
  | .MGT_MBX_D2H_SENT_seq => ⟨0, 32, .ro, 0x0⟩
  | .MGT_MBX_D2H_ACK_seq => ⟨0, 32, .rw, 0x0⟩
  | .MGT_MBX_STATUS_epoch => ⟨24, 8, .ro, 0x0⟩
  | .MGT_MBX_STATUS_fw_ready => ⟨0, 1, .ro, 0x0⟩
  | .MGT_MBX_INT_restarted => ⟨2, 1, .w1c, 0x0⟩
  | .MGT_MBX_INT_bad_seq => ⟨1, 1, .w1c, 0x0⟩
  | .MGT_MBX_INT_d2h => ⟨0, 1, .w1c, 0x0⟩
  | .MGT_MBX_INT_EN_bits => ⟨0, 3, .rw, 0x0⟩
  | .MGT_IRQ_ROUTE_host_en => ⟨31, 1, .rw, 0x0⟩
  | .MGT_IRQ_ROUTE_mgmt_en => ⟨30, 1, .rw, 0x0⟩
  | .MGT_IRQ_ROUTE_vector => ⟨0, 6, .rw, 0x0⟩
  | .MGT_IRQ_PEND_pend => ⟨0, 32, .ro, 0x0⟩
  | .MGT_IRQ_ARM_vector => ⟨0, 6, .wo, 0x0⟩
  | .MGT_IRQ_ARMED_armed => ⟨0, 64, .ro, 0xffffffffffffffff⟩
  | .MSIX_PBA_pend => ⟨0, 64, .ro, 0⟩
  | .MGT_IRQ_RPEND_pend => ⟨0, 32, .ro, 0x0⟩
  | .MGT_UART_CFG_baud => ⟨0, 2, .rw, 0x0⟩
  | .GPIO_FUNC_func => ⟨0, 2, .rw, 0x0⟩
  | .GPIO_OUT_out => ⟨0, 16, .rw, 0x0⟩
  | .GPIO_OE_oe => ⟨0, 16, .rw, 0x0⟩
  | .GPIO_IN_in => ⟨0, 16, .ro, 0x0⟩
  | .GPIO_INT_edge => ⟨0, 16, .w1c, 0x0⟩
  | .GPIO_INT_EN_bits => ⟨0, 16, .rw, 0x0⟩
  | .GPIO_EDGE_sel => ⟨0, 32, .rw, 0x0⟩
  | .GPIO_STATUS_switching => ⟨0, 16, .ro, 0x0⟩
  | .I2C_CTL_en => ⟨31, 1, .rw, 0x0⟩
  | .I2C_CTL_reset => ⟨30, 1, .wo, 0x0⟩
  | .I2C_CTL_clear => ⟨29, 1, .wo, 0x0⟩
  | .I2C_CTL_speed => ⟨0, 2, .rw, 0x0⟩
  | .I2C_CMD_start => ⟨31, 1, .wo, 0x0⟩
  | .I2C_CMD_addr => ⟨16, 7, .rw, 0x0⟩
  | .I2C_CMD_rd_count => ⟨8, 8, .rw, 0x0⟩
  | .I2C_CMD_wr_count => ⟨0, 8, .rw, 0x0⟩
  | .I2C_DATA_byte => ⟨0, 8, .rw, 0x0⟩
  | .I2C_STATUS_busy => ⟨31, 1, .ro, 0x0⟩
  | .I2C_STATUS_scl_stuck => ⟨4, 1, .ro, 0x0⟩
  | .I2C_STATUS_sda_stuck => ⟨3, 1, .ro, 0x0⟩
  | .I2C_STATUS_arb_lost => ⟨2, 1, .ro, 0x0⟩
  | .I2C_STATUS_nack => ⟨1, 1, .ro, 0x0⟩
  | .I2C_STATUS_done => ⟨0, 1, .ro, 0x0⟩
  | .I2C_INT_reject => ⟨2, 1, .w1c, 0x0⟩
  | .I2C_INT_stuck => ⟨1, 1, .w1c, 0x0⟩
  | .I2C_INT_done => ⟨0, 1, .w1c, 0x0⟩
  | .I2C_INT_EN_bits => ⟨0, 3, .rw, 0x0⟩
  | .I2C_TGT_CFG_alert_en => ⟨8, 1, .rw, 0x0⟩
  | .I2C_TGT_CFG_pec_en => ⟨7, 1, .rw, 0x1⟩
  | .I2C_TGT_CFG_addr => ⟨0, 7, .rw, 0x4c⟩

/-- Where a register lies and what it holds: BAR0 address of its first copy, its repetitions as pairs of
count and address stride (outermost first), whether it is 64 bits wide, and its fields. -/
structure RegInfo where
  base : Nat
  dims : List (Nat × Nat)
  wide : Bool
  scope : Scope
  dom : DomKind
  fields : List Fld
  deriving DecidableEq, Repr

/-- The register tables of spec/: R3, R74 to R81, R101, R118 to R122, R156 to R158, R183 to R188, R220 to R222,
R254, R255, R282, R283, R312, R313, R344, R345, R370 to R374, R401, R430, R431, R459 to R461, R497 to R502. -/
def Reg.info : Reg → RegInfo
  | .MGT_DEVICE_ID => ⟨0x0, [], false, .cold, .none, [.MGT_DEVICE_ID_part_num, .MGT_DEVICE_ID_family, .MGT_DEVICE_ID_step_major, .MGT_DEVICE_ID_step_minor]⟩
  | .TIL_PORT_MODE => ⟨0x2000000, [(32, 0x100000), (8, 0x1000)], false, .tile, .tile, [.TIL_PORT_MODE_bo_reject, .TIL_PORT_MODE_loopback, .TIL_PORT_MODE_breakout]⟩
  | .TIL_LNK_CTL => ⟨0x2000100, [(32, 0x100000), (8, 0x1000), (4, 0x100)], false, .tile, .tile, [.TIL_LNK_CTL_ka_accept, .TIL_LNK_CTL_ka_req, .TIL_LNK_CTL_retrain, .TIL_LNK_CTL_link_mode, .TIL_LNK_CTL_lnk_en]⟩
  | .TIL_LNK_STATUS => ⟨0x2000104, [(32, 0x100000), (8, 0x1000), (4, 0x100)], false, .tile, .tile, [.TIL_LNK_STATUS_state, .TIL_LNK_STATUS_ka_cap, .TIL_LNK_STATUS_retry_on, .TIL_LNK_STATUS_staketu, .TIL_LNK_STATUS_signal, .TIL_LNK_STATUS_up]⟩
  | .TIL_LNK_INT => ⟨0x2000108, [(32, 0x100000), (8, 0x1000), (4, 0x100)], false, .tile, .tile, [.TIL_LNK_INT_credit_mismatch, .TIL_LNK_INT_ka_change, .TIL_LNK_INT_retrain, .TIL_LNK_INT_frame_lost, .TIL_LNK_INT_burst, .TIL_LNK_INT_down, .TIL_LNK_INT_up]⟩
  | .TIL_LNK_INT_EN => ⟨0x200010C, [(32, 0x100000), (8, 0x1000), (4, 0x100)], false, .tile, .tile, [.TIL_LNK_INT_EN_bits]⟩
  | .TIL_LNK_BURST_CFG => ⟨0x2000110, [(32, 0x100000), (8, 0x1000), (4, 0x100)], false, .tile, .tile, [.TIL_LNK_BURST_CFG_retrain_count, .TIL_LNK_BURST_CFG_retrain_window, .TIL_LNK_BURST_CFG_burst_gap]⟩
  | .TIL_LNK_PFC_CFG => ⟨0x2000114, [(32, 0x100000), (8, 0x1000), (4, 0x100)], false, .tile, .tile, [.TIL_LNK_PFC_CFG_pfc_rx_en, .TIL_LNK_PFC_CFG_pfc_tx_en]⟩
  | .TIL_LNK_RTT => ⟨0x2000118, [(32, 0x100000), (8, 0x1000), (4, 0x100)], false, .tile, .tile, [.TIL_LNK_RTT_rtt_ns]⟩
  | .TIL_LNK_GRANT_TC => ⟨0x2000140, [(32, 0x100000), (8, 0x1000), (4, 0x100), (8, 0x4)], false, .tile, .tile, [.TIL_LNK_GRANT_TC_partner_grant, .TIL_LNK_GRANT_TC_local_grant]⟩
  | .TIL_LNK_FEC_CORR => ⟨0x2000180, [(32, 0x100000), (8, 0x1000), (4, 0x100)], true, .tile, .tile, [.TIL_LNK_FEC_CORR_count]⟩
  | .TIL_LNK_FEC_UNCORR => ⟨0x2000188, [(32, 0x100000), (8, 0x1000), (4, 0x100)], true, .tile, .tile, [.TIL_LNK_FEC_UNCORR_count]⟩
  | .TIL_LNK_FEC_SYMERR => ⟨0x2000190, [(32, 0x100000), (8, 0x1000), (4, 0x100)], true, .tile, .tile, [.TIL_LNK_FEC_SYMERR_count]⟩
  | .TIL_LNK_RETRY => ⟨0x2000198, [(32, 0x100000), (8, 0x1000), (4, 0x100)], true, .tile, .tile, [.TIL_LNK_RETRY_count]⟩
  | .TIL_LNK_LOST => ⟨0x20001A0, [(32, 0x100000), (8, 0x1000), (4, 0x100)], true, .tile, .tile, [.TIL_LNK_LOST_count]⟩
  | .TIL_LNK_BURSTS => ⟨0x20001A8, [(32, 0x100000), (8, 0x1000), (4, 0x100)], true, .tile, .tile, [.TIL_LNK_BURSTS_count]⟩
  | .TIL_LNK_RETRAINS => ⟨0x20001B0, [(32, 0x100000), (8, 0x1000), (4, 0x100)], true, .tile, .tile, [.TIL_LNK_RETRAINS_count]⟩
  | .TIL_LNK_RESYNCS => ⟨0x20001B8, [(32, 0x100000), (8, 0x1000), (4, 0x100)], true, .tile, .tile, [.TIL_LNK_RESYNCS_count]⟩
  | .TIL_LNK_FLUSH => ⟨0x20001C0, [(32, 0x100000), (8, 0x1000), (4, 0x100)], true, .tile, .tile, [.TIL_LNK_FLUSH_count]⟩
  | .TIL_FWD_CFG => ⟨0x2010000, [(32, 0x100000)], false, .tile, .tile, [.TIL_FWD_CFG_xeirrik_etype, .TIL_FWD_CFG_ce_level, .TIL_FWD_CFG_learn_en, .TIL_FWD_CFG_route_en, .TIL_FWD_CFG_fwd_en]⟩
  | .TIL_FWD_RMAC => ⟨0x2010008, [(32, 0x100000)], true, .tile, .tile, [.TIL_FWD_RMAC_rmac]⟩
  | .TIL_FWD_DROP => ⟨0x2010100, [(32, 0x100000), (14, 0x8)], true, .tile, .tile, [.TIL_FWD_DROP_count]⟩
  | .DMA_TBL_LOCK => ⟨0x600000, [(9, 0x4)], false, .cold, .none, [.DMA_TBL_LOCK_locked, .DMA_TBL_LOCK_holder]⟩
  | .DMA_TBL_AGE => ⟨0x600040, [], false, .cold, .none, [.DMA_TBL_AGE_age_s]⟩
  | .DMA_TBL_LRN_MISS => ⟨0x600048, [], true, .cold, .none, [.DMA_TBL_LRN_MISS_count]⟩
  | .DMA_TBL_MOVES => ⟨0x600050, [], true, .cold, .none, [.DMA_TBL_MOVES_count]⟩
  | .JSP_CMAP_CTL => ⟨0xA00000, [], false, .cold, .none, [.JSP_CMAP_CTL_en, .JSP_CMAP_CTL_host_copy, .JSP_CMAP_CTL_interval, .JSP_CMAP_CTL_group]⟩
  | .JSP_CMAP_SRC => ⟨0xA00004, [], false, .cold, .none, [.JSP_CMAP_SRC_eid]⟩
  | .TIL_CT_CFG => ⟨0x2020000, [(32, 0x100000)], true, .tile, .tile, [.TIL_CT_CFG_ct_en]⟩
  | .TIL_STG_CTL => ⟨0x2020008, [(32, 0x100000)], false, .tile, .tile, [.TIL_STG_CTL_out_verify]⟩
  | .TIL_STG_STATUS => ⟨0x202000C, [(32, 0x100000)], false, .tile, .tile, [.TIL_STG_STATUS_grant_over, .TIL_STG_STATUS_used]⟩
  | .TIL_CHK_FAIL_IN => ⟨0x2020010, [(32, 0x100000)], true, .tile, .tile, [.TIL_CHK_FAIL_IN_count]⟩
  | .TIL_CHK_FAIL_OUT => ⟨0x2020018, [(32, 0x100000)], true, .tile, .tile, [.TIL_CHK_FAIL_OUT_count]⟩
  | .TIL_CHK_STOMP_RX => ⟨0x2020020, [(32, 0x100000)], true, .tile, .tile, [.TIL_CHK_STOMP_RX_count]⟩
  | .BSL_ADM_CFG => ⟨0x800000, [(4, 0x10000)], false, .die, .die, [.BSL_ADM_CFG_stall_us, .BSL_ADM_CFG_lossless]⟩
  | .BSL_FREE => ⟨0x800040, [(4, 0x10000)], false, .die, .die, [.BSL_FREE_count]⟩
  | .BSL_QUEUED => ⟨0x800044, [(4, 0x10000)], false, .die, .die, [.BSL_QUEUED_count]⟩
  | .BSL_RESERVED => ⟨0x800048, [(4, 0x10000)], false, .die, .die, [.BSL_RESERVED_count]⟩
  | .BSL_RETIRED => ⟨0x80004C, [(4, 0x10000)], false, .die, .die, [.BSL_RETIRED_count]⟩
  | .BSL_CNT_SNAP => ⟨0x800050, [(4, 0x10000)], false, .die, .die, [.BSL_CNT_SNAP_snap]⟩
  | .BSL_REPAIRED => ⟨0x800054, [(4, 0x10000)], false, .die, .die, [.BSL_REPAIRED_count]⟩
  | .BSL_AUDIT_CTL => ⟨0x800060, [(4, 0x10000)], false, .die, .die, [.BSL_AUDIT_CTL_en, .BSL_AUDIT_CTL_period_ms]⟩
  | .BSL_AUDIT_STATUS => ⟨0x800064, [(4, 0x10000)], false, .die, .die, [.BSL_AUDIT_STATUS_suspect]⟩
  | .BSL_INT => ⟨0x800068, [(4, 0x10000)], false, .die, .die, [.BSL_INT_double, .BSL_INT_leak, .BSL_INT_stall, .BSL_INT_cfg_reject]⟩
  | .BSL_INT_EN => ⟨0x80006C, [(4, 0x10000)], false, .die, .die, [.BSL_INT_EN_bits]⟩
  | .BSL_DROP_NOCELL => ⟨0x800080, [(4, 0x10000)], true, .die, .die, [.BSL_DROP_NOCELL_count]⟩
  | .BSL_DROP_LINKDOWN => ⟨0x800088, [(4, 0x10000)], true, .die, .die, [.BSL_DROP_LINKDOWN_count]⟩
  | .BSL_DROP_PAIRDOWN => ⟨0x800090, [(4, 0x10000)], true, .die, .die, [.BSL_DROP_PAIRDOWN_count]⟩
  | .BSL_ADM_STALL => ⟨0x800098, [(4, 0x10000)], true, .die, .die, [.BSL_ADM_STALL_count]⟩
  | .BSL_AUDIT_RECLAIM => ⟨0x8000A0, [(4, 0x10000)], true, .die, .die, [.BSL_AUDIT_RECLAIM_count]⟩
  | .BSL_AUDIT_DOUBLE => ⟨0x8000A8, [(4, 0x10000)], true, .die, .die, [.BSL_AUDIT_DOUBLE_count]⟩
  | .BSL_POOL_TC => ⟨0x800010, [(4, 0x10000), (8, 0x4)], false, .die, .die, [.BSL_POOL_TC_alpha, .BSL_POOL_TC_min_cells]⟩
  | .D2D_LNK_CTL => ⟨0x900000, [(48, 0x200), (2, 0x100)], false, .agate, .agate, [.D2D_LNK_CTL_auto_retrain, .D2D_LNK_CTL_retrain, .D2D_LNK_CTL_en]⟩
  | .D2D_LNK_STATUS => ⟨0x900004, [(48, 0x200), (2, 0x100)], false, .agate, .agate, [.D2D_LNK_STATUS_mgmt, .D2D_LNK_STATUS_state]⟩
  | .D2D_LNK_CRCERR => ⟨0x900080, [(48, 0x200), (2, 0x100)], true, .agate, .agate, [.D2D_LNK_CRCERR_count]⟩
  | .D2D_LNK_REPLAY => ⟨0x900088, [(48, 0x200), (2, 0x100)], true, .agate, .agate, [.D2D_LNK_REPLAY_count]⟩
  | .D2D_LNK_FAILS => ⟨0x900090, [(48, 0x200), (2, 0x100)], true, .agate, .agate, [.D2D_LNK_FAILS_count]⟩
  | .D2D_PAIR_CFG => ⟨0x908000, [(6, 0x100)], false, .warm, .none, [.D2D_PAIR_CFG_min_links]⟩
  | .D2D_PAIR_STATUS => ⟨0x908004, [(6, 0x100)], false, .warm, .none, [.D2D_PAIR_STATUS_live_ji, .D2D_PAIR_STATUS_live_ij]⟩
  | .D2D_PAIR_INT => ⟨0x908008, [(6, 0x100)], false, .warm, .none, [.D2D_PAIR_INT_down, .D2D_PAIR_INT_degraded, .D2D_PAIR_INT_link_fail]⟩
  | .D2D_PAIR_INT_EN => ⟨0x90800C, [(6, 0x100)], false, .warm, .none, [.D2D_PAIR_INT_EN_bits]⟩
  | .FLD_SUB_CFG => ⟨0x2040000, [(32, 0x100000), (2048, 0x8)], true, .tile, .tile, [.FLD_SUB_CFG_rate, .FLD_SUB_CFG_burst, .FLD_SUB_CFG_weight]⟩
  | .FLD_SUB_DEPTH => ⟨0x2044000, [(32, 0x100000), (2048, 0x4)], false, .tile, .tile, [.FLD_SUB_DEPTH_cells]⟩
  | .FLD_PORT_SPLIT => ⟨0x2048000, [(32, 0x100000), (8, 0x8)], true, .tile, .tile, [.FLD_PORT_SPLIT_nodes]⟩
  | .FLD_SRC_NODE => ⟨0x2048040, [(32, 0x100000)], false, .tile, .tile, [.FLD_SRC_NODE_gneiss_node, .FLD_SRC_NODE_host_node, .FLD_SRC_NODE_jasper_node]⟩
  | .FLD_INT => ⟨0x2048044, [(32, 0x100000)], false, .tile, .tile, [.FLD_INT_tc7_over, .FLD_INT_gate_err, .FLD_INT_cfg_reject]⟩
  | .FLD_INT_EN => ⟨0x2048048, [(32, 0x100000)], false, .tile, .tile, [.FLD_INT_EN_bits]⟩
  | .FLD_TC7_OVER => ⟨0x2048050, [(32, 0x100000)], true, .tile, .tile, [.FLD_TC7_OVER_count]⟩
  | .FLD_GATE_DROP => ⟨0x2048058, [(32, 0x100000)], true, .tile, .tile, [.FLD_GATE_DROP_count]⟩
  | .FLD_DROP_DETACHED => ⟨0x2048060, [(32, 0x100000)], true, .tile, .tile, [.FLD_DROP_DETACHED_count]⟩
  | .FLD_LNK_CTL => ⟨0x2049000, [(32, 0x100000), (32, 0x100)], false, .tile, .tile, [.FLD_LNK_CTL_preempt]⟩
  | .FLD_TC7_MON => ⟨0x2049004, [(32, 0x100000), (32, 0x100)], false, .tile, .tile, [.FLD_TC7_MON_rate, .FLD_TC7_MON_burst]⟩
  | .FLD_GATE_CTL => ⟨0x2049008, [(32, 0x100000), (32, 0x100)], false, .tile, .tile, [.FLD_GATE_CTL_gate_en, .FLD_GATE_CTL_len1, .FLD_GATE_CTL_len0, .FLD_GATE_CTL_commit]⟩
  | .FLD_GATE_STATUS => ⟨0x204900C, [(32, 0x100000), (32, 0x100)], false, .tile, .tile, [.FLD_GATE_STATUS_time_wait, .FLD_GATE_STATUS_pending, .FLD_GATE_STATUS_active, .FLD_GATE_STATUS_entry]⟩
  | .FLD_GATE_BASE_S => ⟨0x2049010, [(32, 0x100000), (32, 0x100), (2, 0x10)], true, .tile, .tile, [.FLD_GATE_BASE_S_sec]⟩
  | .FLD_GATE_BASE_NS => ⟨0x2049018, [(32, 0x100000), (32, 0x100), (2, 0x10)], false, .tile, .tile, [.FLD_GATE_BASE_NS_nsec]⟩
  | .FLD_GATE_CYCLE_NS => ⟨0x204901C, [(32, 0x100000), (32, 0x100), (2, 0x10)], false, .tile, .tile, [.FLD_GATE_CYCLE_NS_cycle]⟩
  | .FLD_CLS_CFG => ⟨0x2049040, [(32, 0x100000), (32, 0x100), (8, 0x4)], false, .tile, .tile, [.FLD_CLS_CFG_strict, .FLD_CLS_CFG_cbs_en, .FLD_CLS_CFG_weight]⟩
  | .FLD_CBS_CFG => ⟨0x2049060, [(32, 0x100000), (32, 0x100), (8, 0x4)], false, .tile, .tile, [.FLD_CBS_CFG_idle_slope, .FLD_CBS_CFG_hi_limit]⟩
  | .FLD_GATE_ENT => ⟨0x204C000, [(32, 0x100000), (32, 0x200), (2, 0x100), (64, 0x4)], false, .tile, .tile, [.FLD_GATE_ENT_gates, .FLD_GATE_ENT_interval]⟩
  | .GRN_FMT_CTL => ⟨0xB00000, [], false, .warm, .none, [.GRN_FMT_CTL_mx_sat, .GRN_FMT_CTL_e4m3_sat, .GRN_FMT_CTL_op_en, .GRN_FMT_CTL_fmt_en]⟩
  | .GRN_AUDIT_CFG => ⟨0xB00004, [], false, .warm, .none, [.GRN_AUDIT_CFG_audit_log2]⟩
  | .GRN_IST_CTL => ⟨0xB00008, [], false, .warm, .none, [.GRN_IST_CTL_en, .GRN_IST_CTL_period_ms]⟩
  | .GRN_IST_STATUS => ⟨0xB0000C, [], false, .warm, .none, [.GRN_IST_STATUS_busy, .GRN_IST_STATUS_engine]⟩
  | .GRN_IST_STARVED => ⟨0xB00010, [], false, .warm, .none, [.GRN_IST_STARVED_starved]⟩
  | .GRN_IST_FAIL => ⟨0xB00014, [], false, .warm, .none, [.GRN_IST_FAIL_fail]⟩
  | .GRN_IST_PASSES => ⟨0xB00018, [], true, .warm, .none, [.GRN_IST_PASSES_count]⟩
  | .GRN_CTL => ⟨0x2060000, [(32, 0x100000)], false, .tile, .garnet, [.GRN_CTL_release, .GRN_CTL_quarantine]⟩
  | .GRN_STATUS => ⟨0x2060004, [(32, 0x100000)], false, .tile, .garnet, [.GRN_STATUS_chunks, .GRN_STATUS_subst, .GRN_STATUS_state]⟩
  | .GRN_SPILL_CFG => ⟨0x2060008, [(32, 0x100000)], false, .tile, .garnet, [.GRN_SPILL_CFG_wait_us, .GRN_SPILL_CFG_quota]⟩
  | .GRN_SPILL_USED => ⟨0x206000C, [(32, 0x100000)], false, .tile, .garnet, [.GRN_SPILL_USED_cells]⟩
  | .GRN_SCR_USED => ⟨0x2060010, [(32, 0x100000)], false, .tile, .garnet, [.GRN_SCR_USED_lines]⟩
  | .GRN_INT => ⟨0x2060014, [(32, 0x100000)], false, .tile, .garnet, [.GRN_INT_audit_mismatch, .GRN_INT_quarantined, .GRN_INT_residue, .GRN_INT_scr_uncorr, .GRN_INT_scr_corr, .GRN_INT_no_scratch, .GRN_INT_conflict]⟩
  | .GRN_INT_EN => ⟨0x2060018, [(32, 0x100000)], false, .tile, .garnet, [.GRN_INT_EN_bits]⟩
  | .GRN_RELEASED => ⟨0x2060080, [(32, 0x100000)], true, .tile, .garnet, [.GRN_RELEASED_count]⟩
  | .GRN_FAILED => ⟨0x2060088, [(32, 0x100000)], true, .tile, .garnet, [.GRN_FAILED_count]⟩
  | .GRN_ELEMS => ⟨0x2060090, [(32, 0x100000)], true, .tile, .garnet, [.GRN_ELEMS_count]⟩
  | .GRN_DUP => ⟨0x2060098, [(32, 0x100000)], true, .tile, .garnet, [.GRN_DUP_count]⟩
  | .GRN_LATE => ⟨0x20600A0, [(32, 0x100000)], true, .tile, .garnet, [.GRN_LATE_count]⟩
  | .GRN_RESIDUE_ERR => ⟨0x20600A8, [(32, 0x100000)], true, .tile, .garnet, [.GRN_RESIDUE_ERR_count]⟩
  | .GRN_MOVED => ⟨0x20600B0, [(32, 0x100000)], true, .tile, .garnet, [.GRN_MOVED_count]⟩
  | .GRN_AUDITED => ⟨0x20600B8, [(32, 0x100000)], true, .tile, .garnet, [.GRN_AUDITED_count]⟩
  | .GRN_ESCAPES => ⟨0x20600C0, [(32, 0x100000)], true, .tile, .garnet, [.GRN_ESCAPES_count]⟩
  | .GRN_SCR_CORR => ⟨0x20600C8, [(32, 0x100000)], true, .tile, .garnet, [.GRN_SCR_CORR_count]⟩
  | .GRN_SPILL_WAITS => ⟨0x20600D0, [(32, 0x100000)], true, .tile, .garnet, [.GRN_SPILL_WAITS_count]⟩
  | .COL_CTL => ⟨0xC00000, [], false, .warm, .none, [.COL_CTL_en, .COL_CTL_fence_ms, .COL_CTL_def_timeout]⟩
  | .COL_STATUS => ⟨0xC00004, [], false, .warm, .none, [.COL_STATUS_open]⟩
  | .COL_INT => ⟨0xC00008, [], false, .warm, .none, [.COL_INT_fence_timeout, .COL_INT_desc_err, .COL_INT_ctx_fail]⟩
  | .COL_INT_EN => ⟨0xC0000C, [], false, .warm, .none, [.COL_INT_EN_bits]⟩
  | .COL_COMPLETED => ⟨0xC00020, [], true, .warm, .none, [.COL_COMPLETED_count]⟩
  | .COL_FAILED => ⟨0xC00028, [], true, .warm, .none, [.COL_FAILED_count]⟩
  | .COL_TOKEN => ⟨0xC10000, [(4096, 0x4)], false, .warm, .none, [.COL_TOKEN_value]⟩
  | .COL_DISCARD => ⟨0x2080000, [(32, 0x100000), (9, 0x8)], true, .tile, .tile, [.COL_DISCARD_count]⟩
  | .GNS_CTL => ⟨0xD00000, [], false, .cold, .none, [.GNS_CTL_en, .GNS_CTL_sweep_pct, .GNS_CTL_resp_hops]⟩
  | .GNS_CMD => ⟨0xD00004, [], false, .cold, .none, [.GNS_CMD_op, .GNS_CMD_index]⟩
  | .GNS_CMD_STATUS => ⟨0xD00008, [], false, .cold, .none, [.GNS_CMD_STATUS_busy, .GNS_CMD_STATUS_result]⟩
  | .GNS_INT => ⟨0xD00080, [], false, .cold, .none, [.GNS_INT_gw_fail, .GNS_INT_mem_err, .GNS_INT_sweep_done, .GNS_INT_cmd_reject]⟩
  | .GNS_INT_EN => ⟨0xD00084, [], false, .cold, .none, [.GNS_INT_EN_bits]⟩
  | .GNS_REQ_OK => ⟨0xD00100, [], true, .cold, .none, [.GNS_REQ_OK_count]⟩
  | .GNS_REQ_ERR => ⟨0xD00108, [], true, .cold, .none, [.GNS_REQ_ERR_count]⟩
  | .GNS_NW_READS => ⟨0xD00110, [], true, .cold, .none, [.GNS_NW_READS_count]⟩
  | .GNS_STRAY => ⟨0xD00118, [], true, .cold, .none, [.GNS_STRAY_count]⟩
  | .GNS_GW_DISCARD => ⟨0xD00120, [], true, .cold, .none, [.GNS_GW_DISCARD_count]⟩
  | .GNS_CMD_DATA => ⟨0xD00040, [(16, 0x4)], false, .cold, .none, [.GNS_CMD_DATA_data]⟩
  | .GNS_CQ_STATUS => ⟨0xD10000, [(4, 0x100)], false, .die, .die, [.GNS_CQ_STATUS_peak, .GNS_CQ_STATUS_used]⟩
  | .GNS_CQ_WAITS => ⟨0xD10008, [(4, 0x100)], true, .die, .die, [.GNS_CQ_WAITS_count]⟩
  | .GNS_COMBINED => ⟨0xD10010, [(4, 0x100)], true, .die, .die, [.GNS_COMBINED_count]⟩
  | .GNS_STALE => ⟨0xD10018, [(4, 0x100)], true, .die, .die, [.GNS_STALE_count]⟩
  | .GNS_PART => ⟨0xD00010, [], false, .cold, .none, [.GNS_PART_abs_gib, .GNS_PART_mem_gib]⟩
  | .GNS_PART_STATUS => ⟨0xD00014, [], false, .cold, .none, [.GNS_PART_STATUS_reject, .GNS_PART_STATUS_jrn_gib]⟩
  | .GNS_BW_CFG => ⟨0xD00018, [], false, .cold, .none, [.GNS_BW_CFG_w_fab, .GNS_BW_CFG_w_rd, .GNS_BW_CFG_w_jrn]⟩
  | .GNS_CKP_CFG => ⟨0xD00020, [], false, .cold, .none, [.GNS_CKP_CFG_mirror_gbps, .GNS_CKP_CFG_retries, .GNS_CKP_CFG_resp_us]⟩
  | .GNS_CKP_FILL => ⟨0xD00024, [], false, .cold, .none, [.GNS_CKP_FILL_fill_ms]⟩
  | .GNS_CKP_STATUS => ⟨0xD00028, [], false, .cold, .none, [.GNS_CKP_STATUS_open]⟩
  | .GNS_CKP_INT => ⟨0xD00030, [], false, .cold, .none, [.GNS_CKP_INT_notify_err, .GNS_CKP_INT_drain_fail, .GNS_CKP_INT_mirror_fail, .GNS_CKP_INT_shard_fail]⟩
  | .GNS_CKP_INT_EN => ⟨0xD00034, [], false, .cold, .none, [.GNS_CKP_INT_EN_bits]⟩
  | .GNS_CKP_ABSORBED => ⟨0xD00140, [], true, .cold, .none, [.GNS_CKP_ABSORBED_count]⟩
  | .GNS_CKP_MIRRORED => ⟨0xD00148, [], true, .cold, .none, [.GNS_CKP_MIRRORED_count]⟩
  | .GNS_CKP_DURABLE => ⟨0xD00150, [], true, .cold, .none, [.GNS_CKP_DURABLE_count]⟩
  | .GNS_CKP_FAILED => ⟨0xD00158, [], true, .cold, .none, [.GNS_CKP_FAILED_count]⟩
  | .GNS_CKP_LATE_WR => ⟨0xD00160, [], true, .cold, .none, [.GNS_CKP_LATE_WR_count]⟩
  | .GNS_CKP_RESTORE_FR => ⟨0xD00168, [], true, .cold, .none, [.GNS_CKP_RESTORE_FR_count]⟩
  | .GNS_CKP_NOTIFY_ERR => ⟨0xD00170, [], true, .cold, .none, [.GNS_CKP_NOTIFY_ERR_count]⟩
  | .SHL_CTL => ⟨0xE00000, [], false, .cold, .none, [.SHL_CTL_en]⟩
  | .SHL_INT => ⟨0xE00004, [], false, .cold, .none, [.SHL_INT_cfg_reject, .SHL_INT_stream_lost, .SHL_INT_overflow, .SHL_INT_no_stream]⟩
  | .SHL_INT_EN => ⟨0xE00008, [], false, .cold, .none, [.SHL_INT_EN_bits]⟩
  | .SHL_RECORDS => ⟨0xE00040, [], true, .cold, .none, [.SHL_RECORDS_count]⟩
  | .SHL_BYTES => ⟨0xE00048, [], true, .cold, .none, [.SHL_BYTES_count]⟩
  | .SHL_DISCARDED => ⟨0xE00050, [], true, .cold, .none, [.SHL_DISCARDED_count]⟩
  | .SHL_STR_CTL => ⟨0xE01000, [(256, 0x40)], false, .cold, .none, [.SHL_STR_CTL_en, .SHL_STR_CTL_ovf, .SHL_STR_CTL_region]⟩
  | .SHL_STR_WPOS => ⟨0xE01008, [(256, 0x40)], true, .cold, .none, [.SHL_STR_WPOS_pos]⟩
  | .SHL_STR_TPOS => ⟨0xE01010, [(256, 0x40)], true, .cold, .none, [.SHL_STR_TPOS_pos]⟩
  | .SHL_STR_LOST => ⟨0xE01018, [(256, 0x40)], true, .cold, .none, [.SHL_STR_LOST_count]⟩
  | .SHL_GRP_MAP => ⟨0xE10000, [(4096, 0x4)], false, .cold, .none, [.SHL_GRP_MAP_valid, .SHL_GRP_MAP_stream]⟩
  | .MICA_OE_CTL => ⟨0x20A0000, [(32, 0x100000)], false, .tile, .oe, [.MICA_OE_CTL_sweep, .MICA_OE_CTL_quench]⟩
  | .MICA_OE_STATUS => ⟨0x20A0004, [(32, 0x100000)], false, .tile, .oe, [.MICA_OE_STATUS_locked, .MICA_OE_STATUS_light]⟩
  | .MICA_OE_INT => ⟨0x20A0008, [(32, 0x100000)], false, .tile, .oe, [.MICA_OE_INT_lane_fault, .MICA_OE_INT_light_loss, .MICA_OE_INT_light_ok, .MICA_OE_INT_all_locked]⟩
  | .MICA_OE_INT_EN => ⟨0x20A000C, [(32, 0x100000)], false, .tile, .oe, [.MICA_OE_INT_EN_bits]⟩
  | .MICA_LANE_STATUS => ⟨0x20A0100, [(32, 0x100000), (64, 0x4)], false, .tile, .oe, [.MICA_LANE_STATUS_heater, .MICA_LANE_STATUS_lock_err, .MICA_LANE_STATUS_shut, .MICA_LANE_STATUS_state]⟩
  | .MICA_LANE_PWR => ⟨0x20A0200, [(32, 0x100000), (64, 0x4)], false, .tile, .oe, [.MICA_LANE_PWR_tx_pwr, .MICA_LANE_PWR_rx_pwr]⟩
  | .MICA_OE_FAULTS => ⟨0x20A0300, [(32, 0x100000)], true, .tile, .oe, [.MICA_OE_FAULTS_count]⟩
  | .FOI_CTL => ⟨0xF00000, [], false, .cold, .none, [.FOI_CTL_en, .FOI_CTL_block_rogue]⟩
  | .FOI_CFG => ⟨0xF00004, [], false, .cold, .none, [.FOI_CFG_act_dbm, .FOI_CFG_rogue_dbm, .FOI_CFG_ring_db, .FOI_CFG_out_db, .FOI_CFG_revoke_ms]⟩
  | .FOI_CMD => ⟨0xF00008, [], false, .cold, .none, [.FOI_CMD_op, .FOI_CMD_index]⟩
  | .FOI_CMD_DATA => ⟨0xF0000C, [], false, .cold, .none, [.FOI_CMD_DATA_eid]⟩
  | .FOI_CMD_STATUS => ⟨0xF00010, [], false, .cold, .none, [.FOI_CMD_STATUS_busy, .FOI_CMD_STATUS_loc, .FOI_CMD_STATUS_result]⟩
  | .FOI_STATUS => ⟨0xF00014, [], false, .cold, .none, [.FOI_STATUS_hold_s, .FOI_STATUS_active, .FOI_STATUS_loops]⟩
  | .FOI_INT => ⟨0xF00018, [], false, .cold, .none, [.FOI_INT_cmd_reject, .FOI_INT_hold_over, .FOI_INT_pub_err, .FOI_INT_loss, .FOI_INT_revoke_block, .FOI_INT_rogue, .FOI_INT_ring_fault]⟩
  | .FOI_INT_EN => ⟨0xF0001C, [], false, .cold, .none, [.FOI_INT_EN_bits]⟩
  | .FOI_PUB_CTL => ⟨0xF00020, [], false, .cold, .none, [.FOI_PUB_CTL_en, .FOI_PUB_CTL_min_us, .FOI_PUB_CTL_region]⟩
  | .FOI_PUB_OFF => ⟨0xF00024, [], false, .cold, .none, [.FOI_PUB_OFF_offset]⟩
  | .FOI_PUB_SEQ => ⟨0xF00028, [], false, .cold, .none, [.FOI_PUB_SEQ_seq]⟩
  | .FOI_ROGUE => ⟨0xF00040, [], true, .cold, .none, [.FOI_ROGUE_count]⟩
  | .FOI_LOSS => ⟨0xF00048, [], true, .cold, .none, [.FOI_LOSS_count]⟩
  | .FOI_BPI_PWR => ⟨0xF01000, [(64, 0x4)], false, .cold, .none, [.FOI_BPI_PWR_pwr]⟩
  | .FOI_BPO_PWR => ⟨0xF01100, [(64, 0x4)], false, .cold, .none, [.FOI_BPO_PWR_pwr]⟩
  | .MICA_CTRL_STATUS => ⟨0xF40000, [], false, .cold, .none, [.MICA_CTRL_STATUS_run]⟩
  | .MICA_ELS_INT => ⟨0xF40080, [], false, .cold, .none, [.MICA_ELS_INT_change]⟩
  | .MICA_ELS_INT_EN => ⟨0xF40084, [], false, .cold, .none, [.MICA_ELS_INT_EN_bits]⟩
  | .MICA_ELS_CTL => ⟨0xF40100, [(16, 0x8)], false, .cold, .none, [.MICA_ELS_CTL_en]⟩
  | .MICA_ELS_STATUS => ⟨0xF40104, [(16, 0x8)], false, .cold, .none, [.MICA_ELS_STATUS_on, .MICA_ELS_STATUS_fault, .MICA_ELS_STATUS_present]⟩
  | .MICA_ELS_PWR => ⟨0xF40200, [(16, 0x20), (8, 0x4)], false, .cold, .none, [.MICA_ELS_PWR_pwr]⟩
  | .QTZ_CTL => ⟨0x700000, [], false, .cold, .none, [.QTZ_CTL_step, .QTZ_CTL_step_arm, .QTZ_CTL_invalidate, .QTZ_CTL_pps_out_en, .QTZ_CTL_pps_width_ms]⟩
  | .QTZ_STATUS => ⟨0x700004, [], false, .cold, .none, [.QTZ_STATUS_step_pending, .QTZ_STATUS_valid]⟩
  | .QTZ_INT => ⟨0x700008, [], false, .cold, .none, [.QTZ_INT_wrap, .QTZ_INT_pps_in, .QTZ_INT_step_reject, .QTZ_INT_stepped]⟩
  | .QTZ_INT_EN => ⟨0x70000C, [], false, .cold, .none, [.QTZ_INT_EN_bits]⟩
  | .QTZ_RATE => ⟨0x700010, [], false, .cold, .none, [.QTZ_RATE_rate]⟩
  | .QTZ_RAW => ⟨0x700018, [], true, .cold, .none, [.QTZ_RAW_raw]⟩
  | .QTZ_SNAP => ⟨0x700040, [], false, .cold, .none, [.QTZ_SNAP_snap]⟩
  | .QTZ_SNAP_RAW => ⟨0x700048, [], true, .cold, .none, [.QTZ_SNAP_RAW_raw]⟩
  | .QTZ_SNAP_SEC => ⟨0x700050, [], true, .cold, .none, [.QTZ_SNAP_SEC_sec]⟩
  | .QTZ_SNAP_NSEC => ⟨0x700058, [], false, .cold, .none, [.QTZ_SNAP_NSEC_nsec]⟩
  | .QTZ_SNAP_FRAC => ⟨0x70005C, [], false, .cold, .none, [.QTZ_SNAP_FRAC_frac]⟩
  | .QTZ_SNAP_RATE => ⟨0x700070, [], false, .cold, .none, [.QTZ_SNAP_RATE_rate]⟩
  | .QTZ_PPS_IN_SEC => ⟨0x700080, [], true, .cold, .none, [.QTZ_PPS_IN_SEC_sec]⟩
  | .QTZ_PPS_IN_NSEC => ⟨0x700088, [], false, .cold, .none, [.QTZ_PPS_IN_NSEC_nsec]⟩
  | .QTZ_PPS_DLY => ⟨0x70008C, [], false, .cold, .none, [.QTZ_PPS_DLY_out_dly, .QTZ_PPS_DLY_in_dly]⟩
  | .QTZ_STEPS => ⟨0x700090, [], true, .cold, .none, [.QTZ_STEPS_count]⟩
  | .QTZ_TILE_SYNC => ⟨0x7000A0, [], false, .cold, .none, [.QTZ_TILE_SYNC_sync]⟩
  | .QTZ_STEP => ⟨0x700030, [(3, 0x4)], false, .cold, .none, [.QTZ_STEP_step]⟩
  | .QTZ_SNAP_OFF => ⟨0x700060, [(3, 0x4)], false, .cold, .none, [.QTZ_SNAP_OFF_offset]⟩
  | .QTZ_LNK_ASYM => ⟨0x20C0000, [(32, 0x100000), (32, 0x4)], false, .tile, .tile, [.QTZ_LNK_ASYM_known, .QTZ_LNK_ASYM_asym_ps]⟩
  | .QTZ_TXTS => ⟨0x20C0100, [(32, 0x100000), (4, 0x4)], false, .tile, .tile, [.QTZ_TXTS_record]⟩
  | .QTZ_TXTS_POP => ⟨0x20C0110, [(32, 0x100000)], false, .tile, .tile, [.QTZ_TXTS_POP_empty, .QTZ_TXTS_POP_pop]⟩
  | .QTZ_TXTS_LOST => ⟨0x20C0118, [(32, 0x100000)], true, .tile, .tile, [.QTZ_TXTS_LOST_count]⟩
  | .JSP_SNAP_CTL => ⟨0xA00100, [], false, .cold, .none, [.JSP_SNAP_CTL_go, .JSP_SNAP_CTL_at_time, .JSP_SNAP_CTL_groups]⟩
  | .JSP_SNAP_SEC => ⟨0xA00108, [], true, .cold, .none, [.JSP_SNAP_SEC_sec]⟩
  | .JSP_SNAP_NSEC => ⟨0xA00110, [], false, .cold, .none, [.JSP_SNAP_NSEC_nsec]⟩
  | .JSP_SNAP_STATUS => ⟨0xA00114, [], false, .cold, .none, [.JSP_SNAP_STATUS_busy, .JSP_SNAP_STATUS_seq]⟩
  | .JSP_UPERM => ⟨0xA00120, [], false, .cold, .none, [.JSP_UPERM_groups]⟩
  | .JSP_UREAD_DENIED => ⟨0xA00128, [], true, .cold, .none, [.JSP_UREAD_DENIED_count]⟩
  | .JSP_INT => ⟨0xA00130, [], false, .cold, .none, [.JSP_INT_mrg_alarm, .JSP_INT_mrg_warn, .JSP_INT_trc_lost, .JSP_INT_pcnt_ovf, .JSP_INT_sat]⟩
  | .JSP_INT_EN => ⟨0xA00134, [], false, .cold, .none, [.JSP_INT_EN_bits]⟩
  | .JSP_TRC_SEED => ⟨0xA00138, [], false, .cold, .none, [.JSP_TRC_SEED_seed]⟩
  | .JSP_PRUN => ⟨0xA00140, [], false, .cold, .none, [.JSP_PRUN_run]⟩
  | .JSP_MRG_RD => ⟨0xA20000, [(124, 0x8)], false, .cold, .none, [.JSP_MRG_RD_peak, .JSP_MRG_RD_value]⟩
  | .JSP_MRG_THR => ⟨0xA20004, [(124, 0x8)], false, .cold, .none, [.JSP_MRG_THR_alarm, .JSP_MRG_THR_warn]⟩
  | .JSP_MRG_TRIP0 => ⟨0xA20400, [], true, .cold, .none, [.JSP_MRG_TRIP0_trip]⟩
  | .JSP_MRG_TRIP1 => ⟨0xA20408, [], true, .cold, .none, [.JSP_MRG_TRIP1_trip]⟩
  | .JSP_PSEL => ⟨0xA10000, [(4, 0x1000), (64, 0x4)], false, .die, .die, [.JSP_PSEL_en, .JSP_PSEL_chain, .JSP_PSEL_src]⟩
  | .JSP_PCNT => ⟨0xA10100, [(4, 0x1000), (64, 0x4)], false, .die, .die, [.JSP_PCNT_count]⟩
  | .JSP_PCNT_OVF => ⟨0xA10200, [(4, 0x1000)], true, .die, .die, [.JSP_PCNT_OVF_ovf]⟩
  | .JSP_TRC_CTL => ⟨0x20E0000, [(32, 0x100000)], false, .tile, .tile, [.JSP_TRC_CTL_en, .JSP_TRC_CTL_rate_log2, .JSP_TRC_CTL_tc_mask, .JSP_TRC_CTL_ring]⟩
  | .JSP_TRC_LINK => ⟨0x20E0004, [(32, 0x100000)], false, .tile, .tile, [.JSP_TRC_LINK_match_en, .JSP_TRC_LINK_link]⟩
  | .JSP_TRC_LIMIT => ⟨0x20E0008, [(32, 0x100000)], false, .tile, .tile, [.JSP_TRC_LIMIT_limit]⟩
  | .JSP_TRC_TAGGED => ⟨0x20E0010, [(32, 0x100000)], true, .tile, .tile, [.JSP_TRC_TAGGED_count]⟩
  | .JSP_TRC_LOST => ⟨0x20E0018, [(32, 0x100000)], true, .tile, .tile, [.JSP_TRC_LOST_count]⟩
  | .IMG_CMD => ⟨0x500000, [], false, .cold, .none, [.IMG_CMD_op]⟩
  | .IMG_CMD_ARG0 => ⟨0x500004, [], false, .cold, .none, [.IMG_CMD_ARG0_arg]⟩
  | .IMG_CMD_ARG1 => ⟨0x500008, [], false, .cold, .none, [.IMG_CMD_ARG1_arg]⟩
  | .IMG_CMD_STATUS => ⟨0x50000C, [], false, .cold, .none, [.IMG_CMD_STATUS_busy, .IMG_CMD_STATUS_fail_pair, .IMG_CMD_STATUS_result]⟩
  | .IMG_BOOT => ⟨0x500010, [], false, .cold, .none, [.IMG_BOOT_phase, .IMG_BOOT_src, .IMG_BOOT_trial, .IMG_BOOT_trials, .IMG_BOOT_reverted, .IMG_BOOT_slot, .IMG_BOOT_conf_slot, .IMG_BOOT_mgmt_slot, .IMG_BOOT_mica_src, .IMG_BOOT_boot_pair, .IMG_BOOT_boot_err]⟩
  | .IMG_DL_STATUS => ⟨0x500014, [], false, .cold, .none, [.IMG_DL_STATUS_state, .IMG_DL_STATUS_target, .IMG_DL_STATUS_bytes]⟩
  | .IMG_ROLL_CFG => ⟨0x500018, [], false, .cold, .none, [.IMG_ROLL_CFG_wait_ms]⟩
  | .IMG_INT => ⟨0x50001C, [], false, .cold, .none, [.IMG_INT_reload_err, .IMG_INT_roll_link, .IMG_INT_fell_back, .IMG_INT_reverted, .IMG_INT_cmd_reject, .IMG_INT_cmd_done]⟩
  | .IMG_INT_EN => ⟨0x500020, [], false, .cold, .none, [.IMG_INT_EN_bits]⟩
  | .IMG_TILE_SRC => ⟨0x500050, [], false, .cold, .none, [.IMG_TILE_SRC_src]⟩
  | .IMG_RUN_VER => ⟨0x500030, [(3, 0x4)], false, .cold, .none, [.IMG_RUN_VER_version]⟩
  | .IMG_SI_RANGE => ⟨0x500040, [(3, 0x4)], false, .cold, .none, [.IMG_SI_RANGE_hi, .IMG_SI_RANGE_lo]⟩
  | .RSTC_CAUSE => ⟨0x400000, [], false, .cold, .none, [.RSTC_CAUSE_resets, .RSTC_CAUSE_level, .RSTC_CAUSE_src, .RSTC_CAUSE_die, .RSTC_CAUSE_tile]⟩
  | .RSTC_MAP => ⟨0x400004, [], false, .cold, .none, [.RSTC_MAP_levels]⟩
  | .RSTC_SWRST => ⟨0x400008, [], false, .cold, .none, [.RSTC_SWRST_key, .RSTC_SWRST_level, .RSTC_SWRST_die, .RSTC_SWRST_tile]⟩
  | .RSTC_WDT_CTL => ⟨0x40000C, [], false, .warm, .none, [.RSTC_WDT_CTL_en, .RSTC_WDT_CTL_timeout_ms]⟩
  | .RSTC_WDT_KICK => ⟨0x400010, [], false, .cold, .none, [.RSTC_WDT_KICK_kick]⟩
  | .RSTC_FAILS => ⟨0x400014, [], false, .cold, .none, [.RSTC_FAILS_locked, .RSTC_FAILS_clear, .RSTC_FAILS_count]⟩
  | .RSTC_INT => ⟨0x400018, [], false, .cold, .none, [.RSTC_INT_wdt_half, .RSTC_INT_clk_fail, .RSTC_INT_sw_reject, .RSTC_INT_iso]⟩
  | .RSTC_INT_EN => ⟨0x40001C, [], false, .cold, .none, [.RSTC_INT_EN_bits]⟩
  | .RSTC_ISO_ADDR => ⟨0x400020, [], false, .cold, .none, [.RSTC_ISO_ADDR_bar, .RSTC_ISO_ADDR_offset]⟩
  | .RSTC_ISO_CNT => ⟨0x400028, [], true, .cold, .none, [.RSTC_ISO_CNT_count]⟩
  | .RSTC_LOST_CELLS => ⟨0x400030, [], true, .cold, .none, [.RSTC_LOST_CELLS_count]⟩
  | .RSTC_CLK_STATUS => ⟨0x400038, [], false, .cold, .none, [.RSTC_CLK_STATUS_lane_pll, .RSTC_CLK_STATUS_hbm_pll, .RSTC_CLK_STATUS_core_pll, .RSTC_CLK_STATUS_mgmt_pll, .RSTC_CLK_STATUS_time_pll, .RSTC_CLK_STATUS_pcie_ref, .RSTC_CLK_STATUS_mref, .RSTC_CLK_STATUS_ref]⟩
  | .RSTC_DIE_RST => ⟨0x40003C, [], false, .cold, .none, [.RSTC_DIE_RST_die]⟩
  | .RSTC_TILE_RST => ⟨0x400040, [], false, .cold, .none, [.RSTC_TILE_RST_tile]⟩
  | .PWR_DOM_CTL => ⟨0x410000, [(164, 0x4)], false, .warm, .none, [.PWR_DOM_CTL_on]⟩
  | .PWR_DOM_STATUS => ⟨0x410400, [(164, 0x4)], false, .warm, .none, [.PWR_DOM_STATUS_state]⟩
  | .PWR_SLEEP => ⟨0x410800, [], false, .warm, .none, [.PWR_SLEEP_busy, .PWR_SLEEP_state, .PWR_SLEEP_target]⟩
  | .PWR_INT => ⟨0x410804, [], false, .warm, .none, [.PWR_INT_sleep_done, .PWR_INT_sleep_reject, .PWR_INT_dep_reject]⟩
  | .PWR_INT_EN => ⟨0x410808, [], false, .warm, .none, [.PWR_INT_EN_bits]⟩
  | .OBS_LC => ⟨0x300000, [], false, .cold, .none, [.OBS_LC_dbg_open, .OBS_LC_scan, .OBS_LC_state]⟩
  | .OBS_CMD => ⟨0x300004, [], false, .cold, .none, [.OBS_CMD_op, .OBS_CMD_index]⟩
  | .OBS_CMD_STATUS => ⟨0x300008, [], false, .cold, .none, [.OBS_CMD_STATUS_busy, .OBS_CMD_STATUS_result]⟩
  | .OBS_KEY_STATUS => ⟨0x30000C, [], false, .cold, .none, [.OBS_KEY_STATUS_revoked, .OBS_KEY_STATUS_programmed]⟩
  | .OBS_REPAIR => ⟨0x300020, [], false, .cold, .none, [.OBS_REPAIR_fused, .OBS_REPAIR_pending, .OBS_REPAIR_hbm_retired]⟩
  | .OBS_INT => ⟨0x300024, [], false, .cold, .none, [.OBS_INT_bist_fail, .OBS_INT_fuse_err, .OBS_INT_cmd_reject, .OBS_INT_cmd_done]⟩
  | .OBS_INT_EN => ⟨0x300028, [], false, .cold, .none, [.OBS_INT_EN_bits]⟩
  | .OBS_DEV_ID => ⟨0x300030, [], true, .cold, .none, [.OBS_DEV_ID_id]⟩
  | .OBS_SVN_MIN => ⟨0x300010, [(3, 0x4)], false, .cold, .none, [.OBS_SVN_MIN_min]⟩
  | .OBS_CMD_DATA => ⟨0x300100, [(64, 0x4)], false, .cold, .none, [.OBS_CMD_DATA_data]⟩
  | .OBS_MEAS => ⟨0x300200, [(3, 0x40), (12, 0x4)], false, .cold, .none, [.OBS_MEAS_hash]⟩
  | .OBS_NONCE => ⟨0x300300, [(12, 0x4)], false, .cold, .none, [.OBS_NONCE_nonce]⟩
  | .MGT_ERR_CFG => ⟨0x10000, [], false, .cold, .none, [.MGT_ERR_CFG_en, .MGT_ERR_CFG_fatal_act, .MGT_ERR_CFG_uc_act, .MGT_ERR_CFG_ring]⟩
  | .MGT_ERR_LOST => ⟨0x10028, [], true, .cold, .none, [.MGT_ERR_LOST_count]⟩
  | .MGT_ERR_INT => ⟨0x10030, [], false, .cold, .none, [.MGT_ERR_INT_fatal, .MGT_ERR_INT_uc_uncont, .MGT_ERR_INT_uc_cont, .MGT_ERR_INT_ce]⟩
  | .MGT_ERR_INT_EN => ⟨0x10034, [], false, .cold, .none, [.MGT_ERR_INT_EN_bits]⟩
  | .MGT_ERR_HEAD => ⟨0x10038, [], false, .cold, .none, [.MGT_ERR_HEAD_next]⟩
  | .MGT_ERR_CNT => ⟨0x10008, [(4, 0x8)], true, .cold, .none, [.MGT_ERR_CNT_count]⟩
  | .MGT_ERR_LOG => ⟨0x11000, [(64, 0x20), (8, 0x4)], false, .cold, .none, [.MGT_ERR_LOG_record]⟩
  | .GNS_SCRUB_CTL => ⟨0xD00200, [], false, .cold, .none, [.GNS_SCRUB_CTL_en, .GNS_SCRUB_CTL_period_h]⟩
  | .GNS_HBM_CE => ⟨0xD00208, [], true, .cold, .none, [.GNS_HBM_CE_count]⟩
  | .GNS_POISONED => ⟨0xD00210, [], true, .cold, .none, [.GNS_POISONED_count]⟩
  | .DMA_RING_BASE => ⟨0x1000000, [(1024, 0x40)], true, .warm, .none, [.DMA_RING_BASE_base]⟩
  | .DMA_RING_CFG => ⟨0x1000008, [(1024, 0x40)], false, .warm, .none, [.DMA_RING_CFG_en, .DMA_RING_CFG_side, .DMA_RING_CFG_func, .DMA_RING_CFG_size_log2, .DMA_RING_CFG_irq_en, .DMA_RING_CFG_vector, .DMA_RING_CFG_cpl_ring]⟩
  | .DMA_RING_WB => ⟨0x1000010, [(1024, 0x40)], true, .warm, .none, [.DMA_RING_WB_addr]⟩
  | .DMA_RING_MOD => ⟨0x1000018, [(1024, 0x40)], false, .warm, .none, [.DMA_RING_MOD_count, .DMA_RING_MOD_delay_us]⟩
  | .DMA_RING_HEAD => ⟨0x100001C, [(1024, 0x40)], false, .warm, .none, [.DMA_RING_HEAD_head]⟩
  | .DMA_RING_TAIL => ⟨0x1000020, [(1024, 0x40)], false, .warm, .none, [.DMA_RING_TAIL_tail]⟩
  | .DMA_RING_STATUS => ⟨0x1000024, [(1024, 0x40)], false, .warm, .none, [.DMA_RING_STATUS_bm_stop, .DMA_RING_STATUS_tail_err, .DMA_RING_STATUS_fault]⟩
  | .DMA_RING_CTL => ⟨0x1000028, [(1024, 0x40)], false, .warm, .none, [.DMA_RING_CTL_reset]⟩
  | .DMA_RING_NOBUF => ⟨0x1000030, [(1024, 0x40)], true, .warm, .none, [.DMA_RING_NOBUF_count]⟩
  | .DMA_RING_TRUNC => ⟨0x1000038, [(1024, 0x40)], true, .warm, .none, [.DMA_RING_TRUNC_count]⟩
  | .DMA_INT => ⟨0x1010000, [], false, .warm, .none, [.DMA_INT_cfg_reject, .DMA_INT_cpl_full, .DMA_INT_misroute, .DMA_INT_trunc, .DMA_INT_tail_err, .DMA_INT_fault]⟩
  | .DMA_INT_EN => ⟨0x1010004, [], false, .warm, .none, [.DMA_INT_EN_bits]⟩
  | .DMA_PTP_MAP => ⟨0x1010040, [], false, .warm, .none, [.DMA_PTP_MAP_en, .DMA_PTP_MAP_ring]⟩
  | .DMA_RX_DROP => ⟨0x1010080, [], true, .warm, .none, [.DMA_RX_DROP_count]⟩
  | .DMA_CPL_DISCARD => ⟨0x1010088, [], true, .warm, .none, [.DMA_CPL_DISCARD_count]⟩
  | .DMA_RX_MAP => ⟨0x1010020, [(8, 0x4)], false, .warm, .none, [.DMA_RX_MAP_en, .DMA_RX_MAP_count, .DMA_RX_MAP_ring]⟩
  | .DMA_CQ_BASE => ⟨0x1100000, [(4096, 0x20)], true, .warm, .none, [.DMA_CQ_BASE_base]⟩
  | .DMA_CQ_CFG => ⟨0x1100008, [(4096, 0x20)], false, .warm, .none, [.DMA_CQ_CFG_en, .DMA_CQ_CFG_side, .DMA_CQ_CFG_size_log2]⟩
  | .DMA_CQ_HEAD => ⟨0x110000C, [(4096, 0x20)], false, .warm, .none, [.DMA_CQ_HEAD_head]⟩
  | .DMA_CQ_CTL => ⟨0x1100010, [(4096, 0x20)], false, .warm, .none, [.DMA_CQ_CTL_reset]⟩
  | .DMA_CQ_STATUS => ⟨0x1100014, [(4096, 0x20)], false, .warm, .none, [.DMA_CQ_STATUS_tail_err, .DMA_CQ_STATUS_fault]⟩
  | .MGT_MBX_H2D => ⟨0x20000, [(1024, 0x4)], false, .warm, .none, [.MGT_MBX_H2D_word]⟩
  | .MGT_MBX_D2H => ⟨0x21000, [(1024, 0x4)], false, .warm, .none, [.MGT_MBX_D2H_word]⟩
  | .MGT_MBX_H2D_TAKEN => ⟨0x22000, [], false, .warm, .none, [.MGT_MBX_H2D_TAKEN_seq]⟩
  | .MGT_MBX_H2D_DONE => ⟨0x22004, [], false, .warm, .none, [.MGT_MBX_H2D_DONE_seq]⟩
  | .MGT_MBX_D2H_SENT => ⟨0x22008, [], false, .warm, .none, [.MGT_MBX_D2H_SENT_seq]⟩
  | .MGT_MBX_D2H_ACK => ⟨0x2200C, [], false, .warm, .none, [.MGT_MBX_D2H_ACK_seq]⟩
  | .MGT_MBX_STATUS => ⟨0x22010, [], false, .warm, .none, [.MGT_MBX_STATUS_epoch, .MGT_MBX_STATUS_fw_ready]⟩
  | .MGT_MBX_INT => ⟨0x22014, [], false, .warm, .none, [.MGT_MBX_INT_restarted, .MGT_MBX_INT_bad_seq, .MGT_MBX_INT_d2h]⟩
  | .MGT_MBX_INT_EN => ⟨0x22018, [], false, .warm, .none, [.MGT_MBX_INT_EN_bits]⟩
  | .MGT_IRQ_ROUTE => ⟨0x30000, [(153, 0x4)], false, .warm, .none, [.MGT_IRQ_ROUTE_host_en, .MGT_IRQ_ROUTE_mgmt_en, .MGT_IRQ_ROUTE_vector]⟩
  | .MGT_IRQ_PEND => ⟨0x30400, [(5, 0x4)], false, .warm, .none, [.MGT_IRQ_PEND_pend]⟩
  | .MGT_IRQ_ARM => ⟨0x30420, [], false, .warm, .none, [.MGT_IRQ_ARM_vector]⟩
  | .MGT_IRQ_ARMED => ⟨0x30428, [], true, .warm, .none, [.MGT_IRQ_ARMED_armed]⟩
  | .MSIX_PBA => ⟨0x4031000, [], true, .warm, .none, [.MSIX_PBA_pend]⟩
  | .MGT_IRQ_RPEND => ⟨0x30500, [(32, 0x4)], false, .warm, .none, [.MGT_IRQ_RPEND_pend]⟩
  | .MGT_UART_CFG => ⟨0x40000, [], false, .warm, .none, [.MGT_UART_CFG_baud]⟩
  | .GPIO_FUNC => ⟨0x1200000, [(16, 0x4)], false, .warm, .none, [.GPIO_FUNC_func]⟩
  | .GPIO_OUT => ⟨0x1200040, [], false, .warm, .none, [.GPIO_OUT_out]⟩
  | .GPIO_OE => ⟨0x1200044, [], false, .warm, .none, [.GPIO_OE_oe]⟩
  | .GPIO_IN => ⟨0x1200048, [], false, .warm, .none, [.GPIO_IN_in]⟩
  | .GPIO_INT => ⟨0x120004C, [], false, .warm, .none, [.GPIO_INT_edge]⟩
  | .GPIO_INT_EN => ⟨0x1200050, [], false, .warm, .none, [.GPIO_INT_EN_bits]⟩
  | .GPIO_EDGE => ⟨0x1200054, [], false, .warm, .none, [.GPIO_EDGE_sel]⟩
  | .GPIO_STATUS => ⟨0x1200058, [], false, .warm, .none, [.GPIO_STATUS_switching]⟩
  | .I2C_CTL => ⟨0x1210000, [(2, 0x100)], false, .warm, .none, [.I2C_CTL_en, .I2C_CTL_reset, .I2C_CTL_clear, .I2C_CTL_speed]⟩
  | .I2C_CMD => ⟨0x1210004, [(2, 0x100)], false, .warm, .none, [.I2C_CMD_start, .I2C_CMD_addr, .I2C_CMD_rd_count, .I2C_CMD_wr_count]⟩
  | .I2C_DATA => ⟨0x1210008, [(2, 0x100)], false, .warm, .none, [.I2C_DATA_byte]⟩
  | .I2C_STATUS => ⟨0x121000C, [(2, 0x100)], false, .warm, .none, [.I2C_STATUS_busy, .I2C_STATUS_scl_stuck, .I2C_STATUS_sda_stuck, .I2C_STATUS_arb_lost, .I2C_STATUS_nack, .I2C_STATUS_done]⟩
  | .I2C_INT => ⟨0x1210010, [(2, 0x100)], false, .warm, .none, [.I2C_INT_reject, .I2C_INT_stuck, .I2C_INT_done]⟩
  | .I2C_INT_EN => ⟨0x1210014, [(2, 0x100)], false, .warm, .none, [.I2C_INT_EN_bits]⟩
  | .I2C_TGT_CFG => ⟨0x1210200, [], false, .warm, .none, [.I2C_TGT_CFG_alert_en, .I2C_TGT_CFG_pec_en, .I2C_TGT_CFG_addr]⟩

/-- The register a field belongs to. -/
def Fld.reg : Fld → Reg
  | .MGT_DEVICE_ID_part_num => .MGT_DEVICE_ID
  | .MGT_DEVICE_ID_family => .MGT_DEVICE_ID
  | .MGT_DEVICE_ID_step_major => .MGT_DEVICE_ID
  | .MGT_DEVICE_ID_step_minor => .MGT_DEVICE_ID
  | .TIL_PORT_MODE_bo_reject => .TIL_PORT_MODE
  | .TIL_PORT_MODE_loopback => .TIL_PORT_MODE
  | .TIL_PORT_MODE_breakout => .TIL_PORT_MODE
  | .TIL_LNK_CTL_ka_accept => .TIL_LNK_CTL
  | .TIL_LNK_CTL_ka_req => .TIL_LNK_CTL
  | .TIL_LNK_CTL_retrain => .TIL_LNK_CTL
  | .TIL_LNK_CTL_link_mode => .TIL_LNK_CTL
  | .TIL_LNK_CTL_lnk_en => .TIL_LNK_CTL
  | .TIL_LNK_STATUS_state => .TIL_LNK_STATUS
  | .TIL_LNK_STATUS_ka_cap => .TIL_LNK_STATUS
  | .TIL_LNK_STATUS_retry_on => .TIL_LNK_STATUS
  | .TIL_LNK_STATUS_staketu => .TIL_LNK_STATUS
  | .TIL_LNK_STATUS_signal => .TIL_LNK_STATUS
  | .TIL_LNK_STATUS_up => .TIL_LNK_STATUS
  | .TIL_LNK_INT_credit_mismatch => .TIL_LNK_INT
  | .TIL_LNK_INT_ka_change => .TIL_LNK_INT
  | .TIL_LNK_INT_retrain => .TIL_LNK_INT
  | .TIL_LNK_INT_frame_lost => .TIL_LNK_INT
  | .TIL_LNK_INT_burst => .TIL_LNK_INT
  | .TIL_LNK_INT_down => .TIL_LNK_INT
  | .TIL_LNK_INT_up => .TIL_LNK_INT
  | .TIL_LNK_INT_EN_bits => .TIL_LNK_INT_EN
  | .TIL_LNK_BURST_CFG_retrain_count => .TIL_LNK_BURST_CFG
  | .TIL_LNK_BURST_CFG_retrain_window => .TIL_LNK_BURST_CFG
  | .TIL_LNK_BURST_CFG_burst_gap => .TIL_LNK_BURST_CFG
  | .TIL_LNK_PFC_CFG_pfc_rx_en => .TIL_LNK_PFC_CFG
  | .TIL_LNK_PFC_CFG_pfc_tx_en => .TIL_LNK_PFC_CFG
  | .TIL_LNK_RTT_rtt_ns => .TIL_LNK_RTT
  | .TIL_LNK_GRANT_TC_partner_grant => .TIL_LNK_GRANT_TC
  | .TIL_LNK_GRANT_TC_local_grant => .TIL_LNK_GRANT_TC
  | .TIL_LNK_FEC_CORR_count => .TIL_LNK_FEC_CORR
  | .TIL_LNK_FEC_UNCORR_count => .TIL_LNK_FEC_UNCORR
  | .TIL_LNK_FEC_SYMERR_count => .TIL_LNK_FEC_SYMERR
  | .TIL_LNK_RETRY_count => .TIL_LNK_RETRY
  | .TIL_LNK_LOST_count => .TIL_LNK_LOST
  | .TIL_LNK_BURSTS_count => .TIL_LNK_BURSTS
  | .TIL_LNK_RETRAINS_count => .TIL_LNK_RETRAINS
  | .TIL_LNK_RESYNCS_count => .TIL_LNK_RESYNCS
  | .TIL_LNK_FLUSH_count => .TIL_LNK_FLUSH
  | .TIL_FWD_CFG_xeirrik_etype => .TIL_FWD_CFG
  | .TIL_FWD_CFG_ce_level => .TIL_FWD_CFG
  | .TIL_FWD_CFG_learn_en => .TIL_FWD_CFG
  | .TIL_FWD_CFG_route_en => .TIL_FWD_CFG
  | .TIL_FWD_CFG_fwd_en => .TIL_FWD_CFG
  | .TIL_FWD_RMAC_rmac => .TIL_FWD_RMAC
  | .TIL_FWD_DROP_count => .TIL_FWD_DROP
  | .DMA_TBL_LOCK_locked => .DMA_TBL_LOCK
  | .DMA_TBL_LOCK_holder => .DMA_TBL_LOCK
  | .DMA_TBL_AGE_age_s => .DMA_TBL_AGE
  | .DMA_TBL_LRN_MISS_count => .DMA_TBL_LRN_MISS
  | .DMA_TBL_MOVES_count => .DMA_TBL_MOVES
  | .JSP_CMAP_CTL_en => .JSP_CMAP_CTL
  | .JSP_CMAP_CTL_host_copy => .JSP_CMAP_CTL
  | .JSP_CMAP_CTL_interval => .JSP_CMAP_CTL
  | .JSP_CMAP_CTL_group => .JSP_CMAP_CTL
  | .JSP_CMAP_SRC_eid => .JSP_CMAP_SRC
  | .TIL_CT_CFG_ct_en => .TIL_CT_CFG
  | .TIL_STG_CTL_out_verify => .TIL_STG_CTL
  | .TIL_STG_STATUS_grant_over => .TIL_STG_STATUS
  | .TIL_STG_STATUS_used => .TIL_STG_STATUS
  | .TIL_CHK_FAIL_IN_count => .TIL_CHK_FAIL_IN
  | .TIL_CHK_FAIL_OUT_count => .TIL_CHK_FAIL_OUT
  | .TIL_CHK_STOMP_RX_count => .TIL_CHK_STOMP_RX
  | .BSL_ADM_CFG_stall_us => .BSL_ADM_CFG
  | .BSL_ADM_CFG_lossless => .BSL_ADM_CFG
  | .BSL_FREE_count => .BSL_FREE
  | .BSL_QUEUED_count => .BSL_QUEUED
  | .BSL_RESERVED_count => .BSL_RESERVED
  | .BSL_RETIRED_count => .BSL_RETIRED
  | .BSL_CNT_SNAP_snap => .BSL_CNT_SNAP
  | .BSL_REPAIRED_count => .BSL_REPAIRED
  | .BSL_AUDIT_CTL_en => .BSL_AUDIT_CTL
  | .BSL_AUDIT_CTL_period_ms => .BSL_AUDIT_CTL
  | .BSL_AUDIT_STATUS_suspect => .BSL_AUDIT_STATUS
  | .BSL_INT_double => .BSL_INT
  | .BSL_INT_leak => .BSL_INT
  | .BSL_INT_stall => .BSL_INT
  | .BSL_INT_cfg_reject => .BSL_INT
  | .BSL_INT_EN_bits => .BSL_INT_EN
  | .BSL_DROP_NOCELL_count => .BSL_DROP_NOCELL
  | .BSL_DROP_LINKDOWN_count => .BSL_DROP_LINKDOWN
  | .BSL_DROP_PAIRDOWN_count => .BSL_DROP_PAIRDOWN
  | .BSL_ADM_STALL_count => .BSL_ADM_STALL
  | .BSL_AUDIT_RECLAIM_count => .BSL_AUDIT_RECLAIM
  | .BSL_AUDIT_DOUBLE_count => .BSL_AUDIT_DOUBLE
  | .BSL_POOL_TC_alpha => .BSL_POOL_TC
  | .BSL_POOL_TC_min_cells => .BSL_POOL_TC
  | .D2D_LNK_CTL_auto_retrain => .D2D_LNK_CTL
  | .D2D_LNK_CTL_retrain => .D2D_LNK_CTL
  | .D2D_LNK_CTL_en => .D2D_LNK_CTL
  | .D2D_LNK_STATUS_mgmt => .D2D_LNK_STATUS
  | .D2D_LNK_STATUS_state => .D2D_LNK_STATUS
  | .D2D_LNK_CRCERR_count => .D2D_LNK_CRCERR
  | .D2D_LNK_REPLAY_count => .D2D_LNK_REPLAY
  | .D2D_LNK_FAILS_count => .D2D_LNK_FAILS
  | .D2D_PAIR_CFG_min_links => .D2D_PAIR_CFG
  | .D2D_PAIR_STATUS_live_ji => .D2D_PAIR_STATUS
  | .D2D_PAIR_STATUS_live_ij => .D2D_PAIR_STATUS
  | .D2D_PAIR_INT_down => .D2D_PAIR_INT
  | .D2D_PAIR_INT_degraded => .D2D_PAIR_INT
  | .D2D_PAIR_INT_link_fail => .D2D_PAIR_INT
  | .D2D_PAIR_INT_EN_bits => .D2D_PAIR_INT_EN
  | .FLD_SUB_CFG_rate => .FLD_SUB_CFG
  | .FLD_SUB_CFG_burst => .FLD_SUB_CFG
  | .FLD_SUB_CFG_weight => .FLD_SUB_CFG
  | .FLD_SUB_DEPTH_cells => .FLD_SUB_DEPTH
  | .FLD_PORT_SPLIT_nodes => .FLD_PORT_SPLIT
  | .FLD_SRC_NODE_gneiss_node => .FLD_SRC_NODE
  | .FLD_SRC_NODE_host_node => .FLD_SRC_NODE
  | .FLD_SRC_NODE_jasper_node => .FLD_SRC_NODE
  | .FLD_INT_tc7_over => .FLD_INT
  | .FLD_INT_gate_err => .FLD_INT
  | .FLD_INT_cfg_reject => .FLD_INT
  | .FLD_INT_EN_bits => .FLD_INT_EN
  | .FLD_TC7_OVER_count => .FLD_TC7_OVER
  | .FLD_GATE_DROP_count => .FLD_GATE_DROP
  | .FLD_DROP_DETACHED_count => .FLD_DROP_DETACHED
  | .FLD_LNK_CTL_preempt => .FLD_LNK_CTL
  | .FLD_TC7_MON_rate => .FLD_TC7_MON
  | .FLD_TC7_MON_burst => .FLD_TC7_MON
  | .FLD_GATE_CTL_gate_en => .FLD_GATE_CTL
  | .FLD_GATE_CTL_len1 => .FLD_GATE_CTL
  | .FLD_GATE_CTL_len0 => .FLD_GATE_CTL
  | .FLD_GATE_CTL_commit => .FLD_GATE_CTL
  | .FLD_GATE_STATUS_time_wait => .FLD_GATE_STATUS
  | .FLD_GATE_STATUS_pending => .FLD_GATE_STATUS
  | .FLD_GATE_STATUS_active => .FLD_GATE_STATUS
  | .FLD_GATE_STATUS_entry => .FLD_GATE_STATUS
  | .FLD_GATE_BASE_S_sec => .FLD_GATE_BASE_S
  | .FLD_GATE_BASE_NS_nsec => .FLD_GATE_BASE_NS
  | .FLD_GATE_CYCLE_NS_cycle => .FLD_GATE_CYCLE_NS
  | .FLD_CLS_CFG_strict => .FLD_CLS_CFG
  | .FLD_CLS_CFG_cbs_en => .FLD_CLS_CFG
  | .FLD_CLS_CFG_weight => .FLD_CLS_CFG
  | .FLD_CBS_CFG_idle_slope => .FLD_CBS_CFG
  | .FLD_CBS_CFG_hi_limit => .FLD_CBS_CFG
  | .FLD_GATE_ENT_gates => .FLD_GATE_ENT
  | .FLD_GATE_ENT_interval => .FLD_GATE_ENT
  | .GRN_FMT_CTL_mx_sat => .GRN_FMT_CTL
  | .GRN_FMT_CTL_e4m3_sat => .GRN_FMT_CTL
  | .GRN_FMT_CTL_op_en => .GRN_FMT_CTL
  | .GRN_FMT_CTL_fmt_en => .GRN_FMT_CTL
  | .GRN_AUDIT_CFG_audit_log2 => .GRN_AUDIT_CFG
  | .GRN_IST_CTL_en => .GRN_IST_CTL
  | .GRN_IST_CTL_period_ms => .GRN_IST_CTL
  | .GRN_IST_STATUS_busy => .GRN_IST_STATUS
  | .GRN_IST_STATUS_engine => .GRN_IST_STATUS
  | .GRN_IST_STARVED_starved => .GRN_IST_STARVED
  | .GRN_IST_FAIL_fail => .GRN_IST_FAIL
  | .GRN_IST_PASSES_count => .GRN_IST_PASSES
  | .GRN_CTL_release => .GRN_CTL
  | .GRN_CTL_quarantine => .GRN_CTL
  | .GRN_STATUS_chunks => .GRN_STATUS
  | .GRN_STATUS_subst => .GRN_STATUS
  | .GRN_STATUS_state => .GRN_STATUS
  | .GRN_SPILL_CFG_wait_us => .GRN_SPILL_CFG
  | .GRN_SPILL_CFG_quota => .GRN_SPILL_CFG
  | .GRN_SPILL_USED_cells => .GRN_SPILL_USED
  | .GRN_SCR_USED_lines => .GRN_SCR_USED
  | .GRN_INT_audit_mismatch => .GRN_INT
  | .GRN_INT_quarantined => .GRN_INT
  | .GRN_INT_residue => .GRN_INT
  | .GRN_INT_scr_uncorr => .GRN_INT
  | .GRN_INT_scr_corr => .GRN_INT
  | .GRN_INT_no_scratch => .GRN_INT
  | .GRN_INT_conflict => .GRN_INT
  | .GRN_INT_EN_bits => .GRN_INT_EN
  | .GRN_RELEASED_count => .GRN_RELEASED
  | .GRN_FAILED_count => .GRN_FAILED
  | .GRN_ELEMS_count => .GRN_ELEMS
  | .GRN_DUP_count => .GRN_DUP
  | .GRN_LATE_count => .GRN_LATE
  | .GRN_RESIDUE_ERR_count => .GRN_RESIDUE_ERR
  | .GRN_MOVED_count => .GRN_MOVED
  | .GRN_AUDITED_count => .GRN_AUDITED
  | .GRN_ESCAPES_count => .GRN_ESCAPES
  | .GRN_SCR_CORR_count => .GRN_SCR_CORR
  | .GRN_SPILL_WAITS_count => .GRN_SPILL_WAITS
  | .COL_CTL_en => .COL_CTL
  | .COL_CTL_fence_ms => .COL_CTL
  | .COL_CTL_def_timeout => .COL_CTL
  | .COL_STATUS_open => .COL_STATUS
  | .COL_INT_fence_timeout => .COL_INT
  | .COL_INT_desc_err => .COL_INT
  | .COL_INT_ctx_fail => .COL_INT
  | .COL_INT_EN_bits => .COL_INT_EN
  | .COL_COMPLETED_count => .COL_COMPLETED
  | .COL_FAILED_count => .COL_FAILED
  | .COL_TOKEN_value => .COL_TOKEN
  | .COL_DISCARD_count => .COL_DISCARD
  | .GNS_CTL_en => .GNS_CTL
  | .GNS_CTL_sweep_pct => .GNS_CTL
  | .GNS_CTL_resp_hops => .GNS_CTL
  | .GNS_CMD_op => .GNS_CMD
  | .GNS_CMD_index => .GNS_CMD
  | .GNS_CMD_STATUS_busy => .GNS_CMD_STATUS
  | .GNS_CMD_STATUS_result => .GNS_CMD_STATUS
  | .GNS_INT_gw_fail => .GNS_INT
  | .GNS_INT_mem_err => .GNS_INT
  | .GNS_INT_sweep_done => .GNS_INT
  | .GNS_INT_cmd_reject => .GNS_INT
  | .GNS_INT_EN_bits => .GNS_INT_EN
  | .GNS_REQ_OK_count => .GNS_REQ_OK
  | .GNS_REQ_ERR_count => .GNS_REQ_ERR
  | .GNS_NW_READS_count => .GNS_NW_READS
  | .GNS_STRAY_count => .GNS_STRAY
  | .GNS_GW_DISCARD_count => .GNS_GW_DISCARD
  | .GNS_CMD_DATA_data => .GNS_CMD_DATA
  | .GNS_CQ_STATUS_peak => .GNS_CQ_STATUS
  | .GNS_CQ_STATUS_used => .GNS_CQ_STATUS
  | .GNS_CQ_WAITS_count => .GNS_CQ_WAITS
  | .GNS_COMBINED_count => .GNS_COMBINED
  | .GNS_STALE_count => .GNS_STALE
  | .GNS_PART_abs_gib => .GNS_PART
  | .GNS_PART_mem_gib => .GNS_PART
  | .GNS_PART_STATUS_reject => .GNS_PART_STATUS
  | .GNS_PART_STATUS_jrn_gib => .GNS_PART_STATUS
  | .GNS_BW_CFG_w_fab => .GNS_BW_CFG
  | .GNS_BW_CFG_w_rd => .GNS_BW_CFG
  | .GNS_BW_CFG_w_jrn => .GNS_BW_CFG
  | .GNS_CKP_CFG_mirror_gbps => .GNS_CKP_CFG
  | .GNS_CKP_CFG_retries => .GNS_CKP_CFG
  | .GNS_CKP_CFG_resp_us => .GNS_CKP_CFG
  | .GNS_CKP_FILL_fill_ms => .GNS_CKP_FILL
  | .GNS_CKP_STATUS_open => .GNS_CKP_STATUS
  | .GNS_CKP_INT_notify_err => .GNS_CKP_INT
  | .GNS_CKP_INT_drain_fail => .GNS_CKP_INT
  | .GNS_CKP_INT_mirror_fail => .GNS_CKP_INT
  | .GNS_CKP_INT_shard_fail => .GNS_CKP_INT
  | .GNS_CKP_INT_EN_bits => .GNS_CKP_INT_EN
  | .GNS_CKP_ABSORBED_count => .GNS_CKP_ABSORBED
  | .GNS_CKP_MIRRORED_count => .GNS_CKP_MIRRORED
  | .GNS_CKP_DURABLE_count => .GNS_CKP_DURABLE
  | .GNS_CKP_FAILED_count => .GNS_CKP_FAILED
  | .GNS_CKP_LATE_WR_count => .GNS_CKP_LATE_WR
  | .GNS_CKP_RESTORE_FR_count => .GNS_CKP_RESTORE_FR
  | .GNS_CKP_NOTIFY_ERR_count => .GNS_CKP_NOTIFY_ERR
  | .SHL_CTL_en => .SHL_CTL
  | .SHL_INT_cfg_reject => .SHL_INT
  | .SHL_INT_stream_lost => .SHL_INT
  | .SHL_INT_overflow => .SHL_INT
  | .SHL_INT_no_stream => .SHL_INT
  | .SHL_INT_EN_bits => .SHL_INT_EN
  | .SHL_RECORDS_count => .SHL_RECORDS
  | .SHL_BYTES_count => .SHL_BYTES
  | .SHL_DISCARDED_count => .SHL_DISCARDED
  | .SHL_STR_CTL_en => .SHL_STR_CTL
  | .SHL_STR_CTL_ovf => .SHL_STR_CTL
  | .SHL_STR_CTL_region => .SHL_STR_CTL
  | .SHL_STR_WPOS_pos => .SHL_STR_WPOS
  | .SHL_STR_TPOS_pos => .SHL_STR_TPOS
  | .SHL_STR_LOST_count => .SHL_STR_LOST
  | .SHL_GRP_MAP_valid => .SHL_GRP_MAP
  | .SHL_GRP_MAP_stream => .SHL_GRP_MAP
  | .MICA_OE_CTL_sweep => .MICA_OE_CTL
  | .MICA_OE_CTL_quench => .MICA_OE_CTL
  | .MICA_OE_STATUS_locked => .MICA_OE_STATUS
  | .MICA_OE_STATUS_light => .MICA_OE_STATUS
  | .MICA_OE_INT_lane_fault => .MICA_OE_INT
  | .MICA_OE_INT_light_loss => .MICA_OE_INT
  | .MICA_OE_INT_light_ok => .MICA_OE_INT
  | .MICA_OE_INT_all_locked => .MICA_OE_INT
  | .MICA_OE_INT_EN_bits => .MICA_OE_INT_EN
  | .MICA_LANE_STATUS_heater => .MICA_LANE_STATUS
  | .MICA_LANE_STATUS_lock_err => .MICA_LANE_STATUS
  | .MICA_LANE_STATUS_shut => .MICA_LANE_STATUS
  | .MICA_LANE_STATUS_state => .MICA_LANE_STATUS
  | .MICA_LANE_PWR_tx_pwr => .MICA_LANE_PWR
  | .MICA_LANE_PWR_rx_pwr => .MICA_LANE_PWR
  | .MICA_OE_FAULTS_count => .MICA_OE_FAULTS
  | .FOI_CTL_en => .FOI_CTL
  | .FOI_CTL_block_rogue => .FOI_CTL
  | .FOI_CFG_act_dbm => .FOI_CFG
  | .FOI_CFG_rogue_dbm => .FOI_CFG
  | .FOI_CFG_ring_db => .FOI_CFG
  | .FOI_CFG_out_db => .FOI_CFG
  | .FOI_CFG_revoke_ms => .FOI_CFG
  | .FOI_CMD_op => .FOI_CMD
  | .FOI_CMD_index => .FOI_CMD
  | .FOI_CMD_DATA_eid => .FOI_CMD_DATA
  | .FOI_CMD_STATUS_busy => .FOI_CMD_STATUS
  | .FOI_CMD_STATUS_loc => .FOI_CMD_STATUS
  | .FOI_CMD_STATUS_result => .FOI_CMD_STATUS
  | .FOI_STATUS_hold_s => .FOI_STATUS
  | .FOI_STATUS_active => .FOI_STATUS
  | .FOI_STATUS_loops => .FOI_STATUS
  | .FOI_INT_cmd_reject => .FOI_INT
  | .FOI_INT_hold_over => .FOI_INT
  | .FOI_INT_pub_err => .FOI_INT
  | .FOI_INT_loss => .FOI_INT
  | .FOI_INT_revoke_block => .FOI_INT
  | .FOI_INT_rogue => .FOI_INT
  | .FOI_INT_ring_fault => .FOI_INT
  | .FOI_INT_EN_bits => .FOI_INT_EN
  | .FOI_PUB_CTL_en => .FOI_PUB_CTL
  | .FOI_PUB_CTL_min_us => .FOI_PUB_CTL
  | .FOI_PUB_CTL_region => .FOI_PUB_CTL
  | .FOI_PUB_OFF_offset => .FOI_PUB_OFF
  | .FOI_PUB_SEQ_seq => .FOI_PUB_SEQ
  | .FOI_ROGUE_count => .FOI_ROGUE
  | .FOI_LOSS_count => .FOI_LOSS
  | .FOI_BPI_PWR_pwr => .FOI_BPI_PWR
  | .FOI_BPO_PWR_pwr => .FOI_BPO_PWR
  | .MICA_CTRL_STATUS_run => .MICA_CTRL_STATUS
  | .MICA_ELS_INT_change => .MICA_ELS_INT
  | .MICA_ELS_INT_EN_bits => .MICA_ELS_INT_EN
  | .MICA_ELS_CTL_en => .MICA_ELS_CTL
  | .MICA_ELS_STATUS_on => .MICA_ELS_STATUS
  | .MICA_ELS_STATUS_fault => .MICA_ELS_STATUS
  | .MICA_ELS_STATUS_present => .MICA_ELS_STATUS
  | .MICA_ELS_PWR_pwr => .MICA_ELS_PWR
  | .QTZ_CTL_step => .QTZ_CTL
  | .QTZ_CTL_step_arm => .QTZ_CTL
  | .QTZ_CTL_invalidate => .QTZ_CTL
  | .QTZ_CTL_pps_out_en => .QTZ_CTL
  | .QTZ_CTL_pps_width_ms => .QTZ_CTL
  | .QTZ_STATUS_step_pending => .QTZ_STATUS
  | .QTZ_STATUS_valid => .QTZ_STATUS
  | .QTZ_INT_wrap => .QTZ_INT
  | .QTZ_INT_pps_in => .QTZ_INT
  | .QTZ_INT_step_reject => .QTZ_INT
  | .QTZ_INT_stepped => .QTZ_INT
  | .QTZ_INT_EN_bits => .QTZ_INT_EN
  | .QTZ_RATE_rate => .QTZ_RATE
  | .QTZ_RAW_raw => .QTZ_RAW
  | .QTZ_SNAP_snap => .QTZ_SNAP
  | .QTZ_SNAP_RAW_raw => .QTZ_SNAP_RAW
  | .QTZ_SNAP_SEC_sec => .QTZ_SNAP_SEC
  | .QTZ_SNAP_NSEC_nsec => .QTZ_SNAP_NSEC
  | .QTZ_SNAP_FRAC_frac => .QTZ_SNAP_FRAC
  | .QTZ_SNAP_RATE_rate => .QTZ_SNAP_RATE
  | .QTZ_PPS_IN_SEC_sec => .QTZ_PPS_IN_SEC
  | .QTZ_PPS_IN_NSEC_nsec => .QTZ_PPS_IN_NSEC
  | .QTZ_PPS_DLY_out_dly => .QTZ_PPS_DLY
  | .QTZ_PPS_DLY_in_dly => .QTZ_PPS_DLY
  | .QTZ_STEPS_count => .QTZ_STEPS
  | .QTZ_TILE_SYNC_sync => .QTZ_TILE_SYNC
  | .QTZ_STEP_step => .QTZ_STEP
  | .QTZ_SNAP_OFF_offset => .QTZ_SNAP_OFF
  | .QTZ_LNK_ASYM_known => .QTZ_LNK_ASYM
  | .QTZ_LNK_ASYM_asym_ps => .QTZ_LNK_ASYM
  | .QTZ_TXTS_record => .QTZ_TXTS
  | .QTZ_TXTS_POP_empty => .QTZ_TXTS_POP
  | .QTZ_TXTS_POP_pop => .QTZ_TXTS_POP
  | .QTZ_TXTS_LOST_count => .QTZ_TXTS_LOST
  | .JSP_SNAP_CTL_go => .JSP_SNAP_CTL
  | .JSP_SNAP_CTL_at_time => .JSP_SNAP_CTL
  | .JSP_SNAP_CTL_groups => .JSP_SNAP_CTL
  | .JSP_SNAP_SEC_sec => .JSP_SNAP_SEC
  | .JSP_SNAP_NSEC_nsec => .JSP_SNAP_NSEC
  | .JSP_SNAP_STATUS_busy => .JSP_SNAP_STATUS
  | .JSP_SNAP_STATUS_seq => .JSP_SNAP_STATUS
  | .JSP_UPERM_groups => .JSP_UPERM
  | .JSP_UREAD_DENIED_count => .JSP_UREAD_DENIED
  | .JSP_INT_mrg_alarm => .JSP_INT
  | .JSP_INT_mrg_warn => .JSP_INT
  | .JSP_INT_trc_lost => .JSP_INT
  | .JSP_INT_pcnt_ovf => .JSP_INT
  | .JSP_INT_sat => .JSP_INT
  | .JSP_INT_EN_bits => .JSP_INT_EN
  | .JSP_TRC_SEED_seed => .JSP_TRC_SEED
  | .JSP_PRUN_run => .JSP_PRUN
  | .JSP_MRG_RD_peak => .JSP_MRG_RD
  | .JSP_MRG_RD_value => .JSP_MRG_RD
  | .JSP_MRG_THR_alarm => .JSP_MRG_THR
  | .JSP_MRG_THR_warn => .JSP_MRG_THR
  | .JSP_MRG_TRIP0_trip => .JSP_MRG_TRIP0
  | .JSP_MRG_TRIP1_trip => .JSP_MRG_TRIP1
  | .JSP_PSEL_en => .JSP_PSEL
  | .JSP_PSEL_chain => .JSP_PSEL
  | .JSP_PSEL_src => .JSP_PSEL
  | .JSP_PCNT_count => .JSP_PCNT
  | .JSP_PCNT_OVF_ovf => .JSP_PCNT_OVF
  | .JSP_TRC_CTL_en => .JSP_TRC_CTL
  | .JSP_TRC_CTL_rate_log2 => .JSP_TRC_CTL
  | .JSP_TRC_CTL_tc_mask => .JSP_TRC_CTL
  | .JSP_TRC_CTL_ring => .JSP_TRC_CTL
  | .JSP_TRC_LINK_match_en => .JSP_TRC_LINK
  | .JSP_TRC_LINK_link => .JSP_TRC_LINK
  | .JSP_TRC_LIMIT_limit => .JSP_TRC_LIMIT
  | .JSP_TRC_TAGGED_count => .JSP_TRC_TAGGED
  | .JSP_TRC_LOST_count => .JSP_TRC_LOST
  | .IMG_CMD_op => .IMG_CMD
  | .IMG_CMD_ARG0_arg => .IMG_CMD_ARG0
  | .IMG_CMD_ARG1_arg => .IMG_CMD_ARG1
  | .IMG_CMD_STATUS_busy => .IMG_CMD_STATUS
  | .IMG_CMD_STATUS_fail_pair => .IMG_CMD_STATUS
  | .IMG_CMD_STATUS_result => .IMG_CMD_STATUS
  | .IMG_BOOT_phase => .IMG_BOOT
  | .IMG_BOOT_src => .IMG_BOOT
  | .IMG_BOOT_trial => .IMG_BOOT
  | .IMG_BOOT_trials => .IMG_BOOT
  | .IMG_BOOT_reverted => .IMG_BOOT
  | .IMG_BOOT_slot => .IMG_BOOT
  | .IMG_BOOT_conf_slot => .IMG_BOOT
  | .IMG_BOOT_mgmt_slot => .IMG_BOOT
  | .IMG_BOOT_mica_src => .IMG_BOOT
  | .IMG_BOOT_boot_pair => .IMG_BOOT
  | .IMG_BOOT_boot_err => .IMG_BOOT
  | .IMG_DL_STATUS_state => .IMG_DL_STATUS
  | .IMG_DL_STATUS_target => .IMG_DL_STATUS
  | .IMG_DL_STATUS_bytes => .IMG_DL_STATUS
  | .IMG_ROLL_CFG_wait_ms => .IMG_ROLL_CFG
  | .IMG_INT_reload_err => .IMG_INT
  | .IMG_INT_roll_link => .IMG_INT
  | .IMG_INT_fell_back => .IMG_INT
  | .IMG_INT_reverted => .IMG_INT
  | .IMG_INT_cmd_reject => .IMG_INT
  | .IMG_INT_cmd_done => .IMG_INT
  | .IMG_INT_EN_bits => .IMG_INT_EN
  | .IMG_TILE_SRC_src => .IMG_TILE_SRC
  | .IMG_RUN_VER_version => .IMG_RUN_VER
  | .IMG_SI_RANGE_hi => .IMG_SI_RANGE
  | .IMG_SI_RANGE_lo => .IMG_SI_RANGE
  | .RSTC_CAUSE_resets => .RSTC_CAUSE
  | .RSTC_CAUSE_level => .RSTC_CAUSE
  | .RSTC_CAUSE_src => .RSTC_CAUSE
  | .RSTC_CAUSE_die => .RSTC_CAUSE
  | .RSTC_CAUSE_tile => .RSTC_CAUSE
  | .RSTC_MAP_levels => .RSTC_MAP
  | .RSTC_SWRST_key => .RSTC_SWRST
  | .RSTC_SWRST_level => .RSTC_SWRST
  | .RSTC_SWRST_die => .RSTC_SWRST
  | .RSTC_SWRST_tile => .RSTC_SWRST
  | .RSTC_WDT_CTL_en => .RSTC_WDT_CTL
  | .RSTC_WDT_CTL_timeout_ms => .RSTC_WDT_CTL
  | .RSTC_WDT_KICK_kick => .RSTC_WDT_KICK
  | .RSTC_FAILS_locked => .RSTC_FAILS
  | .RSTC_FAILS_clear => .RSTC_FAILS
  | .RSTC_FAILS_count => .RSTC_FAILS
  | .RSTC_INT_wdt_half => .RSTC_INT
  | .RSTC_INT_clk_fail => .RSTC_INT
  | .RSTC_INT_sw_reject => .RSTC_INT
  | .RSTC_INT_iso => .RSTC_INT
  | .RSTC_INT_EN_bits => .RSTC_INT_EN
  | .RSTC_ISO_ADDR_bar => .RSTC_ISO_ADDR
  | .RSTC_ISO_ADDR_offset => .RSTC_ISO_ADDR
  | .RSTC_ISO_CNT_count => .RSTC_ISO_CNT
  | .RSTC_LOST_CELLS_count => .RSTC_LOST_CELLS
  | .RSTC_CLK_STATUS_lane_pll => .RSTC_CLK_STATUS
  | .RSTC_CLK_STATUS_hbm_pll => .RSTC_CLK_STATUS
  | .RSTC_CLK_STATUS_core_pll => .RSTC_CLK_STATUS
  | .RSTC_CLK_STATUS_mgmt_pll => .RSTC_CLK_STATUS
  | .RSTC_CLK_STATUS_time_pll => .RSTC_CLK_STATUS
  | .RSTC_CLK_STATUS_pcie_ref => .RSTC_CLK_STATUS
  | .RSTC_CLK_STATUS_mref => .RSTC_CLK_STATUS
  | .RSTC_CLK_STATUS_ref => .RSTC_CLK_STATUS
  | .RSTC_DIE_RST_die => .RSTC_DIE_RST
  | .RSTC_TILE_RST_tile => .RSTC_TILE_RST
  | .PWR_DOM_CTL_on => .PWR_DOM_CTL
  | .PWR_DOM_STATUS_state => .PWR_DOM_STATUS
  | .PWR_SLEEP_busy => .PWR_SLEEP
  | .PWR_SLEEP_state => .PWR_SLEEP
  | .PWR_SLEEP_target => .PWR_SLEEP
  | .PWR_INT_sleep_done => .PWR_INT
  | .PWR_INT_sleep_reject => .PWR_INT
  | .PWR_INT_dep_reject => .PWR_INT
  | .PWR_INT_EN_bits => .PWR_INT_EN
  | .OBS_LC_dbg_open => .OBS_LC
  | .OBS_LC_scan => .OBS_LC
  | .OBS_LC_state => .OBS_LC
  | .OBS_CMD_op => .OBS_CMD
  | .OBS_CMD_index => .OBS_CMD
  | .OBS_CMD_STATUS_busy => .OBS_CMD_STATUS
  | .OBS_CMD_STATUS_result => .OBS_CMD_STATUS
  | .OBS_KEY_STATUS_revoked => .OBS_KEY_STATUS
  | .OBS_KEY_STATUS_programmed => .OBS_KEY_STATUS
  | .OBS_REPAIR_fused => .OBS_REPAIR
  | .OBS_REPAIR_pending => .OBS_REPAIR
  | .OBS_REPAIR_hbm_retired => .OBS_REPAIR
  | .OBS_INT_bist_fail => .OBS_INT
  | .OBS_INT_fuse_err => .OBS_INT
  | .OBS_INT_cmd_reject => .OBS_INT
  | .OBS_INT_cmd_done => .OBS_INT
  | .OBS_INT_EN_bits => .OBS_INT_EN
  | .OBS_DEV_ID_id => .OBS_DEV_ID
  | .OBS_SVN_MIN_min => .OBS_SVN_MIN
  | .OBS_CMD_DATA_data => .OBS_CMD_DATA
  | .OBS_MEAS_hash => .OBS_MEAS
  | .OBS_NONCE_nonce => .OBS_NONCE
  | .MGT_ERR_CFG_en => .MGT_ERR_CFG
  | .MGT_ERR_CFG_fatal_act => .MGT_ERR_CFG
  | .MGT_ERR_CFG_uc_act => .MGT_ERR_CFG
  | .MGT_ERR_CFG_ring => .MGT_ERR_CFG
  | .MGT_ERR_LOST_count => .MGT_ERR_LOST
  | .MGT_ERR_INT_fatal => .MGT_ERR_INT
  | .MGT_ERR_INT_uc_uncont => .MGT_ERR_INT
  | .MGT_ERR_INT_uc_cont => .MGT_ERR_INT
  | .MGT_ERR_INT_ce => .MGT_ERR_INT
  | .MGT_ERR_INT_EN_bits => .MGT_ERR_INT_EN
  | .MGT_ERR_HEAD_next => .MGT_ERR_HEAD
  | .MGT_ERR_CNT_count => .MGT_ERR_CNT
  | .MGT_ERR_LOG_record => .MGT_ERR_LOG
  | .GNS_SCRUB_CTL_en => .GNS_SCRUB_CTL
  | .GNS_SCRUB_CTL_period_h => .GNS_SCRUB_CTL
  | .GNS_HBM_CE_count => .GNS_HBM_CE
  | .GNS_POISONED_count => .GNS_POISONED
  | .DMA_RING_BASE_base => .DMA_RING_BASE
  | .DMA_RING_CFG_en => .DMA_RING_CFG
  | .DMA_RING_CFG_side => .DMA_RING_CFG
  | .DMA_RING_CFG_func => .DMA_RING_CFG
  | .DMA_RING_CFG_size_log2 => .DMA_RING_CFG
  | .DMA_RING_CFG_irq_en => .DMA_RING_CFG
  | .DMA_RING_CFG_vector => .DMA_RING_CFG
  | .DMA_RING_CFG_cpl_ring => .DMA_RING_CFG
  | .DMA_RING_WB_addr => .DMA_RING_WB
  | .DMA_RING_MOD_count => .DMA_RING_MOD
  | .DMA_RING_MOD_delay_us => .DMA_RING_MOD
  | .DMA_RING_HEAD_head => .DMA_RING_HEAD
  | .DMA_RING_TAIL_tail => .DMA_RING_TAIL
  | .DMA_RING_STATUS_bm_stop => .DMA_RING_STATUS
  | .DMA_RING_STATUS_tail_err => .DMA_RING_STATUS
  | .DMA_RING_STATUS_fault => .DMA_RING_STATUS
  | .DMA_RING_CTL_reset => .DMA_RING_CTL
  | .DMA_RING_NOBUF_count => .DMA_RING_NOBUF
  | .DMA_RING_TRUNC_count => .DMA_RING_TRUNC
  | .DMA_INT_cfg_reject => .DMA_INT
  | .DMA_INT_cpl_full => .DMA_INT
  | .DMA_INT_misroute => .DMA_INT
  | .DMA_INT_trunc => .DMA_INT
  | .DMA_INT_tail_err => .DMA_INT
  | .DMA_INT_fault => .DMA_INT
  | .DMA_INT_EN_bits => .DMA_INT_EN
  | .DMA_PTP_MAP_en => .DMA_PTP_MAP
  | .DMA_PTP_MAP_ring => .DMA_PTP_MAP
  | .DMA_RX_DROP_count => .DMA_RX_DROP
  | .DMA_CPL_DISCARD_count => .DMA_CPL_DISCARD
  | .DMA_RX_MAP_en => .DMA_RX_MAP
  | .DMA_RX_MAP_count => .DMA_RX_MAP
  | .DMA_RX_MAP_ring => .DMA_RX_MAP
  | .DMA_CQ_BASE_base => .DMA_CQ_BASE
  | .DMA_CQ_CFG_en => .DMA_CQ_CFG
  | .DMA_CQ_CFG_side => .DMA_CQ_CFG
  | .DMA_CQ_CFG_size_log2 => .DMA_CQ_CFG
  | .DMA_CQ_HEAD_head => .DMA_CQ_HEAD
  | .DMA_CQ_CTL_reset => .DMA_CQ_CTL
  | .DMA_CQ_STATUS_tail_err => .DMA_CQ_STATUS
  | .DMA_CQ_STATUS_fault => .DMA_CQ_STATUS
  | .MGT_MBX_H2D_word => .MGT_MBX_H2D
  | .MGT_MBX_D2H_word => .MGT_MBX_D2H
  | .MGT_MBX_H2D_TAKEN_seq => .MGT_MBX_H2D_TAKEN
  | .MGT_MBX_H2D_DONE_seq => .MGT_MBX_H2D_DONE
  | .MGT_MBX_D2H_SENT_seq => .MGT_MBX_D2H_SENT
  | .MGT_MBX_D2H_ACK_seq => .MGT_MBX_D2H_ACK
  | .MGT_MBX_STATUS_epoch => .MGT_MBX_STATUS
  | .MGT_MBX_STATUS_fw_ready => .MGT_MBX_STATUS
  | .MGT_MBX_INT_restarted => .MGT_MBX_INT
  | .MGT_MBX_INT_bad_seq => .MGT_MBX_INT
  | .MGT_MBX_INT_d2h => .MGT_MBX_INT
  | .MGT_MBX_INT_EN_bits => .MGT_MBX_INT_EN
  | .MGT_IRQ_ROUTE_host_en => .MGT_IRQ_ROUTE
  | .MGT_IRQ_ROUTE_mgmt_en => .MGT_IRQ_ROUTE
  | .MGT_IRQ_ROUTE_vector => .MGT_IRQ_ROUTE
  | .MGT_IRQ_PEND_pend => .MGT_IRQ_PEND
  | .MGT_IRQ_ARM_vector => .MGT_IRQ_ARM
  | .MGT_IRQ_ARMED_armed => .MGT_IRQ_ARMED
  | .MSIX_PBA_pend => .MSIX_PBA
  | .MGT_IRQ_RPEND_pend => .MGT_IRQ_RPEND
  | .MGT_UART_CFG_baud => .MGT_UART_CFG
  | .GPIO_FUNC_func => .GPIO_FUNC
  | .GPIO_OUT_out => .GPIO_OUT
  | .GPIO_OE_oe => .GPIO_OE
  | .GPIO_IN_in => .GPIO_IN
  | .GPIO_INT_edge => .GPIO_INT
  | .GPIO_INT_EN_bits => .GPIO_INT_EN
  | .GPIO_EDGE_sel => .GPIO_EDGE
  | .GPIO_STATUS_switching => .GPIO_STATUS
  | .I2C_CTL_en => .I2C_CTL
  | .I2C_CTL_reset => .I2C_CTL
  | .I2C_CTL_clear => .I2C_CTL
  | .I2C_CTL_speed => .I2C_CTL
  | .I2C_CMD_start => .I2C_CMD
  | .I2C_CMD_addr => .I2C_CMD
  | .I2C_CMD_rd_count => .I2C_CMD
  | .I2C_CMD_wr_count => .I2C_CMD
  | .I2C_DATA_byte => .I2C_DATA
  | .I2C_STATUS_busy => .I2C_STATUS
  | .I2C_STATUS_scl_stuck => .I2C_STATUS
  | .I2C_STATUS_sda_stuck => .I2C_STATUS
  | .I2C_STATUS_arb_lost => .I2C_STATUS
  | .I2C_STATUS_nack => .I2C_STATUS
  | .I2C_STATUS_done => .I2C_STATUS
  | .I2C_INT_reject => .I2C_INT
  | .I2C_INT_stuck => .I2C_INT
  | .I2C_INT_done => .I2C_INT
  | .I2C_INT_EN_bits => .I2C_INT_EN
  | .I2C_TGT_CFG_alert_en => .I2C_TGT_CFG
  | .I2C_TGT_CFG_pec_en => .I2C_TGT_CFG
  | .I2C_TGT_CFG_addr => .I2C_TGT_CFG

/-- Registers of the tables, part 0. -/
def Reg.all0 : List Reg :=
  [.MGT_DEVICE_ID, .TIL_PORT_MODE, .TIL_LNK_CTL, .TIL_LNK_STATUS, .TIL_LNK_INT, .TIL_LNK_INT_EN, .TIL_LNK_BURST_CFG, .TIL_LNK_PFC_CFG, .TIL_LNK_RTT, .TIL_LNK_GRANT_TC, .TIL_LNK_FEC_CORR, .TIL_LNK_FEC_UNCORR, .TIL_LNK_FEC_SYMERR, .TIL_LNK_RETRY, .TIL_LNK_LOST, .TIL_LNK_BURSTS, .TIL_LNK_RETRAINS, .TIL_LNK_RESYNCS, .TIL_LNK_FLUSH, .TIL_FWD_CFG, .TIL_FWD_RMAC, .TIL_FWD_DROP, .DMA_TBL_LOCK, .DMA_TBL_AGE, .DMA_TBL_LRN_MISS, .DMA_TBL_MOVES, .JSP_CMAP_CTL, .JSP_CMAP_SRC, .TIL_CT_CFG, .TIL_STG_CTL, .TIL_STG_STATUS, .TIL_CHK_FAIL_IN, .TIL_CHK_FAIL_OUT, .TIL_CHK_STOMP_RX, .BSL_ADM_CFG, .BSL_FREE, .BSL_QUEUED, .BSL_RESERVED, .BSL_RETIRED, .BSL_CNT_SNAP]

/-- Registers of the tables, part 1. -/
def Reg.all1 : List Reg :=
  [.BSL_REPAIRED, .BSL_AUDIT_CTL, .BSL_AUDIT_STATUS, .BSL_INT, .BSL_INT_EN, .BSL_DROP_NOCELL, .BSL_DROP_LINKDOWN, .BSL_DROP_PAIRDOWN, .BSL_ADM_STALL, .BSL_AUDIT_RECLAIM, .BSL_AUDIT_DOUBLE, .BSL_POOL_TC, .D2D_LNK_CTL, .D2D_LNK_STATUS, .D2D_LNK_CRCERR, .D2D_LNK_REPLAY, .D2D_LNK_FAILS, .D2D_PAIR_CFG, .D2D_PAIR_STATUS, .D2D_PAIR_INT, .D2D_PAIR_INT_EN, .FLD_SUB_CFG, .FLD_SUB_DEPTH, .FLD_PORT_SPLIT, .FLD_SRC_NODE, .FLD_INT, .FLD_INT_EN, .FLD_TC7_OVER, .FLD_GATE_DROP, .FLD_DROP_DETACHED, .FLD_LNK_CTL, .FLD_TC7_MON, .FLD_GATE_CTL, .FLD_GATE_STATUS, .FLD_GATE_BASE_S, .FLD_GATE_BASE_NS, .FLD_GATE_CYCLE_NS, .FLD_CLS_CFG, .FLD_CBS_CFG, .FLD_GATE_ENT]

/-- Registers of the tables, part 2. -/
def Reg.all2 : List Reg :=
  [.GRN_FMT_CTL, .GRN_AUDIT_CFG, .GRN_IST_CTL, .GRN_IST_STATUS, .GRN_IST_STARVED, .GRN_IST_FAIL, .GRN_IST_PASSES, .GRN_CTL, .GRN_STATUS, .GRN_SPILL_CFG, .GRN_SPILL_USED, .GRN_SCR_USED, .GRN_INT, .GRN_INT_EN, .GRN_RELEASED, .GRN_FAILED, .GRN_ELEMS, .GRN_DUP, .GRN_LATE, .GRN_RESIDUE_ERR, .GRN_MOVED, .GRN_AUDITED, .GRN_ESCAPES, .GRN_SCR_CORR, .GRN_SPILL_WAITS, .COL_CTL, .COL_STATUS, .COL_INT, .COL_INT_EN, .COL_COMPLETED, .COL_FAILED, .COL_TOKEN, .COL_DISCARD, .GNS_CTL, .GNS_CMD, .GNS_CMD_STATUS, .GNS_INT, .GNS_INT_EN, .GNS_REQ_OK, .GNS_REQ_ERR]

/-- Registers of the tables, part 3. -/
def Reg.all3 : List Reg :=
  [.GNS_NW_READS, .GNS_STRAY, .GNS_GW_DISCARD, .GNS_CMD_DATA, .GNS_CQ_STATUS, .GNS_CQ_WAITS, .GNS_COMBINED, .GNS_STALE, .GNS_PART, .GNS_PART_STATUS, .GNS_BW_CFG, .GNS_CKP_CFG, .GNS_CKP_FILL, .GNS_CKP_STATUS, .GNS_CKP_INT, .GNS_CKP_INT_EN, .GNS_CKP_ABSORBED, .GNS_CKP_MIRRORED, .GNS_CKP_DURABLE, .GNS_CKP_FAILED, .GNS_CKP_LATE_WR, .GNS_CKP_RESTORE_FR, .GNS_CKP_NOTIFY_ERR, .SHL_CTL, .SHL_INT, .SHL_INT_EN, .SHL_RECORDS, .SHL_BYTES, .SHL_DISCARDED, .SHL_STR_CTL, .SHL_STR_WPOS, .SHL_STR_TPOS, .SHL_STR_LOST, .SHL_GRP_MAP, .MICA_OE_CTL, .MICA_OE_STATUS, .MICA_OE_INT, .MICA_OE_INT_EN, .MICA_LANE_STATUS, .MICA_LANE_PWR]

/-- Registers of the tables, part 4. -/
def Reg.all4 : List Reg :=
  [.MICA_OE_FAULTS, .FOI_CTL, .FOI_CFG, .FOI_CMD, .FOI_CMD_DATA, .FOI_CMD_STATUS, .FOI_STATUS, .FOI_INT, .FOI_INT_EN, .FOI_PUB_CTL, .FOI_PUB_OFF, .FOI_PUB_SEQ, .FOI_ROGUE, .FOI_LOSS, .FOI_BPI_PWR, .FOI_BPO_PWR, .MICA_CTRL_STATUS, .MICA_ELS_INT, .MICA_ELS_INT_EN, .MICA_ELS_CTL, .MICA_ELS_STATUS, .MICA_ELS_PWR, .QTZ_CTL, .QTZ_STATUS, .QTZ_INT, .QTZ_INT_EN, .QTZ_RATE, .QTZ_RAW, .QTZ_SNAP, .QTZ_SNAP_RAW, .QTZ_SNAP_SEC, .QTZ_SNAP_NSEC, .QTZ_SNAP_FRAC, .QTZ_SNAP_RATE, .QTZ_PPS_IN_SEC, .QTZ_PPS_IN_NSEC, .QTZ_PPS_DLY, .QTZ_STEPS, .QTZ_TILE_SYNC, .QTZ_STEP]

/-- Registers of the tables, part 5. -/
def Reg.all5 : List Reg :=
  [.QTZ_SNAP_OFF, .QTZ_LNK_ASYM, .QTZ_TXTS, .QTZ_TXTS_POP, .QTZ_TXTS_LOST, .JSP_SNAP_CTL, .JSP_SNAP_SEC, .JSP_SNAP_NSEC, .JSP_SNAP_STATUS, .JSP_UPERM, .JSP_UREAD_DENIED, .JSP_INT, .JSP_INT_EN, .JSP_TRC_SEED, .JSP_PRUN, .JSP_MRG_RD, .JSP_MRG_THR, .JSP_MRG_TRIP0, .JSP_MRG_TRIP1, .JSP_PSEL, .JSP_PCNT, .JSP_PCNT_OVF, .JSP_TRC_CTL, .JSP_TRC_LINK, .JSP_TRC_LIMIT, .JSP_TRC_TAGGED, .JSP_TRC_LOST, .IMG_CMD, .IMG_CMD_ARG0, .IMG_CMD_ARG1, .IMG_CMD_STATUS, .IMG_BOOT, .IMG_DL_STATUS, .IMG_ROLL_CFG, .IMG_INT, .IMG_INT_EN, .IMG_TILE_SRC, .IMG_RUN_VER, .IMG_SI_RANGE, .RSTC_CAUSE]

/-- Registers of the tables, part 6. -/
def Reg.all6 : List Reg :=
  [.RSTC_MAP, .RSTC_SWRST, .RSTC_WDT_CTL, .RSTC_WDT_KICK, .RSTC_FAILS, .RSTC_INT, .RSTC_INT_EN, .RSTC_ISO_ADDR, .RSTC_ISO_CNT, .RSTC_LOST_CELLS, .RSTC_CLK_STATUS, .RSTC_DIE_RST, .RSTC_TILE_RST, .PWR_DOM_CTL, .PWR_DOM_STATUS, .PWR_SLEEP, .PWR_INT, .PWR_INT_EN, .OBS_LC, .OBS_CMD, .OBS_CMD_STATUS, .OBS_KEY_STATUS, .OBS_REPAIR, .OBS_INT, .OBS_INT_EN, .OBS_DEV_ID, .OBS_SVN_MIN, .OBS_CMD_DATA, .OBS_MEAS, .OBS_NONCE, .MGT_ERR_CFG, .MGT_ERR_LOST, .MGT_ERR_INT, .MGT_ERR_INT_EN, .MGT_ERR_HEAD, .MGT_ERR_CNT, .MGT_ERR_LOG, .GNS_SCRUB_CTL, .GNS_HBM_CE, .GNS_POISONED]

/-- Registers of the tables, part 7. -/
def Reg.all7 : List Reg :=
  [.DMA_RING_BASE, .DMA_RING_CFG, .DMA_RING_WB, .DMA_RING_MOD, .DMA_RING_HEAD, .DMA_RING_TAIL, .DMA_RING_STATUS, .DMA_RING_CTL, .DMA_RING_NOBUF, .DMA_RING_TRUNC, .DMA_INT, .DMA_INT_EN, .DMA_PTP_MAP, .DMA_RX_DROP, .DMA_CPL_DISCARD, .DMA_RX_MAP, .DMA_CQ_BASE, .DMA_CQ_CFG, .DMA_CQ_HEAD, .DMA_CQ_CTL, .DMA_CQ_STATUS, .MGT_MBX_H2D, .MGT_MBX_D2H, .MGT_MBX_H2D_TAKEN, .MGT_MBX_H2D_DONE, .MGT_MBX_D2H_SENT, .MGT_MBX_D2H_ACK, .MGT_MBX_STATUS, .MGT_MBX_INT, .MGT_MBX_INT_EN, .MGT_IRQ_ROUTE, .MGT_IRQ_PEND, .MGT_IRQ_ARM, .MGT_IRQ_ARMED, .MSIX_PBA, .MGT_IRQ_RPEND, .MGT_UART_CFG, .GPIO_FUNC, .GPIO_OUT, .GPIO_OE, .GPIO_IN]

/-- Registers of the tables, part 8. -/
def Reg.all8 : List Reg :=
  [.GPIO_INT, .GPIO_INT_EN, .GPIO_EDGE, .GPIO_STATUS, .I2C_CTL, .I2C_CMD, .I2C_DATA, .I2C_STATUS, .I2C_INT, .I2C_INT_EN, .I2C_TGT_CFG]

/-- Every register, in the order of the tables. -/
def Reg.all : List Reg :=
  Reg.all0 ++
  Reg.all1 ++
  Reg.all2 ++
  Reg.all3 ++
  Reg.all4 ++
  Reg.all5 ++
  Reg.all6 ++
  Reg.all7 ++
  Reg.all8

/-- A field's value right after reset. The exceptions to the table's one value: FLD_CLS_CFG6 and FLD_CLS_CFG7 reset
strict (R186); the thresholds of the falling monitors, timing slack (32 to 63) and voltage (76 to 91), reset to 0
(R368, R372); MGT_MBX and the fuse fields reset as the table or the log says. -/
def Fld.resetAt (f : Fld) (i : Nat) : Nat :=
  if f = .FLD_CLS_CFG_strict then if i % 8 = 6 ∨ i % 8 = 7 then 1 else 0
  else if f = .JSP_MRG_THR_alarm ∨ f = .JSP_MRG_THR_warn then
    if (32 ≤ i ∧ i < 64) ∨ (76 ≤ i ∧ i < 92) then 0 else 0x7FFF
  else f.info.reset

/-- A field's access code at an index: TC7's class fields, the chain bit of even counters and the switches of the
always-on domains are read-only (R186, R373, R431). -/
def Fld.accessAt (f : Fld) (i : Nat) : Access :=
  if (f = .FLD_CLS_CFG_strict ∨ f = .FLD_CLS_CFG_cbs_en) ∧ i % 8 = 7 then .ro
  else if f = .JSP_PSEL_chain ∧ i % 2 = 0 then .ro
  else if f = .PWR_DOM_CTL_on ∧ 160 ≤ i then .ro
  else f.info.access

/-- How many copies of a register there are. -/
def Reg.copies (r : Reg) : Nat := r.info.dims.foldl (fun n d => n * d.1) 1

/-- The index and the remaining byte offset that an offset from a register's first copy names, by its repetitions. -/
def dimsIndex : List (Nat × Nat) → Nat → Nat → Option (Nat × Nat)
  | [], idx, off => some (idx, off)
  | (n, stride) :: ds, idx, off =>
    if off / stride < n then dimsIndex ds (idx * n + off / stride) (off % stride) else none

/-- The copy of register `r` at a BAR0 address, and whether the address is its high word. -/
def Reg.at? (r : Reg) (addr : Nat) : Option (Nat × Bool) :=
  if addr < r.info.base then none
  else match dimsIndex r.info.dims 0 (addr - r.info.base) with
    | some (i, 0) => some (i, false)
    | some (i, 4) => if r.info.wide then some (i, true) else none
    | _ => none

/-- The register, its index and whether the high word is meant, at a BAR0 address (none: unassigned, R14). -/
def Reg.find (addr : Nat) : Option (Reg × Nat × Bool) :=
  Reg.all.findSome? fun r => (r.at? addr).map fun p => (r, p.1, p.2)

/-- Byte offset of copy `i` of a repetition list. -/
def dimsOffset : List (Nat × Nat) → Nat → Nat
  | [], _ => 0
  | (n, stride) :: ds, i =>
    let inner := ds.foldl (fun m d => m * d.1) 1
    (i / inner % n) * stride + dimsOffset ds (i % inner)

/-- BAR0 address of copy `i` of a register (R10, R73, R158, R183). -/
def Reg.addrOf (r : Reg) (i : Nat) : Nat := r.info.base + dimsOffset r.info.dims i

/-- The tile or die number that copy `i` of a register belongs to: its outermost index. -/
def Reg.outer (r : Reg) (i : Nat) : Nat :=
  match r.info.dims with
  | [] => 0
  | _ :: ds => i / ds.foldl (fun m d => m * d.1) 1

/-- The power domain (index of R421) that copy `i` of a register lies in, or none for the always-on group (R415). -/
def Reg.domain (r : Reg) (i : Nat) : Option Nat :=
  match r.info.dom with
  | .none => none
  | .tile => some (r.outer i)
  | .oe => some (32 + r.outer i)
  | .garnet => some (64 + r.outer i)
  | .die => some (156 + r.outer i)
  | .agate => some (108 + r.outer i)

/-- The 64-bit RO registers that count events (R360): one field, as wide as the register, named count. The stream
positions and Quartz values are not among them. -/
def Fld.isCounter (f : Fld) : Bool :=
  f.info.access == .ro && f.info.width == 64 &&
    !(f = .QTZ_RAW_raw ∨ f = .QTZ_SNAP_RAW_raw ∨ f = .SHL_STR_WPOS_pos ∨ f = .SHL_STR_TPOS_pos ∨
      f = .MGT_IRQ_ARMED_armed ∨ f = .MSIX_PBA_pend ∨ f = .OBS_DEV_ID_id)

end Sys2Proof.Machine
end

