-- ==== Sys2Proof/Machine/Tab.lean ====
section
/-!
DEFINITION. The one sparse table of the model: a list of key and value pairs in canonical form, keys strictly rising
and no entry equal to what an unlisted key reads as, so that equal contents are equal data.
-/

namespace Sys2Proof.Machine

/-- A sparse table: pairs of key and value, keys strictly rising. -/
abbrev Tab (α : Type) := List (Nat × α)

/-- The entry listed at a key. -/
def Tab.find {α : Type} : Tab α → Nat → Option α
  | [], _ => none
  | (k, v) :: t, key => if k = key then some v else Tab.find t key

/-- What a key reads as, `d` being what it reads as unlisted. -/
def Tab.get {α : Type} (t : Tab α) (d : α) (key : Nat) : α := (t.find key).getD d

/-- List a value at a key. -/
def Tab.put {α : Type} : Tab α → Nat → α → Tab α
  | [], key, v => [(key, v)]
  | (k, w) :: t, key, v =>
    if k = key then (key, v) :: t
    else if key < k then (key, v) :: (k, w) :: t
    else (k, w) :: Tab.put t key v

/-- Unlist a key. -/
def Tab.del {α : Type} : Tab α → Nat → Tab α
  | [], _ => []
  | (k, w) :: t, key => if k = key then Tab.del t key else (k, w) :: Tab.del t key

/-- Write a value at a key that reads as `d` when it is not listed: the value `d` itself is unlisted. -/
def Tab.set {α : Type} [DecidableEq α] (t : Tab α) (d : α) (key : Nat) (v : α) : Tab α :=
  if v = d then t.del key else t.put key v

/-- The canonical form, `d` giving what an unlisted key reads as: keys strictly rising, and no entry equal to what
its key reads as unlisted. -/
def Tab.wf {α : Type} [DecidableEq α] (d : Nat → α) : Tab α → Bool
  | [] => true
  | [(k, v)] => v ≠ d k
  | (k, v) :: (k', v') :: t => k < k' && v ≠ d k && Tab.wf d ((k', v') :: t)

/-- The keys listed. -/
def Tab.keys {α : Type} (t : Tab α) : List Nat := t.map Prod.fst

/-- Keep the entries that a test passes. -/
def Tab.keep {α : Type} (t : Tab α) (p : Nat → α → Bool) : Tab α := t.filter fun kv => p kv.1 kv.2

/-- Change every listed value, `d` being what a key reads as unlisted. -/
def Tab.mapV {α : Type} [DecidableEq α] (t : Tab α) (d : α) (f : Nat → α → α) : Tab α :=
  t.filterMap fun kv => if f kv.1 kv.2 = d then none else some (kv.1, f kv.1 kv.2)

end Sys2Proof.Machine
end

