-- ==== Sys2Proof/Machine/State.lean ====
section
/-!
DEFINITION. The state of the block: every register field (`Blk.fields`), and beside it what the spec gives the block
that no register shows.
-/

namespace Sys2Proof.Machine

/-- Reasons the block stops by a fault: there are none. Every command has an effect. -/
inductive Fault where
  deriving DecidableEq, Repr

/-- Reasons a command has no meaning here. -/
inductive Refusal where
  /-- A command not yet modelled. Raised by a refused arm of the dispatch alone. Safe: nothing is claimed of it. -/
  | notModelled (mnemonic : String)
  /-- DEBUG_TRANSPORT while JTAG debug is allowed: the command reaches the management cores' RISC-V debug transport
  module, whose behaviour the spec does not give (R495). Safe: the model stops. -/
  | debugTransport
  deriving DecidableEq, Repr

/-! ### Links (chapter 2) -/

/-- A frame sent on a link with retry on, not yet acknowledged (R62, R64): its sequence number, the cells it holds in the
die's Basalt buffer and the copy they belong to, its class, what was sent, whether it is still to be sent again, and whether its
credits have been taken since the last re-initialisation (R60). -/
structure SentFrame where
  lsn : Nat
  copy : Nat
  cls : Nat
  frame : Frame
  stomp : Bool
  due : Bool
  paid : Bool
  deriving DecidableEq, Repr

/-- What a link holds beside its registers. Per-class lists have eight entries, TC0 first. -/
structure LinkRec where
  /-- link_mode as read at the entry to ACQUIRE (R76). -/
  mode : Nat
  /-- The present EXCHANGE was entered from UP in Ethernet mode (R54). -/
  fromUp : Bool
  /-- tx_stamp of the CAPs sent in the present exchange. -/
  stamps : List Nat
  /-- tx_stamp of the last CAP received, and the Quartz time of its arrival (R51). -/
  lastCap : Option (Nat × Nat)
  /-- Own direction confirmed (R52). -/
  ownConf : Bool
  /-- The last valid CAP received. -/
  peer : Option Lcf
  /-- Settled version, features and largest frame (R52). -/
  llv : Nat
  features : Nat
  maxFrame : Nat
  /-- Last lsn sent, modulo 8,192 (R55): of the frame that began last. -/
  lsn : Nat
  /-- Frames sent and not acknowledged, by lsn (R64). -/
  unacked : List SentFrame
  /-- Credits held, cells sent, and the last cumulative credit return seen, per class (R56 to R60). -/
  held : List Nat
  cellsSent : List Nat
  returnsSeen : List Nat
  /-- Credit re-initialisation of the sending and the receiving direction in progress (R60). -/
  txReinit : Bool
  rxReinit : Bool
  /-- RESYNC_MARK waits for the end of the frame in progress (R60). -/
  markDue : Bool
  /-- The initial grant in force for the receiving direction (R58, R80), and whether R125 refused it when it was taken: the link
  then holds no credits either. -/
  grant : List Nat
  noGrant : Bool
  /-- Next lsn to deliver (R62). -/
  nextLsn : Nat
  /-- Cells charged to the allotment, cumulative credits returned and cells received, per class (R57, R59). -/
  charged : List Nat
  returned : List Nat
  cellsRcvd : List Nat
  /-- The retry clock of frame nextLsn runs (R62). -/
  retryClock : Bool
  /-- The frame now being received, its tail still to come. -/
  partialFrame : Option Nat
  /-- Frames delivered that overtook the one being received (R62), and cells of frame nextLsn returned before it was found
  errored. -/
  ahead : List Nat
  early : Nat
  /-- Class and cells of frame nextLsn where it arrived errored, and per class the cells of frames declared lost (R59). -/
  errored : Option (Nat × Nat)
  lostCells : List Nat
  /-- A burst event is open, and the times in ns at which the recent burst events began (R48). -/
  burst : Bool
  bursts : List Nat
  /-- KA_REQ sent and not answered (R66). -/
  kaAsked : Bool
  /-- Classes paused by received PFC, and classes for which XOFF is in force here (R69, R70). -/
  paused : Nat
  xoff : Nat
  deriving DecidableEq, Repr

/-- A link at reset. -/
def LinkRec.reset : LinkRec :=
  { mode := 0, fromUp := false, stamps := [], lastCap := none, ownConf := false, peer := none, llv := 0, features := 0,
    maxFrame := 0, lsn := 8191, unacked := [], held := List.replicate 8 0, cellsSent := List.replicate 8 0,
    returnsSeen := List.replicate 8 0, txReinit := false, rxReinit := false, markDue := false,
    grant := List.replicate 8 0, noGrant := false, nextLsn := 0,
    charged := List.replicate 8 0, returned := List.replicate 8 0, cellsRcvd := List.replicate 8 0, retryClock := false,
    partialFrame := none, ahead := [], early := 0, errored := none, lostCells := List.replicate 8 0,
    burst := false, bursts := [], kaAsked := false, paused := 0, xoff := 0 }
/-! ### Tagged traces (chapter 11) -/

/-- What a traced frame carries inside the block (R364, R365): its tag, and what its records are made of. Times are in ns
since power-on; `stamped`: the tile's Quartz copy agreed at ingress (R353). -/
structure TraceTag where
  id : Nat
  tile : Nat
  link : Nat
  tc : Nat
  len : Nat
  dst : Nat
  opcode : Nat
  seq : Nat
  sec : Nat
  nsec : Nat
  t0 : Nat
  stamped : Bool
  pipe : Option Nat
  adm : Option Nat
  cut : Bool
  xdie : Bool
  ce : Bool
  deriving DecidableEq, Repr


/-! ### Frames, copies, Agate and Basalt (chapters 3 and 4) -/

/-- Where the pipeline has sent a frame. -/
inductive Dest where
  /-- To links: one copy for each die (R112). -/
  | copies
  /-- Taken for a function of the spine, and waiting in staging for it (R91). -/
  | gneiss | garnet | host
  /-- A contribution that its context has taken, on its way to its Garnet engine (R235). -/
  | engine
  /-- A piece that its context has taken, on the piece path of its tile (R29). -/
  | pieces
  deriving DecidableEq, Repr

/-- A frame in a tile's staging buffer, or made by the block itself and on its way into Basalt. -/
structure FrameRec where
  frame : Frame
  /-- The link it arrived on; none for a frame the block made. -/
  link : Option Nat
  /-- The ingress tile, or the tile that made it. -/
  tile : Nat
  cls : Nat
  /-- Staging cells charged for it, and how many of them are free again (R124). -/
  cells : Nat
  freed : Nat
  /-- The tail has arrived (R127), and the bytes after the EtherType that have. -/
  whole : Bool
  got : Nat
  /-- The ingress check failed (R141). -/
  chkFail : Bool
  dest : Dest
  /-- Dropped and counted already; it only awaits its tail (R121). -/
  void : Bool
  /-- Why it goes to the host, where it does (R472). -/
  why : Nat
  /-- Its receive timestamp, taken at its head, and whether hall time was valid and the tile's copy in step then (R354, R356). -/
  arrived : Nat
  stampOk : Bool
  tag : Option TraceTag
  deriving DecidableEq, Repr

/-- How a copy's subscriber node is named (R161). -/
inductive NodeSrc where
  | image (n : Nat) | group (n : Nat) | gneiss | host | jasper
  /-- A frame of a running restore (R301), sent from Gneiss's node. -/
  | restore (id : Nat)
  deriving DecidableEq, Repr

/-- A receiver of a copy: a link, and for a collective copy the receiving member's endpoint ID and index (R236). -/
abbrev Leg := Nat × Option (Nat × Nat)

/-- Whom a copy is for. -/
inductive Target where
  | link (l : Nat)
  | list (group : Nat)
  | row (tag : Nat)
  | column (tag : Nat)
  /-- Members of a collective context, by its context number and its number among the contexts opened: link, endpoint ID and member
  index of each (R237). -/
  | members (ctx run : Nat) (ms : List (Nat × Nat × Nat))
  deriving DecidableEq, Repr

/-- Where a die's copy of a frame stands. -/
inductive CopyPhase where
  /-- In staging: behind an earlier frame of its link and class (R126), or its length is not yet known (R127). -/
  | held
  /-- In staging, its first cell to cross Agate (R128). -/
  | toCross
  /-- Its first cell crosses, or waits for its stream's order (R151). -/
  | crossing
  /-- Its request is with the allocator (R134). -/
  | asked
  /-- Refused in a lossless class, to ask again (R132). -/
  | refused
  /-- Granted: its cells are reserved. -/
  | granted
  /-- Every cell written; it is on its queues or leaving. -/
  | written
  deriving DecidableEq, Repr

/-- One die's copy of a frame. Its key in `Blk.copies` is 4 × the frame's number + the die. -/
structure CopyRec where
  frame : Frame
  cls : Nat
  node : NodeSrc
  target : Target
  /-- The arrival link, on which no copy leaves but for a reflecting list group (R111). -/
  inLink : Option Nat
  tile : Nat
  ncells : Nat
  phase : CopyPhase
  /-- The stall of R133 has been reported. -/
  stalled : Bool
  /-- Cells sent over Agate, landed, and written into Basalt. -/
  sent : Nat
  landed : Nat
  wrote : Nat
  /-- Receivers not yet enqueued, and references still queued, in transmission or unacknowledged. -/
  todo : List Leg
  refs : Nat
  /-- Its cells of the die's buffer, and whether they are owned by queue references, no longer by the reservation (R139, R144). -/
  cells : List Nat
  enqueued : Bool
  /-- Its first cell is written (R137); its request has been refused since it first asked (R133); its number in its stream
  (R149). -/
  first : Bool
  turned : Bool
  ftag : Nat
  /-- The ingress check failed, known at the tail (R141, R142). -/
  chkFail : Bool
  /-- Cut short (R527): what is left is ended by a stomp. -/
  short : Bool
  /-- A cell of it in the die's buffer cannot be corrected: the frame is stomped as it is sent (R454). -/
  lost : Bool := false
  tag : Option TraceTag
  /-- The TX ring it comes from while its admission is undecided, and whether a two-step timestamp is asked (R476). -/
  tx : Option Nat
  ts : Bool
  deriving DecidableEq, Repr

/-- A frame that crosses to a Garnet or a Gneiss engine of another die: a contribution or a memory request (R24, R27, R30). Its
key in `Blk.transfers` is 4 × the frame's number + the die. -/
structure Transfer where
  tile : Nat
  cls : Nat
  ncells : Nat
  /-- Cells sent, and cells that have reached the engine's die in their order. -/
  sent : Nat
  landed : Nat
  ftag : Nat
  deriving DecidableEq, Repr

/-- A cell on an Agate link or in a landing buffer: the copy or transfer it is of, its number in the frame, and its 32-byte header
(R149). `ready`: its stream's order has been restored up to it (R151). -/
structure AgateCell where
  copy : Nat
  idx : Nat
  cls : Nat
  tile : Nat
  seq : Nat
  head : List Byte
  ready : Bool
  deriving DecidableEq, Repr

/-- One direction of an Agate link: the cells waiting or unacknowledged on it, and the failed replays of the flit in
hand (R150, R152). -/
structure AgateLane where
  cells : List AgateCell
  badReplays : Nat
  deriving DecidableEq, Repr

/-- One direction of a die pair (R150, R151). -/
structure AgateDir where
  /-- Credits held by the sending die, and credits on their way back, per class. -/
  credits : List Nat
  inFlight : List Nat
  pointer : Nat
  /-- The landing buffer. -/
  landing : List AgateCell
  /-- Next stream_seq to send and to release, by source tile. -/
  sendSeq : Tab Nat
  recvSeq : Tab Nat
  /-- Next frame_tag, by source tile (R149). -/
  sendTag : Tab Nat
  deriving DecidableEq, Repr

/-- An Agate direction at reset: the initial grant of 64 (R150). Where its rotating pointer starts the spec does not say: at link 0
(DESIGN CHOICE, log entry 172). -/
def AgateDir.reset : AgateDir :=
  { credits := List.replicate 8 64, inFlight := List.replicate 8 0, pointer := 0, landing := [], sendSeq := [],
    recvSeq := [], sendTag := [] }

/-- A request with a die's allocator: a copy, or a spill request of a tile's engine for the contribution of a frame (R134, R208). -/
inductive Request where
  | copy (key : Nat) | spill (tile frame : Nat)
  deriving DecidableEq, Repr

/-- A cell that is not on the free list: owned by queue references or a spill allocation, or else by a reservation, and the class
it is charged to (R129, R139, R144). -/
structure CellUse where
  queued : Bool
  cls : Nat
  deriving DecidableEq, Repr

/-- The allocator and the books of one die's Basalt buffer (R129, R134, R139, R144 to R146). -/
structure BasaltDie where
  /-- The cells that are not on the free list. -/
  cells : Tab CellUse
  /-- Cells on the free list that are owned all the same, by a fault (R145). -/
  astray : List Nat
  pointer : Nat
  /-- Requests not yet decided, in arrival order: those carried over from an earlier clock, in the order they stood in there, and
  those made since. -/
  carried : List (Nat × Request)
  requests : List (Nat × Request)
  /-- The bytes of the cells, by number; a cell not listed holds zeros (R139). -/
  bytes : Tab (List Byte)
  /-- Cells unowned in the last sweep, and cells found double-owned and reported (R146). -/
  suspects : List Nat
  doubles : List Nat
  deriving DecidableEq, Repr

/-- A die's allocator at reset. Where its rotating pointer stands then the spec does not say: at tile 0 (DESIGN CHOICE, log entry
171). -/
def BasaltDie.reset : BasaltDie :=
  { cells := [], astray := [], pointer := 0, carried := [], requests := [], bytes := [], suspects := [], doubles := [] }

/-- An engine's request for spill cells, made for the contribution of a frame: the cells it still asks for, those granted and not yet
used, whether it has been refused, and which cells were granted (R139, R208, R209). -/
structure SpillAsk where
  frame : Nat
  want : Nat
  got : Nat
  refused : Bool
  cells : List Nat
  deriving DecidableEq, Repr

/-! ### Feldspar (chapter 5) -/

/-- An entry of an egress queue: a reference to a copy, and the receiving member of a collective copy. -/
structure QEntry where
  copy : Nat
  bytes : Nat
  cells : Nat
  dst : Option (Nat × Nat)
  /-- When it was enqueued, in ns since power-on, and the cells then in its queue (R365). -/
  enq : Nat
  depth : Nat
  /-- It leaves with ce set by this switch: its queue stood at the mark when it joined (R86). -/
  ce : Bool
  deriving DecidableEq, Repr

/-- A child of a scheduling node: its tags, its lag, and whether it was eligible when last judged (R164, R165). -/
structure SchedChild where
  start : Nat
  finish : Nat
  lag : Nat
  on : Bool
  /-- The copy whose frame `finish` was computed for. -/
  head : Nat
  deriving DecidableEq, Repr

/-- A scheduling node: its virtual time and its children (R164). -/
structure SchedNode where
  vtime : Nat
  kids : Tab SchedChild
  deriving DecidableEq, Repr

/-- A frame selected and on its way to the transmitter. -/
structure TxRec where
  copy : Nat
  frame : Frame
  cls : Nat
  /-- Its transmission has begun; and then, in Staketu mode, its sequence number and the link word that went before it (R55). -/
  begun : Bool
  word : Option (Nat × BitVec 48)
  /-- Its transmission has been interrupted by an express frame, and the bytes that remained at the start of its present
  fragment (R178). -/
  preempted : Bool
  left : Nat
  enq : Nat
  depth : Nat
  sel : Nat
  ce : Bool
  /-- Its transmit timestamp: the start of its transmission, planned until it has begun, of its first fragment where it is
  preempted, and whether hall time was valid and the tile's copy in step (R354, R356). -/
  start : Nat
  startOk : Bool
  /-- The same start in ns since power-on (R365). -/
  startAt : Nat
  deriving DecidableEq, Repr

/-- A credit-based shaper: its credit in units of 2⁻¹⁶ bit, the time in ns up to which it is counted, and the part of a core
clock of open gate not yet counted (R168). -/
structure Shaper where
  credit : Int
  upTo : Nat
  part : Rat
  deriving DecidableEq, Repr

/-- Feldspar's state of one link beside its registers and queues. -/
structure FeldLink where
  linkNode : SchedNode
  classNodes : Tab SchedNode
  /-- The shapers of its classes (R168). -/
  cbs : Tab Shaper
  /-- Tokens of the TC7 contract, in units of 2⁻¹⁶ bit, and the core clock up to which they are counted; none: full. -/
  tc7 : Option (Int × Nat)
  tx : List TxRec
  /-- Hall time in ns of a committed bank switch (R175). -/
  switchAt : Option Nat
  deriving DecidableEq, Repr

/-- A link's Feldspar state at reset. -/
def FeldLink.reset : FeldLink :=
  { linkNode := ⟨0, []⟩, classNodes := [], cbs := [], tc7 := none, tx := [], switchAt := none }

/-! ### Use of a link (chapter 3) -/

/-- A count kept by snapshot interval: the interval counted in (16 × its index + n of R114), its count, and that of the interval
before (R116). -/
structure Usage where
  slot : Nat
  cur : Nat
  prev : Nat
  deriving DecidableEq, Repr

/-- No use. -/
def Usage.reset : Usage := ⟨0, 0, 0⟩

/-- A spray decision's raising of depths (R108): the core clock it was made in, and the cells placed in it by queue. -/
abbrev Placed := Nat × Tab Nat

/-! ### The table engine (chapter 3) -/

/-- A learn event: source MAC, VLAN and link (R98). -/
structure LearnEvent where
  mac : Nat
  vid : Nat
  link : Nat
  deriving DecidableEq, Repr

/-! ### Garnet (chapter 6) -/

/-- A lane (R197): the flags, whether a finite value has been added, the value in units of the lane's LSB, and whether a
zero that it holds is −0 (R201, R202). -/
structure Lane where
  nan : Bool
  pinf : Bool
  ninf : Bool
  fin : Bool
  val : Int
  negz : Bool
  deriving DecidableEq, Repr

/-- A lane at zero. -/
def Lane.zero : Lane := ⟨false, false, false, false, 0, false⟩

/-- A block of up to 32 lanes: escaped or not (R199), the reference scale of an MX block (R197), and the residue (R211). -/
structure LaneBlock where
  escaped : Bool
  xref : Option Nat
  residue : Nat
  lanes : List Lane
  deriving DecidableEq, Repr

/-- The identity of a chunk: context number, chunk number, epoch (R196). -/
structure ChunkId where
  ctx : Nat
  chunk : Nat
  epoch : Nat
  deriving DecidableEq, Repr

/-- An entry of a chunk table (R194, R195, R216, R217). -/
structure ChunkRec where
  id : ChunkId
  fmt : Nat
  op : Nat
  elems : Nat
  /-- Members of the group at the chunk's epoch. -/
  n : Nat
  /-- Latched from GRN_FMT_CTL. -/
  mxSat : Bool
  e4m3Sat : Bool
  /-- The arrival map, bit m for member m. -/
  arrived : Nat
  /-- Chunk status of R219; 0 while it has not failed. -/
  status : Nat
  blocks : List LaneBlock
  /-- Its lanes lie in Basalt spill cells, how many scratch lines or cells they take, and which cells those are. -/
  spilled : Bool
  lines : Nat
  cells : List Nat
  moved : Bool
  /-- The engine that reduces the audit copy. -/
  audit : Option Nat
  deriving DecidableEq, Repr

/-- A Garnet engine beside its registers. -/
structure Engine where
  /-- Open and failed chunks, and audit copies held for another engine. -/
  chunks : List ChunkRec
  copies : List ChunkRec
  /-- The release log, newest first (R196). -/
  log : List ChunkId
  /-- The substitute fixed on leaving ACTIVE (R214), and whether a residue or audit mismatch was the cause (R215). -/
  subst : Option Nat
  retest : Bool
  /-- Contributions refused for space, by frame (R209). -/
  refused : List Nat
  deriving DecidableEq, Repr

/-- An engine at reset. -/
def Engine.reset : Engine := ⟨[], [], [], none, false, []⟩

/-! ### Collectives (chapter 7) -/

/-- What the collective controller keeps of a group (R224): fenced, the current epoch, and contexts open. -/
structure GroupHw where
  fenced : Bool
  epoch : Nat
  open_ : Nat
  deriving DecidableEq, Repr

/-- A waiting REBIND: its descriptor, the member and its new entry (R241). -/
structure Fence where
  desc : ColDesc
  member : Nat
  entry : Nat
  deriving DecidableEq, Repr

/-- The states of an open context (R243). -/
inductive CtxState where
  | opened | closing | failing
  deriving DecidableEq, Repr

/-- An open context (R240, R243, R252). -/
structure CtxRec where
  kind : Nat
  desc : ColDesc
  epoch : Nat
  /-- Members latched at the open: link and endpoint ID. -/
  members : List (Nat × Nat)
  /-- The group entry latched at the open, bytes 0 to 15 (R224). -/
  entry : Nat
  chunks : Nat
  state : CtxState
  status : Nat
  /-- Marked by a die or tile reset (R413). -/
  marked : Bool
  /-- Its number among the contexts opened, by which its copies and results are told from those of an earlier context of its number
  (R238); and its record is made and held, its work being done (R477). -/
  run : Nat
  recorded : Bool
  /-- Reducing: by chunk, the map of members whose contribution is taken. Otherwise: by member, pieces or arrivals taken. -/
  taken : Tab Nat
  /-- ns since power-on at the open. -/
  openedAt : Nat
  chunksOk : Nat
  flags : Nat
  badStatus : Nat
  badChunk : Nat
  lostCopy : Bool
  /-- The stream to which the group was mapped at the open (R314). -/
  stream : Option Nat
  deriving DecidableEq, Repr

/-- An input of the replication logic: a frame for members or for a group, or a piece that waits in staging under a frame
number (R29). -/
structure ReplItem where
  piece : Option Nat
  target : Target
  frame : Frame
  cls : Nat
  node : NodeSrc
  deriving DecidableEq, Repr

/-- The replication logic of a tile: its three sources, Garnet, restore and pieces, and the source served last (R29). -/
structure ReplTile where
  garnet : List ReplItem
  restore : List ReplItem
  pieces : List ReplItem
  last : Nat
  deriving DecidableEq, Repr

/-- The replication logic at reset. -/
def ReplTile.reset : ReplTile := ⟨[], [], [], 2⟩

/-- A result passed to Shale (R237, R304, R305): its home tile and what its record holds. -/
structure JournalItem where
  tile : Nat
  /-- The number of its context among those opened (R238). -/
  run : Nat
  stream : Option Nat
  fmt : Nat
  op : Nat
  kind : Nat
  group : Nat
  seq : Nat
  epoch : Nat
  flags : Nat
  chunk : Nat
  count : Nat
  chunks : Nat
  n : Nat
  data : List Byte
  deriving DecidableEq, Repr

/-- A host DMA ring beside its registers: entries its head has advanced since it was last cleared, and whether it is pending
(R488). -/
structure RingBook where
  adv : Nat
  pend : Bool
  deriving DecidableEq, Repr

/-! ### Gneiss memory and gateways (chapter 8) -/

/-- A region descriptor (R260), and the region epoch of an absorb region (R289). -/
structure RegionRec where
  valid : Bool
  mode : Nat
  dup : Bool
  rd : Bool
  wr : Bool
  at_ : Bool
  gen : Nat
  owner : Nat
  eid : Nat
  base : Nat
  blocks : Nat
  gw : Nat
  epoch : Nat
  deriving DecidableEq, Repr

/-- A region never defined. -/
def RegionRec.reset : RegionRec := ⟨false, 0, false, false, false, false, 0, 0, 0, 0, 0, 0, 0⟩

/-- A zeroing sweep under way: the generation it clears, and the store blocks it visits (R264). -/
structure Sweep where
  gen : Nat
  base : Nat
  blocks : Nat
  deriving DecidableEq, Repr

/-- The metadata of a line (R259, R290), its poison and the retirement of its row (R451). -/
structure LineMeta where
  written : Bool
  region : Nat
  gen : Nat
  epoch : Nat
  poison : Bool
  retired : Bool
  deriving DecidableEq, Repr

/-- A line never written. -/
def LineMeta.reset : LineMeta := ⟨false, 0, 0, 0, false, false⟩

/-- A request that a Gneiss engine has taken, less its payload (R266, R267, R271). -/
structure MemReq where
  tile : Nat
  die : Nat
  src : Nat
  eid : Nat
  opcode : Nat
  tc : Nat
  area : Nat
  remaining : Nat
  status : Nat
  prior : List Byte
  nwAny : Bool
  nwAll : Bool
  copy2 : Bool
  bucket : Nat
  deriving DecidableEq, Repr

/-- An entry of a die's update queue: one line of a store or atomic (R272, R273). -/
structure UpdEntry where
  req : Nat
  tile : Nat
  region : Nat
  gen : Nat
  line : Nat
  opcode : Nat
  lo : Nat
  data : List Byte
  /-- The store line of the line's first copy. -/
  store : Nat
  deriving DecidableEq, Repr

/-- A line held in a die's hot-line buffer (R273): the store lines of its copies, and what will be written back to them. -/
structure HotLine where
  die : Nat
  copies : List Nat
  region : Nat
  gen : Nat
  epoch : Nat
  bytes : List Byte
  deriving DecidableEq, Repr

/-- Who hears of a job's end: a CPL ring, or the engine for a shard's drain (R281, R296). -/
inductive JobOwner where
  | ring (cring tag : Nat) | shard (i : Nat)
  deriving DecidableEq, Repr

/-- A Gneiss job (R281). -/
structure GwJob where
  region : Nat
  offset : Nat
  length : Nat
  roff : Nat
  owner : JobOwner
  deriving DecidableEq, Repr

/-- The job that runs: the region's generation at its start, its last PSN, and the bytes acknowledged. -/
structure GwRun where
  job : GwJob
  gen : Nat
  last : Nat
  acked : Nat
  deriving DecidableEq, Repr

/-- A pass-through store that awaits its acknowledgement (R276). -/
structure GwStore where
  req : MemReq
  last : Nat
  deriving DecidableEq, Repr

/-- A packet sent and not acknowledged: its PSN, its payload bytes, and whether they are the running job's. -/
structure GwPacket where
  psn : Nat
  frame : Frame
  bytes : Nat
  job : Bool
  tile : Nat
  deriving DecidableEq, Repr

/-- A gateway entry (R277), and the gateway's transport state (R278, R279). -/
structure GwRec where
  valid : Bool
  v6 : Bool
  state : Nat
  nh : Nat
  dqpn : Nat
  sqpn : Nat
  rkey : Nat
  rva : Nat
  dip : Nat
  sip : Nat
  pmtu : Nat
  retryCnt : Nat
  timeout : Nat
  rnrRetry : Nat
  rate : Nat
  psn : Nat
  tries : Nat
  rnrTries : Nat
  /-- The PSN from which to resend when the RNR timer expires. -/
  rnrFrom : Option Nat
  /-- The present rate in Gb/s. -/
  cur : Rat
  jobs : List GwJob
  running : Option GwRun
  stores : List GwStore
  sent : List GwPacket
  deriving DecidableEq, Repr

/-- A gateway never set. -/
def GwRec.reset : GwRec :=
  { valid := false, v6 := false, state := 0, nh := 0, dqpn := 0, sqpn := 0, rkey := 0, rva := 0, dip := 0, sip := 0, pmtu := 0,
    retryCnt := 0, timeout := 0, rnrRetry := 0, rate := 0, psn := 0, tries := 0, rnrTries := 0, rnrFrom := none, cur := 0,
    jobs := [], running := none, stores := [], sent := [] }

/-! ### Checkpoints and Shale (chapter 9) -/

/-- A shard entry (R288), the ring and tag of its OPEN (R299), the byte position of a running mirror, and its drain. -/
structure ShardRec where
  state : Nat
  mirror : Bool
  drain : Bool
  parallel : Bool
  notify : Nat
  region : Nat
  offset : Nat
  length : Nat
  ckpt : Nat
  nEid : Nat
  sepoch : Nat
  nOff : Nat
  nTag : Nat
  pEid : Nat
  gw : Nat
  pRegion : Nat
  pTag : Nat
  pOff : Nat
  rOff : Nat
  lines : Nat
  err : Nat
  cring : Nat
  tag : Nat
  mpos : Option Nat
  drainStarted : Bool
  drainRuns : Bool
  deriving DecidableEq, Repr

/-- A FREE shard entry. -/
def ShardRec.reset : ShardRec :=
  { state := 0, mirror := false, drain := false, parallel := false, notify := 0, region := 0, offset := 0, length := 0, ckpt := 0,
    nEid := 0, sepoch := 0, nOff := 0, nTag := 0, pEid := 0, gw := 0, pRegion := 0, pTag := 0, pOff := 0, rOff := 0, lines := 0,
    err := 0, cring := 0, tag := 0, mpos := none, drainStarted := false, drainRuns := false }

/-- What a WRITE of the spine's own is for (R294, R295, R309). -/
inductive OwnKind where
  | mirror (shard : Nat) | notify (shard : Nat) | replay (id : Nat)
  deriving DecidableEq, Repr

/-- A WRITE of the spine's own, not yet answered. -/
structure OwnWrite where
  kind : OwnKind
  tile : Nat
  dst : Nat
  frame : Frame
  tries : Nat
  deriving DecidableEq, Repr

/-- A RESTORE that runs (R301 to R303). -/
structure RestoreRec where
  cring : Nat
  tag : Nat
  region : Nat
  gen : Nat
  mcast : Bool
  piece : Nat
  offset : Nat
  length : Nat
  dest : Nat
  destOff : Nat
  destTag : Nat
  pos : Nat
  frames : Nat
  skipped : Nat
  /-- The generation of its region has changed while it ran (R303). -/
  changed : Bool
  deriving DecidableEq, Repr

/-- A REPLAY that runs (R309): where it stands in the stream, what it has read and not sent, the bytes sent, and the status
with which it has stopped. -/
structure ReplayRec where
  cring : Nat
  tag : Nat
  stream : Nat
  region : Nat
  gen : Nat
  pos : Nat
  endPos : Nat
  group : Nat
  member : Nat
  dest : Nat
  destOff : Nat
  destTag : Nat
  destLen : Nat
  buf : List Byte
  sent : Nat
  ended : Option Nat
  deriving DecidableEq, Repr

/-- A journal stream beside its registers: records not yet visible, the kept marks, oldest first, and the results lost since
ovf was set: group and sequence number of the first, and how many (R305 to R307). -/
structure StreamRec where
  waiting : List (List Byte)
  marks : List Nat
  lost : Option (Nat × Nat × Nat)
  deriving DecidableEq, Repr
/-! ### The by-pass router (chapter 10) -/

/-- A ring of the Foiraeth router and its directory entry (R328, R330, R343). -/
structure FoiRing where
  heater : Nat
  lockErr : Nat
  rstate : Nat
  drop : Nat
  dstate : Nat
  holder : Nat
  seq : Nat
  deriving DecidableEq, Repr

/-- A ring at reset: OFF, no light, its directory entry FREE (R340). -/
def FoiRing.reset : FoiRing := ⟨0, 0, 0, 0x8000, 0, 0, 0⟩

/-! ### Images (chapter 12) -/

/-- A tile load between its first step and its last (R397): the tile, the links that were enabled, and whether step 3 is done,
with no reset of the tile since. -/
structure TileLoadRec where
  tile : Nat
  links : List Nat
  filled : Bool
  deriving DecidableEq, Repr

/-- A roll in progress (R398): the new slot, the groups still to be loaded, and the links of the last group that were UP
before it. -/
structure RollRec where
  slot : Nat
  groups : List (List Nat)
  upLinks : List Nat
  deriving DecidableEq, Repr

/-! ### Resets and power (chapter 13) -/

/-- A reset in progress (R402, R409): its level, its target, whether it has been released and now reloads, and when it was
requested, in ns since the first reset (R404). -/
structure ResetRun where
  level : Nat
  die : Nat
  tile : Nat
  released : Bool
  start : Nat
  /-- The management cores are reset with it: it took over a mgmt reset (R404). -/
  cores : Bool
  deriving DecidableEq, Repr

/-! ### Obsidian (chapter 14) -/

/-- The fuses (R432, R434, R436, R446, R459). -/
structure Fuses where
  /-- The life-cycle state. -/
  lc : Nat
  /-- The device secret: none, the number of the secret generated, and whether the fuse that destroys it is programmed. -/
  secret : Option Nat
  destroyed : Bool
  /-- Key hashes by slot, and the slots revoked. -/
  keys : Tab Nat
  revoked : Nat
  /-- Minimum security versions, components 0 to 2. -/
  svn : List Nat
  /-- Reset levels fused, by source. -/
  levels : Tab Nat
  /-- Fused SRAM repairs. -/
  repairs : Nat
  /-- Banks spoiled by an uncommitted record: key slot s at s, life-cycle steps at 16 + state, sources at 32 + source. -/
  spoiled : Tab Nat
  devId : Nat
  deriving DecidableEq, Repr

/-- Unprogrammed fuses. -/
def Fuses.blank : Fuses :=
  { lc := 0, secret := none, destroyed := false, keys := [], revoked := 0, svn := [0, 0, 0], levels := [], repairs := 0,
    spoiled := [], devId := 0 }

/-! ### Host and management interfaces (chapter 15) -/

/-- A frame in the host receive buffer: its ring, its bytes (R472), class, why it comes, arrival link, and its timestamp
record where it has one (R356). -/
structure HostFrame where
  ring : Nat
  bytes : List Byte
  tc : Nat
  why : Nat
  link : Nat
  ts : Option (List Byte)
  deriving DecidableEq, Repr

/-- A frame that a TX ring has put before an allocator: its number, and its descriptors (R476). -/
structure TxWork where
  frame : Nat
  descs : Nat
  deriving DecidableEq, Repr

/-- A mailbox or recovery request taken and not answered (R481, R482, R496); `aborted`: the management cores have left a
reset since (R484). -/
structure MbxReq where
  seq : Nat
  cmd : Nat
  payload : List Byte
  aborted : Bool
  deriving DecidableEq, Repr

/-- The recovery framing of the debug UART (R496): the four counters, the requests taken, and the last response. -/
structure UartRec where
  taken : Nat
  done : Nat
  sent : Nat
  reqs : List MbxReq
  last : Option (List Byte)
  deriving DecidableEq, Repr

/-- The PTP firmware's settings (R351, R485): the thresholds, whether time comes from PPS_IN, and the time of day given for
the next edge. -/
structure TimeCfg where
  lockNs : Nat
  lockSyncs : Nat
  stepNs : Nat
  stepSyncs : Nat
  maxRate : Nat
  ppsIn : Bool
  tod : Option Nat
  deriving DecidableEq, Repr

/-- A master that has announced itself: its instance, the link it was heard on, how it compares, and until when, in ns since power-on,
it counts unless it is heard again (R357). -/
structure PtpMaster where
  domain : Nat
  link : Nat
  rank : Nat
  until_ : Nat
  deriving DecidableEq, Repr

/-- A Delay_Req or Pdelay_Req that has left: its instance, link, messageType and sequenceId, and its transmit time in units of
2⁻¹⁶ ns (R356, R357). -/
structure DelayReq where
  domain : Nat
  link : Nat
  kind : Nat
  seq : Nat
  sent : Int
  deriving DecidableEq, Repr

/-- A two-step Pdelay_Resp whose Follow_Up is awaited: its instance, link and sequenceId, the time that has passed since its request
left, and its requestReceiptTimestamp, less and plus what their corrections say, in units of 2⁻¹⁶ ns. -/
structure PeerResp where
  domain : Nat
  link : Nat
  seq : Nat
  passed : Int
  received : Int
  deriving DecidableEq, Repr

/-- The PTP firmware's memory (R351, R357): its instances by domainNumber, the first of which disciplines Quartz; the masters
heard; the port followed; the Sync whose Follow_Up is awaited, by its sequenceId, and its corrected receive time; the run of
estimates that hold within lock_ns of its first; the run of those beyond step_ns; whether the estimate is unverified
(R355); and of the delay mechanisms (R357): the last request sent on each port, the answers half received, what the last Sync took to
come, and the mean path delay of each link where it has been measured. -/
structure ServoRec where
  domains : List Nat
  masters : List PtpMaster
  slave : Option Nat
  sync : Option (Nat × Int)
  near : Nat
  first : Int
  far : Nat
  unverified : Bool
  sent : List DelayReq
  peers : List PeerResp
  took : Option Int
  delays : Tab Int
  deriving DecidableEq, Repr

/-- Nothing heard yet. -/
def ServoRec.reset : ServoRec := ⟨[], [], none, none, 0, 0, 0, false, [], [], none, []⟩

/-- The settings' reset values (R485). -/
def TimeCfg.reset : TimeCfg := ⟨100, 8, 1000, 16, 4295, false, none⟩

/-- An I²C controller beside its registers: its FIFOs, whether a clear failed, and whether a byte has been read since its reset
(R489, R490, R502). -/
structure I2cRec where
  tx : List Byte
  rx : List Byte
  refuses : Bool
  popped : Bool
  deriving DecidableEq, Repr

/-- An idle controller. -/
def I2cRec.reset : I2cRec := ⟨[], [], false, false⟩

/-- A pin whose function switches (R493): the level held if it was driven, the old function, the pad's level where it has
changed unseen, and the latest write during the switch. -/
structure PinSwitch where
  drives : Option Bool
  old : Nat
  pad : Option Bool
  next : Option Nat
  deriving DecidableEq, Repr


/-! ### Records (chapters 14 and 15) -/

/-- A record on its way to a CPL ring: its kind and its bytes (R477). -/
structure CplRec where
  kind : Nat
  bytes : List Byte
  deriving DecidableEq, Repr

/-- What waits at its last step for a held record to be placed (R477): nothing; a descriptor that opened no context, with its status;
a context, by its number; a command of the checkpoint command queue; a record of a table engine path; a job's gateway. -/
inductive HeldWork where
  | none
  | desc (d : ColDesc) (status : Nat)
  | ctx (k : Nat)
  | ckp
  | table (ring : Nat)
  | job (gw : Nat)
  deriving DecidableEq, Repr

/-- A record that its producer holds while the pending buffer is full (R477): its CPL ring, itself, and what waits for it. -/
structure HeldRec where
  ring : Nat
  rec_ : CplRec
  work : HeldWork
  deriving DecidableEq, Repr

/-- The last record written of a CE error, into which like events are merged: its block, instance and code, its log entry,
and when it was written (R457). -/
structure ErrKey where
  block : Nat
  inst : Nat
  code : Nat
  slot : Nat
  at_ : Nat
  deriving DecidableEq, Repr

/-- A software reset that the management firmware requests (R455): level, die and tile as in RSTC_SWRST. -/
structure ResetWish where
  level : Nat
  die : Nat
  tile : Nat
  deriving DecidableEq, Repr

/-! ### What leaves the block -/

/-- The types of link control frame the block sends (R51). -/
inductive LcfType where
  | cap | credit | audit | resyncReq | resyncMark | resyncAck | kaReq | kaAck | wake
  deriving DecidableEq, Repr

/-- Output pins whose changes are told. -/
inductive OutPin where
  | elsEn (module : Nat) | ppsOut | thermtrip
  deriving DecidableEq, Repr

/-- What the block sends out. -/
inductive Output where
  /-- A link control frame on a link, with its link word in Staketu mode (R50, R55). -/
  | lcf (link : Nat) (word : Option (BitVec 48)) (frame : Frame)
  /-- A data frame on a link, its link word in Staketu mode, and whether it is stomped (R55, R143). -/
  | frame (link : Nat) (word : Option (BitVec 48)) (frame : Frame) (stomp : Bool)
  /-- A PFC frame: the class, and its pause time in quanta (R70). -/
  | pfc (link cls quanta : Nat)
  /-- A keepalive word on the lowest lane: the wake flag and its CRC-8 (R67). -/
  | keepalive (link : Nat) (wake : Bool) (check : BitVec 8)
  /-- A frame in transmission is preempted by an express frame (R178). -/
  | preempt (link : Nat)
  /-- What a link sends in die-side near-end loopback, and what it sends back of received data in far-end loopback (R74). -/
  | nearEnd (o : Output)
  | farEnd (link : Nat) (word : Option (BitVec 48)) (frame : Frame)
  /-- The completion of a table record of the management cores' own queue: tag, status, entries applied (R104). -/
  | tableDone (tag status applied : Nat)
  /-- The DMA engine writes host memory, or management memory (R468). -/
  | dmaWrite (mgmt : Bool) (addr : Nat) (bytes : List Byte)
  /-- What a read returns. -/
  | data (value : Nat)
  /-- A pin changes its level. -/
  | pin (p : OutPin) (level : Bool)
  /-- A pin becomes high-impedance. -/
  | floats (p : OutPin)
  /-- A frame of the debug UART's recovery framing (R496). -/
  | uart (bytes : List Byte)
  /-- A transfer of an I²C controller begins: address, the bytes written, and how many are to be read (R489). -/
  | i2c (ctrl addr : Nat) (bytes : List Byte) (rd : Nat)
  /-- What the SMBus target returns (R491). -/
  | smbus (bytes : List Byte)
  /-- What the JTAG data register shifts out (R495). -/
  | jtag (value : Nat)
  /-- An MSI-X message of a vector (R487). -/
  | msix (vector : Nat)
  /-- An interrupt source, or a ring of side 1, interrupts the management cores (R487, R488). -/
  | mgmtIrq (source : Nat)
  | mgmtRing (ring : Nat)
  deriving DecidableEq, Repr

/-! ### The block -/

set_option maxRecDepth 2000 in
/-- The state of the block, its queue and its fuses apart. -/
structure Blk where
  /-- Every register field, keyed by index and field (see `Blk.fld`). -/
  fields : Tab Nat
  links : Tab LinkRec
  /-- The four dies' forwarding table copies: raw entries keyed by die, table and index (R88). -/
  tables : Tab Nat
  /-- Learn events waiting (R102). -/
  learn : List LearnEvent
  /-- By table, when its lock was last taken, in ns since the first reset (R101). -/
  lockAt : Tab Nat
  /-- Rotating pointers of the spray sets, keyed by tile and set (R107). -/
  sprayPtr : Tab Nat
  /-- By tile, the cells that its pipeline has placed by spraying in the present core clock (R108). -/
  placed : Tab Placed
  /-- Frames, their copies, their crossings to the engines of other dies (R24, R27, R30), and the number of the next frame. -/
  frames : Tab FrameRec
  copies : Tab CopyRec
  transfers : Tab Transfer
  nextFrame : Nat
  agateLanes : Tab AgateLane
  agateDirs : Tab AgateDir
  basalt : Tab BasaltDie
  spills : Tab (List SpillAsk)
  queues : Tab (List QEntry)
  /-- Peak-rate bucket of a queue: tokens and the core clock up to which they are counted; unlisted: full (R167). -/
  buckets : Tab (Int × Nat)
  feld : Tab FeldLink
  engines : Tab Engine
  /-- The four dies' group and member table copies: 4,096 × die + group, bytes 0 to 15 as one number; 65,536 × die + entry. -/
  groups : Tab Nat
  members : Tab Nat
  groupHw : Tab GroupHw
  fences : Tab Fence
  /-- Open contexts by context number (R227). -/
  contexts : Tab CtxRec
  repl : Tab ReplTile
  journal : List JournalItem
  /-- By link and snapshot interval: bytes sent, and frames dropped on egress (R116). -/
  linkBusy : Tab Usage
  linkDrops : Tab Usage
  /-- max_frame of the loaded image (R83), and its link control EtherType (R50). -/
  imgMaxFrame : Nat
  imgLcf : Nat
  /-- The number of the last congestion map snapshot, and the frame that exported it (R115, R117). -/
  cmapSeq : Nat
  cmapFrame : Option Nat
  /-- Hall time in ns from which the next instant of R114, and the next whole second of PPS_OUT (R359), are sought (R352). -/
  cmapFrom : Nat
  ppsFrom : Nat
  /-- The idle-slot test of the engine in turn has ended in its share (R218). -/
  istOver : Bool
  /-- Quartz's signed 96-bit offset, modulo 2⁹⁶ (R347). -/
  qOffset : Nat
  /-- HBM: bytes by store address, 4,096 × store block + byte, and the metadata of lines by store line (R257, R259). -/
  hbm : Tab Byte
  lineMeta : Tab LineMeta
  /-- Store blocks whose copy is stale (R275). -/
  stale : Tab Bool
  regions : Tab RegionRec
  sweeps : Tab Sweep
  /-- The command that GNS_CMD runs: op and index (R263). -/
  gnsCmd : Option (Nat × Nat)
  /-- Update queues by die, and the requests they serve (R272). -/
  updates : Tab (List UpdEntry)
  /-- The hot-line buffers, by the store line of a line's first copy (R273). -/
  hot : Tab HotLine
  /-- Requests taken and not answered, and the number of the next. -/
  requests : Tab MemReq
  nextReq : Nat
  /-- Requests in staging that found no entry; and ordered stores in staging, with their bucket and the count applied that they
  wait for (R271, R272). -/
  memWait : List Nat
  ordWait : Tab (Nat × Nat)
  /-- Stores and atomics taken and applied, by 4,096 × tile + bucket (R271). -/
  ordTaken : Tab Nat
  ordApplied : Tab Nat
  gateways : Tab GwRec
  shards : Tab ShardRec
  /-- WRITEs of the spine's own by req_id, and the next req_id. -/
  ownWrites : Tab OwnWrite
  nextOwn : Nat
  /-- The mirroring shards that have sent a frame in the present round of turns (R295). -/
  mirrorSent : List Nat
  restores : Tab RestoreRec
  replays : Tab ReplayRec
  nextWork : Nat
  streams : Tab StreamRec
  rings : Tab RingBook
  /-- Tails of the collective command queues (R479), and PCI Express Bus Master Enable (R467). -/
  cqTail : Tab Nat
  busMaster : Bool
  /-- Records waiting for their CPL rings, by ring, oldest first (R477). -/
  cplWait : Tab (List CplRec)
  /-- Records that their producers hold while the pending buffer is full, oldest first (R477). -/
  cplHeld : List HeldRec
  /-- CE records written within the last second (R457), and resets the firmware is to request (R455). -/
  recentCe : List ErrKey
  wishes : List ResetWish
  /-- Lanes that wait to sweep, 64 × tile + lane (R322, R447). -/
  sweepWait : List Nat
  /-- The by-pass rings (R328, R330, R343). -/
  foi : Tab FoiRing
  /-- The command that FOI_CMD runs: op and ring (R331). -/
  foiCmd : Option (Nat × Nat)
  /-- The loops of MICA0's and of MICA1's rings: 0 OFF, 1 running, 2 HOLD (R345), and when the present hold began, in ns
  since power-on (R341). -/
  foiHalves : List Nat
  foiHold : Option Nat
  /-- A committed step, modulo 2⁹⁶ (R350). -/
  qStep : Nat
  /-- The level of PPS_OUT, and the ns since power-on at which it last rose (R359). -/
  ppsOut : Bool
  ppsRose : Nat
  /-- Transmit timestamp FIFOs by tile, oldest first (R356). -/
  txts : Tab (List (List Byte))
  /-- The counter snapshot in progress: its groups, and whether it has been latched; and the shadow values by BAR0
  address (R361, R362). -/
  snap : Option (Nat × Bool)
  shadow : Tab Nat
  /-- By tile: the LFSR where it has stepped since its seed was last set, the next tag, the buffered trace records,
  oldest first, and the millisecond since power-on last delivered in with the records delivered in it (R364, R367). -/
  trcLfsr : Tab (Option Nat)
  trcNext : Tab Nat
  trcBuf : Tab (List (List Byte))
  trcRate : Tab (Nat × Nat)
  /-- Margin monitors not re-armed: bit 0 warn, bit 1 alarm (R369). -/
  mrgFired : Tab Nat
  /-- The command that IMG_CMD runs: op and arguments (R394). -/
  imgCmd : Option (Nat × Nat × Nat)
  /-- The staging window, the SPI flash, and the RAM stage (R384, R401). -/
  window : Tab Byte
  flash : Tab Byte
  ramStage : Tab Byte
  /-- The length given to DL_BEGIN, and the parts of the running set that come from the RAM stage, numbered as in
  `heldDigests` (R388, R394). -/
  dlLength : Nat
  ramParts : List Nat
  /-- Digests held since the start: of tile t's section at t, of the management firmware at 32, of controller c's at 33
  + c (R393). -/
  heldDigests : Tab (List Nat)
  roll : Option RollRec
  /-- The tile load of the running TILE_LOAD (R397). -/
  tileLoading : Option TileLoadRec
  /-- What is loaded of the Plaper image: the digest of tile t's TILE section at t, and of the LAYOUT section at 32; none for a tile
  that a failed load left dark (R380, R393). -/
  loaded : Tab (Option Nat)
  /-- The record sectors as they stood before the boot ROM wrote them, until the load begins (R400). -/
  bootWrite : Option (Tab Byte)
  /-- Resets in progress (R404), and a start of the boot ROM still to be made (R388). -/
  resets : List ResetRun
  startDue : Bool
  /-- The next start follows a cold reset (R442). -/
  coldStart : Bool
  /-- Dies whose table copies are being reloaded (R414). -/
  tableLoads : List Nat
  /-- Records of the management cores' own queue that wait for them (R414). -/
  tblWaits : List TblRecord
  /-- Switched domains that have reached ON and load once their die's table copies are back, in order, and whether the flash
  answers them (R414, R423). -/
  loadDue : List (Nat × Bool)
  /-- Half of the watchdog's count has passed since it was restarted (R407). -/
  wdtHalf : Bool
  /-- RESET_N is low; CLK_MODE as sampled (R427); the hold of R505 lasts; the thermal trip has fired (R520). -/
  resetLow : Bool
  clkMode : Nat
  powerHold : Bool
  tripped : Bool
  /-- Domains that wait for their power-up turn (R422), and links on which S1 wrote ka_req (R424). -/
  powerQueue : List Nat
  sleepKa : List Nat
  /-- Records owed for a reset, written at image running (R311). -/
  owed : List (Nat × CplRec)
  /-- The command that OBS_CMD runs: op, index and path (R434). -/
  obsCmd : Option (Nat × Nat × Path)
  /-- The domain under BIST (R443). -/
  bist : Option Nat
  /-- Obsidian refuses ATTEST and fuse commands (R454); a FATAL record since the last start (R492). -/
  obsRefuses : Bool
  fatal : Bool
  /-- Soft repairs not yet permanent, of SRAM and of HBM (R446). -/
  softSram : Nat
  softHbm : Nat
  /-- Rows of 32 Basalt cells, by die and number, queued for soft repair at their tile's next BIST (R454). -/
  rowsDue : List (Nat × Nat)
  /-- The host receive buffer, in order of arrival (R474), and the frames of TX rings before an allocator (R476). -/
  hostRx : List HostFrame
  hostTx : Tab TxWork
  /-- The mailbox requests taken and not answered (R483). -/
  mbxReqs : List MbxReq
  /-- Error records whose EVENT message is not posted yet, oldest first (R483, R485). -/
  mbxEvents : List (List Byte)
  /-- The recovery framing (R496), the PTP firmware's settings (R485), and its masters and estimates (R351, R357). -/
  uart : UartRec
  timeCfg : TimeCfg
  servo : ServoRec
  /-- Words of the MSI-X table by BAR4 offset, where they differ from their reset values (R466). -/
  msixTab : Tab Nat
  /-- The JOB ring whose job was taken last (R469). -/
  jobTurn : Option Nat
  i2c : Tab I2cRec
  pinSwitches : Tab PinSwitch
  /-- The JTAG boundary and instruction registers (R495). -/
  boundary : Nat
  jtagIr : Nat
  /-- High words latched by a read of the low word, and low words held by a write, by BAR0 address (R11). -/
  hiLatch : Tab Nat
  loHeld : Tab Nat
  /-- ns since the first reset. -/
  now : Nat
  /-- Free values handed out (see `Config.freeValue`). -/
  fresh : Nat
  /-- What has been sent, newest first. -/
  out : List Output
  deriving DecidableEq, Repr

/-- The block's state: the block, its fuses, and the commands that wait, first in first out. -/
structure State where
  blk : Blk
  fuses : Fuses
  pending : List Instr
  deriving DecidableEq, Repr

/-- The block right after reset. -/
def Blk.reset : Blk :=
  { fields := [], links := [], tables := [], learn := [], lockAt := [], sprayPtr := [], placed := [], frames := [], copies := [],
    transfers := [], nextFrame := 0, agateLanes := [], agateDirs := [], basalt := [], spills := [], queues := [], buckets := [],
    feld := [], engines := [], groups := [], members := [], groupHw := [], fences := [], contexts := [], repl := [], journal := [],
    linkBusy := [], linkDrops := [], imgMaxFrame := 9216, imgLcf := 0x88B6, cmapSeq := 0, cmapFrame := none, cmapFrom := 0, ppsFrom
    := 0, istOver := false, qOffset := 0, hbm := [], lineMeta := [], stale := [], regions := [], sweeps := [], gnsCmd := none,
    updates := [], hot := [], requests := [], nextReq := 0, memWait := [], ordWait := [], ordTaken := [], ordApplied := [],
    gateways := [], shards := [], ownWrites := [], nextOwn := 0, mirrorSent := [], restores := [], replays := [], nextWork := 0,
    streams := [], rings := [], cqTail := [], busMaster := false, cplWait := [], cplHeld := [], recentCe := [], wishes := [],
    sweepWait := [], foi := [], foiCmd := none, foiHalves := [0, 0], foiHold := none, qStep := 0, ppsOut := false, ppsRose := 0,
    txts := [], snap := none, shadow := [], trcLfsr := [], trcNext := [], trcBuf := [], trcRate := [], mrgFired := [], imgCmd :=
    none, window := [], flash := [], ramStage := [], dlLength := 0, ramParts := [], heldDigests := [], roll := none, tileLoading := none, loaded := [], bootWrite := none, resets := [],
    startDue := true, coldStart := true, tableLoads := [], tblWaits := [], loadDue := [], wdtHalf := false, resetLow := false, clkMode := 0,
    powerHold := false, tripped := false, powerQueue := [], sleepKa := [], owed := [], obsCmd := none, bist := none, obsRefuses :=
    false, fatal := false, softSram := 0, softHbm := 0, rowsDue := [], hostRx := [], hostTx := [], mbxReqs := [], mbxEvents := [], uart := ⟨0, 0,
    0, [], none⟩, timeCfg := TimeCfg.reset, servo := .reset, msixTab := [], jobTurn := none, i2c := [], pinSwitches := [], boundary
    := 0, jtagIr := 0x01, hiLatch := [], loHeld := [], now := 0, fresh := 0, out := []}

/-- The machine right after reset: nothing is waiting. -/
def State.reset : State := { blk := Blk.reset, fuses := Fuses.blank, pending := [] }

end Sys2Proof.Machine
end

