-- ==== Sys2Proof/Machine/Ops.lean ====
section
/-!
DEFINITION. The named operations over the block's state: register fields, counters, events, outputs, and the
records of the numbered objects.
-/

namespace Sys2Proof.Machine

/-- The outcome of a command whose effect on the block is `f`: a next state, its queue as it was. -/
def run (f : Blk → Blk) (s : State) : Host.Outcome State Fault Refusal := .next { s with blk := f s.blk }

/-! ### Lists of eight classes -/

/-- The entry of a per-class list. -/
def vget (v : List Nat) (c : Nat) : Nat := v.getD c 0

/-- A per-class list with one entry changed. -/
def vset (v : List Nat) (c n : Nat) : List Nat := v.set c n

/-- A per-class list with one entry raised. -/
def vadd (v : List Nat) (c n : Nat) : List Nat := v.set c (v.getD c 0 + n)

/-- A per-class list with one entry lowered, not below 0. -/
def vsub (v : List Nat) (c n : Nat) : List Nat := v.set c (v.getD c 0 - n)

/-- Zero in every class. -/
def vzero : List Nat := List.replicate 8 0

/-! ### Register fields -/

/-- The key of field `f` of copy `i` of its register. -/
def fkey (f : Fld) (i : Nat) : Nat := i * 1024 + f.ctorIdx

/-- An engine's spill request (R208). -/
def Request.isSpill : Request → Bool
  | .spill _ _ => true
  | .copy _ => false

/-- The instructions of the JTAG port (R495). -/
inductive JtagInstr where
  | bypass | idcode | sample | extest | transport | access | obsidian | resetReq | scan
  deriving DecidableEq, Repr

/-- The code of an instruction (R495). -/
def JtagInstr.code : JtagInstr → Nat
  | .bypass => 0xFF
  | .idcode => 0x01
  | .sample => 0x02
  | .extest => 0x00
  | .transport => 0x10
  | .access => 0x11
  | .obsidian => 0x12
  | .resetReq => 0x20
  | .scan => 0x30

/-- The instruction that an 8-bit code picks: every other code is BYPASS (R495). -/
def jtagInstr (code : Nat) : JtagInstr :=
  (([.idcode, .sample, .extest, .transport, .access, .obsidian, .resetReq, .scan] : List JtagInstr).find?
    fun i => i.code = code % 256).getD .bypass

namespace Blk

/-- A register field's value. -/
def fld (s : Blk) (f : Fld) (i : Nat) : Nat := s.fields.get (f.resetAt i) (fkey f i)

/-- Write a register field, cut to its width. -/
def setFld (s : Blk) (f : Fld) (i v : Nat) : Blk :=
  { s with fields := s.fields.set (f.resetAt i) (fkey f i) (v % 2 ^ f.info.width) }

/-- A one-bit field is 1. -/
def flag (s : Blk) (f : Fld) (i : Nat) : Bool := s.fld f i ≠ 0

/-- Bit `b` of a field is 1. -/
def bit (s : Blk) (f : Fld) (i b : Nat) : Bool := (s.fld f i).testBit b

/-- Set bits of a field. -/
def orFld (s : Blk) (f : Fld) (i v : Nat) : Blk := s.setFld f i (s.fld f i ||| v)

/-- Write one bit of a field. -/
def setBit (s : Blk) (f : Fld) (i b : Nat) (v : Bool) : Blk :=
  s.setFld f i (if v then s.fld f i ||| 2 ^ b else s.fld f i &&& (2 ^ f.info.width - 1 - 2 ^ b))

/-- Put a field back to its reset value. -/
def clrFld (s : Blk) (f : Fld) (i : Nat) : Blk := { s with fields := s.fields.del (fkey f i) }

/-- A message leaves the block. -/
def emit (s : Blk) (o : Output) : Blk := { s with out := o :: s.out }

/-- The enable register and the interrupt source of an event register (R486). -/
def irqOf (r : Reg) (i : Nat) : Option (Fld × Nat × Nat) :=
  match r with
  | .TIL_LNK_INT => some (.TIL_LNK_INT_EN_bits, i, i / 32)
  | .FLD_INT => some (.FLD_INT_EN_bits, i, 0x20 + i)
  | .GRN_INT => some (.GRN_INT_EN_bits, i, 0x40 + i)
  | .MICA_OE_INT => some (.MICA_OE_INT_EN_bits, i, 0x60 + i)
  | .BSL_INT => some (.BSL_INT_EN_bits, i, 0x80 + i)
  | .D2D_PAIR_INT => some (.D2D_PAIR_INT_EN_bits, i, 0x84 + i)
  | .COL_INT => some (.COL_INT_EN_bits, 0, 0x8A)
  | .GNS_INT => some (.GNS_INT_EN_bits, 0, 0x8B)
  | .GNS_CKP_INT => some (.GNS_CKP_INT_EN_bits, 0, 0x8B)
  | .SHL_INT => some (.SHL_INT_EN_bits, 0, 0x8C)
  | .MICA_ELS_INT => some (.MICA_ELS_INT_EN_bits, 0, 0x8D)
  | .FOI_INT => some (.FOI_INT_EN_bits, 0, 0x8D)
  | .QTZ_INT => some (.QTZ_INT_EN_bits, 0, 0x8E)
  | .JSP_INT => some (.JSP_INT_EN_bits, 0, 0x8F)
  | .IMG_INT => some (.IMG_INT_EN_bits, 0, 0x90)
  | .RSTC_INT => some (.RSTC_INT_EN_bits, 0, 0x91)
  | .PWR_INT => some (.PWR_INT_EN_bits, 0, 0x92)
  | .OBS_INT => some (.OBS_INT_EN_bits, 0, 0x93)
  | .MGT_ERR_INT => some (.MGT_ERR_INT_EN_bits, 0, 0x94)
  | .DMA_INT => some (.DMA_INT_EN_bits, 0, 0x95)
  | .MGT_MBX_INT => some (.MGT_MBX_INT_EN_bits, 0, 0x96)
  | .GPIO_INT => some (.GPIO_INT_EN_bits, 0, 0x97)
  | .I2C_INT => some (.I2C_INT_EN_bits, i, 0x98)
  | _ => none

/-- What a word of the MSI-X table holds at reset: the mask bit of every vector is set (PRESUMED: PCI Express, log entry 20). -/
def msixDefault (a : Nat) : Nat := if a % 16 = 12 then 1 else 0

/-- A word of the MSI-X table, by its BAR4 offset (R466). -/
def msixWord (s : Blk) (a : Nat) : Nat := s.msixTab.get (msixDefault a) a

/-- Put a word there. -/
def putMsix (s : Blk) (a v : Nat) : Blk := { s with msixTab := s.msixTab.set (msixDefault a) a v }

/-- A vector is masked: bit 0 of its vector control word. -/
def msixMasked (s : Blk) (v : Nat) : Bool := (s.msixWord (0x3000C + 16 * v)).testBit 0

/-- Send a vector's message, or, where it is masked, note it in the pending bit array (R487; PRESUMED: PCI Express). -/
def sendMsix (s : Blk) (v : Nat) : Blk :=
  if s.msixMasked v then s.setBit .MSIX_PBA_pend 0 v true else s.emit (.msix v)

/-- The PCI Express link is up: its reference clock runs, and its pads are driven (R429, R505). -/
def pcieUp (s : Blk) : Bool := !s.flag .RSTC_CLK_STATUS_pcie_ref 0 && !s.powerHold

/-- What the host does over the link; while it is down nothing arrives (R429). -/
def overPcie (f : Blk → Blk) (s : Blk) : Blk := if s.pcieUp then f s else s

/-- JTAG debug is allowed (R433): in the states in which EXTEST and scan are. -/
def debugOpen (s : Blk) : Bool := s.flag .OBS_LC_dbg_open 0

/-- The JTAG instruction that acts: the one in the instruction register, or, outside its states, BYPASS (R495). -/
def jtagActs (s : Blk) : JtagInstr :=
  match jtagInstr s.jtagIr with
  | .bypass => .bypass
  | .idcode => .idcode
  | .sample => .sample
  | i => if s.debugOpen then i else .bypass

/-- Send a vector's MSI-X message if it is armed, and disarm it (R487); while the link is down it stays armed (R429). -/
def fireVector (s : Blk) (v : Nat) : Blk :=
  if s.bit .MGT_IRQ_ARMED_armed 0 v && s.pcieUp then (s.setBit .MGT_IRQ_ARMED_armed 0 v false).sendMsix v else s

/-- A word of the MSI-X table is written; a vector that is no longer masked sends the message that it owes. -/
def msixWrite (s : Blk) (a v : Nat) : Blk :=
  let k := (a - 0x30000) / 16
  let s := s.putMsix a v
  if !s.msixMasked k && s.bit .MSIX_PBA_pend 0 k then (s.setBit .MSIX_PBA_pend 0 k false).emit (.msix k) else s

/-- A pending source interrupts the management cores, and acts on the vector it is routed to (R487). -/
def fireSource (s : Blk) (src : Nat) : Blk :=
  let s := if s.flag .MGT_IRQ_ROUTE_mgmt_en src then s.emit (.mgmtIrq src) else s
  if s.flag .MGT_IRQ_ROUTE_host_en src then s.fireVector (s.fld .MGT_IRQ_ROUTE_vector src) else s

/-- Set bits `v` of event field `f`; an enabled one acts on its interrupt source (R486). -/
def raiseBits (s : Blk) (f : Fld) (i v : Nat) : Blk :=
  let s := s.orFld f i v
  match irqOf f.reg i with
  | none => s
  | some (en, k, src) => if (s.fld en k / 2 ^ f.info.lo) &&& v = 0 then s else s.fireSource src

/-- Raise an event: its W1C bit is set. -/
def raise (s : Blk) (f : Fld) (i : Nat) : Blk := s.raiseBits f i 1

/-- Raise bit `b` of an event field of several bits. -/
def raiseBit (s : Blk) (f : Fld) (i b : Nat) : Blk := s.raiseBits f i (2 ^ b)

/-- The die that holds a counter; device-wide counters are held on die 0 (R363). -/
def counterDie (r : Reg) (i : Nat) : Nat :=
  match r.info.scope with
  | .tile => r.outer i / 8
  | .die => r.outer i
  | .agate =>
    match i / 2 / 8, i % 2 with
    | 0, 0 => 0
    | 0, _ => 1
    | 1, 0 => 0
    | 1, _ => 2
    | 2, 0 => 0
    | 2, _ => 3
    | 3, 0 => 1
    | 3, _ => 2
    | 4, 0 => 1
    | 4, _ => 3
    | _, 0 => 2
    | _, _ => 3
  | _ => 0

/-- Programmable counter `n` of die `d` takes `m` counts; its wrap goes to a counter chained above it, or sets its
overflow bit (R363). -/
def pcntAdd (s : Blk) (d n m : Nat) : Blk :=
  let k := 64 * d + n
  let v := s.fld .JSP_PCNT_count k + m
  let s := s.setFld .JSP_PCNT_count k v
  if v < 2 ^ 32 then s
  else if n % 2 = 0 && s.flag .JSP_PSEL_chain (k + 1) then
    if s.flag .JSP_PSEL_en (k + 1) then s.setFld .JSP_PCNT_count (k + 1) (s.fld .JSP_PCNT_count (k + 1) + v / 2 ^ 32) else s
  else if n % 2 = 1 && s.flag .JSP_PSEL_chain k then s
  else (s.setBit .JSP_PCNT_OVF_ovf d n true).raise .JSP_INT_pcnt_ovf 0

/-- Programmable counter `n` of die `d` selects source `src` (R363). -/
def pcntSelects (s : Blk) (d n src : Nat) : Bool :=
  s.flag .JSP_PSEL_en (64 * d + n) && s.fld .JSP_PSEL_src (64 * d + n) = src && !(n % 2 = 1 && s.flag .JSP_PSEL_chain (64 * d + n))

/-- What a counter chained above counter `n` takes as that takes `m` counts (R363). -/
def pcntCarry (s : Blk) (d n m : Nat) : Nat :=
  if n % 2 = 0 && s.flag .JSP_PSEL_chain (64 * d + n + 1) && s.flag .JSP_PSEL_en (64 * d + n + 1) then
    (s.fld .JSP_PCNT_count (64 * d + n) + m) / 2 ^ 32
  else 0

/-- The programmable counters of die `d` that select source `src` take `m` counts, and those that select one of them its increments,
through at most so many of them (R363). A selection has one source, so that none of the 64 is met twice. -/
def pcntRun (d : Nat) : Nat → Nat → Nat → Blk → Blk
  | 0, _, _, s => s
  | k + 1, src, m, s =>
    if m = 0 then s
    else (List.range 64).foldl (fun s n =>
      if s.pcntSelects d n src then
        let carry := s.pcntCarry d n m
        pcntRun d k (Reg.JSP_PCNT.addrOf (64 * d + n + 1)) carry (pcntRun d k (Reg.JSP_PCNT.addrOf (64 * d + n)) m (s.pcntAdd d n m))
      else s) s

/-- The programmable counters of die `d` that select source `src` take `m` counts (R363). -/
def pcntEvent (s : Blk) (d src m : Nat) : Blk := if s.flag .JSP_PRUN_run 0 then pcntRun d 64 src m s else s

/-- Add to a 64-bit event counter. At 2⁶⁴ − 1 it stops and sets JSP_INT.sat (R360); programmable counters that select it count
its increments (R363). -/
def count (s : Blk) (f : Fld) (i n : Nat) : Blk :=
  let m := min n (2 ^ 64 - 1 - s.fld f i)
  if m = 0 then s.setFld f i (min (s.fld f i) (2 ^ 64 - 1))
  else
    let s := s.pcntEvent (counterDie f.reg i) (f.reg.addrOf i) m
    let s := s.setFld f i (s.fld f i + m)
    if s.fld f i = 2 ^ 64 - 1 then s.raise .JSP_INT_sat 0 else s

/-! ### Hall time (R347) -/

/-- QTZ_RATE as a signed number. -/
def qRate (s : Blk) : Int :=
  let r := s.fld .QTZ_RATE_rate 0
  if r < 2 ^ 31 then r else (r : Int) - 2 ^ 32

/-- Time as read, T, in units of 2⁻¹⁶ ns (R347). -/
def quartzT (s : Blk) : Nat :=
  let raw : Int := s.fld .QTZ_RAW_raw 0
  ((raw + raw * s.qRate / 2 ^ 32 + s.qOffset) % 2 ^ 96).toNat

/-- Time on a tile's own copy: the master's once it agrees, and a free value before (R36, R353). -/
def tileT (s : Blk) (t : Nat) : Nat :=
  if s.bit .QTZ_TILE_SYNC_sync 0 t then s.quartzT else Config.tileCopy t s.quartzT % 2 ^ 96

/-- A tile's time in whole ns. -/
def tileNs (s : Blk) (t : Nat) : Nat := s.tileT t / 65536

/-- What hall time advances by in `n` ns of Quartz's clock, in units of 2⁻⁴⁸ ns (R347). -/
def hallStep (s : Blk) (n : Nat) : Int := 65536 * n * (2 ^ 32 + s.qRate)

/-- Hall time `lead` ns of Quartz's clock from now, in units of 2⁻⁴⁸ ns: T of R347 before it is cut to 2⁻¹⁶ ns. -/
def hallFine (s : Blk) (lead : Nat) : Int :=
  ((s.fld .QTZ_RAW_raw 0 : Int) * (2 ^ 32 + s.qRate) + s.hallStep lead + (s.qOffset : Int) * 2 ^ 32) % 2 ^ 128

/-- Hall time in whole ns, `lead` ns from now. -/
def quartzIn (s : Blk) (lead : Nat) : Nat := (s.hallFine lead / 2 ^ 48).toNat

/-- The timestamp of a message on a link, on its tile's copy, `lead` ns from now (R354). -/
def stampT (s : Blk) (l : Nat) (tx : Bool) (lead : Nat) : Nat :=
  (((s.tileT (l / 32) : Int) + s.hallStep lead / 2 ^ 32 + Config.stampDelay l tx) % 2 ^ 96).toNat

/-- Hall time in whole ns. -/
def quartzNs (s : Blk) : Nat := s.quartzT / 65536

/-- Hall-time seconds, 48 bits (R347). -/
def hallSec (s : Blk) : Nat := s.quartzNs / 10 ^ 9 % 2 ^ 48

/-- Hall-time nanoseconds within the second (R347). -/
def hallNsec (s : Blk) : Nat := s.quartzNs % 10 ^ 9

/-- The fraction of R347. -/
def hallFrac (s : Blk) : Nat := s.quartzT % 65536

/-- Hall time is valid (R350). -/
def hallValid (s : Blk) : Bool := s.flag .QTZ_STATUS_valid 0

/-- ts_ok of a timestamp taken now on a tile: hall time is valid and the tile's copy agrees (R356). -/
def stampOk (s : Blk) (t : Nat) : Bool := s.hallValid && s.bit .QTZ_TILE_SYNC_sync 0 t

/-- The snapshot interval of the congestion map that runs (R114, R116): 16 × its index + n. -/
def cmapN (s : Blk) : Nat := min 13 (max 3 (s.fld .JSP_CMAP_CTL_interval 0))

/-- The interval that runs. -/
def cmapSlot (s : Blk) : Nat := s.quartzNs / (1000 * 2 ^ s.cmapN) * 16 + s.cmapN

/-- A free value of `w` bits, and the state in which it has been handed out. -/
def free (s : Blk) (w : Nat) : Nat × Blk := (Config.freeValue s.fresh % 2 ^ w, { s with fresh := s.fresh + 1 })

end Blk

/-- Count in an interval. -/
def Usage.add (u : Usage) (slot v : Nat) : Usage :=
  if u.slot = slot then { u with cur := u.cur + v } else if u.slot + 16 = slot then ⟨slot, v, u.cur⟩ else ⟨slot, v, 0⟩

/-- What was counted in an interval. -/
def Usage.of (u : Usage) (slot : Nat) : Nat := if u.slot = slot then u.cur else if u.slot = slot + 16 then u.prev else 0

namespace Blk

/-! ### Records of the numbered objects -/

/-- What link `l` holds beside its registers. -/
def link (s : Blk) (l : Nat) : LinkRec := s.links.get .reset l

/-- Change what link `l` holds. -/
def updLink (s : Blk) (l : Nat) (f : LinkRec → LinkRec) : Blk :=
  { s with links := s.links.set .reset l (f (s.link l)) }

/-- Feldspar's state of link `l`. -/
def feldOf (s : Blk) (l : Nat) : FeldLink := s.feld.get .reset l

/-- Change Feldspar's state of link `l`. -/
def updFeld (s : Blk) (l : Nat) (f : FeldLink → FeldLink) : Blk :=
  { s with feld := s.feld.set .reset l (f (s.feldOf l)) }

/-- The Basalt books of die `d`. -/
def bsl (s : Blk) (d : Nat) : BasaltDie := s.basalt.get .reset d

/-- Change the Basalt books of die `d`. -/
def updBsl (s : Blk) (d : Nat) (f : BasaltDie → BasaltDie) : Blk :=
  { s with basalt := s.basalt.set .reset d (f (s.bsl d)) }

/-- A direction of an Agate pair, 2 × pair + (1 for die j to die i). -/
def dir (s : Blk) (k : Nat) : AgateDir := s.agateDirs.get .reset k

/-- Change a direction of an Agate pair. -/
def updDir (s : Blk) (k : Nat) (f : AgateDir → AgateDir) : Blk :=
  { s with agateDirs := s.agateDirs.set .reset k (f (s.dir k)) }

/-- A direction of an Agate link, 2 × (8P + k) + (1 for die j to die i). -/
def lane (s : Blk) (k : Nat) : AgateLane := s.agateLanes.get ⟨[], 0⟩ k

/-- Change a direction of an Agate link. -/
def updLane (s : Blk) (k : Nat) (f : AgateLane → AgateLane) : Blk :=
  { s with agateLanes := s.agateLanes.set ⟨[], 0⟩ k (f (s.lane k)) }

/-- An engine's requests for spill cells, oldest first. -/
def spill (s : Blk) (t : Nat) : List SpillAsk := s.spills.get [] t

/-- Change an engine's requests for spill cells. -/
def updSpill (s : Blk) (t : Nat) (f : List SpillAsk → List SpillAsk) : Blk := { s with spills := s.spills.set [] t (f (s.spill t)) }

/-- The frames waiting in egress queue `q`. -/
def queue (s : Blk) (q : Nat) : List QEntry := s.queues.get [] q

/-- Replace what waits in egress queue `q`; FLD_SUB_DEPTH follows (R184). -/
def setQueue (s : Blk) (q : Nat) (es : List QEntry) : Blk :=
  ({ s with queues := s.queues.set [] q es }).setFld .FLD_SUB_DEPTH_cells q (es.map QEntry.cells).sum

/-- A frame by its number. -/
def frame? (s : Blk) (fid : Nat) : Option FrameRec := s.frames.find fid

/-- Replace a frame. -/
def putFrame (s : Blk) (fid : Nat) (r : FrameRec) : Blk := { s with frames := s.frames.put fid r }

/-- Forget a frame, and its crossing to engines. -/
def delFrame (s : Blk) (fid : Nat) : Blk :=
  { s with frames := s.frames.del fid, transfers := s.transfers.keep fun k _ => k / 4 ≠ fid }

/-- A copy by its key. -/
def copy? (s : Blk) (key : Nat) : Option CopyRec := s.copies.find key

/-- Replace a copy. -/
def putCopy (s : Blk) (key : Nat) (c : CopyRec) : Blk := { s with copies := s.copies.put key c }

/-- Forget a copy. -/
def delCopy (s : Blk) (key : Nat) : Blk := { s with copies := s.copies.del key }

/-! ### Placement of the numbered objects (R7, R19) -/

end Blk

/-- The port of a link (R89). -/
def portOf (l : Nat) : Nat := l / 4
/-- The sub-port of a link (R89). -/
def subOf (l : Nat) : Nat := l % 4
/-- The tile of a link. -/
def tileOf (l : Nat) : Nat := l / 32
/-- The die of a link. -/
def dieOf (l : Nat) : Nat := l / 256
/-- The die of a tile. -/
def dieOfTile (t : Nat) : Nat := t / 8

/-- The index of the pair of two dies (R158). -/
def pairOf (a b : Nat) : Nat :=
  match min a b, max a b with
  | 0, 1 => 0
  | 0, 2 => 1
  | 0, 3 => 2
  | 1, 2 => 3
  | 1, 3 => 4
  | _, _ => 5

/-- The lower and the higher die of a pair. -/
def pairDies : Nat → Nat × Nat
  | 0 => (0, 1)
  | 1 => (0, 2)
  | 2 => (0, 3)
  | 3 => (1, 2)
  | 4 => (1, 3)
  | _ => (2, 3)

/-- The direction of a pair that leads from die `a` to die `b`: 2P from die i to die j, 2P + 1 back. -/
def dirOf (a b : Nat) : Nat := 2 * pairOf a b + (if a < b then 0 else 1)

/-- The number of lanes of a link by its port's breakout mode (R40). -/
def lanesPerLink : Nat → Nat
  | 0 => 8
  | 1 => 4
  | _ => 2

/-- The sub-ports that a breakout mode has (R40). -/
def subPorts : Nat → Nat
  | 0 => 1
  | 1 => 2
  | _ => 4

namespace Blk

/-- The breakout mode of a port (R40). -/
def breakout (s : Blk) (p : Nat) : Nat := s.fld .TIL_PORT_MODE_breakout p

/-- A link exists: its sub-port does in its port's breakout mode (R73, R89). -/
def linkExists (s : Blk) (l : Nat) : Bool := subOf l < subPorts (s.breakout (portOf l))

end Blk

/-- The link of a register that belongs to a sub-port (R73, R183, R371). -/
def Reg.link? (r : Reg) (i : Nat) : Option Nat :=
  match r with
  | .TIL_LNK_CTL | .TIL_LNK_STATUS | .TIL_LNK_INT | .TIL_LNK_INT_EN | .TIL_LNK_BURST_CFG | .TIL_LNK_PFC_CFG | .TIL_LNK_RTT
  | .TIL_LNK_FEC_CORR | .TIL_LNK_FEC_UNCORR | .TIL_LNK_FEC_SYMERR | .TIL_LNK_RETRY | .TIL_LNK_LOST | .TIL_LNK_BURSTS
  | .TIL_LNK_RETRAINS | .TIL_LNK_RESYNCS | .TIL_LNK_FLUSH | .FLD_LNK_CTL | .FLD_TC7_MON | .FLD_GATE_CTL
  | .FLD_GATE_STATUS | .QTZ_LNK_ASYM => some i
  | .FLD_GATE_BASE_S | .FLD_GATE_BASE_NS | .FLD_GATE_CYCLE_NS => some (i / 2)
  | .TIL_LNK_GRANT_TC | .FLD_CLS_CFG | .FLD_CBS_CFG => some (i / 8)
  | .FLD_GATE_ENT => some (i / 128)
  | _ => none

namespace Blk

/-- A register of a sub-port that does not exist: it reads as 0 and ignores writes (R73, R183, R371). -/
def missing (s : Blk) (r : Reg) (i : Nat) : Bool :=
  match r.link? i with
  | some l => !s.linkExists l
  | none => false

/-- A link's data rate in Mb/s (R16, R40). -/
def linkRate (s : Blk) (l : Nat) : Nat := 200000 * lanesPerLink (s.breakout (portOf l))

/-- A link's state code (R44). -/
def linkState (s : Blk) (l : Nat) : Nat := s.fld .TIL_LNK_STATUS_state l

/-- A power domain is ON (R421). -/
def domOn (s : Blk) (n : Nat) : Bool := s.fld .PWR_DOM_STATUS_state n = 1

/-- A link runs in Staketu mode (R77). -/
def staketu (s : Blk) (l : Nat) : Bool := s.flag .TIL_LNK_STATUS_staketu l

end Blk

/-- A frame's length in bytes, its FCS counted (R16). -/
def frameLen (f : Frame) : Nat := (if f.tci.isSome then 22 else 18) + f.data.length

/-- The cells, and the credits, of a frame of `n` bytes (R57, R123). -/
def cellsOf (n : Nat) : Nat := (n + 255) / 256

/-- Division rounded up. -/
def ceilDiv (a b : Nat) : Nat := (a + b - 1) / b

/-- A big-endian number in a list of bytes. -/
def beNat (bs : List Byte) : Nat := bs.foldl (fun n b => n * 256 + b.toNat) 0

/-- `n` bytes of a number, the most significant first. -/
def beBytes (n v : Nat) : List Byte := (List.range n).map fun i => BitVec.ofNat 8 (v / 256 ^ (n - 1 - i))

/-- A little-endian number in a list of bytes. -/
def leNat (bs : List Byte) : Nat := bs.foldr (fun b n => n * 256 + b.toNat) 0

/-- `n` bytes of a number, the least significant first. -/
def leBytes (n v : Nat) : List Byte := (List.range n).map fun i => BitVec.ofNat 8 (v / 256 ^ i)

/-- Bytes `lo` to `lo + n − 1` of a list as a big-endian number; bytes past its end count as 0. -/
def beAt (bs : List Byte) (lo n : Nat) : Nat :=
  (List.range n).foldl (fun v i => v * 256 + ((bs.getD (lo + i) 0).toNat)) 0

/-- A frame's bytes without its FCS, from the destination MAC address on (R472). -/
def frameBytes (f : Frame) : List Byte :=
  beBytes 6 f.dmac.toNat ++ beBytes 6 f.smac.toNat ++
  (match f.tci with
   | some t => beBytes 2 0x8100 ++ beBytes 2 t.toNat
   | none => []) ++ beBytes 2 f.etype.toNat ++ f.data

/-- Bits [hi:lo] of a number. -/
def bits (v hi lo : Nat) : Nat := v / 2 ^ lo % 2 ^ (hi + 1 - lo)

end Sys2Proof.Machine
end

