-- ==== Sys2Proof/Machine/Crc.lean ====
section
/-!
DEFINITION. The check codes: the CRC-8 of the link word (R55), the CRC-16 of R96 and the CRC-32C of R140.
-/

namespace Sys2Proof.Machine

/-- One bit of a CRC computed most significant bit first: register width `w`, polynomial `poly`. -/
def crcBit (w poly : Nat) (r : Nat) (b : Bool) : Nat :=
  let top := r.testBit (w - 1) != b
  let r' := (r * 2) % 2 ^ w
  if top then r' ^^^ poly else r'

/-- The bits of a byte, most significant first. -/
def byteBits (b : Nat) : List Bool := (List.range 8).map fun i => b.testBit (7 - i)

/-- A byte fed to a CRC most significant bit first. -/
def crcByte (w poly : Nat) (r : Nat) (b : Byte) : Nat := (byteBits b.toNat).foldl (crcBit w poly) r

/-- CRC-8 of the link word: polynomial 0x07, initial value 0 (R55). -/
def crc8 (bs : List Byte) : Nat := bs.foldl (crcByte 8 0x07) 0

/-- The CRC-16 of R96: polynomial 0x1021, initial value 0xFFFF, most significant bit first. -/
def crc16 (bs : List Byte) : Nat := bs.foldl (crcByte 16 0x1021) 0xFFFF

/-- One bit of a reflected CRC of 32 bits, its polynomial reflected. -/
def crc32Bit (poly r : Nat) : Nat := if r % 2 = 1 then (r / 2) ^^^ poly else r / 2

/-- A byte fed to a reflected CRC of 32 bits. -/
def crc32Byte (poly r : Nat) (b : Byte) : Nat := (List.range 8).foldl (fun r _ => crc32Bit poly r) (r ^^^ b.toNat)

/-- The CRC-32C of R140: polynomial 0x1EDC_6F41 reflected, initial value and final XOR 0xFFFF_FFFF. -/
def crc32c (bs : List Byte) : Nat := (bs.foldl (crc32Byte 0x82F63B78) 0xFFFFFFFF) ^^^ 0xFFFFFFFF

/-- The FCS of a frame (PRESUMED from IEEE 802.3, log entry 173): the CRC-32 of polynomial 0x04C1_1DB7, reflected, its low byte
first. -/
def fcsBytes (bs : List Byte) : List Byte := leBytes 4 ((bs.foldl (crc32Byte 0xEDB88320) 0xFFFFFFFF) ^^^ 0xFFFFFFFF)

/-- Cell `i` of a frame: 256 bytes, zeros beyond the frame's end (R16, R123, R139). -/
def cellBytes (f : Frame) (i : Nat) : List Byte :=
  let bs := ((frameBytes f ++ fcsBytes (frameBytes f)).drop (256 * i)).take 256
  bs ++ List.replicate (256 - bs.length) 0

/-- A CRC-16 key: fields as pairs of width and value, concatenated most significant bit first, with zero bits in front
to a whole number of bytes (R96). -/
def crcKey (fs : List (Nat × Nat)) : List Byte :=
  let width := fs.foldl (fun n f => n + f.1) 0
  let value := fs.foldl (fun v f => v * 2 ^ f.1 + f.2 % 2 ^ f.1) 0
  beBytes ((width + 7) / 8) value

/-- The check field of a link word fits its other bits (R55). -/
def linkWordOk (w : BitVec 48) : Bool := crc8 (beBytes 5 (w.toNat / 256)) = w.toNat % 256

end Sys2Proof.Machine
end

