-- ==== Sys2Proof/Machine/Errors.lean ====
section
/-!
DEFINITION. Error records: their sources and classes (R453, R454), the record (R456), the log, the merging of CE events
and the delivery to the ring (R457) and to the host's mailbox (R483, R485).
-/

namespace Sys2Proof.Machine

/-- Where an error record comes from, with the object it names (R443, R446, R454). -/
inductive ErrSource where
  | sramSingle (block inst info : Nat)
  | basaltDoubleBit (die cell : Nat)
  | stagingDoubleBit (tile cell : Nat)
  | scratchDoubleBit (tile line : Nat)
  | residueCleared (tile chunk : Nat)
  | auditMismatch (tile chunk : Nat)
  | residueSecond (tile chunk : Nat)
  | selfTest (tile : Nat)
  | tableDoubleBit (die entry : Nat) (goodCopy : Bool)
  | hbmCorrected (stack addr : Nat)
  | hbmFromCopy (stack addr : Nat)
  | hbmLost (stack addr : Nat)
  | egressCheck (link : Nat)
  | basaltDouble (die cell : Nat)
  | mgmtMemory
  | slackAlarm (monitor tile : Nat)
  | otherAlarm (monitor inst : Nat)
  | alwaysOn
  | bistFail (block code : Nat) (tileLevel : Bool) (inst : Nat)
  | repairShort (block code die : Nat)
  deriving DecidableEq, Repr

/-- Class, block, code, instance, info and reset level of a source's record (R454, R456). R454 gives no block and code for the
records of R443 and R446: they are operands, for which the callers put free values. -/
def ErrSource.fields : ErrSource → Nat × Nat × Nat × Nat × Nat × Nat
  | .sramSingle b i a => (0, b, 0x0001, i, a, 0)
  | .basaltDoubleBit d c => (1, 0x03, 0x0002, d, c, 0)
  | .stagingDoubleBit t c => (1, 0x01, 0x0002, t, c, 0)
  | .scratchDoubleBit t l => (1, 0x05, 0x0002, t, l, 0)
  | .residueCleared t c => (0, 0x05, 0x0003, t, c, 0)
  | .auditMismatch t c => (1, 0x05, 0x0001, t, c, 0)
  | .residueSecond t c => (1, 0x05, 0x0010, t, c, 0)
  | .selfTest t => (1, 0x05, 0x0011, t, 0, 0)
  | .tableDoubleBit d e good => if good then (1, 0x10, 0x0002, d, e, 0) else (2, 0x10, 0x0002, d, e, 2)
  | .hbmCorrected h a => (0, 0x07, 0x0001, h, a, 0)
  | .hbmFromCopy h a => (0, 0x07, 0x0004, h, a, 0)
  | .hbmLost h a => (1, 0x07, 0x000C, h, a, 0)
  | .egressCheck l => (1, 0x01, 0x0005, l, 0, 0)
  | .basaltDouble d c => (2, 0x03, 0x0006, d, c, 2)
  | .mgmtMemory => (2, 0x0F, 0x0002, 0, 0, 4)
  | .slackAlarm m t => (2, 0x0C, m, t, 0, 3)
  | .otherAlarm m i => (3, 0x0C, m, i, 0, 0)
  | .alwaysOn => (3, 0x13, 0x0007, 0, 0, 0)
  | .bistFail b c tl i => (2, b, c, i, 0, if tl then 3 else 2)
  | .repairShort b c d => (2, b, c, d, 0, 2)

namespace Blk

/-- The records that the pending buffer holds (R477): error records do not wait in it. -/
def cplCount (s : Blk) : Nat := (s.cplWait.map fun (kv : Nat × List CplRec) => (kv.2.filter (·.kind ≠ 5)).length).sum

/-- The pending buffer has no place: a producer holds its next record, and every later one (R477). -/
def cplFull (s : Blk) : Bool := s.cplHeld ≠ [] || 8192 ≤ s.cplCount

/-- A record joins those of its CPL ring. -/
def placeRecord (s : Blk) (ring : Nat) (x : CplRec) : Blk :=
  { s with cplWait := s.cplWait.set [] ring (s.cplWait.get [] ring ++ [x]) }

/-- A record waits for its CPL ring, and the work that owes it ends as `f` says; where the pending buffer is full its producer holds
it, and the work waits at that last step (R477). -/
def postWork (s : Blk) (ring kind : Nat) (bytes : List Byte) (w : HeldWork) (f : Blk → Blk) : Blk :=
  if kind ≠ 5 && s.cplFull then ({ s with cplHeld := s.cplHeld ++ [HeldRec.mk ring ⟨kind, bytes⟩ w] }).raise .DMA_INT_cpl_full 0
  else f (s.placeRecord ring ⟨kind, bytes⟩)

/-- A record for which no work waits. -/
def postRecord (s : Blk) (ring kind : Nat) (bytes : List Byte) : Blk := s.postWork ring kind bytes .none id

/-- Work waits for a record that is held (R477). -/
def workHeld (s : Blk) (w : HeldWork) : Bool := s.cplHeld.any fun x => x.work = w

/-- The 32 bytes of an error record (R456), with no event merged into it. -/
def errBytes (s : Blk) (cls block code inst info level : Nat) : List Byte :=
  beBytes 1 cls ++ beBytes 1 block ++ beBytes 2 inst ++ beBytes 2 code ++ beBytes 2 0 ++ beBytes 8 info ++
  beBytes 6 s.hallSec ++ beBytes 4 s.hallNsec ++ beBytes 1 level ++ beBytes 5 0

/-! ### Device-to-host messages (R481 to R483) -/

/-- Write a message into a D2H slot. -/
def putD2h (s : Blk) (slot : Nat) (bytes : List Byte) : Blk :=
  (List.range 64).foldl (fun s w => s.setFld .MGT_MBX_D2H_word (64 * slot + w) (beAt bytes (4 * w) 4)) s

/-- A message (R481). -/
def message (seq ref cmd status : Nat) (payload : List Byte) : List Byte :=
  beBytes 4 seq ++ beBytes 4 ref ++ beBytes 2 cmd ++ beBytes 2 payload.length ++ beBytes 2 status ++ beBytes 2 0 ++ payload

/-- Distance from a sequence number to a later one, modulo 2³². -/
def seqAhead (a b : Nat) : Nat := (b + 2 ^ 32 - a % 2 ^ 32) % 2 ^ 32

/-- The device may post a D2H message (R482). -/
def mbxRoom (s : Blk) : Bool := seqAhead (s.fld .MGT_MBX_D2H_ACK_seq 0) (s.fld .MGT_MBX_D2H_SENT_seq 0) < 16

/-- The firmware or the recovery monitor answers. -/
def fwReady (s : Blk) : Bool := s.flag .MGT_MBX_STATUS_fw_ready 0

/-- Post D2H message SENT + 1 (R482). -/
def postMessage (s : Blk) (ref cmd status : Nat) (payload : List Byte) : Blk :=
  let seq := (s.fld .MGT_MBX_D2H_SENT_seq 0 + 1) % 2 ^ 32
  ((s.putD2h (seq % 16) (message seq ref cmd status payload)).setFld .MGT_MBX_D2H_SENT_seq 0 seq).raise .MGT_MBX_INT_d2h 0

/-- Post the EVENT messages that wait, as there is room (R482, R483, R485); the recovery monitor posts none. -/
def flushEvents (fuel : Nat) (s : Blk) : Blk :=
  match fuel with
  | 0 => s
  | n + 1 =>
    match s.mbxEvents with
    | [] => s
    | e :: es =>
      if s.fwReady && s.mbxRoom && s.fld .IMG_BOOT_phase 0 ≠ 3 then
        flushEvents n ({ s with mbxEvents := es }.postMessage 0 0x0020 0 e)
      else s

/-- An error record's EVENT message, behind those that wait (R483, R485). -/
def postEvent (s : Blk) (bytes : List Byte) : Blk := { s with mbxEvents := s.mbxEvents ++ [bytes] }.flushEvents 16

/-! ### Error records -/

/-- The MGT_ERR_INT bit of a class (R457, R460). -/
def errBit : Nat → Fld
  | 0 => .MGT_ERR_INT_ce
  | 1 => .MGT_ERR_INT_uc_cont
  | 2 => .MGT_ERR_INT_uc_uncont
  | _ => .MGT_ERR_INT_fatal

/-- Merge a CE event into log entry `slot`: repeats saturates (R456, R457). -/
def mergeCe (s : Blk) (slot : Nat) : Blk :=
  let w := s.fld .MGT_ERR_LOG_record (8 * slot + 1)
  if w % 65536 = 65535 then s else s.setFld .MGT_ERR_LOG_record (8 * slot + 1) (w + 1)

/-- Write a record into the next log entry (R457, R460). -/
def logRecord (s : Blk) (bytes : List Byte) : Blk :=
  let slot := s.fld .MGT_ERR_HEAD_next 0
  ((List.range 8).foldl (fun s w => s.setFld .MGT_ERR_LOG_record (8 * slot + w) (beAt bytes (4 * w) 4)) s).setFld
    .MGT_ERR_HEAD_next 0 (slot + 1)

/-- The firmware's answer to a record of class UC_UNCONTAINED or FATAL (R455). -/
def answerRecord (s : Blk) (cls inst level : Nat) : Blk :=
  if cls = 2 && s.flag .MGT_ERR_CFG_uc_act 0 then
    { s with wishes := s.wishes ++ [⟨level, if level = 2 then inst else 0, if level = 3 then inst else 0⟩] }
  else if cls = 3 && s.flag .MGT_ERR_CFG_fatal_act 0 then { s with wishes := s.wishes ++ [⟨1, 0, 0⟩] }
  else s

/-- What a record of class FATAL does besides: FATAL_N goes low (R492), and after an always-on error Obsidian refuses ATTEST
and fuse commands (R454). -/
def fatalMarks (s : Blk) (cls : Nat) (src : ErrSource) : Blk :=
  if cls = 3 then { s with fatal := true, obsRefuses := s.obsRefuses || src = .alwaysOn } else s

/-- Report an error: counted, its interrupt bit set, and recorded or, a CE event within 1 s of a like record, merged
(R455, R457). -/
def reportError (s : Blk) (src : ErrSource) : Blk :=
  let (cls, block, code, inst, info, level) := src.fields
  let s := (s.count .MGT_ERR_CNT_count cls 1).raise (errBit cls) 0
  let live := s.recentCe.filter fun k => s.now ≤ k.at_ + 10 ^ 9
  match live.find? fun k => cls = 0 ∧ k.block = block ∧ k.inst = inst ∧ k.code = code with
  | some k => { s.mergeCe k.slot with recentCe := live }
  | none =>
    let bytes := s.errBytes cls block code inst info level
    let slot := s.fld .MGT_ERR_HEAD_next 0
    let s := s.logRecord bytes
    let mine : ErrKey := ⟨block, inst, code, slot, s.now⟩
    let others := live.filter fun k => k.slot ≠ slot
    let s := { s with recentCe := if cls = 0 then mine :: others else others }
    let s := if s.flag .MGT_ERR_CFG_en 0 then s.postRecord (s.fld .MGT_ERR_CFG_ring 0) 5 bytes else s
    ((s.postEvent bytes).answerRecord cls inst level).fatalMarks cls src

end Blk

end Sys2Proof.Machine
end

