-- ==== Sys2Proof/Machine/Rings.lean ====
section
/-!
DEFINITION. What every host DMA ring and collective command queue shares (R467 to R471, R479, R488): when it runs, and what
an advance of its head does.
-/

namespace Sys2Proof.Machine.Blk

/-- What a ring holds beside its registers. -/
def ring (s : Blk) (r : Nat) : RingBook := s.rings.get ⟨0, false⟩ r

/-- Replace it. -/
def putRing (s : Blk) (r : Nat) (b : RingBook) : Blk := { s with rings := s.rings.set ⟨0, false⟩ r b }

/-- The memory that holds a ring or queue is reached: for host memory, Bus Master Enable is 1 and the link is up (R429, R467). -/
def reaches (s : Blk) (side : Bool) : Bool := side || (s.busMaster && s.pcieUp)

/-- A ring is enabled, of function `func`, and not stopped by a fault or by Bus Master Enable (R467, R480). -/
def ringRuns (s : Blk) (r func : Nat) : Bool :=
  s.flag .DMA_RING_CFG_en r && s.fld .DMA_RING_CFG_func r = func && !s.flag .DMA_RING_STATUS_fault r &&
  s.reaches (s.flag .DMA_RING_CFG_side r)

/-- The entries of a ring that belong to the device (R468). -/
def ringFilled (s : Blk) (r : Nat) : Nat := (s.fld .DMA_RING_TAIL_tail r + 2 ^ 32 - s.fld .DMA_RING_HEAD_head r) % 2 ^ 32

/-- A ring becomes pending; one of side 1 interrupts the management cores (R487, R488). -/
def ringPending (s : Blk) (r : Nat) : Blk :=
  let s := s.putRing r { s.ring r with pend := true }
  if s.flag .DMA_RING_CFG_side r then s.emit (.mgmtRing r) else s.fireVector (s.fld .DMA_RING_CFG_vector r)

/-- A ring's head advances by `n` entries: the head is written back where the device writes the ring's entries, and the
ring interrupts after count entries (R471, R488). -/
def advanceRing (s : Blk) (r n : Nat) : Blk :=
  let s := s.setFld .DMA_RING_HEAD_head r (s.fld .DMA_RING_HEAD_head r + n)
  let func := s.fld .DMA_RING_CFG_func r
  let wb := s.fld .DMA_RING_WB_addr r
  let s := if wb ≠ 0 && 1 ≤ func && func ≤ 4 then
    s.emit (.dmaWrite (s.flag .DMA_RING_CFG_side r) (8 * wb) (leBytes 4 (s.fld .DMA_RING_HEAD_head r))) else s
  let s := s.putRing r { s.ring r with adv := (s.ring r).adv + n }
  if s.flag .DMA_RING_CFG_irq_en r && s.fld .DMA_RING_MOD_count r ≤ (s.ring r).adv then s.ringPending r else s

/-- The entries of a ring: 2^size_log2, from 2⁶ to 2¹⁶ (R468, R497). -/
def ringSize (s : Blk) (r : Nat) : Nat := 2 ^ min 16 (max 6 (s.fld .DMA_RING_CFG_size_log2 r))

/-- The address of the entry at position `pos` of a ring whose entries are `size` bytes (R468). -/
def entryAddr (s : Blk) (r pos size : Nat) : Nat := 64 * s.fld .DMA_RING_BASE_base r + pos % s.ringSize r * size

/-- The frame that a TX ring has put before an allocator is decided: byte 15 of its eop descriptor is written, and the head
passes its descriptors (R476). -/
def txDone (s : Blk) (r status : Nat) : Blk :=
  match s.hostTx.find r with
  | none => s
  | some w =>
    let pos := s.fld .DMA_RING_HEAD_head r + w.descs - 1
    (({ s with hostTx := s.hostTx.del r }).emit (.dmaWrite (s.flag .DMA_RING_CFG_side r) (s.entryAddr r pos 32 + 15)
      (beBytes 1 status))).advanceRing r w.descs

/-- An entry of a ring that the host fills is taken, where one is there to take. -/
def ringHas (s : Blk) (r func : Nat) : Bool := s.ringRuns r func && s.ringFilled r ≠ 0

/-- A collective command queue holds a descriptor that may start: enabled, not stopped, not empty (R479). -/
def cqHas (s : Blk) (q : Nat) : Bool :=
  s.flag .DMA_CQ_CFG_en q && !s.flag .DMA_CQ_STATUS_fault q && s.reaches (s.flag .DMA_CQ_CFG_side q) &&
  s.fld .DMA_CQ_HEAD_head q ≠ s.cqTail.get 0 q

/-- The head descriptor of a collective command queue starts. -/
def cqAdvance (s : Blk) (q : Nat) : Blk := s.setFld .DMA_CQ_HEAD_head q (s.fld .DMA_CQ_HEAD_head q + 1)

end Sys2Proof.Machine.Blk
end

