-- ==== Sys2Proof/Machine/Trace.lean ====
section
/-!
DEFINITION. Tagged traces (R364 to R367): the record of what becomes of a traced copy, and the tile's buffer of records.
-/

namespace Sys2Proof.Machine

/-- A tag, its copy having been marked with ce by this switch or not (R86, R365). -/
def TraceTag.marked (ce : Bool) (t : TraceTag) : TraceTag := { t with ce := t.ce || ce }

end Sys2Proof.Machine

namespace Sys2Proof.Machine

/-- The ns since power-on at which what the die handles at `n` crosses the connector plane of a link (R354). -/
def atFibre (n l : Nat) (tx : Bool) : Nat := ((65536 * n + Config.stampDelay l tx) / 65536).toNat

end Sys2Proof.Machine

namespace Sys2Proof.Machine.Blk

/-- A delay from the ingress stamp, saturating; 0xFFFF where the stage was not reached (R365). -/
def traceDelay (t0 : Nat) : Option Nat → Nat
  | none => 0xFFFF
  | some n => min 0xFFFE (n - t0)

/-- The stamp and the delays of a record (R365). Where the ingress stamp was not taken (R353) the spec states no value for
them: a free value. -/
def traceTimes (s : Blk) (t : TraceTag) (enq sel out : Option Nat) : List Byte × Blk :=
  if t.stamped then
    (beBytes 4 t.sec ++ beBytes 4 t.nsec ++
      ([t.pipe, t.adm, enq, sel, out].flatMap fun d => beBytes 2 (traceDelay t.t0 d)), s)
  else
    let (v, s) := s.free 144
    (beBytes 18 v, s)

/-- Buffer a trace record (R365 to R367): its kind, drop point and reason, egress link, when it was enqueued and the cells
then queued, when it was selected, and when it left. -/
def traceOut (s : Blk) (tag : Option TraceTag) (kind point reason out : Nat) (enq : Option (Nat × Nat))
    (sel sent : Option Nat) : Blk :=
  match tag with
  | none => s
  | some t =>
    let buf := s.trcBuf.get [] t.tile
    if 256 ≤ buf.length then (s.count .JSP_TRC_LOST_count t.tile 1).raise .JSP_INT_trc_lost 0
    else
      let (times, s) := s.traceTimes t (enq.map Prod.fst) sel (sent.map fun n => atFibre n out true)
      let flags := (if t.cut then 128 else 0) + (if t.xdie then 64 else 0) + (if t.ce then 32 else 0)
      let bs := beBytes 1 (16 + kind) ++ beBytes 1 (16 * point) ++ beBytes 1 reason ++ beBytes 1 (32 * t.tc + t.tile) ++
        beBytes 2 (64 * t.link) ++ beBytes 2 (64 * out) ++ beBytes 2 t.id ++ beBytes 2 t.len ++ beBytes 3 (16 * t.dst) ++
        beBytes 1 t.opcode ++ beBytes 4 t.seq ++ times ++ beBytes 2 (min 0xFFFF ((enq.map Prod.snd).getD 0)) ++
        beBytes 1 flags ++ beBytes 19 0
      { s with trcBuf := s.trcBuf.set [] t.tile (buf ++ [bs ++ beBytes 4 (crc32c bs)]) }

/-- A traced copy is dropped before it is enqueued (R366). -/
def traceDrop (s : Blk) (key point reason : Nat) : Blk :=
  match s.copy? key with
  | none => s
  | some c =>
    let out := match c.target with
      | .link l => l
      | _ => 0
    s.traceOut c.tag 2 point reason out none none none

/-- A traced copy that had been enqueued for link `l`, and selected at `sel` where it had been, is dropped (R365, R366). -/
def traceEntry (s : Blk) (l : Nat) (e : QEntry) (sel : Option Nat) (point reason : Nat) : Blk :=
  s.traceOut (((s.copy? e.copy).bind CopyRec.tag).map (TraceTag.marked e.ce)) 2 point reason l (some (e.enq, e.depth)) sel none

/-- A traced copy drops out of its egress queue on link `l` (R366). -/
def traceQueued (s : Blk) (l : Nat) (e : QEntry) (reason : Nat) : Blk := s.traceEntry l e none 3 reason

/-- The drop point and the reason of a copy that is discarded because its frame is cut short (R527): R366 gives none for it but where
what cuts it has one. Free values. -/
def cutCodes (s : Blk) (why : Option (Nat × Nat)) : (Nat × Nat) × Blk :=
  match why with
  | some w => (w, s)
  | none => let (p, s) := s.free 4; let (r, s) := s.free 8; ((p, r), s)

/-- A traced frame is dropped in the pipeline (R366); it gives no further record. -/
def traceFrame (s : Blk) (fid point reason : Nat) : Blk :=
  match s.frame? fid with
  | none => s
  | some r => (s.traceOut r.tag 2 point reason 0 none none none).putFrame fid { r with tag := none }

end Sys2Proof.Machine.Blk
end

