-- ==== Sys2Proof/Machine/Wire.lean ====
section
/-!
DEFINITION. What goes over a link's medium: the bytes of link control frames (R50, R51), link words (R55), keepalive words
(R67), and the loopbacks of R74.
-/

namespace Sys2Proof.Machine

/-- The code of a link control frame's type (R51). -/
def LcfType.code : LcfType → Nat
  | .cap => 1
  | .credit => 2
  | .audit => 3
  | .resyncReq => 4
  | .resyncMark => 5
  | .resyncAck => 6
  | .kaReq => 7
  | .kaAck => 8
  | .wake => 9

/-- The 46-byte payload of a link control frame (R51). -/
def lcfBytes (t : LcfType) (b : Lcf) : List Byte :=
  beBytes 1 t.code ++ beBytes 1 b.llv.toNat ++ beBytes 2 b.features.toNat ++ beBytes 2 b.rxHold.toNat ++
  beBytes 4 b.txStamp.toNat ++ beBytes 4 b.echoStamp.toNat ++
  ((List.range 8).flatMap fun c => beBytes 2 (b.classVal.getD c 0).toNat) ++
  beBytes 2 b.maxFrame.toNat ++ beBytes 1 (if b.conf then 1 else 0) ++ List.replicate 13 0

/-- The body of a link control frame, read from its payload (R51). -/
def lcfBody (b : List Byte) : Lcf :=
  { llv := BitVec.ofNat 8 (beAt b 1 1), features := BitVec.ofNat 16 (beAt b 2 2), rxHold := BitVec.ofNat 16 (beAt b 4 2),
    txStamp := BitVec.ofNat 32 (beAt b 6 4), echoStamp := BitVec.ofNat 32 (beAt b 10 4),
    classVal := (List.range 8).map fun c => BitVec.ofNat 16 (beAt b (14 + 2 * c) 2),
    maxFrame := BitVec.ofNat 16 (beAt b 30 2), conf := (beAt b 32 1).testBit 0 }

/-- A link control frame as it leaves (R50): 64 bytes with its FCS. The spec gives no source MAC address for it: an open value
of the device, one for each link. -/
def lcfFrame (etype l : Nat) (t : LcfType) (b : Lcf) : Frame :=
  { dmac := 0x0180C200000E, smac := BitVec.ofNat 48 (Config.linkMac l), tci := none, etype := BitVec.ofNat 16 etype,
    data := lcfBytes t b }

/-- A keepalive word's CRC-8, in the form of R55, over its wake flag (R67): the flag is fed as one byte, DESIGN CHOICE,
log entry 132. -/
def keepaliveCheck (wake : Bool) : BitVec 8 := BitVec.ofNat 8 (crc8 [if wake then 1 else 0])

/-- A link word of given fields, its check computed (R55). -/
def makeWord (lsn ack : Nat) (nak : Bool) (cls total : Nat) : BitVec 48 :=
  let top := lsn % 8192 * 2 ^ 27 + ack % 8192 * 2 ^ 14 + (if nak then 2 ^ 13 else 0) + cls % 8 * 2 ^ 10 + total % 1024
  BitVec.ofNat 48 (top * 256 + crc8 (beBytes 5 top))

/-- The medium time of what a link sends, in bytes: a frame with its preamble and gap, and for a preemption the mCRC, the gap and the
preamble that it adds (R16, R178). -/
def mediumBytes : Output → Nat
  | .frame _ _ f _ => frameLen f + 20
  | .lcf _ _ f => frameLen f + 20
  | .pfc _ _ _ => 84
  | .preempt _ => 24
  | _ => 0

namespace Blk

/-- The link word of a frame that carries `lsn` (R55). It acknowledges the frame before the next to deliver; the class whose
credits it reports is lsn modulo 8, DESIGN CHOICE, log entry 131: the spec names none. -/
def linkWord (s : Blk) (l lsn : Nat) (nak : Bool) : BitVec 48 :=
  let r := s.link l
  makeWord lsn (r.nextLsn + 8191) nak (lsn % 8) (vget r.returned (lsn % 8))

/-- A reload of the tile failed: it is left dark (R393). -/
def leftDark (s : Blk) (t : Nat) : Bool := s.loaded.find t = some none

/-- A port's optics are dark: its engine's domain is not ON, a failed load left its tile dark, or in recovery mode, in the hold of
R505 and after a thermal trip those of every port are (R392, R393, R423, R505, R520). -/
def portDark (s : Blk) (l : Nat) : Bool :=
  !s.domOn (32 + tileOf l) || s.leftDark (tileOf l) || s.fld .IMG_BOOT_phase 0 = 3 || s.powerHold || s.tripped

/-- A link has transmitted for the time of `n` bytes (R116). -/
def transmitted (s : Blk) (l n : Nat) : Blk :=
  { s with linkBusy := s.linkBusy.set .reset l ((s.linkBusy.get .reset l).add s.cmapSlot n) }

/-- What a link sends goes to the medium, unless the port is dark; in near-end loopback to its own receiver, and in far-end loopback,
where the medium carries the data received, nowhere (R74). -/
def onWire (s : Blk) (l : Nat) (o : Output) : Blk :=
  let s := s.transmitted l (mediumBytes o)
  match s.fld .TIL_PORT_MODE_loopback (portOf l) with
  | 1 => s.emit (.nearEnd o)
  | 2 => s
  | _ => if s.portDark l then s else s.emit o

/-- What a link receives is sent back in far-end loopback (R74). -/
def sendBack (s : Blk) (l : Nat) (w : Option (BitVec 48)) (f : Frame) : Blk :=
  if s.fld .TIL_PORT_MODE_loopback (portOf l) = 2 then s.emit (.farEnd l w f) else s

/-- Quartz time in ns on the link's tile, low 32 bits (R36, R51). -/
def stamp (s : Blk) (l : Nat) : Nat := s.tileNs (tileOf l) % 2 ^ 32

/-- Send a link control frame; in Staketu mode it carries a link word with the last lsn sent (R50, R55). -/
def lcfNak (s : Blk) (l : Nat) (t : LcfType) (b : Lcf) (nak : Bool) : Blk :=
  s.onWire l (.lcf l (if s.staketu l then some (s.linkWord l (s.link l).lsn nak) else none)
    (lcfFrame s.imgLcf l t { b with txStamp := BitVec.ofNat 32 (s.stamp l) }))

/-- Send a link control frame that asks for no replay. -/
def lcf (s : Blk) (l : Nat) (t : LcfType) (b : Lcf) : Blk := s.lcfNak l t b false

/-- Send a PFC frame for a class: XOFF with 0xFFFF quanta, XON with 0 (R70). -/
def sendPfc (s : Blk) (l c : Nat) (xoff : Bool) : Blk := s.onWire l (.pfc l c (if xoff then 0xFFFF else 0))

/-- Send a keepalive word (R67). -/
def sendKeepalive (s : Blk) (l : Nat) (wake : Bool) : Blk := s.onWire l (.keepalive l wake (keepaliveCheck wake))

end Blk

end Sys2Proof.Machine
end

