-- ==== Sys2Proof/Machine/Xeirrik.lean ====
section
/-!
DEFINITION. Xeirrik frames: the header (R84), the check (R140), the fields that forwarding and replication rewrite (R86,
R236), and frames of the block's own.
-/

namespace Sys2Proof.Machine

/-- The fields of a Xeirrik header (R84). -/
structure XHeader where
  ver : Nat
  sprayOk : Bool
  mcast : Bool
  dst : Nat
  tc : Nat
  src : Nat
  hop : Nat
  opcode : Nat
  seq : Nat
  len : Nat
  deriving DecidableEq, Repr

/-- Read a Xeirrik header (R84). -/
def xHeader (b : List Byte) : XHeader :=
  let b0 := beAt b 0 1
  let d := beAt b 1 3
  let e := beAt b 4 3
  { ver := b0 / 16, sprayOk := b0.testBit 3, mcast := b0.testBit 2, dst := d / 16, tc := d / 2 % 8, src := e / 16,
    hop := e % 16, opcode := beAt b 7 1, seq := beAt b 8 4, len := beAt b 12 2 }

/-- The check of a Xeirrik header and payload: ce, hop_limit and check taken as 0 (R140). -/
def xCheck (b : List Byte) : Nat :=
  let h := b.take 28
  let h := (h.getD 0 0 &&& 0xFD) :: (h.drop 1).take 5 ++ (h.getD 6 0 &&& 0xF0) :: (h.drop 7) ++ List.replicate 4 0
  crc32c (h ++ (b.drop 32).take (beAt b 12 2))

/-- A frame's check is right (R140). -/
def xCheckOk (b : List Byte) : Bool := xCheck b = beAt b 28 4

/-- hop_limit one lower (R86). -/
def decHop (f : Frame) : Frame :=
  { f with data := f.data.take 6 ++ ((f.data.getD 6 0 - 1) :: f.data.drop 7) }

/-- The header fields of a Xeirrik frame of the block's own (R84). -/
structure XOwn where
  etype : Nat
  sprayOk : Bool
  mcast : Bool
  dst : Nat
  tc : Nat
  src : Nat
  hop : Nat
  opcode : Nat
  seq : Nat
  opArea : List Byte
  payload : List Byte
  deriving DecidableEq, Repr

/-- A Xeirrik frame of the block's own: header, payload, check and padding to 64 bytes (R84, R85, R140). Its MAC addresses
are given: the spec names none. -/
def xFrame (dmac smac : Nat) (x : XOwn) : Frame :=
  let b0 := 16 + (if x.sprayOk then 8 else 0) + (if x.mcast then 4 else 0)
  let head := beBytes 1 b0 ++ beBytes 3 (x.dst * 16 + x.tc * 2) ++ beBytes 3 (x.src * 16 + x.hop) ++ beBytes 1 x.opcode ++
    beBytes 4 x.seq ++ beBytes 2 x.payload.length ++ beBytes 2 0 ++ (x.opArea ++ List.replicate 12 0).take 12
  let bare := head ++ List.replicate 4 0 ++ x.payload
  let pad := List.replicate (46 - bare.length) (0 : Byte)
  { dmac := BitVec.ofNat 48 dmac, smac := BitVec.ofNat 48 smac, tci := none, etype := BitVec.ofNat 16 x.etype,
    data := head ++ beBytes 4 (xCheck bare) ++ x.payload ++ pad }

/-- The fields that the egress tile writes for a receiving member, dst_eid, member and check (R236). -/
def addressTo (f : Frame) : Option (Nat × Nat) → Frame
  | none => f
  | some (eid, m) =>
    let b := f.data
    let w := beAt b 16 12
    let w' := w - bits w 59 50 * 2 ^ 50 + m * 2 ^ 50
    let head := b.take 1 ++ beBytes 3 (beAt b 1 3 % 16 + eid * 16) ++ (b.drop 4).take 12 ++ beBytes 12 w'
    let rest := b.drop 32
    { f with data := head ++ beBytes 4 (xCheck (head ++ List.replicate 4 0 ++ rest)) ++ rest }

/-- Make a Xeirrik frame of the block's own, its MAC addresses free values. -/
def Blk.ownFrame (s : Blk) (x : XOwn) : Frame × Blk :=
  let (dmac, s) := s.free 48
  let (smac, s) := s.free 48
  (xFrame dmac smac x, s)


end Sys2Proof.Machine
end

