-- ==== Sys2Proof/Machine/Contexts.lean ====
section
/-!
DEFINITION. The collective groups and contexts (chapter 7) as links, pairs and engines see them: table entries (R223 to
R225), homes (R226), what a context still awaits (R237), what it needs (R247) and how it fails (R243 to R245).
-/

namespace Sys2Proof.Machine

/-- The context number of sequence number `q` in group `g` (R227). -/
def ctxNum (g q : Nat) : Nat := g * 65536 + q

namespace CtxRec

/-- A context whose chunks Garnet reduces. -/
def reducing (c : CtxRec) : Bool := c.kind = 1 || c.kind = 2

/-- Its member count n. -/
def count (c : CtxRec) : Nat := c.members.length

/-- First home tile and number of home tiles, of bytes 7 and 8 of the group entry (R224). -/
def homeRun (c : CtxRec) : Nat × Nat := (bits c.entry 68 64, bits c.entry 61 56)

/-- The home tile of chunk `k` (R226). -/
def home (c : CtxRec) (k : Nat) : Nat := (c.homeRun.1 + (k + c.desc.seq.toNat) % max 1 c.homeRun.2) % 32

/-- The home tiles of a context that Garnet, or a barrier's count, uses (R247). -/
def homes (c : CtxRec) : List Nat :=
  if c.kind = 5 then [c.home 0] else (List.range c.homeRun.2).map fun k => (c.homeRun.1 + k) % 32

/-- Pieces or arrivals owed by member `m` of a context that does not reduce (R237). -/
def pieces (c : CtxRec) (m : Nat) : Nat :=
  match c.kind with
  | 3 => c.chunks
  | 4 => if m = c.desc.member.toNat % 1024 then c.chunks else 0
  | _ => 1

/-- Member `m` still owes something (R237). -/
def owes (c : CtxRec) (m : Nat) : Bool :=
  if c.reducing then (c.taken.filter fun kv => kv.2.testBit m).length < c.chunks
  else c.taken.get 0 m < c.pieces m

/-- The members from which anything is still owed. -/
def missing (c : CtxRec) : List Nat := (List.range c.count).filter c.owes

/-- Everything owed has been taken (R243). -/
def allTaken (c : CtxRec) : Bool :=
  if c.reducing then c.taken.length = c.chunks && c.taken.all fun kv => kv.2 = 2 ^ c.count - 1
  else (List.range c.count).all fun m => !c.owes m

/-- A die holds a member link. -/
def memberOn (c : CtxRec) (d : Nat) : Bool := c.members.any fun m => dieOf m.1 = d

/-- The context needs a pair (R247). -/
def needsPair (c : CtxRec) (p : Nat) : Bool :=
  let (i, j) := pairDies p
  if c.kind = 3 || c.kind = 4 then c.memberOn i && c.memberOn j
  else
    let on := fun d => c.homes.any fun t => dieOfTile t = d
    c.memberOn i && on j || c.memberOn j && on i

/-- Fail a context with a status; one marked by a reset ends with RESET (R243, R413). One whose record is made has ended (R477). -/
def fail (c : CtxRec) (status : Nat) : CtxRec :=
  if c.state = .failing || c.recorded then c else { c with state := .failing, status := if c.marked then 6 else status }

end CtxRec

namespace Blk

/-- Bytes 0 to 15 of a group entry of a die's copy (R224, R225). -/
def groupEntry (s : Blk) (d g : Nat) : Nat := s.groups.get 0 (4096 * d + g)

/-- A member entry of a die's copy. -/
def memberEntry (s : Blk) (d i : Nat) : Nat := s.members.get 0 (65536 * d + i)

/-- What the controller keeps of a group. -/
def groupState (s : Blk) (g : Nat) : GroupHw := s.groupHw.get ⟨false, 0, 0⟩ g

/-- Change what the controller keeps of a group. -/
def updGroup (s : Blk) (g : Nat) (f : GroupHw → GroupHw) : Blk :=
  { s with groupHw := s.groupHw.set ⟨false, 0, 0⟩ g (f (s.groupState g)) }

/-- The die whose table copies the controller reads: the lowest-numbered one whose management domain is ON. -/
def liveDie (s : Blk) : Nat := ((List.range 4).find? fun d => s.domOn (156 + d)).getD 0

/-- A context by its number. -/
def ctx? (s : Blk) (k : Nat) : Option CtxRec := s.contexts.find k

/-- Replace a context. -/
def putCtx (s : Blk) (k : Nat) (c : CtxRec) : Blk := { s with contexts := s.contexts.put k c }

/-- An engine. -/
def engine (s : Blk) (t : Nat) : Engine := s.engines.get .reset t

/-- Change an engine; GRN_STATUS.chunks follows (R221). -/
def updEngine (s : Blk) (t : Nat) (f : Engine → Engine) : Blk :=
  let e := f (s.engine t)
  ({ s with engines := s.engines.set .reset t e }).setFld .GRN_STATUS_chunks t (min 65535 (e.chunks.length + e.copies.length))

/-- A frame of the same link and class, arrived before frame `fid`, holds back the later ones: a contribution refused for
space (R209), a request refused an update entry (R272), or an ordered store that waits (R126, R271). -/
def heldBack (s : Blk) (fid : Nat) (r : FrameRec) : Bool :=
  (s.memWait ++ ((s.ordWait.filter fun w => s.ordApplied.get 0 w.2.1 < w.2.2).map Prod.fst) ++
      s.engines.flatMap fun (e : Nat × Engine) => e.2.refused).any fun (f : Nat) =>
    f < fid && match s.frame? f with
    | none => false
    | some x => x.link = r.link && x.cls = r.cls

/-- A link has gone down: every OPEN context that awaits something from a member behind it fails with MEMBER_LOST (R245). -/
def membersLost (s : Blk) (l : Nat) : Blk :=
  { s with contexts := s.contexts.map fun kv =>
      (kv.1, if kv.2.state = .opened && kv.2.missing.any fun m => (kv.2.members.map Prod.fst)[m]? = some l then kv.2.fail 2
             else kv.2) }

/-- A pair has gone down: every context that needs it fails with PATH_DOWN (R247). -/
def pathsDown (s : Blk) (p : Nat) : Blk :=
  { s with contexts := s.contexts.map fun kv => (kv.1, if kv.2.needsPair p then kv.2.fail 5 else kv.2) }

/-- A chunk of a context has failed: the first one is noted, one aborted on the context's own failure among them (R243, R249,
R252). -/
def chunkFailed (s : Blk) (id : ChunkId) (status : Nat) : Blk :=
  match s.ctx? id.ctx with
  | none => s
  | some c =>
    if c.epoch = id.epoch && !c.recorded then
      s.putCtx id.ctx (if c.badStatus = 0 then { c.fail 3 with badStatus := status, badChunk := id.chunk } else c.fail 3)
    else s

end Blk

end Sys2Proof.Machine
end

