-- ==== Sys2Proof/Machine/FeldTime.lean ====
section
/-!
DEFINITION. Feldspar's gates, shapers and buckets (chapter 5): the gate list as a function of hall time (R172 to R176),
peak-rate buckets (R167) and credit-based shapers (R168, R169).
-/

namespace Sys2Proof.Machine

/-- A part of a gate cycle: its entry, its gate vector, its start and its end in ns from the cycle's start. -/
structure GateSeg where
  entry : Nat
  gates : Nat
  start : Nat
  stop : Nat
  deriving DecidableEq, Repr

/-- Lay entries out from `t` until the cycle's end; entries with interval 0 are skipped, what passes the end is cut, and
the last entry holds until the end (R172). -/
def layGates (cycle : Nat) : List (Nat × Nat × Nat) → Nat → List GateSeg
  | [], _ => []
  | (e, g, n) :: rest, t =>
    if n = 0 then layGates cycle rest t
    else if cycle ≤ t then []
    else
      let tail := layGates cycle rest (t + n)
      if tail = [] then [⟨e, g, t, cycle⟩] else ⟨e, g, t, min (t + n) cycle⟩ :: tail

/-- The time a class's gate is open in a list of segments before time `t` of the cycle, in units of 2⁻⁴⁸ ns. -/
def openBefore (segs : List GateSeg) (c t : Nat) : Nat :=
  (segs.map fun g => if c = 7 || g.gates.testBit c then min t (2 ^ 48 * g.stop) - min t (2 ^ 48 * g.start) else 0).sum

/-- Time from `t` until a class's gate closes, following the segments of two cycles; none: it does not close. -/
def closesAfter (cycle : Nat) (segs : List GateSeg) (c t : Nat) : Option Nat :=
  let later := (segs.filter fun g => t < g.stop) ++ (segs.map fun g => { g with start := g.start + cycle, stop := g.stop + cycle })
  (later.find? fun g => ¬(c = 7 ∨ g.gates.testBit c)).map fun g => g.start - t

/-- The longest time a class's gate stays open in a cyclic list; none: it never closes (R174). -/
def longestOpen (cycle : Nat) (segs : List GateSeg) (c : Nat) : Option Nat :=
  if segs.all fun g => c = 7 || g.gates.testBit c then none
  else some ((segs.map fun g =>
    if c = 7 || g.gates.testBit c then (closesAfter cycle segs c g.start).getD 0 else 0).foldl max 0)

namespace Blk

/-- Core clocks elapsed (R34). -/
def clocks (s : Blk) : Nat := s.now * 7 / 4

/-- A frame was dropped on a link's egress (R116). -/
def dropOnLink (s : Blk) (l : Nat) : Blk :=
  { s with linkDrops := s.linkDrops.set .reset l ((s.linkDrops.get .reset l).add s.cmapSlot 1) }

/-! ### Gates -/

/-- The cycle time of a bank, at least 1,000 ns (R187). -/
def gateCycle (s : Blk) (l b : Nat) : Nat := max 1000 (s.fld .FLD_GATE_CYCLE_NS_cycle (2 * l + b))

/-- The base time of a bank in ns of hall time (R172, R187). -/
def gateBase (s : Blk) (l b : Nat) : Nat :=
  s.fld .FLD_GATE_BASE_S_sec (2 * l + b) * 10 ^ 9 + min 999999999 (s.fld .FLD_GATE_BASE_NS_nsec (2 * l + b))

/-- The segments of a bank's cycle (R172, R187). -/
def gateSegs (s : Blk) (l b : Nat) : List GateSeg :=
  let n := min 64 (max 1 (s.fld (if b = 0 then .FLD_GATE_CTL_len0 else .FLD_GATE_CTL_len1) l))
  layGates (s.gateCycle l b) ((List.range n).map fun e =>
    (e, s.fld .FLD_GATE_ENT_gates ((2 * l + b) * 64 + e), s.fld .FLD_GATE_ENT_interval ((2 * l + b) * 64 + e))) 0

/-- The active bank of a link. -/
def gateBank (s : Blk) (l : Nat) : Nat := s.fld .FLD_GATE_STATUS_active l

/-- The bank in force at hall time `t`: a pending switch comes at its instant (R175). -/
def bankAt (s : Blk) (l t : Nat) : Nat :=
  match (s.feldOf l).switchAt with
  | some a => if a ≤ t then 1 - s.gateBank l else s.gateBank l
  | none => s.gateBank l

/-- A link's gates follow its list: gate_en, hall time valid and the tile's copy in step (R172, R176, R353). -/
def gated (s : Blk) (l : Nat) : Bool :=
  s.flag .FLD_GATE_CTL_gate_en l && s.hallValid && s.bit .QTZ_TILE_SYNC_sync 0 (tileOf l)

/-- The time within a bank's cycle at hall time `t` in ns. -/
def gatePhase (s : Blk) (l b t : Nat) : Nat :=
  (((t : Int) - s.gateBase l b) % s.gateCycle l b).toNat

/-- The entry in force at hall time `t` (R172). -/
def gateEntry (s : Blk) (l t : Nat) : Nat :=
  let b := s.gateBank l
  let ph := s.gatePhase l b t
  ((s.gateSegs l b).find? fun g => g.start ≤ ph && ph < g.stop).elim 0 (·.entry)

/-- A class's gate is open at hall time `t`. A list whose intervals sum to 0 holds every gate open (R172). -/
def gateOpen (s : Blk) (l c t : Nat) : Bool :=
  if s.gated l then
    let b := s.bankAt l t
    let ph := s.gatePhase l b t
    ((s.gateSegs l b).find? fun g => g.start ≤ ph && ph < g.stop).elim true fun g => c = 7 || g.gates.testBit c
  else true

/-- The time from hall time `t` until a class's gate closes by a bank's list alone. -/
def bankCloses (s : Blk) (l b c t : Nat) : Option Nat :=
  closesAfter (s.gateCycle l b) (s.gateSegs l b) c (s.gatePhase l b t)

/-- The time from hall time `t` until a class's gate closes; none: it does not. A pending switch cuts the list in force at its
instant, and the new list goes on from there (R173, R175). -/
def closesIn (s : Blk) (l c t : Nat) : Option Nat :=
  let old := s.bankCloses l (s.bankAt l t) c t
  match (s.feldOf l).switchAt with
  | none => old
  | some a =>
    if a ≤ t || old.any (· ≤ a - t) then old
    else (s.bankCloses l (1 - s.gateBank l) c a).map fun d => a - t + d

/-- A frame of `bytes` bytes started at hall time `t` ends, its gap counted, before its class's gate closes (R173). -/
def gateFits (s : Blk) (l c t bytes : Nat) : Bool :=
  if s.gated l then
    match s.closesIn l c t with
    | none => true
    | some room => (bytes + 12) * 8000 ≤ room * s.linkRate l
  else true

/-- The time that a class's gate is open by a bank's list between two hall times, all in units of 2⁻⁴⁸ ns (R172). -/
def bankOpen (s : Blk) (l b c : Nat) (x y : Int) : Int :=
  let cycle := 2 ^ 48 * s.gateCycle l b
  let segs := s.gateSegs l b
  let upTo (z : Int) : Int := z / cycle * openBefore segs c cycle + openBefore segs c (z % cycle).toNat
  let base : Int := 2 ^ 48 * s.gateBase l b
  if segs = [] then y - x else upTo (y - base) - upTo (x - base)

/-- The same by the bank in force: a pending switch comes at its instant (R175). -/
def openFine (s : Blk) (l c : Nat) (x y : Int) : Int :=
  match (s.feldOf l).switchAt with
  | none => s.bankOpen l (s.gateBank l) c x y
  | some a =>
    let m := max x (min y (2 ^ 48 * a))
    s.bankOpen l (s.gateBank l) c x m + s.bankOpen l (1 - s.gateBank l) c m y

/-- The core clocks, and the part of one, in which a class's gate is open in the `d` ns that end `lead` ns from now. Gates follow
hall time, which runs at a rate of its own (R34, R172, R347). -/
def openClocks (s : Blk) (l c d lead : Nat) : Rat :=
  if s.gated l then
    let y := s.hallFine lead
    7 * s.openFine l c (y - s.hallStep d) y / (4 * s.hallStep 1)
  else 7 * d / 4

/-! ### Buckets and shapers -/

/-- The size of a queue's peak-rate bucket in units of 2⁻¹⁶ bit (R167). -/
def bucketCap (s : Blk) (q : Nat) : Int := s.fld .FLD_SUB_CFG_burst q * 2048 * 65536

/-- The tokens of a queue's peak-rate bucket `lead` ns from now (R167). -/
def tokensIn (s : Blk) (q lead : Nat) : Int :=
  match s.buckets.find q with
  | none => s.bucketCap q
  | some (tok, at_) => min (s.bucketCap q) (tok + (s.fld .FLD_SUB_CFG_rate q * 65536 / 1750) * ((s.now + lead) * 7 / 4 - at_))

/-- The tokens of a queue's peak-rate bucket now. -/
def tokens (s : Blk) (q : Nat) : Int := s.tokensIn q 0

/-- A queue's bucket allows its head frame, `lead` ns from now (R163, R167). -/
def bucketAllows (s : Blk) (q lead : Nat) : Bool := s.fld .FLD_SUB_CFG_rate q = 0 || 0 ≤ s.tokensIn q lead

/-- Replace a queue's tokens as of now. -/
def putTokens (s : Blk) (q : Nat) (t : Int) : Blk := { s with buckets := s.buckets.put q (t, s.clocks) }

/-- The cap of a class's shaper credit in units of 2⁻¹⁶ bit (R168). -/
def cbsCap (s : Blk) (l c : Nat) : Int := s.fld .FLD_CBS_CFG_hi_limit (8 * l + c) * 512 * 65536

/-- The sub-port that owns subscriber node `n` of port `p` (R160, R185). -/
def nodeOwner (s : Blk) (p n : Nat) : Nat := s.fld .FLD_PORT_SPLIT_nodes p / 4 ^ n % 4

/-- The link that a subscriber queue belongs to (R160). -/
def queueLink (s : Blk) (q : Nat) : Nat := 4 * (q / 256) + s.nodeOwner (q / 256) (q % 32)

/-- A class of a link holds no frame. -/
def classEmpty (s : Blk) (l c : Nat) : Bool :=
  (List.range 32).all fun n => s.nodeOwner (portOf l) n ≠ subOf l || s.queue (256 * portOf l + 32 * c + n) = []

/-- A class of a link holds no frame and is not transmitting (R168). -/
def classIdle (s : Blk) (l c : Nat) : Bool := s.classEmpty l c && !(s.feldOf l).tx.any (·.cls = c)

/-- A class's shaper counted up to `lead` ns from now: it gains in the clocks in which its gate is open, and an idle class keeps no
credit above 0 but while its gate is closed (R168, R169). -/
def cbsIn (s : Blk) (l c lead : Nat) (r : Shaper) : Shaper :=
  let opened := s.openClocks l c (s.now + lead - r.upTo) lead
  let clocks := (r.part + opened).floor
  let v := min (s.cbsCap l c) (r.credit + (s.fld .FLD_CBS_CFG_idle_slope (8 * l + c) * 65536 / 1750 : Nat) * clocks)
  ⟨if s.classIdle l c && (0 < opened || s.gateOpen l c (s.quartzIn lead)) then min 0 v else v, s.now + lead,
    r.part + opened - clocks⟩

/-- A class's shaper credit `lead` ns from now. -/
def cbsCreditIn (s : Blk) (l c lead : Nat) : Int :=
  match (s.feldOf l).cbs.find c with
  | none => 0
  | some r => (s.cbsIn l c lead r).credit

/-- A class's shaper credit now. -/
def cbsCredit (s : Blk) (l c : Nat) : Int := s.cbsCreditIn l c 0

/-- Replace a class's shaper credit as of now. -/
def putCbs (s : Blk) (l c : Nat) (v : Int) : Blk :=
  let part := (((s.feldOf l).cbs.find c).map fun r => (s.cbsIn l c 0 r).part).getD ((7 * s.now % 4 : Nat) / 4)
  s.updFeld l fun f => { f with cbs := f.cbs.put c ⟨v, s.now, part⟩ }

/-- A class's shaper is counted up to now, before what it depends on changes. -/
def settleClass (s : Blk) (l c : Nat) : Blk :=
  if ((s.feldOf l).cbs.find c).isSome then s.putCbs l c (s.cbsCredit l c) else s

/-- A link's shapers are counted up to now. -/
def settleCbs (s : Blk) (l : Nat) : Blk := (List.range 8).foldl (fun s c => s.settleClass l c) s

/-- A class's shaper allows its frame, `lead` ns from now (R163, R168). -/
def cbsAllows (s : Blk) (l c lead : Nat) : Bool := !s.flag .FLD_CLS_CFG_cbs_en (8 * l + c) || 0 ≤ s.cbsCreditIn l c lead

/-- A frame is about to join a class: its shaper is counted up to then (R168, R169). -/
def classWakes (s : Blk) (l c : Nat) : Blk :=
  if s.flag .FLD_CLS_CFG_cbs_en (8 * l + c) then s.putCbs l c (s.cbsCredit l c) else s

/-! ### The TC7 contract (R179) -/

/-- The size of a link's TC7 contract bucket in units of 2⁻¹⁶ bit. -/
def tc7Size (s : Blk) (l : Nat) : Int := s.fld .FLD_TC7_MON_burst l * 16 * 8 * 65536

/-- The tokens of a link's TC7 contract now. -/
def tc7Tokens (s : Blk) (l : Nat) : Int :=
  match (s.feldOf l).tc7 with
  | none => s.tc7Size l
  | some (tok, at_) => min (s.tc7Size l) (tok + (s.fld .FLD_TC7_MON_rate l * 65536 / 1750) * (s.clocks - at_))

/-- Replace a link's TC7 tokens as of now. -/
def putTc7 (s : Blk) (l : Nat) (v : Int) : Blk := s.updFeld l fun f => { f with tc7 := some (v, s.clocks) }

/-- A TC7 frame is charged to its link's contract, or counted as exceeding it (R179). -/
def tc7Monitor (s : Blk) (l bytes : Nat) : Blk :=
  let charge : Int := (bytes + 20) * 8 * 65536
  if charge ≤ s.tc7Tokens l then s.putTc7 l (s.tc7Tokens l - charge)
  else ((s.putTc7 l (s.tc7Tokens l)).count .FLD_TC7_OVER_count (tileOf l) 1).raise .FLD_INT_tc7_over (tileOf l)

/-- FLD_TC7_MON takes a new rate and burst: the bucket has filled at the old rate until now (R179). -/
def tc7MonWrite (s : Blk) (l rate burst : Nat) : Blk :=
  let tok := s.tc7Tokens l
  let s := (s.setFld .FLD_TC7_MON_rate l rate).setFld .FLD_TC7_MON_burst l burst
  s.putTc7 l (min (s.tc7Size l) tok)

end Blk

end Sys2Proof.Machine
end

