-- ==== Sys2Proof/Machine/Effects.lean ====
section
/-!
DEFINITION. Effects that several families of commands share: what becomes of cells, copies and staged frames, and the
effects of a link or a die pair going down.
-/

namespace Sys2Proof.Machine.Blk

/-! ### Basalt cells -/

/-- A tile's slice of its die's buffer is out of service: the tile's domain is off or on its way to ON (R423, R443). -/
def sliceOff (s : Blk) (t : Nat) : Bool := s.fld .PWR_DOM_STATUS_state t = 0 || s.fld .PWR_DOM_STATUS_state t = 2

/-- Cell `n` of a die is out of service: in a slice that is, or retired by repair. The commands say how many cells a repair
retires and not which: the model takes the highest-numbered of the die (DESIGN CHOICE, log entry 32). -/
def cellOut (s : Blk) (d n : Nat) : Bool :=
  s.sliceOff (8 * d + n / 65536) || 524288 ≤ n + s.fld .BSL_REPAIRED_count d

/-- Cells of slice `k` of a die that are out of service. -/
def sliceOut (s : Blk) (d k : Nat) : Nat :=
  if s.sliceOff (8 * d + k) then 65536 else min 65536 (s.fld .BSL_REPAIRED_count d - 65536 * (7 - k))

/-- The cells of a die out of service and not owned any more (R144, R157). -/
def retired (s : Blk) (d : Nat) : Nat :=
  ((List.range 8).map (s.sliceOut d)).sum - ((s.bsl d).cells.filter fun kv => s.cellOut d kv.1).length

/-- `n` cells of a die's free list from number `i` on, the lowest first; a slice out of service is passed over whole. The spec
does not say which free cells a grant takes: the lowest-numbered are taken (DESIGN CHOICE, log entry 32). -/
def freeFrom (s : Blk) (d : Nat) : Nat → Nat → Nat → List Nat
  | 0, _, _ => []
  | fuel + 1, i, n =>
    if n = 0 || 524288 ≤ i then []
    else if s.sliceOff (8 * d + i / 65536) then s.freeFrom d fuel ((i / 65536 + 1) * 65536) n
    else if s.cellOut d i || ((s.bsl d).cells.find i).isSome then s.freeFrom d fuel (i + 1) n
    else i :: s.freeFrom d fuel (i + 1) (n - 1)

/-- The cells that a grant of `n` takes. -/
def pickCells (s : Blk) (d n : Nat) : List Nat := s.freeFrom d ((s.bsl d).cells.length + n + 8) 0 n

/-- Cells leave the free list for a reservation, or for a spill allocation that counts as queued (R139, R208). -/
def ownCells (s : Blk) (d : Nat) (cells : List Nat) (u : CellUse) : Blk :=
  s.updBsl d fun b => { b with cells := cells.foldl (fun t n => t.put n u) b.cells }

/-- A reservation becomes queue references (R139). -/
def enqueueCells (s : Blk) (d : Nat) (cells : List Nat) : Blk :=
  s.updBsl d fun b => { b with cells := b.cells.map fun kv => if cells.contains kv.1 then (kv.1, { kv.2 with queued := true }) else kv }

/-- Cells are written, each as a whole (R139). -/
def writeCells (s : Blk) (d : Nat) (w : List (Nat × List Byte)) : Blk :=
  s.updBsl d fun b => { b with bytes := w.foldl (fun t x => t.set (List.replicate 256 0) x.1 x.2) b.bytes }

/-- Cells are filled with zeros (R139, R146). -/
def zeroCells (s : Blk) (d : Nat) (cells : List Nat) : Blk :=
  s.updBsl d fun b => { b with bytes := b.bytes.keep fun n _ => !cells.contains n }

/-- Cell `i` of a copy is written into its die's buffer. -/
def writeCopyCell (s : Blk) (key i : Nat) (c : CopyRec) : Blk :=
  match c.cells[i]? with
  | none => s
  | some n => s.writeCells (key % 4) [(n, cellBytes c.frame i)]

/-- Cells go back to the free list. -/
def freeCells (s : Blk) (d : Nat) (cells : List Nat) : Blk :=
  s.updBsl d fun b => { b with cells := b.cells.keep fun n _ => !cells.contains n, astray := b.astray.filter fun n => !cells.contains n }

/-- `n` cells of an engine's spill allocation are returned (R210): those of them still on its record go back to the free list. -/
def spillGive (s : Blk) (t n : Nat) (cells : List Nat) : Blk :=
  (s.setFld .GRN_SPILL_USED_cells t (s.fld .GRN_SPILL_USED_cells t - n)).freeCells (dieOfTile t) cells

/-- Requests of an engine for spill cells end, and the cells granted to them are returned (R208 to R210). -/
def endAsks (s : Blk) (t : Nat) (p : SpillAsk → Bool) : Blk :=
  let ended := (s.spill t).filter p
  let left := fun (l : List (Nat × Request)) => l.filter fun q => !ended.any fun (a : SpillAsk) => q.2 = .spill t a.frame
  let s := ended.foldl (fun s a => s.spillGive t a.got a.cells) s
  (s.updSpill t fun l => l.filter fun a => !p a).updBsl (dieOfTile t) fun b =>
    { b with requests := left b.requests, carried := left b.carried }

/-- A frame no longer waits: for space, for an update entry, for its predecessors, or to be asked for again (R208, R209, R271,
R272). -/
def forget (s : Blk) (fid : Nat) : Blk :=
  let s := s.spills.keys.foldl (fun s t => s.endAsks t fun a => a.frame = fid) s
  { s with memWait := s.memWait.filter fun f => f ≠ fid, ordWait := s.ordWait.del fid,
           engines := s.engines.mapV .reset fun _ e => { e with refused := e.refused.filter fun f => f ≠ fid } }

/-! ### Crossing to an engine (R24, R27, R30) -/

/-- A frame has reached a die: it came in on it, or has wholly crossed. -/
def crossed (s : Blk) (fid : Nat) (r : FrameRec) (d : Nat) : Bool :=
  dieOfTile r.tile = d || match s.transfers.find (4 * fid + d) with
    | none => false
    | some t => t.ncells ≤ t.landed

/-! ### Staging -/

/-- The line-rate grant of an Ethernet-mode link, taken with a 1,500 ns round trip (R61, R70). -/
def pfcGrant (s : Blk) (l : Nat) : Nat := ceilDiv (s.linkRate l * 1900 / 1000 + s.imgMaxFrame * 8) 2048

/-- A link carries Ethernet traffic: UP in Ethernet mode, or in the EXCHANGE that interrupts it (R54, R69). -/
def ethernetMode (s : Blk) (l : Nat) : Bool :=
  !s.staketu l && (s.linkState l = 3 || (s.linkState l = 2 && (s.link l).fromUp))

/-- Send XOFF or XON for a class of an Ethernet-mode link when the cells charged cross the bounds of R70, taken with the grant
in force (R80). pfc_tx_en acts at the transition (R79): a class taken out of it ends its XOFF without an XON. -/
def pfcUpdate (s : Blk) (l c : Nat) : Blk :=
  let r := s.link l
  let grant := vget r.grant c
  let on := s.bit .TIL_LNK_PFC_CFG_pfc_tx_en l c
  if s.ethernetMode l then
    if on && !r.xoff.testBit c && vget r.charged c + s.pfcGrant l ≥ grant then
      (s.updLink l fun r => { r with xoff := r.xoff ||| 2 ^ c }).sendPfc l c true
    else if r.xoff.testBit c && vget r.charged c + 2 * s.pfcGrant l < grant then
      let s := s.updLink l fun r => { r with xoff := r.xoff ^^^ 2 ^ c }
      if on then s.sendPfc l c false else s
    else s
  else s

/-- Free `n` staging cells of a frame; the credits of its link and class are returned (R124, R57). -/
def releaseStaging (s : Blk) (tile : Nat) (link : Option Nat) (c n : Nat) : Blk :=
  match link with
  | none => s
  | some l =>
    ((s.setFld .TIL_STG_STATUS_used tile (s.fld .TIL_STG_STATUS_used tile - n)).updLink l fun r =>
      { r with charged := vsub r.charged c n, returned := vadd r.returned c n }).pfcUpdate l c

/-- A frame leaves staging whole: taken by an engine or the host path, or discarded. -/
def dropFrame (s : Blk) (fid : Nat) : Blk :=
  match s.frame? fid with
  | none => s
  | some r =>
    let s := if r.dest = .copies then s else s.traceOut r.tag 3 0 0 0 none none none
    (s.releaseStaging r.tile r.link r.cls (r.cells - r.freed)).delFrame fid

/-- Cells of a frame that a copy no longer needs in staging. -/
def copyDone (s : Blk) (key cells : Nat) : Nat :=
  match s.copy? key with
  | none => cells
  | some c => if c.phase = .written then cells else c.wrote

/-- Free the staging cells of a forwarded frame that every die's copy has in Basalt (R124, R133); a frame with none left
is forgotten once its tail has arrived. -/
def settle (s : Blk) (fid : Nat) : Blk :=
  match s.frame? fid with
  | none => s
  | some r =>
    if r.dest = .copies then
      let done := (List.range 4).foldl (fun m d => min m (s.copyDone (4 * fid + d) r.cells)) r.cells
      let s := (s.releaseStaging r.tile r.link r.cls (done - r.freed)).putFrame fid { r with freed := max done r.freed }
      if r.whole && (List.range 4).all (fun d => match s.copy? (4 * fid + d) with
          | none => true | some c => c.phase = .written) then s.delFrame fid else s
    else s

/-! ### Agate cells of a copy -/

/-- A copy's cells that have come to their turn in a landing buffer are discarded there, and their credits are on the way back
(R132, R150). Those still on the links, or behind a gap in their stream, keep their places in it and are discarded as they come to
their turn (R151). -/
def unland (s : Blk) (key : Nat) : Blk :=
  { s with agateDirs := s.agateDirs.mapV .reset fun _ a =>
      let gone := a.landing.filter fun x => x.copy = key && x.ready
      { a with landing := a.landing.filter fun x => !(x.copy = key && x.ready),
               inFlight := gone.foldl (fun v c => vadd v c.cls 1) a.inFlight } }

/-! ### Requests (R126 to R128, R134) -/

/-- A copy has not been decided by its die's allocator. -/
def undecided (c : CopyRec) : Bool :=
  c.phase = .held || c.phase = .toCross || c.phase = .crossing || c.phase = .asked || c.phase = .refused

/-- Live links from the sending die of a direction of a pair (R154). -/
def liveLinks (s : Blk) (k : Nat) : Nat :=
  if k % 2 = 0 then s.fld .D2D_PAIR_STATUS_live_ij (k / 2) else s.fld .D2D_PAIR_STATUS_live_ji (k / 2)

/-- Discard a die's copy of a frame: its request, its cells in Agate and Basalt, and the copy. -/
def discardCopy (s : Blk) (key : Nat) : Blk :=
  match s.copy? key with
  | none => s
  | some c =>
    let d := key % 4
    let s := s.unland key
    let s := s.updBsl d fun b => { b with requests := b.requests.filter (·.2 ≠ .copy key),
                                          carried := b.carried.filter (·.2 ≠ .copy key) }
    let s := s.freeCells d c.cells
    let s := match c.tx with
      | some r => if undecided c then s.txDone r 1 else s
      | none => s
    (s.delCopy key).settle (key / 4)

/-- Put a copy's request before its die's allocator: directly on the ingress die, with its first cell over Agate
otherwise (R128). Where the pair is down the copy is discarded and counted (R154). -/
def ask (s : Blk) (key : Nat) : Blk :=
  match s.copy? key with
  | none => s
  | some c =>
    let d := key % 4
    let src := dieOfTile c.tile
    if src = d then
      (s.putCopy key { c with phase := .asked }).updBsl d fun b => { b with requests := b.requests ++ [(c.tile, .copy key)] }
    else if s.liveLinks (dirOf src d) = 0 then ((s.traceDrop key 2 2).discardCopy key).count .BSL_DROP_PAIRDOWN_count src 1
    else s.putCopy key { c with phase := .toCross }

/-- The length of a frame is known from its header (R127). -/
def lengthKnown (s : Blk) (tile : Nat) (f : Frame) : Bool :=
  f.etype.toNat = s.fld .TIL_FWD_CFG_xeirrik_etype tile || f.etype = 0x0800 || f.etype = 0x86DD

/-- A frame's copies by key. -/
def copiesOf (s : Blk) (fid : Nat) : List (Nat × CopyRec) :=
  (List.range 4).filterMap fun d => (s.copy? (4 * fid + d)).map fun c => (4 * fid + d, c)

/-- The frames of one link and class are offered for admission in arrival order: the first that is not wholly decided
asks, once its length is known or its tail is here (R126, R127). Where that decides it, all its copies being for pairs that are
down, the next is offered, for at most `n` frames. -/
def offerUpTo (n : Nat) (s : Blk) (l cls : Nat) : Blk :=
  match n with
  | 0 => s
  | n + 1 =>
    let waiting := s.frames.filter fun kv => kv.2.link = some l && kv.2.cls = cls && kv.2.dest = .copies
    match waiting.find? fun kv => (s.copiesOf kv.1).any fun kc => undecided kc.2 with
    | none => s
    | some (fid, r) =>
      if (r.whole || s.lengthKnown r.tile r.frame) && !s.heldBack fid r then
        let s := (s.copiesOf fid).foldl (fun s kc => if kc.2.phase = .held then s.ask kc.1 else s) s
        if (s.copiesOf fid).any fun kc => undecided kc.2 then s else offerUpTo n s l cls
      else s

/-- Offer the frames of a link and class. -/
def offer (s : Blk) (l cls : Nat) : Blk := offerUpTo s.frames.length s l cls

/-- Offer the next frame of the link and class of frame `fid`; a frame the block made asks for itself. -/
def offerAfter (s : Blk) (link : Option Nat) : Blk :=
  match link with
  | none => s
  | some l => (List.range 8).foldl (fun s c => s.offer l c) s

/-- Discard a copy, and let the next frame of its link and class be offered. -/
def discardAndOffer (s : Blk) (key : Nat) : Blk :=
  match s.copy? key with
  | none => s
  | some c => (s.discardCopy key).offerAfter c.inLink

/-! ### References -/

/-- One reference to a copy ends: sent and acknowledged, flushed or discarded. With the last one its cells are freed
(R112, R64). -/
def dropRef (s : Blk) (key : Nat) : Blk :=
  match s.copy? key with
  | none => s
  | some c =>
    if c.refs ≤ 1 && c.todo = [] && c.phase = .written then
      ((s.freeCells (key % 4) c.cells).delCopy key).settle (key / 4)
    else s.putCopy key { c with refs := c.refs - 1 }

/-- A copy is taken off the queues: not started, it goes; started, it is ended by a stomp (R527). `why`: the drop point and reason of
what goes (R366), where they are given. -/
def cutCopy (s : Blk) (key : Nat) (why : Option (Nat × Nat)) : Blk :=
  match s.copy? key with
  | none => s
  | some c =>
    let started := s.feld.any fun kv => kv.2.tx.any (·.copy = key)
    let n := s.queues.foldl (fun n kv => n + (kv.2.filter (·.copy = key)).length) 0
    let (codes, s) := if c.tag.isSome then s.cutCodes why else ((0, 0), s)
    let s := s.queues.foldl (fun s kv => if kv.2.any (·.copy = key) then
      let s := (kv.2.filter (·.copy = key)).foldl (fun s e => s.traceEntry (s.queueLink kv.1) e none codes.1 codes.2) s
      (s.settleClass (s.queueLink kv.1) (kv.1 / 32 % 8)).setQueue kv.1 (kv.2.filter (·.copy ≠ key)) else s) s
    if started then
      let s := (s.unland key).putCopy key { c with phase := .written, short := true, refs := c.refs - n, todo := [] }
      s.settle (key / 4)
    else (if n = 0 then s.traceDrop key codes.1 codes.2 else s).discardAndOffer key

/-- Cut a die's copy short (R527). A copy all of whose cells are written is not affected. -/
def cutShort (s : Blk) (key : Nat) (why : Option (Nat × Nat)) : Blk :=
  if (s.copy? key).any fun c => c.phase = .written then s else s.cutCopy key why

/-- A copy whose cells are taken from it goes with them: what is sent of it ends in a stomp (R423). -/
def cutCells (s : Blk) (key : Nat) : Blk :=
  let s := s.cutCopy key none
  match s.copy? key with
  | none => s
  | some c => (s.freeCells (key % 4) c.cells).putCopy key { c with cells := [] }

/-- Cut every copy of a frame short, and a frame for the block itself whole. -/
def cutShortFrame (s : Blk) (fid : Nat) (why : Option (Nat × Nat)) : Blk :=
  let s : Blk := match s.frame? fid with
    | some r =>
      if r.dest = .copies || r.tag.isNone then s
      else let (codes, s) := s.cutCodes why; s.traceFrame fid codes.1 codes.2
    | none => s
  ((List.range 4).foldl (fun s d => s.cutShort (4 * fid + d) why) s).dropFrame fid

/-! ### Links down -/

/-- The queues of a link: those of its port's nodes that its sub-port owns, every class (R159, R160). -/
def queuesOf (s : Blk) (l : Nat) : List Nat :=
  ((List.range 8).flatMap fun c => (List.range 32).filterMap fun n =>
    if s.nodeOwner (portOf l) n = subOf l then some (256 * portOf l + 32 * c + n) else none)

/-- Flush one queue of a link (R72); the frames are drops on its egress (R116). -/
def flushQueue (s : Blk) (l q : Nat) : Blk :=
  match s.queue q with
  | [] => s
  | es => (es.foldl (fun s e => ((s.traceQueued l e 0).dropRef e.copy).dropOnLink l) (s.setQueue q [])).count .TIL_LNK_FLUSH_count l
      es.length

/-- Flush every queue of a link, and the frames selected for it. A frame selected, or in transmission, as the link goes down is in no
queue and awaits no acknowledgement: it is counted with those flushed (DESIGN CHOICE, log entry 166). -/
def flushLink (s : Blk) (l : Nat) : Blk :=
  let s := (s.queues.keys.filter fun q => q / 256 = portOf l && s.nodeOwner (portOf l) (q % 32) = subOf l).foldl
    (fun s q => s.flushQueue l q) s
  match (s.feldOf l).tx with
  | [] => s
  | ts => ((ts.foldl (fun s t =>
      ((s.traceEntry l ⟨t.copy, 0, 0, none, t.enq, t.depth, t.ce⟩ (some t.sel) 3 0).dropRef t.copy).dropOnLink l) s).updFeld l fun f =>
        { f with tx := [] }).count .TIL_LNK_FLUSH_count l ts.length

/-- Feldspar's state of a link that goes down: virtual times, tags, lags and credits 0, buckets full (R165, R171). -/
def resetFeld (s : Blk) (l : Nat) : Blk :=
  { s.updFeld l (fun f => { FeldLink.reset with switchAt := f.switchAt }) with
    buckets := s.buckets.filter fun kv => ¬(kv.1 / 256 = portOf l ∧ s.nodeOwner (portOf l) (kv.1 % 32) = subOf l) }

/-- The effects of R72 on a link that leaves service: frames awaiting acknowledgement lost, queues flushed, the partly
received frame discarded, credits 0, the interrupt, and the contexts that lose a member (R245). -/
def linkDown (s : Blk) (l : Nat) : Blk :=
  let r := s.link l
  let s := (r.unacked.foldl (fun s u => s.dropRef u.copy) s).count .TIL_LNK_LOST_count l r.unacked.length
  let s := if r.unacked = [] then s else (s.updLink l fun r => { r with unacked := [] }).raise .TIL_LNK_INT_frame_lost l
  let s := s.flushLink l
  let s := match r.partialFrame with
    | none => s
    | some fid => (s.cutShortFrame fid none).count .TIL_LNK_LOST_count l 1
  let s := s.updLink l fun r =>
    { r with partialFrame := none, held := vzero, txReinit := false, rxReinit := false, retryClock := false,
             markDue := false, errored := none, lostCells := vzero,
             grant := vzero, noGrant := false, cellsSent := vzero, returnsSeen := vzero, returned := vzero, cellsRcvd := vzero,
             fromUp := false, kaAsked := false, paused := 0, xoff := 0, ahead := [], early := 0 }
  ((s.resetFeld l).raise .TIL_LNK_INT_down l).membersLost l

/-! ### Pairs down -/

/-- A copy crosses, or is to cross, the direction `k` of a pair, and is not wholly landed and written. -/
def crosses (k key : Nat) (c : CopyRec) : Bool :=
  dieOfTile c.tile ≠ key % 4 && dirOf (dieOfTile c.tile) (key % 4) = k && c.phase ≠ .written && c.phase ≠ .held

/-- A contribution or request that is to cross, or crosses, is lost with its pair: discarded at its ingress tile and counted there (R154, R275). -/
def loseCrossing (s : Blk) (fid : Nat) : Blk :=
  match s.frame? fid with
  | none => s
  | some r =>
    ((((s.traceFrame fid 2 2).count .BSL_DROP_PAIRDOWN_count (dieOfTile r.tile) 1).dropFrame fid).forget fid).offerAfter r.link

/-- A whole frame for an engine of another die starts to cross, once (R27, R30); where the pair is down it is lost (R154, R275). -/
def startCross (s : Blk) (fid d : Nat) : Blk :=
  match s.frame? fid with
  | none => s
  | some r =>
    if dieOfTile r.tile = d || (s.transfers.find (4 * fid + d)).isSome then s
    else if s.liveLinks (dirOf (dieOfTile r.tile) d) = 0 then s.loseCrossing fid
    else { s with transfers := s.transfers.put (4 * fid + d) ⟨r.tile, (xHeader r.frame.data).tc, r.cells, 0, 0, 0⟩ }

/-- Direction `k` of a pair is down (R154): what is in its landing buffer or unacknowledged is lost, the frames that were
crossing are cut short and counted once at their ingress die, and D2D_PAIR_INT.down is set. -/
def pairDown (s : Blk) (k : Nat) : Blk :=
  let hit := s.copies.filter fun kv => crosses k kv.1 kv.2
  let s := hit.foldl (fun s kv => (s.cutShort kv.1 (some (2, 2))).count .BSL_DROP_PAIRDOWN_count (dieOfTile kv.2.tile) 1) s
  let gone := s.transfers.filter fun kv => dirOf (dieOfTile kv.2.tile) (kv.1 % 4) = k
  let s := gone.foldl (fun s kv => s.loseCrossing (kv.1 / 4)) s
  let s := { s with agateLanes := s.agateLanes.mapV ⟨[], 0⟩ fun n a => if n / 16 * 2 + n % 2 = k then ⟨[], 0⟩ else a }
  let s := s.updDir k fun a => { AgateDir.reset with pointer := a.pointer, sendSeq := a.sendSeq, recvSeq := a.sendSeq, sendTag := a.sendTag }
  (s.raise .D2D_PAIR_INT_down (k / 2)).pathsDown (k / 2)

end Sys2Proof.Machine.Blk
end

