-- ==== Sys2Proof/Machine/LinkState.lean ====
section
/-!
DEFINITION. The link state machine (R44), the capability exchange (R50 to R54), error bursts (R48), keepalive (R66 to
R68) and PFC (R69, R70).
-/

namespace Sys2Proof.Machine

/-- The state codes of R44. -/
inductive LinkCode where
  | disabled | acquire | exchange | up | resync | keepalive | wake | retrain | holdDown
  deriving DecidableEq, Repr

/-- The code that TIL_LNK_STATUS.state shows. -/
def LinkCode.code : LinkCode → Nat
  | .disabled => 0
  | .acquire => 1
  | .exchange => 2
  | .up => 3
  | .resync => 4
  | .keepalive => 5
  | .wake => 6
  | .retrain => 7
  | .holdDown => 8

/-- The body of an LCF with nothing but its version and the features, which R51 limits to no type. -/
def lcfBlank : Lcf :=
  { llv := 1, features := 0xF, rxHold := 0, txStamp := 0, echoStamp := 0, classVal := List.replicate 8 0, maxFrame := 0,
    conf := false }

/-- Sixteen bits per class (R51). -/
def classVals (v : List Nat) : List (BitVec 16) := (List.range 8).map fun c => BitVec.ofNat 16 (vget v c)

namespace Blk

/-- A link is in a state. -/
def isIn (s : Blk) (l : Nat) (c : LinkCode) : Bool := s.linkState l = c.code

/-- Enter a link state: state and up of TIL_LNK_STATUS (R77). -/
def setState (s : Blk) (l : Nat) (c : LinkCode) : Blk :=
  (s.setFld .TIL_LNK_STATUS_state l c.code).setFld .TIL_LNK_STATUS_up l (if c = .up then 1 else 0)

/-- A link carries Staketu traffic: UP or RESYNC in Staketu mode. -/
def flows (s : Blk) (l : Nat) : Bool := (s.isIn l .up || s.isIn l .resync) && s.staketu l

/-- A link is in service in the sense of R72 and R133: UP, RESYNC, KEEPALIVE or WAKE, or an EXCHANGE entered from UP. -/
def inService (s : Blk) (l : Nat) : Bool :=
  s.isIn l .up || s.isIn l .resync || s.isIn l .keepalive || s.isIn l .wake || (s.isIn l .exchange && (s.link l).fromUp)

/-- Leave a state for RETRAIN, HOLD_DOWN or DISABLED, with the link-down effects where `down`: keepalive left, and what was
settled withdrawn. TIL_LNK_RTT keeps the last measurement (DESIGN CHOICE, log entry 121). -/
def leave (s : Blk) (l : Nat) (down : Bool) : Blk :=
  let s := if s.isIn l .keepalive then s.raise .TIL_LNK_INT_ka_change l else s
  let s := if down then s.linkDown l else s
  ((s.setFld .TIL_LNK_STATUS_staketu l 0).setFld .TIL_LNK_STATUS_retry_on l 0).setFld .TIL_LNK_STATUS_ka_cap l 0

/-- Enter HOLD_DOWN. -/
def toHoldDown (s : Blk) (l : Nat) : Blk := (s.leave l (s.inService l)).setState l .holdDown

/-- Enter RETRAIN, counted (R78, R81). -/
def toRetrain (s : Blk) (l : Nat) : Blk :=
  (((s.leave l (s.inService l)).setState l .retrain).raise .TIL_LNK_INT_retrain l).count .TIL_LNK_RETRAINS_count l 1

/-- Enter ACQUIRE; link_mode is read (R76), 0x3 as 0x0. -/
def toAcquire (s : Blk) (l : Nat) : Blk :=
  let m := s.fld .TIL_LNK_CTL_link_mode l
  (s.setState l .acquire).updLink l fun r => { r with mode := if m = 3 then 0 else m, fromUp := false }

/-- The local grants of a link's classes. -/
def localGrants (s : Blk) (l : Nat) : List Nat := (List.range 8).map fun c => s.fld .TIL_LNK_GRANT_TC_local_grant (8 * l + c)

/-- The sum of local_grant over a tile's links as they stand is above 16,384 (R125). -/
def grantOver (s : Blk) (l : Nat) : Bool :=
  16384 < ((List.range 32).map fun k =>
    let l' := 32 * tileOf l + k
    if s.linkExists l' then (s.localGrants l').sum else 0).sum

/-- The grants a link advertises: none where R125 refuses them. -/
def advertised (s : Blk) (l : Nat) : List Nat := if s.grantOver l then vzero else s.localGrants l

/-- The check of R125, made where a link's credits are advertised or re-initialised. -/
def checkGrants (s : Blk) (l : Nat) : Blk := if s.grantOver l then s.raise .TIL_STG_STATUS_grant_over (tileOf l) else s

/-- Send a CAP (R52, R80, R83). A hold that does not fit rx_hold_ns is sent as 0xFFFF (DESIGN CHOICE, log entry 119). -/
def sendCap (s : Blk) (l : Nat) : Blk :=
  let r := s.link l
  let s := s.checkGrants l
  let (echo, hold) := match r.lastCap with
    | none => (0, 0)
    | some (st, at_) => (st, min (s.tileNs (tileOf l) - at_) 0xFFFF)
  (s.lcf l .cap { lcfBlank with rxHold := BitVec.ofNat 16 hold, echoStamp := BitVec.ofNat 32 echo,
                                classVal := classVals (s.advertised l), maxFrame := BitVec.ofNat 16 s.imgMaxFrame,
                                conf := r.ownConf }).updLink l fun r => { r with stamps := s.stamp l :: r.stamps }

/-- Enter EXCHANGE and send the first CAP. One entered from UP goes on from the CAPs sent and received in Ethernet mode (R52,
R54); one entered after an acquisition starts with none. -/
def toExchange (s : Blk) (l : Nat) (fromUp : Bool) : Blk :=
  ((s.setState l .exchange).updLink l fun r =>
    { r with stamps := if fromUp then r.stamps else [], ownConf := false, peer := none,
             lastCap := if fromUp then r.lastCap else none, fromUp := fromUp }).sendCap l

/-- Send KA_REQ where keepalive is settled and wanted (R66). -/
def askKeepalive (s : Blk) (l : Nat) : Blk :=
  if s.isIn l .up && s.flag .TIL_LNK_STATUS_ka_cap l && s.flag .TIL_LNK_CTL_ka_req l then
    (s.lcf l .kaReq lcfBlank).updLink l fun r => { r with kaAsked := true }
  else s

/-! ### The transmitter (R55, R57, R60, R64) -/

/-- The largest frame a link takes (R52, R83). -/
def linkMax (s : Blk) (l : Nat) : Nat := if s.staketu l then (s.link l).maxFrame else s.imgMaxFrame

/-- A frame is in progress: one has begun, be it interrupted (R178), and has not ended. -/
def midFrame (s : Blk) (l : Nat) : Bool := (s.feldOf l).tx.any TxRec.begun

/-- The credits that a class owes: to the frames selected, and to those to be sent again under new counts (R57, R60). -/
def owedCredits (s : Blk) (l c : Nat) : Nat :=
  (((s.feldOf l).tx.filter (·.cls = c)).map fun t => cellsOf (frameLen t.frame)).sum +
  (((s.link l).unacked.filter fun u => u.cls = c && !u.paid).map fun u => cellsOf (frameLen u.frame)).sum

/-- A frame's credits are taken, and its cells counted as sent (R57, R59). -/
def payCells (s : Blk) (l c n : Nat) : Blk :=
  s.updLink l fun r => { r with held := vsub r.held c n, cellsSent := vadd r.cellsSent c n }

/-- The link may start a frame of `n` cells of a class: it is UP, or in RESYNC with its direction re-initialised, and in Staketu mode
holds the credits (R57, R60). -/
def mayBegin (s : Blk) (l c n : Nat) : Bool :=
  if s.staketu l then (s.isIn l .up || s.isIn l .resync) && !(s.link l).txReinit && n ≤ vget (s.link l).held c else s.isIn l .up

/-- The frame at the head of those selected begins. In Staketu mode it has its sequence number and its link word now (R55); where its
planned start has passed, its timestamp is of now (R354). -/
def beginHead (s : Blk) (l : Nat) (t : TxRec) (ts : List TxRec) : Blk :=
  let t := if t.startAt < s.now then
      { t with start := s.stampT l true 0, startOk := s.stampOk (tileOf l), startAt := s.now } else t
  if s.staketu l then
    let n := ((s.link l).lsn + 1) % 8192
    (s.updLink l fun r => { r with lsn := n }).updFeld l fun f =>
      { f with tx := { t with begun := true, word := some (n, s.linkWord l n false) } :: ts }
  else s.updFeld l fun f => { f with tx := { t with begun := true } :: ts }

/-- Send a frame again, its credits taken where its counts are new (R60, R64). -/
def sendOnce (s : Blk) (l : Nat) (u : SentFrame) : Blk :=
  let s := if u.paid then s else s.payCells l u.cls (cellsOf (frameLen u.frame))
  (s.onWire l (.frame l (some (s.linkWord l u.lsn false)) u.frame u.stomp)).updLink l fun r =>
    { r with unacked := r.unacked.map fun x => if x.lsn = u.lsn then { x with due := false, paid := true } else x }

/-- Send again, in order, the frames that are due, while there are credits for them (R64). -/
def sendDue (s : Blk) (l : Nat) : List SentFrame → Blk
  | [] => s
  | u :: us =>
    if !u.due then sendDue s l us
    else if u.paid || s.mayBegin l u.cls (cellsOf (frameLen u.frame)) then sendDue (s.sendOnce l u) l us
    else s

/-- The transmitter goes on when no frame is in progress: first with the frames to be sent again, and then with the next selected.
While its direction re-initialises it starts none (R60, R64). One too long for the link does not begin: it is dropped at egress
(R83). -/
def pump (s : Blk) (l : Nat) : Blk :=
  if s.midFrame l then s
  else
    let s := if s.flows l && !(s.link l).txReinit then s.sendDue l (s.link l).unacked else s
    if (s.link l).unacked.any SentFrame.due then s
    else match (s.feldOf l).tx with
      | [] => s
      | t :: ts =>
        if frameLen t.frame ≤ s.linkMax l && s.mayBegin l t.cls (cellsOf (frameLen t.frame)) then s.beginHead l t ts else s

/-- Send RESYNC_MARK with the cells sent (R60). -/
def sendMark (s : Blk) (l : Nat) : Blk :=
  (s.lcf l .resyncMark { lcfBlank with classVal := classVals (s.link l).cellsSent }).updLink l fun r => { r with markDue := false }

/-- Both directions of a link re-initialise their credits (R60): the grant in force becomes the one now advertised (R80, R125),
no further data frame starts, and RESYNC_MARK leaves after the frame in progress. What is in progress is joined. -/
def reinit (s : Blk) (l : Nat) : Blk :=
  let r := s.link l
  let s := if r.rxReinit then s
    else (s.checkGrants l).updLink l fun r => { r with grant := s.advertised l, noGrant := s.grantOver l }
  let s := s.updLink l fun r => { r with txReinit := true, rxReinit := true, markDue := r.markDue || !r.txReinit }
  if !r.txReinit && !s.midFrame l then s.sendMark l else s

/-- Start the re-initialisation of credits (R60). RESYNC_REQ is sent once: where the re-initialisation of an entry to UP is
still in progress a loss joins it (DEDUCED, log entry 120). -/
def startReinit (s : Blk) (l : Nat) : Blk :=
  (if (s.link l).rxReinit then s else s.lcf l .resyncReq lcfBlank).reinit l

/-- Enter UP in Staketu mode, credits re-initialised (R44, R60). -/
def upStaketu (s : Blk) (l : Nat) : Blk :=
  let s := (s.setState l .up).raise .TIL_LNK_INT_up l
  ((s.updLink l fun r => { r with fromUp := false, paused := 0, xoff := 0 }).startReinit l).askKeepalive l

/-- Enter UP in Ethernet mode (R69), where no credits are re-initialised: local_grant as it stands is the allotment from each entry
on, and R125, which speaks of what is advertised, is not checked (DESIGN CHOICE, log entry 164). -/
def upEthernet (s : Blk) (l : Nat) : Blk :=
  let s := ((s.setFld .TIL_LNK_STATUS_staketu l 0).setFld .TIL_LNK_STATUS_retry_on l 0).setFld .TIL_LNK_STATUS_ka_cap l 0
  let s := (s.setFld .TIL_LNK_RTT_rtt_ns l 0xFFFF).updLink l fun r =>
    { r with maxFrame := s.imgMaxFrame, fromUp := false, grant := s.localGrants l }
  ((s.setState l .up).raise .TIL_LNK_INT_up l).pump l

/-- A CAP is valid (R52): the spec does not say which is. The model takes every one with a version (DESIGN CHOICE, log entry 118). -/
def capValid (c : Lcf) : Bool := c.llv ≠ 0

/-- The link settles into Staketu mode (R52, R53) from the partner's last CAP, with the measured round trip. -/
def settleCap (s : Blk) (l : Nat) (c : Lcf) (rtt : Nat) : Blk :=
  let feat := 0xF &&& c.features.toNat
  let retry := feat.testBit 0 && rtt ≤ 1500
  let s := s.setFld .TIL_LNK_RTT_rtt_ns l rtt
  let s := ((s.setFld .TIL_LNK_STATUS_staketu l 1).setFld .TIL_LNK_STATUS_retry_on l (if retry then 1 else 0)).setFld
    .TIL_LNK_STATUS_ka_cap l (if feat.testBit 1 then 1 else 0)
  let s := (List.range 8).foldl (fun s k =>
    s.setFld .TIL_LNK_GRANT_TC_partner_grant (8 * l + k) ((c.classVal.getD k 0).toNat)) s
  let noGrant := s.grantOver l
  let s := s.updLink l fun r =>
    { r with llv := min 1 c.llv.toNat, features := feat, maxFrame := min (min s.imgMaxFrame c.maxFrame.toNat) 9216,
             held := if noGrant then vzero else (List.range 8).map fun k => (c.classVal.getD k 0).toNat,
             cellsSent := vzero, returnsSeen := vzero, cellsRcvd := vzero, returned := vzero,
             lsn := 8191, nextLsn := 0, ahead := [], early := 0, errored := none, lostCells := vzero, unacked := [],
             retryClock := false, txReinit := false, rxReinit := false, markDue := false }
  s.upStaketu l

/-- A CAP arrives (R52, R54). In UP in Staketu mode one with conf = 1 is answered and settles nothing anew: other grants in it leave
partner_grant as it was settled (DESIGN CHOICE, log entry 165). -/
def capReceived (s : Blk) (l : Nat) (c : Lcf) : Blk :=
  if !capValid c then s
  else if s.isIn l .up && s.staketu l then
    if c.conf then
      (s.updLink l fun r => { r with lastCap := some (c.txStamp.toNat, s.tileNs (tileOf l)), ownConf := true }).sendCap l
    else s
  else
    let enters := s.isIn l .up && (s.link l).mode = 0
    let s := if enters || s.isIn l .exchange then
        s.updLink l fun r => { r with lastCap := some (c.txStamp.toNat, s.tileNs (tileOf l)) } else s
    let s := if enters then s.toExchange l true else s
    if s.isIn l .exchange then
      let r := s.link l
      let echo := c.echoStamp.toNat
      let confirms := echo ≠ 0 && r.stamps.contains echo
      let rtt := min ((s.stamp l + 2 ^ 32 - echo) % 2 ^ 32 - c.rxHold.toNat) 0xFFFE
      let first := confirms && !r.ownConf
      let s := s.updLink l fun r =>
        { r with ownConf := r.ownConf || confirms,
                 peer := some { c with conf := c.conf || (r.peer.map (·.conf)).getD false } }
      let s := if first then (s.setFld .TIL_LNK_RTT_rtt_ns l rtt).sendCap l else s
      let r := s.link l
      match r.peer with
      | some p => if r.ownConf && p.conf then s.settleCap l p (s.fld .TIL_LNK_RTT_rtt_ns l) else s
      | none => s
    else s

/-- The nine link counters go back to 0 (R81). -/
def clearLinkCounters (s : Blk) (l : Nat) : Blk :=
  [Fld.TIL_LNK_FEC_CORR_count, .TIL_LNK_FEC_UNCORR_count, .TIL_LNK_FEC_SYMERR_count, .TIL_LNK_RETRY_count,
   .TIL_LNK_LOST_count, .TIL_LNK_BURSTS_count, .TIL_LNK_RETRAINS_count, .TIL_LNK_RESYNCS_count,
   .TIL_LNK_FLUSH_count].foldl (fun s f => s.clrFld f l) s

/-- lnk_en is written 1 (R44, R81). -/
def linkEnable (s : Blk) (l : Nat) : Blk :=
  if s.linkExists l && s.isIn l .disabled then
    ((s.setFld .TIL_LNK_CTL_lnk_en l 1).clearLinkCounters l).toAcquire l
  else if s.linkExists l then s.setFld .TIL_LNK_CTL_lnk_en l 1
  else s

/-- lnk_en is written 0 (R44): the link-down effects from every state but DISABLED itself. -/
def linkDisable (s : Blk) (l : Nat) : Blk :=
  if s.linkExists l then
    let s := s.setFld .TIL_LNK_CTL_lnk_en l 0
    if s.isIn l .disabled then s else (s.leave l true).setState l .disabled
  else s

/-- TIL_PORT_MODE is written (R43, R74): bo_reject, loopback and breakout. -/
def portModeWrite (s : Blk) (p v : Nat) : Blk :=
  let s := if v.testBit 8 then s.setFld .TIL_PORT_MODE_bo_reject p 0 else s
  let s := s.setFld .TIL_PORT_MODE_loopback p (bits v 5 4)
  let b := bits v 1 0
  if b = s.breakout p then s
  else if b = 3 || (List.range 4).any (fun k => s.flag .TIL_LNK_CTL_lnk_en (4 * p + k)) then s.raise .TIL_PORT_MODE_bo_reject p
  else s.setFld .TIL_PORT_MODE_breakout p b

/-- A link's optical engine goes off, and with it signal and alignment: it leaves service for HOLD_DOWN, and nothing is sent into the
engine (R39, R49, R416; DEDUCED for the states other than UP and RESYNC, log entry 175). -/
def lightGone (s : Blk) (l : Nat) : Blk :=
  let s := s.setFld .TIL_LNK_STATUS_signal l 0
  if s.isIn l .disabled || s.isIn l .acquire || s.isIn l .holdDown then s else s.toHoldDown l

/-- Every lane of a link has PCS alignment (R44): never on a dark port. -/
def pcsAligned (s : Blk) (l : Nat) : Blk :=
  if s.portDark l then s
  else if s.isIn l .acquire then
    let s := s.setFld .TIL_LNK_STATUS_signal l 1
    if (s.link l).mode = 2 then s.upEthernet l else s.toExchange l false
  else if s.isIn l .wake then (s.setFld .TIL_LNK_STATUS_signal l 1).upStaketu l
  else s

/-- 10 ms in EXCHANGE without a valid CAP (R44). -/
def exchangeTimeout (s : Blk) (l : Nat) : Blk :=
  if s.isIn l .exchange then
    if (s.link l).mode = 1 then ((s.raise .TIL_LNK_INT_down l).toHoldDown l)
    else s.upEthernet l
  else s

/-- RETRAIN ends in alignment (R44): never on a dark port. -/
def retrainDone (s : Blk) (l : Nat) : Blk :=
  if s.isIn l .retrain && !s.portDark l then (s.setFld .TIL_LNK_STATUS_signal l 1).toExchange l false else s

/-- Signal or alignment has been missing for 5 µs (R44, R49); `light`: an optical signal is detected on every lane (R77). -/
def lossOfSignal (s : Blk) (l : Nat) (light : Bool) : Blk :=
  let s := s.setFld .TIL_LNK_STATUS_signal l (if light then 1 else 0)
  if s.isIn l .up || s.isIn l .resync then s.toHoldDown l else s

/-- An uncorrectable codeword (R46, R48). -/
def uncorrectable (s : Blk) (l : Nat) : Blk :=
  if s.isIn l .disabled then s
  else
    let s := s.count .TIL_LNK_FEC_UNCORR_count l 1
    if (s.link l).burst then s
    else
      let window := max 1 (s.fld .TIL_LNK_BURST_CFG_retrain_window l) * 1000000
      let recent := s.now :: ((s.link l).bursts.filter fun t => s.now ≤ t + window)
      let s := ((s.updLink l fun r => { r with burst := true, bursts := recent }).count .TIL_LNK_BURSTS_count l 1).raise
        .TIL_LNK_INT_burst l
      let n := s.fld .TIL_LNK_BURST_CFG_retrain_count l
      if n ≠ 0 && n ≤ recent.length && (s.isIn l .up || s.isIn l .resync) then s.toRetrain l else s

/-- Enter KEEPALIVE (R66, R67). A re-initialisation still in progress ends with UP: R60 makes a new one at the entry to UP from
WAKE. -/
def toKeepalive (s : Blk) (l : Nat) : Blk :=
  ((s.setState l .keepalive).raise .TIL_LNK_INT_ka_change l).updLink l fun r =>
    { r with kaAsked := false, txReinit := false, rxReinit := false, markDue := false }

/-- A link in KEEPALIVE wakes (R44, R67). -/
def wakeLink (s : Blk) (l : Nat) : Blk :=
  if s.isIn l .keepalive then
    ((s.setState l .wake).raise .TIL_LNK_INT_ka_change l).sendKeepalive l true
  else s

/-- KA_REQ arrives: it is answered where the three conditions of R66 hold. -/
def kaReqReceived (s : Blk) (l : Nat) : Blk :=
  let idle := (s.queuesOf l).all (fun q => s.queue q = []) && (s.feldOf l).tx = [] && (s.link l).unacked = []
  if s.isIn l .up && s.flag .TIL_LNK_STATUS_ka_cap l && idle &&
      (s.flag .TIL_LNK_CTL_ka_req l || s.flag .TIL_LNK_CTL_ka_accept l) then
    (s.lcf l .kaAck lcfBlank).toKeepalive l
  else s

/-- A received PFC pause time for a class (R69). It is honoured in the EXCHANGE that interrupts Ethernet mode too (DESIGN CHOICE, log
entry 134). -/
def pfcReceived (s : Blk) (l c quanta : Nat) : Blk :=
  if s.ethernetMode l && s.bit .TIL_LNK_PFC_CFG_pfc_rx_en l c then
    s.updLink l fun r => { r with paused := if quanta = 0 then r.paused &&& (255 - 2 ^ c) else r.paused ||| 2 ^ c }
  else s

end Blk

end Sys2Proof.Machine
end

