-- ==== Sys2Proof/Machine/LinkFlow.lean ====
section
/-!
DEFINITION. What flows over a link: credits and their re-initialisation (R56 to R60), the credit audit (R59) and
link-level retry (R62 to R64).
-/

namespace Sys2Proof.Machine.Blk

/-- A link enters RESYNC, or a loss during RESYNC joins the re-initialisation in progress (R44, R60). -/
def enterResync (s : Blk) (l : Nat) : Blk :=
  if s.isIn l .up && s.staketu l then
    ((s.setState l .resync).count .TIL_LNK_RESYNCS_count l 1).startReinit l
  else s

/-- A link in RESYNC both of whose directions are re-initialised returns to UP, data resumed (R44, R60). -/
def endResync (s : Blk) (l : Nat) : Blk :=
  let r := s.link l
  if s.isIn l .resync && !r.txReinit && !r.rxReinit then (s.setState l .up).askKeepalive l else s

/-- A credit report (R56); a frame that waits for credits may now start. -/
def creditReceived (s : Blk) (l : Nat) (rep : CreditReport) : Blk :=
  if s.flows l then pump (l := l) <|
    let step (s : Blk) (c total modulus : Nat) : Blk := s.updLink l fun r =>
      let d := (total + modulus - vget r.returnsSeen c % modulus) % modulus
      { r with held := vadd r.held c d, returnsSeen := vadd r.returnsSeen c d }
    match rep with
    | .word c total => step s c total.toNat 1024
    | .lcf totals => (List.range 8).foldl (fun s c => step s c (totals.getD c 0).toNat 65536) s
  else s

/-- An AUDIT LCF: the partner's cells sent against the cells received and those of frames declared lost, skipped while a retry is
pending (R59). -/
def auditReceived (s : Blk) (l : Nat) (sent : List (BitVec 16)) : Blk :=
  let r := s.link l
  if s.isIn l .up && s.staketu l && r.features.testBit 3 && !r.retryClock && !r.rxReinit then
    if (List.range 8).all fun c => (sent.getD c 0).toNat = (vget r.cellsRcvd c + vget r.lostCells c) % 65536 then s
    else (s.raise .TIL_LNK_INT_credit_mismatch l).enterResync l
  else s

/-- RESYNC_REQ: the sender stops and marks, once (R60). -/
def resyncReqReceived (s : Blk) (l : Nat) : Blk := if s.flows l then s.reinit l else s

/-- RESYNC_MARK: the receiver answers with the cells charged per class, and its counts restart (R60). -/
def resyncMarkReceived (s : Blk) (l : Nat) : Blk :=
  if s.flows l then
    let s := s.lcf l .resyncAck { lcfBlank with classVal := classVals (s.link l).charged }
    (s.updLink l fun r => { r with rxReinit := false, cellsRcvd := vzero, lostCells := vzero, returned := vzero }).endResync l
  else s


/-- An acknowledgement covers every frame up to `ack`: their cells are freed (R55, R64). -/
def ackUpTo (s : Blk) (l ack : Nat) : Blk :=
  let u := (s.link l).unacked
  if u.any (·.lsn = ack) then
    let done := (u.takeWhile (·.lsn ≠ ack)) ++ ((u.dropWhile (·.lsn ≠ ack)).take 1)
    let rest := (u.dropWhile (·.lsn ≠ ack)).drop 1
    done.foldl (fun s f => s.dropRef f.copy) (s.updLink l fun r => { r with unacked := rest })
  else s

/-- Replay (R64): every unacknowledged frame is to be sent again, after the frame in progress; and while the direction re-initialises,
when it carries no data frame, after its end (R60). -/
def replay (s : Blk) (l : Nat) : Blk :=
  (s.updLink l fun r => { r with unacked := r.unacked.map fun u => { u with due := true } }).pump l

/-- RESYNC_ACK: held is the grant less the cells charged, the sender's counts restart, and the direction resumes (R60). A frame still
unacknowledged then is not among the cells charged: sent again, it takes its credits anew (R58). -/
def resyncAckReceived (s : Blk) (l : Nat) (charged : List (BitVec 16)) : Blk :=
  let r := s.link l
  if s.flows l && r.txReinit && !r.markDue then
    ((s.updLink l fun r =>
      { r with held := if r.noGrant then vzero else (List.range 8).map fun c =>
                 s.fld .TIL_LNK_GRANT_TC_partner_grant (8 * l + c) - (charged.getD c 0).toNat,
               cellsSent := vzero, returnsSeen := vzero, txReinit := false,
               unacked := r.unacked.map fun u => { u with paid := false } }).endResync l).pump l
  else s

/-- A NAK: what it acknowledges is freed, and the rest replayed (R64). -/
def nakReceived (s : Blk) (l ack : Nat) : Blk :=
  if s.flows l && s.flag .TIL_LNK_STATUS_retry_on l then (s.ackUpTo l ack).replay l else s

/-- The first undelivered frame is errored or missing: the retry clock starts and a NAK is sent (R62). No data frame need be due
to carry it: it leaves in a CREDIT LCF of its own (DEDUCED, log entry 131). -/
def sendNak (s : Blk) (l : Nat) : Blk :=
  let s := s.updLink l fun r => { r with retryClock := true }
  (s.lcfNak l .credit { lcfBlank with classVal := classVals (s.link l).returned } true).count .TIL_LNK_RETRY_count l 1

/-- Frame nextLsn is delivered or declared lost; frames that overtook it are passed over (R62, R63). -/
def lsnDone (s : Blk) (l : Nat) : Blk :=
  s.updLink l fun r =>
    let n := (List.range (r.ahead.length + 1)).foldl (fun n _ => if r.ahead.contains n then (n + 1) % 8192 else n)
      ((r.nextLsn + 1) % 8192)
    { r with nextLsn := n, ahead := r.ahead.filter fun a => (a + 8192 - n) % 8192 < 4096 }

/-- The frame being received gives its cells back to be sent again, or is lost: it was never charged (R60), and what is left of
its copies is cut short (R527). -/
def takeBack (s : Blk) (l fid : Nat) : Blk :=
  match s.frame? fid with
  | none => s
  | some r =>
    let s := (s.updLink l fun x => { x with early := r.freed, cellsRcvd := vsub x.cellsRcvd r.cls r.cells,
                                            charged := vsub x.charged r.cls (r.cells - r.freed),
                                            errored := some (r.cls, r.cells) }).setFld
      .TIL_STG_STATUS_used r.tile (s.fld .TIL_STG_STATUS_used r.tile - (r.cells - r.freed))
    (s.putFrame fid { r with freed := r.cells }).cutShortFrame fid none

/-- The retry clock of the first undelivered frame runs out: it is declared lost, with what of a replay has arrived, and
acknowledged as such by the next link word (R63). -/
def retryExpired (s : Blk) (l : Nat) : Blk :=
  let r := s.link l
  if s.flows l && r.retryClock then
    let s := match r.partialFrame with
      | some fid => (s.updLink l fun r => { r with partialFrame := none }).takeBack l fid
      | none => s
    let s := (s.count .TIL_LNK_LOST_count l 1).raise .TIL_LNK_INT_frame_lost l
    let s := (s.updLink l fun r =>
      { r with retryClock := false, early := 0, errored := none,
               lostCells := match r.errored with
                 | some (c, n) => vadd r.lostCells c n
                 | none => r.lostCells }).lsnDone l
    s.enterResync l
  else s

end Sys2Proof.Machine.Blk
end

