-- ==== Sys2Proof/Machine/Basalt.lean ====
section
/-!
DEFINITION. The Basalt buffer and its allocator (chapter 4): admission (R128 to R135), the writing of cells and the
enqueueing of copies (R136 to R139, R161, R179), the latched counts and the auditor (R144 to R146).
-/

namespace Sys2Proof.Machine

/-- The alpha code of R130 as a fraction: numerator and denominator; none: unlimited. -/
def alphaOf (a : Nat) : Option (Nat × Nat) :=
  if a ≤ 8 then some (2 ^ a, 16) else none

namespace Blk

/-! ### Admission -/

/-- The guaranteed cells of a class on a die (R129). -/
def guaranteed (s : Blk) (d c : Nat) : Nat := s.fld .BSL_POOL_TC_min_cells (8 * d + c)

/-- The usable cells of a die (R129). -/
def usable (s : Blk) (d : Nat) : Nat := 524288 - s.retired d

/-- used_c: the cells of class `c` that are reserved or queued (R129). -/
def usedCells (s : Blk) (d c : Nat) : Nat := ((s.bsl d).cells.filter fun kv => kv.2.cls = c).length

/-- The cells owned by queue references or spill allocations, and by reservations (R144). -/
def queuedCells (s : Blk) (d : Nat) : Nat := ((s.bsl d).cells.filter fun kv => kv.2.queued).length
/-- The cells owned by reservations. -/
def reservedCells (s : Blk) (d : Nat) : Nat := ((s.bsl d).cells.filter fun kv => !kv.2.queued).length

/-- The shared cells of a die (R129). -/
def sharedCells (s : Blk) (d : Nat) : Nat := s.usable d - ((List.range 8).map fun c => s.guaranteed d c).sum

/-- The free shared cells of a die, below 0 where repair has taken cells in use (R129, R131). -/
def freeShared (s : Blk) (d : Nat) : Int :=
  (s.sharedCells d : Int) - (((List.range 8).map fun c => s.usedCells d c - s.guaranteed d c).sum : Nat)

/-- The shared cells that `n` more cells of class `c` take (R129). -/
def overCells (s : Blk) (d c n : Nat) : Nat :=
  (s.usedCells d c + n - s.guaranteed d c) - (s.usedCells d c - s.guaranteed d c)

/-- The node that a copy's source names on a link (R161). -/
def namedNode (s : Blk) (l : Nat) : NodeSrc → Nat
  | .image n => n
  | .group n => n
  | .gneiss => s.fld .FLD_SRC_NODE_gneiss_node (tileOf l)
  | .restore _ => s.fld .FLD_SRC_NODE_gneiss_node (tileOf l)
  | .host => s.fld .FLD_SRC_NODE_host_node (tileOf l)
  | .jasper => s.fld .FLD_SRC_NODE_jasper_node (tileOf l)

/-- The subscriber node a copy joins on a link: the one named, or the lowest that the link owns (R161). -/
def nodeFor (s : Blk) (l : Nat) (src : NodeSrc) : Option Nat :=
  let n := s.namedNode l src % 32
  if s.nodeOwner (portOf l) n = subOf l then some n
  else (List.range 32).find? fun n => s.nodeOwner (portOf l) n = subOf l

/-- The queue of class `c` that a copy joins on a link (R159). -/
def queueFor (s : Blk) (l c : Nat) (src : NodeSrc) : Option Nat :=
  (s.nodeFor l src).map fun n => 256 * portOf l + 32 * c + n

/-- The cells in a queue, with those granted to copies bound for it and not yet enqueued (R129). -/
def queueCells (s : Blk) (d q : Nat) : Nat :=
  s.fld .FLD_SUB_DEPTH_cells q +
  ((s.copies.filter fun kv => kv.1 % 4 = d && (kv.2.phase = .granted || kv.2.phase = .written) &&
      kv.2.todo.any fun (x : Leg) => s.queueFor x.1 kv.2.cls kv.2.node = some q).map fun kv => kv.2.ncells).sum

/-- An entry of a die's copy of a forwarding table, as its raw word (R88). -/
def tableEntry (s : Blk) (d t i : Nat) : Nat := s.tables.get 0 ((d * 9 + t) * 1048576 + i)

/-- A plain receiver: a link. -/
def plainLeg (l : Nat) : Leg := (l, none)

/-- The receivers that a target names on die `d` by the tables of die `td`, before their links' states are judged (R110, R111,
R237). A link that a group names twice is two receivers (R112; DESIGN CHOICE, log entry 128). -/
def legsBy (s : Blk) (td d : Nat) : Target → List Leg
  | .link l => if dieOf l = d then [plainLeg l] else []
  | .members _ _ ms => (ms.filter fun m => dieOf m.1 = d).map fun m => (m.1, some m.2)
  | .list g =>
    let e := s.tableEntry td 7 g
    ((((List.range (bits e 26 16)).map fun k => s.tableEntry td 8 (bits e 15 0 + k)).filter (·.testBit 15)).map
      (· % 1024) |>.filter fun l => dieOf l = d).map plainLeg
  | .row t => ((List.range 256).map (256 * d + ·) |>.filter fun l => bits (s.tableEntry td 5 l) 63 56 = t).map plainLeg
  | .column t => ((List.range 256).map (256 * d + ·) |>.filter fun l => bits (s.tableEntry td 5 l) 55 48 = t).map plainLeg

/-- The receivers that a target names on a die by its own tables: those that its copy serves. -/
def namedLegs (s : Blk) (d : Nat) : Target → List Leg := s.legsBy d d

/-- A target may send a copy back on its arrival link: a list group with reflect = 1 (R111), a single link, or members of
a context, from which the sender itself is left out (R237). -/
def mayReflect (s : Blk) (d : Nat) : Target → Bool
  | .link _ => true
  | .list g => (s.tableEntry d 7 g).testBit 62
  | .members _ _ _ => true
  | .row _ => false
  | .column _ => false

/-- A copy's receivers on its die as judged when its request is decided (R111, R133). -/
def receivers (s : Blk) (key : Nat) (c : CopyRec) : List Leg :=
  (s.namedLegs (key % 4) c.target).filter fun (x : Leg) =>
    s.linkExists x.1 && s.inService x.1 && (c.inLink ≠ some x.1 || s.mayReflect (key % 4) c.target)

/-- A receiver of a copy has been skipped, or the copy dropped: lost_copy of the context that sent it (R238). -/
def lostCopy (s : Blk) (c : CopyRec) : Blk :=
  match c.target with
  | .members ctx run _ =>
    match s.contexts.find ctx with
    | none => s
    | some r => if r.run = run then { s with contexts := s.contexts.put ctx { r with lostCopy := true } } else s
  | _ => s

/-- Of a decided copy, `n` receivers were skipped under R111: lost_copy of its context (R238), or the count of a restore whose
frames a group receives (R299). -/
def skipCopies (s : Blk) (c : CopyRec) (n : Nat) : Blk :=
  if n = 0 then s
  else match c.target, c.node with
    | .link _, _ => s
    | _, .restore id =>
      match s.restores.find id with
      | none => s
      | some r => { s with restores := s.restores.put id { r with skipped := r.skipped + n } }
    | _, _ => s.lostCopy c

/-- The cells on a die's free list. -/
def freeCount (s : Blk) (d : Nat) : Nat := s.usable d - (s.bsl d).cells.length

/-- A frame of `n` cells in class `c` is admitted on die `d`: both conditions of R129, `depth` being depth_q. All n cells are granted
or none (R128): where guarantees above the usable cells (R131) leave fewer free than that, it is refused (DESIGN CHOICE, log entry
174). -/
def admits (s : Blk) (d c n depth : Nat) : Bool :=
  let need := s.overCells d c n
  let fs := s.freeShared d
  n ≤ s.freeCount d && (need : Int) ≤ fs &&
  (need = 0 || match alphaOf (s.fld .BSL_POOL_TC_alpha (8 * d + c)) with
    | none => true
    | some (a, b) => ((depth + n) * b : Int) ≤ a * fs)

/-- A class is lossless on a die (R132). -/
def lossless (s : Blk) (d c : Nat) : Bool := s.bit .BSL_ADM_CFG_lossless d c

/-- The allocator's decision on a copy (R129, R132, R133, R135). -/
def decideCopy (s : Blk) (key : Nat) : Blk :=
  match s.copy? key with
  | none => s
  | some c =>
    let d := key % 4
    let ms := s.receivers key c
    let skipped := (s.namedLegs d c.target).length - ms.length
    let held := fun (s : Blk) => s.skipCopies c skipped
    if ms = [] then (((held s).traceDrop key 2 1).count .BSL_DROP_LINKDOWN_count d 1).discardAndOffer key
    else
      let depth := (ms.filterMap fun (x : Leg) => s.queueFor x.1 c.cls c.node).foldl (fun m q => max m (s.queueCells d q)) 0
      if s.admits d c.cls c.ncells depth then
        let tag := c.tag.map fun t => { t with adm := some s.now, xdie := dieOfTile c.tile ≠ d }
        let s := match c.tx with
          | some r => s.txDone r 0
          | none => s
        let cells := s.pickCells d c.ncells
        (((held s).putCopy key { c with phase := .granted, todo := ms, tag := tag, cells := cells, turned := false }).ownCells d cells
          ⟨false, c.cls⟩).offerAfter c.inLink
      else if s.lossless d c.cls then
        (s.unland key).putCopy key { c with phase := .refused, sent := 0, landed := 0, turned := true }
      else ((((held s).traceDrop key 2 0).lostCopy c).count .BSL_DROP_NOCELL_count d 1).discardAndOffer key

/-- A spill allocation of `n` cells may be granted to an engine (R208). -/
def spillFits (s : Blk) (t n : Nat) : Bool :=
  n ≤ s.freeCount (dieOfTile t) &&
  (s.overCells (dieOfTile t) 5 n : Int) ≤ s.freeShared (dieOfTile t) &&
  s.fld .GRN_SPILL_USED_cells t + n ≤ s.fld .GRN_SPILL_CFG_quota t

/-- `n` spill cells are an engine's: filled with zeros, charged to TC5 and counted as queued (R139, R208). -/
def spillTake (s : Blk) (t n : Nat) : List Nat × Blk :=
  let cells := s.pickCells (dieOfTile t) n
  (cells, ((s.setFld .GRN_SPILL_USED_cells t (s.fld .GRN_SPILL_USED_cells t + n)).zeroCells (dieOfTile t) cells).ownCells
    (dieOfTile t) cells ⟨true, 5⟩)

/-- Change an engine's request made for a contribution. -/
def updAsk (s : Blk) (t fid : Nat) (f : SpillAsk → SpillAsk) : Blk :=
  s.updSpill t fun l => l.map fun a => if a.frame = fid then f a else a

/-- The allocator's decision on an engine's spill request (R208): granted cells count as queued, in TC5. -/
def decideSpill (s : Blk) (t fid : Nat) : Blk :=
  match (s.spill t).find? fun a => a.frame = fid with
  | none => s
  | some a =>
    if s.spillFits t a.want then
      let (cells, s) := s.spillTake t a.want
      s.updAsk t fid fun a => { a with want := 0, got := a.got + a.want, refused := false, cells := a.cells ++ cells }
    else s.updAsk t fid fun a => { a with want := 0, refused := true }

/-- One request is decided and leaves the list. -/
def decideRequest (s : Blk) (d : Nat) (r : Nat × Request) : Blk :=
  let s := s.updBsl d fun b =>
    if b.carried.contains r then { b with carried := b.carried.erase r } else { b with requests := b.requests.erase r }
  match r.2 with
  | .copy key => s.decideCopy key
  | .spill t fid => s.decideSpill t fid

/-- A die's requests in the order of R134: from the pointer's tile upward, each tile's requests carried over, then its admission
requests in their order, and then its spill requests. -/
def requestOrder (b : BasaltDie) : List (Nat × Request) :=
  (List.range 32).flatMap fun k =>
    let t := (b.pointer + k) % 32
    let mine := b.requests.filter (·.1 = t)
    b.carried.filter (·.1 = t) ++ (mine.filter fun r => !r.2.isSpill) ++ (mine.filter fun r => r.2.isSpill)

/-- One core clock of a die's allocator, after `idle` clocks without a request: at most 8 requests are decided, and the
pointer advances by one tile every clock (R134). -/
def decideClock (s : Blk) (d idle : Nat) : Blk :=
  let s := s.updBsl d fun b => { b with pointer := (b.pointer + idle) % 32 }
  let s := ((requestOrder (s.bsl d)).take 8).foldl (fun s r => s.decideRequest d r) s
  s.updBsl d fun b => { b with pointer := (b.pointer + 1) % 32, carried := requestOrder b, requests := [] }

/-- A refused lossless copy asks again (R132). -/
def retryCopy (s : Blk) (key : Nat) : Blk :=
  match s.copy? key with
  | none => s
  | some c => if c.phase = .refused then s.ask key else s

/-- A lossless copy has been refused for longer than stall_us: reported once (R133). -/
def stallCopy (s : Blk) (key : Nat) : Blk :=
  match s.copy? key with
  | none => s
  | some c =>
    if undecided c && c.turned && s.lossless (key % 4) c.cls && !c.stalled then
      ((s.putCopy key { c with stalled := true }).count .BSL_ADM_STALL_count (key % 4) 1).raise .BSL_INT_stall (key % 4)
    else s

/-! ### Enqueueing -/

/-- Set the ce bit of a Xeirrik frame (R84). -/
def setCe (f : Frame) : Frame := { f with data := (f.data.getD 0 0 ||| 0x02) :: f.data.drop 1 }

/-- A copy's frame is a Xeirrik frame for a tile (R82). -/
def isXeirrik (s : Blk) (t : Nat) (f : Frame) : Bool := f.etype.toNat = s.fld .TIL_FWD_CFG_xeirrik_etype t

/-- A copy joins its queue on a receiver's link: SUBSCRIBER_ENQUEUE (R161), the ce mark of that queue (R86) and TC7_MONITOR (R179). A
link out of service drops it (R133), as does a link that owns no node (R161). A parked link wakes (R67). -/
def enqueueAt (s : Blk) (key : Nat) (x : Leg) : Blk :=
  match s.copy? key with
  | none => s
  | some c =>
    let l := x.1
    let c1 := { c with todo := c.todo.erase x }
    if !s.inService l then
      let s := s.traceOut c.tag 2 2 1 l none none none
      (if c.target = .link l then s.count .BSL_DROP_LINKDOWN_count (key % 4) 1 else s.lostCopy c).putCopy key c1
    else match s.queueFor l c.cls c.node with
    | none =>
      let s := s.traceOut c.tag 2 3 2 l none none none
      ((s.count .FLD_DROP_DETACHED_count (tileOf l) 1).dropOnLink l).putCopy key c1
    | some q =>
      let mark := s.isXeirrik (tileOf l) c.frame &&
        2 ^ s.fld .TIL_FWD_CFG_ce_level (tileOf l) ≤ s.fld .FLD_SUB_DEPTH_cells q
      let c2 := { c1 with refs := c.refs + 1, enqueued := true }
      let s := if c.enqueued then s else s.enqueueCells (key % 4) c.cells
      let s := s.classWakes l c.cls
      let s := (s.putCopy key c2).setQueue q (s.queue q ++ [⟨key, frameLen c.frame, c.ncells, x.2, s.now, s.fld .FLD_SUB_DEPTH_cells q, mark⟩])
      let s := if c.cls = 7 then s.tc7Monitor l (frameLen c.frame) else s
      s.wakeLink l

/-- Where no reference is left and none is to come, a copy is discarded and its cells are freed (R112, R133). -/
def closeCopy (s : Blk) (key : Nat) : Blk :=
  match s.copy? key with
  | none => s
  | some c => if c.refs = 0 && c.todo = [] && (c.phase = .written || c.phase = .granted) then s.discardCopy key else s

/-- A copy goes cut-through to a link (R136): allowed there, its length known, and the link no faster than its own. -/
def cutThrough (s : Blk) (c : CopyRec) (l : Nat) : Bool :=
  match c.inLink with
  | none => false
  | some i =>
    s.bit .TIL_CT_CFG_ct_en (tileOf l) (8 * (portOf l % 8) + c.cls) && s.lengthKnown c.tile c.frame &&
      s.linkRate l ≤ s.linkRate i

/-- A landing buffer's cell of a copy is written into Basalt: its credit is on the way back (R150). -/
def unlandCell (s : Blk) (key idx : Nat) (c : CopyRec) : Blk :=
  let k := dirOf (dieOfTile c.tile) (key % 4)
  if dieOfTile c.tile = key % 4 then s
  else s.updDir k fun a =>
    if a.landing.any (fun x => x.copy = key && x.idx = idx) then
      { a with landing := a.landing.filter (fun x => ¬(x.copy = key ∧ x.idx = idx)), inFlight := vadd a.inFlight c.cls 1 }
    else a

/-- Cells of a frame whose bytes have arrived in staging. -/
def cellsHere (r : FrameRec) : Nat :=
  if r.whole then r.cells else (frameLen r.frame - 4 - (r.frame.data.length - r.got)) / 256

/-- Cell `i` of a copy can be written into its die's buffer: it lies in staging there, or has landed. A frame of the block's own
is whole. -/
def cellAt (s : Blk) (key i : Nat) (c : CopyRec) : Bool :=
  if dieOfTile c.tile ≠ key % 4 then i < c.landed
  else match s.frame? (key / 4) with
    | none => true
    | some r => r.link = none || r.whole || i < cellsHere r

/-- An earlier frame of a copy's ingress link and class has still to be enqueued for one of the egress links that the copy is for:
frames are enqueued there in the order they arrived, so that they leave in it (R151). -/
def behindEarlier (s : Blk) (key : Nat) (c : CopyRec) : Bool :=
  c.inLink.isSome && s.copies.any fun (kv : Nat × CopyRec) =>
    kv.1 % 4 = key % 4 && kv.1 < key && kv.2.inLink = c.inLink && kv.2.cls = c.cls &&
      kv.2.todo.any fun (x : Leg) => c.todo.any fun (y : Leg) => x.1 = y.1

/-- The first cell of a granted copy is written (R137): it is enqueued on the links to which it goes cut-through. It waits behind an
earlier frame for the same link (R151). -/
def firstWritten (s : Blk) (key : Nat) : Blk :=
  match s.copy? key with
  | none => s
  | some c =>
    if c.phase = .granted && !c.first && s.cellAt key 0 c && !s.behindEarlier key c then
      let s := s.writeCopyCell key 0 c
      let cut := c.todo.filter fun (x : Leg) => s.cutThrough c x.1
      let tag := if cut = [] then c.tag else c.tag.map fun t => { t with cut := true }
      let s := (s.unlandCell key 0 c).putCopy key { c with first := true, wrote := c.wrote + 1, tag := tag }
      ((cut.foldl (fun s l => s.enqueueAt key l) s).closeCopy key).settle (key / 4)
    else s

/-- The last cell of a granted copy is written, its first one having been (R137): it is enqueued on its other links, or discarded
where its check failed at ingress (R141), which a copy from another die knows from its last cell (R149). A copy of a frame whose
tail has not arrived, or whose cells have not all landed, is not yet written. -/
def lastWritten (s : Blk) (key : Nat) : Blk :=
  let s := s.firstWritten key
  match s.copy? key with
  | none => s
  | some c =>
    let fr := s.frame? (key / 4)
    let tailHere := (fr.map (·.whole)).getD true
    let failed := if dieOfTile c.tile = key % 4 then (fr.map (·.chkFail)).getD c.chkFail else c.chkFail
    let allHere := dieOfTile c.tile = key % 4 || c.ncells ≤ c.landed
    if c.phase = .granted && c.first && tailHere && allHere && !s.behindEarlier key c then
      let s := (List.range c.ncells).foldl (fun s i => (s.writeCopyCell key i c).unlandCell key i c) s
      let c' := { c with wrote := c.ncells, phase := .written, chkFail := failed }
      let left := if failed then [] else c.todo
      let s := if failed && c.todo ≠ [] then s.traceDrop key 4 0 else s
      let s := s.putCopy key { c' with todo := left }
      ((left.foldl (fun s l => s.enqueueAt key l) s).closeCopy key).settle (key / 4)
    else s

/-! ### Counts and the auditor -/

/-- The four counts of a die are latched in one clock (R144). -/
def countSnap (s : Blk) (d : Nat) : Blk :=
  (((s.setFld .BSL_QUEUED_count d (s.queuedCells d)).setFld .BSL_RESERVED_count d (s.reservedCells d)).setFld .BSL_RETIRED_count d
    (s.retired d)).setFld .BSL_FREE_count d (s.usable d - s.queuedCells d - s.reservedCells d)

/-- The cells of a die that an owner holds: a copy, or a spill allocation, of a chunk or not yet used (R139, R145). -/
def ownedCells (s : Blk) (d : Nat) : List Nat :=
  (s.copies.flatMap fun kv => if kv.1 % 4 = d then kv.2.cells else []) ++
  (s.spills.flatMap fun kv => if dieOfTile kv.1 = d then kv.2.flatMap (·.cells) else []) ++
  (s.engines.flatMap fun kv => if dieOfTile kv.1 = d then (kv.2.chunks ++ kv.2.copies).flatMap (·.cells) else [])

/-- A fault takes cells of a die from the record of their owner. -/
def loseCells (s : Blk) (d : Nat) (cells : List Nat) : Blk :=
  let left := fun (l : List Nat) => l.filter fun n => !cells.contains n
  { s with
    copies := s.copies.map fun kv => (kv.1, if kv.1 % 4 = d then { kv.2 with cells := left kv.2.cells } else kv.2)
    spills := s.spills.mapV [] fun t l => if dieOfTile t = d then l.map fun a => { a with cells := left a.cells } else l
    engines := s.engines.mapV .reset fun t e =>
      let cut := fun (l : List ChunkRec) => l.map fun c => { c with cells := left c.cells }
      if dieOfTile t = d then { e with chunks := cut e.chunks, copies := cut e.copies } else e }

/-- A cell found unowned in two sweeps on end is filled with zeros and goes back to the free list, and so off the count of its stale
state (R146). -/
def reclaim (s : Blk) (d cell : Nat) : Blk :=
  (((s.zeroCells d [cell]).freeCells d [cell]).count .BSL_AUDIT_RECLAIM_count d 1).raise .BSL_INT_leak d

/-- A cell newly found double-owned is counted and reported (R146). -/
def doubleFound (s : Blk) (d cell : Nat) : Blk :=
  ((s.count .BSL_AUDIT_DOUBLE_count d 1).raise .BSL_INT_double d).reportError (.basaltDouble d cell)

/-- One sweep of the auditor (R145, R146), after faults that took cells `lost` from their owners' records and put cells `astray` on
the free list though they are owned. It marks the cells of the queues, reservations and spill allocations as owned and those of the
free list as free; what it leaves unmarked is unowned, what it marks twice double-owned. -/
def auditSweep (s : Blk) (d : Nat) (lost astray : List Nat) : Blk :=
  if s.flag .BSL_AUDIT_CTL_en d then
    let s := s.loseCells d lost
    let owned := s.ownedCells d
    let b := s.bsl d
    let doubles := ((b.astray ++ astray).filter owned.contains).dedup
    let unowned := b.cells.keys.filter fun n => !owned.contains n
    let again := unowned.filter b.suspects.contains
    let s := again.foldl (fun s c => s.reclaim d c) s
    let s := (doubles.filter fun c => !b.doubles.contains c).foldl (fun s c => s.doubleFound d c) s
    let s := s.updBsl d fun b => { b with astray := doubles, suspects := unowned.filter fun c => !again.contains c, doubles := doubles }
    s.setFld .BSL_AUDIT_STATUS_suspect d (min unowned.length 65535)
  else s

/-- The counts of a die after a reset (R157): its cells in service are free. -/
def freshCounts (s : Blk) (d : Nat) : Blk :=
  (s.setFld .BSL_RETIRED_count d (s.retired d)).setFld .BSL_FREE_count d (s.usable d)

end Blk

end Sys2Proof.Machine
end

