-- ==== Sys2Proof/Machine/Agate.lean ====
section
/-!
DEFINITION. The Agate links (chapter 4): the state machine of a direction (R153), the bundle and its books (R150 to
R152), degraded and down pairs (R154), and the management channel (R155). Direction 0 of a link runs from die i to die j
and is reported at the end on die j; direction 1 runs back.
-/

namespace Sys2Proof.Machine

/-- The state codes of R153. -/
inductive AgateCode where
  | off | training | live | draining | failed
  deriving DecidableEq, Repr

/-- The code that D2D_LNK_STATUS.state shows. -/
def AgateCode.code : AgateCode → Nat
  | .off => 0
  | .training => 1
  | .live => 2
  | .draining => 3
  | .failed => 4

/-- The number of a direction of a link. -/
def dirBit (back : Bool) : Nat := if back then 1 else 0

/-- The register index of the end that receives direction `b` of link `l` (R153, R158). -/
def rxEnd (l b : Nat) : Nat := 2 * l + (1 - b)

namespace Blk

/-- A direction of an Agate link is in a state. -/
def agIn (s : Blk) (l b : Nat) (c : AgateCode) : Bool := s.fld .D2D_LNK_STATUS_state (rxEnd l b) = c.code

/-- A link may carry data: enabled at both ends, its domain powered (R153). -/
def agReady (s : Blk) (l : Nat) : Bool :=
  s.flag .D2D_LNK_CTL_en (2 * l) && s.flag .D2D_LNK_CTL_en (2 * l + 1) && s.domOn (108 + l)

/-- Neither die of a pair is in reset (R158). -/
def pairAwake (s : Blk) (p : Nat) : Bool :=
  !(s.bit .RSTC_DIE_RST_die 0 (pairDies p).1) && !(s.bit .RSTC_DIE_RST_die 0 (pairDies p).2)

/-- The live links of a pair in a direction (R154, R158). -/
def countLive (s : Blk) (p b : Nat) : Nat :=
  if s.pairAwake p then ((List.range 8).filter fun k => s.agIn (8 * p + k) b .live).length else 0

/-- The link that carries the management channel of a pair in a direction: A0j.0, or the lowest that is live (R155). -/
def mgmtLink (s : Blk) (p b : Nat) : Option Nat :=
  if p < 3 then (List.range 8).find? fun k => s.agIn (8 * p + k) b .live else none

/-- The mgmt marks of a pair in a direction (R155). -/
def markMgmt (s : Blk) (p b : Nat) : Blk :=
  (List.range 8).foldl (fun s k =>
    s.setFld .D2D_LNK_STATUS_mgmt (rxEnd (8 * p + k) b) (if s.mgmtLink p b = some k then 1 else 0)) s

/-- Count a pair's live links afresh: D2D_PAIR_STATUS, the mgmt marks, degraded and down (R154, R155). -/
def relive (s : Blk) (p b : Nat) : Blk :=
  let old := s.liveLinks (2 * p + b)
  let new := s.countLive p b
  let s := s.setFld (if b = 0 then .D2D_PAIR_STATUS_live_ij else .D2D_PAIR_STATUS_live_ji) p new
  let s := s.markMgmt p b
  let s := if new < old && new < min 8 (s.fld .D2D_PAIR_CFG_min_links p) then s.raise .D2D_PAIR_INT_degraded p else s
  if new < old && new = 0 then s.pairDown (2 * p + b) else s

/-- The live link of a bundle with the fewest cells waiting; a tie goes to the lowest index at or after the rotating
pointer (R150). -/
def pickLink (s : Blk) (p b : Nat) : Option Nat :=
  let start := (s.dir (2 * p + b)).pointer
  ((List.range 8).map fun k => (start + k) % 8).foldl (fun best k =>
    if s.agIn (8 * p + k) b .live then
      match best with
      | none => some k
      | some m => if (s.lane (2 * (8 * p + k) + b)).cells.length < (s.lane (2 * (8 * p + m) + b)).cells.length
          then some k else some m
    else best) none

/-- Put a cell on a lane; a TC7 cell goes ahead of the waiting cells of other classes, but not of the one in progress
(R180). -/
def laneInsert (cells : List AgateCell) (c : AgateCell) : List AgateCell :=
  match cells with
  | [] => [c]
  | hd :: tl =>
    if c.cls = 7 then hd :: (tl.takeWhile (·.cls = 7) ++ c :: tl.dropWhile (·.cls = 7))
    else cells ++ [c]

/-- Place a cell on the bundle; the pointer moves past the chosen link at every cell (R150; DESIGN CHOICE, log entry 172: the spec does
not say when it moves). -/
def placeCell (s : Blk) (p b : Nat) (c : AgateCell) : Blk :=
  match s.pickLink p b with
  | none => s
  | some k => (s.updLane (2 * (8 * p + k) + b) fun a => { a with cells := laneInsert a.cells c }).updDir (2 * p + b)
      fun d => { d with pointer := (k + 1) % 8 }

/-- A direction leaves LIVE: its unacknowledged cells move, in order, to the other live links (R152), and the pair's
counts follow. -/
def leaveLive (s : Blk) (l b : Nat) : Blk :=
  let p := l / 8
  let cells := (s.lane (2 * l + b)).cells
  let s := s.updLane (2 * l + b) fun _ => ⟨[], 0⟩
  (cells.foldl (fun s c => s.placeCell p b c) s).relive p b

/-- Write a direction's state. -/
def setAg (s : Blk) (l b : Nat) (c : AgateCode) : Blk := s.setFld .D2D_LNK_STATUS_state (rxEnd l b) c.code

/-- A direction enters FAILED, if it is not there: counted at the end that receives it, and link_fail set (R153, R158). -/
def agFail (s : Blk) (l b : Nat) : Blk :=
  if s.agIn l b .failed then s else
  let live := s.agIn l b .live
  let s := ((s.setAg l b .failed).count .D2D_LNK_FAILS_count (rxEnd l b) 1).raise .D2D_PAIR_INT_link_fail (l / 8)
  if live then s.leaveLive l b else s

/-- An OFF direction whose conditions hold starts training (R153). -/
def agStart (s : Blk) (l b : Nat) : Blk :=
  if s.agReady l && s.agIn l b .off then s.setAg l b .training else s

/-- Every OFF direction of the device whose conditions hold starts training. -/
def agStartAll (s : Blk) : Blk := (List.range 48).foldl (fun s l => (s.agStart l 0).agStart l 1) s

/-- en is written 1 at an end (R153). -/
def agEnSet (s : Blk) (l e : Nat) : Blk := ((s.setFld .D2D_LNK_CTL_en (2 * l + e) 1).agStart l 0).agStart l 1

/-- en written 0 acts on one direction (R153). -/
def agClear (s : Blk) (l b : Nat) : Blk :=
  if s.agIn l b .training || s.agIn l b .failed then s.setAg l b .off
  else if s.agIn l b .live then (s.setAg l b .draining).leaveLive l b
  else s

/-- en is written 0 at an end (R153). -/
def agEnClear (s : Blk) (l e : Nat) : Blk := ((s.setFld .D2D_LNK_CTL_en (2 * l + e) 0).agClear l 0).agClear l 1

/-- retrain is written: every LIVE direction fails (R153, R158). -/
def agRetrain (s : Blk) (l : Nat) : Blk :=
  let s := if s.agIn l 0 .live then s.agFail l 0 else s
  if s.agIn l 1 .live then s.agFail l 1 else s

/-- A training module is trained (R153). -/
def agTrained (s : Blk) (l b : Nat) : Blk :=
  if s.agIn l b .training then (s.setAg l b .live).relive (l / 8) b else s

/-! ### Cells (R149) -/

/-- mc, dst_link, mkind and mgroup of a copy's cells. For a collective copy, whose members the receiving die knows from its context,
the table has no code: the model sends mkind 0 and the group's number (DEDUCED, log entry 143). -/
def targetFields : Target → Nat × Nat × Nat × Nat
  | .link l => (0, l, 0, 0)
  | .list g => (1, 0, 0, g)
  | .row t => (1, 0, 1, t)
  | .column t => (1, 0, 2, t)
  | .members k _ _ => (1, 0, 0, k / 65536)

/-- The 32-byte header of cell `i` of a frame of `n` cells and `len` bytes (R149). -/
def cellHeader (i n len cls tile seq ftag : Nat) (chkFail : Bool) (t : Nat × Nat × Nat × Nat) : List Byte :=
  let pos := (if i + 1 = n then 2 else 0) + (if i = 0 then 1 else 0)
  let fail := if chkFail && i + 1 = n then 1 else 0
  beBytes 1 (64 * pos + 8 * cls + 4 * t.1 + 2 * fail) ++ beBytes 1 (8 * tile) ++ beBytes 2 seq ++
    beBytes 2 (64 * t.2.1 + n) ++ beBytes 2 (2 ^ 14 * t.2.2.1 + t.2.2.2) ++ beBytes 2 (len - 256 * (n - 1)) ++ beBytes 2 ftag ++
    beBytes 20 0

/-- chk_fail of a cell's header. -/
def headFails (x : AgateCell) : Bool := (x.head.getD 0 0).toNat.testBit 1

/-- A cell of class `c` of a tile may leave on direction `k` of a pair: it needs a credit (R150), room in its stream's window of
4,096 unacknowledged cells (R151) and a live link. -/
def mayCross (s : Blk) (k tile c : Nat) : Bool :=
  let inStream := ((List.range 8).map fun j => ((s.lane (2 * (8 * (k / 2) + j) + k % 2)).cells.filter
    (·.tile = tile)).length).sum
  0 < vget (s.dir k).credits c && inStream < 4096 && 0 < s.liveLinks k

/-- A tile's frame starts to cross: its number in the stream (R149). -/
def nextTag (s : Blk) (k tile : Nat) : Nat × Blk :=
  let n := (s.dir k).sendTag.get 0 tile
  (n, s.updDir k fun d => { d with sendTag := d.sendTag.set 0 tile ((n + 1) % 65536) })

/-- Cell `i` of a frame leaves: it takes a credit and the next number of its stream, and a place on the bundle (R150, R151). -/
def sendCell (s : Blk) (key i n len cls tile ftag : Nat) (chkFail : Bool) (t : Nat × Nat × Nat × Nat) : Blk :=
  let k := dirOf (dieOfTile tile) (key % 4)
  let seq := (s.dir k).sendSeq.get 0 tile
  let s := s.updDir k fun d =>
    { d with credits := vsub d.credits cls 1, sendSeq := d.sendSeq.set 0 tile ((seq + 1) % 65536) }
  s.placeCell (k / 2) (k % 2) ⟨key, i, cls, tile, seq, cellHeader i n len cls tile seq ftag chkFail t, false⟩

/-- Send a copy's next cell over Agate: the first with its request, the others once admission is granted (R128). -/
def copyCell (s : Blk) (key : Nat) (c : CopyRec) : Blk :=
  let k := dirOf (dieOfTile c.tile) (key % 4)
  let fr := s.frame? (key / 4)
  let here := match fr with
    | none => c.ncells
    | some r => if r.link = none then c.ncells else cellsHere r
  let may := (c.phase = .toCross && c.sent = 0 && 0 < here) || (c.phase = .granted && c.sent < c.ncells && c.sent < here)
  if dieOfTile c.tile ≠ key % 4 && may && s.mayCross k c.tile c.cls then
    let (ftag, s) := if c.sent = 0 then s.nextTag k c.tile else (c.ftag, s)
    let failed := (fr.map (·.chkFail)).getD c.chkFail
    let s := s.sendCell key c.sent c.ncells (frameLen c.frame) c.cls c.tile ftag failed (targetFields c.target)
    s.putCopy key { c with sent := c.sent + 1, ftag := ftag, phase := if c.phase = .toCross then .crossing else c.phase }
  else s

/-- Send the next cell of a contribution or request (R27, R30). Its header names no link: what dst_link is for a cell that an engine
takes, the spec does not say, and the model sends 0 (DESIGN CHOICE, log entry 44). -/
def transferCell (s : Blk) (key : Nat) (x : Transfer) : Blk :=
  let k := dirOf (dieOfTile x.tile) (key % 4)
  let len := match s.frame? (key / 4) with
    | none => 0
    | some r => frameLen r.frame
  if x.sent < x.ncells && s.mayCross k x.tile x.cls then
    let (ftag, s) := if x.sent = 0 then s.nextTag k x.tile else (x.ftag, s)
    let s := s.sendCell key x.sent x.ncells len x.cls x.tile ftag false (0, 0, 0, 0)
    { s with transfers := s.transfers.put key { x with sent := x.sent + 1, ftag := ftag } }
  else s

/-- The next cell of a frame for another die is sent over Agate (R150). -/
def cellSend (s : Blk) (key : Nat) : Blk :=
  match s.copy? key, s.transfers.find key with
  | some c, _ => s.copyCell key c
  | none, some x => s.transferCell key x
  | none, none => s

/-- A cell leaves its landing buffer: its credit is on the way back (R150). -/
def takeLanded (s : Blk) (k : Nat) (x : AgateCell) : Blk :=
  s.updDir k fun d => { d with landing := d.landing.filter (fun y => !(y.tile = x.tile && y.seq = x.seq)),
                               inFlight := vadd d.inFlight x.cls 1 }

/-- A cell comes to its turn in its stream (R151): the first of a copy brings its request and waits for the decision; the others of a
granted copy are written into Basalt as they come, the last one when LAST_CELL_WRITTEN says so (R128); an engine takes those of a
contribution or request. A cell that nothing awaits any more is discarded. -/
def cellReady (s : Blk) (k : Nat) (x : AgateCell) : Blk :=
  match s.copy? x.copy, s.transfers.find x.copy with
  | some c, _ =>
    let c := { c with landed := c.landed + 1, chkFail := c.chkFail || headFails x }
    if x.idx = 0 && c.phase = .crossing then
      (s.putCopy x.copy { c with phase := .asked }).updBsl (x.copy % 4) fun b =>
        { b with requests := b.requests ++ [(c.tile, .copy x.copy)] }
    else if c.phase = .granted && 0 < x.idx then
      if x.idx + 1 < c.ncells then
        (((s.writeCopyCell x.copy x.idx c).putCopy x.copy { c with wrote := c.wrote + 1 }).takeLanded k x).settle (x.copy / 4)
      else s.putCopy x.copy c
    else s.takeLanded k x
  | none, some t => { s with transfers := s.transfers.put x.copy { t with landed := t.landed + 1 } }.takeLanded k x
  | none, none => s.takeLanded k x

/-- Release the landed cells of a tile's stream that are next in order, at most `n` of them (R151). -/
def releaseCells (s : Blk) (k tile : Nat) : Nat → Blk
  | 0 => s
  | n + 1 =>
    let d := s.dir k
    let next := d.recvSeq.get 0 tile
    match d.landing.find? fun x => x.tile = tile && x.seq = next && !x.ready with
    | none => s
    | some x =>
      let s := s.updDir k fun d =>
        { d with recvSeq := d.recvSeq.set 0 tile ((next + 1) % 65536),
                 landing := d.landing.map fun y => if y = x then { y with ready := true } else y }
      (s.cellReady k x).releaseCells k tile n

/-- The cell at the head of a lane lands (R150, R151). -/
def cellLanded (s : Blk) (l b : Nat) : Blk :=
  match (s.lane (2 * l + b)).cells with
  | [] => s
  | x :: rest =>
    let k := 2 * (l / 8) + b
    let s := s.updLane (2 * l + b) fun _ => ⟨rest, 0⟩
    let s := s.updDir k fun d => { d with landing := d.landing ++ [x] }
    s.releaseCells k x.tile (s.dir k).landing.length

/-- A credit on its way back arrives (R150). -/
def creditReturn (s : Blk) (p b c : Nat) : Blk :=
  s.updDir (2 * p + b) fun d =>
    if 0 < vget d.inFlight c then { d with inFlight := vsub d.inFlight c 1, credits := vadd d.credits c 1 } else d

/-- A flit's CRC fails at the receiving end: it is replayed, and a third failed replay fails the link (R152). -/
def flitFail (s : Blk) (l b : Nat) : Blk :=
  let n := (s.lane (2 * l + b)).badReplays
  let s := s.count .D2D_LNK_CRCERR_count (rxEnd l b) 1
  if n = 3 then if s.agIn l b .live then s.agFail l b else s
  else (s.updLane (2 * l + b) fun a => { a with badReplays := n + 1 }).count .D2D_LNK_REPLAY_count (rxEnd l b) 1

end Blk

/-! ### Meanings of the admission and Agate rows -/

open Blk

/-- R128, R129, R134: one clock of the die's allocator, after `idle` clocks without a request. -/
def execAdmissionRequest (die : DieId) (idle : Nat) (s : State) : Host.Outcome State Fault Refusal :=
  run (·.decideClock die idle) s

/-- R132. -/
def execAdmissionRetry (frame : Nat) (die : DieId) (s : State) : Host.Outcome State Fault Refusal :=
  run (·.retryCopy (4 * frame + die)) s

/-- R133. -/
def execAdmissionStall (frame : Nat) (die : DieId) (s : State) : Host.Outcome State Fault Refusal :=
  run (·.stallCopy (4 * frame + die)) s

/-- R137. -/
def execFirstCellWritten (frame : Nat) (die : DieId) (s : State) : Host.Outcome State Fault Refusal :=
  run (·.firstWritten (4 * frame + die)) s

/-- R137. -/
def execLastCellWritten (frame : Nat) (die : DieId) (s : State) : Host.Outcome State Fault Refusal :=
  run (·.lastWritten (4 * frame + die)) s

/-- R150. -/
def execAgateCellSend (frame : Nat) (die : DieId) (s : State) : Host.Outcome State Fault Refusal :=
  run (·.cellSend (4 * frame + die)) s

/-- R151. -/
def execAgateCellLanded (link : AgateId) (back : Bool) (s : State) : Host.Outcome State Fault Refusal :=
  run (·.cellLanded link (dirBit back)) s

/-- R150. -/
def execAgateCreditReturn (pair : PairId) (back : Bool) (cls : ClassId) (s : State) : Host.Outcome State Fault Refusal :=
  run (·.creditReturn pair (dirBit back) cls) s

/-- R152. -/
def execFlitCrcFail (link : AgateId) (back : Bool) (s : State) : Host.Outcome State Fault Refusal :=
  run (·.flitFail link (dirBit back)) s

/-- R153. -/
def execAgateEnSet (link : AgateId) (endJ : Bool) (s : State) : Host.Outcome State Fault Refusal :=
  run (·.agEnSet link (dirBit endJ)) s

/-- R153. -/
def execAgateEnClear (link : AgateId) (endJ : Bool) (s : State) : Host.Outcome State Fault Refusal :=
  run (·.agEnClear link (dirBit endJ)) s

/-- R153, R158. -/
def execAgateRetrain (link : AgateId) (s : State) : Host.Outcome State Fault Refusal := run (·.agRetrain link) s

/-- R153. -/
def execAgateTrained (link : AgateId) (back : Bool) (s : State) : Host.Outcome State Fault Refusal :=
  run (·.agTrained link (dirBit back)) s

/-- R153. -/
def execAgateTrainingTimeout (link : AgateId) (back : Bool) (s : State) : Host.Outcome State Fault Refusal :=
  run (fun b => if b.agIn link (dirBit back) .training then b.agFail link (dirBit back) else b) s

/-- R153: no unacknowledged cell remains. A link enabled again meanwhile then trains. -/
def execAgateDrained (link : AgateId) (back : Bool) (s : State) : Host.Outcome State Fault Refusal :=
  run (fun b => if b.agIn link (dirBit back) .draining && (b.lane (2 * link + dirBit back)).cells = [] then
    (b.setAg link (dirBit back) .off).agStart link (dirBit back) else b) s

/-- R153: 10 µs in FAILED with auto_retrain = 1 at the end that receives the direction. -/
def execAgateFailedExpiry (link : AgateId) (back : Bool) (s : State) : Host.Outcome State Fault Refusal :=
  run (fun b => if b.agIn link (dirBit back) .failed && b.agReady link &&
      b.flag .D2D_LNK_CTL_auto_retrain (rxEnd link (dirBit back)) then b.setAg link (dirBit back) .training else b) s

/-- R153, R152. -/
def execAgateLossOfLock (link : AgateId) (back : Bool) (s : State) : Host.Outcome State Fault Refusal :=
  run (fun b => if b.agIn link (dirBit back) .live then b.agFail link (dirBit back) else b) s

/-- R144. -/
def execCountSnap (die : DieId) (s : State) : Host.Outcome State Fault Refusal := run (·.countSnap die) s

/-- R145, R146: a sweep, after the faults that took cells from their owners' records, and those that put owned cells on the free
list. -/
def execAuditSweep (die : DieId) (lost astray : List Nat) (s : State) : Host.Outcome State Fault Refusal :=
  run (·.auditSweep die lost astray) s

end Sys2Proof.Machine
end

