-- ==== Sys2Proof/Machine/Ptp.lean ====
section
/-!
DEFINITION. PTP messages: where they lie in a frame (R82), the timestamp record (R356), and what hardware does as one leaves:
a transmit record, or the completion of a one-step Sync.
-/

namespace Sys2Proof.Machine

/-- Past the extension headers of an IPv6 packet, from a next-header value and the offset of what it names: the upper-layer
protocol and the offset of its header; none in a fragment other than the first. Hop-by-hop options, routing and destination options count their length in 8 bytes past
the first 8, a fragment header is 8 bytes, an authentication header counts in 4 bytes past the first 8 (PRESUMED, from IPv6: log entry 123). -/
def ipWalk (b : List Byte) : Nat → Nat → Nat → Nat × Option Nat
  | 0, next, off => (next, some off)
  | n + 1, next, off =>
    if next = 0 || next = 43 || next = 60 then ipWalk b n (beAt b off 1) (off + 8 * (beAt b (off + 1) 1 + 1))
    else if next = 44 then (if beAt b (off + 2) 2 / 8 = 0 then ipWalk b n (beAt b off 1) (off + 8) else (beAt b off 1, none))
    else if next = 51 then ipWalk b n (beAt b off 1) (off + 4 * (beAt b (off + 1) 1 + 2))
    else (next, some off)

/-- The upper-layer protocol of an IP packet and the offset of its header (R96, R107). A fragment other than the first carries no such
header, and so no ports (DESIGN CHOICE, log entry 123: the spec is silent). -/
def ipUpper (v6 : Bool) (b : List Byte) : Nat × Option Nat :=
  if v6 then ipWalk b (b.length / 8) (beAt b 6 1) 40
  else (beAt b 9 1, if beAt b 6 2 % 8192 = 0 then some (beAt b 0 1 % 16 * 4) else none)

/-- The offset of an IP packet's upper-layer header, where it has one. -/
def ipPayload (v6 : Bool) (b : List Byte) : Option Nat := (ipUpper v6 b).2

/-- The upper-layer protocol of an IP packet. -/
def ipProto (v6 : Bool) (b : List Byte) : Nat := (ipUpper v6 b).1

/-- One's complement sum of two 16-bit words. -/
def ocAdd (a b : Nat) : Nat := (a + b) % 65536 + (a + b) / 65536

/-- A frame is IPv4 or IPv6 by its EtherType: whether it is IPv6. -/
def ipKind (f : Frame) : Option Bool :=
  if f.etype = 0x0800 then some false else if f.etype = 0x86DD then some true else none

/-- A PTP message: its EtherType, or UDP port 319 or 320 (R82). The port is the destination's (DESIGN CHOICE, log entry 122). -/
def isPtp (f : Frame) : Bool :=
  f.etype = 0x88F7 || match ipKind f with
    | none => false
    | some v6 =>
      ipProto v6 f.data = 17 && (ipPayload v6 f.data).any fun p =>
        beAt f.data (p + 2) 2 = 319 || beAt f.data (p + 2) 2 = 320

/-- Where a PTP message begins in a frame's bytes (R82, R357). -/
def ptpStart (f : Frame) : Nat :=
  match ipKind f with
  | none => 0
  | some v6 => (ipPayload v6 f.data).getD 0 + 8

/-- Bytes of a frame with some of them replaced. -/
def putAt (bs : List Byte) (lo : Nat) (xs : List Byte) : List Byte := bs.take lo ++ xs ++ bs.drop (lo + xs.length)

/-- One's complement sum of the 16-bit words of some bytes, an odd last byte being a high one. -/
def ocBytes : List Byte → Nat
  | [] => 0
  | [a] => a.toNat * 256
  | a :: b :: t => ocAdd (a.toNat * 256 + b.toNat) (ocBytes t)

/-- The bytes of an IPv6 datagram from its UDP header on, its last two bytes changed so that the UDP checksum of `old` still
holds (R356). -/
def fixUdp (old new : List Byte) : List Byte :=
  let n := new.length - 2
  let want := ocAdd (ocBytes old) (65535 - ocBytes (new.take n))
  let w := if n % 2 = 0 then want else want % 256 * 256 + want / 256
  new.take n ++ beBytes 2 w

/-- A one-step Sync as it leaves at hall time `sec`, `nsec`, `frac`: originTimestamp written, the fraction added to
correctionField, and the UDP checksum seen to (R356). -/
def oneStepSync (f : Frame) (sec nsec frac : Nat) : Frame :=
  let p := ptpStart f
  let d := putAt (putAt f.data (p + 8) (beBytes 8 (beAt f.data (p + 8) 8 + frac))) (p + 34) (beBytes 6 sec ++ beBytes 4 nsec)
  match ipKind f with
  | none => { f with data := d }
  | some false => { f with data := putAt d (p - 2) (beBytes 2 0) }
  | some true => { f with data := f.data.take (p - 8) ++ fixUdp (f.data.drop (p - 8)) (d.drop (p - 8)) }

/-- A frame is a one-step Sync: messageType 0 with twoStepFlag clear (R356). -/
def isOneStep (f : Frame) : Bool :=
  isPtp f && beAt f.data (ptpStart f) 1 % 16 = 0 && !(beAt f.data (ptpStart f + 6) 1).testBit 1

namespace Blk

/-- The timestamp record of a PTP message on a link, stamped `t` in units of R347, `ok` when that was taken (R356). -/
def tsRecord (s : Blk) (l : Nat) (f : Frame) (tx : Bool) (t : Nat) (ok : Bool) : List Byte :=
  let p := ptpStart f
  let ns := t / 65536
  let b0 := (if ok then 128 else 0) + 64 * s.fld .QTZ_LNK_ASYM_known l + (if tx then 32 else 0) +
    (if isOneStep f then 16 else 0) + beAt f.data p 1 % 16
  beBytes 1 b0 ++ beBytes 1 (beAt f.data (p + 4) 1) ++ beBytes 2 (beAt f.data (p + 30) 2) ++ beBytes 2 l ++
    beBytes 2 (t % 65536) ++ beBytes 4 (ns / 10 ^ 9) ++ beBytes 4 (ns % 10 ^ 9)

/-- A Delay_Req (messageType 1) or Pdelay_Req (2) has left: the firmware, which reads its transmit record, keeps the time of the last
one on each port (R357; the codes: PRESUMED, log entry 155). -/
def noteRequest (s : Blk) (l : Nat) (f : Frame) (start : Nat) : Blk :=
  let p := ptpStart f
  let kind := beAt f.data p 1 % 16
  let d := beAt f.data (p + 4) 1
  if kind = 1 || kind = 2 then
    let others := s.servo.sent.filter fun x => ¬ (x.domain = d ∧ x.link = l ∧ x.kind = kind)
    { s with servo := { s.servo with sent := others ++ [⟨d, l, kind, beAt f.data (p + 30) 2, start⟩] } }
  else s

/-- A transmit record joins its tile's FIFO of 64; one that finds it full is discarded and counted (R356). -/
def txStamp (s : Blk) (l : Nat) (f : Frame) (start : Nat) (ok : Bool) : Blk :=
  let t := tileOf l
  let q := s.txts.get [] t
  if 64 ≤ q.length then s.count .QTZ_TXTS_LOST_count t 1
  else ({ s with txts := s.txts.set [] t (q ++ [s.tsRecord l f true start ok]) }).noteRequest l f start

/-- What is done to a frame from the host path as it leaves, its transmit timestamp being `start` (R354, R356, R476). -/
def ptpSent (s : Blk) (l : Nat) (c : Option CopyRec) (f : Frame) (start : Nat) (ok : Bool) : Frame × Blk :=
  match c with
  | none => (f, s)
  | some c =>
    if c.node ≠ .host then (f, s)
    else if c.ts then (f, s.txStamp l f start ok)
    else if isOneStep f then (oneStepSync f (start / 65536 / 10 ^ 9 % 2 ^ 48) (start / 65536 % 10 ^ 9) (start % 65536), s)
    else (f, s)

end Blk

end Sys2Proof.Machine
end

