-- ==== Sys2Proof/Machine/Feldspar.lean ====
section
/-!
DEFINITION. Feldspar (chapter 5): selection by strict priority and virtual time (R162 to R165), preemption (R177, R178),
the egress pipeline (R83, R142), gate boundaries and bank switches (R172 to R175), and writes of its registers (R160,
R171).
-/

namespace Sys2Proof.Machine

/-- The largest cost of R165: the largest frame at weight 1. -/
def costMax : Nat := 9236 * 65536

/-- The cost of a frame of `bytes` bytes at a weight (R164). -/
def schedCost (bytes weight : Nat) : Nat := ceilDiv ((bytes + 20) * 65536) (max 1 weight)

/-- A child eligible at a selection: its index, its head frame's copy, and that frame's cost. -/
structure Contender where
  kid : Nat
  head : Nat
  cost : Nat

/-- Judge a node's children: those in `now` are eligible. A child that leaves keeps its lag, and one that comes back starts at V +
lag (R165). A finish tag is computed for a new head frame; for one it has been computed for already, only where the node works them
out afresh, as a link does (R164, R171). -/
def judge (n : SchedNode) (afresh : Bool) (now : List Contender) : SchedNode :=
  let gone := n.kids.map fun kv =>
    if kv.2.on && !(now.any (·.kid = kv.1)) then
      (kv.1, { kv.2 with on := false, lag := min (kv.2.finish - n.vtime) costMax })
    else kv
  { n with kids := now.foldl (fun (t : Tab SchedChild) c =>
      let k := t.get ⟨0, 0, 0, false, 0⟩ c.kid
      let start := if k.on then k.start else n.vtime + k.lag
      if k.on && k.head = c.head && !afresh then t
      else t.put c.kid ⟨start, start + c.cost, k.lag, true, c.head⟩) gone }

/-- The eligible child with the least finish tag, the lowest index on a tie (R164). -/
def leastFinish (n : SchedNode) : Option (Nat × SchedChild) :=
  n.kids.foldl (fun best kv =>
    if kv.2.on then
      match best with
      | none => some kv
      | some b => if kv.2.finish < b.2.finish then some kv else some b
    else best) none

/-- Serve a child: V is its finish tag, and so is its next start tag (R164). -/
def served (n : SchedNode) (i : Nat) : SchedNode :=
  let k := n.kids.get ⟨0, 0, 0, false, 0⟩ i
  { vtime := k.finish, kids := n.kids.put i { k with start := k.finish } }

/-- Serve a child of a class node: one that stays eligible has the finish tag of its next head frame computed now; one that does not
leaves with a lag of 0, V being its finish tag (R164, R165). -/
def serve (n : SchedNode) (i : Nat) (next : Option Contender) : SchedNode :=
  let n := served n i
  let k := n.kids.get ⟨0, 0, 0, false, 0⟩ i
  { n with kids := n.kids.put i (match next with
      | none => { k with on := false, lag := 0 }
      | some c => { k with finish := k.start + c.cost, head := c.head }) }

namespace Blk

/-- The queues of a class of a link that are eligible for a frame planned to start `lead` ns from now: a frame waits and its bucket
allows it then (R162, R163). -/
def eligibleQueues (s : Blk) (l c lead : Nat) : List (Nat × QEntry) :=
  (List.range 32).filterMap fun n =>
    let q := 256 * portOf l + 32 * c + n
    if s.nodeOwner (portOf l) n = subOf l then
      match s.queue q with
      | [] => none
      | e :: _ => if s.bucketAllows q lead then some (n, e) else none
    else none

/-- An eligible queue of a class as a contender at its class node. -/
def contender (s : Blk) (l c : Nat) (ne : Nat × QEntry) : Contender :=
  ⟨ne.1, ne.2.copy, schedCost ne.2.bytes (s.fld .FLD_SUB_CFG_weight (256 * portOf l + 32 * c + ne.1))⟩

/-- A class node judged at this selection. -/
def judgedClass (s : Blk) (l c lead : Nat) : SchedNode :=
  judge ((s.feldOf l).classNodes.get ⟨0, []⟩ c) false ((s.eligibleQueues l c lead).map (s.contender l c))

/-- The frame a class would give at this selection: its node and its entry. -/
def classHead (s : Blk) (l c lead : Nat) : Option (Nat × QEntry) :=
  match leastFinish (s.judgedClass l c lead) with
  | none => none
  | some (n, _) => ((s.queue (256 * portOf l + 32 * c + n)).head?).map fun e => (n, e)

/-- The link may send a frame of `cells` cells in class `c`: credits in Staketu mode beside those owed already, no pause in Ethernet
mode, and no re-initialisation of its direction in progress (R57, R60, R69, R162). -/
def linkAllows (s : Blk) (l c cells : Nat) : Bool :=
  let r := s.link l
  s.isIn l .up && (if s.staketu l then !r.txReinit && s.owedCredits l c + cells ≤ vget r.held c &&
      r.unacked.length + (s.feldOf l).tx.length < 4096
    else !r.paused.testBit c)

/-- A class of a link is eligible for a frame planned to start `lead` ns from now, and what it would give: every condition is judged
against the planned start (R162, R163). -/
def eligibleClass (s : Blk) (l c lead : Nat) : Option (Nat × QEntry) :=
  let t := s.quartzIn lead
  match s.classHead l c lead with
  | none => none
  | some (n, e) =>
    if s.gateOpen l c t && s.gateFits l c t e.bytes && s.cbsAllows l c lead && s.linkAllows l c e.cells then some (n, e)
    else none

/-- A class is strict (R163). -/
def strict (s : Blk) (l c : Nat) : Bool := c = 7 || s.flag .FLD_CLS_CFG_strict (8 * l + c)

/-- Preemption runs on a link (R71): settled in Staketu mode, verified in Ethernet mode. -/
def preemption (s : Blk) (l : Nat) (verified : Bool) : Bool :=
  if s.staketu l then (s.link l).features.testBit 2 else verified

/-- The bytes that remain of a frame with `cut` bytes to go once its present fragment holds 60 bytes (R178). -/
def fragmentRest (t : TxRec) (cut : Nat) : Nat :=
  let rest := min cut t.left; rest - (60 - (t.left - rest))

/-- A TC7 frame goes ahead of frame `t`: of one that an express frame has interrupted, and, where preemption runs, of one of a
preemptible class that has not begun (R177, R178). -/
def passes (s : Blk) (l : Nat) (verified : Bool) (t : TxRec) : Bool :=
  t.cls ≠ 7 && (t.preempted || (!t.begun && s.bit .FLD_LNK_CTL_preempt l t.cls && s.preemption l verified))

/-- Put a selected frame on its way. `cut` gives the bytes that remain of the frame in transmission, where 802.3br verification
allows preemption. A TC7 frame interrupts a preemptible frame once the present fragment carries 60 bytes, where 64 bytes are left
after it and no replay is to follow it (R64); where it may not, it goes right after it, ahead of those that it passes (R177, R178). -/
def startTx (s : Blk) (l : Nat) (r : TxRec) (cut : Option Nat) : Blk :=
  let ts := (s.feldOf l).tx
  let put (ts : List TxRec) : Blk := s.updFeld l fun f => { f with tx := ts }
  if r.cls ≠ 7 then (put (ts ++ [r])).pump l
  else
    let behind (ts : List TxRec) : List TxRec :=
      let passed := (ts.reverse.takeWhile (s.passes l cut.isSome)).length
      ts.take (ts.length - passed) ++ r :: ts.drop (ts.length - passed)
    match ts with
    | [] => (put [r]).pump l
    | t :: rest =>
      if t.begun && !t.preempted then
        if t.cls ≠ 7 && s.bit .FLD_LNK_CTL_preempt l t.cls && s.preemption l cut.isSome && 64 ≤ fragmentRest t (cut.getD 0) &&
            !(s.link l).unacked.any SentFrame.due then
          let s := (put rest).onWire l (.preempt l)
          s.beginHead l r ({ t with preempted := true, left := fragmentRest t (cut.getD 0) } :: rest)
        else put (t :: behind rest)
      else (put (behind ts)).pump l

/-- The frame of class `c` at node `n` is selected: tags, tokens, credits and the queue follow (R164, R167, R168). -/
def takeFrame (s : Blk) (l c n : Nat) (e : QEntry) (lead : Nat) (cut : Option Nat) : Blk :=
  let q := 256 * portOf l + 32 * c + n
  let charge : Int := (e.bytes + 20) * 8 * 65536
  let s := if s.fld .FLD_SUB_CFG_rate q = 0 then s else s.putTokens q (s.tokens q - charge)
  let s := if s.flag .FLD_CLS_CFG_cbs_en (8 * l + c) then s.putCbs l c (s.cbsCredit l c - charge) else s
  let s := s.setQueue q ((s.queue q).drop 1)
  match s.copy? e.copy with
  | none => s
  | some cp =>
    let f := addressTo cp.frame e.dst
    s.startTx l ⟨e.copy, if e.ce then setCe f else f, c, false, none, false, e.bytes, e.enq, e.depth, s.now, e.ce, s.stampT l true lead,
      s.stampOk (tileOf l), s.now + lead⟩ cut

/-- One selection on a link (R163), its transmission planned `lead` ns from now. -/
def select (s : Blk) (l lead : Nat) (cut : Option Nat) : Blk :=
  let heads := (List.range 8).filterMap fun c => (s.eligibleClass l c lead).map fun ne => (c, ne.1, ne.2)
  let weighted := heads.filter fun h => !s.strict l h.1
  let judged := judge (s.feldOf l).linkNode true (weighted.map fun h =>
    ⟨h.1, h.2.2.copy, schedCost h.2.2.bytes (s.fld .FLD_CLS_CFG_weight (8 * l + h.1))⟩)
  let nodes := (List.range 8).foldl (fun (m : Tab SchedNode) c => m.set ⟨0, []⟩ c (s.judgedClass l c lead)) (s.feldOf l).classNodes
  let s := s.updFeld l fun f => { f with linkNode := judged, classNodes := nodes }
  let strictPick := (heads.filter fun h => s.strict l h.1).getLast?
  let pick := match strictPick with
    | some h => some h
    | none => match leastFinish judged with
      | none => none
      | some (c, _) => weighted.find? fun h => h.1 = c
  match pick with
  | none => s
  | some (c, n, e) =>
    let s := s.takeFrame l c n e lead cut
    let next := ((s.eligibleQueues l c lead).find? fun ne => ne.1 = n).map (s.contender l c)
    s.updFeld l fun f =>
      { f with linkNode := if strictPick.isSome then f.linkNode else served f.linkNode c,
               classNodes := f.classNodes.set ⟨0, []⟩ c (serve (f.classNodes.get ⟨0, []⟩ c) n next) }

/-! ### The egress pipeline -/

/-- RESYNC_MARK follows the frame in progress (R60), and then the transmitter goes on. -/
def frameEnded (s : Blk) (l : Nat) : Blk := (if (s.link l).markDue && !s.midFrame l then s.sendMark l else s).pump l

/-- Frame `u` joins those that await their acknowledgement, which stand by lsn: an express frame that overtook it has a later one
(R55, R64). -/
def keepSent (us : List SentFrame) (u : SentFrame) : List SentFrame :=
  let before := us.filter fun x => (u.lsn + 8192 - x.lsn) % 8192 < 4096
  before ++ u :: us.filter fun x => !((u.lsn + 8192 - x.lsn) % 8192 < 4096)

/-- A frame ends on the medium: in Staketu mode its credits are taken, and its reference is kept until acknowledged where retry is on
(R55, R57, R62, R64). -/
def transmit (s : Blk) (l : Nat) (t : TxRec) (f : Frame) (stomp : Bool) : Blk :=
  match t.word with
  | some (n, w) =>
    let s := (s.payCells l t.cls (cellsOf (frameLen f))).onWire l (.frame l (some w) f stomp)
    let s := if s.flag .TIL_LNK_STATUS_retry_on l then
        s.updLink l fun r => { r with unacked := keepSent r.unacked ⟨n, t.copy, t.cls, f, stomp, false, true⟩ }
      else s.dropRef t.copy
    s.frameEnded l
  | none => ((s.onWire l (.frame l none f stomp)).dropRef t.copy).frameEnded l

/-- The check of a copy's frame, computed again over its cells, fails (R142): they hold what was written, but for a fault in the
block, which `corrupt` stands for. -/
def checkFails (s : Blk) (l : Nat) (t : TxRec) (c : Option CopyRec) (corrupt : Bool) : Bool :=
  s.isXeirrik (tileOf l) t.frame && (corrupt || !xCheckOk ((c.map CopyRec.frame).getD t.frame).data)

/-- The frame selected first passes the egress pipeline and ends on the medium (R26). `corrupt`: the cells read from Basalt are not
what was written (R142); a cell known to be lost stomps the frame in any case (R454). A frame that failed at ingress is stomped and not counted here; one cut short ends after the bytes it
holds (R527). A frame whose tail has not arrived has not yet passed, nor has one that has not begun. -/
def egress (s : Blk) (l : Nat) (corrupt : Bool) : Blk :=
  let s := s.pump l
  match (s.feldOf l).tx with
  | [] => s
  | t :: ts =>
    let c := s.copy? t.copy
    let tailHere := ((s.frame? (t.copy / 4)).map (·.whole)).getD true || (c.map (·.short)).getD false
    if !tailHere || (!t.begun && frameLen t.frame ≤ s.linkMax l) then s
    else
    let s := (s.settleClass l t.cls).updFeld l fun f => { f with tx := ts }
    if !t.begun then
      let s := s.traceOut (((s.copy? t.copy).bind CopyRec.tag).map (TraceTag.marked t.ce)) 2 1 0xC l (some (t.enq, t.depth)) (some t.sel) none
      let s := (s.count .TIL_FWD_DROP_count (14 * tileOf l + 0xC) 1).dropOnLink l
      (s.dropRef t.copy).frameEnded l
    else
      let short := (c.map (·.short)).getD false
      let failed := (c.map (·.chkFail)).getD false || ((s.frame? (t.copy / 4)).map (·.chkFail)).getD false
      let lost := (c.map (·.lost)).getD false
      let bad := !failed && s.checkFails l t c (corrupt || lost) && s.flag .TIL_STG_CTL_out_verify (tileOf l)
      let s := if bad && !short then (s.count .TIL_CHK_FAIL_OUT_count (tileOf l) 1).reportError (.egressCheck l) else s
      let f := if short then { t.frame with data := t.frame.data.take (256 * (c.map (·.wrote)).getD 0 - (frameLen t.frame - 4 -
        t.frame.data.length)) } else t.frame
      let stomp := short || failed || lost || bad
      let s := s.traceOut ((c.bind CopyRec.tag).map (TraceTag.marked t.ce)) (if stomp then 2 else 1) (if stomp then 4 else 0) (if stomp then 1 else 0) l
        (some (t.enq, t.depth)) (some t.sel) (some t.startAt)
      let (f, s) := s.ptpSent l c f t.start t.startOk
      s.transmit l t f stomp

/-! ### Gates -/

/-- Discard a queue's head frame that its gate can never let pass (R174). -/
def gateDiscard (s : Blk) (l c q : Nat) : Blk :=
  let b := s.gateBank l
  match s.queue q, longestOpen (s.gateCycle l b) (s.gateSegs l b) c with
  | e :: rest, some room =>
    if room * s.linkRate l < (e.bytes + 12) * 8000 then
      (((((s.traceQueued l e 1).settleClass l c).setQueue q rest).dropRef e.copy).count .FLD_GATE_DROP_count (tileOf l) 1).raise .FLD_INT_gate_err (tileOf l)
        |>.dropOnLink l
    else s
  | _, _ => s

/-- A class's gate is open by the entry a link is in. -/
def heldOpen (s : Blk) (l c : Nat) : Bool :=
  let b := s.gateBank l
  if s.gated l && s.gateSegs l b ≠ [] then
    c = 7 || (s.fld .FLD_GATE_ENT_gates ((2 * l + b) * 64 + s.fld .FLD_GATE_STATUS_entry l)).testBit c
  else true

/-- A link is in the entry in force, and the head frames that never fit are discarded of the classes whose gates have opened: `was`
says which were open before (R172, R174, R187). -/
def enterGates (s : Blk) (l : Nat) (was : Nat → Bool) : Blk :=
  if s.gated l then
    let s := s.setFld .FLD_GATE_STATUS_entry l (s.gateEntry l s.quartzNs)
    (List.range 7).foldl (fun s c =>
      if !was c && s.heldOpen l c then
        (List.range 32).foldl (fun s n =>
          if s.nodeOwner (portOf l) n = subOf l then s.gateDiscard l c (256 * portOf l + 32 * c + n) else s) s
      else s) s
  else s

/-- A change `f` that may move the gates of links: their shapers are counted up to it, and each link is in the entry in force after
it (R168, R174). -/
def moveGates (s : Blk) (ls : List Nat) (f : Blk → Blk) : Blk :=
  ls.foldl (fun t l => t.enterGates l (s.heldOpen l)) (f (ls.foldl settleCbs s))

/-- An interval boundary of a link's gate list (R172, R174). -/
def gateBoundary (s : Blk) (l : Nat) : Blk := s.moveGates [l] id

/-- The bank switch: active toggles, pending clears (R175). -/
def switchBank (s : Blk) (l : Nat) : Blk :=
  s.moveGates [l] fun s =>
    ((s.setFld .FLD_GATE_STATUS_active l (1 - s.gateBank l)).setFld .FLD_GATE_STATUS_pending l 0).updFeld l fun f =>
      { f with switchAt := none }

/-- The first cycle start of a bank at or after hall time `t` (R175). -/
def nextCycle (s : Blk) (l b t : Nat) : Nat :=
  let base := s.gateBase l b
  let cycle := s.gateCycle l b
  let n : Int := -((base - t : Int) / cycle)
  ((base : Int) + n * cycle).toNat

/-- commit is written 1 (R175); a sub-port that does not exist ignores the write (R183). -/
def gateCommit (s : Blk) (l : Nat) : Blk :=
  if !s.linkExists l then s
  else if s.flag .FLD_GATE_STATUS_pending l then s.raise .FLD_INT_cfg_reject (tileOf l)
  else if !s.flag .FLD_GATE_CTL_gate_en l then s.switchBank l
  else
    let at_ := s.nextCycle l (1 - s.gateBank l) (s.quartzNs + 1000)
    (s.setFld .FLD_GATE_STATUS_pending l 1).updFeld l fun f => { f with switchAt := some at_ }

/-- FLD_PORT_SPLIT is written (R160). -/
def portSplitWrite (s : Blk) (p v : Nat) : Blk :=
  if (List.range 4).any fun k => s.flag .TIL_LNK_CTL_lnk_en (4 * p + k) then s.raise .FLD_INT_cfg_reject (p / 8)
  else s.setFld .FLD_PORT_SPLIT_nodes p v

/-! ### Writes of the shaping and scheduling fields (R171) -/

/-- FLD_SUB_CFG of queue `q` takes a new rate, burst and weight. -/
def subCfgWrite (s : Blk) (q rate burst weight : Nat) : Blk :=
  let old := s.fld .FLD_SUB_CFG_rate q
  let tok := s.tokens q
  let s := ((s.setFld .FLD_SUB_CFG_rate q rate).setFld .FLD_SUB_CFG_burst q burst).setFld .FLD_SUB_CFG_weight q weight
  if rate = 0 || old = 0 then { s with buckets := s.buckets.del q } else s.putTokens q (min tok (s.bucketCap q))

/-- FLD_CBS_CFG of class `c` of link `l` takes a new idle slope and credit cap. -/
def cbsCfgWrite (s : Blk) (l c slope cap : Nat) : Blk :=
  let cr := s.cbsCredit l c
  let s := (s.setFld .FLD_CBS_CFG_idle_slope (8 * l + c) slope).setFld .FLD_CBS_CFG_hi_limit (8 * l + c) cap
  if (s.feldOf l).cbs.find c = none then s else s.putCbs l c (min cr (s.cbsCap l c))

/-- FLD_CLS_CFG of class `c` of link `l`: a shaper switched on starts at credit 0, one switched off loses its credit, and
a class that changes its rule joins the other with a lag of 0. TC7 keeps strict and cbs_en (R186). -/
def clsCfgWrite (s : Blk) (l c : Nat) (strict cbs : Bool) (weight : Nat) : Blk :=
  let k := 8 * l + c
  let s := s.setFld .FLD_CLS_CFG_weight k weight
  if c = 7 then s
  else
    let s := if cbs = s.flag .FLD_CLS_CFG_cbs_en k then s
      else
        let s := (s.setFld .FLD_CLS_CFG_cbs_en k (if cbs then 1 else 0)).updFeld l fun f => { f with cbs := f.cbs.del c }
        if cbs then s.putCbs l c 0 else s
    if strict = s.flag .FLD_CLS_CFG_strict k then s
    else (s.setFld .FLD_CLS_CFG_strict k (if strict then 1 else 0)).updFeld l fun f =>
      { f with linkNode := { f.linkNode with kids := f.linkNode.kids.del c } }

/-- A write to a register of gate bank `b` of a link is ignored while a commit of that bank is pending (R175). -/
def gateLocked (s : Blk) (l b : Nat) : Bool := s.flag .FLD_GATE_STATUS_pending l && b ≠ s.gateBank l

/-- FLD_GATE_CTL is written: gate_en, the lengths, and commit (R175, R187). -/
def gateCtlWrite (s : Blk) (l : Nat) (en : Bool) (len1 len0 : Nat) (commit : Bool) : Blk :=
  let put (s : Blk) (b : Nat) (f : Fld) (v : Nat) : Blk :=
    if v = s.fld f l then s
    else if s.gateLocked l b then s.raise .FLD_INT_cfg_reject (tileOf l)
    else s.setFld f l v
  let s := s.moveGates [l] fun s =>
    put (put (s.setFld .FLD_GATE_CTL_gate_en l (if en then 1 else 0)) 1 .FLD_GATE_CTL_len1 len1) 0 .FLD_GATE_CTL_len0 len0
  if commit then s.gateCommit l else s

end Blk

/-! ### Meanings of the Feldspar rows -/

open Blk

/-- R163, R164, R178. `lead` is the time in ns to the planned start: at most 64 before the frame enters the egress pipeline, and what
it spends there, at most the 160 of term 8 (R181, R182); `cut` the bytes that remain of the frame in
transmission, where it may be preempted at all. -/
def execFldSelection (link : LinkId) (lead : Fin 225) (cut : Option Nat) (s : State) : Host.Outcome State Fault Refusal :=
  run (·.select link lead cut) s

/-- R26, R83, R142. -/
def execEgressPipeline (link : LinkId) (corrupt : Bool) (s : State) : Host.Outcome State Fault Refusal :=
  run (·.egress link corrupt) s

/-- R172, R174. -/
def execGateBoundary (link : LinkId) (s : State) : Host.Outcome State Fault Refusal := run (·.gateBoundary link) s

/-- R175. -/
def execGateCommit (link : LinkId) (s : State) : Host.Outcome State Fault Refusal := run (·.gateCommit link) s

/-- R175. -/
def execGateBankSwitch (link : LinkId) (s : State) : Host.Outcome State Fault Refusal :=
  run (fun b => if b.flag .FLD_GATE_STATUS_pending link then b.switchBank link else b) s

/-- R160. -/
def execPortSplitWrite (port : PortId) (value : BitVec 64) (s : State) : Host.Outcome State Fault Refusal :=
  run (·.portSplitWrite port value.toNat) s

end Sys2Proof.Machine
end

