-- ==== Sys2Proof/Machine/Tables.lean ====
section
/-!
DEFINITION. The forwarding tables (chapter 3): entry layouts and reserved encodings (R88 to R91, R104), learning and
ageing (R95 to R99, R102), the locks (R101) and the table engine's records (R103 to R105).
-/

namespace Sys2Proof.Machine

/-- Entries of a table (R88). -/
def tableSize : Nat → Nat
  | 0 => 1048576
  | 1 => 262144
  | 2 => 16384
  | 3 => 262144
  | 4 => 4096
  | 5 => 1024
  | 6 => 4096
  | 7 => 16384
  | _ => 65536

/-- Bytes of an entry of a table (R88). -/
def entryBytes : Nat → Nat
  | 0 => 4
  | 1 => 16
  | 2 => 16
  | 3 => 16
  | 4 => 8
  | 5 => 8
  | 6 => 32
  | 7 => 8
  | _ => 2

/-- An endpoint or next-hop action with a reserved value (R90, R91). -/
def actionReserved (action target : Nat) (nextHop : Bool) : Bool :=
  5 ≤ action || (nextHop && action = 3) || (action = 3 && target % 4 = 3)

/-- An entry holds a reserved encoding (R90, R91, R104). -/
def entryBad (t e : Nat) : Bool :=
  match t with
  | 0 => bits e 27 16 ≠ 0 || actionReserved (bits e 30 28) (bits e 15 0) false
  | 1 => bits e 61 48 ≠ 0 || bits e 39 14 ≠ 0
  | 2 => bits e 67 64 ≠ 0 || bits e 59 48 ≠ 0 || bits e 31 0 ≠ 0 || actionReserved (bits e 62 60) (bits e 47 32) true
  | 3 => bits e 39 0 ≠ 0
  | 4 => bits e 47 0 ≠ 0
  | 5 => bits e 34 32 ≠ 0
  | 6 => (List.range 16).any fun j => bits e (16 * j + 14) (16 * j + 10) ≠ 0
  | 7 => bits e 61 27 ≠ 0
  | _ => bits e 14 10 ≠ 0

/-- The learning bucket of a key (R95, R96). -/
def learnBucket (vid mac : Nat) : Nat := crc16 (crcKey [(12, vid), (48, mac)])

/-- A learning entry of the fields of R90. -/
def learnEntry (mac vid link : Nat) (static : Bool) (ts : Nat) : Nat :=
  mac * 2 ^ 80 + vid * 2 ^ 68 + link * 2 ^ 58 + (if static then 2 ^ 57 else 0) + 2 ^ 56 + ts * 2 ^ 40

namespace Blk

/-- Write an entry into one die's copy of a table. -/
def putEntry (s : Blk) (d t i w : Nat) : Blk := { s with tables := s.tables.set 0 ((d * 9 + t) * 1048576 + i) w }

/-- Write an entry into all four die copies (R105). -/
def putAll (s : Blk) (t i w : Nat) : Blk := (List.range 4).foldl (fun s d => s.putEntry d t i w) s

/-- The dynamic entries counted for a link, as far as the link table shows (R90). -/
def learnCount (s : Blk) (l : Nat) : Nat := s.tableEntry 0 5 l % 65536

/-- Change the count of dynamic entries of a link (R90, R98). -/
def setLearnCount (s : Blk) (l n : Nat) : Blk :=
  (List.range 4).foldl (fun s d =>
    let e := s.tableEntry d 5 l
    s.putEntry d 5 l (e - e % 65536 + n % 65536)) s

/-- A learning entry is valid and dynamic. -/
def dynamicEntry (e : Nat) : Bool := e.testBit 56 && !e.testBit 57

/-- Write a learning entry: the counts of the links it leaves and joins follow (R90). -/
def putLearn (s : Blk) (i w : Nat) : Blk :=
  let old := s.tableEntry 0 3 i
  let s := if dynamicEntry old then s.setLearnCount (bits old 67 58) (s.learnCount (bits old 67 58) - 1) else s
  let s := if dynamicEntry w then s.setLearnCount (bits w 67 58) (s.learnCount (bits w 67 58) + 1) else s
  s.putAll 3 i w

/-- The entry of a key in a die's copy of the learning table, by its index (R95). -/
def findLearn (s : Blk) (d vid mac : Nat) : Option Nat :=
  ((List.range 4).map (4 * learnBucket vid mac + ·)).find? fun i =>
    let e := s.tableEntry d 3 i
    e.testBit 56 && bits e 127 80 = mac && bits e 79 68 = vid

/-- A free entry of a key's bucket. -/
def freeLearn (s : Blk) (vid mac : Nat) : Option Nat :=
  ((List.range 4).map (4 * learnBucket vid mac + ·)).find? fun i => !(s.tableEntry 0 3 i).testBit 56

/-- Current hall-time seconds, low 16 bits. -/
def seconds16 (s : Blk) : Nat := s.hallSec % 65536

/-- A link is at its limit of dynamic entries (R98). -/
def atLimit (s : Blk) (l : Nat) : Bool := bits (s.tableEntry 0 5 l) 31 16 ≤ s.learnCount l

/-- Apply one learn event (R98). -/
def learnOne (s : Blk) (e : LearnEvent) : Blk :=
  match s.findLearn 0 e.vid e.mac with
  | none =>
    if s.atLimit e.link then s
    else match s.freeLearn e.vid e.mac with
      | none => s.count .DMA_TBL_LRN_MISS_count 0 1
      | some i => s.putLearn i (learnEntry e.mac e.vid e.link false s.seconds16)
  | some i =>
    let w := s.tableEntry 0 3 i
    if bits w 67 58 = e.link then
      if bits w 55 40 = s.seconds16 then s else s.putLearn i (w - bits w 55 40 * 2 ^ 40 + s.seconds16 * 2 ^ 40)
    else if w.testBit 57 then s
    else if s.atLimit e.link then s
    else (s.putLearn i (learnEntry e.mac e.vid e.link false s.seconds16)).count .DMA_TBL_MOVES_count 0 1

/-- A learn event is queued, or discarded where 4,096 wait (R102). -/
def queueLearn (s : Blk) (e : LearnEvent) : Blk :=
  if s.learn.length < 4096 then { s with learn := s.learn ++ [e] } else s.count .DMA_TBL_LRN_MISS_count 0 1

/-- The table engine takes the oldest learn event, unless table 3 is locked (R98, R102). -/
def learnEvent (s : Blk) : Blk :=
  if s.flag .DMA_TBL_LOCK_locked 3 then s
  else match s.learn with
    | [] => s
    | e :: rest => ({ s with learn := rest }).learnOne e

/-- What the pipeline makes of a frame's source before it is forwarded: the reason it is dropped with, if any (R98). It is judged
while table 3 is locked too (DESIGN CHOICE, log entry 124). -/
def learnDrop (s : Blk) (d : Nat) (e : LearnEvent) : Option Nat :=
  let limitDrop := if (s.tableEntry d 5 e.link).testBit 35 then some 9 else none
  match s.findLearn d e.vid e.mac with
  | none => if s.atLimit e.link then limitDrop else none
  | some i =>
    let w := s.tableEntry d 3 i
    if bits w 67 58 = e.link then none
    else if w.testBit 57 then some 8
    else if s.atLimit e.link then limitDrop
    else none

/-- The ageing sweep: dynamic entries older than age_s go, unless table 3 is locked or age_s is 0 (R99, R102). -/
def ageSweep (s : Blk) : Blk :=
  let age := s.fld .DMA_TBL_AGE_age_s 0
  if age = 0 || s.flag .DMA_TBL_LOCK_locked 3 then s
  else
    let idx := (s.tables.filter fun kv => kv.1 / 1048576 = 3 && dynamicEntry kv.2 &&
      decide (age < (s.seconds16 + 65536 - bits kv.2 55 40) % 65536)).map fun kv => kv.1 % 1048576
    idx.foldl (fun s i => s.putLearn i 0) s

/-! ### Words that cannot be corrected (R414, R454) -/

/-- A die can serve as the source of table copies (R414). -/
def tableSource (s : Blk) (d : Nat) : Option Nat :=
  (List.range 4).find? fun e => e ≠ d && s.domOn (156 + e) && !s.tableLoads.contains e

/-- A word of the tables of die d with an uncorrectable error is rewritten from another die's copy, or, with no good copy, holds
what it may: a free value of `n` bits, which `put` writes (R454). -/
def tableLost (s : Blk) (d entry n : Nat) (put : Nat → Blk → Blk) : Blk :=
  if (s.tableSource d).isSome then s.reportError (.tableDoubleBit d entry true)
  else
    let (v, s) := s.free n
    (put v s).reportError (.tableDoubleBit d entry false)

/-- An uncorrectable word of a forwarding, group or member table; any other word is left alone (R454). -/
def lookupLost (s : Blk) : SramWord → Blk
  | .table d tb e => s.tableLost d.val e.toNat (8 * entryBytes tb.val) fun v s => s.putEntry d.val tb.val e.toNat v
  | .group d e => s.tableLost d.val e.toNat 128 fun v s => { s with groups := s.groups.set 0 (4096 * d.val + e.toNat) v }
  | .member d e => s.tableLost d.val e.toNat 64 fun v s => { s with members := s.members.set 0 (65536 * d.val + e.toNat) v }
  | _ => s

/-! ### Locks (R101) -/

/-- The holder code of a path; the JTAG port's accesses count as the management cores'. -/
def pathCode : Path → Nat
  | .host => 0
  | .mgmt => 1
  | .jtag => 1

/-- locked is written 1: a free lock is taken. Of both paths' writes at one time the management cores' takes it. DESIGN CHOICE,
log entry 125: one management clock is one ns of the model's time. -/
def lockTake (s : Blk) (n : Nat) (p : Path) : Blk :=
  if s.flag .DMA_TBL_LOCK_locked n && !(pathCode p = 1 && s.lockAt.find n = some s.now) then s
  else ({ s with lockAt := s.lockAt.put n s.now }.setFld .DMA_TBL_LOCK_locked n 1).setFld .DMA_TBL_LOCK_holder n (pathCode p)

/-- locked is written 0: the holder frees the lock, and the management cores any lock. With table 3's the learn queue
drains before new events are taken (R102). DESIGN CHOICE, log entry 125: holder keeps the
last holder's code. -/
def lockRelease (s : Blk) (n : Nat) (p : Path) : Blk :=
  if s.flag .DMA_TBL_LOCK_locked n && (s.fld .DMA_TBL_LOCK_holder n = pathCode p || pathCode p = 1) then
    let s := s.setFld .DMA_TBL_LOCK_locked n 0
    if n = 3 then s.learn.foldl (fun s e => s.learnOne e) { s with learn := [] } else s
  else s

/-! ### Update records (R103, R104) -/

/-- The path of a record (R100). -/
def recordPath (s : Blk) : TblSource → Nat
  | .ring r => s.fld .DMA_RING_CFG_side r
  | .mgmtQueue => 1

/-- The first check of R104 that a record fails: BAD_TABLE to SHORT in the order of its table, and then the lock. -/
def recordStatus (s : Blk) (src : TblSource) (r : TblRecord) : Nat :=
  let t := r.table.toNat
  let n := r.count.toNat
  let a := r.first.toNat
  let keyed := r.op.toNat = 2 || r.op.toNat = 3
  if 8 < t then 2
  else if 3 < r.op.toNat || (keyed && t ≠ 3) then 3
  else if n = 0 || 256 < n || (!keyed && tableSize t < a + n) || (t = 1 && (a % 4 ≠ 0 || n % 4 ≠ 0)) then 4
  else if r.op.toNat ≠ 1 && r.body.length < n * entryBytes t then 5
  else if !(s.flag .DMA_TBL_LOCK_locked t && s.fld .DMA_TBL_LOCK_holder t = s.recordPath src) then 1
  else 0

/-- Entry `k` of a record's body; zero for a clear record. -/
def bodyEntry (r : TblRecord) (k : Nat) : Nat :=
  if r.op = 1 then 0 else beAt r.body (k * entryBytes r.table.toNat) (entryBytes r.table.toNat)

/-- Write one entry by index; the hardware field of the link table stands (R90). -/
def writeEntry (s : Blk) (t i w : Nat) : Blk :=
  if t = 3 then s.putLearn i w
  else if t = 5 then s.putAll 5 i (w - w % 65536 + s.learnCount i)
  else s.putAll t i w

/-- Apply entry `k` of a record: the status that stops it, or the block after it. An insert is written as
given, with valid = 0 too (R103; DESIGN CHOICE, log entry 126). -/
def applyEntry (s : Blk) (r : TblRecord) (k : Nat) : Nat × Blk :=
  let t := r.table.toNat
  let w := bodyEntry r k
  let mac := bits w 127 80
  let vid := bits w 79 68
  match r.op.toNat with
  | 2 =>
    if entryBad 3 w then (6, s)
    else match s.findLearn 0 vid mac with
      | some i => (0, s.putLearn i w)
      | none => match s.freeLearn vid mac with
        | some i => (0, s.putLearn i w)
        | none => (7, s)
  | 3 =>
    match s.findLearn 0 vid mac with
    | some i => (0, s.putLearn i 0)
    | none => (8, s)
  | _ =>
    if t = 1 then
      let row := 4 * (k / 4)
      if (List.range 4).any fun j => entryBad 1 (bodyEntry r (row + j)) then (6, s)
      else (0, s.writeEntry 1 (r.first.toNat + k) w)
    else if entryBad t w then (6, s)
    else (0, s.writeEntry t (r.first.toNat + k) w)

/-- Apply a record's entries in order from `k`, `n` of them left: the status, the entries applied, and the block. -/
def applyEntries (s : Blk) (r : TblRecord) (k : Nat) : Nat → Nat × Nat × Blk
  | 0 => (0, k, s)
  | n + 1 =>
    match s.applyEntry r k with
    | (0, s') => s'.applyEntries r (k + 1) n
    | (st, s') => (st, k, s')

/-- A record's completion: to its TBL ring's CPL ring, or to the management cores (R104, R478). -/
def tblDone (s : Blk) (src : TblSource) (r : TblRecord) (status applied : Nat) : Blk :=
  match src with
  | .ring q => s.postWork (s.fld .DMA_RING_CFG_cpl_ring q) 2
      (beBytes 1 status ++ beBytes 1 r.table.toNat ++ beBytes 2 0 ++ beBytes 4 r.tag.toNat ++ beBytes 2 applied ++ beBytes 6 0)
      (.table q) id
  | .mgmtQueue => s.emit (.tableDone r.tag.toNat status applied)

/-- The table engine takes a record (R103 to R105). -/
def tblRecord (s : Blk) (src : TblSource) (r : TblRecord) : Blk :=
  match s.recordStatus src r with
  | 0 =>
    let (status, applied, s') := s.applyEntries r 0 r.count.toNat
    s'.tblDone src r status applied
  | st => s.tblDone src r st 0

/-- A record from its source: a ring gives one only while it has one, and none behind one whose completion is held (R469, R477).
While a die's copies are loaded, records wait, those of a ring in it (R414). -/
def tblTake (s : Blk) (src : TblSource) (r : TblRecord) : Blk :=
  match src with
  | .mgmtQueue => if s.tableLoads ≠ [] then { s with tblWaits := s.tblWaits ++ [r] } else s.tblRecord src r
  | .ring q =>
    if s.tableLoads = [] && s.ringHas q 5 && !s.workHeld (.table q) then (s.advanceRing q 1).tblRecord src r else s

/-- The records that waited for a die's copies are applied, once no die's are missing (R414). -/
def tblResume (s : Blk) : Blk :=
  if s.tableLoads ≠ [] then s else s.tblWaits.foldl (fun s r => s.tblRecord .mgmtQueue r) { s with tblWaits := [] }

end Blk

/-- A record's operation as its row has it; a reserved operation code stands (R103). -/
def withOp (r : TblRecord) (op : BitVec 8) : TblRecord := if 3 < r.op.toNat then r else { r with op := op }

/-! ### Meanings of the table rows -/

open Blk

/-- R98. -/
def execLearnEvent (s : State) : Host.Outcome State Fault Refusal := run (·.learnEvent) s

/-- R99. -/
def execAgeingSweep (s : State) : Host.Outcome State Fault Refusal := run (·.ageSweep) s

/-- R101. -/
def execLockTake (table : Fin 9) (path : Path) (s : State) : Host.Outcome State Fault Refusal :=
  run (·.lockTake table path) s

/-- R101, R102. -/
def execLockRelease (table : Fin 9) (path : Path) (s : State) : Host.Outcome State Fault Refusal :=
  run (·.lockRelease table path) s

/-- R103. -/
def execTblWrite (source : TblSource) (rec_ : TblRecord) (s : State) : Host.Outcome State Fault Refusal :=
  run (·.tblTake source (withOp rec_ 0)) s

/-- R103. -/
def execTblClear (source : TblSource) (rec_ : TblRecord) (s : State) : Host.Outcome State Fault Refusal :=
  run (·.tblTake source (withOp rec_ 1)) s

/-- R103. -/
def execTblInsert (source : TblSource) (rec_ : TblRecord) (s : State) : Host.Outcome State Fault Refusal :=
  run (·.tblTake source (withOp rec_ 2)) s

/-- R103. -/
def execTblDelete (source : TblSource) (rec_ : TblRecord) (s : State) : Host.Outcome State Fault Refusal :=
  run (·.tblTake source (withOp rec_ 3)) s

end Sys2Proof.Machine
end

