-- ==== Sys2Proof/Machine/Forwarding.lean ====
section
/-!
DEFINITION. The forwarding decision of the ingress pipeline (chapter 3): classification (R82), the Xeirrik header (R84 to
R87), endpoint lookup (R92), IP routing (R93, R94), bridging (R97), spraying (R107) and multicast (R110, R112).
-/

namespace Sys2Proof.Machine

/-- Where a received frame goes. -/
inductive Verdict where
  | drop (reason : Nat)
  | send (target : Target) (frame : Frame)
  | gneiss | garnet
  | host (why : Nat)
  | ptp
  deriving DecidableEq, Repr

/-! ### IP -/

/-- Destination address of an IP packet. -/
def ipDst (v6 : Bool) (b : List Byte) : Nat := if v6 then beAt b 24 16 else beAt b 16 4

/-- TTL or hop limit of an IP packet. -/
def ipTtl (v6 : Bool) (b : List Byte) : Nat := if v6 then beAt b 7 1 else beAt b 8 1

/-- Lower TTL or hop limit by 1; the IPv4 header checksum is updated incrementally (R94). -/
def decTtl (v6 : Bool) (b : List Byte) : List Byte :=
  if v6 then b.take 7 ++ ((b.getD 7 0 - 1) :: b.drop 8)
  else
    let m := beAt b 8 2
    let m' := m - 256
    let hc := 65535 - ocAdd (ocAdd (65535 - beAt b 10 2) (65535 - m)) m'
    b.take 8 ++ beBytes 2 m' ++ beBytes 2 hc ++ b.drop 12

/-- The key of a pinned frame's hash (R96, R107). -/
def pinKey (xetype : Nat) (vid : Nat) (f : Frame) : List Byte :=
  if f.etype.toNat = xetype then
    let h := xHeader f.data
    crcKey [(20, h.src), (20, h.dst), (3, h.tc)]
  else match ipKind f with
    | some v6 =>
      let b := f.data
      let a := if v6 then 128 else 32
      let src := if v6 then beAt b 8 16 else beAt b 12 4
      let proto := ipProto v6 b
      match if proto = 6 || proto = 17 then ipPayload v6 b else none with
      | some p => crcKey [(a, src), (a, ipDst v6 b), (8, proto), (16, beAt b p 2), (16, beAt b (p + 2) 2)]
      | none => crcKey [(a, src), (a, ipDst v6 b), (8, proto)]
    | none => crcKey [(48, f.smac.toNat), (48, f.dmac.toNat), (12, vid)]

namespace Blk

/-- The VLAN of a frame: its tag's VID, or pvid of its arrival link (R95). -/
def vlanOf (s : Blk) (d l : Nat) (f : Frame) : Nat :=
  match f.tci with
  | some t => t.toNat % 4096
  | none => bits (s.tableEntry d 5 l) 47 36

/-- The class of a frame that is no Xeirrik frame, or that arrives in Ethernet mode: its priority code point, or what the
image's classification gives an untagged frame (R69). -/
def tagClass (f : Frame) (img : Nat) : Nat :=
  match f.tci with
  | some t => t.toNat / 8192
  | none => img

/-- A frame's link class (R69, R85). -/
def linkClass (s : Blk) (l : Nat) (f : Frame) (img : Nat) : Nat :=
  if s.staketu l && s.isXeirrik (tileOf l) f then (xHeader f.data).tc else tagClass f img

/-- The live members of a spray set, with their positions (R107). -/
def sprayLive (s : Blk) (d set : Nat) : List (Nat × Nat) :=
  let e := s.tableEntry d 6 set
  (List.range 16).filterMap fun j =>
    let m := bits e (16 * j + 15) (16 * j)
    let l := m % 1024
    if m.testBit 15 && s.linkExists l && s.isIn l .up then some (j, l) else none

/-- The cells that a tile has placed in this core clock (R108). -/
def placedNow (s : Blk) (t : Nat) : Tab Nat :=
  let p := s.placed.get (0, []) t
  if p.1 = s.now * 7 / 4 then p.2 else []

/-- The depth a spray decision of a tile compares: the cells that the frame's class queue on a link holds, as raised by the
frames that the tile has placed in this clock (R107, R108). -/
def sprayDepth (s : Blk) (t l c n : Nat) : Nat :=
  match s.queueFor l c (.image n) with
  | none => 0
  | some q => s.fld .FLD_SUB_DEPTH_cells q + (s.placedNow t).get 0 q

/-- A tile has placed a frame of `cells` cells on a link (R108). -/
def place (s : Blk) (t l c n cells : Nat) : Blk :=
  match s.queueFor l c (.image n) with
  | none => s
  | some q =>
    let m := s.placedNow t
    { s with placed := s.placed.put t (s.now * 7 / 4, m.set 0 q (m.get 0 q + cells)) }

/-- Place a sprayed frame: the shallowest live member, a tie going to the first at or after the rotating pointer, which
moves past the chosen one at every placement, tied or not (DESIGN CHOICE, log entry 167); any other frame is pinned by its hash (R107, SPRAY_PLACEMENT). -/
def spray (s : Blk) (t set c n : Nat) (free : Bool) (key : List Byte) (cells : Nat) : Option Nat × Blk :=
  let live := s.sprayLive (dieOfTile t) set
  if live = [] then (none, s)
  else if free then
    let ptr := s.sprayPtr.get 0 (t * 4096 + set)
    let ordered := live.filter (fun m => ptr ≤ m.1) ++ live.filter (fun m => m.1 < ptr)
    let best := ordered.foldl (fun (b : Option (Nat × Nat × Nat)) m =>
      let dep := s.sprayDepth t m.2 c n
      match b with
      | none => some (m.1, m.2, dep)
      | some x => if dep < x.2.2 then some (m.1, m.2, dep) else some x) none
    match best with
    | none => (none, s)
    | some (j, l, _) =>
      (some l, { s with sprayPtr := s.sprayPtr.set 0 (t * 4096 + set) ((j + 1) % 16) }.place t l c n cells)
  else match (live.map (·.2))[crc16 key % live.length]? with
    | none => (none, s)
    | some l => (some l, s.place t l c n cells)

/-- A list group may be used: valid, and within the member list (R90, R110). A count that R90 does not give, 0 or above 1,024, is used
as it is written (DESIGN CHOICE, log entry 168). -/
def groupOk (s : Blk) (d g : Nat) : Bool :=
  let e := s.tableEntry d 7 g
  e.testBit 63 && bits e 15 0 + bits e 26 16 ≤ 65536

/-- The group that a multicast Xeirrik frame names (R110); none: dropped with MCAST_BAD. -/
def mcastTarget (s : Blk) (d dst : Nat) : Option Target :=
  match dst / 2 ^ 18 with
  | 0 => if bits dst 17 14 = 0 && s.groupOk d (bits dst 13 0) then some (.list (bits dst 13 0)) else none
  | 1 => if bits dst 17 8 = 0 && dst % 256 ≠ 255 then some (.row (dst % 256)) else none
  | 2 => if bits dst 17 8 = 0 && dst % 256 ≠ 255 then some (.column (dst % 256)) else none
  | _ => none

/-- Forward a Xeirrik frame (R85, R87, R91, R92, R107, R110). A frame that arrives with hop_limit 0 and fails its lookup counts
under the lookup's reason (DESIGN CHOICE, log entry 127). -/
def xForward (s : Blk) (l n : Nat) (f : Frame) : Verdict × Blk :=
  let t := tileOf l
  let d := dieOf l
  let h := xHeader f.data
  let room := frameLen f - (if f.tci.isSome then 18 else 14) - 36
  let lenOk := h.len = room || (frameLen f = 64 && h.len ≤ room)
  let mismatch := !s.staketu l && match f.tci with | some c => c.toNat / 8192 ≠ h.tc | none => false
  if h.ver ≠ 1 then (.drop 1, s)
  else if frameLen f < (if f.tci.isSome then 18 else 14) + 36 || !lenOk then (.drop 2, s)
  else if mismatch then (.drop 3, s)
  else if h.mcast then
    match s.mcastTarget d h.dst with
    | none => (.drop 6, s)
    | some g => if h.hop = 0 then (.drop 4, s) else (.send g (decHop f), s)
  else
    let e := s.tableEntry d 0 h.dst
    let target := bits e 15 0
    if !e.testBit 31 then (.drop 5, s)
    else match bits e 30 28 with
      | 1 => if h.hop = 0 then (.drop 4, s) else (.send (.link (target % 1024)) (decHop f), s)
      | 2 =>
        if h.hop = 0 then (.drop 4, s)
        else
          let key := crcKey [(20, h.src), (20, h.dst), (3, h.tc)]
          match s.spray t (target % 4096) h.tc n h.sprayOk key (cellsOf (frameLen f)) with
          | (none, s) => (.drop 5, s)
          | (some o, s) => (.send (.link o) (decHop f), s)
      | 3 =>
        let plain := h.opcode ≤ 1
        let coll := 0x10 ≤ h.opcode && h.opcode ≤ 0x3F
        let mem := 0x40 ≤ h.opcode && h.opcode ≤ 0x7F
        match target % 4 with
        | 0 => (if mem then .gneiss else .drop 7, s)
        | 1 => (if coll then .garnet else .drop 7, s)
        | _ => (if plain || coll || mem then .host 1 else .drop 7, s)
      | 4 => (.host 0, s)
      | _ => (.drop 5, s)

/-- The next hop of the lowest matching prefix slot of a die's copy (R93). -/
def prefixLookup (s : Blk) (d : Nat) (v6 : Bool) (dst : Nat) : Option Nat :=
  let base := (d * 9 + 1) * 1048576
  let slots := s.tables.filter fun kv => base ≤ kv.1 && kv.1 < base + 262144
  (slots.find? fun kv =>
    let i := kv.1 - base
    let row := s.tableEntry d 1 (i / 4 * 4)
    if v6 then
      i % 4 = 0 && kv.2.testBit 63 && kv.2.testBit 62 && (List.range 4).all fun k =>
        let e := s.tableEntry d 1 (i + k)
        (bits dst (127 - 32 * k) (96 - 32 * k)) &&& bits e 95 64 = bits e 127 96 &&& bits e 95 64
    else !row.testBit 62 && kv.2.testBit 63 && dst &&& bits kv.2 95 64 = bits kv.2 127 96 &&& bits kv.2 95 64).map
      fun kv => bits kv.2 13 0

/-- Route an IP frame (R93, R94). -/
def ipForward (s : Blk) (l c n : Nat) (v6 : Bool) (f : Frame) : Verdict × Blk :=
  let d := dieOf l
  match s.prefixLookup d v6 (ipDst v6 f.data) with
  | none => (.drop 5, s)
  | some nh =>
    let e := s.tableEntry d 2 nh
    let target := bits e 47 32
    let vid := bits e 79 68
    let pcp := match f.tci with
      | some t => t.toNat / 4096
      | none => 2 * c
    let f' := { f with smac := BitVec.ofNat 48 (s.fld .TIL_FWD_RMAC_rmac (tileOf l)), dmac := BitVec.ofNat 48 (bits e 127 80),
                       tci := if vid = 0 then none else some (BitVec.ofNat 16 (pcp * 4096 + vid)), data := decTtl v6 f.data }
    if !e.testBit 63 || bits e 62 60 = 0 then (.drop 5, s)
    else if ipTtl v6 f.data ≤ 1 then (.drop 0xA, s)
    else match bits e 62 60 with
      | 1 => (.send (.link (target % 1024)) f', s)
      | 2 =>
        match s.spray (tileOf l) (target % 4096) c n false (pinKey 0x10000 0 f) (cellsOf (frameLen f')) with
        | (none, s) => (.drop 5, s)
        | (some o, s) => (.send (.link o) f', s)
      | 4 => (.host 0, s)
      | _ => (.drop 5, s)

/-- Bridge an Ethernet frame (R97). -/
def bridge (s : Blk) (l : Nat) (f : Frame) : Verdict × Blk :=
  let d := dieOf l
  let vid := s.vlanOf d l f
  let v := s.tableEntry d 4 vid
  if !v.testBit 63 then (.drop 0xB, s)
  else
    let ev : LearnEvent := ⟨f.smac.toNat, vid, l⟩
    let learning := s.flag .TIL_FWD_CFG_learn_en (tileOf l) && v.testBit 62
    let s := if learning then s.queueLearn ev else s
    match if learning then s.learnDrop d ev else none with
    | some r => (.drop r, s)
    | none =>
      let known := if f.dmac.toNat.testBit 40 then none else s.findLearn d vid f.dmac.toNat
      match known with
      | some i =>
        let o := bits (s.tableEntry d 3 i) 67 58
        if o = l then (.drop 5, s) else (.send (.link o) f, s)
      | none =>
        let g := bits v 61 48
        if s.groupOk d g then (.send (.list g) f, s) else (.drop 6, s)

/-- The ingress pipeline's decision on a frame (R82, INGRESS_PIPELINE), step 1 apart. -/
def pipeline (s : Blk) (l c n : Nat) (f : Frame) : Verdict × Blk :=
  let t := tileOf l
  let rmac := s.fld .TIL_FWD_RMAC_rmac t
  if isPtp f then (.ptp, s)
  else if !s.flag .TIL_FWD_CFG_fwd_en t then (.drop 0, s)
  else if s.isXeirrik t f then s.xForward l n f
  else if rmac ≠ 0 && f.dmac.toNat = rmac then
    match ipKind f with
    | some v6 => if s.flag .TIL_FWD_CFG_route_en t then s.ipForward l c n v6 f else s.bridge l f
    | none => (.host 0, s)
  else s.bridge l f

/-- A frame is dropped by its tile's pipeline and counted under its reason (R121, FRAME_DROPPED). -/
def countDrop (s : Blk) (t reason : Nat) : Blk := s.count .TIL_FWD_DROP_count (14 * t + reason) 1

/-- Make a frame's copies, one for each die that its target names by the tables that its ingress tile reads, its own die's (R88, R112),
and let them ask for admission. A target that names no link makes none and drops nothing (DESIGN CHOICE, log entry 129). -/
def makeCopies (s : Blk) (fid : Nat) (target : Target) (f : Frame) (cls : Nat) (node : NodeSrc) (link : Option Nat)
    (tile : Nat) (chkFail : Bool) : Blk :=
  let dies := (List.range 4).filter fun d =>
    (s.legsBy (dieOfTile tile) d target).any fun (x : Leg) => link ≠ some x.1 || s.mayReflect (dieOfTile tile) target
  let s := dies.foldl (fun s d => s.putCopy (4 * fid + d)
    { frame := f, cls := cls, node := node, target := target, inLink := link, tile := tile,
      ncells := cellsOf (frameLen f), phase := .held, stalled := false, sent := 0, landed := 0, wrote := 0, todo := [],
      refs := 0, cells := [], enqueued := false, first := false, turned := false, ftag := 0, chkFail := chkFail, short := false,
      tag := (s.frame? fid).bind FrameRec.tag, tx := none, ts := false }) s
  match link with
  | some l => if dies = [] then s.settle fid else s.offerAfter (some l)
  | none => dies.foldl (fun s d => s.ask (4 * fid + d)) s

/-- A frame that the block makes itself, sent from a tile as if its replication logic or another source made it. -/
def emitFrame (s : Blk) (tile : Nat) (target : Target) (f : Frame) (cls : Nat) (node : NodeSrc) : Blk :=
  let fid := s.nextFrame
  let s := { s with nextFrame := fid + 1 }
  let s := s.putFrame fid { frame := f, link := none, tile := tile, cls := cls, cells := 0, freed := 0, whole := true,
                            got := f.data.length, chkFail := false, dest := .copies, void := false, why := 0, arrived := 0, stampOk := false,
                            tag := none }
  (s.makeCopies fid target f cls node none tile false).settle fid

/-- The link to which a frame of the block's own to an endpoint goes, by the endpoint table (R92). -/
def endpointLink (s : Blk) (t dst c : Nat) (f : Frame) : Option Nat × Blk :=
  let e := s.tableEntry (dieOfTile t) 0 dst
  let target := bits e 15 0
  if !e.testBit 31 then (none, s)
  else match bits e 30 28 with
    | 1 => (some (target % 1024), s)
    | 2 => let h := xHeader f.data
      s.spray t (target % 4096) c 0 h.sprayOk (crcKey [(20, h.src), (20, h.dst), (3, h.tc)]) (cellsOf (frameLen f))
    | _ => (none, s)

end Blk

end Sys2Proof.Machine
end

