-- ==== Sys2Proof/Machine/GarnetFmt.lean ====
section
/-!
DEFINITION. The reduction formats (R189, R192), exact accumulation in lanes (R197 to R201, R211) and the final rounding
(R202 to R204). Every number is exact: codes are decoded into integers of a format's smallest unit, and rounded once.
-/

namespace Sys2Proof.Machine

/-! ### Formats -/

/-- Bits of an element (R189). -/
def elemBits (fmt : Nat) : Nat := if fmt = 0 || fmt = 8 then 32 else if fmt = 1 || fmt = 2 then 16 else if fmt = 6 then 6 else 8

/-- An MX format. -/
def isMx (fmt : Nat) : Bool := 5 ≤ fmt && fmt ≤ 7

/-- A format whose lanes begin in the narrow form (R197). -/
def isNarrow (fmt : Nat) : Bool := 3 ≤ fmt && fmt ≤ 7

/-- f of R197: the unit of an MX element is 2⁻ᶠ before its scale. -/
def mxFrac (fmt : Nat) : Nat := if fmt = 5 then 9 else if fmt = 6 then 3 else 6

/-- Exponent and mantissa bits of a floating-point element. -/
def fpShape (fmt : Nat) : Nat × Nat :=
  if fmt = 0 then (8, 23) else if fmt = 1 then (8, 7) else if fmt = 2 then (5, 10)
  else if fmt = 3 || fmt = 5 then (4, 3) else if fmt = 4 then (5, 2) else (2, 3)

/-- The sign bit of a floating-point code. -/
def fpSign (fmt : Nat) : Nat := 2 ^ ((fpShape fmt).1 + (fpShape fmt).2)

/-- The power of two between a format's smallest magnitude and its lane's LSB: BF16 in units of 2⁻¹⁴⁹ (R197). -/
def laneShift (fmt : Nat) : Nat := if fmt = 1 then 16 else 0

/-- A code is a NaN. -/
def codeNan (fmt code : Nat) : Bool :=
  let (eb, mb) := fpShape fmt
  if fmt = 3 || fmt = 5 then code % 128 = 127
  else if fmt ≤ 4 then code / 2 ^ mb % 2 ^ eb = 2 ^ eb - 1 && code % 2 ^ mb ≠ 0
  else false

/-- A code is an infinity. -/
def codeInf (fmt code : Nat) : Bool :=
  let (eb, mb) := fpShape fmt
  (fmt ≤ 2 || fmt = 4) && code / 2 ^ mb % 2 ^ eb = 2 ^ eb - 1 && code % 2 ^ mb = 0

/-- A signed number from `w` bits of two's complement. -/
def signedOf (w code : Nat) : Int := if code < 2 ^ (w - 1) then code else (code : Int) - 2 ^ w

/-- An element: a special value, or a finite one in units of its format's smallest magnitude. -/
structure Elem where
  nan : Bool
  pinf : Bool
  ninf : Bool
  val : Int
  negz : Bool
  deriving DecidableEq, Repr

/-- A finite element. -/
def Elem.ofInt (v : Int) : Elem := ⟨false, false, false, v, false⟩

/-- Decode an element (R189). -/
def decodeElem (fmt code : Nat) : Elem :=
  if fmt = 8 then .ofInt (signedOf 32 code)
  else if fmt = 7 then .ofInt (signedOf 8 code)
  else
    let (eb, mb) := fpShape fmt
    let neg := fpSign fmt ≤ code
    let e := code / 2 ^ mb % 2 ^ eb
    let m := code % 2 ^ mb
    if codeNan fmt code then ⟨true, false, false, 0, false⟩
    else if codeInf fmt code then ⟨false, !neg, neg, 0, false⟩
    else
      let v : Nat := if e = 0 then m else (2 ^ mb + m) * 2 ^ (e - 1)
      ⟨false, false, false, if neg then -v else v, neg && v = 0⟩

/-- Payload bytes of `e` elements (R192). -/
def payloadLen (fmt e : Nat) : Nat := e * elemBits fmt / 8 + if isMx fmt then e / 32 else 0

/-- Codes of 16-bit elements. -/
def codes16 : List Byte → List Nat
  | a :: b :: t => (a.toNat * 256 + b.toNat) :: codes16 t
  | _ => []

/-- Codes of 32-bit elements. -/
def codes32 : List Byte → List Nat
  | a :: b :: c :: d :: t => beNat (a :: b :: c :: d :: []) :: codes32 t
  | _ => []

/-- Codes of 6-bit elements: four in three bytes. -/
def codes6 : List Byte → List Nat
  | a :: b :: c :: t =>
    let w := a.toNat * 65536 + b.toNat * 256 + c.toNat
    w / 262144 :: w / 4096 % 64 :: w / 64 % 64 :: w % 64 :: codes6 t
  | _ => []

/-- The element codes of a payload's element bytes (R192). -/
def codesOf (fmt : Nat) (bs : List Byte) : List Nat :=
  match elemBits fmt with
  | 32 => codes32 bs
  | 16 => codes16 bs
  | 6 => codes6 bs
  | _ => bs.map (·.toNat)

/-- Bytes of 6-bit codes. -/
def bytes6 : List Nat → List Byte
  | a :: b :: c :: d :: t => beBytes 3 (a * 262144 + b * 4096 + c * 64 + d) ++ bytes6 t
  | _ => []

/-- The bytes of element codes (R192). -/
def bytesOf (fmt : Nat) (cs : List Nat) : List Byte :=
  if elemBits fmt = 6 then bytes6 cs else cs.flatMap fun c => beBytes (elemBits fmt / 8) c

/-- Cut a list into blocks of 32. -/
def blocks32 {α : Type} : Nat → List α → List (List α)
  | 0, _ => []
  | n + 1, l => l.take 32 :: blocks32 n (l.drop 32)

/-- A block of a contribution: its scale code, 0 where the format has none, and its element codes. -/
structure BlockIn where
  scale : Nat
  codes : List Nat
  deriving DecidableEq, Repr

/-- The blocks of a contribution of `e` elements (R192, R199). -/
def blocksIn (fmt e : Nat) (payload : List Byte) : List BlockIn :=
  let nb := ceilDiv e 32
  let scales := if isMx fmt then (payload.take nb).map (·.toNat) else List.replicate nb 0
  let body := if isMx fmt then payload.drop nb else payload
  (scales.zip (blocks32 nb ((codesOf fmt body).take e))).map fun x => ⟨x.1, x.2⟩

/-! ### Lanes -/

/-- Add an element to a lane, its value in the lane's units (R198). -/
def sumLane (first : Bool) (a : Lane) (e : Elem) : Lane :=
  { nan := a.nan || e.nan, pinf := a.pinf || e.pinf, ninf := a.ninf || e.ninf,
    fin := a.fin || !(e.nan || e.pinf || e.ninf), val := a.val + e.val, negz := e.negz && (first || a.negz) }

/-- Keep the greater, or the lesser, of a lane and an element; −0 < +0 (R201). -/
def extremeLane (isMax : Bool) (a : Lane) (e : Elem) : Lane :=
  if e.nan || e.pinf || e.ninf then { a with nan := a.nan || e.nan, pinf := a.pinf || e.pinf, ninf := a.ninf || e.ninf }
  else if !a.fin then { a with fin := true, val := e.val, negz := e.negz }
  else if e.val = a.val then { a with negz := if isMax then a.negz && e.negz else a.negz || e.negz }
  else if decide (a.val < e.val) = isMax then { a with val := e.val, negz := e.negz }
  else a

/-- Combine a raw code bit by bit (R201). -/
def bitLane (isOr first : Bool) (a : Lane) (code : Nat) : Lane :=
  { a with fin := true, val := if first then code else if isOr then (a.val.toNat ||| code : Nat) else (a.val.toNat &&& code : Nat) }

/-- Merge an element into a lane under a sum, an average, a maximum or a minimum. -/
def mergeLane (op : Nat) (first : Bool) (a : Lane) (e : Elem) : Lane :=
  if op ≤ 1 then sumLane first a e else extremeLane (op = 2) a e

/-- Multiply an element's value by 2^k. -/
def Elem.shl (e : Elem) (k : Nat) : Elem := { e with val := e.val * 2 ^ k }

/-- Multiply a lane's value by 2^k. -/
def Lane.shl (a : Lane) (k : Nat) : Lane := { a with val := a.val * 2 ^ k }

/-- A narrow lane can hold the value (R199). -/
def fitsNarrow (a : Lane) : Bool := -(2 ^ 31 : Int) ≤ a.val && a.val ≤ 2 ^ 31 - 1

/-- The residue of a block: the sum of its lanes modulo 8,191 (R211). -/
def residueOf (op : Nat) (lanes : List Lane) : Nat :=
  if op ≤ 1 then ((lanes.map Lane.val).sum % 8191).toNat else 0

/-- A block of `k` lanes at zero. -/
def LaneBlock.zero (k : Nat) : LaneBlock := ⟨false, none, 0, List.replicate k Lane.zero⟩

/-- Give a block new lanes, and their residue. -/
def LaneBlock.put (b : LaneBlock) (op : Nat) (lanes : List Lane) : LaneBlock :=
  { b with lanes := lanes, residue := residueOf op lanes }

/-- Escape a block: its lanes in the medium or wide form (R199). -/
def LaneBlock.escape (b : LaneBlock) (fmt op : Nat) : LaneBlock :=
  let k := if isMx fmt then b.xref.getD 0 + 22 - mxFrac fmt else 0
  { (b.put op (b.lanes.map (·.shl k))) with escaped := true, xref := none }

/-- The elements of a contribution's block; under scale 0xFF every one is NaN. -/
def BlockIn.elems (x : BlockIn) (fmt : Nat) : List Elem :=
  if isMx fmt && x.scale = 255 then x.codes.map fun _ => ⟨true, false, false, 0, false⟩
  else x.codes.map fun c => decodeElem fmt c

/-- Apply a contribution's block to a block in its wide or medium form (R198 to R200). -/
def applyFull (fmt op : Nat) (first : Bool) (b : LaneBlock) (x : BlockIn) : LaneBlock :=
  let k := if isMx fmt then x.scale + 22 - mxFrac fmt else laneShift fmt
  b.put op ((b.lanes.zip (x.elems fmt)).map fun ae => mergeLane op first ae.1 (ae.2.shl k))

/-- Apply a contribution's block to a narrow block, nothing in it being special (R199, R200). -/
def applyNarrow (fmt op : Nat) (first : Bool) (b : LaneBlock) (x : BlockIn) : LaneBlock :=
  let es := x.elems fmt
  let (up, xref, es) :=
    if isMx fmt then
      match b.xref with
      | none => (0, some x.scale, es)
      | some r => if r ≤ x.scale then (0, some r, es.map (·.shl (x.scale - r))) else (r - x.scale, some x.scale, es)
    else (0, none, es)
  { (b.put op ((b.lanes.zip es).map fun ae => mergeLane op first (ae.1.shl up) ae.2)) with xref := xref }

/-- Apply a contribution's block to a block of the chunk, which escapes where R199 says so. -/
def applyBlock (fmt op : Nat) (first : Bool) (b : LaneBlock) (x : BlockIn) : LaneBlock :=
  if 4 ≤ op then b.put op ((b.lanes.zip x.codes).map fun ac => bitLane (op = 4) first ac.1 ac.2)
  else if !isNarrow fmt || b.escaped then applyFull fmt op first b x
  else if (x.elems fmt).any fun e => e.nan || e.pinf || e.ninf then applyFull fmt op first (b.escape fmt op) x
  else
    let b' := applyNarrow fmt op first b x
    if b'.lanes.all fitsNarrow then b' else applyFull fmt op first (b.escape fmt op) x

/-! ### Rounding -/

/-- Divide and round to nearest, ties to even. -/
def roundEven (num den : Nat) : Nat :=
  let q := num / den
  let r := num % den
  if den < 2 * r || (2 * r = den && q % 2 = 1) then q + 1 else q

/-- Round a magnitude num ÷ den, in units of the smallest, to `mb` mantissa bits: its code, and whether it is exact. -/
def roundFp (mb num den : Nat) : Nat × Bool :=
  let q := num / den
  let k := if q < 2 ^ (mb + 1) then 0 else Nat.log2 q - mb
  let r := roundEven num (den * 2 ^ k)
  (k * 2 ^ mb + r, r * 2 ^ k * den = num)

/-- The code of the largest finite magnitude (R189). -/
def maxCode (fmt : Nat) : Nat :=
  let (eb, mb) := fpShape fmt
  if fmt = 3 || fmt = 5 then 0x7E else if fmt = 6 then 0x1F else (2 ^ eb - 1) * 2 ^ mb - 1

/-- The canonical NaN (R202). -/
def canonicalNan (fmt : Nat) : Nat :=
  if fmt = 0 then 0x7FC00000 else if fmt = 1 then 0x7FC0 else if fmt = 2 then 0x7E00 else if fmt = 3 then 0x7F else 0x7E

/-- A released code and what its rounding did. -/
structure Rounded where
  code : Nat
  inexact : Bool
  ovf : Bool
  sat : Bool
  deriving DecidableEq, Repr

/-- A code that is what it stands for. -/
def Rounded.exact (code : Nat) : Rounded := ⟨code, false, false, false⟩

/-- Round a lane's finite value, divided by `n`, to a floating-point format (R202). -/
def roundFinite (fmt n : Nat) (e4m3Sat : Bool) (v : Int) (negz : Bool) : Rounded :=
  let sign := fpSign fmt
  if v = 0 then .exact (if negz then sign else 0)
  else
    let s := if v < 0 then sign else 0
    let (c, ex) := roundFp (fpShape fmt).2 v.natAbs (n * 2 ^ laneShift fmt)
    if c ≤ maxCode fmt then ⟨s + c, !ex, false, false⟩
    else if fmt = 3 then ⟨if e4m3Sat then s + 0x7E else 0x7F, true, true, false⟩
    else ⟨s + (maxCode fmt + 1), true, true, false⟩

/-- Round a lane to INT32: a sum saturates, an average goes to the nearest integer (R202). -/
def roundInt (n : Nat) (v : Int) : Rounded :=
  let q : Int := if v < 0 then -(roundEven v.natAbs n : Int) else roundEven v.natAbs n
  let c := max (-(2 ^ 31)) (min (2 ^ 31 - 1) q)
  ⟨(c % 2 ^ 32).toNat, c * n ≠ v, false, c ≠ q⟩

/-- The result of an element in a format other than MX (R202). -/
def finishElem (fmt op n : Nat) (e4m3Sat : Bool) (a : Lane) : Rounded :=
  let inf := maxCode fmt + 1
  let fin := fun m => if fmt = 8 then roundInt m a.val else roundFinite fmt m e4m3Sat a.val a.negz
  if 4 ≤ op then .exact a.val.toNat
  else if a.nan then .exact (canonicalNan fmt)
  else if op ≤ 1 then
    if a.pinf && a.ninf then .exact (canonicalNan fmt)
    else if a.pinf then .exact inf
    else if a.ninf then .exact (fpSign fmt + inf)
    else fin (if op = 1 then n else 1)
  else
    let hi := if op = 2 then a.pinf else a.ninf
    let lo := if op = 2 then a.ninf else a.pinf
    let code := fun (up : Bool) => if up then inf else fpSign fmt + inf
    if hi then .exact (code (op = 2)) else if a.fin then fin 1 else if lo then .exact (code (op = 3)) else fin 1

/-- floor(log₂ (m ÷ n)) for m, n > 0. -/
def floorLog2 (m n : Nat) : Int :=
  if n ≤ m then Nat.log2 (m / n) else -(Nat.log2 (ceilDiv n m - 1) + 1 : Nat)

/-- Encode one element v ÷ 2^X of an MX block, v = a ÷ n × 2^u (R203, step 4). -/
def mxElem (fmt n : Nat) (u x : Int) (a : Lane) : Rounded :=
  if a.nan then .exact 0x7F
  else if a.val = 0 then .exact 0
  else
    let k := u - x + mxFrac fmt
    let num := a.val.natAbs * 2 ^ k.toNat
    let den := n * 2 ^ (-k).toNat
    if fmt = 7 then
      let r := min 127 (roundEven num den)
      ⟨if a.val < 0 then (256 - r) % 256 else r, r * den ≠ num, false, false⟩
    else
      let (c, ex) := roundFp 3 num den
      let s := if a.val < 0 then fpSign fmt else 0
      if c ≤ maxCode fmt then ⟨s + c, !ex, false, false⟩ else ⟨s + maxCode fmt, true, false, false⟩

/-- Encode an MX block (R203): its scale and its elements. -/
def mxBlock (fmt op n : Nat) (mxSat : Bool) (b : LaneBlock) : Nat × List Rounded :=
  let n := if op = 1 then n else 1
  let u : Int := if b.escaped then -149 else (b.xref.getD 0 : Int) - 127 - mxFrac fmt
  let allNan := fun (ovf : Bool) => (255, b.lanes.map fun a => (⟨0, !a.nan, ovf, false⟩ : Rounded))
  if b.lanes.all (·.nan) || (fmt ≠ 5 && b.lanes.any (·.nan)) then allNan false
  else
    let m := ((b.lanes.filter fun a => !a.nan).map fun a => a.val.natAbs).foldl max 0
    if m = 0 then (0, b.lanes.map fun a => .exact (if a.nan then 0x7F else 0))
    else
      let emax : Int := if fmt = 5 then 8 else if fmt = 6 then 2 else 0
      let x := max (-127) (floorLog2 m n + u - emax)
      if 127 < x && !mxSat then allNan true
      else
        let es := b.lanes.map (mxElem fmt n u (min x 127))
        ((min x 127 + 127).toNat, if 127 < x then es.map fun r => { r with ovf := true } else es)

/-- A chunk's rounded result: its payload (R192), and its flags inf, nan, sat, ovf and inexact (R219). -/
def roundChunk (c : ChunkRec) : List Byte × Nat :=
  let mx := isMx c.fmt
  let blocks := c.blocks.map fun b =>
    if mx then mxBlock c.fmt c.op c.n c.mxSat b else (0, b.lanes.map (finishElem c.fmt c.op c.n c.e4m3Sat))
  let es := blocks.flatMap Prod.snd
  let flag := fun (b : Bool) (k : Nat) => if b then 2 ^ k else 0
  let nan := es.any (fun e => codeNan c.fmt e.code) || (mx && blocks.any fun b => b.1 = 255)
  ((if mx then blocks.map fun b => BitVec.ofNat 8 b.1 else []) ++ bytesOf c.fmt (es.map Rounded.code),
    flag (es.any fun e => codeInf c.fmt e.code) 4 + flag nan 3 + flag (es.any (·.sat)) 2 + flag (es.any (·.ovf)) 1 +
    flag (es.any (·.inexact)) 0)

end Sys2Proof.Machine
end

