-- ==== Sys2Proof/Machine/Garnet.lean ====
section
/-!
DEFINITION. Garnet engines (chapter 6): chunk tables, scratch and spill (R194 to R196, R207 to R210), substitutes, moving,
audit and self-test (R211 to R218), and the release of results (R206, R219).
-/

namespace Sys2Proof.Machine

/-- The op_area of a collective frame (R234). -/
structure ColArea where
  group : Nat
  seq : Nat
  epoch : Nat
  member : Nat
  chunk : Nat
  fmt : Nat
  op : Nat
  count : Nat
  info : Nat
  deriving DecidableEq, Repr

/-- Read an op_area (R234). -/
def colArea (b : List Byte) : ColArea :=
  let w := beAt b 16 12
  ⟨bits w 95 84, bits w 83 68, bits w 67 60, bits w 59 50, bits w 49 32, bits w 31 28, bits w 27 24, bits w 23 10, bits w 9 2⟩

/-- Write an op_area (R234). -/
def ColArea.bytes (a : ColArea) : List Byte :=
  beBytes 12 (a.group * 2 ^ 84 + a.seq * 2 ^ 68 + a.epoch * 2 ^ 60 + a.member * 2 ^ 50 + a.chunk * 2 ^ 32 + a.fmt * 2 ^ 28 +
    a.op * 2 ^ 24 + a.count * 2 ^ 10 + a.info * 4)

/-- A member's contribution as an engine takes it. -/
structure Contribution where
  id : ChunkId
  member : Nat
  fmt : Nat
  op : Nat
  elems : Nat
  payload : List Byte
  deriving DecidableEq, Repr

/-- A contribution from its frame. -/
def contributionOf (f : Frame) : Contribution :=
  let a := colArea f.data
  ⟨⟨ctxNum a.group a.seq, a.chunk, a.epoch⟩, a.member, a.fmt, a.op, a.count, (f.data.drop 32).take (xHeader f.data).len⟩

/-- Lines or cells of `e` lanes of a format at a chunk's opening (R207). -/
def openLines (fmt e : Nat) : Nat :=
  ceilDiv (e * (if isNarrow fmt then 4 else if fmt = 2 then 8 else 40)) 256

/-- Lines of an escaped block (R207). -/
def escapeLines (fmt : Nat) : Nat := if isMx fmt then 5 else 1

/-- Every member has contributed (R196). -/
def ChunkRec.full (c : ChunkRec) : Bool := c.arrived = 2 ^ c.n - 1

namespace Blk

/-! ### Engines and their substitutes -/

/-- An engine is ACTIVE (R215). -/
def active (s : Blk) (t : Nat) : Bool := s.fld .GRN_STATUS_state t = 1

/-- The substitute of an engine by the first paragraph of R214. -/
def pickSubst (s : Blk) (t : Nat) : Option Nat :=
  if s.active (t ^^^ 1) then some (t ^^^ 1)
  else ((List.range 7).map fun k => t / 8 * 8 + (t % 8 + 1 + k) % 8).find? fun u => s.active u

/-- The first ACTIVE engine along the chain of substitutes (R214). -/
def chain (s : Blk) : Nat → List Nat → Nat → Option Nat
  | 0, _, _ => none
  | k + 1, seen, t =>
    if s.active t then some t
    else if seen.contains t then none
    else match (s.engine t).subst with
      | none => none
      | some u => chain s k (t :: seen) u

/-- The engine that takes a contribution for a chunk not open, `t` being its home (R214). -/
def engineAt (s : Blk) (t : Nat) : Option Nat :=
  match s.chain 9 [] t with
  | some u => some u
  | none => s.pickSubst t

/-- The engine that holds a chunk (R216). -/
def holder (s : Blk) (id : ChunkId) : Option Nat :=
  (List.range 32).find? fun t => (s.engine t).chunks.any fun (c : ChunkRec) => c.id = id

/-- A chunk of an engine's table. -/
def chunkAt (s : Blk) (t : Nat) (id : ChunkId) : Option ChunkRec := (s.engine t).chunks.find? fun c => c.id = id

/-- Put a chunk into an engine's table, in place of the entry it has. -/
def putChunk (s : Blk) (t : Nat) (c : ChunkRec) : Blk :=
  s.updEngine t fun e =>
    { e with chunks := if e.chunks.any fun (x : ChunkRec) => x.id = c.id then
        e.chunks.map fun x => if x.id = c.id then c else x else e.chunks ++ [c] }

/-- Take a chunk out of an engine's table, its identity going into the release log (R196). -/
def retireChunk (s : Blk) (t : Nat) (id : ChunkId) : Blk :=
  s.updEngine t fun e => { e with chunks := e.chunks.filter fun c => c.id ≠ id, log := (id :: e.log).take 4096 }

/-- Entries taken in a chunk table, audit copies among them. -/
def tableFull (s : Blk) (t : Nat) : Bool := 8192 ≤ (s.engine t).chunks.length + (s.engine t).copies.length

/-- Free scratch lines of an engine (R207). -/
def freeScratch (s : Blk) (t : Nat) : Nat := 32768 - s.fld .GRN_SCR_USED_lines t

/-- Take scratch lines. -/
def scratchTake (s : Blk) (t n : Nat) : Blk := s.setFld .GRN_SCR_USED_lines t (s.fld .GRN_SCR_USED_lines t + n)

/-- Give a chunk's lines or cells back (R210). -/
def freeSpace (s : Blk) (t : Nat) (c : ChunkRec) : Blk :=
  if c.spilled then s.spillGive t c.lines c.cells
  else s.setFld .GRN_SCR_USED_lines t (s.fld .GRN_SCR_USED_lines t - c.lines)

/-- Drop an audit copy that an engine holds (R217). -/
def dropCopyOf (s : Blk) (u : Nat) (id : ChunkId) : Blk :=
  match (s.engine u).copies.find? fun c => c.id = id with
  | none => s
  | some c => (s.freeSpace u c).updEngine u fun e => { e with copies := e.copies.filter fun c => c.id ≠ id }

/-- The audit copy that engine `u` holds of a chunk is lost, and its audit abandoned. -/
def loseCopy (s : Blk) (u : Nat) (id : ChunkId) : Blk :=
  let s := s.dropCopyOf u id
  { s with engines := s.engines.mapV .reset fun _ e =>
      { e with chunks := e.chunks.map fun c => if c.id = id && c.audit = some u then { c with audit := none } else c } }

/-- Abandon a chunk's audit. -/
def abandonAudit (s : Blk) (t : Nat) (c : ChunkRec) : Blk :=
  match c.audit with
  | none => s
  | some u => (s.dropCopyOf u c.id).putChunk t { c with audit := none }

/-- A chunk fails: its lanes are freed, and its context hears of it (R195, R210, R219). -/
def failChunk (s : Blk) (t : Nat) (c : ChunkRec) (status : Nat) : Blk :=
  let s := match c.audit with
    | none => s
    | some u => s.dropCopyOf u c.id
  let s := (s.freeSpace t c).putChunk t { c with status := status, blocks := [], lines := 0, spilled := false, cells := [], audit := none }
  (s.count .GRN_FAILED_count t 1).chunkFailed c.id status

/-- Audits in which an engine takes part are abandoned as it leaves ACTIVE (R217). -/
def abandonAudits (s : Blk) (t : Nat) : Blk :=
  let s := (s.engine t).copies.foldl (fun s c => s.dropCopyOf t c.id) s
  let s := (s.engine t).chunks.foldl (fun s c => s.abandonAudit t c) s
  (List.range 32).foldl (fun s u =>
    if (s.engine u).chunks.any fun (c : ChunkRec) => c.audit = some t then
      s.updEngine u fun e => { e with chunks := e.chunks.map fun c => if c.audit = some t then { c with audit := none } else c }
    else s) s

/-- An engine leaves ACTIVE: its substitute is fixed and its open chunks are to move; without a substitute each fails with
NO_ENGINE (R214 to R216). -/
def leaveActive (s : Blk) (t : Nat) (retest : Bool) : Blk :=
  let s := (s.setFld .GRN_STATUS_state t 2).abandonAudits t
  let s := if s.fld .GRN_IST_STATUS_engine 0 = t then s.setFld .GRN_IST_STATUS_busy 0 0 else s
  let s := s.endAsks t fun _ => true
  let u := s.pickSubst t
  let s := (s.updEngine t fun e => { e with subst := u, retest := retest, refused := [] }).setFld .GRN_STATUS_subst t (u.getD 0)
  if u.isSome then s
  else ((s.engine t).chunks.filter fun c => c.status = 0).foldl (fun s c => s.failChunk t c 4) s

/-! ### Space (R207 to R209) -/

/-- What an engine's request for space comes to. -/
inductive Space where
  | granted | refused | waits
  deriving DecidableEq, Repr

/-- Take the `n` spill cells that a contribution needs from those granted for it; a surplus is returned. Where none are granted the
engine asks its die's allocator (SPILL_REQUEST), or has been refused (R208, R209). -/
def spillSpace (s : Blk) (t fid n : Nat) : Space × List Nat × Blk :=
  match (s.spill t).find? fun a => a.frame = fid with
  | none => (.waits, [], s.updSpill t fun l => l ++ [⟨fid, n, 0, false, []⟩])
  | some a =>
    if n ≤ a.got then
      (.granted, a.cells.take n, (s.updAsk t fid fun a => { a with got := a.got - n, cells := a.cells.drop n }).endAsks t fun a =>
        a.frame = fid)
    else if a.refused then (.refused, [], s.endAsks t fun a => a.frame = fid)
    else (.waits, [], s.updAsk t fid fun a => { a with want := n - a.got })

/-- Space for `k` more lines of a chunk (R208): scratch while it lies there and has room, else spill cells for the whole
chunk; spill cells where it lies in spill. The chunk is answered with its new place. -/
def moreSpace (s : Blk) (t fid : Nat) (c : ChunkRec) (k : Nat) : Space × ChunkRec × Blk :=
  if k = 0 then (.granted, c, s)
  else if c.spilled then
    match s.spillSpace t fid k with
    | (.granted, n, s) => (.granted, { c with lines := c.lines + k, cells := c.cells ++ n }, s)
    | (r, _, s) => (r, c, s)
  else if k ≤ s.freeScratch t then (.granted, { c with lines := c.lines + k }, s.scratchTake t k)
  else match s.spillSpace t fid (c.lines + k) with
    | (.granted, n, s) => (.granted, { c with lines := c.lines + k, spilled := true, cells := n }, s.freeSpace t c)
    | (r, _, s) => (r, c, s)

/-- Space for `k` more lines at once or not at all, as an audit copy or a moving chunk takes it (R216, R217). -/
def spaceNow (s : Blk) (t : Nat) (c : ChunkRec) (k : Nat) : Option (ChunkRec × Blk) :=
  if k = 0 then some (c, s)
  else if !c.spilled && k ≤ s.freeScratch t then some ({ c with lines := c.lines + k }, s.scratchTake t k)
  else
    let n := if c.spilled then k else c.lines + k
    if s.spillFits t n then
      let s := if c.spilled then s else s.freeSpace t c
      let (cells, s) := s.spillTake t n
      some ({ c with lines := c.lines + k, spilled := true, cells := c.cells ++ cells }, s)
    else none

/-- The contribution of frame `fid` is refused for want of space or of a table entry (R209). -/
def refuse (s : Blk) (t fid : Nat) : Blk :=
  (s.count .GRN_SPILL_WAITS_count t 1).updEngine t fun e =>
    { e with refused := if e.refused.contains fid then e.refused else e.refused ++ [fid] }

/-- An engine has done with a contribution's frame: its staging is freed, and the frames behind it go on. -/
def takeOff (s : Blk) (fid : Nat) : Blk :=
  match s.frame? fid with
  | none => s
  | some r =>
    ((s.forget fid).dropFrame fid).offerAfter r.link

/-! ### Contributions -/

/-- The status with which a contribution that opens a chunk fails it; 0: none (R191). -/
def openStatus (s : Blk) (x : Contribution) : Nat :=
  if 8 < x.fmt || !s.bit .GRN_FMT_CTL_fmt_en 0 x.fmt || x.elems = 0 || (isMx x.fmt && x.elems % 32 ≠ 0) ||
      8192 * 8 < x.elems * elemBits x.fmt || x.payload.length ≠ payloadLen x.fmt x.elems then 5
  else if 5 < x.op || !s.bit .GRN_FMT_CTL_op_en 0 x.op || (4 ≤ x.op && isMx x.fmt) then 6
  else 0

/-- A chunk as its first contribution opens it, with lanes at zero and no space yet (R194). -/
def newChunk (s : Blk) (x : Contribution) (n : Nat) : ChunkRec :=
  { id := x.id, fmt := x.fmt, op := x.op, elems := x.elems, n := n, mxSat := s.flag .GRN_FMT_CTL_mx_sat 0,
    e4m3Sat := s.flag .GRN_FMT_CTL_e4m3_sat 0, arrived := 0, status := 0,
    blocks := (List.range (ceilDiv x.elems 32)).map fun k => LaneBlock.zero (min 32 (x.elems - 32 * k)),
    spilled := false, lines := 0, cells := [], moved := false, audit := none }

/-- A chunk with a contribution added to its lanes, and the blocks that escaped with it (R198 to R201). -/
def accumulate (c : ChunkRec) (x : Contribution) : ChunkRec × Nat :=
  let bs := (c.blocks.zip (blocksIn x.fmt x.elems x.payload)).map fun bx => applyBlock c.fmt c.op (c.arrived = 0) bx.1 bx.2
  let esc := (bs.filter (·.escaped)).length - (c.blocks.filter (·.escaped)).length
  ({ c with blocks := bs, arrived := c.arrived ||| 2 ^ x.member }, esc)

/-- Lines a chunk needs beyond those it holds, `esc` blocks escaping; a chunk that opens holds none. -/
def linesFor (c : ChunkRec) (esc : Nat) : Nat :=
  (if c.lines = 0 then openLines c.fmt c.elems else 0) + esc * escapeLines c.fmt

/-- A chunk is audited: the low audit_log2 bits of its hash are 0 (R217). -/
def audited (s : Blk) (id : ChunkId) : Bool :=
  let k := s.fld .GRN_AUDIT_CFG_audit_log2 0
  k ≠ 15 && crc16 (crcKey [(28, id.ctx), (18, id.chunk)]) % 2 ^ k = 0

/-- Begin the audit of a chunk that opens at engine `t` (R217): its copy takes an entry at the substitute. -/
def beginAudit (s : Blk) (t : Nat) (c : ChunkRec) (bare : ChunkRec) : ChunkRec × Blk :=
  if s.audited c.id then
    match s.pickSubst t with
    | none => (c, s)
    | some u =>
      let s := s.count .GRN_AUDITED_count t 1
      if s.tableFull u then (c, s)
      else ({ c with audit := some u }, s.updEngine u fun e => { e with copies := e.copies ++ [bare] })
  else (c, s)

/-- What an engine's checks find on a chunk of operation `op` is counted, raised and reported (R212, R213); max, min, OR and AND
carry no residue (R211). -/
def noteTrouble (s : Blk) (t op chunk : Nat) : EngineTrouble → Blk
  | .none => s
  | .corrected line => ((s.count .GRN_SCR_CORR_count t 1).raise .GRN_INT_scr_corr t).reportError (.sramSingle 5 t line)
  | .residueOnce =>
    if op ≤ 1 then ((s.count .GRN_RESIDUE_ERR_count t 1).raise .GRN_INT_residue t).reportError (.residueCleared t chunk) else s
  | .residueTwice =>
    if op ≤ 1 then ((s.count .GRN_RESIDUE_ERR_count t 2).raise .GRN_INT_residue t).reportError (.residueSecond t chunk) else s
  | .lost line => (s.raise .GRN_INT_scr_uncorr t).reportError (.scratchDoubleBit t line)

/-- An audit copy is updated, and its engine counts the work (R199, R222). -/
def copyAdds (s : Blk) (u : Nat) (k' : ChunkRec) (elems esc : Nat) : Blk :=
  ((s.updEngine u fun e => { e with copies := e.copies.map fun y => if y.id = k'.id then k' else y }).count .GRN_ELEMS_count u
    elems).count .GRN_ESCAPES_count u esc

/-- The copy of an audited chunk takes the contribution, its own engine's checks finding `tr`, or its audit is abandoned (R217). A
copy that loses a word ends so too: the chunk itself is whole at its engine (DESIGN CHOICE, log entry 106). -/
def copyTakes (s : Blk) (t : Nat) (c : ChunkRec) (x : Contribution) (tr : EngineTrouble) : Blk :=
  match c.audit with
  | none => s
  | some u =>
    match (s.engine u).copies.find? fun k => k.id = c.id with
    | none => s.putChunk t { c with audit := none }
    | some k =>
      let (k', esc) := accumulate k x
      match s.spaceNow u k' (linesFor k esc) with
      | none => s.abandonAudit t c
      | some (k', s) =>
        let s := (s.updEngine u fun e => { e with copies := e.copies.map fun y =>
          if y.id = c.id then { k with lines := k'.lines, spilled := k'.spilled, cells := k'.cells } else y }).noteTrouble u c.op c.id.chunk tr
        match tr with
        | .lost _ => s.abandonAudit t c
        | .residueTwice => if c.op ≤ 1 then s.leaveActive u true else s.copyAdds u k' x.elems esc
        | _ => s.copyAdds u k' x.elems esc

/-- A contribution is added to a chunk, open or opening: space, checks, lanes, counts and the audit copy. -/
def addTo (s : Blk) (t : Nat) (c : ChunkRec) (opening : Bool) (x : Contribution) (fid : Nat) (tr cp : EngineTrouble) : Blk :=
  let (c', esc) := accumulate c x
  match s.moreSpace t fid c' (linesFor c esc) with
  | (.waits, _, s) => s
  | (.refused, _, s) => s.refuse t fid
  | (.granted, c', s) =>
    let held := { c with lines := c'.lines, spilled := c'.spilled, cells := c'.cells }
    let (held, s) := if opening then s.beginAudit t held { c with lines := 0 } else (held, s)
    let c' := { c' with audit := held.audit }
    let s := (s.putChunk t held).noteTrouble t c.op c.id.chunk tr
    let adds := (((s.putChunk t c').copyTakes t c' x cp).count .GRN_ELEMS_count t x.elems).count .GRN_ESCAPES_count t esc
    match tr with
    | .lost _ => (s.failChunk t { held with arrived := held.arrived ||| 2 ^ x.member } 2).takeOff fid
    | .residueTwice => if c.op ≤ 1 then s.leaveActive t true else adds.takeOff fid
    | _ => adds.takeOff fid

/-- A contribution that has reached its engine is applied, refused or discarded (R194 to R196, R209). `n` is the member count of its
context; where that has ended the contribution opens no chunk. -/
def contribute (s : Blk) (t : Nat) (x : Contribution) (n : Option Nat) (fid : Nat) (tr cp : EngineTrouble) : Blk :=
  if (s.engine t).log.contains x.id then (s.count .GRN_LATE_count t 1).takeOff fid
  else match s.chunkAt t x.id with
    | some c =>
      let c1 := { c with arrived := c.arrived ||| 2 ^ x.member }
      if c.arrived.testBit x.member then (s.count .GRN_DUP_count t 1).takeOff fid
      else if c.status ≠ 0 then (s.putChunk t c1).takeOff fid
      else if x.fmt ≠ c.fmt || x.op ≠ c.op || x.elems ≠ c.elems || x.payload.length ≠ payloadLen c.fmt c.elems then
        ((s.failChunk t c1 7).raise .GRN_INT_conflict t).takeOff fid
      else s.addTo t c false x fid tr cp
    | none =>
      match n with
      | none => s.takeOff fid
      | some n =>
      if s.tableFull t then s.refuse t fid
      else
        let c := s.newChunk x n
        let st := s.openStatus x
        if st ≠ 0 then ((s.failChunk t { c with blocks := [], arrived := 2 ^ x.member } st)).takeOff fid
        else s.addTo t c true x fid tr cp

/-- An engine of a tile's die is ACTIVE. -/
def anyActive (s : Blk) (t : Nat) : Bool := (List.range 8).any fun k => s.active (t / 8 * 8 + k)

/-- The engine that takes the contributions of a chunk of a context: the one that holds it, else by R214; none where no engine of
the die is ACTIVE. -/
def engineFor (s : Blk) (c : CtxRec) (id : ChunkId) : Option Nat :=
  if s.anyActive (c.home id.chunk) then
    match s.holder id with
    | some t => some t
    | none => s.engineAt (c.home id.chunk)
  else none

/-- A contribution finds no ACTIVE engine on its die: it is dropped at its ingress tile, and an open chunk that it belongs to fails
(R214). -/
def noEngine (s : Blk) (fid : Nat) (r : FrameRec) (id : ChunkId) : Blk :=
  let s := (s.countDrop r.tile 0xD).traceFrame fid 1 0xD
  let s := match s.holder id with
    | none => s
    | some t => match s.chunkAt t id with
      | none => s
      | some c => if c.status = 0 then s.failChunk t c 4 else s
  s.takeOff fid

/-- The context that a chunk belongs to: of its number and epoch. -/
def living (s : Blk) (id : ChunkId) : Option CtxRec := (s.ctx? id.ctx).filter fun c => c.epoch = id.epoch

/-- The engine that holds a chunk, or that released it lately. -/
def lastEngine (s : Blk) (id : ChunkId) : Option Nat :=
  match s.holder id with
  | some t => some t
  | none => (List.range 32).find? fun t => (s.engine t).log.contains id

/-- The entry of a chunk that failed and could not move stays with its engine, which has no lanes of it to update (R195, R216). -/
def failedAt (s : Blk) (t : Nat) (id : ChunkId) : Bool := (s.chunkAt t id).any fun c => c.status ≠ 0

/-- A contribution goes to engine `t`. One whose chunk is moving, or that stands behind a refused one, waits (R209, R216). -/
def deliverTo (s : Blk) (fid : Nat) (r : FrameRec) (x : Contribution) (n : Option Nat) (t : Nat) (tr cp : EngineTrouble) : Blk :=
  if !s.crossed fid r (dieOfTile t) then s.startCross fid (dieOfTile t)
  else if (s.active t || s.failedAt t x.id) && !s.heldBack fid r then s.contribute t x n fid tr cp
  else s

/-- The engine that takes a contribution whose context has ended, `t` holding its chunk or having released it lately: the one that
holds the chunk, else `t` or the engine along its chain (R214); none where no engine of the die is ACTIVE. -/
def engineAfter (s : Blk) (t : Nat) (id : ChunkId) : Option Nat :=
  if s.anyActive t then if (s.holder id).isSome then some t else s.engineAt t else none

/-- A contribution taken by its context goes to its engine, whatever has become of the context since (R191, R195, R196, R214). A
chunk of a context that has ended opens no more: its contribution is discarded. -/
def deliver (s : Blk) (fid : Nat) (tr cp : EngineTrouble) : Blk :=
  match s.frame? fid with
  | none => s
  | some r =>
    if r.dest = .engine then
      let x := contributionOf r.frame
      match s.living x.id with
      | some c =>
        match s.engineFor c x.id with
        | none => s.noEngine fid r x.id
        | some t => s.deliverTo fid r x (some c.count) t tr cp
      | none =>
        match s.lastEngine x.id with
        | none => s.takeOff fid
        | some t =>
          match s.engineAfter t x.id with
          | none => s.noEngine fid r x.id
          | some u => s.deliverTo fid r x none u tr cp
    else s

/-- The engine that has refused a frame's contribution. -/
def refuser (s : Blk) (fid : Nat) : Option Nat := (List.range 32).find? fun t => (s.engine t).refused.contains fid

/-- A refused contribution requests again (R209). -/
def contribRetry (s : Blk) (fid : Nat) (tr cp : EngineTrouble) : Blk :=
  if (s.refuser fid).isSome then s.deliver fid tr cp else s

/-- A contribution has been refused for wait_us: its chunk fails with NO_SCRATCH, and it is taken and discarded under R195 (R209).
One whose chunk has failed or was released since is discarded as R195 and R196 say of it. -/
def spillTimeout (s : Blk) (fid : Nat) : Blk :=
  match s.refuser fid, s.frame? fid with
  | some t, some r =>
    let x := contributionOf r.frame
    let s := if (s.engine t).log.contains x.id then s.count .GRN_LATE_count t 1
      else match s.chunkAt t x.id with
      | some c =>
        let c1 := { c with arrived := c.arrived ||| 2 ^ x.member }
        if c.arrived.testBit x.member then s.count .GRN_DUP_count t 1
        else if c.status = 0 then (s.failChunk t c1 3).raise .GRN_INT_no_scratch t
        else s.putChunk t c1
      | none =>
        (((s.updEngine t fun e => { e with log := (x.id :: e.log).take 4096 }).count .GRN_FAILED_count t 1).chunkFailed x.id 3).raise
          .GRN_INT_no_scratch t
    s.takeOff fid
  | _, _ => s

/-! ### Moving and self-test -/

/-- One chunk moves whole to engine `u`, its spill cells with it (R216). One that finds the table there full fails; the entry that a
failed chunk keeps stays then where it was (R195). -/
def moveChunk (s : Blk) (t u : Nat) (c : ChunkRec) : Blk :=
  if s.tableFull u then if c.status = 0 then s.failChunk t c 3 else s
  else
  let s := s.updEngine t fun e => { e with chunks := e.chunks.filter fun k => k.id ≠ c.id }
  let c := { c with moved := true, audit := none }
  let done := fun (s : Blk) => if c.status = 0 then s.count .GRN_MOVED_count t 1 else s
  let bare := { c with lines := 0, spilled := false, cells := [] }
  if c.spilled then
    ((s.setFld .GRN_SPILL_USED_cells t (s.fld .GRN_SPILL_USED_cells t - c.lines)).setFld .GRN_SPILL_USED_cells u
      (s.fld .GRN_SPILL_USED_cells u + c.lines)).putChunk u c |> done
  else
    let s := s.freeSpace t c
    match s.spaceNow u bare c.lines with
    | some (c', s) => done (s.putChunk u c')
    | none => s.failChunk u bare 3

/-- Where a chunk of an engine that is not ACTIVE moves: the substitute, or the engine that R214 finds from its home. -/
def moveTo (s : Blk) (t : Nat) (c : ChunkRec) : Option Nat :=
  match (s.engine t).subst with
  | some u => if s.active u then some u else
    match s.ctx? c.id.ctx with
    | some k => s.engineAt (k.home c.id.chunk)
    | none => none
  | none => none

/-- Every open chunk of an evacuating engine moves or fails, and the engine tests itself or is quarantined (R215, R216). -/
def evacuate (s : Blk) (t : Nat) : Blk :=
  if s.fld .GRN_STATUS_state t = 2 then
    let s := (s.engine t).chunks.foldl (fun s c => match s.moveTo t c with
      | some u => s.moveChunk t u c
      | none => if c.status = 0 then s.failChunk t c 4 else s) s
    if (s.engine t).retest then s.setFld .GRN_STATUS_state t 3
    else (s.setFld .GRN_STATUS_state t 4).raise .GRN_INT_quarantined t
  else s

/-- A chunk homed on engine `t` is open on another engine (R215). -/
def openElsewhere (s : Blk) (t : Nat) : Bool :=
  (List.range 32).any fun u => u ≠ t && (s.engine u).chunks.any fun (c : ChunkRec) =>
    c.status = 0 && match s.ctx? c.id.ctx with
    | none => false
    | some k => k.home c.id.chunk = t

/-- A full self-test ends (R215, R218). -/
def selfTestDone (s : Blk) (t : Nat) (pass : Bool) : Blk :=
  if s.fld .GRN_STATUS_state t = 3 then
    if pass then
      if s.openElsewhere t then s
      else ((s.setFld .GRN_STATUS_state t 1).setFld .GRN_STATUS_subst t 0).updEngine t fun e => { e with subst := none }
    else (((s.setFld .GRN_STATUS_state t 4).raise .GRN_INT_quarantined t).setBit .GRN_IST_FAIL_fail 0 t true).reportError
      (.selfTest t)
  else s

/-- GRN_CTL.quarantine written (R215). -/
def quarantine (s : Blk) (t : Nat) : Blk := if s.active t then s.leaveActive t false else s

/-- GRN_CTL.release written (R215). -/
def unquarantine (s : Blk) (t : Nat) : Blk := if s.fld .GRN_STATUS_state t = 4 then s.setFld .GRN_STATUS_state t 3 else s

/-- The idle-slot test moves on to the next engine; one that has not finished its pass is marked starved (R218). -/
def istTurn (s : Blk) : Blk :=
  if s.flag .GRN_IST_CTL_en 0 then
    let e := s.fld .GRN_IST_STATUS_engine 0
    let s := if !s.istOver && s.active e then s.setBit .GRN_IST_STARVED_starved 0 e true else s
    let e' := (e + 1) % 32
    { (s.setFld .GRN_IST_STATUS_engine 0 e').setFld .GRN_IST_STATUS_busy 0 (if s.active e' then 1 else 0) with istOver := false }
  else s

/-- An idle-slot pass completes (R218). -/
def istDone (s : Blk) (pass : Bool) : Blk :=
  let e := s.fld .GRN_IST_STATUS_engine 0
  if s.flag .GRN_IST_CTL_en 0 && !s.istOver && s.active e then
    let s := { (s.setFld .GRN_IST_STATUS_busy 0 0).count .GRN_IST_PASSES_count 0 1 with istOver := true }
    if pass then s
    else ((s.setBit .GRN_IST_FAIL_fail 0 e true).reportError (.selfTest e)).leaveActive e false
  else s

/-- GRN_IST_CTL.en is written: a pass in progress is discarded, and one begins (R218). -/
def istEnable (s : Blk) : Blk := { s.setFld .GRN_IST_STATUS_busy 0 0 with istOver := false }

/-- The idle-slot test of an ACTIVE engine begins its pass (R218). -/
def istBegins (s : Blk) : Blk :=
  if s.flag .GRN_IST_CTL_en 0 && !s.istOver && s.active (s.fld .GRN_IST_STATUS_engine 0) then s.setFld .GRN_IST_STATUS_busy 0 1 else s

/-! ### Release -/

/-- A result goes to the replication logic of its tile, and to the journal where the group has jrnl = 1 (R28, R236, R237). -/
def handResult (s : Blk) (t : Nat) (c : ChunkRec) (k : CtxRec) (payload : List Byte) (flags : Nat) : Blk :=
  let g := c.id.ctx / 65536
  let q := c.id.ctx % 65536
  let area : ColArea := ⟨g, q, k.epoch, 0, c.id.chunk, c.fmt, c.op, c.elems, flags⟩
  let (f, s) := s.ownFrame ⟨s.fld .TIL_FWD_CFG_xeirrik_etype t, false, false, 0, 5, bits k.entry 31 12, bits k.entry 55 52, 0x18,
    c.id.chunk, area.bytes, payload⟩
  let all := (List.range k.count).zip k.members |>.map fun m => (m.2.1, m.2.2, m.1)
  let ms := if k.kind = 1 then all else all.filter fun m => m.2.2 = c.id.chunk * k.count / max 1 k.chunks
  let item : ReplItem := ⟨none, .members c.id.ctx k.run ms, f, 5, .group (bits k.entry 124 120)⟩
  let r := s.repl.get .reset t
  let s := { s with repl := s.repl.set .reset t { r with garnet := r.garnet ++ [item] } }
  let s := s.putCtx c.id.ctx { k with chunksOk := k.chunksOk + 1, flags := k.flags ||| flags }
  if k.entry.testBit 126 then
    { s with journal := s.journal ++ [⟨t, k.run, k.stream, c.fmt, c.op, k.kind, g, q, k.epoch, flags, c.id.chunk, c.elems, k.chunks, k.count, payload⟩] }
  else s

/-- The chunk's result is released (R196, R206, R219). -/
def releaseResult (s : Blk) (t : Nat) (c : ChunkRec) (aud : Bool) : Blk :=
  let (payload, fl) := roundChunk c
  let flags := fl + (if c.blocks.any (·.escaped) then 128 else 0) + (if aud then 64 else 0) +
    (if c.moved || (s.ctx? c.id.ctx).any fun k => k.home c.id.chunk ≠ t then 32 else 0)
  let s := match c.audit with
    | none => s
    | some u => s.dropCopyOf u c.id
  let s := ((s.freeSpace t c).retireChunk t c.id).count .GRN_RELEASED_count t 1
  match s.ctx? c.id.ctx with
  | some k => if k.state ≠ .failing && k.epoch = c.id.epoch then s.handResult t c k payload flags else s
  | none => s

/-- The two copies of an audited chunk differ (R217). -/
def auditMismatch (s : Blk) (t u : Nat) (c : ChunkRec) : Blk :=
  let s := ((s.failChunk t c 1).retireChunk t c.id).reportError (.auditMismatch t c.id.chunk)
  let s := (s.raise .GRN_INT_audit_mismatch t).raise .GRN_INT_audit_mismatch u
  let s := if s.active t then s.leaveActive t true else s
  if s.active u then s.leaveActive u true else s

/-- What the checks of a release find, as those of an update. -/
def releaseChecks : ReleaseTrouble → EngineTrouble
  | .none => .none
  | .residueOnce => .residueOnce
  | .residueTwice => .residueTwice
  | .corrected line => .corrected line
  | .lost line => .lost line
  | .auditDiffers => .none

/-- The release of a good chunk, its audit copy complete where it has one: checks of the final reads (R212, R213), the copy's
finding `cp`; the comparison (R217), and the result. -/
def releaseGood (s : Blk) (t : Nat) (c : ChunkRec) (tr : ReleaseTrouble) (cp : EngineTrouble) : Blk :=
  let copy := c.audit.bind fun u => ((s.engine u).copies.find? fun k => k.id = c.id).map fun k => (u, k)
  let agree := fun (s : Blk) (u : Nat) (k : ChunkRec) =>
    if tr = .auditDiffers || roundChunk k ≠ roundChunk c then s.auditMismatch t u c else s.releaseResult t c true
  let finish := fun (s : Blk) =>
    match copy with
    | none => s.releaseResult t { c with audit := none } false
    | some (u, k) =>
      let s := s.noteTrouble u c.op c.id.chunk cp
      match cp with
      | .lost _ => (s.abandonAudit t c).releaseResult t { c with audit := none } false
      | .residueTwice =>
        if c.op ≤ 1 then (s.leaveActive u true).releaseResult t { c with audit := none } false else agree s u k
      | _ => agree s u k
  let s := s.noteTrouble t c.op c.id.chunk (releaseChecks tr)
  match tr with
  | .residueTwice => if c.op ≤ 1 then s.leaveActive t true else finish s
  | .lost _ => (s.failChunk t c 2).retireChunk t c.id
  | _ => finish s

/-- A chunk to which every member has contributed is released (R195, R196, R206). -/
def releaseChunk (s : Blk) (t ctx chunk : Nat) (tr : ReleaseTrouble) (cp : EngineTrouble) : Blk :=
  match (s.engine t).chunks.find? fun c => c.id.ctx = ctx && c.id.chunk = chunk && c.full with
  | none => s
  | some c =>
    let ready := match c.audit with
      | none => true
      | some u => (((s.engine u).copies.find? fun k => k.id = c.id).map ChunkRec.full).getD true
    if c.status ≠ 0 then s.retireChunk t c.id
    else if s.active t && ready then s.releaseGood t c tr cp
    else s

/-- Abort every chunk of a context (R249). -/
def abortChunks (s : Blk) (ctx : Nat) : Blk :=
  (List.range 32).foldl (fun s t =>
    ((s.engine t).chunks.filter fun c => c.id.ctx = ctx).foldl (fun s c =>
      (if c.status = 0 then s.failChunk t c 8 else s).retireChunk t c.id) s) s

/-- GRN_STATUS shows an engine's state and its substitute (R214, R215). -/
def showEngine (s : Blk) (t state : Nat) : Blk :=
  (s.setFld .GRN_STATUS_state t state).setFld .GRN_STATUS_subst t ((s.engine t).subst.getD 0)

/-- An engine loses its open chunks without a result, and all it holds but the substitute fixed as it leaves ACTIVE (R214, R215,
R412). -/
def loseEngine (s : Blk) (t state : Nat) : Blk :=
  let s := s.abandonAudits t
  let s := (s.engine t).chunks.foldl (fun s c => s.freeSpace t c) s
  let s := s.endAsks t fun _ => true
  let sub := if state = 1 then none else if s.active t then s.pickSubst t else (s.engine t).subst
  (s.updEngine t fun _ => { Engine.reset with subst := sub }).showEngine t state

end Blk

/-! ### Commands -/

/-- CONTRIB_ACCEPT (R195): a contribution that its context has taken reaches its engine; `trouble` is what the checks of the
engine find, and of that of its audit copy. -/
def execContribAccept (frame : Nat) (trouble : UpdateFindings) (s : State) : Host.Outcome State Fault Refusal :=
  run (fun b => if (b.refuser frame).isSome then b else b.deliver frame trouble.engine trouble.copy) s

/-- SPILL_REQUEST (R208): an engine's oldest request not yet decided is put before its die's allocator, and the allocator's clock
decides it, after `idle` clocks without a request. -/
def execSpillRequest (tile : TileId) (idle : Nat) (s : State) : Host.Outcome State Fault Refusal :=
  run (fun b =>
    match (b.spill tile).find? fun a => a.want ≠ 0 with
    | none => b
    | some a =>
      let d := dieOfTile tile
      let q := (tile.val, Request.spill tile a.frame)
      (b.updBsl d fun x => { x with requests := if (x.carried ++ x.requests).contains q then x.requests else
        x.requests ++ [q] }).decideClock d idle) s

/-- CONTRIB_RETRY (R209). -/
def execContribRetry (frame : Nat) (trouble : UpdateFindings) (s : State) : Host.Outcome State Fault Refusal :=
  run (·.contribRetry frame trouble.engine trouble.copy) s

/-- SPILL_WAIT_TIMEOUT (R209). -/
def execSpillWaitTimeout (frame : Nat) (s : State) : Host.Outcome State Fault Refusal := run (·.spillTimeout frame) s

/-- CHUNK_RELEASE (R206). -/
def execChunkRelease (tile : TileId) (group : BitVec 12) (seq : BitVec 16) (chunk : BitVec 18) (trouble : ReleaseFindings)
    (s : State) : Host.Outcome State Fault Refusal :=
  run (·.releaseChunk tile (ctxNum group.toNat seq.toNat) chunk.toNat trouble.engine trouble.copy) s

/-- QUARANTINE (R215). -/
def execQuarantine (tile : TileId) (s : State) : Host.Outcome State Fault Refusal := run (·.quarantine tile) s

/-- GARNET_RELEASE (R215). -/
def execGarnetRelease (tile : TileId) (s : State) : Host.Outcome State Fault Refusal := run (·.unquarantine tile) s

/-- EVACUATION_DONE (R216). -/
def execEvacuationDone (tile : TileId) (s : State) : Host.Outcome State Fault Refusal := run (·.evacuate tile) s

/-- SELFTEST_DONE (R215). -/
def execSelftestDone (tile : TileId) (pass : Bool) (s : State) : Host.Outcome State Fault Refusal :=
  run (·.selfTestDone tile pass) s

/-- IST_TURN_EXPIRY (R218). -/
def execIstTurnExpiry (s : State) : Host.Outcome State Fault Refusal := run (·.istTurn) s

/-- IST_PASS_DONE (R218). -/
def execIstPassDone (pass : Bool) (s : State) : Host.Outcome State Fault Refusal := run (·.istDone pass) s

end Sys2Proof.Machine
end

