-- ==== Sys2Proof/Machine/Collective.lean ====
section
/-!
DEFINITION. Collective operations (chapter 7): descriptors, groups and members, tokens, the checks of received frames,
contexts, their ends and their records; and the replication logic (R28, R29).
-/

namespace Sys2Proof.Machine

namespace Blk

/-- The fields of a descriptor's 64 bytes (R229). -/
def colDesc (w : Bytes64) : ColDesc :=
  { sigFail := w.getLsbD 503, notify := w.getLsbD 502, group := w.extractLsb' 480 12, seq := w.extractLsb' 464 16,
    fmt := w.extractLsb' 460 4, op := w.extractLsb' 456 4, chunks := w.extractLsb' 416 32, member := w.extractLsb' 400 16,
    timeout := w.extractLsb' 384 16, waitTok := w.extractLsb' 368 16, sigTok := w.extractLsb' 352 16,
    waitVal := w.extractLsb' 320 32, tag := w.extractLsb' 288 32, cring := w.extractLsb' 272 10, addr := w.extractLsb' 192 64,
    args := beBytes 24 (w.extractLsb' 0 192).toNat }

/-- The kind of a descriptor (R229). -/
def descKind (w : Bytes64) : Nat := (w.extractLsb' 504 8).toNat

/-! ### Records and tokens -/

/-- A token is increased (R232). -/
def signal (s : Blk) (d : ColDesc) (ok : Bool) : Blk :=
  if d.sigTok = 0xFFFF || !(ok || d.sigFail) then s
  else
    let k := d.sigTok.toNat % 4096
    s.setFld .COL_TOKEN_value k (s.fld .COL_TOKEN_value k + 1)

/-- The token condition of a descriptor (R232). -/
def tokenHolds (s : Blk) (d : ColDesc) : Bool :=
  d.waitTok = 0xFFFF || (s.fld .COL_TOKEN_value (d.waitTok.toNat % 4096) + 2 ^ 32 - d.waitVal.toNat) % 2 ^ 32 < 2 ^ 31

/-- A descriptor's record is written: it is counted, and its token signalled (R252, R253). -/
def descEnds (s : Blk) (d : ColDesc) (status : Nat) : Blk :=
  let s := if status = 0 then s.count .COL_COMPLETED_count 0 1 else (s.count .COL_FAILED_count 0 1).raise .COL_INT_ctx_fail 0
  let s := if status = 0x16 then s.raise .COL_INT_fence_timeout 0 else s
  let s := if status = 0x10 || status = 0x17 then s.raise .COL_INT_desc_err 0 else s
  s.signal d (status = 0)

/-- A descriptor that opens no context ends with its record (R252, R477). -/
def endDesc (s : Blk) (kind : Nat) (d : ColDesc) (status : Nat) : Blk :=
  s.postWork d.cring.toNat 1 (beBytes 1 status ++ beBytes 1 kind ++ beBytes 2 d.group.toNat ++ beBytes 2 d.seq.toNat ++ beBytes 2 0 ++
    beBytes 4 d.tag.toNat ++ List.replicate 20 0) (.desc d status) (·.descEnds d status)

/-- The record of a context (R252). -/
def ctxRecord (s : Blk) (c : CtxRec) (mapped : Bool) : List Byte :=
  let miss := c.missing
  let pure := c.status = 6
  beBytes 1 c.status ++ beBytes 1 c.kind ++ beBytes 2 c.desc.group.toNat ++ beBytes 2 c.desc.seq.toNat ++ beBytes 1 c.epoch ++
    beBytes 1 c.flags ++ beBytes 4 c.desc.tag.toNat ++ beBytes 4 c.chunksOk ++ beBytes 1 (if pure then 0 else c.badStatus) ++
    beBytes 1 ((if c.lostCopy then 128 else 0) + (if mapped then 64 else 0)) ++ beBytes 2 miss.length ++
    beBytes 2 (miss.head?.getD 0xFFFF) ++ beBytes 2 0 ++ beBytes 4 (min (s.now - c.openedAt) (2 ^ 32 - 1)) ++
    beBytes 4 (if pure then 0 else c.badChunk)

/-! ### Descriptors (R230, R231) -/

/-- A descriptor may start: the controller is enabled, the queue has it at its head and its token condition holds (R231,
R232, R254). -/
def mayStart (s : Blk) (q : Nat) (d : ColDesc) : Bool := s.flag .COL_CTL_en 0 && s.cqHas q && s.tokenHolds d

/-- A descriptor starts, or waits at its queue's head with nothing changed (R231). -/
def start (s : Blk) (q : Nat) (d : ColDesc) (cond : Bool) (f : Blk → Blk) : Blk :=
  if s.mayStart q d && cond then f (s.cqAdvance q) else s

/-- A group's entry as the controller reads it. -/
def group (s : Blk) (g : Nat) : Nat := s.groupEntry s.liveDie g

/-- The group is valid (R224). -/
def groupValid (s : Blk) (g : Nat) : Bool := (s.group g).testBit 127

/-- Members and first member entry of a group entry (R224). -/
def groupRun (e : Nat) : Nat × Nat := (bits e 106 96, bits e 95 80)

/-- The group conditions of kinds 0x01 to 0x05 (R231). -/
def roomFor (s : Blk) (g : Nat) : Bool :=
  let e := s.group g
  let h := s.groupState g
  !h.fenced && (!s.groupValid g || bits e 119 112 = 0 || h.open_ < bits e 119 112) && s.fld .COL_STATUS_open 0 < 16384

/-- A context as a descriptor would open it (R240). -/
def newCtx (s : Blk) (kind : Nat) (d : ColDesc) : CtxRec :=
  let g := d.group.toNat
  let e := s.group g
  let (n, first) := groupRun e
  { kind := kind, desc := d, epoch := (s.groupState g).epoch,
    members := (List.range n).map fun m =>
      let x := s.memberEntry s.liveDie (first + m)
      (bits x 39 30, bits x 19 0),
    entry := e, chunks := if kind = 5 then 1 else d.chunks.toNat % 2 ^ 19, state := .opened, status := 0, marked := false, run := s.nextWork, recorded := false,
    taken := [], openedAt := s.now, chunksOk := 0, flags := 0, badStatus := 0, badChunk := 0, lostCopy := false,
    stream := if s.flag .SHL_GRP_MAP_valid g then some (s.fld .SHL_GRP_MAP_stream g) else none }

/-- The fields of a descriptor that opens a context are within R230. -/
def fieldsOk (s : Blk) (kind : Nat) (d : ColDesc) : Bool :=
  let k := d.chunks.toNat % 2 ^ 19
  (kind = 5 || (1 ≤ k && k ≤ 262144)) && (2 < kind || (d.fmt.toNat ≤ 8 && d.op.toNat ≤ 5)) &&
  (kind ≠ 4 || !s.groupValid d.group.toNat || d.member.toNat % 1024 < (groupRun (s.group d.group.toNat)).1)

/-- A pair that a context needs is down in some direction (R231, R247). -/
def pathDown (s : Blk) (c : CtxRec) : Bool :=
  (List.range 6).any fun p => c.needsPair p && (s.liveLinks (2 * p) = 0 || s.liveLinks (2 * p + 1) = 0)

/-- A descriptor of kinds 0x01 to 0x05 starts: the checks of R231, and the context opens (R243). -/
def openCtx (s : Blk) (q kind : Nat) (d : ColDesc) : Blk :=
  let g := d.group.toNat
  let k := ctxNum g d.seq.toNat
  s.start q d (s.roomFor g) fun s =>
    let c := s.newCtx kind d
    if !s.fieldsOk kind d then s.endDesc kind d 0x10
    else if !s.groupValid g then s.endDesc kind d 0x11
    else if (s.ctx? k).isSome then s.endDesc kind d 0x12
    else if s.pathDown c then s.endDesc kind d 5
    else
      (({ s with nextWork := s.nextWork + 1 }.putCtx k c).updGroup g fun h => { h with open_ := h.open_ + 1 }).setFld .COL_STATUS_open 0
        (s.fld .COL_STATUS_open 0 + 1)

/-- ABORT (R248). -/
def abortCtx (s : Blk) (q : Nat) (d : ColDesc) : Blk :=
  let k := ctxNum d.group.toNat d.seq.toNat
  s.start q d true fun s =>
    match s.ctx? k with
    | none => s.endDesc 8 d 0x14
    | some c => if c.state = .failing || c.recorded then s.endDesc 8 d 0x14 else (s.putCtx k (c.fail 4)).endDesc 8 d 0

/-- REBIND (R241): the group is fenced. -/
def rebind (s : Blk) (q : Nat) (d : ColDesc) : Blk :=
  let g := d.group.toNat
  s.start q d (!(s.groupState g).fenced) fun s =>
    let m := d.member.toNat % 1024
    let x := beAt d.args 0 8
    if !s.groupValid g then s.endDesc 9 d 0x11
    else if (groupRun (s.group g)).1 ≤ m then s.endDesc 9 d 0x10
    else if !x.testBit 63 then s.endDesc 9 d 0x15
    else { s.updGroup g fun h => { h with fenced := true } with fences := s.fences.put g ⟨d, m, x⟩ }

/-- Write a group entry into all four die copies; the hardware's fields are not stored with it (R224, R225). -/
def putGroup (s : Blk) (g w : Nat) : Blk :=
  let w := w % 2 ^ 128 - (if (w % 2 ^ 128).testBit 125 then 2 ^ 125 else 0) - bits w 79 72 * 2 ^ 72
  { s with groups := (List.range 4).foldl (fun (t : Tab Nat) d => t.set 0 (4096 * d + g) w) s.groups }

/-- Write a member entry into all four die copies. -/
def putMember (s : Blk) (i w : Nat) : Blk :=
  { s with members := (List.range 4).foldl (fun (t : Tab Nat) d => t.set 0 (65536 * d + i) (w % 2 ^ 64)) s.members }

/-- The epoch of a group advances (R240). -/
def nextEpoch (s : Blk) (g : Nat) : Blk := s.updGroup g fun h => { h with epoch := (h.epoch + 1) % 256 }

/-- The group is fenced or has a context open (R242). -/
def groupBusy (s : Blk) (g : Nat) : Bool := (s.groupState g).fenced || (s.groupState g).open_ ≠ 0

/-- GROUP_SET (R242); `data`: bytes 0 to 15 as the DMA engine reads them, none where the read fails. -/
def groupSet (s : Blk) (q : Nat) (d : ColDesc) (data : Option (List Byte)) : Blk :=
  let g := d.group.toNat
  s.start q d true fun s =>
    if s.groupBusy g then s.endDesc 0xA d 0x13
    else match data with
      | none => s.endDesc 0xA d 0x17
      | some bs =>
        let e := beAt bs 0 16
        let (n, first) := groupRun e
        if d.addr = 0 then s.endDesc 0xA d 0x17
        else if n = 0 || 1024 < n || 65536 < first + n || bits e 61 56 = 0 || 32 < bits e 61 56 then s.endDesc 0xA d 0x10
        else if (List.range n).any fun m => !(s.memberEntry s.liveDie (first + m)).testBit 63 then s.endDesc 0xA d 0x15
        else ((s.putGroup g e).nextEpoch g).endDesc 0xA d 0

/-- GROUP_CLEAR (R242). -/
def groupClear (s : Blk) (q : Nat) (d : ColDesc) : Blk :=
  let g := d.group.toNat
  s.start q d true fun s =>
    if s.groupBusy g then s.endDesc 0xB d 0x13 else ((s.putGroup g 0).nextEpoch g).endDesc 0xB d 0

/-- An entry lies in the member run of a valid group (R242). -/
def inRun (s : Blk) (lo n : Nat) : Bool :=
  s.groups.any fun kv =>
    kv.1 / 4096 = s.liveDie && kv.2.testBit 127 &&
    (groupRun kv.2).2 < lo + n && lo < (groupRun kv.2).2 + (groupRun kv.2).1

/-- MEMBER_SET (R242). -/
def memberSet (s : Blk) (q : Nat) (d : ColDesc) (data : Option (List Byte)) : Blk :=
  s.start q d true fun s =>
    let first := beAt d.args 0 4
    let n := beAt d.args 4 2
    if n = 0 || 1024 < n || 65536 < first + n then s.endDesc 0xC d 0x10
    else if s.inRun first n then s.endDesc 0xC d 0x13
    else match data with
      | none => s.endDesc 0xC d 0x17
      | some bs =>
        if d.addr = 0 then s.endDesc 0xC d 0x17
        else ((List.range n).foldl (fun s i => s.putMember (first + i) (beAt (bs.drop (8 * i)) 0 8)) s).endDesc 0xC d 0

/-- The open count of a fenced group has reached 0: the member is replaced (R241). -/
def rebindCommit (s : Blk) (g : Nat) : Blk :=
  match s.fences.find g with
  | none => s
  | some f =>
    if (s.groupState g).open_ ≠ 0 then s
    else
      let s := ((s.putMember ((groupRun (s.group g)).2 + f.member) f.entry).nextEpoch g).updGroup g fun h => { h with fenced := false }
      ({ s with fences := s.fences.del g }).endDesc 9 f.desc 0

/-- The fence was not cleared in time (R241). -/
def fenceTimeout (s : Blk) (g : Nat) : Blk :=
  match s.fences.find g with
  | none => s
  | some f =>
    if (s.groupState g).open_ = 0 then s
    else
      let s := s.updGroup g fun h => { h with fenced := false }
      ({ s with fences := s.fences.del g }).endDesc 9 f.desc 0x16

/-- A descriptor runs by its kind; one of a reserved kind ends with BAD_DESC (R230). `data`: what the read of its addr returns. -/
def runDesc (s : Blk) (q : Nat) (w : Bytes64) (data : Option (List Byte)) : Blk :=
  let d := colDesc w
  match descKind w with
  | 1 => s.openCtx q 1 d
  | 2 => s.openCtx q 2 d
  | 3 => s.openCtx q 3 d
  | 4 => s.openCtx q 4 d
  | 5 => s.openCtx q 5 d
  | 8 => s.abortCtx q d
  | 9 => s.rebind q d
  | 10 => s.groupSet q d data
  | 11 => s.groupClear q d
  | 12 => s.memberSet q d data
  | 15 => s.start q d true fun s => s.endDesc 15 d 0
  | k => s.start q d true fun s => s.endDesc k d 0x10

/-! ### Received frames (R235) -/

/-- The opcode that a context's kind takes (R233, R237). -/
def kindOpcode (kind : Nat) : Nat := if kind ≤ 2 then 0x10 else if kind = 3 then 0x11 else if kind = 4 then 0x12 else 0x13

/-- The first check of R235 that a frame fails. -/
def colCheck (s : Blk) (r : FrameRec) : Option Nat :=
  let a := colArea r.frame.data
  let h := xHeader r.frame.data
  if !(s.groupEntry (dieOfTile r.tile) a.group).testBit 127 then some 0
  else match s.ctx? (ctxNum a.group a.seq) with
    | none => some 1
    | some c =>
      if a.epoch ≠ c.epoch then some 2
      else match c.members[a.member]? with
        | none => some 3
        | some m =>
          if r.link ≠ some m.1 then some 4
          else if c.chunks ≤ a.chunk then some 5
          else if h.tc ≠ 5 || h.opcode ≠ kindOpcode c.kind ||
              a.fmt ≠ (if c.reducing then c.desc.fmt.toNat else 0) || a.op ≠ (if c.reducing then c.desc.op.toNat else 0) ||
              (c.kind = 4 && a.member ≠ c.desc.member.toNat % 1024) then some 6
          else if !c.reducing && !c.owes a.member then some 7
          else if c.state ≠ .opened then some 8
          else none

/-- A frame that fails a check is discarded and counted (R235). -/
def colDiscard (s : Blk) (fid tile reason : Nat) : Blk :=
  (s.count .COL_DISCARD_count (9 * tile + reason) 1).dropFrame fid

/-- A context that has taken everything owed stops its timer (R243). -/
def closeIfTaken (c : CtxRec) : CtxRec := if c.state = .opened && c.allTaken then { c with state := .closing } else c

/-- An input for the piece path of a tile (R29). -/
def addPiece (s : Blk) (t : Nat) (i : ReplItem) : Blk :=
  let r := s.repl.get .reset t
  { s with repl := s.repl.set .reset t { r with pieces := r.pieces ++ [i] } }

/-- A frame of a context to its members (R236). -/
def ctxFrame (s : Blk) (t : Nat) (k : Nat) (c : CtxRec) (opcode chunk info : Nat) (payload : List Byte) : Frame × Blk :=
  let area : ColArea := ⟨k / 65536, k % 65536, c.epoch, 0, chunk, 0, 0, 0, info⟩
  s.ownFrame ⟨s.fld .TIL_FWD_CFG_xeirrik_etype t, false, false, 0, 5, bits c.entry 31 12, bits c.entry 55 52, opcode, chunk,
    area.bytes, payload⟩

/-- The members of a context, those that pass a test. -/
def legs (c : CtxRec) (p : Nat → Bool) : List (Nat × Nat × Nat) :=
  ((List.range c.count).zip c.members |>.map fun m => (m.2.1, m.2.2, m.1)).filter fun m => p m.2.2

/-- A contribution passes the checks: its context has taken it, and it goes to its home engine, over Agate where that lies on
another die (R27, R226, R235). With no ACTIVE
engine on the die it is dropped at the ingress tile and not taken (R214). -/
def takeContrib (s : Blk) (fid : Nat) (r : FrameRec) (k : Nat) (c : CtxRec) : Blk :=
  let a := colArea r.frame.data
  match s.engineFor c ⟨k, a.chunk, a.epoch⟩ with
  | none => s.noEngine fid r ⟨k, a.chunk, a.epoch⟩
  | some t =>
    let c := { c with taken := c.taken.put a.chunk (c.taken.get 0 a.chunk ||| 2 ^ a.member) }
    ((s.putCtx k (closeIfTaken c)).putFrame fid { r with dest := .engine }).startCross fid (dieOfTile t)

/-- A piece passes the checks: it is handed to replication, for every member but its sender (R237). -/
def takePiece (s : Blk) (fid : Nat) (r : FrameRec) (k : Nat) (c : CtxRec) : Blk :=
  let a := colArea r.frame.data
  let c := { c with taken := c.taken.put a.member (c.taken.get 0 a.member + 1), chunksOk := c.chunksOk + 1 }
  let payload := (r.frame.data.drop 32).take (xHeader r.frame.data).len
  let (f, s) := s.ctxFrame r.tile k c (if c.kind = 3 then 0x19 else 0x1A) a.chunk 0 payload
  ((s.putCtx k (closeIfTaken c)).putFrame fid { r with dest := .pieces }).addPiece r.tile
    ⟨some fid, .members k c.run (legs c fun m => m ≠ a.member), f, 5, .group (bits c.entry 124 120)⟩

/-- An arrival passes the checks: it crosses to the die of the barrier's home tile where it came in on another (R24, R247), is
counted there, and the last one sends BARRIER_DONE (R29, R237). -/
def takeArrival (s : Blk) (fid : Nat) (r : FrameRec) (k : Nat) (c : CtxRec) : Blk :=
  let a := colArea r.frame.data
  if !s.crossed fid r (dieOfTile (c.home 0)) then s.startCross fid (dieOfTile (c.home 0)) else
  let c := closeIfTaken { c with taken := c.taken.put a.member 1 }
  let s := (s.putCtx k c).dropFrame fid
  if c.state = .closing then
    let t := c.home 0
    let (f, s) := s.ctxFrame t k c 0x1B 0 0 []
    s.addPiece t ⟨none, .members k c.run (legs c fun _ => true), f, 5, .group (bits c.entry 124 120)⟩
  else s

/-- A collective frame of an opcode is checked (R235) and taken. One whose end-to-end check failed is discarded first
(R141, R195); one of an opcode that no member sends is discarded as BAD_KIND (R233). -/
def colReceive (s : Blk) (fid opcode : Nat) : Blk :=
  match s.frame? fid with
  | none => s
  | some r =>
    if r.dest = .garnet && r.whole && (xHeader r.frame.data).opcode = opcode then
      if r.chkFail then s.dropFrame fid
      else if ¬(0x10 ≤ opcode ∧ opcode ≤ 0x13) then s.colDiscard fid r.tile 6
      else match s.colCheck r with
        | some reason => s.colDiscard fid r.tile reason
        | none =>
          let a := colArea r.frame.data
          let k := ctxNum a.group a.seq
          match s.ctx? k with
          | none => s
          | some c =>
            if c.reducing then s.takeContrib fid r k c
            else if c.kind = 5 then s.takeArrival fid r k c
            else s.takePiece fid r k c
    else s

/-! ### The end of a context -/

/-- A copy for members of the context opened as number `run` is still to be enqueued, or a result of it to be replicated or journaled
(R238). -/
def ctxPending (s : Blk) (run : Nat) : Bool :=
  let mine := fun (t : Target) => match t with
    | .members _ r _ => r = run
    | _ => false
  s.copies.any (fun kv => mine kv.2.target && (undecided kv.2 || kv.2.phase = .granted || kv.2.todo ≠ [])) ||
  s.repl.any (fun kv => (kv.2.garnet ++ kv.2.pieces).any fun (i : ReplItem) => mine i.target) ||
  s.journal.any fun (j : JournalItem) => j.run = run

/-- A context leaves its slot. -/
def freeCtx (s : Blk) (k : Nat) : Blk :=
  ({ s with contexts := s.contexts.del k }.updGroup (k / 65536) fun h => { h with open_ := h.open_ - 1 }).setFld
    .COL_STATUS_open 0 (s.fld .COL_STATUS_open 0 - 1)

/-- A context's record is written, and it leaves its slot (R243). -/
def ctxEnds (s : Blk) (k : Nat) : Blk :=
  match s.ctx? k with
  | none => s
  | some c => (s.freeCtx k).descEnds c.desc (if c.state = .failing then c.status else 0)

/-- The last step of a context: its record, for which it waits in its slot while the pending buffer is full (R243, R477). -/
def recordCtx (s : Blk) (k : Nat) (c : CtxRec) (mapped : Bool) : Blk :=
  (s.putCtx k { c with recorded := true }).postWork c.desc.cring.toNat 1 (s.ctxRecord c mapped) (.ctx k) (·.ctxEnds k)

/-- A CLOSING context for which R238 holds writes its record. One marked by a reset does not end so (R413). -/
def finishCtx (s : Blk) (k : Nat) : Blk :=
  match s.ctx? k with
  | none => s
  | some c =>
    if c.state = .closing && !c.marked && !c.recorded && (!c.reducing || c.chunksOk = c.chunks) && !s.ctxPending c.run then
      s.recordCtx k c false
    else s

/-- The missing map of R249. -/
def missingMap (c : CtxRec) : List Byte :=
  let miss := c.missing
  (List.range 128).map fun i =>
    BitVec.ofNat 8 (((List.range 8).filter fun b => miss.contains (8 * i + b)).map fun b => 2 ^ b).sum

/-- STATUS frames to the members whose links are UP or in KEEPALIVE, from the home tile of chunk 0 (R249, R250). -/
def sendStatus (s : Blk) (k : Nat) (c : CtxRec) : Blk :=
  let t := c.home 0
  let to_ := legs c fun m => match c.members[m]? with
    | none => false
    | some x => s.isIn x.1 .up || s.isIn x.1 .keepalive
  if to_ = [] then s
  else
    let (f, s) := s.ctxFrame t k c 0x1C 0 c.status []
    s.emitFrame t (.members k c.run to_) f 5 (.group (bits c.entry 124 120))

/-- The steps of R249 on a failing context. The last one alone waits while the pending buffer is full (R477). -/
def failCtx (s : Blk) (k : Nat) : Blk :=
  match s.ctx? k with
  | none => s
  | some c =>
    if c.state = .failing && !c.recorded then
      let s := s.abortChunks k
      let c := (s.ctx? k).getD c
      let mapped := c.desc.addr ≠ 0 && (c.status = 1 || c.status = 2)
      let s := if mapped then s.emit (.dmaWrite false c.desc.addr.toNat (missingMap c)) else s
      let s := if c.desc.notify then s.sendStatus k c else s
      s.recordCtx k c mapped
    else s

/-- The timer of an OPEN context expires (R243), or of one that a reset marked, which ends at its timeout at the latest (R413;
DEDUCED, log entry 177). -/
def ctxTimeout (s : Blk) (k : Nat) : Blk :=
  match s.ctx? k with
  | none => s
  | some c => if c.state = .opened || (c.state = .closing && c.marked) then s.putCtx k (c.fail 1) else s

/-! ### Replication (R28, R29) -/

/-- Replicate one input: a piece from its place in staging, anything else as a frame of the tile's own. -/
def replicate (s : Blk) (t : Nat) (i : ReplItem) : Blk :=
  match i.piece with
  | none => s.emitFrame t i.target i.frame i.cls i.node
  | some fid =>
    match s.frame? fid with
    | none => s
    | some r => (s.putFrame fid { r with dest := .copies }).makeCopies fid i.target i.frame i.cls i.node r.link r.tile false

/-- Take one input of source `k`, if it has one. -/
def takeSource (r : ReplTile) (k : Nat) : Option (ReplItem × ReplTile) :=
  match k, r.garnet, r.restore, r.pieces with
  | 0, i :: t, _, _ => some (i, { r with garnet := t, last := 0 })
  | 1, _, i :: t, _ => some (i, { r with restore := t, last := 1 })
  | 2, _, _, i :: t => some (i, { r with pieces := t, last := 2 })
  | _, _, _, _ => none

/-- One core clock of a tile's replication logic: the first source with input, starting after the one served last. -/
def replicationTake (s : Blk) (t : Nat) : Blk :=
  let r := s.repl.get .reset t
  match (List.range 3).findSome? fun k => takeSource r ((r.last + 1 + k) % 3) with
  | none => s
  | some (i, r') => ({ s with repl := s.repl.set .reset t r' }).replicate t i

end Blk

/-! ### Commands -/

/-- REPLICATION_TAKE (R29). -/
def execReplicationTake (tile : TileId) (s : State) : Host.Outcome State Fault Refusal := run (·.replicationTake tile) s

/-- ALL_REDUCE (R237). -/
def execAllReduce (queue : QueueId) (desc : Bytes64) (s : State) : Host.Outcome State Fault Refusal :=
  run (·.runDesc queue desc none) s

/-- REDUCE_SCATTER (R237). -/
def execReduceScatter (queue : QueueId) (desc : Bytes64) (s : State) : Host.Outcome State Fault Refusal :=
  run (·.runDesc queue desc none) s

/-- ALL_GATHER (R237). -/
def execAllGather (queue : QueueId) (desc : Bytes64) (s : State) : Host.Outcome State Fault Refusal :=
  run (·.runDesc queue desc none) s

/-- BROADCAST (R237). -/
def execBroadcast (queue : QueueId) (desc : Bytes64) (s : State) : Host.Outcome State Fault Refusal :=
  run (·.runDesc queue desc none) s

/-- BARRIER (R237). -/
def execBarrier (queue : QueueId) (desc : Bytes64) (s : State) : Host.Outcome State Fault Refusal :=
  run (·.runDesc queue desc none) s

/-- ABORT (R248). -/
def execAbort (queue : QueueId) (desc : Bytes64) (s : State) : Host.Outcome State Fault Refusal :=
  run (·.runDesc queue desc none) s

/-- REBIND (R241). -/
def execRebind (queue : QueueId) (desc : Bytes64) (s : State) : Host.Outcome State Fault Refusal :=
  run (·.runDesc queue desc none) s

/-- GROUP_SET (R242). -/
def execGroupSet (queue : QueueId) (desc : Bytes64) (data : Option (List Byte)) (s : State) : Host.Outcome State Fault Refusal :=
  run (·.runDesc queue desc data) s

/-- GROUP_CLEAR (R242). -/
def execGroupClear (queue : QueueId) (desc : Bytes64) (s : State) : Host.Outcome State Fault Refusal :=
  run (·.runDesc queue desc none) s

/-- MEMBER_SET (R242). -/
def execMemberSet (queue : QueueId) (desc : Bytes64) (data : Option (List Byte)) (s : State) : Host.Outcome State Fault Refusal :=
  run (·.runDesc queue desc data) s

/-- NOP (R230): tokens only; and a descriptor of a reserved kind. -/
def execNop (queue : QueueId) (desc : Bytes64) (s : State) : Host.Outcome State Fault Refusal :=
  run (·.runDesc queue desc none) s

/-- TOKEN_WRITE (R232). -/
def execTokenWrite (token : Fin 4096) (value : BitVec 32) (s : State) : Host.Outcome State Fault Refusal :=
  run (·.setFld .COL_TOKEN_value token value.toNat) s

/-- CONTRIB (R235). -/
def execContrib (frame : Nat) (s : State) : Host.Outcome State Fault Refusal := run (·.colReceive frame 0x10) s

/-- GATHER (R235). -/
def execGather (frame : Nat) (s : State) : Host.Outcome State Fault Refusal := run (·.colReceive frame 0x11) s

/-- BCAST (R235). -/
def execBcast (frame : Nat) (s : State) : Host.Outcome State Fault Refusal := run (·.colReceive frame 0x12) s

/-- BARRIER_ARRIVAL (R235). -/
def execBarrierArrival (frame : Nat) (s : State) : Host.Outcome State Fault Refusal := run (·.colReceive frame 0x13) s

/-- CONTEXT_TIMEOUT (R243). -/
def execContextTimeout (group : BitVec 12) (seq : BitVec 16) (s : State) : Host.Outcome State Fault Refusal :=
  run (·.ctxTimeout (ctxNum group.toNat seq.toNat)) s

/-- CONTEXT_FINISH (R238). -/
def execContextFinish (group : BitVec 12) (seq : BitVec 16) (s : State) : Host.Outcome State Fault Refusal :=
  run (·.finishCtx (ctxNum group.toNat seq.toNat)) s

/-- CONTEXT_FAILURE (R249). -/
def execContextFailure (group : BitVec 12) (seq : BitVec 16) (s : State) : Host.Outcome State Fault Refusal :=
  run (·.failCtx (ctxNum group.toNat seq.toNat)) s

/-- REBIND_COMMIT (R241). -/
def execRebindCommit (group : BitVec 12) (s : State) : Host.Outcome State Fault Refusal := run (·.rebindCommit group.toNat) s

/-- FENCE_TIMEOUT (R241). -/
def execFenceTimeout (group : BitVec 12) (s : State) : Host.Outcome State Fault Refusal := run (·.fenceTimeout group.toNat) s

end Sys2Proof.Machine
end

