-- ==== Sys2Proof/Machine/Gneiss.lean ====
section
/-!
DEFINITION. The Gneiss store (chapter 8): placement of blocks and copies (R31, R257, R258), lines and their metadata (R259,
R270), what a line reads as and what an update does to it (R265, R270, R273, R451), and responses (R266, R267).
-/

namespace Sys2Proof.Machine

/-- The store blocks in all (R257). -/
def storeBlocks : Nat := 150994944

namespace RegionRec

/-- The logical size in bytes (R261). -/
def size (r : RegionRec) : Nat := r.blocks * (if r.dup then 2048 else 4096)

/-- The store lines that hold logical line `n`, the first copy first (R257, R258). -/
def copies (r : RegionRec) (n : Nat) : List Nat :=
  let b := n / 16
  let line := fun (block : Nat) => block * 16 + n % 16
  if r.dup then
    let first := r.base + 12 * (b / 6) + b % 6
    line first :: line (first + 6) :: []
  else line (r.base + b) :: []

end RegionRec

/-- The stack of a store line (R257). -/
def lineStack (x : Nat) : Nat := x / 16 % 12

/-- The die of a store line. -/
def lineDie (x : Nat) : Nat := lineStack x / 3

/-- The address of a store line within its stack (R257). -/
def lineAddr (x : Nat) : Nat := x / 16 / 12 * 4096 + x % 16 * 256

/-- What a line reads as. -/
inductive LineRead where
  /-- Its 256 bytes; whether it was never-written; whether it was served from the second copy. -/
  | ok (bytes : List Byte) (never copy2 : Bool)
  | memErr
  | stackDown
  deriving DecidableEq, Repr

/-- Merge bytes into a line from `lo` on. -/
def overlay (line : List Byte) (lo : Nat) (bs : List Byte) : List Byte := line.take lo ++ bs ++ line.drop (lo + bs.length)

/-- An atomic on a big-endian word (R265): the new value. `b` is the second operand of a CAS. -/
def atomicNew (opcode w prior a b : Nat) : Nat :=
  match opcode with
  | 0x48 => (prior + a) % 256 ^ w
  | 0x49 => (prior + a) % 256 ^ w
  | 0x4A => a
  | 0x4B => if prior = a then b else prior
  | 0x4C => prior ||| a
  | _ => prior &&& a

/-- An entry's width: the bytes it stores, or w of an atomic. -/
def UpdEntry.width (e : UpdEntry) : Nat := if e.opcode = 0x4B then e.data.length / 2 else e.data.length

/-- The line after an entry has been applied to it (R265, R270). -/
def UpdEntry.onto (e : UpdEntry) (line : List Byte) : List Byte :=
  if e.opcode = 0x41 then overlay line e.lo e.data
  else
    let w := e.width
    overlay line e.lo (beBytes w (atomicNew e.opcode w (beAt line e.lo w) (beAt e.data 0 w) (beAt e.data w w)))

/-- A WRITE of the whole line. -/
def UpdEntry.whole (e : UpdEntry) : Bool := e.opcode = 0x41 && e.lo = 0 && e.data.length = 256

namespace Blk

/-- A region descriptor. -/
def region (s : Blk) (i : Nat) : RegionRec := s.regions.get .reset i

/-- Replace a region descriptor. -/
def putRegion (s : Blk) (i : Nat) (r : RegionRec) : Blk := { s with regions := s.regions.set .reset i r }

/-- A stack serves: its interface domain and its die's management domain are ON (R39, R416, R421). -/
def stackUp (s : Blk) (h : Nat) : Bool := s.domOn (96 + h) && s.domOn (156 + h / 3)

/-- A copy of a line is live: its stack serves and its block is not stale (R275). -/
def liveLine (s : Blk) (x : Nat) : Bool := s.stackUp (lineStack x) && !s.stale.get false (x / 16)

/-- A line's metadata. -/
def meta_ (s : Blk) (x : Nat) : LineMeta := s.lineMeta.get .reset x

/-- Replace a line's metadata. -/
def putMeta (s : Blk) (x : Nat) (m : LineMeta) : Blk := { s with lineMeta := s.lineMeta.set .reset x m }

/-- A line is never-written for a region (R259). -/
def neverWritten (s : Blk) (x i gen : Nat) : Bool :=
  let m := s.meta_ x
  !m.written || m.region ≠ i || m.gen ≠ gen

/-- The 256 bytes of a store line. -/
def lineBytes (s : Blk) (x : Nat) : List Byte := (List.range 256).map fun k => s.hbm.get 0 (256 * x + k)

/-- Write the 256 bytes of a store line. -/
def putBytes (s : Blk) (x : Nat) (bs : List Byte) : Blk :=
  { s with hbm := ((List.range 256).zip bs).foldl (fun (t : Tab Byte) kb => t.set 0 (256 * x + kb.1) kb.2) s.hbm }

/-- The poisoned copies of a line that has a good one are rewritten from it, and reported (R451). -/
def repairLine (s : Blk) (xs : List Nat) : Blk :=
  match xs.find? fun x => s.liveLine x && !(s.meta_ x).poison with
  | none => s
  | some good =>
    (xs.filter fun x => s.liveLine x && (s.meta_ x).poison && !(s.meta_ x).retired).foldl (fun s x =>
      ((s.putBytes x (s.lineBytes good)).putMeta x { s.meta_ good with poison := false, retired := false }).reportError
        (.hbmFromCopy (lineStack x) (lineAddr x))) s

/-- The store line by which a logical line is known: that of its first copy. -/
def storeLine (s : Blk) (i n : Nat) : Nat := (((s.region i).copies n).head?).getD 0

/-- The first copy of a line is not live: the second one serves it (R275). -/
def secondServes (s : Blk) (xs : List Nat) : Bool := !(xs.head?.any fun x => s.liveLine x)

/-- Read a logical line of a region as it stands in the hot-line buffer (R273), or in HBM: from its first live copy that is not
poisoned (R258, R270, R275, R451). -/
def readStored (s : Blk) (i n : Nat) : LineRead :=
  let r := s.region i
  let xs := r.copies n
  let live := xs.filter fun x => s.liveLine x
  match s.hot.find (s.storeLine i n), live.find? fun x => !(s.meta_ x).poison with
  | some h, _ =>
    if live = [] then .stackDown
    else
      let never := h.region ≠ i || h.gen ≠ r.gen
      .ok (if never then List.replicate 256 0 else h.bytes) never (s.secondServes xs)
  | none, some x =>
    let never := s.neverWritten x i r.gen
    .ok (if never then List.replicate 256 0 else s.lineBytes x) never (xs.head? ≠ some x)
  | none, none => if live = [] then .stackDown else .memErr

/-- The die whose engine serves a logical line: that of its first live copy. -/
def engineDie (s : Blk) (i n : Nat) : Nat :=
  let xs := (s.region i).copies n
  lineDie (((xs.find? fun x => s.liveLine x).orElse fun _ => xs.head?).getD 0)

/-- A die's update queue. -/
def updQueue (s : Blk) (d : Nat) : List UpdEntry := s.updates.get [] d

/-- Replace a die's update queue; GNS_CQ_STATUS follows (R283). -/
def putUpdates (s : Blk) (d : Nat) (q : List UpdEntry) : Blk :=
  let s := ({ s with updates := s.updates.set [] d q }).setFld .GNS_CQ_STATUS_used d q.length
  s.setFld .GNS_CQ_STATUS_peak d (max (s.fld .GNS_CQ_STATUS_peak d) q.length)

/-- Apply a pending entry to what a line reads as. -/
def afterEntry (e : UpdEntry) : LineRead → LineRead
  | .ok bs _ c2 => .ok (e.onto bs) false c2
  | .memErr => if e.whole then .ok e.data false false else .memErr
  | .stackDown => .stackDown

/-- Every live copy of a logical line lies in a retired row: no WRITE changes it (R451). -/
def allRetired (s : Blk) (i n : Nat) : Bool :=
  (((s.region i).copies n).filter fun x => s.liveLine x).all fun x => (s.meta_ x).retired

/-- What a logical line reads as: every update taken before is seen (R271), but those that a retired line does not take (R451). -/
def readLine (s : Blk) (i n : Nat) : LineRead :=
  let mine := if s.allRetired i n then [] else (List.range 4).flatMap fun d => (s.updQueue d).filter fun e => e.region = i && e.line = n && e.gen = (s.region i).gen
  mine.foldl (fun r e => afterEntry e r) (s.readStored i n)

/-- What a range of a region reads as: its bytes, or the first failure. -/
inductive RangeRead where
  | ok (bytes : List Byte) (nwAny nwAll copy2 : Bool) (never : Nat)
  | memErr
  | stackDown
  deriving DecidableEq, Repr

/-- Add a line to a range. -/
def RangeRead.add : RangeRead → LineRead → RangeRead
  | .ok bs a b c k, .ok x never c2 => .ok (bs ++ x) (a || never) (b && never) (c || c2) (k + if never then 1 else 0)
  | .ok _ _ _ _ _, .memErr => .memErr
  | .ok _ _ _ _ _, .stackDown => .stackDown
  | r, _ => r

/-- The logical lines of a range. -/
def linesOf (off len : Nat) : List Nat := (List.range ((off % 256 + len + 255) / 256)).map fun k => off / 256 + k

/-- Read `len` bytes of a region from `off` on (R269, R270). -/
def readRange (s : Blk) (i off len : Nat) : RangeRead :=
  match ((linesOf off len).map fun n => s.readLine i n).foldl RangeRead.add (.ok [] false true false 0) with
  | .ok bs a b c k => .ok ((bs.drop (off % 256)).take len) a b c k
  | e => e

/-- Poisoned copies met on reading a range are rewritten from good ones (R451). -/
def repairRange (s : Blk) (i off len : Nat) : Blk := (linesOf off len).foldl (fun s n => s.repairLine ((s.region i).copies n)) s

/-- Write the live copies of a line to HBM, and mark its block stale for a stack that is down (R275). Its metadata is set (R270);
poison goes, but for a retired row (R451). -/
def writeCopies (s : Blk) (h : HotLine) : Blk :=
  h.copies.foldl (fun s x =>
    if s.liveLine x then
      (s.putBytes x h.bytes).putMeta x
        { written := true, region := h.region, gen := h.gen, epoch := h.epoch, poison := (s.meta_ x).retired,
          retired := (s.meta_ x).retired }
    else if 1 < h.copies.length && !s.stale.get false (x / 16) then
      ({ s with stale := s.stale.set false (x / 16) true }).count .GNS_STALE_count (lineDie x) 1
    else s) s

/-- A logical line with bytes and a line epoch to be written. -/
def lineWith (s : Blk) (d i n epoch : Nat) (bs : List Byte) : HotLine :=
  ⟨d, (s.region i).copies n, i, (s.region i).gen, epoch, bs⟩

/-- Write a logical line: in the hot-line buffer where it is held there, in HBM otherwise. -/
def writeLine (s : Blk) (i n epoch : Nat) (bs : List Byte) : Blk :=
  match s.hot.find (s.storeLine i n) with
  | some h => { s with hot := s.hot.put (s.storeLine i n) (s.lineWith h.die i n epoch bs) }
  | none => s.writeCopies (s.lineWith 0 i n epoch bs)

/-- A line of the hot-line buffer is written back to HBM (R273). -/
def writeBack (s : Blk) (x : Nat) : Blk :=
  match s.hot.find x with
  | none => s
  | some h => { s with hot := s.hot.del x }.writeCopies h

/-- An update of die `d` has been applied to a line. With more pending on it, the line is held in the die's buffer of 4,096 lines,
where that has room, and the update needs no write of its own (R273). -/
def updateLine (s : Blk) (d i n epoch : Nat) (bs : List Byte) (more : Bool) : Blk :=
  let x := s.storeLine i n
  if more && ((s.hot.find x).isSome || (s.hot.filter fun kv => kv.2.die = d).length < 4096) then
    ({ s with hot := s.hot.put x (s.lineWith d i n epoch bs) }).count .GNS_COMBINED_count d 1
  else ({ s with hot := s.hot.del x }).writeCopies (s.lineWith d i n epoch bs)

/-! ### Own frames and responses -/

/-- A frame of the spine's own goes to an endpoint, from Gneiss's node (R267, R294, R295). -/
def sendTo (s : Blk) (tile dst tc : Nat) (f : Frame) : Blk :=
  match s.endpointLink tile dst tc f with
  | (none, s) => s
  | (some l, s) => s.emitFrame tile (.link l) f tc .gneiss

/-- The opcode that answers a request (R265); a request whose opcode is not defined is answered by one of the three. -/
def respOpcode (s : Blk) (opcode : Nat) : Nat × Blk :=
  if opcode = 0x40 then (0x60, s) else if opcode = 0x41 then (0x61, s)
  else if 0x48 ≤ opcode && opcode ≤ 0x4D then (0x68, s)
  else
    let (v, s) := s.free 2
    (if v = 0 then 0x60 else if v = 1 then 0x61 else 0x68, s)

/-- The tile of a die from which its engine's frames are sent: the first of its tiles. -/
def engineTile (d : Nat) : Nat := 8 * d

/-- Send the response of a request (R266, R267). -/
def respond (s : Blk) (q : MemReq) (status : Nat) (payload : List Byte) : Blk :=
  let flags := (if q.nwAny then 128 else 0) + (if q.nwAll then 64 else 0) + (if q.copy2 then 32 else 0)
  let area := bits q.area 95 48 * 2 ^ 48 + status * 2 ^ 40 + flags * 2 ^ 32 + bits q.area 31 16 * 2 ^ 16 + bits q.area 15 3 * 8
  let (opcode, s) := s.respOpcode q.opcode
  let (seq, s) := s.free 32
  let t := engineTile q.die
  let (f, s) := s.ownFrame ⟨s.fld .TIL_FWD_CFG_xeirrik_etype t, false, false, q.src, q.tc, q.eid, s.fld .GNS_CTL_resp_hops 0, opcode,
    seq, beBytes 12 area, payload⟩
  s.sendTo t q.src q.tc f

/-- A request ends: counted, and answered unless it is a WRITE or ADD with ack = 0 that succeeded (R267, R268, R282). -/
def endReq (s : Blk) (q : MemReq) (payload : List Byte) : Blk :=
  let s := if q.status = 0 then s.count .GNS_REQ_OK_count 0 1 else s.count .GNS_REQ_ERR_count 0 1
  let s := if q.status = 0xC then s.raise .GNS_INT_mem_err 0 else s
  if q.status = 0 && (q.opcode = 0x41 || q.opcode = 0x48) && !q.area.testBit 1 then s
  else s.respond q q.status (if q.status = 0 then payload else [])

end Blk

end Sys2Proof.Machine
end

