-- ==== Sys2Proof/Machine/Levels.lean ====
section
/-!
DEFINITION. The levels of a checkpoint shard (R292), their event records (R299) and notifications (R294), and the WRITEs of
the spine's own (R295).
-/

namespace Sys2Proof.Machine.Blk

/-- A shard entry. -/
def shard (s : Blk) (i : Nat) : ShardRec := s.shards.get .reset i

/-- Replace a shard entry; GNS_CKP_STATUS.open follows (R312). -/
def putShard (s : Blk) (i : Nat) (r : ShardRec) : Blk :=
  let s := { s with shards := s.shards.set .reset i r }
  s.setFld .GNS_CKP_STATUS_open 0 (s.shards.filter fun (kv : Nat × ShardRec) => kv.2.state ≠ 0).length

/-- The 32 bytes of a record of R299. -/
def ckpBytes (status op index tag state value0 value1 : Nat) : List Byte :=
  beBytes 1 status ++ beBytes 1 op ++ beBytes 2 index ++ beBytes 2 tag ++ beBytes 1 state ++ beBytes 1 0 ++ beBytes 8 value0 ++
    beBytes 8 value1 ++ beBytes 8 0

/-- A record of an event, or of a RESTORE or REPLAY, for which no later command waits (R297, R299). -/
def ckpRecord (s : Blk) (cring status op index tag state value0 value1 : Nat) : Blk :=
  s.postRecord cring 4 (ckpBytes status op index tag state value0 value1)

/-- A command of the checkpoint command queue ends with its record: it stays in progress there while the record is held (R297,
R477). -/
def endCkp (s : Blk) (cring status op index tag state value0 value1 : Nat) : Blk :=
  s.postWork cring 4 (ckpBytes status op index tag state value0 value1) .ckp id

/-- An event record of a shard, to the ring of its OPEN (R299). -/
def shardEvent (s : Blk) (i status : Nat) : Blk :=
  let r := s.shard i
  s.ckpRecord r.cring status 0x80 i r.tag r.state r.err 0

/-- A req_id that no WRITE of the spine's own holds, from `id` on. -/
def freeId (t : Tab OwnWrite) : Nat → Nat → Nat
  | 0, id => id
  | k + 1, id => if (t.find id).isSome then freeId t k ((id + 1) % 65536) else id

/-- Send a WRITE of the spine's own with ack = 1, on TC3 (R294, R295, R309). -/
def sendOwn (s : Blk) (kind : OwnKind) (tile dst src tag offset : Nat) (payload : List Byte) : Blk :=
  let id := freeId s.ownWrites 8192 (s.nextOwn % 65536)
  let area := offset * 2 ^ 48 + tag * 2 ^ 32 + id * 2 ^ 16 + (payload.length - 1) * 8 + 2
  let (seq, s) := s.free 32
  let (f, s) := s.ownFrame ⟨s.fld .TIL_FWD_CFG_xeirrik_etype tile, false, false, dst, 3, src, s.fld .GNS_CTL_resp_hops 0, 0x41, seq,
    beBytes 12 area, payload⟩
  ({ s with nextOwn := (id + 1) % 65536, ownWrites := s.ownWrites.put id ⟨kind, tile, dst, f, 0⟩ }).sendTo tile dst 3 f

/-- Forget the WRITEs of one kind. -/
def dropOwn (s : Blk) (kind : OwnKind) : Blk := { s with ownWrites := s.ownWrites.filter fun kv => kv.2.kind ≠ kind }

/-- The tile from which a shard's frames are sent: of the engine that holds its first line. -/
def shardTile (s : Blk) (i : Nat) : Nat := engineTile (s.engineDie (s.shard i).region ((s.shard i).offset / 256))

/-- Send the notification of a level whose notify bit is set (R294). -/
def sendNotice (s : Blk) (i bit : Nat) : Blk :=
  let r := s.shard i
  if r.notify.testBit bit then
    s.sendOwn (.notify i) (s.shardTile i) r.nEid (s.region r.region).eid r.nTag r.nOff
      (beBytes 4 r.ckpt ++ beBytes 2 i ++ beBytes 1 r.state ++ beBytes 1 0 ++ beBytes 4 (s.hallSec % 2 ^ 32) ++ beBytes 4 s.hallNsec)
  else s

/-- A shard reaches a level: ABSORBED 2, MIRRORED 3, DURABLE 4 (R292, R300). -/
def reached (s : Blk) (i level : Nat) : Blk :=
  let s := s.putShard i { s.shard i with state := level }
  let s := s.count (if level = 2 then .GNS_CKP_ABSORBED_count else if level = 3 then .GNS_CKP_MIRRORED_count
    else .GNS_CKP_DURABLE_count) 0 1
  (s.shardEvent i 0).sendNotice i (4 - level)

/-- A shard's mirror stops. -/
def stopMirror (s : Blk) (i : Nat) : Blk := (s.putShard i { s.shard i with mpos := none }).dropOwn (.mirror i)

/-- A gateway. -/
def gateway (s : Blk) (g : Nat) : GwRec := s.gateways.get .reset g

/-- Replace a gateway. -/
def putGateway (s : Blk) (g : Nat) (r : GwRec) : Blk := { s with gateways := s.gateways.set .reset g r }

/-- The gateway has no work in hand: IDLE (R277). -/
def gwIdle (s : Blk) (g : Nat) : Blk :=
  let r := s.gateway g
  if r.state = 1 && r.running.isNone && r.jobs = [] && r.stores = [] then s.putGateway g { r with state := 0 } else s

/-- A shard's drain stops: its job, where it still waits on its gateway, is posted no longer (R292, R296). -/
def stopDrain (s : Blk) (i : Nat) : Blk :=
  let g := (s.shard i).gw
  let s := s.putShard i { s.shard i with drainRuns := false }
  (s.putGateway g { s.gateway g with jobs := (s.gateway g).jobs.filter fun j => j.owner ≠ .shard i }).gwIdle g

/-- A shard moves to FAILED (R292, R300). -/
def failShard (s : Blk) (i status : Nat) : Blk :=
  let s := (s.stopMirror i).stopDrain i
  let s := s.putShard i { s.shard i with state := 5 }
  ((s.shardEvent i status).count .GNS_CKP_FAILED_count 0 1).raise .GNS_CKP_INT_shard_fail 0

/-- The end of a shard's drain job (R292, R296). -/
def drainDone (s : Blk) (i status : Nat) : Blk :=
  let r := s.shard i
  if !r.drainRuns then s
  else
    let s := s.putShard i { r with drainRuns := false }
    if status = 0 then (s.stopMirror i).reached i 4
    else ((s.putShard i { s.shard i with err := status }).shardEvent i 0x0B).raise .GNS_CKP_INT_drain_fail 0

/-- The shard of an absorb region in which a logical line lies, and which is not FREE. -/
def shardAt (s : Blk) (i n : Nat) : Option Nat :=
  (s.shards.find? fun kv => kv.2.state ≠ 0 && kv.2.region = i && kv.2.offset ≤ 256 * n && 256 * n < kv.2.offset + kv.2.length).map
    Prod.fst

end Sys2Proof.Machine.Blk
end

