-- ==== Sys2Proof/Machine/Gateway.lean ====
section
/-!
DEFINITION. Gateways (R276 to R281): jobs and pass-through stores as RDMA WRITE packets, and the reliable transport.
-/

namespace Sys2Proof.Machine

/-- What a NAK names (R278, R280): a PSN sequence error, a remote access error, or an invalid request. -/
def seqError : RoceNak → Bool
  | .sequence => true
  | .access => false
  | .invalid => false

/-- One's complement checksum of 16-bit words. -/
def ocSum (bs : List Nat) : Nat := 65535 - bs.foldl ocAdd 0

/-- The PSN `k` places on, modulo 2²⁴. -/
def psnAdd (p k : Nat) : Nat := (p + k) % 2 ^ 24

/-- The packets up to and with a PSN, where it is one of those unacknowledged. -/
def covered (sent : List GwPacket) (psn : Nat) : Option Nat :=
  ((List.range sent.length).find? fun k => (sent[k]?.map GwPacket.psn) = some psn).map (· + 1)

namespace Blk

/-- A packet of a gateway (R278). What RoCEv2, UDP and IP carry beyond the fields the spec names are free values: the header
fields it does not name, and the ICRC. `first`: it carries the RETH, with the address and the length of the whole write. -/
def gwFrame (s : Blk) (g tile psn opcode va total : Nat) (first : Bool) (payload : List Byte) : Frame × Blk :=
  let r := s.gateway g
  let (v, s) := s.free 160
  let (icrc, s) := s.free 32
  let pad := (4 - payload.length % 4) % 4
  let bth := beBytes 1 opcode ++ beBytes 1 (bits v 7 6 * 64 + pad * 16) ++ beBytes 2 (bits v 23 8) ++ beBytes 1 (bits v 31 24) ++
    beBytes 3 r.dqpn ++ beBytes 1 (bits v 39 32) ++ beBytes 3 psn
  let reth := if first then beBytes 8 va ++ beBytes 4 r.rkey ++ beBytes 4 total else []
  let body := bth ++ reth ++ payload ++ List.replicate pad 0 ++ beBytes 4 icrc
  let udp := beBytes 2 (crc16 (crcKey [(24, r.dqpn)])) ++ beBytes 2 4791 ++ beBytes 2 (8 + body.length) ++ beBytes 2 (bits v 55 40) ++ body
  let nh := s.tableEntry (dieOfTile tile) 2 r.nh
  let vid := bits nh 79 68
  let ecn := bits v 61 56 * 4 + 2
  let ip :=
    if r.v6 then
      beBytes 4 (6 * 2 ^ 28 + ecn * 2 ^ 20 + bits v 83 64) ++ beBytes 2 udp.length ++ beBytes 1 17 ++ beBytes 1 (bits v 95 88) ++
        beBytes 16 r.sip ++ beBytes 16 r.dip
    else
      let h := beBytes 1 0x45 ++ beBytes 1 ecn ++ beBytes 2 (20 + udp.length) ++ beBytes 2 (bits v 111 96) ++ beBytes 2 (bits v 127 112) ++
        beBytes 1 (bits v 135 128) ++ beBytes 1 17
      let a := beBytes 4 r.sip ++ beBytes 4 r.dip
      h ++ beBytes 2 (ocSum ((List.range 10).map fun k => beAt (h ++ beBytes 2 0 ++ a) (2 * k) 2)) ++ a
  ({ dmac := BitVec.ofNat 48 (bits nh 127 80), smac := BitVec.ofNat 48 (s.fld .TIL_FWD_RMAC_rmac tile),
     tci := if vid = 0 then none else some (BitVec.ofNat 16 (4 * 4096 + vid)),
     etype := if r.v6 then 0x86DD else 0x0800, data := ip ++ udp }, s)

/-- Send a packet through the gateway's next hop, on TC2 (R276, R277). -/
def gwEmit (s : Blk) (g : Nat) (p : GwPacket) : Blk :=
  let e := s.tableEntry (dieOfTile p.tile) 2 (s.gateway g).nh
  let target := bits e 47 32
  if !e.testBit 63 then s
  else match bits e 62 60 with
    | 1 => s.emitFrame p.tile (.link (target % 1024)) p.frame 2 .gneiss
    | 2 =>
      match s.spray p.tile (target % 4096) 2 0 false (pinKey 0x10000 0 p.frame) (cellsOf (frameLen p.frame)) with
      | (none, s) => s
      | (some l, s) => s.emitFrame p.tile (.link l) p.frame 2 .gneiss
    | _ => s

/-- Make one packet of a write, take its PSN, and send it unless the gateway waits for its RNR timer. -/
def gwPacket (s : Blk) (g tile va total k n : Nat) (job : Bool) (payload : List Byte) : Blk :=
  let r := s.gateway g
  let opcode := if n = 1 then 0x0A else if k = 0 then 0x06 else if k + 1 = n then 0x08 else 0x07
  let (f, s) := s.gwFrame g tile r.psn opcode va total (k = 0) payload
  let p : GwPacket := ⟨r.psn, f, payload.length, job, tile⟩
  let s := s.putGateway g { r with psn := psnAdd r.psn 1, sent := r.sent ++ [p], state := 1 }
  if r.rnrFrom.isSome then s else s.gwEmit g p

/-- Send a write of bytes to a remote address (R276, R278). -/
def gwWrite (s : Blk) (g tile va : Nat) (job : Bool) (bs : List Byte) : Blk :=
  let mtu := 128 * 2 ^ (s.gateway g).pmtu
  let n := ceilDiv bs.length mtu
  (List.range n).foldl (fun s k => s.gwPacket g tile va bs.length k n job ((bs.drop (k * mtu)).take mtu)) s

/-- A job ends: its record, or its drain (R281, R296). -/
def endJob (s : Blk) (g : Nat) (o : JobOwner) (status acked : Nat) : Blk :=
  let s := if status = 4 then s.raise .GNS_INT_mem_err 0 else s
  match o with
  | .ring cring tag =>
    s.postWork cring 3 (beBytes 1 status ++ beBytes 1 g ++ beBytes 2 0 ++ beBytes 4 tag ++ beBytes 8 acked) (.job g) id
  | .shard i => s.drainDone i status

/-- Jobs of a gateway that keep their places until their records are placed (R477). -/
def jobsHeld (s : Blk) (g : Nat) : Nat := (s.cplHeld.filter fun x => x.work = .job g).length

/-- Start queued jobs in posting order until one runs (R281). They wait behind one whose record is held (R477). -/
def runJobs (s : Blk) (g : Nat) : Nat → Blk
  | 0 => s
  | k + 1 =>
    let r := s.gateway g
    if s.jobsHeld g ≠ 0 then s else
    match r.running, r.jobs with
    | none, j :: js =>
      let t := s.putGateway g { r with jobs := js }
      let reg := s.region j.region
      let fail := fun (status : Nat) => (t.endJob g j.owner status 0).runJobs g k
      if !reg.valid || j.length = 0 || 2 ^ 32 < j.length || reg.size < j.offset + j.length then fail 2
      else match s.readRange j.region j.offset j.length with
        | .memErr => fail 4
        | .stackDown => fail 7
        | .ok bs _ _ _ _ =>
          let s := t.repairRange j.region j.offset j.length
          let s := s.gwWrite g (engineTile (s.engineDie j.region (j.offset / 256))) (r.rva + j.roff) true bs
          let r := s.gateway g
          s.putGateway g { r with running := some ⟨j, reg.gen, psnAdd r.psn (2 ^ 24 - 1), 0⟩ }
    | _, _ => s.gwIdle g

/-- Post a job on a gateway (R281). A drain waits where a host's job would find no room (R296). -/
def postJob (s : Blk) (g : Nat) (j : GwJob) (drain : Bool) : Blk :=
  let r := s.gateway g
  let held := r.jobs.length + s.jobsHeld g + if r.running.isSome then 1 else 0
  if !r.valid || (!drain && 16 ≤ held) then s.endJob g j.owner 1 0
  else if r.state = 2 then s.endJob g j.owner 8 0
  else (s.putGateway g { r with jobs := r.jobs ++ [j], state := 1 }).runJobs g (r.jobs.length + 1)

/-- A pass-through store ends: counted as applied in its bucket (R271), and answered (R276). -/
def storeEnds (s : Blk) (q : MemReq) : Blk :=
  ({ s with ordApplied := s.ordApplied.set 0 q.bucket (s.ordApplied.get 0 q.bucket + 1) }).endReq q []

/-- A gateway fails: the job in hand ends with `status`, every queued job with ABORTED, every pass-through store with GW_FAIL
(R280). -/
def gwFail (s : Blk) (g status : Nat) : Blk :=
  let r := s.gateway g
  let s := s.putGateway g { r with state := 2, jobs := [], running := none, stores := [], sent := [], rnrFrom := none }
  let s := match r.running with
    | none => s
    | some x => s.endJob g x.job.owner status x.acked
  let s := r.jobs.foldl (fun s j => s.endJob g j.owner 8 0) s
  let s := r.stores.foldl (fun s x => s.storeEnds { x.req with status := 0xE }) s
  s.raise .GNS_INT_gw_fail 0

/-- The job in hand ends once its last packet is acknowledged (R281); the next starts. -/
def gwSettle (s : Blk) (g : Nat) : Blk :=
  let r := s.gateway g
  match r.running with
  | none => s.runJobs g (r.jobs.length + 1)
  | some x =>
    if r.sent.any fun p => p.psn = x.last then s
    else ((s.putGateway g { r with running := none }).endJob g x.job.owner 0 x.acked).runJobs g (r.jobs.length + 1)

/-- Packets up to and with a PSN are acknowledged: tries start afresh, and what the PSN covers completes (R276, R281). -/
def gwAck (s : Blk) (g psn : Nat) : Blk :=
  let r := s.gateway g
  match covered r.sent psn with
  | none => s
  | some k =>
    let done := r.sent.take k
    let lasts := done.map GwPacket.psn
    let mine := ((done.filter GwPacket.job).map GwPacket.bytes).sum
    let (ended, stores) := r.stores.partition fun x => lasts.contains x.last
    let run_ := r.running.map fun x => { x with acked := x.acked + mine }
    let s := s.putGateway g { r with sent := r.sent.drop k, tries := 0, rnrTries := 0, stores := stores, running := run_ }
    (ended.foldl (fun s x => s.storeEnds x.req) s).gwSettle g

/-- Send again from a PSN on, every unacknowledged packet (R278). -/
def gwResend (s : Blk) (g psn : Nat) : Blk :=
  let sent := (s.gateway g).sent
  (sent.drop ((covered sent psn).getD 1 - 1)).foldl (fun s p => s.gwEmit g p) s

/-- A NAK or an RNR NAK names a PSN: the packets before it have arrived. -/
def gwBefore (s : Blk) (g psn : Nat) : Blk := s.gwAck g (psnAdd psn (2 ^ 24 - 1))

/-- One more retransmission, or the end of retry_cnt (R277, R280). -/
def gwRetry (s : Blk) (g psn : Nat) : Blk :=
  let r := s.gateway g
  if r.sent = [] then s
  else if r.retryCnt ≤ r.tries then s.gwFail g 6
  else (s.putGateway g { r with tries := r.tries + 1 }).gwResend g psn

/-- The gateway takes packets: it is valid and not FAILED. -/
def gwLive (s : Blk) (g : Nat) : Bool := (s.gateway g).valid && (s.gateway g).state ≠ 2

/-- A packet that no gateway takes is discarded (R278). -/
def gwDiscard (s : Blk) : Blk := s.count .GNS_GW_DISCARD_count 0 1

/-- Jobs of a region that has been cleared or retagged: the one that runs ends with REGION_CHANGED (R281). -/
def gwRegionChanged (s : Blk) (i : Nat) : Blk :=
  (s.gateways.keys).foldl (fun s g =>
    let r := s.gateway g
    match r.running with
    | none => s
    | some x =>
      if x.job.region = i && (s.region i).gen ≠ x.gen then
        let s := s.putGateway g { r with running := none, sent := r.sent.map fun p => { p with job := false } }
        (s.endJob g x.job.owner 3 x.acked).runJobs g (r.jobs.length + 1)
      else s) s

/-- A pass-through store goes out at once, taken in its bucket until it ends (R271, R276). -/
def passThrough (s : Blk) (g : Nat) (q : MemReq) (off : Nat) (bs : List Byte) : Blk :=
  if !s.gwLive g then s.endReq { q with status := 0xE } []
  else
    let s := { s with ordTaken := s.ordTaken.set 0 q.bucket (s.ordTaken.get 0 q.bucket + 1) }
    let s := s.gwWrite g (engineTile q.die) ((s.gateway g).rva + off) false bs
    let r := s.gateway g
    s.putGateway g { r with stores := r.stores ++ [⟨q, psnAdd r.psn (2 ^ 24 - 1)⟩] }

end Blk

/-! ### Commands -/

/-- The JOB ring in turn (R469): of those that hold a job, the lowest above the one served last, or the lowest. -/
def Blk.jobRing (s : Blk) : Option Nat :=
  let ready := (List.range 1024).filter fun r => s.ringHas r 7
  match s.jobTurn.bind fun last => ready.find? fun r => last < r with
  | some r => some r
  | none => ready.head?

/-- GNEISS_JOB (R281, R469): the next entry of the JOB ring in turn, its fields by their bytes. Another ring waits. -/
def execGneissJob (ring : RingId) (job : Bytes32) (s : State) : Host.Outcome State Fault Refusal :=
  run (fun b =>
    if b.jobRing = some ring.val then
      let j := job.toNat
      ({ b with jobTurn := some ring.val }.advanceRing ring 1).postJob (bits j 255 248)
        ⟨bits j 239 224, bits j 223 192, bits j 191 128, bits j 127 64, .ring (bits j 25 16) (bits j 63 32)⟩ false
    else b) s

/-- ROCE_ACK (R278, R281); `bad`: an unsupported opcode, a bad ICRC or an unknown dqpn. -/
def execRoceAck (gw : GatewayId) (psn : BitVec 24) (bad : Bool) (s : State) : Host.Outcome State Fault Refusal :=
  run (fun b => if bad then b.gwDiscard else if b.gwLive gw then b.gwAck gw psn.toNat else b) s

/-- ROCE_NAK (R278, R280). -/
def execRoceNak (gw : GatewayId) (psn : BitVec 24) (nak : RoceNak) (s : State) : Host.Outcome State Fault Refusal :=
  run (fun b =>
    if b.gwLive gw then
      if seqError nak then (b.gwBefore gw psn.toNat).gwRetry gw psn.toNat else (b.gwBefore gw psn.toNat).gwFail gw 5
    else b) s

/-- RNR_NAK (R278): the gateway waits for the timer it carries. -/
def execRnrNak (gw : GatewayId) (psn : BitVec 24) (s : State) : Host.Outcome State Fault Refusal :=
  run (fun b =>
    if b.gwLive gw then
      let b := b.gwBefore gw psn.toNat
      b.putGateway gw { b.gateway gw with rnrFrom := some psn.toNat }
    else b) s

/-- RNR_TIMER (R278, R280). -/
def execRnrTimer (gw : GatewayId) (s : State) : Host.Outcome State Fault Refusal :=
  run (fun b =>
    let r := b.gateway gw
    match r.rnrFrom with
    | none => b
    | some psn =>
      if r.rnrRetry ≠ 7 && r.rnrRetry ≤ r.rnrTries then b.gwFail gw 6
      else (b.putGateway gw { r with rnrFrom := none, rnrTries := r.rnrTries + 1 }).gwResend gw psn) s

/-- ACK_TIMEOUT (R278, R280): from the oldest unacknowledged PSN. -/
def execAckTimeout (gw : GatewayId) (s : State) : Host.Outcome State Fault Refusal :=
  run (fun b =>
    match (b.gateway gw).sent with
    | [] => b
    | p :: _ => if b.gwLive gw then b.gwRetry gw p.psn else b) s

/-- CNP (R279). -/
def execCnp (gw : GatewayId) (s : State) : Host.Outcome State Fault Refusal :=
  run (fun b => if b.gwLive gw then b.putGateway gw { b.gateway gw with cur := max 1 ((b.gateway gw).cur / 2) } else b) s

/-- RATE_RECOVERY (R279). -/
def execRateRecovery (gw : GatewayId) (s : State) : Host.Outcome State Fault Refusal :=
  run (fun b =>
    let r := b.gateway gw
    if b.gwLive gw then b.putGateway gw { r with cur := min r.rate (r.cur + r.rate / 20) } else b) s

end Sys2Proof.Machine
end

