-- ==== Sys2Proof/Machine/Checkpoint.lean ====
section
/-!
DEFINITION. Checkpoint shards (chapter 9): commands (R297, R298), mirror (R295), drain (R296), notifications (R294) and
restore (R301 to R303).
-/

namespace Sys2Proof.Machine

/-- A checkpoint or journal command beside its op (R297). -/
structure CkpCmd where
  index : BitVec 16
  cring : BitVec 10
  tag : BitVec 16
  args : List Byte
  deriving DecidableEq, Repr

/-- The fields of a command's 64 bytes (R297). -/
def ckpCmd (w : Bytes64) : CkpCmd :=
  ⟨w.extractLsb' 480 16, w.extractLsb' 464 10, w.extractLsb' 448 16, beBytes 56 (w.extractLsb' 0 448).toNat⟩

namespace Blk

/-! ### Levels that start work (R292) -/

/-- Start a shard's drain: one job on its gateway (R296). -/
def startDrain (s : Blk) (i : Nat) : Blk :=
  let r := s.shard i
  (s.putShard i { r with drainStarted := true, drainRuns := true }).postJob r.gw
    ⟨r.region, r.offset, r.length, r.rOff, .shard i⟩ true

/-- Start the drain if the shard has one that has not started. -/
def lateDrain (s : Blk) (i : Nat) : Blk :=
  if (s.shard i).drain && !(s.shard i).drainStarted then s.startDrain i else s

/-- Every line of a FILLING shard is counted: ABSORBED (R292). -/
def absorbed (s : Blk) (i : Nat) : Blk :=
  let s := s.reached i 2
  let r := s.shard i
  let s := if r.mirror then s.putShard i { r with mpos := some 0 } else s
  if r.drain && (!r.mirror || r.parallel) then s.startDrain i else s

/-- A shard's mirror fails (R292, R295). -/
def mirrorFail (s : Blk) (i err status : Nat) : Blk :=
  let s := s.stopMirror i
  let s := ((s.putShard i { s.shard i with err := err }).shardEvent i status).raise .GNS_CKP_INT_mirror_fail 0
  if (s.shard i).state = 2 then s.lateDrain i else s

/-- The mirror is done when every WRITE has been answered OK (R295). -/
def mirrorCheck (s : Blk) (i : Nat) : Blk :=
  let r := s.shard i
  if r.mpos = some r.length && !(s.ownWrites.any fun kv => kv.2.kind = .mirror i) then
    let s := s.putShard i { r with mpos := none }
    if r.state = 2 && r.mirror then (s.reached i 3).lateDrain i else s
  else s

/-- The shards whose mirror has a frame to send. -/
def mirroring (s : Blk) : List Nat :=
  s.shards.filterMap fun (kv : Nat × ShardRec) => if kv.2.mpos.any fun p => p < kv.2.length then some kv.1 else none

/-- A mirroring shard may send: it has not sent in this round, or every one with a frame to send has (R295). -/
def mirrorTurn (s : Blk) (i : Nat) : Bool := !s.mirrorSent.contains i || s.mirroring.all fun k => s.mirrorSent.contains k

/-- A shard has taken its turn; where the round was over, the next begins. -/
def turnTaken (s : Blk) (i : Nat) : Blk :=
  { s with mirrorSent := if s.mirrorSent.contains i then [i] else s.mirrorSent ++ [i] }

/-- The mirror of a shard sends its next WRITE, in its turn (R295). -/
def mirrorSend (s : Blk) (i : Nat) : Blk :=
  let r := s.shard i
  match r.mpos with
  | none => s
  | some p =>
    let waiting := (s.ownWrites.filter fun kv => match kv.2.kind with
      | .mirror _ => true
      | _ => false).length
    if r.length ≤ p || 4096 ≤ waiting || !s.mirrorTurn i then s
    else
      let n := min 8192 (r.length - p)
      match s.readRange r.region (r.offset + p) n with
      | .memErr => s.mirrorFail i 0x0D 0x0D
      | .stackDown => s.mirrorFail i 0x0E 0x0E
      | .ok bs _ _ _ _ =>
        let s := (s.repairRange r.region (r.offset + p) n).turnTaken i
        let s := s.putShard i { r with mpos := some (p + n) }
        s.sendOwn (.mirror i) (s.shardTile i) r.pEid (s.region r.region).eid r.pTag (r.pRegion * 2 ^ 32 + r.pOff + p) bs

/-! ### Restore (R301 to R303) -/

/-- A restore ends: its record (R299). -/
def endRestore (s : Blk) (id : Nat) (r : RestoreRec) (status : Nat) : Blk :=
  ({ s with restores := s.restores.del id }).ckpRecord r.cring status 8 0 r.tag 0 r.frames r.skipped

/-- A frame of a restore is still to be replicated, or a copy of one to be enqueued. -/
def restorePending (s : Blk) (id : Nat) : Bool :=
  s.copies.any (fun kv => kv.2.node = .restore id && (undecided kv.2 || kv.2.phase = .granted || kv.2.todo ≠ [])) ||
  s.repl.any fun kv => kv.2.restore.any fun (i : ReplItem) => i.node = .restore id

/-- A frame of a restore goes to the replication logic of its engine's tile (R29, R301). -/
def handRestore (s : Blk) (id tile : Nat) (mcast : Bool) (dest : Nat) (f : Frame) : Blk :=
  let (target, s) :=
    if mcast then (s.mcastTarget (dieOfTile tile) dest, s)
    else match s.endpointLink tile dest 3 f with
      | (some l, s) => (some (Target.link l), s)
      | (none, s) => (none, s)
  match target with
  | none => s
  | some g =>
    let t := s.repl.get .reset tile
    { s with repl := s.repl.set .reset tile { t with restore := t.restore ++ [⟨none, g, f, 3, .restore id⟩] } }

/-- One step of a restore: its next frame, or its end (R301, R303). -/
def restoreStep (s : Blk) (id : Nat) : Blk :=
  match s.restores.find id with
  | none => s
  | some r =>
    let reg := s.region r.region
    let fail := fun (status : Nat) => s.endRestore id r status
    if r.changed then fail 0x0C
    else if r.pos < r.length then
        let n := min r.piece (r.length - r.pos)
        let off := r.offset + r.pos
        match s.readRange r.region off n with
        | .memErr => fail 0x0D
        | .stackDown => fail 0x0E
        | .ok bs _ _ _ _ =>
          let s := s.repairRange r.region off n
          let tile := engineTile (s.engineDie r.region (off / 256))
          let (seq, s) := s.free 32
          let (rid, s) := s.free 16
          let area := (r.destOff + r.pos) * 2 ^ 48 + r.destTag * 2 ^ 32 + rid * 2 ^ 16 + (n - 1) * 8
          let (f, s) := s.ownFrame ⟨s.fld .TIL_FWD_CFG_xeirrik_etype tile, false, r.mcast, r.dest, 3, reg.eid,
            s.fld .GNS_CTL_resp_hops 0, 0x41, seq, beBytes 12 area, bs⟩
          let r' := { r with pos := r.pos + n, frames := r.frames + 1 }
          (({ s with restores := s.restores.put id r' }).count .GNS_CKP_RESTORE_FR_count 0 1).handRestore id tile r.mcast r.dest f
    else if s.restorePending id then s
    else fail 0

/-- The RESTORE command (R302, R303). -/
def restoreCmd (s : Blk) (c : CkpCmd) : Blk :=
  let i := beAt c.args 0 2
  let flags := beAt c.args 2 1
  let off := beAt c.args 4 4
  let len := beAt c.args 8 8
  let dest := beAt c.args 16 3 / 16
  let reg := s.region i
  let mcast := flags.testBit 7
  let reserved := dest / 2 ^ 18 = 3 || (dest / 2 ^ 18 = 0 && bits dest 17 14 ≠ 0) ||
    (dest / 2 ^ 18 ≠ 0 && (bits dest 17 8 ≠ 0 || dest % 256 = 255))
  if !reg.valid || 2 ≤ reg.mode || reg.size < off + len || off % 256 ≠ 0 || len % 256 ≠ 0 || len = 0 || 2 ^ 32 < len ||
      (mcast && reserved) then
    s.ckpRecord c.cring.toNat 4 8 0 c.tag.toNat 0 0 0
  else
    { s with nextWork := s.nextWork + 1,
             restores := s.restores.put s.nextWork
               { cring := c.cring.toNat, tag := c.tag.toNat, region := i, gen := reg.gen, mcast := mcast,
                 piece := if flags.testBit 0 then 8192 else 4096, offset := off, length := len, dest := dest,
                 destOff := beAt c.args 20 6, destTag := beAt c.args 26 2, pos := 0, frames := 0, skipped := 0,
                 changed := false } }

/-! ### The command queue (R297, R298) -/

/-- The next command of the checkpoint command queue runs. It waits behind one that its record keeps in progress (R297, R477). -/
def ckpTake (s : Blk) (ring : Nat) (f : Blk → Blk) : Blk :=
  if s.ringHas ring 6 && !s.workHeld .ckp then f (s.advanceRing ring 1) else s

/-- A shard command: its index checked, its effect, and its record with the shard's state after it (R298, R299). -/
def shardCmd (s : Blk) (op : Nat) (c : CkpCmd) (f : Blk → Nat → Nat × Blk) : Blk :=
  let i := c.index.toNat
  if 16383 < i then s.endCkp c.cring.toNat 2 op i c.tag.toNat 0 0 0
  else
    let (status, s) := f s i
    s.endCkp c.cring.toNat status op i c.tag.toNat (s.shard i).state 0 0

/-- The entry that an OPEN carries, as FILLING, the region's epoch latched (R288, R289). -/
def openEntry (s : Blk) (c : CkpCmd) : ShardRec :=
  let b := c.args
  let f := beAt b 1 1
  { ShardRec.reset with
    state := 1, mirror := f.testBit 7, drain := f.testBit 6, parallel := f.testBit 5, notify := bits f 4 2, region := beAt b 2 2,
    offset := beAt b 4 4, length := beAt b 8 8, ckpt := beAt b 16 4, nEid := beAt b 20 3 / 16, sepoch := (s.region (beAt b 2 2)).epoch,
    nOff := beAt b 24 6, nTag := beAt b 30 2, pEid := beAt b 32 3 / 16, gw := beAt b 35 1, pRegion := beAt b 36 2, pTag := beAt b 38 2,
    pOff := beAt b 40 4, rOff := beAt b 44 8, cring := c.cring.toNat, tag := c.tag.toNat }

/-- OPEN (R298). -/
def openCmd (s : Blk) (c : CkpCmd) (i : Nat) : Nat × Blk :=
  let e := s.openEntry c
  let reg := s.region e.region
  let overlap := s.shards.any fun kv => kv.2.state ≠ 0 && kv.2.region = e.region && kv.2.offset < e.offset + e.length &&
    e.offset < kv.2.offset + kv.2.length
  if (s.shard i).state ≠ 0 then (3, s)
  else if !reg.valid || reg.mode ≠ 1 || reg.size < e.offset + e.length || e.offset % 256 ≠ 0 || e.length % 256 ≠ 0 ||
      e.length = 0 || 2 ^ 32 < e.length || (e.mirror && e.pEid = 0) || (e.drain && !(s.gateway e.gw).valid) then (4, s)
  else if overlap then (5, s)
  else if reg.epoch = 0x7F then (8, s)
  else (0, (s.putShard i e).putRegion e.region { reg with epoch := reg.epoch + 1 })

/-- RELEASE (R298). -/
def releaseCmd (s : Blk) (i : Nat) : Nat × Blk :=
  let r := s.shard i
  if r.state = 0 then (6, s)
  else if r.mpos.isSome || r.drainRuns then (7, s)
  else (0, s.putShard i .reset)

/-- MIRROR (R298). -/
def mirrorCmd (s : Blk) (i : Nat) : Nat × Blk :=
  let r := s.shard i
  if r.state ≠ 2 && r.state ≠ 3 then (6, s)
  else if r.mpos.isSome then (7, s)
  else (0, s.putShard i { r with err := 0, mpos := some 0 })

/-- DRAIN (R298). -/
def drainCmd (s : Blk) (i : Nat) : Nat × Blk :=
  let r := s.shard i
  if r.state ≠ 2 && r.state ≠ 3 && r.state ≠ 4 then (6, s)
  else if r.drainRuns then (7, s)
  else (0, (s.putShard i { r with err := 0 }).startDrain i)

/-- The fill timer of a FILLING shard expires, where GNS_CKP_FILL sets one (R292, R312). -/
def fillTimeout (s : Blk) (i : Nat) : Blk :=
  if (s.shard i).state = 1 && s.fld .GNS_CKP_FILL_fill_ms 0 ≠ 0 then s.failShard i 9 else s

end Blk

/-! ### Commands -/

/-- FILL_TIMEOUT (R292). -/
def execFillTimeout (shard : ShardId) (s : State) : Host.Outcome State Fault Refusal := run (·.fillTimeout shard) s

/-- MIRROR_WRITE_SEND (R295). -/
def execMirrorWriteSend (shard : ShardId) (s : State) : Host.Outcome State Fault Refusal := run (·.mirrorSend shard) s

/-- RESTORE_FRAME (R301). -/
def execRestoreFrame (work : Nat) (s : State) : Host.Outcome State Fault Refusal := run (·.restoreStep work) s

end Sys2Proof.Machine
end

