-- ==== Sys2Proof/Machine/Requests.lean ====
section
/-!
DEFINITION. Memory requests (R265 to R273): their checks, their taking, the update queue and its application.
-/

namespace Sys2Proof.Machine

namespace Blk

/-! ### Checks (R268) -/

/-- A request as its frame states it. -/
def memReqOf (s : Blk) (r : FrameRec) : MemReq :=
  let h := xHeader r.frame.data
  let area := beAt r.frame.data 16 12
  let i := bits area 95 80
  let reg := s.region i
  let found := reg.valid && reg.eid = h.dst
  { tile := r.tile, die := if found then s.engineDie i (bits area 79 48 / 256) else dieOfTile r.tile, src := h.src,
    eid := if found then reg.eid else h.dst, opcode := h.opcode, tc := h.tc, area := area, remaining := 0, status := 0, prior := [],
    nwAny := false, nwAll := false, copy2 := false, bucket := r.tile * 4096 + crc16 (crcKey [(20, h.src)]) % 4096 }

/-- Region index, offset in the region, and length of a request (R256, R266). -/
def reqRange (q : MemReq) : Nat × Nat × Nat := (bits q.area 95 80, bits q.area 79 48, bits q.area 15 3 + 1)

/-- The mode of an absorb or journal region, or of a pass-through one, forbids the request (R268, R291). -/
def modeBad (s : Blk) (q : MemReq) (reg : RegionRec) : Bool :=
  let (i, off, len) := reqRange q
  match reg.mode with
  | 0 => false
  | 1 =>
    if q.opcode = 0x40 then false
    else q.opcode ≠ 0x41 || q.tc ≠ 3 || (linesOf off len).any fun n => match s.shardAt i n with
      | none => false
      | some k => (s.shard k).state ≠ 1
  | 2 => q.opcode ≠ 0x40
  | _ => q.opcode ≠ 0x41

/-- The first check of R268 that a request fails; 0: none. -/
def memStatus (s : Blk) (q : MemReq) (dst payload : Nat) : Nat :=
  let (i, off, len) := reqRange q
  let reg := s.region i
  let atomic := 0x48 ≤ q.opcode && q.opcode ≤ 0x4D
  if !s.flag .GNS_CTL_en 0 then 1
  else if !(q.opcode = 0x40 || q.opcode = 0x41 || atomic) then 2
  else if q.tc ≠ 3 && q.tc ≠ 4 then 3
  else if !reg.valid || reg.eid ≠ dst then 4
  else if bits q.area 47 32 ≠ reg.owner then 5
  else if !(if q.opcode = 0x40 then reg.rd else if q.opcode = 0x41 then reg.wr else reg.at_) then 6
  else if s.modeBad q reg then 7
  else if (if q.opcode = 0x40 then payload ≠ 0 else if q.opcode = 0x41 then payload ≠ len
      else !(len = 4 || len = 8) || payload ≠ (if q.opcode = 0x4B then 2 * len else len)) then 8
  else if atomic && off % len ≠ 0 then 9
  else if reg.size < off + len then 0xA
  else 0

/-! ### Taking (R269, R271, R272) -/

/-- A frame leaves staging, and the frames behind it go on. -/
def doneWith (s : Blk) (fid : Nat) : Blk :=
  match s.frame? fid with
  | none => s
  | some r =>
    ({ s with memWait := s.memWait.filter fun f => f ≠ fid, ordWait := s.ordWait.del fid }.dropFrame fid).offerAfter r.link

/-- `k` more entries of a die's queue may go to a tile: its 256 first, then the shared ones (R272). -/
def entriesFree (s : Blk) (d t k : Nat) : Bool :=
  let q := s.updQueue d
  let held := fun (u : Nat) => (q.filter fun e => e.tile = u).length
  let shared := ((List.range 32).map fun u => held u - 256).sum
  shared + ((held t + k - 256) - (held t - 256)) ≤ 8192

/-- The entries of a store or atomic, one for each line, with the die of each (R272). -/
def entriesOf (s : Blk) (q : MemReq) (id : Nat) (payload : List Byte) : List (Nat × UpdEntry) :=
  let (i, off, len) := reqRange q
  let gen := (s.region i).gen
  (linesOf off len).map fun n =>
    let lo := if 256 * n < off then off - 256 * n else 0
    let skip := 256 * n + lo - off
    let data := if q.opcode = 0x41 then (payload.drop skip).take (256 - lo) else payload
    (s.engineDie i n, ⟨id, q.tile, i, gen, n, q.opcode, lo, data, s.storeLine i n⟩)

/-- A READ reads every line at once and is answered (R269, R270). -/
def takeRead (s : Blk) (fid : Nat) (q : MemReq) : Blk :=
  let (i, off, len) := reqRange q
  let res := s.readRange i off len
  let s := (s.repairRange i off len).doneWith fid
  match res with
  | .stackDown => s.endReq { q with status := 0xB } []
  | .memErr => s.endReq { q with status := 0xC } []
  | .ok bs a b c never => (s.count .GNS_NW_READS_count 0 never).endReq { q with nwAny := a, nwAll := b, copy2 := c } bs

/-- A store or atomic takes its entries, or waits for them (R272). -/
def takeUpdate (s : Blk) (fid : Nat) (q : MemReq) (payload : List Byte) : Blk :=
  let id := s.nextReq
  let es := s.entriesOf q id payload
  let need := fun (d : Nat) => (es.filter fun e => e.1 = d).length
  match (List.range 4).find? fun d => need d ≠ 0 && !s.entriesFree d q.tile (need d) with
  | some d =>
    ({ s with memWait := if s.memWait.contains fid then s.memWait else s.memWait ++ [fid] }).count .GNS_CQ_WAITS_count d 1
  | none =>
    let s := { s with nextReq := id + 1, requests := s.requests.put id { q with remaining := es.length, nwAll := true },
                      ordTaken := s.ordTaken.set 0 q.bucket (s.ordTaken.get 0 q.bucket + 1) }
    let s := (List.range 4).foldl (fun s d => if need d = 0 then s else
      s.putUpdates d (s.updQueue d ++ (es.filter fun e => e.1 = d).map Prod.snd)) s
    s.doneWith fid

/-- An ordered store notes, as it arrives, the count of its bucket's requests taken (R271). -/
def noteOrder (s : Blk) (fid : Nat) (q : MemReq) : Blk :=
  if q.opcode = 0x41 && q.area.testBit 2 && (s.ordWait.find fid).isNone then
    { s with ordWait := s.ordWait.put fid (q.bucket, s.ordTaken.get 0 q.bucket) }
  else s

/-- An ordered store waits until its predecessors have been applied (R271). -/
def mustWait (s : Blk) (fid : Nat) : Bool :=
  match s.ordWait.find fid with
  | none => false
  | some (b, goal) => s.ordApplied.get 0 b < goal

/-- A request that has passed its checks is taken. A line without a live copy ends it, nothing applied (R268, R275). -/
def takeReq (s : Blk) (fid : Nat) (q : MemReq) (payload : List Byte) : Blk :=
  let (i, off, len) := reqRange q
  let reg := s.region i
  if q.opcode = 0x40 then s.takeRead fid q
  else if s.mustWait fid then s
  else if reg.mode = 3 then (s.doneWith fid).passThrough reg.gw q off payload
  else if (linesOf off len).any fun n => !((reg.copies n).any fun x => s.liveLine x) then
    (s.doneWith fid).endReq { q with status := 0xB } []
  else s.takeUpdate fid q payload

/-- The dies whose engines a request goes to: those that hold its lines (R30); none where no region of its own is found, or a gateway
takes it. -/
def reqDies (s : Blk) (q : MemReq) (dst : Nat) : List Nat :=
  let (i, off, len) := reqRange q
  let reg := s.region i
  if reg.valid && reg.eid = dst && reg.mode ≠ 3 then ((linesOf off len).map (s.engineDie i)).dedup else []

/-- A request sets out for the engines of other dies (R30, R275). -/
def startReq (s : Blk) (fid : Nat) : Blk :=
  match s.frame? fid with
  | none => s
  | some r =>
    if r.chkFail then s
    else (s.reqDies (s.memReqOf r) (xHeader r.frame.data).dst).foldl (fun s d => s.startCross fid d) s

/-- A request stands behind a frame that holds it back. One of an opcode that is not defined, for which no command of its own comes,
asks again as one without an entry does, to be answered with BAD_OP (R265, R272). -/
def waitBehind (s : Blk) (fid opcode : Nat) : Blk :=
  if opcode = 0x40 || opcode = 0x41 || (0x48 ≤ opcode && opcode ≤ 0x4D) || s.memWait.contains fid then s
  else { s with memWait := s.memWait ++ [fid] }

/-- A request frame delivered to Gneiss: discarded if its check failed (R267), waiting behind a frame that holds it back or for its
cells on another die, or checked and taken. -/
def memRequest (s : Blk) (fid opcode : Nat) : Blk :=
  match s.frame? fid with
  | none => s
  | some r =>
    let h := xHeader r.frame.data
    if r.dest = .gneiss && r.whole && h.opcode = opcode then
      if s.heldBack fid r then s.waitBehind fid opcode
      else if r.chkFail then s.doneWith fid
      else
        let q := s.memReqOf r
        let s := s.noteOrder fid q
        if !(s.reqDies q h.dst).all (s.crossed fid r) then s.startReq fid
        else
        let st := s.memStatus q h.dst h.len
        if st ≠ 0 then
          let late := st = 7 && q.opcode = 0x41 && (s.region (reqRange q).1).mode = 1
          let s := if late then s.count .GNS_CKP_LATE_WR_count 0 1 else s
          (s.doneWith fid).endReq { q with status := st } []
        else s.takeReq fid q ((r.frame.data.drop 32).take h.len)
    else s

/-- A request without an entry requests again (R272). -/
def memRetry (s : Blk) (fid : Nat) : Blk :=
  if s.memWait.contains fid then
    match s.frame? fid with
    | none => s
    | some r => ({ s with memWait := s.memWait.filter fun f => f ≠ fid }).memRequest fid (xHeader r.frame.data).opcode
  else s

/-- An ordered store's predecessors have not all been applied in time (R271). -/
def orderTimeout (s : Blk) (fid : Nat) : Blk :=
  match s.ordWait.find fid, s.frame? fid with
  | some _, some r => if s.mustWait fid then (s.doneWith fid).endReq { s.memReqOf r with status := 0xF } [] else s
  | _, _ => s

/-! ### Applying (R270, R273) -/

/-- A line of an absorb region has been written: the line's epoch, and the shard whose lines it counts in (R290). -/
def absorbEpoch (s : Blk) (i n : Nat) : Nat × Option Nat :=
  let reg := s.region i
  let m : LineMeta := match s.hot.find (s.storeLine i n) with
    | some h => { LineMeta.reset with written := true, region := h.region, gen := h.gen, epoch := h.epoch }
    | none => (((reg.copies n).find? fun x => s.liveLine x).map s.meta_).getD .reset
  if reg.mode ≠ 1 then (0, none)
  else match s.shardAt i n with
    | none => (0x7F, none)
    | some k =>
      let sh := s.shard k
      if sh.state = 1 then
        (sh.sepoch, if !m.written || m.region ≠ i || m.gen ≠ reg.gen || m.epoch ≠ sh.sepoch then some k else none)
      else (m.epoch, none)

/-- One more line of a shard; the last one absorbs it (R290, R292). -/
def countLine (s : Blk) : Option Nat → Blk
  | none => s
  | some k =>
    let sh := { s.shard k with lines := (s.shard k).lines + 1 }
    let s := s.putShard k sh
    if sh.lines = sh.length / 256 then s.absorbed k else s

/-- Note what an entry did on its request; the last one ends it (R267, R271). -/
def entryDone (s : Blk) (e : UpdEntry) (status : Nat) (prior : List Byte) (never copy2 : Bool) : Blk :=
  match s.requests.find e.req with
  | none => s
  | some q =>
    let q := { q with remaining := q.remaining - 1, status := if q.status = 0 then status else q.status, prior := prior,
                      nwAny := q.nwAny || never, nwAll := q.nwAll && never, copy2 := q.copy2 || copy2 }
    if q.remaining = 0 then
      let s := { s with requests := s.requests.del e.req,
                        ordApplied := s.ordApplied.set 0 q.bucket (s.ordApplied.get 0 q.bucket + 1) }
      s.endReq { q with nwAll := q.nwAll && q.status = 0 } (if q.opcode = 0x41 || q.opcode = 0x48 then [] else q.prior)
    else { s with requests := s.requests.put e.req q }

/-- Die `d` applies one entry to its line; `more`: others are pending on the line (R270, R273, R451). -/
def applyEntryTo (s : Blk) (d : Nat) (e : UpdEntry) (more : Bool) : Blk :=
  let reg := s.region e.region
  if !reg.valid || reg.gen ≠ e.gen then s.entryDone e 0xD [] false false
  else
    let live := (reg.copies e.line).filter fun x => s.liveLine x
    if live = [] then s.entryDone e 0xB [] false false
    else if s.allRetired e.region e.line then s.entryDone e 0xC [] false false
    else
      let never := match s.hot.find e.store with
        | some h => h.region ≠ e.region || h.gen ≠ reg.gen
        | none => live.all fun x => s.neverWritten x e.region reg.gen
      let (epoch, counted) := s.absorbEpoch e.region e.line
      match s.readStored e.region e.line with
      | .ok bs _ c2 =>
        let second := if e.whole then s.secondServes (reg.copies e.line) else c2
        let s := (s.updateLine d e.region e.line epoch (e.onto bs) more).countLine counted
        s.entryDone e 0 ((bs.drop e.lo).take e.width) never second
      | _ =>
        if e.whole then
          let second := s.secondServes (reg.copies e.line)
          ((s.updateLine d e.region e.line epoch e.data more).countLine counted).entryDone e 0 [] never second
        else s.entryDone e 0xC [] false false

/-- One update of a die's queue is applied, the first of its line; with the last one the line leaves the hot-line buffer (R273). -/
def updateApply (s : Blk) (d pos : Nat) : Blk :=
  let q := s.updQueue d
  match q[pos]? with
  | none => s
  | some e =>
    let same := fun (x : UpdEntry) => x.store = e.store
    if (q.take pos).any same then s
    else
      let more := (q.drop (pos + 1)).any same
      let s := (s.putUpdates d (q.eraseIdx pos)).applyEntryTo d e more
      if more then s else s.writeBack e.store

/-! ### Responses to the spine (R282, R294, R295) -/

/-- A WRITE of the spine's own is sent again (R294, R295). -/
def resendOwn (s : Blk) (id : Nat) (w : OwnWrite) : Blk :=
  ({ s with ownWrites := s.ownWrites.put id { w with tries := w.tries + 1 } }).sendTo w.tile w.dst 3 w.frame

/-- A replay ends once what it has read is sent and answered (R309). -/
def replayCheck (s : Blk) (id : Nat) : Blk :=
  match s.replays.find id with
  | none => s
  | some r =>
    match r.ended with
    | none => s
    | some st =>
      if r.buf = [] && !(s.ownWrites.any fun kv => kv.2.kind = .replay id) then
        ({ s with replays := s.replays.del id }).ckpRecord r.cring st 0x12 r.stream r.tag 0 r.pos r.sent
      else s

/-- A WRITE of a replay has failed: the replay stops, with a status that the spec does not name. -/
def replayFail (s : Blk) (id : Nat) : Blk :=
  match s.replays.find id with
  | none => s
  | some r =>
    let (st, s) := s.free 8
    (({ s with replays := s.replays.put id { r with ended := some st, buf := [] } }).dropOwn (.replay id)).replayCheck id

/-- A WRITE of the spine's own fails for good: `err` is the response's status, 0xFF where none came (R294, R295). -/
def ownFail (s : Blk) (w : OwnWrite) (err : Nat) : Blk :=
  match w.kind with
  | .mirror i => s.mirrorFail i err 0x0A
  | .notify _ => (s.count .GNS_CKP_NOTIFY_ERR_count 0 1).raise .GNS_CKP_INT_notify_err 0
  | .replay id => s.replayFail id

/-- A WRITE_RESP frame: it answers a WRITE of the spine's own, or is stray (R282, R294, R295). -/
def writeResp (s : Blk) (fid : Nat) : Blk :=
  match s.frame? fid with
  | none => s
  | some r =>
    if r.dest = .gneiss && r.whole && (xHeader r.frame.data).opcode = 0x61 then
      let s := s.doneWith fid
      let area := beAt r.frame.data 16 12
      let id := bits area 31 16
      let status := bits area 47 40
      if r.chkFail then s
      else match s.ownWrites.find id with
        | none => s.count .GNS_STRAY_count 0 1
        | some w =>
          let gone := { s with ownWrites := s.ownWrites.del id }
          match w.kind, status with
          | .mirror i, 0 => gone.mirrorCheck i
          | .notify _, 0 => gone
          | .replay k, 0 => gone.replayCheck k
          | .notify _, _ => if w.tries < s.fld .GNS_CKP_CFG_retries 0 then s.resendOwn id w else gone.ownFail w status
          | _, st => gone.ownFail w st
    else s

/-- Another response delivered to the spine matches no request (R282). -/
def strayResp (s : Blk) (fid opcode : Nat) : Blk :=
  match s.frame? fid with
  | none => s
  | some r =>
    if r.dest = .gneiss && r.whole && (xHeader r.frame.data).opcode = opcode then
      let s := s.doneWith fid
      if r.chkFail then s else s.count .GNS_STRAY_count 0 1
    else s

/-- No response within resp_us: sent again, up to retries times (R294, R295). -/
def respTimeout (s : Blk) (id : Nat) : Blk :=
  match s.ownWrites.find id with
  | none => s
  | some w =>
    if w.tries < s.fld .GNS_CKP_CFG_retries 0 then s.resendOwn id w
    else ({ s with ownWrites := s.ownWrites.del id }).ownFail w 0xFF

/-- A re-powered stack's stale blocks are copied from the live copies (R275); a line of a retired row stays poisoned (R451). -/
def staleCopied (s : Blk) (h : Nat) : Blk :=
  if s.stackUp h then
    (s.stale.keys.filter fun b => b % 12 = h).foldl (fun s b =>
      match s.regions.find? fun kv => kv.2.valid && kv.2.dup && kv.2.base ≤ b && b < kv.2.base + kv.2.blocks with
      | none => { s with stale := s.stale.set false b false }
      | some (_, reg) =>
        let o := if (b - reg.base) % 12 < 6 then b + 6 else b - 6
        if s.liveLine (16 * o) then
          { (List.range 16).foldl (fun (s : Blk) k =>
              let (src, dead) := (s.meta_ (16 * o + k), (s.meta_ (16 * b + k)).retired)
              (s.putBytes (16 * b + k) (s.lineBytes (16 * o + k))).putMeta (16 * b + k)
                { src with poison := src.poison || dead, retired := dead }) s with
            stale := s.stale.set false b false }
        else s) s
  else s

end Blk

/-! ### Commands -/

/-- READ (R265). -/
def execRead (frame : Nat) (s : State) : Host.Outcome State Fault Refusal := run (·.memRequest frame 0x40) s

/-- WRITE (R265). -/
def execWrite (frame : Nat) (s : State) : Host.Outcome State Fault Refusal := run (·.memRequest frame 0x41) s

/-- ADD (R265). -/
def execAdd (frame : Nat) (s : State) : Host.Outcome State Fault Refusal := run (·.memRequest frame 0x48) s

/-- FETCH_ADD (R265). -/
def execFetchAdd (frame : Nat) (s : State) : Host.Outcome State Fault Refusal := run (·.memRequest frame 0x49) s

/-- SWAP (R265). -/
def execSwap (frame : Nat) (s : State) : Host.Outcome State Fault Refusal := run (·.memRequest frame 0x4A) s

/-- CAS (R265). -/
def execCas (frame : Nat) (s : State) : Host.Outcome State Fault Refusal := run (·.memRequest frame 0x4B) s

/-- FETCH_OR (R265). -/
def execFetchOr (frame : Nat) (s : State) : Host.Outcome State Fault Refusal := run (·.memRequest frame 0x4C) s

/-- FETCH_AND (R265). -/
def execFetchAnd (frame : Nat) (s : State) : Host.Outcome State Fault Refusal := run (·.memRequest frame 0x4D) s

/-- UPDATE_APPLY (R273). -/
def execUpdateApply (die : DieId) (pos : Nat) (s : State) : Host.Outcome State Fault Refusal := run (·.updateApply die pos) s

/-- UPDATE_QUEUE_RETRY (R272). -/
def execUpdateQueueRetry (frame : Nat) (s : State) : Host.Outcome State Fault Refusal := run (·.memRetry frame) s

/-- ORDER_TIMEOUT (R271). -/
def execOrderTimeout (frame : Nat) (s : State) : Host.Outcome State Fault Refusal := run (·.orderTimeout frame) s

/-- WRITE_RESP (R295). -/
def execWriteResp (frame : Nat) (s : State) : Host.Outcome State Fault Refusal := run (·.writeResp frame) s

/-- READ_RESP (R282). -/
def execReadResp (frame : Nat) (s : State) : Host.Outcome State Fault Refusal := run (·.strayResp frame 0x60) s

/-- ATOMIC_RESP (R282). -/
def execAtomicResp (frame : Nat) (s : State) : Host.Outcome State Fault Refusal := run (·.strayResp frame 0x68) s

/-- RESP_TIMEOUT (R295). -/
def execRespTimeout (reqId : BitVec 16) (s : State) : Host.Outcome State Fault Refusal := run (·.respTimeout reqId.toNat) s

/-- STALE_BLOCKS_COPIED (R275). -/
def execStaleBlocksCopied (stack : Fin 12) (s : State) : Host.Outcome State Fault Refusal := run (·.staleCopied stack) s

end Sys2Proof.Machine
end

