-- ==== Sys2Proof/Machine/Regions.lean ====
section
/-!
DEFINITION. The commands of GNS_CMD (R262, R263): regions and gateways set, cleared and retagged; zeroing sweeps (R264); and
the partition of the store (R284 to R286).
-/

namespace Sys2Proof.Machine

/-- The partition of store GiB `u`: memory 0, absorb 1, journal 2 (R284). -/
def partOf (mem abs u : Nat) : Nat := if u < mem then 0 else if u < mem + abs then 1 else 2

/-- The partition a region's mode asks for (R285). -/
def modePart : Nat → Nat
  | 1 => 1
  | 2 => 2
  | _ => 0

namespace Blk

/-- The 64 data bytes of GNS_CMD_DATA0 to GNS_CMD_DATA15 (R262). -/
def gnsData (s : Blk) : List Byte := (List.range 16).flatMap fun k => beBytes 4 (s.fld .GNS_CMD_DATA_data k)

/-- The command of GNS_CMD ends with a result (R263). -/
def gnsEnd (s : Blk) (result : Nat) : Blk :=
  (({ s with gnsCmd := none }).setFld .GNS_CMD_STATUS_result 0 result).setFld .GNS_CMD_STATUS_busy 0 0

/-- A write to GNS_CMD (R262, R263): a command starts, or is rejected while one runs; an op that is none ends at once. -/
def gnsCmdWrite (s : Blk) (op index : Nat) : Blk :=
  if s.gnsCmd.isSome then s.raise .GNS_INT_cmd_reject 0
  else if op = 0 || 5 < op then s.gnsEnd 1
  else ({ s with gnsCmd := some (op, index) }).setFld .GNS_CMD_STATUS_busy 0 1

/-- The running command of GNS_CMD, where its op is `op`, has its effect: a result, and the block after it. -/
def gnsRun (s : Blk) (op : Nat) (f : Blk → Nat → Nat × Blk) : Blk :=
  match s.gnsCmd with
  | none => s
  | some (o, i) =>
    if o = op then
      let (result, s) := f s i
      s.gnsEnd result
    else s

/-! ### Regions -/

/-- A region lies wholly in the partition of its mode (R285). -/
def inPartition (s : Blk) (mode base blocks : Nat) : Bool :=
  let mem := s.fld .GNS_PART_mem_gib 0
  let abs := s.fld .GNS_PART_abs_gib 0
  partOf mem abs (base / 262144) = modePart mode && partOf mem abs ((base + blocks - 1) / 262144) = modePart mode

/-- RGN_SET (R262). -/
def rgnSet (s : Blk) (i : Nat) : Nat × Blk :=
  let b := s.gnsData
  let b0 := beAt b 0 1
  let r : RegionRec :=
    { valid := b0.testBit 7, mode := bits b0 6 4, dup := b0.testBit 3, rd := b0.testBit 2, wr := b0.testBit 1, at_ := b0.testBit 0,
      gen := ((s.region i).gen + 1) % 256, owner := beAt b 2 2, eid := beAt b 4 3 / 16, base := beAt b 8 4 % 2 ^ 28,
      blocks := beAt b 12 4 % 2 ^ 22, gw := beAt b 16 1, epoch := 0 }
  let shared := s.regions.any fun kv => kv.2.valid && kv.2.base < r.base + r.blocks && r.base < kv.2.base + kv.2.blocks
  if (s.region i).valid then (3, s)
  else if 4 ≤ r.mode || r.blocks = 0 || 2097152 < r.blocks || 2 ^ 32 < r.size || (r.dup && r.blocks % 12 ≠ 0) ||
      storeBlocks < r.base + r.blocks || !s.inPartition r.mode r.base r.blocks then (5, s)
  else if shared then (4, s)
  else if r.mode = 3 && !(s.gateway r.gw).valid then (5, s)
  else (0, s.putRegion i r)

/-- Streams that append to a region lose it (R314). -/
def streamsLost (s : Blk) (i : Nat) : Blk :=
  (List.range 256).foldl (fun s k =>
    if s.flag .SHL_STR_CTL_en k && s.fld .SHL_STR_CTL_region k = i then
      let r := s.streams.get ⟨[], [], none⟩ k
      (({ s with streams := s.streams.set ⟨[], [], none⟩ k { r with waiting := [] } }).setFld .SHL_STR_CTL_en k 0).raise
        .SHL_INT_stream_lost 0
    else s) s

/-- The restores of a region that has been cleared or retagged: one that has not enqueued its last frame is to end with
REGION_CHANGED (R303). -/
def restoresChanged (s : Blk) (i : Nat) : Blk :=
  { s with restores := s.restores.map fun kv =>
      (kv.1, if kv.2.region = i && (kv.2.pos < kv.2.length || s.restorePending kv.1) then { kv.2 with changed := true } else kv.2) }

/-- What a region's clearing or retagging does besides: its shards fail, its restores are to end, its streams stop, its gateway's job
ends (R281, R292, R303, R314). -/
def regionChanged (s : Blk) (i : Nat) : Blk :=
  let s := s.restoresChanged i
  let mine := s.shards.filter fun kv => kv.2.region = i && kv.2.state ≠ 0 && kv.2.state ≠ 5
  let s := mine.foldl (fun s kv => s.failShard kv.1 0x0C) s
  (s.streamsLost i).gwRegionChanged i

/-- A region's generation moves on and its zeroing sweep starts, or starts again (R262, R264). -/
def nextGen (s : Blk) (i : Nat) (r : RegionRec) : Blk :=
  let old := s.region i
  let s := { s with sweeps := s.sweeps.put i ⟨old.gen, old.base, old.blocks⟩ }
  (s.putRegion i { r with gen := (old.gen + 1) % 256 }).regionChanged i

/-- RGN_CLEAR (R262). -/
def rgnClear (s : Blk) (i : Nat) : Nat × Blk :=
  let r := s.region i
  if r.valid then (0, s.nextGen i { r with valid := false }) else (7, s)

/-- RGN_RETAG (R262, R289). -/
def rgnRetag (s : Blk) (i : Nat) : Nat × Blk :=
  let r := s.region i
  let b := s.gnsData
  let b0 := beAt b 0 1
  if r.valid then
    (0, s.nextGen i { r with rd := b0.testBit 2, wr := b0.testBit 1, at_ := b0.testBit 0, owner := beAt b 2 2, epoch := 0 })
  else (7, s)

/-- A zeroing sweep ends: the lines that still name the old generation are zero and unwritten, one that a hot-line buffer holds among
them, which is not written back any more (R264, R273). -/
def sweepDone (s : Blk) (i : Nat) : Blk :=
  match s.sweeps.find i with
  | none => s
  | some w =>
    let hit := fun (x : Nat) =>
      let m := s.meta_ x
      m.written && m.region = i && m.gen = w.gen && w.base ≤ x / 16 && x / 16 < w.base + w.blocks && s.stackUp (lineStack x)
    let hot := s.hot.keep fun _ (h : HotLine) => !(h.region = i && h.gen = w.gen)
    let hbm := s.hbm.keep fun a _ => !hit (a / 256)
    let metas := s.lineMeta.mapV .reset fun x m =>
      if hit x then { LineMeta.reset with poison := m.retired, retired := m.retired } else m
    ({ s with hot := hot, hbm := hbm, lineMeta := metas, sweeps := s.sweeps.del i }).raise .GNS_INT_sweep_done 0

/-! ### Gateways -/

/-- A gateway has a job or a pass-through store in progress. -/
def gwWorks (s : Blk) (g : Nat) : Bool :=
  let r := s.gateway g
  r.running.isSome || r.jobs ≠ [] || r.stores ≠ []

/-- GW_SET (R262, R277). -/
def gwSet (s : Blk) (g : Nat) : Nat × Blk :=
  let b := s.gnsData
  let rate := beAt b 60 2
  let pmtu := beAt b 56 1
  let retry := beAt b 57 1 % 8
  let timeout := beAt b 58 1 % 32
  if 255 < g then (2, s)
  else if pmtu < 3 || 5 < pmtu || retry = 0 || timeout = 0 || rate = 0 || 1600 < rate then (5, s)
  else if s.gwWorks g then (6, s)
  else
    (0, s.putGateway g
      { GwRec.reset with
        valid := (beAt b 0 1).testBit 7, v6 := (beAt b 0 1).testBit 6, nh := beAt b 2 2 % 2 ^ 14, dqpn := beAt b 4 4 % 2 ^ 24,
        sqpn := beAt b 8 4 % 2 ^ 24, rkey := beAt b 12 4, rva := beAt b 16 8,
        dip := beAt b 24 16, sip := beAt b 40 16,
        pmtu := pmtu, retryCnt := retry, timeout := timeout, rnrRetry := beAt b 59 1 % 8, rate := rate, cur := rate })

/-- GW_CLEAR (R262). -/
def gwClear (s : Blk) (g : Nat) : Nat × Blk :=
  if 255 < g then (2, s)
  else if s.gwWorks g || s.regions.any fun kv => kv.2.valid && kv.2.mode = 3 && kv.2.gw = g then (6, s)
  else (0, s.putGateway g { s.gateway g with valid := false })

/-! ### The partition -/

/-- A write to GNS_PART (R286). -/
def partWrite (s : Blk) (mem abs : Nat) : Blk :=
  let m := s.fld .GNS_PART_mem_gib 0
  let a := s.fld .GNS_PART_abs_gib 0
  let moved := (List.range 576).filter fun u => partOf m a u ≠ partOf mem abs u
  let held := s.regions.any fun kv =>
    kv.2.valid && moved.any fun u => decide (kv.2.base < (u + 1) * 262144 ∧ u * 262144 < kv.2.base + kv.2.blocks)
  if mem + abs ≤ 576 && !held then
    ((s.setFld .GNS_PART_mem_gib 0 mem).setFld .GNS_PART_abs_gib 0 abs).setFld .GNS_PART_STATUS_jrn_gib 0 (576 - mem - abs)
  else s.raise .GNS_PART_STATUS_reject 0

end Blk

/-! ### Commands -/

/-- RGN_SET (R262). -/
def execRgnSet (s : State) : Host.Outcome State Fault Refusal := run (·.gnsRun 1 Blk.rgnSet) s

/-- RGN_CLEAR (R262). -/
def execRgnClear (s : State) : Host.Outcome State Fault Refusal := run (·.gnsRun 2 Blk.rgnClear) s

/-- RGN_RETAG (R262). -/
def execRgnRetag (s : State) : Host.Outcome State Fault Refusal := run (·.gnsRun 3 Blk.rgnRetag) s

/-- GW_SET (R262). -/
def execGwSet (s : State) : Host.Outcome State Fault Refusal := run (·.gnsRun 4 Blk.gwSet) s

/-- GW_CLEAR (R262). -/
def execGwClear (s : State) : Host.Outcome State Fault Refusal := run (·.gnsRun 5 Blk.gwClear) s

/-- SWEEP_DONE (R264). -/
def execSweepDone (region : BitVec 16) (s : State) : Host.Outcome State Fault Refusal := run (·.sweepDone region.toNat) s

/-- PART_WRITE (R286). -/
def execPartWrite (value : BitVec 32) (s : State) : Host.Outcome State Fault Refusal :=
  run (·.partWrite (bits value.toNat 9 0) (bits value.toNat 19 10)) s

end Sys2Proof.Machine
end

