-- ==== Sys2Proof/Machine/Shale.lean ====
section
/-!
DEFINITION. The Shale journal (R304 to R309, R313, R314): streams, records, marks, trims and replays.
-/

namespace Sys2Proof.Machine

/-- The bytes of a record: its header with the check filled in, its data, and zeros to a multiple of 32 (R305). -/
def shaleRecord (rkind fmtOp kindGroup seq epoch flags w8 w12 pos : Nat) (data : List Byte) : List Byte :=
  let front := beBytes 1 (16 + rkind) ++ beBytes 1 fmtOp ++ beBytes 2 kindGroup ++ beBytes 2 seq ++ beBytes 1 epoch ++ beBytes 1 flags ++
    beBytes 4 w8 ++ beBytes 4 w12 ++ beBytes 8 pos ++ beBytes 2 data.length ++ beBytes 2 0
  front ++ beBytes 4 (crc32c (front ++ beBytes 4 0 ++ data)) ++ data ++ List.replicate ((32 - data.length % 32) % 32) 0

/-- A result record (R305). -/
def resultRecord (j : JournalItem) (pos : Nat) : List Byte :=
  shaleRecord 1 (j.fmt * 16 + j.op) (j.kind * 4096 + j.group) j.seq j.epoch j.flags (j.chunk * 2 ^ 14 + j.count) (j.chunks * 2 ^ 13 + j.n)
    pos j.data

/-- A gap record: the first result lost, and how many were (R305, R306). -/
def gapRecord (group seq lost pos : Nat) : List Byte := shaleRecord 2 0 group seq 0 0 lost 0 pos []

/-- A mark record (R305, R307). -/
def markRecord (ckpt pos : Nat) : List Byte := shaleRecord 3 0 0 0 0 0 ckpt 0 pos []

/-- A stream never used. -/
def StreamRec.reset : StreamRec := ⟨[], [], none⟩

namespace Blk

/-- A stream beside its registers. -/
def stream (s : Blk) (k : Nat) : StreamRec := s.streams.get .reset k

/-- Replace a stream. -/
def putStream (s : Blk) (k : Nat) (r : StreamRec) : Blk := { s with streams := s.streams.set .reset k r }

/-- The logical size of a stream's region. -/
def streamSize (s : Blk) (k : Nat) : Nat := (s.region (s.fld .SHL_STR_CTL_region k)).size

/-- The position at which the next record is appended: after those not yet visible. -/
def streamEnd (s : Blk) (k : Nat) : Nat := s.fld .SHL_STR_WPOS_pos k + ((s.stream k).waiting.map List.length).sum

/-- A record of `n` bytes has room (R306). -/
def streamRoom (s : Blk) (k n : Nat) : Bool := decide (s.streamEnd k + n + 32 ≤ s.fld .SHL_STR_TPOS_pos k + s.streamSize k)

/-- Append one record; the registers count it (R313). -/
def streamPut (s : Blk) (k : Nat) (bs : List Byte) : Blk :=
  let r := s.stream k
  ((s.putStream k { r with waiting := r.waiting ++ [bs] }).count .SHL_RECORDS_count 0 1).count .SHL_BYTES_count 0 bs.length

/-- After an overflow the first record appended is a gap record; ovf clears (R306). -/
def streamGap (s : Blk) (k : Nat) : Blk :=
  match (s.stream k).lost with
  | none => s
  | some (g, q, n) =>
    let s := s.streamPut k (gapRecord g q n (s.streamEnd k))
    (s.putStream k { s.stream k with lost := none }).setFld .SHL_STR_CTL_ovf k 0

/-- A result that finds no room is lost (R306). -/
def streamLose (s : Blk) (k : Nat) (j : JournalItem) : Blk :=
  let r := s.stream k
  let lost := match r.lost with
    | none => (j.group, j.seq, 1)
    | some (g, q, n) => (g, q, n + 1)
  (((s.putStream k { r with lost := some lost }).count .SHL_STR_LOST_count k 1).setFld .SHL_STR_CTL_ovf k 1).raise .SHL_INT_overflow 0

/-- The first result passed to Shale is appended, lost to overflow, or discarded for want of a stream (R304, R306). -/
def journalAppend (s : Blk) : Blk :=
  match s.journal with
  | [] => s
  | j :: js =>
    let s := { s with journal := js }
    let mapped := if s.flag .SHL_CTL_en 0 then j.stream.filter fun k => s.flag .SHL_STR_CTL_en k else none
    match mapped with
    | none => (s.count .SHL_DISCARDED_count 0 1).raise .SHL_INT_no_stream 0
    | some k =>
      if s.streamRoom k (resultRecord j 0).length then
        let s := s.streamGap k
        s.streamPut k (resultRecord j (s.streamEnd k))
      else s.streamLose k j

/-! ### Bytes of a stream -/

/-- Write a run of a record's bytes that lies in one line. A line that cannot be read whole keeps what it has. -/
def streamStore (s : Blk) (region off : Nat) (bs : List Byte) : Blk :=
  match s.readStored region (off / 256) with
  | .ok line _ _ => s.writeLine region (off / 256) 0 (overlay line (off % 256) bs)
  | _ => s

/-- The first record not yet visible is wholly in HBM: the write position passes it (R306). A line with no live copy keeps it
waiting. -/
def recordVisible (s : Blk) (k : Nat) : Blk :=
  let r := s.stream k
  match r.waiting with
  | [] => s
  | bs :: more =>
    let i := s.fld .SHL_STR_CTL_region k
    let pos := s.fld .SHL_STR_WPOS_pos k
    let places := (List.range (bs.length / 32)).map fun u => (pos + 32 * u) % s.streamSize k
    if places.any fun p => s.readStored i (p / 256) = .stackDown then s
    else
      let s := ((List.range (bs.length / 32)).zip places).foldl (fun (s : Blk) up => s.streamStore i up.2 ((bs.drop (32 * up.1)).take 32)) s
      (s.putStream k { r with waiting := more }).setFld .SHL_STR_WPOS_pos k (pos + bs.length)

/-- Read `n` bytes of a stream's region at a position. -/
def streamRead (s : Blk) (region pos n : Nat) : RangeRead :=
  let size := (s.region region).size
  let off := pos % size
  if off + n ≤ size then s.readRange region off n
  else match s.readRange region off (size - off), s.readRange region 0 (n - (size - off)) with
    | .ok a _ _ _ _, .ok b _ _ _ _ => .ok (a ++ b) false false false 0
    | .ok _ _ _ _ _, e => e
    | e, _ => e

/-! ### Commands of a stream (R307, R309) -/

/-- A stream command: its index and its stream checked, its effect, and its record (R298, R299, R307). -/
def streamCmd (s : Blk) (op : Nat) (c : CkpCmd) (f : Blk → Nat → Nat × Nat × Blk) : Blk :=
  let k := c.index.toNat
  let answer := fun (s : Blk) (status value : Nat) => s.endCkp c.cring.toNat status op k c.tag.toNat 0 value 0
  if 255 < k then answer s 2 0
  else if !s.flag .SHL_STR_CTL_en k then answer s 4 0
  else
    let (status, value, s) := f s k
    answer s status value

/-- MARK: a mark record is appended, its position kept with the last 63 (R307). -/
def markStream (s : Blk) (c : CkpCmd) (k : Nat) : Nat × Nat × Blk :=
  if s.streamRoom k 32 then
    let s := s.streamGap k
    let pos := s.streamEnd k
    let s := s.streamPut k (markRecord (beAt c.args 0 4) pos)
    let r := s.stream k
    let marks := r.marks ++ [pos]
    (0, pos, s.putStream k { r with marks := marks.drop (marks.length - 64) })
  else (0x11, 0, s)

/-- TRIM (R307). -/
def trimStream (s : Blk) (c : CkpCmd) (k : Nat) : Nat × Nat × Blk :=
  let pos := beAt c.args 0 8
  let r := s.stream k
  if !r.marks.contains pos || pos < s.fld .SHL_STR_TPOS_pos k then (0x10, 0, s)
  else if s.replays.any fun kv => kv.2.stream = k && kv.2.ended.isNone && kv.2.pos < pos then (7, 0, s)
  else (0, 0, (s.putStream k { r with marks := r.marks.filter fun m => pos ≤ m }).setFld .SHL_STR_TPOS_pos k pos)

/-- REPLAY: it starts, or fails at once (R309). -/
def replayCmd (s : Blk) (c : CkpCmd) : Blk :=
  let k := c.index.toNat
  let fail := fun (status : Nat) => s.ckpRecord c.cring.toNat status 0x12 k c.tag.toNat 0 0 0
  let b := c.args
  let start := beAt b 0 8
  let wpos := s.fld .SHL_STR_WPOS_pos k
  let tpos := s.fld .SHL_STR_TPOS_pos k
  let stop := if beAt b 8 8 = 0 then wpos else beAt b 8 8
  if 255 < k then fail 2
  else if !s.flag .SHL_STR_CTL_en k || stop < tpos || wpos < stop then fail 4
  else if start ≠ tpos && !(s.stream k).marks.contains start then fail 0x10
  else
    let i := s.fld .SHL_STR_CTL_region k
    { s with
      nextWork := s.nextWork + 1
      replays := s.replays.put s.nextWork
        { cring := c.cring.toNat, tag := c.tag.toNat, stream := k, region := i, gen := (s.region i).gen, pos := start, endPos := stop,
          group := beAt b 16 2 % 4096, member := beAt b 18 2, dest := beAt b 20 3 / 16, destOff := beAt b 24 6, destTag := beAt b 30 2,
          destLen := beAt b 32 8, buf := [], sent := 0, ended := none } }

/-- A record header is copied by a replay (R309). -/
def replayWants (r : ReplayRec) (h : List Byte) : Bool :=
  let kind := beAt h 2 2 / 4096
  let w := beAt h 12 4
  beAt h 0 1 % 16 = 1 && beAt h 2 2 % 4096 = r.group &&
    (kind ≠ 2 || r.member = 0xFFFF || decide (r.member = beAt h 8 4 / 2 ^ 14 * (w % 2 ^ 11) / (w / 2 ^ 13)))

/-- A replay reads on, record by record, until it holds a WRITE's payload or ends (R309). -/
def replayRead (s : Blk) : Nat → ReplayRec → ReplayRec
  | 0, r => r
  | n + 1, r =>
    if r.ended.isSome || 8192 ≤ r.buf.length then r
    else if r.endPos ≤ r.pos then { r with ended := some 0 }
    else match s.streamRead r.region r.pos 32 with
      | .memErr => { r with ended := some 0x0D }
      | .stackDown => { r with ended := some 0x0E }
      | .ok h _ _ _ _ =>
        let len := 32 + ceilDiv (beAt h 24 2) 32 * 32
        let gap := beAt h 0 1 % 16 = 2
        if gap || replayWants r h then
          match s.streamRead r.region r.pos len with
          | .memErr => { r with ended := some 0x0D }
          | .stackDown => { r with ended := some 0x0E }
          | .ok bs _ _ _ _ =>
            if r.destLen < r.sent + r.buf.length + len then { r with ended := some 0x13 }
            else s.replayRead n { r with pos := r.pos + len, buf := r.buf ++ bs, ended := if gap then some 0x12 else none }
        else s.replayRead n { r with pos := r.pos + len }

/-- One step of a replay: it reads, sends its next WRITE, and ends when it has stopped and every WRITE is answered (R309). A
region cleared or retagged stops it (R314). -/
def replayStep (s : Blk) (id : Nat) : Blk :=
  match s.replays.find id with
  | none => s
  | some r =>
    let reg := s.region r.region
    let r :=
      if r.ended.isNone && (!reg.valid || reg.gen ≠ r.gen) then { r with ended := some 0x0C }
      else s.replayRead (r.endPos - r.pos + 1) r
    let bs := r.buf.take 8192
    let s := { s with replays := s.replays.put id { r with buf := r.buf.drop 8192, sent := r.sent + bs.length } }
    let s :=
      if bs = [] then s
      else s.sendOwn (.replay id) (engineTile (s.engineDie r.region (r.pos % max 1 reg.size / 256))) r.dest reg.eid r.destTag
        (r.destOff + r.sent) bs
    s.replayCheck id

/-! ### Registers of a stream (R314) -/

/-- A write of SHL_STR_CTL with en = 1 (R314). -/
def streamEnable (s : Blk) (k region : Nat) : Blk :=
  if s.flag .SHL_STR_CTL_en k then
    if region = s.fld .SHL_STR_CTL_region k then s else s.raise .SHL_INT_cfg_reject 0
  else
    let r := s.region region
    if r.valid && r.mode = 2 && 65536 ≤ r.size then
      (((((s.setFld .SHL_STR_CTL_region k region).setFld .SHL_STR_CTL_en k 1).setFld .SHL_STR_CTL_ovf k 0).setFld .SHL_STR_WPOS_pos k 0).setFld
        .SHL_STR_TPOS_pos k 0).putStream k .reset
    else s.raise .SHL_INT_cfg_reject 0

/-- A write of SHL_STR_CTL with en = 0: appending stops at once, and what is not yet visible is not written (R314). -/
def streamDisable (s : Blk) (k region : Nat) : Blk :=
  if s.flag .SHL_STR_CTL_en k then
    let s := if region = s.fld .SHL_STR_CTL_region k then s else s.raise .SHL_INT_cfg_reject 0
    (s.putStream k { s.stream k with waiting := [] }).setFld .SHL_STR_CTL_en k 0
  else s.setFld .SHL_STR_CTL_region k region

/-- A write of SHL_GRP_MAP (R313, R314). -/
def groupMapWrite (s : Blk) (g v : Nat) : Blk := (s.setFld .SHL_GRP_MAP_valid g (bits v 31 31)).setFld .SHL_GRP_MAP_stream g (bits v 7 0)

/-- A checkpoint or journal command runs by its op; one of an op that is none ends with BAD_CMD (R297, R298). -/
def runCkp (s : Blk) (ring : Nat) (w : Bytes64) : Blk :=
  let c := ckpCmd w
  s.ckpTake ring fun s =>
    match (w.extractLsb' 504 8).toNat with
    | 1 => s.shardCmd 1 c fun s i => s.openCmd c i
    | 2 => s.shardCmd 2 c fun s i => s.releaseCmd i
    | 3 => s.shardCmd 3 c fun s i => s.mirrorCmd i
    | 4 => s.shardCmd 4 c fun s i => s.drainCmd i
    | 8 => s.restoreCmd c
    | 16 => s.streamCmd 0x10 c fun s k => s.markStream c k
    | 17 => s.streamCmd 0x11 c fun s k => s.trimStream c k
    | 18 => s.replayCmd c
    | op => s.endCkp c.cring.toNat 1 op c.index.toNat c.tag.toNat 0 0 0

end Blk

/-! ### Commands -/

/-- JOURNAL_APPEND (R304, R306). -/
def execJournalAppend (s : State) : Host.Outcome State Fault Refusal := run Blk.journalAppend s

/-- JOURNAL_RECORD_VISIBLE (R306). -/
def execJournalRecordVisible (stream : StreamId) (s : State) : Host.Outcome State Fault Refusal := run (·.recordVisible stream) s

/-- OPEN (R298); and a command of an op that is none. -/
def execOpenShard (ring : RingId) (cmd : Bytes64) (s : State) : Host.Outcome State Fault Refusal := run (·.runCkp ring cmd) s

/-- RELEASE (R298). -/
def execRelease (ring : RingId) (cmd : Bytes64) (s : State) : Host.Outcome State Fault Refusal := run (·.runCkp ring cmd) s

/-- MIRROR (R298). -/
def execMirror (ring : RingId) (cmd : Bytes64) (s : State) : Host.Outcome State Fault Refusal := run (·.runCkp ring cmd) s

/-- DRAIN (R298). -/
def execDrain (ring : RingId) (cmd : Bytes64) (s : State) : Host.Outcome State Fault Refusal := run (·.runCkp ring cmd) s

/-- RESTORE (R301). -/
def execRestore (ring : RingId) (cmd : Bytes64) (s : State) : Host.Outcome State Fault Refusal := run (·.runCkp ring cmd) s

/-- MARK (R307). -/
def execMark (ring : RingId) (cmd : Bytes64) (s : State) : Host.Outcome State Fault Refusal := run (·.runCkp ring cmd) s

/-- TRIM (R307). -/
def execTrim (ring : RingId) (cmd : Bytes64) (s : State) : Host.Outcome State Fault Refusal := run (·.runCkp ring cmd) s

/-- REPLAY (R309). -/
def execReplay (ring : RingId) (cmd : Bytes64) (s : State) : Host.Outcome State Fault Refusal := run (·.runCkp ring cmd) s

/-- REPLAY_WRITE (R309). -/
def execReplayWrite (work : Nat) (s : State) : Host.Outcome State Fault Refusal := run (·.replayStep work) s

/-- STREAM_ENABLE (R314). -/
def execStreamEnable (stream : StreamId) (region : BitVec 16) (s : State) : Host.Outcome State Fault Refusal :=
  run (·.streamEnable stream region.toNat) s

/-- STREAM_DISABLE (R314). -/
def execStreamDisable (stream : StreamId) (region : BitVec 16) (s : State) : Host.Outcome State Fault Refusal :=
  run (·.streamDisable stream region.toNat) s

/-- GROUP_MAP_WRITE (R314). -/
def execGroupMapWrite (group : BitVec 12) (value : BitVec 32) (s : State) : Host.Outcome State Fault Refusal :=
  run (·.groupMapWrite group.toNat value.toNat) s

end Sys2Proof.Machine
end

