-- ==== Sys2Proof/Machine/Optics.lean ====
section
/-!
DEFINITION. Optical engines and laser modules (chapter 10): shutters (R316), light (R317 to R320), and the modulator loops of
the lanes (R321 to R324).
-/

namespace Sys2Proof.Machine

/-- The states of a modulator loop (R322). -/
inductive LoopCode where
  | off | sweep | live | pilot | hold | fault
  deriving DecidableEq, Repr

/-- The code that MICA_LANE_STATUS.state shows. -/
def LoopCode.code : LoopCode → Nat
  | .off => 0
  | .sweep => 1
  | .live => 2
  | .pilot => 3
  | .hold => 4
  | .fault => 5

/-- A signed 16-bit reading. -/
def signed16 (v : Nat) : Int := if v % 65536 < 32768 then (v % 65536 : Nat) else ((v % 65536 : Nat) : Int) - 65536

/-- The tile of a lane, lanes being numbered 64 × tile + engine lane. -/
def laneTile (k : Nat) : Nat := k / 64

/-- The Mica controller of a tile's lanes (R321). -/
def micaOf (t : Nat) : Nat := 2 * (t / 8) + t % 8 / 4

/-- The laser module and the laser of a lane (R317). -/
def laserOf (k : Nat) : Nat × Nat := (laneTile k / 2, 4 * (laneTile k % 2) + k % 64 / 16)

/-- The lanes of a laser (R317). -/
def laserLanes (m j : Nat) : List Nat := (List.range 16).map fun a => 64 * (2 * m + j / 4) + 16 * (j % 4) + a

/-- The lanes of a controller's rings (R321). -/
def micaLanes (c : Nat) : List Nat := (List.range 256).map fun a => 256 * c + a

namespace Blk

/-- The link of a lane by its port's breakout mode (R20, R40, R89). -/
def laneLink (s : Blk) (k : Nat) : Nat := 4 * (k / 8) + k % 8 / lanesPerLink (s.breakout (k / 8))

/-- A lane is the lowest of its link. -/
def lowestLane (s : Blk) (k : Nat) : Bool := k % 8 % lanesPerLink (s.breakout (k / 8)) = 0

/-- A lane's loop is in a state. -/
def loopIn (s : Blk) (k : Nat) (c : LoopCode) : Bool := s.fld .MICA_LANE_STATUS_state k = c.code

/-- A Mica controller runs its firmware (R345). -/
def micaRuns (s : Blk) (c : Nat) : Bool := s.bit .MICA_CTRL_STATUS_run 0 c

/-- A lane's laser has light (R320). -/
def lit (s : Blk) (k : Nat) : Bool := s.bit .MICA_ELS_STATUS_on (laserOf k).1 (laserOf k).2

/-- A reset in progress takes tile `t` (R402, R409). -/
def tileResets (s : Blk) (t : Nat) : Bool :=
  s.resets.any fun r => r.level ≤ 1 || (r.level = 2 && r.die = t / 8) || (r.level = 3 && r.tile = t)

/-- A lane's shutter is closed (R316, R505, R520); in recovery mode every one is (R342). -/
def shut (s : Blk) (k : Nat) : Bool :=
  let t := laneTile k
  let l := s.laneLink k
  s.flag .MICA_OE_CTL_quench t || s.isIn l .disabled || (s.isIn l .keepalive && !s.lowestLane k) ||
  s.loopIn k .off || s.loopIn k .sweep || s.loopIn k .fault || s.tileResets t || s.leftDark t || !s.domOn (32 + t) || s.powerHold || s.tripped ||
  s.fld .IMG_BOOT_phase 0 = 3

/-- A reading of R345: what lies below −30 dBm shows as 0x8000. -/
def shownPower (power : Nat) : Nat := if signed16 power < -3000 then 0x8000 else power

/-- A lane's loop enters a state: locked counts the lanes in LIVE and PILOT, and all_locked is set as it reaches 64 (R322,
R344). -/
def setLoop (s : Blk) (k : Nat) (c : LoopCode) : Blk :=
  let t := laneTile k
  let was := s.loopIn k .live || s.loopIn k .pilot
  let now_ := c = .live || c = .pilot
  let n := s.fld .MICA_OE_STATUS_locked t
  let s := s.setFld .MICA_LANE_STATUS_state k c.code
  if was && !now_ then s.setFld .MICA_OE_STATUS_locked t (n - 1)
  else if !was && now_ then
    let s := s.setFld .MICA_OE_STATUS_locked t (n + 1)
    if n + 1 = 64 then s.raise .MICA_OE_INT_all_locked t else s
  else s

/-- A lane's loop enters FAULT (R322, R344). -/
def laneFault (s : Blk) (k : Nat) : Blk :=
  ((s.setLoop k .fault).count .MICA_OE_FAULTS_count (laneTile k) 1).raise .MICA_OE_INT_lane_fault (laneTile k)

/-- A sweep may start: from OFF, HOLD or FAULT (R323). -/
def maySweep (s : Blk) (k : Nat) : Bool := s.loopIn k .off || s.loopIn k .hold || s.loopIn k .fault

/-- Start the sweeps that wait on a controller, at most 16 at once (R447). -/
def startSweeps (s : Blk) (c : Nat) : Blk :=
  let room := 16 - ((micaLanes c).filter fun k => s.loopIn k .sweep).length
  let go := (s.sweepWait.filter fun k => micaOf (laneTile k) = c && s.maySweep k).take room
  if s.micaRuns c then
    go.foldl (fun s k => s.setLoop k .sweep) { s with sweepWait := s.sweepWait.filter fun k => ¬ go.contains k }
  else s

/-- A lane is to sweep: at once, or as its controller has room (R322, R447). -/
def wantSweep (s : Blk) (k : Nat) : Blk :=
  if s.sweepWait.contains k then s
  else ({ s with sweepWait := s.sweepWait ++ [k] }).startSweeps (micaOf (laneTile k))

/-- An OFF lane with its engine's domain powered and light sweeps, and a HOLD lane with light and a running controller goes
on: to PILOT, or, its lock error being too large (`far`), to a sweep (R322). -/
def resumeLane (s : Blk) (far : Nat → Bool) (k : Nat) : Blk :=
  if s.loopIn k .off && s.domOn (32 + laneTile k) && s.lit k then s.wantSweep k
  else if s.loopIn k .hold && s.lit k && s.micaRuns (micaOf (laneTile k)) then
    if far k then s.wantSweep k else ({ s with sweepWait := s.sweepWait.erase k }).setLoop k .pilot
  else s

/-- A LIVE or PILOT lane holds its heater code (R322). -/
def holdLane (s : Blk) (k : Nat) : Blk := if s.loopIn k .live || s.loopIn k .pilot then s.setLoop k .hold else s

/-- The loops of a controller that enters reset hold (R322). -/
def micaStop (s : Blk) (c : Nat) : Blk :=
  (micaLanes c).foldl (fun s k => s.holdLane k) (s.setBit .MICA_CTRL_STATUS_run 0 c false)

/-- A controller runs its firmware: its lanes go on (R322). -/
def micaRun (s : Blk) (c : Nat) (far : Nat → Bool) : Blk :=
  let s := s.setBit .MICA_CTRL_STATUS_run 0 c true
  ((micaLanes c).foldl (fun s k => s.resumeLane far k) s).startSweeps c

/-- An engine's domain is powered down: its loops are OFF, heaters off (R322, R423). -/
def oeOff (s : Blk) (t : Nat) : Blk :=
  (List.range 64).foldl (fun s a => (s.setLoop (64 * t + a) .off).setFld .MICA_LANE_STATUS_heater (64 * t + a) 0)
    { s with sweepWait := s.sweepWait.filter fun k => laneTile k ≠ t }

/-- An engine's domain is powered up: its lit lanes sweep (R322, R423). -/
def oeOn (s : Blk) (t : Nat) : Blk := (List.range 64).foldl (fun s a => s.resumeLane (fun _ => false) (64 * t + a)) s

/-- MICA_OE_CTL.sweep written 1 (R322, R344). -/
def oeSweep (s : Blk) (t : Nat) : Blk :=
  ((List.range 64).map fun a => 64 * t + a).foldl (fun s k =>
    if s.loopIn k .fault && s.isIn (s.laneLink k) .disabled then s.wantSweep k else s) s

/-! ### Laser modules -/

/-- ELS_EN of a module: en, with the module present, and no hold of R505 or thermal trip (R319, R505, R520). -/
def elsEn (s : Blk) (m : Nat) : Bool :=
  s.flag .MICA_ELS_CTL_en m && s.flag .MICA_ELS_STATUS_present m && !s.powerHold && !s.tripped

/-- The number of an output pin among the digital pins. -/
def padNumber : OutPin → Nat
  | .elsEn m => 16 + m
  | .ppsOut => 32
  | .thermtrip => 33

/-- What the block makes of an output pin: the level driven, or none (R495, R505). In the hold of R505 pads are high-impedance but
for ELS_EN, which is low, and THERMTRIP_N; EXTEST drives them from the boundary register. -/
def padOf (s : Blk) (p : OutPin) : Option Bool :=
  if s.powerHold && p = .ppsOut then none
  else if s.jtagActs = .extest then Config.boundaryPad s.boundary (padNumber p)
  else some (match p with
    | .elsEn m => s.elsEn m
    | .ppsOut => s.ppsOut
    | .thermtrip => !s.tripped)

/-- Tell a change of an output pin. -/
def tellPin (old s : Blk) (p : OutPin) : Blk :=
  if old.padOf p = s.padOf p then s
  else match s.padOf p with
    | some l => s.emit (.pin p l)
    | none => s.emit (.floats p)

/-- Tell every change of the output pins. -/
def tellPins (old s : Blk) : Blk :=
  ((List.range 16).map OutPin.elsEn ++ [OutPin.ppsOut, OutPin.thermtrip]).foldl (fun s p => Blk.tellPin old s p) s

/-- Tell a change of a module's ELS_EN pin. -/
def elsPin (old s : Blk) (m : Nat) : Blk := Blk.tellPin old s (.elsEn m)

/-- MICA_ELS_CTL.en written (R319). -/
def elsWrite (s : Blk) (m : Nat) (en : Bool) : Blk := s.elsPin (s.setFld .MICA_ELS_CTL_en m (if en then 1 else 0)) m

/-- ELS_PRSNT_N changes; a removal clears en (R319, R345). -/
def elsPresent (s : Blk) (m : Nat) (present : Bool) : Blk :=
  if s.flag .MICA_ELS_STATUS_present m = present then s
  else
    let t := (s.setFld .MICA_ELS_STATUS_present m (if present then 1 else 0)).raiseBit .MICA_ELS_INT_change 0 m
    s.elsPin (if present then t else t.setFld .MICA_ELS_CTL_en m 0) m

/-- ELS_FAULT_N changes (R319, R345). -/
def elsFault (s : Blk) (m : Nat) (fault : Bool) : Blk :=
  if s.flag .MICA_ELS_STATUS_fault m = fault then s
  else (s.setFld .MICA_ELS_STATUS_fault m (if fault then 1 else 0)).raiseBit .MICA_ELS_INT_change 0 m

/-- A laser's tap reads below +14.0 dBm: its lanes hold, their links go down, and the loss is shown (R320, R344). A sweep that was
written for a FAULT lane and waits its turn is still to come: its start needs no light (R322, R447). -/
def lightLost (s : Blk) (m j power : Nat) : Blk :=
  let s := s.setFld .MICA_ELS_PWR_pwr (8 * m + j) (shownPower power)
  if s.bit .MICA_ELS_STATUS_on m j && signed16 power < 1400 then
    let t := 2 * m + j / 4
    let lanes := laserLanes m j
    let s := (s.setBit .MICA_ELS_STATUS_on m j false).setBit .MICA_OE_STATUS_light t (j % 4) false
    let s := lanes.foldl (fun s k => s.holdLane k) { s with sweepWait := s.sweepWait.filter fun k => ¬ (lanes.contains k && !s.loopIn k .fault) }
    let links := (lanes.map fun k => s.laneLink k).dedup
    let s := links.foldl (fun s l => if s.isIn l .disabled || s.isIn l .holdDown then s else s.toHoldDown l) s
    (s.raise .MICA_OE_INT_light_loss t).raiseBit .MICA_ELS_INT_change 0 m
  else s

/-- A laser's tap reads at least +15.0 dBm: its lanes go on, `far` giving those of its 16 lanes whose lock error is larger
than ±12.7 GHz (R320, R322). -/
def lightBack (s : Blk) (m j power far : Nat) : Blk :=
  let s := s.setFld .MICA_ELS_PWR_pwr (8 * m + j) (shownPower power)
  if !s.bit .MICA_ELS_STATUS_on m j && 1500 ≤ signed16 power then
    let t := 2 * m + j / 4
    let s := (s.setBit .MICA_ELS_STATUS_on m j true).setBit .MICA_OE_STATUS_light t (j % 4) true
    let s := (s.raise .MICA_OE_INT_light_ok t).raiseBit .MICA_ELS_INT_change 0 m
    (laserLanes m j).foldl (fun s k => s.resumeLane (fun k => far.testBit (k % 16)) k) s
  else s

/-! ### Lanes -/

/-- A sweep ends as `f` says, and the next one starts. -/
def endSweep (s : Blk) (k : Nat) (f : Blk → Blk) : Blk := (f s).startSweeps (micaOf (laneTile k))

/-- A sweep finds its resonance (R322). -/
def resonance (s : Blk) (k heater : Nat) : Blk :=
  if s.loopIn k .sweep then s.endSweep k fun s => (s.setFld .MICA_LANE_STATUS_heater k heater).setLoop k .pilot else s

/-- A sweep runs 50 ms without resonance (R322). -/
def sweepTimeout (s : Blk) (k : Nat) : Blk := if s.loopIn k .sweep then s.endSweep k (·.laneFault k) else s

/-- A heater code reaches the end of its range (R322). -/
def heaterEnd (s : Blk) (k : Nat) : Blk :=
  if s.loopIn k .sweep then s.endSweep k (·.laneFault k)
  else if s.loopIn k .live || s.loopIn k .pilot then s.laneFault k
  else s

/-- A lane's sample: the monitors of an engine that has power are read, and a loop in LIVE or PILOT is updated (R323, R344). -/
def loopUpdate (s : Blk) (k : Nat) (x : LaneSample) : Blk :=
  let s := if s.domOn (32 + laneTile k) then
      (s.setFld .MICA_LANE_PWR_tx_pwr k x.txPower.toNat).setFld .MICA_LANE_PWR_rx_pwr k x.rxPower.toNat
    else s
  if s.loopIn k .live || s.loopIn k .pilot then
    (s.setFld .MICA_LANE_STATUS_heater k x.heater.toNat).setFld .MICA_LANE_STATUS_lock_err k x.lockErr.toNat
  else s

/-- A lane's driver starts modulating, or is parked or muted (R322, R323). -/
def driverChange (s : Blk) (k : Nat) (modulates : Bool) : Blk :=
  if modulates && s.loopIn k .pilot then s.setLoop k .live
  else if !modulates && s.loopIn k .live then s.setLoop k .pilot
  else s

end Blk

/-! ### Meanings of the optical engine rows -/

open Blk

/-- The number of a lane. -/
def laneKey (t : TileId) (e : LaneNo) : Nat := 64 * t.val + e.val

/-- R316, R344. -/
def execQuench (tile : TileId) (on : Bool) (s : State) : Host.Outcome State Fault Refusal :=
  run (·.setFld .MICA_OE_CTL_quench tile (if on then 1 else 0)) s

/-- R322, R344. -/
def execOeSweep (tile : TileId) (s : State) : Host.Outcome State Fault Refusal := run (·.oeSweep tile) s

/-- R319. -/
def execElsEnWrite (els : ElsId) (en : Bool) (s : State) : Host.Outcome State Fault Refusal := run (·.elsWrite els en) s

/-- R319. -/
def execElsPresenceChange (els : ElsId) (present : Bool) (s : State) : Host.Outcome State Fault Refusal :=
  run (·.elsPresent els present) s

/-- R319. -/
def execElsFaultChange (els : ElsId) (fault : Bool) (s : State) : Host.Outcome State Fault Refusal :=
  run (·.elsFault els fault) s

/-- R320. -/
def execLaserLightLost (els : ElsId) (laser : Fin 8) (power : BitVec 16) (s : State) : Host.Outcome State Fault Refusal :=
  run (·.lightLost els laser power.toNat) s

/-- R320. -/
def execLaserLightReturn (els : ElsId) (laser : Fin 8) (power far : BitVec 16) (s : State) :
    Host.Outcome State Fault Refusal :=
  run (·.lightBack els laser power.toNat far.toNat) s

/-- R322. -/
def execResonanceFound (tile : TileId) (lane : LaneNo) (heater : BitVec 16) (s : State) : Host.Outcome State Fault Refusal :=
  run (·.resonance (laneKey tile lane) heater.toNat) s

/-- R322. -/
def execSweepTimeout (tile : TileId) (lane : LaneNo) (s : State) : Host.Outcome State Fault Refusal :=
  run (·.sweepTimeout (laneKey tile lane)) s

/-- R322. -/
def execHeaterRangeEnd (tile : TileId) (lane : LaneNo) (s : State) : Host.Outcome State Fault Refusal :=
  run (·.heaterEnd (laneKey tile lane)) s

/-- R323. -/
def execLoopUpdate (tile : TileId) (lane : LaneNo) (sample : LaneSample) (s : State) : Host.Outcome State Fault Refusal :=
  run (·.loopUpdate (laneKey tile lane) sample) s

/-- R322, R323. -/
def execLaneDriverChange (tile : TileId) (lane : LaneNo) (modulates : Bool) (s : State) : Host.Outcome State Fault Refusal :=
  run (·.driverChange (laneKey tile lane) modulates) s

end Sys2Proof.Machine
end

