-- ==== Sys2Proof/Machine/Foiraeth.lean ====
section
/-!
DEFINITION. The Foiraeth by-pass router (chapter 10): rings (R325 to R329), the colour directory and its commands (R330 to
R332), publication (R333, R334), taps (R336), LOCATE (R337 to R339) and holding (R341).
-/

namespace Sys2Proof.Machine

/-- The states of a router ring (R328). -/
inductive RingCode where
  | off | track | lock | hold | block | fault
  deriving DecidableEq, Repr

/-- The code that rstate shows. -/
def RingCode.code : RingCode → Nat
  | .off => 0
  | .track => 1
  | .lock => 2
  | .hold => 3
  | .block => 4
  | .fault => 5

/-- The states of a directory entry (R330). -/
inductive DirCode where
  | free | granted | active | revoking | blocked | fault
  deriving DecidableEq, Repr

/-- The code that dstate shows. -/
def DirCode.code : DirCode → Nat
  | .free => 0
  | .granted => 1
  | .active => 2
  | .revoking => 3
  | .blocked => 4
  | .fault => 5

/-- The output of a ring (R325). -/
def ringOut (r : Nat) : Nat := (r / 64 + r % 64) % 64

/-- A signed byte. -/
def signed8 (v : Nat) : Int := if v % 256 < 128 then (v % 256 : Nat) else ((v % 256 : Nat) : Int) - 256

/-- A directory entry as one 64-bit number (R343). -/
def dirEntry (r : Nat) (x : FoiRing) : Nat :=
  x.dstate * 2 ^ 61 + x.holder * 2 ^ 40 + ringOut r * 2 ^ 32 + x.seq * 2 ^ 16 + x.drop

/-- A ring table entry as one 64-bit number (R343). -/
def ringEntry (x : FoiRing) : Nat := x.heater * 2 ^ 48 + x.lockErr * 2 ^ 40 + x.rstate * 2 ^ 32 + x.drop

/-! ### Powers in milliwatts (R337, R339) -/

/-- Bisect for the largest x, `n` bits wide from `x` on, of which `x ^ 1000 × den ≤ num`. -/
def rootBits (num den : Nat) : Nat → Nat → Nat
  | 0, x => x
  | n + 1, x => rootBits num den n (if (x + 2 ^ n) ^ 1000 * den ≤ num then x + 2 ^ n else x)

/-- The power of a reading, in units of 2⁻⁶⁴ mW: 2⁶⁴ × 10^(d ÷ 1,000) rounded down, a reading below −30 dBm counting as
none. -/
def milliwatts (d : Int) : Nat :=
  if d < -3000 then 0
  else if 0 ≤ d then rootBits (2 ^ 64000 * 10 ^ d.toNat) 1 176 0
  else rootBits (2 ^ 64000) (10 ^ (-d).toNat) 64 0

/-- The higher middle value (R337). -/
def median (xs : List Int) : Int :=
  let ys := xs.insertionSort (· ≤ ·)
  ys.getD (ys.length / 2) 0

namespace Blk

/-- A ring and its directory entry. -/
def foiRing (s : Blk) (r : Nat) : FoiRing := s.foi.get .reset r

/-- Replace a ring; FOI_STATUS.active follows (R345). -/
def putFoi (s : Blk) (r : Nat) (x : FoiRing) : Blk :=
  let was := if (s.foiRing r).dstate = 2 then 1 else 0
  let now_ := if x.dstate = 2 then 1 else 0
  ({ s with foi := s.foi.set .reset r x }).setFld .FOI_STATUS_active 0 (s.fld .FOI_STATUS_active 0 - was + now_)

/-- A ring's loop is in a state. -/
def ringIn (s : Blk) (r : Nat) (c : RingCode) : Bool := (s.foiRing r).rstate = c.code

/-- A directory entry is in a state. -/
def entryIn (s : Blk) (r : Nat) (c : DirCode) : Bool := (s.foiRing r).dstate = c.code

/-- A ring's drop tap reading. -/
def dropTap (s : Blk) (r : Nat) : Int := signed16 (s.foiRing r).drop

/-- act_dbm in units of 0.01 dBm (R345). -/
def actDbm (s : Blk) : Int := signed8 (s.fld .FOI_CFG_act_dbm 0) * 50

/-- rogue_dbm in units of 0.01 dBm (R345). -/
def rogueDbm (s : Blk) : Int := signed8 (s.fld .FOI_CFG_rogue_dbm 0) * 50

/-- A ring moves to a heater code that the fused calibration table gives (R328, R329): the spec states no values of it. -/
def fusedHeater (s : Blk) (r : Nat) (f : FoiRing → FoiRing) : Blk :=
  let (h, s) := s.free 16
  s.putFoi r { f (s.foiRing r) with heater := h }

/-- A ring moves to its block point, at once where its loop runs, otherwise as it resumes (R328, R330). -/
def blockRing (s : Blk) (r : Nat) : Blk :=
  if s.ringIn r .track || s.ringIn r .lock then s.fusedHeater r fun x => { x with rstate := 4 } else s

/-- A directory entry becomes BLOCKED: its ring is blocked, its holder cleared (R330). -/
def blockEntry (s : Blk) (r : Nat) : Blk :=
  let s := s.blockRing r
  s.putFoi r { s.foiRing r with dstate := 4, holder := 0 }

/-! ### The loops (R328, R340, R341) -/

/-- A ring starts, or resumes from HOLD (R328). -/
def startRing (s : Blk) (r : Nat) : Blk :=
  if s.ringIn r .off then
    s.fusedHeater r fun x => { x with rstate := if x.dstate = 4 then 4 else 1 }
  else if s.ringIn r .hold then
    if s.entryIn r .blocked then s.fusedHeater r fun x => { x with rstate := 4 }
    else s.putFoi r { s.foiRing r with rstate := if -2000 ≤ s.dropTap r then 2 else 1 }
  else s

/-- FOI_STATUS.loops (R345), by the two halves. -/
def foiLoops (s : Blk) : Blk :=
  s.setFld .FOI_STATUS_loops 0
    (if s.foiHalves.contains 2 then 2 else if s.foiHalves.contains 1 then 1 else 0)

/-- The hold has ended: its seconds are kept, and hold_over is set after more than 30 s (R341). -/
def endHold (s : Blk) : Blk :=
  match s.foiHold with
  | none => s
  | some t =>
    let s := ({ s with foiHold := none }).setFld .FOI_STATUS_hold_s 0 (min 255 ((s.now - t) / 10 ^ 9))
    if 30 * 10 ^ 9 < s.now - t then s.raise .FOI_INT_hold_over 0 else s

/-- FOI_STATUS.hold_s: the seconds of the current or last hold (R341). -/
def holdSeconds (s : Blk) : Nat :=
  match s.foiHold with
  | none => s.fld .FOI_STATUS_hold_s 0
  | some t => min 255 ((s.now - t) / 10 ^ 9)

/-- The rings of MICA0 (half 0) or MICA1 (half 1) start or resume (R321, R328). -/
def startHalf (s : Blk) (h : Nat) : Blk :=
  if s.flag .FOI_CTL_en 0 && s.micaRuns h && s.foiHalves.getD h 0 ≠ 1 then
    let s := (List.range 2048).foldl (fun s k => s.startRing (2048 * h + k)) s
    let s := { s with foiHalves := s.foiHalves.set h 1 }
    (if s.foiHalves.contains 2 then s else s.endHold).foiLoops
  else s

/-- The rings of a half hold their heater codes (R328). -/
def stopHalf (s : Blk) (h : Nat) : Blk :=
  if s.foiHalves.getD h 0 = 1 then
    let hits := s.foi.keys.filter fun r => r / 2048 = h && (s.ringIn r .track || s.ringIn r .lock)
    let s := hits.foldl (fun s r => s.putFoi r { s.foiRing r with rstate := 3 }) s
    ({ s with foiHalves := s.foiHalves.set h 2, foiHold := some (s.foiHold.getD s.now) }).foiLoops
  else s

/-- A Mica controller enters reset: its modulator loops, and for MICA0 and MICA1 its router rings, hold (R322, R328). -/
def ctrlStop (s : Blk) (c : Nat) : Blk := (s.micaStop c).stopHalf c

/-- A Mica controller starts its firmware (R322, R328). -/
def ctrlRun (s : Blk) (c : Nat) (far : Nat → Bool) : Blk := (s.micaRun c far).startHalf c

/-- A ring enters FAULT, and its entry with it (R328, R330). -/
def ringFault (s : Blk) (r : Nat) : Blk :=
  if 1 ≤ (s.foiRing r).rstate ∧ (s.foiRing r).rstate ≤ 4 then
    (s.putFoi r { s.foiRing r with rstate := 5, dstate := 5, holder := 0 }).raise .FOI_INT_ring_fault 0
  else s

/-- A tap is sampled; a reading below −30 dBm shows as 0x8000 (R336). -/
def tapSample (s : Blk) (tap : Tap) (power : Nat) : Blk :=
  let v := shownPower power
  match tap with
  | .input i => s.setFld .FOI_BPI_PWR_pwr i v
  | .output o => s.setFld .FOI_BPO_PWR_pwr o v
  | .drop r => s.putFoi r { s.foiRing r with drop := v }

/-! ### Light-driven events (R328, R330) -/

/-- A TRACK ring sees light (R328). -/
def ringLight (s : Blk) (r : Nat) : Blk :=
  if s.ringIn r .track && -2000 ≤ s.dropTap r then s.putFoi r { s.foiRing r with rstate := 2 } else s

/-- A LOCK ring has been dark (R328). -/
def ringDark (s : Blk) (r : Nat) : Blk :=
  if s.ringIn r .lock && s.dropTap r < -2500 then s.fusedHeater r fun x => { x with rstate := 1 } else s

/-- A ring is updated (R329): in LOCK from its drop tap; in TRACK it follows the fused table as the chiplet's temperature moves. -/
def lockUpdate (s : Blk) (r heater lockErr : Nat) : Blk :=
  if s.ringIn r .lock then s.putFoi r { s.foiRing r with heater := heater, lockErr := lockErr }
  else if s.ringIn r .track then s.fusedHeater r id
  else s

/-- Light on a FREE ring (R330). -/
def rogueLight (s : Blk) (r : Nat) : Blk :=
  if s.entryIn r .free && s.rogueDbm ≤ s.dropTap r then
    let s := (s.count .FOI_ROGUE_count 0 1).raise .FOI_INT_rogue 0
    if s.flag .FOI_CTL_block_rogue 0 then s.blockEntry r else s
  else s

/-- Light on a GRANTED ring (R330). -/
def circuitActive (s : Blk) (r : Nat) : Blk :=
  if s.entryIn r .granted && s.actDbm ≤ s.dropTap r then s.putFoi r { s.foiRing r with dstate := 2 } else s

/-- An ACTIVE ring loses its light (R330). -/
def circuitLoss (s : Blk) (r : Nat) : Blk :=
  if s.entryIn r .active && s.dropTap r < s.actDbm then
    ((s.putFoi r { s.foiRing r with dstate := 1 }).count .FOI_LOSS_count 0 1).raise .FOI_INT_loss 0
  else s

/-- A REVOKING ring goes dark (R330). -/
def revokeDark (s : Blk) (r : Nat) : Blk :=
  if s.entryIn r .revoking && s.dropTap r < s.rogueDbm then s.putFoi r { s.foiRing r with dstate := 0, holder := 0 } else s

/-- The revoke timer of a lit REVOKING ring expires (R330). -/
def revokeTimer (s : Blk) (r : Nat) : Blk :=
  if s.entryIn r .revoking && s.rogueDbm ≤ s.dropTap r then (s.blockEntry r).raise .FOI_INT_revoke_block 0 else s

/-! ### Commands (R331, R332) -/

/-- A command ends with its result, and LOCATE with its stage (R332, R338, R345). -/
def foiEnd (s : Blk) (result : Nat) : Blk :=
  (({ s with foiCmd := none }).setFld .FOI_CMD_STATUS_busy 0 0).setFld .FOI_CMD_STATUS_result 0 result

/-- FOI_CMD is written (R331, R332): ignored while a command runs; an op that names no command ends at once. -/
def foiCmdWrite (s : Blk) (op ring : Nat) : Blk :=
  if s.foiCmd.isSome then s.raise .FOI_INT_cmd_reject 0
  else if op = 0 || 6 < op then s.foiEnd 1
  else ({ s with foiCmd := some (op, ring) }).setFld .FOI_CMD_STATUS_busy 0 1

/-- The running command of FOI_CMD, where its op is `op`, has its effect. -/
def foiRun (s : Blk) (op : Nat) (f : Blk → Nat → Nat × Blk) : Blk :=
  match s.foiCmd with
  | none => s
  | some (o, r) =>
    if o = op then
      let (result, s) := f s r
      s.foiEnd result
    else s

/-- Entries of an input that are held (R331, R339). -/
def heldEntries (s : Blk) (i : Nat) : Nat :=
  ((List.range 64).filter fun k => 1 ≤ (s.foiRing (64 * i + k)).dstate && (s.foiRing (64 * i + k)).dstate ≤ 3).length

/-- GRANT (R331). -/
def foiGrant (s : Blk) (r : Nat) : Nat × Blk :=
  let x := s.foiRing r
  let eid := s.fld .FOI_CMD_DATA_eid 0
  if s.entryIn r .fault then (8, s)
  else if !s.entryIn r .free then (2, s)
  else if eid = 0 then (3, s)
  else if 16 ≤ s.heldEntries (r / 64) then (4, s)
  else (0, s.putFoi r { x with dstate := 1, holder := eid, seq := (x.seq + 1) % 65536 })

/-- REVOKE (R331). -/
def foiRevoke (s : Blk) (r : Nat) : Nat × Blk :=
  if s.entryIn r .granted || s.entryIn r .active then (0, s.putFoi r { s.foiRing r with dstate := 3 }) else (5, s)

/-- BLOCK (R331). -/
def foiBlock (s : Blk) (r : Nat) : Nat × Blk :=
  if s.entryIn r .fault then (8, s) else if s.entryIn r .blocked then (0, s) else (0, s.blockEntry r)

/-- The loops of a ring's half run (R328). -/
def loopRuns (s : Blk) (r : Nat) : Bool := s.foiHalves.getD (r / 2048) 0 = 1

/-- UNBLOCK (R331): the ring moves to its fused target (R328), and holds there while its half does not run. -/
def foiUnblock (s : Blk) (r : Nat) : Nat × Blk :=
  if s.entryIn r .blocked then
    let s := if s.ringIn r .block then s.fusedHeater r fun x => { x with rstate := if s.loopRuns r then 1 else 3 } else s
    (0, s.putFoi r { s.foiRing r with dstate := 0 })
  else (6, s)

/-- CAL (R331): the target relearned is `heater`; `inRange` says whether it is in range. A ring of a half that does not run holds
(R328). -/
def foiCal (inRange : Bool) (heater : Nat) (s : Blk) (r : Nat) : Nat × Blk :=
  if (s.ringIn r .lock || s.ringIn r .fault) && -2000 ≤ s.dropTap r then
    let x := s.foiRing r
    if s.ringIn r .lock then (0, s.putFoi r { x with heater := heater })
    else if inRange then
      (0, s.putFoi r { x with heater := heater, rstate := if s.loopRuns r then 2 else 3, dstate := if x.dstate = 5 then 0 else x.dstate })
    else (0, s)
  else (7, s)

/-- The procedure of R339: the stage of ring `r`'s loss. -/
def locate (s : Blk) (r : Nat) : Nat :=
  let i := r / 64
  let o := ringOut r
  let bpi := signed16 (s.fld .FOI_BPI_PWR_pwr i)
  let bpo := signed16 (s.fld .FOI_BPO_PWR_pwr o)
  let n := s.heldEntries i
  let drop := s.dropTap r
  let ringDb : Int := s.fld .FOI_CFG_ring_db 0 * 50
  let outDb : Int := s.fld .FOI_CFG_out_db 0 * 50
  let mine := (List.range 64).map fun k => 64 * i + k
  let others := (mine.filter fun q => q ≠ r && s.entryIn q .active).map s.dropTap
  let routed := ((List.range 64).map fun j => 64 * j + (o + 64 - j) % 64).filter fun q => s.entryIn q .active
  let total := (routed.map fun q => milliwatts (s.dropTap q)).sum
  let err := signed8 (s.foiRing r).lockErr
  let weak := bpi + 300 < 0 || 10 ^ (bpi + 300).toNat < n ^ 1000
  if weak then 1
  else if s.ringIn r .fault || (s.ringIn r .lock && (60 < err || err < -60)) then 2
  else if s.ringIn r .track then 1
  else if others ≠ [] && drop < median others - ringDb then 1
  else if others = [] && drop < bpi - ringDb then 2
  else if milliwatts (bpo + outDb) < total then 3
  else 4

/-- LOCATE (R331, R338, R339). -/
def foiLocate (s : Blk) (r : Nat) : Nat × Blk :=
  if s.entryIn r .granted || s.entryIn r .active then (0, s.setFld .FOI_CMD_STATUS_loc 0 (s.locate r))
  else (5, s.setFld .FOI_CMD_STATUS_loc 0 0)

/-! ### Publication (R333, R334) -/

/-- The bytes of a publication (R334). -/
def pubBytes (s : Blk) (seq : Nat) : List Byte :=
  beBytes 1 1 ++ beBytes 1 0 ++ beBytes 2 4096 ++ beBytes 4 seq ++ beBytes 6 s.hallSec ++ beBytes 4 s.hallNsec ++ beBytes 14 0 ++
  ((List.range 4096).flatMap fun r => beBytes 8 (dirEntry r (s.foiRing r))) ++ beBytes 4 seq ++ beBytes 28 0

/-- Write one line's share of a publication; nothing once a line has failed. -/
def pubLine (region off : Nat) (bs : List Byte) (acc : Option Blk) (k : Nat) : Option Blk :=
  match acc with
  | none => none
  | some s =>
    let chunk := (bs.drop (256 * k)).take 256
    match s.readStored region (off / 256 + k) with
    | .ok line _ _ => some (s.writeLine region (off / 256 + k) 0 (overlay line 0 chunk))
    | .memErr => if chunk.length = 256 then some (s.writeLine region (off / 256 + k) 0 chunk) else none
    | .stackDown => none

/-- Jasper publishes the directory while the device is in image running (R333, R340). A failure of any line leaves the
lines before it written, and sets pub_err. -/
def publish (s : Blk) : Blk :=
  let i := s.fld .FOI_PUB_CTL_region 0
  let off := 256 * s.fld .FOI_PUB_OFF_offset 0
  let r := s.region i
  if s.flag .FOI_PUB_CTL_en 0 && s.fld .IMG_BOOT_phase 0 = 2 then
    if r.valid && r.mode = 0 && r.rd && off + 32832 ≤ r.size then
      let seq := (s.fld .FOI_PUB_SEQ_seq 0 + 1) % 2 ^ 32
      let bs := s.pubBytes seq
      let done := (List.range 129).foldl (fun (a : Blk × Bool) k =>
        if a.2 then
          match pubLine i off bs (some a.1) k with
          | some t => (t, true)
          | none => (a.1, false)
        else a) (s, true)
      if done.2 then done.1.setFld .FOI_PUB_SEQ_seq 0 seq else done.1.raise .FOI_INT_pub_err 0
    else s.raise .FOI_INT_pub_err 0
  else s

/-- FOI_CTL.en written 1 (R328, R341). -/
def foiEnable (s : Blk) : Blk := ((s.setFld .FOI_CTL_en 0 1).startHalf 0).startHalf 1

/-- FOI_CTL.en written 0 (R328). -/
def foiDisable (s : Blk) : Blk := ((s.setFld .FOI_CTL_en 0 0).stopHalf 0).stopHalf 1

end Blk

/-! ### Meanings of the by-pass rows -/

open Blk

/-- R328. -/
def execFoiEnable (s : State) : Host.Outcome State Fault Refusal := run Blk.foiEnable s

/-- R328. -/
def execFoiDisable (s : State) : Host.Outcome State Fault Refusal := run Blk.foiDisable s

/-- R328. -/
def execRingLight (ring : WaveId) (s : State) : Host.Outcome State Fault Refusal := run (·.ringLight ring) s

/-- R328. -/
def execRingDark (ring : WaveId) (s : State) : Host.Outcome State Fault Refusal := run (·.ringDark ring) s

/-- R328, R330. -/
def execRingHeaterEnd (ring : WaveId) (s : State) : Host.Outcome State Fault Refusal := run (·.ringFault ring) s

/-- R329. -/
def execRingLockUpdate (ring : WaveId) (heater : BitVec 16) (lockErr : BitVec 8) (s : State) :
    Host.Outcome State Fault Refusal :=
  run (·.lockUpdate ring heater.toNat lockErr.toNat) s

/-- R336. -/
def execTapSample (tap : Tap) (power : BitVec 16) (s : State) : Host.Outcome State Fault Refusal :=
  run (·.tapSample tap power.toNat) s

/-- R330. -/
def execRogueLight (ring : WaveId) (s : State) : Host.Outcome State Fault Refusal := run (·.rogueLight ring) s

/-- R330. -/
def execCircuitActive (ring : WaveId) (s : State) : Host.Outcome State Fault Refusal := run (·.circuitActive ring) s

/-- R330. -/
def execCircuitLoss (ring : WaveId) (s : State) : Host.Outcome State Fault Refusal := run (·.circuitLoss ring) s

/-- R330. -/
def execRevokeDark (ring : WaveId) (s : State) : Host.Outcome State Fault Refusal := run (·.revokeDark ring) s

/-- R330. -/
def execRevokeTimer (ring : WaveId) (s : State) : Host.Outcome State Fault Refusal := run (·.revokeTimer ring) s

/-- R331. -/
def execGrant (s : State) : Host.Outcome State Fault Refusal := run (·.foiRun 1 Blk.foiGrant) s

/-- R331. -/
def execRevoke (s : State) : Host.Outcome State Fault Refusal := run (·.foiRun 2 Blk.foiRevoke) s

/-- R331. -/
def execBlock (s : State) : Host.Outcome State Fault Refusal := run (·.foiRun 3 Blk.foiBlock) s

/-- R331. -/
def execUnblock (s : State) : Host.Outcome State Fault Refusal := run (·.foiRun 4 Blk.foiUnblock) s

/-- R331. -/
def execCal (inRange : Bool) (heater : BitVec 16) (s : State) : Host.Outcome State Fault Refusal :=
  run (·.foiRun 5 (Blk.foiCal inRange heater.toNat)) s

/-- R339. -/
def execLocate (s : State) : Host.Outcome State Fault Refusal := run (·.foiRun 6 Blk.foiLocate) s

/-- R333. -/
def execDirectoryPublication (s : State) : Host.Outcome State Fault Refusal := run Blk.publish s

end Sys2Proof.Machine
end

