-- ==== Sys2Proof/Machine/Quartz.lean ====
section
/-!
DEFINITION. Quartz (chapter 11): the raw counter, rate, offset and steps (R346 to R350, R352), latches, tile copies,
timestamps and the PPS pins (R353 to R359).
-/

namespace Sys2Proof.Machine

/-- The bounds of QTZ_RATE (R349). -/
def clampRate (r : Int) : Int := max (-4194304) (min 4194304 r)

/-- A 32-bit value read as signed. -/
def signed32 (v : Nat) : Int := if v % 2 ^ 32 < 2 ^ 31 then (v % 2 ^ 32 : Nat) else ((v % 2 ^ 32 : Nat) : Int) - 2 ^ 32

namespace Blk

/-- Quartz's offset changes (R348). -/
def addOffset (s : Blk) (d : Int) : Blk := { s with qOffset := ((s.qOffset + d) % 2 ^ 96).toNat }

/-- raw wraps from 2⁶⁴ − 65,536 to 0, and offset keeps T continuous (R346, R348). -/
def rawWrap (s : Blk) : Blk :=
  if s.fld .QTZ_RAW_raw 0 = 2 ^ 64 - 65536 then
    ((s.addOffset (2 ^ 64 + s.qRate * 2 ^ 32)).setFld .QTZ_RAW_raw 0 0).raise .QTZ_INT_wrap 0
  else s

/-- The step registers as one value (R350). -/
def stepWords (s : Blk) : Nat :=
  s.fld .QTZ_STEP_step 0 + 2 ^ 32 * s.fld .QTZ_STEP_step 1 + 2 ^ 64 * s.fld .QTZ_STEP_step 2

/-- QTZ_CTL.step written 1 (R350). -/
def stepCommit (s : Blk) : Blk := ({ s with qStep := s.stepWords }).setFld .QTZ_STATUS_step_pending 0 1

/-- PPS_OUT takes a level (R359). -/
def ppsLevel (s : Blk) (level : Bool) : Blk :=
  if s.ppsOut = level then s else Blk.tellPin s { s with ppsOut := level } .ppsOut

/-- The links of a tile. -/
def tileLinks (t : Nat) : List Nat := (List.range 32).map fun k => 32 * t + k

/-- After a step, the next snapshot instant is the first at or after the new time, and the next second of PPS_OUT the first after it
(R352). -/
def newTime (s : Blk) : Blk := { s with cmapFrom := (s.quartzT + 65535) / 65536, ppsFrom := s.quartzT / 65536 + 1 }

/-- A committed step is applied, or ignored (R350); the gate lists follow it (R176, R352). -/
def stepApply (s : Blk) : Blk :=
  if s.flag .QTZ_STATUS_step_pending 0 then
    let s := s.setFld .QTZ_STATUS_step_pending 0 0
    if s.hallValid && !s.flag .QTZ_CTL_step_arm 0 then s.raise .QTZ_INT_step_reject 0
    else
      s.moveGates (List.range 1024) fun s =>
        let s := if s.hallValid then s.setFld .QTZ_CTL_step_arm 0 0 else s.setFld .QTZ_STATUS_valid 0 1
        (((s.addOffset s.qStep).count .QTZ_STEPS_count 0 1).raise .QTZ_INT_stepped 0).newTime
  else s

/-- QTZ_RATE is written: the nearer bound where it is out of range, and T stays continuous (R348, R349). -/
def rateWrite (s : Blk) (v : Nat) : Blk :=
  let raw : Int := s.fld .QTZ_RAW_raw 0
  let new := clampRate (signed32 v)
  (s.addOffset (raw * s.qRate / 2 ^ 32 - raw * new / 2 ^ 32)).setFld .QTZ_RATE_rate 0 (new % 2 ^ 32).toNat

/-- valid is cleared (R350, R429): PPS_OUT is low while it is 0 (R359). -/
def invalidate (s : Blk) : Blk := (s.moveGates (List.range 1024) fun s => s.setFld .QTZ_STATUS_valid 0 0).ppsLevel false

/-- QTZ_SNAP.snap written 1 (R370). -/
def qtzSnap (s : Blk) : Blk :=
  let s := (s.setFld .QTZ_SNAP_RAW_raw 0 (s.fld .QTZ_RAW_raw 0)).setFld .QTZ_SNAP_RATE_rate 0 (s.fld .QTZ_RATE_rate 0)
  let s := (s.setFld .QTZ_SNAP_SEC_sec 0 s.hallSec).setFld .QTZ_SNAP_NSEC_nsec 0 s.hallNsec
  let s := s.setFld .QTZ_SNAP_FRAC_frac 0 s.hallFrac
  (List.range 3).foldl (fun s w => s.setFld .QTZ_SNAP_OFF_offset w (s.qOffset / 2 ^ (32 * w))) s

/-- A tile's copy agrees with the master (R353); the tile must be out of reset and powered. -/
def tileSync (s : Blk) (t : Nat) : Blk := 
  if s.domOn t then s.moveGates (tileLinks t) fun s => s.setBit .QTZ_TILE_SYNC_sync 0 t true else s

/-- A tile's copy is to be loaded anew (R353). -/
def tileUnsync (s : Blk) (t : Nat) : Blk :=
  s.moveGates (tileLinks t) fun s => s.setBit .QTZ_TILE_SYNC_sync 0 t false

/-- QTZ_TXTS_POP.pop written 1 (R356, R371). -/
def txtsPop (s : Blk) (t : Nat) : Blk :=
  match s.txts.get [] t with
  | [] => s.setFld .QTZ_TXTS_POP_empty t 1
  | r :: rest =>
    let s := ({ s with txts := s.txts.set [] t rest }).setFld .QTZ_TXTS_POP_empty t 0
    (List.range 4).foldl (fun s w => s.setFld .QTZ_TXTS_record (4 * t + w) (beAt r (4 * w) 4)) s

/-- A rising edge on PPS_IN (R359, R485). -/
def ppsIn (s : Blk) : Blk :=
  let t : Int := (s.quartzNs : Int) - signed16 (s.fld .QTZ_PPS_DLY_in_dly 0)
  let ns := (t % (2 ^ 48 * 10 ^ 9)).toNat
  let s := (s.setFld .QTZ_PPS_IN_SEC_sec 0 (ns / 10 ^ 9)).setFld .QTZ_PPS_IN_NSEC_nsec 0 (ns % 10 ^ 9)
  ({ s with timeCfg := { s.timeCfg with tod := none } }).raise .QTZ_INT_pps_in 0

/-- The last whole second of hall time whose mark, out_dly later, has come, in ns (R359). -/
def ppsSecond (s : Blk) : Nat :=
  ((((s.quartzNs : Int) - signed16 (s.fld .QTZ_PPS_DLY_out_dly 0)) / 10 ^ 9) * 10 ^ 9).toNat

/-- PPS_OUT rises at a whole second of hall time plus out_dly that has not been marked yet (R352, R359). -/
def ppsRise (s : Blk) : Blk :=
  if s.hallValid && s.flag .QTZ_CTL_pps_out_en 0 && s.ppsFrom ≤ s.ppsSecond then
    { s.ppsLevel true with ppsRose := s.now, ppsFrom := s.ppsSecond + 1 }
  else s

/-- PPS_OUT falls once it has been high for pps_width_ms; 0 is treated as 1 (R359, R370). -/
def ppsFall (s : Blk) : Blk :=
  if s.ppsRose + max 1 (s.fld .QTZ_CTL_pps_width_ms 0) * 10 ^ 6 ≤ s.now then s.ppsLevel false else s

end Blk

/-! ### Meanings of the time rows -/

open Blk

/-- R348. -/
def execRawWrap (s : State) : Host.Outcome State Fault Refusal := run Blk.rawWrap s

/-- R350. -/
def execStepCommit (s : State) : Host.Outcome State Fault Refusal := run Blk.stepCommit s

/-- R350, R352. -/
def execStepApply (s : State) : Host.Outcome State Fault Refusal := run Blk.stepApply s

/-- R348, R349. -/
def execRateWrite (value : BitVec 32) (s : State) : Host.Outcome State Fault Refusal := run (·.rateWrite value.toNat) s

/-- R350. -/
def execInvalidate (s : State) : Host.Outcome State Fault Refusal := run Blk.invalidate s

/-- R370. -/
def execQtzSnap (s : State) : Host.Outcome State Fault Refusal := run Blk.qtzSnap s

/-- R353. -/
def execTileCopySync (tile : TileId) (s : State) : Host.Outcome State Fault Refusal := run (·.tileSync tile) s

/-- R356. -/
def execTxtsPop (tile : TileId) (s : State) : Host.Outcome State Fault Refusal := run (·.txtsPop tile) s

/-- R359. -/
def execPpsOutEdge (s : State) : Host.Outcome State Fault Refusal := run Blk.ppsRise s

/-- R359. -/
def execPpsOutFall (s : State) : Host.Outcome State Fault Refusal := run Blk.ppsFall s

end Sys2Proof.Machine
end

