-- ==== Sys2Proof/Machine/Servo.lean ====
section
/-!
DEFINITION. What the PTP firmware does to Quartz (R351, R355, R357, R359): the master it follows, the path delays it measures, its
estimates of the offset, its steps and its rate. The messages that it sends itself leave by TX rings of its own (R466, R476). The
offsets within a PTP message are those of IEEE 1588-2019 (PRESUMED, log entry 155).
-/

namespace Sys2Proof.Machine

/-- A 64-bit value read as signed. -/
def signed64 (v : Nat) : Int := if v % 2 ^ 64 < 2 ^ 63 then (v % 2 ^ 64 : Nat) else ((v % 2 ^ 64 : Nat) : Int) - 2 ^ 64

/-- A 24-bit value read as signed. -/
def signed24 (v : Nat) : Int := if v % 2 ^ 24 < 2 ^ 23 then (v % 2 ^ 24 : Nat) else ((v % 2 ^ 24 : Nat) : Int) - 2 ^ 24

/-- An originTimestamp, or the timestamp that an answer carries in its place, in units of 2⁻¹⁶ ns. -/
def originTime (m : List Byte) : Int := ((beAt m 34 6 * 10 ^ 9 + beAt m 40 4) * 65536 : Nat)

/-- The correctionField of a message, in units of 2⁻¹⁶ ns. -/
def correction (m : List Byte) : Int := signed64 (beAt m 8 8)

/-- How a master's Announce compares: priority1, clockQuality, priority2, identity and stepsRemoved of its grandmaster. -/
def announceRank (m : List Byte) : Nat := beAt m 47 16

/-- How long an Announce counts, in ns: three of its intervals of 2^logMessageInterval s (R357; PRESUMED, log entry 155). -/
def announceLife (m : List Byte) : Nat :=
  let k := beAt m 33 1
  if k < 128 then 3 * 10 ^ 9 * 2 ^ min k 8 else 3 * 10 ^ 9 / 2 ^ (256 - k)

namespace Blk

/-- The PTP firmware runs: the shipped firmware, in image running. -/
def ptpRuns (s : Blk) : Bool := s.fwReady && s.fld .IMG_BOOT_phase 0 = 2

/-- The firmware writes a step that takes the offset `e` away, armed where it must be, and commits it (R350, R351). -/
def servoStep (s : Blk) (e : Int) : Blk :=
  let v := ((-e) % 2 ^ 96).toNat
  let s := (List.range 3).foldl (fun s w => s.setFld .QTZ_STEP_step w (v / 2 ^ (32 * w))) s
  (if s.hallValid then s.setFld .QTZ_CTL_step_arm 0 1 else s).stepCommit

/-- The firmware corrects the rate by at most max_rate units; by how many is a free value (R351). -/
def servoRate (s : Blk) : Blk :=
  let (v, s) := s.free 64
  let bound := s.timeCfg.maxRate
  let d : Int := ((v % (2 * bound + 1) : Nat) : Int) - bound
  s.rateWrite (clampRate (s.qRate + d) % 2 ^ 32).toNat

/-- An estimate of the offset, in units of 2⁻¹⁶ ns, one for each Sync interval (R351). While hall time is not valid: one step,
once the estimates have held within lock_ns over lock_syncs intervals. From then on the rate alone, until the estimate has
exceeded step_ns for step_syncs intervals. -/
def servoEstimate (s : Blk) (e : Int) : Blk :=
  let c := s.timeCfg
  let v := s.servo
  if s.flag .QTZ_STATUS_step_pending 0 then s
  else if !s.hallValid then
    let holds := v.near ≠ 0 && (e - v.first).natAbs ≤ c.lockNs * 65536
    let v := if holds then { v with near := v.near + 1 } else { v with near := 1, first := e }
    if c.lockSyncs ≤ v.near then { s with servo := { v with near := 0, far := 0 } }.servoStep e else { s with servo := v }
  else
    let far := if c.stepNs * 65536 < e.natAbs then v.far + 1 else 0
    if far ≠ 0 && c.stepSyncs ≤ far then { s with servo := { v with far := 0 } }.servoStep e
    else { s with servo := { v with far := far } }.servoRate

/-- The best of the masters heard, lately enough, on links in service, in the instance that disciplines Quartz: by rank, and of equal rank one
whose link's asymmetry is known (R355). -/
def bestMaster (s : Blk) : Option PtpMaster :=
  let better := fun (a b : PtpMaster) =>
    let ka := s.fld .QTZ_LNK_ASYM_known a.link
    let kb := s.fld .QTZ_LNK_ASYM_known b.link
    a.rank < b.rank || (a.rank = b.rank && (kb < ka || (ka = kb && a.link < b.link)))
  (s.servo.masters.filter fun m => some m.domain = s.servo.domains.head? && s.inService m.link && s.now < m.until_).foldl (fun best m =>
    match best with
    | none => some m
    | some b => if better m b then some m else some b) none

/-- The port that the firmware follows is chosen again; with another one its estimates start anew. -/
def chooseMaster (s : Blk) : Blk :=
  let l := s.bestMaster.map PtpMaster.link
  if l = s.servo.slave then s
  else { s with servo := { s.servo with slave := l, sync := none, took := none, near := 0, far := 0 } }

/-- An Announce on a link. -/
def ptpAnnounce (s : Blk) (l : Nat) (m : List Byte) : Blk :=
  let d := beAt m 4 1
  let others := s.servo.masters.filter fun x => ¬ (x.domain = d ∧ x.link = l)
  { s with servo := { s.servo with masters := others ++ [PtpMaster.mk d l (announceRank m) (s.now + announceLife m)] } }.chooseMaster

/-- The mean path delay of a link: what its last exchange gave, a free value before one (R357). -/
def pathDelay (s : Blk) (l : Nat) : Int × Blk :=
  match s.servo.delays.find l with
  | some d => (d, s)
  | none =>
    let (v, s) := s.free 48
    (v, s)

/-- The mean path delay of a link has been measured. -/
def putDelay (s : Blk) (l : Nat) (d : Int) : Blk := { s with servo := { s.servo with delays := s.servo.delays.put l d } }

/-- Receive time less what is known to have passed: less the mean path delay, and the link's asymmetry where it is known; where it is
not, the estimate is marked as unverified (R355). -/
def ptpOffset (s : Blk) (l : Nat) (e : Int) : Blk :=
  let (delay, s) := { s with servo := { s.servo with took := some e } }.pathDelay l
  let known := s.flag .QTZ_LNK_ASYM_known l
  let asym := if known then signed24 (s.fld .QTZ_LNK_ASYM_asym_ps l) * 65536 / 1000 else 0
  { s with servo := { s.servo with unverified := !known } }.servoEstimate (e - delay - asym)

/-- The receive time of a record of R356, in units of 2⁻¹⁶ ns; the seconds above its 32 bits are those of hall time. -/
def recordTime (s : Blk) (ts : List Byte) : Int :=
  (((s.hallSec / 2 ^ 32 * 2 ^ 32 + beAt ts 8 4) * 10 ^ 9 + beAt ts 12 4) * 65536 + beAt ts 6 2 : Nat)

/-- A Sync on the port that is followed: one-step, or with its time in a Follow_Up. -/
def ptpSync (s : Blk) (l : Nat) (m ts : List Byte) : Blk :=
  let t := s.recordTime ts - correction m
  if (beAt m 6 1).testBit 1 then { s with servo := { s.servo with sync := some (beAt m 30 2, t) } }
  else s.ptpOffset l (t - originTime m)

/-- A Follow_Up of the Sync last taken. -/
def ptpFollowUp (s : Blk) (l : Nat) (m : List Byte) : Blk :=
  match s.servo.sync with
  | none => s
  | some (seq, t) =>
    if seq = beAt m 30 2 then
      { s with servo := { s.servo with sync := none } }.ptpOffset l (t - originTime m - correction m)
    else s

/-- A Delay_Resp on the port that is followed: delay request-response (R357). The Sync took `took` to come, and the request what the
answer says; half their sum is the mean path delay. -/
def ptpDelayResp (s : Blk) (l : Nat) (m : List Byte) : Blk :=
  match s.servo.sent.find? fun x => x.domain = beAt m 4 1 && x.link = l && x.kind = 1 && x.seq = beAt m 30 2, s.servo.took with
  | some x, some e => s.putDelay l ((e + (originTime m - correction m - x.sent)) / 2)
  | _, _ => s

/-- A Pdelay_Resp on any port: peer-to-peer (R357). A one-step answer carries the time that it took there as its correction; of a
two-step one the rest comes in a Follow_Up. -/
def ptpPeerResp (s : Blk) (l : Nat) (m ts : List Byte) : Blk :=
  let d := beAt m 4 1
  let q := beAt m 30 2
  match s.servo.sent.find? fun x => x.domain = d && x.link = l && x.kind = 2 && x.seq = q with
  | none => s
  | some x =>
    let passed := s.recordTime ts - x.sent - correction m
    if (beAt m 6 1).testBit 1 then
      let others := s.servo.peers.filter fun y => ¬ (y.domain = d ∧ y.link = l)
      { s with servo := { s.servo with peers := others ++ [⟨d, l, q, passed, originTime m⟩] } }
    else s.putDelay l (passed / 2)

/-- A Pdelay_Resp_Follow_Up (R357). -/
def ptpPeerFollow (s : Blk) (l : Nat) (m : List Byte) : Blk :=
  match s.servo.peers.find? fun y => y.domain = beAt m 4 1 && y.link = l && y.seq = beAt m 30 2 with
  | none => s
  | some y =>
    { s with servo := { s.servo with peers := s.servo.peers.filter fun z => z ≠ y } }.putDelay l
      ((y.passed - (originTime m - y.received) - correction m) / 2)

/-- The firmware takes a PTP message with its receive record (R356, R357): of at most four instances, each on its own
domainNumber. -/
def ptpTake (s : Blk) (l : Nat) (m ts : List Byte) : Blk :=
  let d := beAt m 4 1
  let known := s.servo.domains
  let domains := if known.contains d || 4 ≤ known.length then known else known ++ [d]
  if !s.ptpRuns || beAt m 0 1 / 16 ≠ 0 || beAt m 1 1 % 16 ≠ 2 || !domains.contains d then s
  else
    let s := { s with servo := { s.servo with domains := domains } }.chooseMaster
    let follows := !s.timeCfg.ppsIn && some d = domains.head? && s.servo.slave = some l
    match beAt m 0 1 % 16 with
    | 11 => s.ptpAnnounce l m
    | 0 => if follows && s.bit .QTZ_TILE_SYNC_sync 0 (l / 32) then s.ptpSync l m ts else s
    | 3 => if s.bit .QTZ_TILE_SYNC_sync 0 (l / 32) then s.ptpPeerResp l m ts else s
    | 8 => if follows then s.ptpFollowUp l m else s
    | 9 => if follows then s.ptpDelayResp l m else s
    | 10 => s.ptpPeerFollow l m
    | _ => s

/-- An edge of PPS_IN at `ns` of hall time, the time of day given for it being `tod`: where time is taken from PPS_IN, an
estimate (R359). With no time of day given, hall time that is valid is compared with its nearest second. -/
def ppsServo (s : Blk) (ns : Nat) (tod : Option Nat) : Blk :=
  if !s.ptpRuns || !s.timeCfg.ppsIn then s
  else match tod with
    | some t => s.servoEstimate (((ns : Int) - t * 10 ^ 9) * 65536)
    | none =>
      if s.hallValid then s.servoEstimate (((ns : Int) - ((ns + 5 * 10 ^ 8) / 10 ^ 9 * 10 ^ 9 : Nat)) * 65536) else s

end Blk

/-- R359. -/
def execPpsInEdge (s : State) : Host.Outcome State Fault Refusal :=
  run (fun b =>
    let t := b.ppsIn
    t.ppsServo (t.fld .QTZ_PPS_IN_SEC_sec 0 * 10 ^ 9 + t.fld .QTZ_PPS_IN_NSEC_nsec 0) b.timeCfg.tod) s

end Sys2Proof.Machine
end

