-- ==== Sys2Proof/Machine/Telemetry.lean ====
section
/-!
DEFINITION. Jasper telemetry (chapter 11): counter snapshots and views (R360 to R362), programmable counters (R363), delivery
of trace records (R367), margin monitors (R368, R369), and isolated accesses (R415).
-/

namespace Sys2Proof.Machine

/-- The counter group of a register (R362). -/
def counterGroup : Reg → Option Nat
  | .TIL_LNK_FEC_CORR | .TIL_LNK_FEC_UNCORR | .TIL_LNK_FEC_SYMERR | .TIL_LNK_RETRY | .TIL_LNK_LOST |
    .TIL_LNK_BURSTS | .TIL_LNK_RETRAINS | .TIL_LNK_RESYNCS | .TIL_LNK_FLUSH | .TIL_CHK_FAIL_IN | .TIL_CHK_FAIL_OUT |
    .TIL_CHK_STOMP_RX => some 0
  | .TIL_FWD_DROP | .DMA_TBL_LRN_MISS | .DMA_TBL_MOVES => some 1
  | .BSL_DROP_NOCELL | .BSL_DROP_LINKDOWN | .BSL_DROP_PAIRDOWN | .BSL_ADM_STALL | .BSL_AUDIT_RECLAIM |
    .BSL_AUDIT_DOUBLE | .D2D_LNK_CRCERR | .D2D_LNK_REPLAY | .D2D_LNK_FAILS => some 2
  | .FLD_TC7_OVER | .FLD_GATE_DROP | .FLD_DROP_DETACHED => some 3
  | .GRN_IST_PASSES | .GRN_RELEASED | .GRN_FAILED | .GRN_ELEMS | .GRN_DUP | .GRN_LATE | .GRN_RESIDUE_ERR |
    .GRN_MOVED | .GRN_AUDITED | .GRN_ESCAPES | .GRN_SCR_CORR | .GRN_SPILL_WAITS => some 4
  | .COL_COMPLETED | .COL_FAILED | .COL_DISCARD => some 5
  | .GNS_REQ_OK | .GNS_REQ_ERR | .GNS_NW_READS | .GNS_STRAY | .GNS_GW_DISCARD | .GNS_CQ_WAITS | .GNS_COMBINED |
    .GNS_STALE | .GNS_HBM_CE | .GNS_POISONED => some 6
  | .GNS_CKP_ABSORBED | .GNS_CKP_MIRRORED | .GNS_CKP_DURABLE | .GNS_CKP_FAILED | .GNS_CKP_LATE_WR |
    .GNS_CKP_RESTORE_FR | .GNS_CKP_NOTIFY_ERR | .SHL_RECORDS | .SHL_BYTES | .SHL_DISCARDED | .SHL_STR_LOST => some 7
  | .MICA_OE_FAULTS | .FOI_ROGUE | .FOI_LOSS => some 8
  | .QTZ_STEPS | .QTZ_TXTS_LOST | .JSP_UREAD_DENIED | .JSP_TRC_TAGGED | .JSP_TRC_LOST | .JSP_PCNT => some 9
  | .RSTC_ISO_CNT | .RSTC_LOST_CELLS | .MGT_ERR_LOST | .MGT_ERR_CNT | .DMA_RING_NOBUF | .DMA_RING_TRUNC |
    .DMA_RX_DROP | .DMA_CPL_DISCARD => some 10
  | _ => none

/-- A monitor's bad direction is rising: the temperatures (R368). -/
def monitorRises (m : Nat) : Bool := m < 32 || (64 ≤ m && m < 76) || 92 ≤ m

/-- Reading `a` is worse than `b` for a monitor: higher for a temperature, which is signed, lower for a slack or a voltage
(R368). -/
def worse (m a b : Nat) : Bool := if monitorRises m then signed16 b < signed16 a else a < b

namespace Blk

/-! ### Isolation (R415) -/

/-- A domain is off, powering or in reset. -/
def isolated (s : Blk) (n : Nat) : Bool := !s.domOn n

/-- What an isolated read returns: 0xDEAD_0000 plus the domain's index, in both words of a 64-bit read. -/
def isoValue (n : Nat) (wide : Bool) : Nat :=
  let v := 0xDEAD0000 + n
  if wide then v * 2 ^ 32 + v else v

/-- An isolated access at offset `off` of a BAR (0 BAR0, 1 BAR2, 2 BAR4) is counted, and the first one latched. -/
def isoAccess (s : Blk) (bar off : Nat) : Blk :=
  let s := s.count .RSTC_ISO_CNT_count 0 1
  let s := if s.flag .RSTC_INT_iso 0 then s
    else (s.setFld .RSTC_ISO_ADDR_bar 0 bar).setFld .RSTC_ISO_ADDR_offset 0 off
  s.raise .RSTC_INT_iso 0

/-! ### Counters (R360 to R363) -/

/-- The value of a counter's register. -/
def counterValue (s : Blk) (r : Reg) (i : Nat) : Nat :=
  match s.missing r i, r.info.fields with
  | false, [f] => s.fld f i
  | _, _ => 0

/-- What 64 bits at a counter's address give: the counter, or a programmable counter with its odd neighbour above it (R362,
R363). -/
def counterPair (s : Blk) (r : Reg) (i : Nat) : Nat :=
  s.counterValue r i + if r = .JSP_PCNT && i % 2 = 0 then 2 ^ 32 * s.counterValue r (i + 1) else 0

/-- The counters of the chosen groups are latched into their shadow values (R361). -/
def latchCounters (s : Blk) (groups : Nat) : Blk :=
  let rs := Reg.all.filter fun r => match counterGroup r with
    | some g => groups.testBit g
    | none => false
  { s with shadow := rs.foldl (fun (t : Tab Nat) (r : Reg) =>
      (List.range r.copies).foldl (fun (t : Tab Nat) i => t.set 0 (r.addrOf i) (s.counterValue r i)) t) s.shadow }

/-- The set time of a snapshot has passed (R361). -/
def snapPassed (s : Blk) : Bool :=
  s.fld .JSP_SNAP_SEC_sec 0 * 10 ^ 9 + s.fld .JSP_SNAP_NSEC_nsec 0 ≤ s.hallSec * 10 ^ 9 + s.hallNsec

/-- JSP_SNAP_CTL written with go = 1 (R361, R372). -/
def snapGo (s : Blk) (atTime : Bool) (groups : Nat) : Blk :=
  let s := (s.setFld .JSP_SNAP_CTL_at_time 0 (if atTime then 1 else 0)).setFld .JSP_SNAP_CTL_groups 0 groups
  if s.flag .JSP_SNAP_STATUS_busy 0 then s
  else
    let s := s.setFld .JSP_SNAP_STATUS_busy 0 1
    if atTime && !s.snapPassed then { s with snap := some (groups, false) }
    else { s.latchCounters groups with snap := some (groups, true) }

/-- The set hall time comes (R361). -/
def snapLatch (s : Blk) : Blk :=
  match s.snap with
  | some (g, false) => if s.snapPassed then { s.latchCounters g with snap := some (g, true) } else s
  | _ => s

/-- A snapshot completes (R361). -/
def snapDone (s : Blk) : Blk :=
  match s.snap with
  | some (_, true) =>
    (({ s with snap := none }).setFld .JSP_SNAP_STATUS_busy 0 0).setFld .JSP_SNAP_STATUS_seq 0
      (s.fld .JSP_SNAP_STATUS_seq 0 + 1)
  | _ => s

/-- The counter at a BAR0 address, with its group (R362). -/
def counterAt (addr : Nat) : Option (Reg × Nat × Nat) :=
  match Reg.find addr with
  | some (r, i, false) => (counterGroup r).map fun g => (r, i, g)
  | _ => none

/-- The shadow value of 64 bits at an address (R362). -/
def shadowAt (s : Blk) (addr : Nat) : Nat :=
  s.shadow.get 0 addr + match Reg.find addr with
    | some (.JSP_PCNT, i, _) => if i % 2 = 0 then 2 ^ 32 * s.shadow.get 0 (addr + 4) else 0
    | _ => 0

/-- A counter stands at an address whose group the user view may read (R362). -/
def userMay (s : Blk) (addr : Nat) : Bool := (counterAt addr).any fun k => s.bit .JSP_UPERM_groups 0 k.2.2

/-- The domain of the counter at an address, where it is isolated (R415). -/
def userIso (s : Blk) (addr : Nat) : Option Nat :=
  (counterAt addr).bind fun k => (k.1.domain k.2.1).filter s.isolated

/-- 64 bits of the user view at a counter's address (R362). -/
def userValue (s : Blk) (shadow : Bool) (addr : Nat) : Nat :=
  match counterAt addr with
  | some (r, i, _) => if shadow then s.shadowAt addr else s.counterPair r i
  | none => 0

/-- A 64-bit read of the user counter view (R362): its value, and the block after it. A live read is a register access, and its
counter's domain may be isolated (R415); the shadows are not of that domain, and a refused read is refused first (DESIGN CHOICE, log
entry 163). -/
def userView (s : Blk) (shadow : Bool) (addr : Nat) : Nat × Blk :=
  if !s.userMay addr then (0, s.count .JSP_UREAD_DENIED_count 0 1)
  else match if shadow then none else s.userIso addr with
    | some k => (isoValue k true, s.isoAccess 1 (0x28000000 + addr))
    | none => (s.userValue shadow addr, s)

/-! ### Trace records (R367, R477) -/

/-- A tile delivers its oldest trace record, unless the ring has no free entry for it; at the limit the record is
discarded, and so is one whose ring is no enabled TRACE ring (R367, R477). -/
def traceDeliver (s : Blk) (t : Nat) : Blk :=
  match s.trcBuf.get [] t with
  | [] => s
  | bs :: rest =>
    let ring := s.fld .JSP_TRC_CTL_ring t
    let ms := s.now / 10 ^ 6
    let sent := if (s.trcRate.get (0, 0) t).1 = ms then (s.trcRate.get (0, 0) t).2 else 0
    let limit := s.fld .JSP_TRC_LIMIT_limit t
    let gone := { s with trcBuf := s.trcBuf.set [] t rest }
    if limit ≠ 0 && limit ≤ sent then (gone.count .JSP_TRC_LOST_count t 1).raise .JSP_INT_trc_lost 0
    else if !(s.flag .DMA_RING_CFG_en ring && s.fld .DMA_RING_CFG_func ring = 4) then
      (gone.count .DMA_CPL_DISCARD_count 0 1).raise .DMA_INT_misroute 0
    else if s.ringHas ring 4 then
      let s := { gone with trcRate := gone.trcRate.put t (ms, sent + 1) }
      (s.emit (.dmaWrite (s.flag .DMA_RING_CFG_side ring) (s.entryAddr ring (s.fld .DMA_RING_HEAD_head ring) 64) bs)).advanceRing
        ring 1
    else s

/-! ### Margin monitors (R368, R369) -/

/-- The tile, stack, die or optical engine that a monitor watches (R368). -/
def monitorUnit (m : Nat) : Nat :=
  if m < 64 then m % 32 else if m < 76 then m - 64 else if m < 92 then (m - 76) / 4 else m - 92

/-- A monitor crosses a threshold: the events of R369, and the error of an alarm (R454). -/
def monitorTrip (s : Blk) (m : Nat) (alarm : Bool) : Blk :=
  let fired := s.mrgFired.get 0 m
  let s := { s with mrgFired := s.mrgFired.set 0 m (fired ||| (if alarm then 2 else 1)) }
  let s := if m < 64 then s.setBit .JSP_MRG_TRIP0_trip 0 m true else s.setBit .JSP_MRG_TRIP1_trip 0 (m - 64) true
  if alarm then
    (s.raise .JSP_INT_mrg_alarm 0).reportError (if 32 ≤ m && m < 64 then .slackAlarm m (m - 32) else .otherAlarm m (monitorUnit m))
  else s.raise .JSP_INT_mrg_warn 0

/-- A monitor is sampled (R368, R369). -/
def monitorSample (s : Blk) (m v : Nat) : Blk :=
  let s := s.setFld .JSP_MRG_RD_value m v
  let s := if worse m v (s.fld .JSP_MRG_RD_peak m) then s.setFld .JSP_MRG_RD_peak m v else s
  let trip := fun (s : Blk) (alarm : Bool) (thr : Nat) =>
    if worse m v thr && !(s.mrgFired.get 0 m).testBit (if alarm then 1 else 0) then s.monitorTrip m alarm else s
  trip (trip s false (s.fld .JSP_MRG_THR_warn m)) true (s.fld .JSP_MRG_THR_alarm m)

/-- A monitor re-arms, its value being on the good side of warn (R369). -/
def monitorRearm (s : Blk) (m : Nat) : Blk :=
  if worse m (s.fld .JSP_MRG_RD_value m) (s.fld .JSP_MRG_THR_warn m) then s
  else { s with mrgFired := s.mrgFired.del m }

end Blk

/-! ### Meanings of the telemetry rows -/

open Blk

/-- R360: the carry from a near to its far counter. State holds both as the one value that a read returns, so the carry
changes nothing in it. -/
def execCounterCarry (s : State) : Host.Outcome State Fault Refusal := run id s

/-- R361. -/
def execSnapGo (atTime : Bool) (groups : BitVec 11) (s : State) : Host.Outcome State Fault Refusal :=
  run (·.snapGo atTime groups.toNat) s

/-- R361. -/
def execSnapLatch (s : State) : Host.Outcome State Fault Refusal := run Blk.snapLatch s

/-- R361. -/
def execSnapDone (s : State) : Host.Outcome State Fault Refusal := run Blk.snapDone s

/-- R363. -/
def execPrunWrite (run_ : Bool) (s : State) : Host.Outcome State Fault Refusal :=
  run (·.setFld .JSP_PRUN_run 0 (if run_ then 1 else 0)) s

/-- R367. -/
def execTraceRecord (tile : TileId) (s : State) : Host.Outcome State Fault Refusal := run (·.traceDeliver tile) s

/-- R368, R369. -/
def execMonitorSample (monitor : MonitorId) (value : BitVec 16) (s : State) : Host.Outcome State Fault Refusal :=
  run (·.monitorSample monitor value.toNat) s

/-- R369. -/
def execMonitorRearm (monitor : MonitorId) (s : State) : Host.Outcome State Fault Refusal := run (·.monitorRearm monitor) s

/-- R362. -/
def execUserViewRead (shadow : Bool) (address : BitVec 26) (s : State) : Host.Outcome State Fault Refusal :=
  run (overPcie fun b => let (v, b) := b.userView shadow address.toNat; b.emit (.data v)) s

end Sys2Proof.Machine
end

