-- ==== Sys2Proof/Machine/Ingress.lean ====
section
/-!
DEFINITION. The receiving end of a link: link control frames (R50, R51), link words (R55), PFC (R69), errored, stomped and
repeated frames (R47, R62, R143), the landing of a frame in staging and its pipeline (R26, R82, R124, R141), the host receive
buffer (R473, R474) and the congestion map (R114 to R117).
-/

namespace Sys2Proof.Machine

/-- Bytes after the EtherType of a frame whose length its header gives (R85, R127). -/
def headerData (xetype : Nat) (f : Frame) : Nat :=
  let least := if f.tci.isSome then 42 else 46
  if f.etype.toNat = xetype then max least (32 + beAt f.data 12 2)
  else if f.etype = 0x0800 then max least (beAt f.data 2 2)
  else if f.etype = 0x86DD then max least (beAt f.data 4 2 + 40)
  else f.data.length

/-- Bytes put out to a length with zeros, and no longer than it. -/
def padTo (n : Nat) (bs : List Byte) : List Byte := (bs ++ List.replicate (n - bs.length) 0).take n

/-- One step of the tag LFSR, polynomial x³² + x²² + x² + x + 1, shifting towards the high bit (R364). -/
def lfsrStep (v : Nat) : Nat :=
  let b := (v.testBit 31 ^^ v.testBit 21) ^^ (v.testBit 1 ^^ v.testBit 0)
  v * 2 % 2 ^ 32 + (if b then 1 else 0)

/-- A depth level of R116. -/
def depthLevel (n : Nat) : Nat := if n = 0 then 0 else min 15 (Nat.log 2 n + 1)

namespace Blk

/-! ### The host receive buffer -/

/-- The ring of a frame for the host: of its class's map, or PTP's; a number that no ring has is none (R473). -/
def hostRing (s : Blk) (why c : Nat) (xetype vid : Nat) (f : Frame) : Option Nat :=
  let r :=
    if why = 2 then (if s.flag .DMA_PTP_MAP_en 0 then some (s.fld .DMA_PTP_MAP_ring 0) else none)
    else if s.flag .DMA_RX_MAP_en c then
      some ((s.fld .DMA_RX_MAP_ring c + crc16 (pinKey xetype vid f) % max 1 (s.fld .DMA_RX_MAP_count c)))
    else none
  r.filter fun r => r < 1024 && s.flag .DMA_RING_CFG_en r && s.fld .DMA_RING_CFG_func r = 1

/-- The bytes in the host receive buffer. -/
def hostUsed (s : Blk) : Nat := (s.hostRx.map fun h => h.bytes.length).sum

/-- A frame enters the host receive buffer, or is discarded and counted (R473, R474). -/
def hostPush (s : Blk) (ring : Option Nat) (f : Frame) (tc why link : Nat) (ts : Option (List Byte)) : Blk :=
  match ring with
  | some r =>
    if s.hostUsed + 9216 ≤ 4194304 then { s with hostRx := s.hostRx ++ [⟨r, frameBytes f, tc, why, link, ts⟩] }
    else s.count .DMA_RX_DROP_count 0 1
  | none => s.count .DMA_RX_DROP_count 0 1

/-- The class in which a frame queues (R85, R161). -/
def queueClass (s : Blk) (t cls : Nat) (f : Frame) : Nat := if s.isXeirrik t f then (xHeader f.data).tc else cls

/-- A whole frame for the host leaves staging: discarded where its check failed (R141), otherwise delivered. -/
def hostDeliver (s : Blk) (fid : Nat) : Blk :=
  match s.frame? fid with
  | none => s
  | some r =>
    if r.chkFail then s.dropFrame fid
    else
      let l := r.link.getD 0
      let c := s.queueClass r.tile r.cls r.frame
      let ring := s.hostRing r.why c (s.fld .TIL_FWD_CFG_xeirrik_etype r.tile) (s.vlanOf (dieOfTile r.tile) l r.frame) r.frame
      let ts := if r.why = 2 then some (s.tsRecord l r.frame false r.arrived r.stampOk) else none
      (s.hostPush ring r.frame c r.why l ts).dropFrame fid

/-! ### Landing and the pipeline -/

/-- The tile's LFSR steps for a received frame; the frame gets a tag where R364 says so. A seed of 0 is treated as 1 (R372). -/
def tagFrame (s : Blk) (l : Nat) (f : Frame) (c : Nat) : Option TraceTag × Blk :=
  let t := tileOf l
  let seed := max 1 (s.fld .JSP_TRC_SEED_seed 0) ^^^ t
  let old := (s.trcLfsr.get none t).getD (if seed = 0 then 0xFFFFFFFF else seed)
  let v := lfsrStep old
  let s := { s with trcLfsr := s.trcLfsr.set none t (some v) }
  if s.flag .JSP_TRC_CTL_en t && v % 2 ^ min 24 (s.fld .JSP_TRC_CTL_rate_log2 t) = 0 && s.bit .JSP_TRC_CTL_tc_mask t c &&
      (!s.flag .JSP_TRC_LINK_match_en t || s.fld .JSP_TRC_LINK_link t = l) then
    let id := s.trcNext.get 0 t
    let x := s.isXeirrik t f
    let h := xHeader f.data
    let ns := s.stampT l false 0 / 65536
    let s := ({ s with trcNext := s.trcNext.set 0 t ((id + 1) % 65536) }).count .JSP_TRC_TAGGED_count t 1
    (some { id := id, tile := t, link := l, tc := c, len := frameLen f, dst := if x then h.dst else 0,
            opcode := if x then h.opcode else 0, seq := if x then h.seq else 0, sec := ns / 10 ^ 9 % 2 ^ 32, nsec := ns % 10 ^ 9,
            t0 := atFibre s.now l false, stamped := s.bit .QTZ_TILE_SYNC_sync 0 t, pipe := some s.now, adm := none, cut := false, xdie := false,
            ce := x && (f.data.getD 0 0).toNat.testBit 1 }, s)
  else (none, s)

/-- `n` staging cells of a link and class are charged, `m` of them free already; `n` cells have been received (R57, R59,
R124). -/
def chargeStaging (s : Blk) (l c n m : Nat) : Blk :=
  ((s.setFld .TIL_STG_STATUS_used (tileOf l) (s.fld .TIL_STG_STATUS_used (tileOf l) + (n - m))).updLink l fun r =>
    { r with charged := vadd r.charged c (n - m), cellsRcvd := vadd r.cellsRcvd c n }).pfcUpdate l c

/-- A frame of which no copy is to come: its cells are free (R124), and it is forgotten at its tail. -/
def voidFrame (s : Blk) (fid : Nat) : Blk :=
  match s.frame? fid with
  | none => s
  | some r =>
    ((s.releaseStaging r.tile r.link r.cls (r.cells - r.freed)).putFrame fid
      { r with freed := r.cells, dest := .copies, void := true, tag := none }).settle fid

/-- The pipeline looked a frame up, as its verdict shows: the frame is not PTP's, and no check before the lookups drops it. -/
def looked : Verdict → Bool
  | .drop reason => 4 ≤ reason
  | .ptp => false
  | _ => true

/-- What the pipeline decides (R82); a lookup that reads a word with an uncorrectable error drops the frame with NO_ROUTE, and the
word is dealt with (R454). -/
def verdict (s : Blk) (l c : Nat) (img : ImageClass) (f : Frame) : Verdict × Blk :=
  let v := s.pipeline l c img.node.toNat f
  match img.badWord with
  | some w => if looked v.1 then (.drop 5, s.lookupLost w) else v
  | none => v

/-- The pipeline decides a frame that has landed (R82): dropped, its copies made, or taken for a local function (R91). -/
def routeFrame (s : Blk) (fid l c : Nat) (img : ImageClass) (f : Frame) : Blk :=
  let t := tileOf l
  let node := img.node.toNat
  let take := fun (s : Blk) (dest : Dest) (why : Nat) =>
    match s.frame? fid with
    | none => s
    | some r => s.putFrame fid { r with dest := dest, why := why }
  match s.verdict l c img f with
  | (.drop reason, s) => ((s.countDrop t reason).traceFrame fid 1 reason).voidFrame fid
  | (.send target f', s) => s.makeCopies fid target f' c (.image node) (some l) t false
  | (.gneiss, s) => take s .gneiss 0
  | (.garnet, s) => take s .garnet 0
  | (.host why, s) => take s .host why
  | (.ptp, s) => take s .host 2

/-- A memory operation that has a row of its own (R265). -/
def memRow (op : Nat) : Bool := op ∈ [0x40, 0x41, 0x48, 0x49, 0x4A, 0x4B, 0x4C, 0x4D, 0x60, 0x61, 0x68]

/-- What a frame's tail brings about: the check, and the end of its stay where nothing else takes it (R87, R141). A frame
of a local function waits for that function's row; one whose opcode the function does not define is answered at once. -/
def finishFrame (s : Blk) (fid : Nat) : Blk :=
  match s.frame? fid with
  | none => s
  | some r =>
    let op := (xHeader r.frame.data).opcode
    let s := if r.chkFail && r.dest ≠ .copies then s.traceFrame fid 4 0 else s
    match r.dest with
    | .copies => (s.settle fid).offerAfter r.link
    | .host => s.hostDeliver fid
    | .gneiss => if !memRow op then s.memRequest fid op else if op < 0x60 then s.startReq fid else s
    | .garnet => if 0x10 ≤ op && op ≤ 0x13 then s else s.colReceive fid op
    | _ => s

/-- A frame lands in staging: its first bytes, or all of it. `charge`: it came over the link; `early`: cells of it returned
before. -/
def landFrame (s : Blk) (l : Nat) (f : Frame) (whole : Bool) (img : ImageClass) (charge : Bool) (early : Nat) : Blk :=
  let t := tileOf l
  let fid := s.nextFrame
  let xe := s.fld .TIL_FWD_CFG_xeirrik_etype t
  let full := if whole then f else { f with data := padTo (headerData xe f) f.data }
  let cls := s.linkClass l full img.cls
  let c := s.queueClass t cls full
  let cells := if charge then cellsOf (frameLen full) else 0
  let failed := whole && s.isXeirrik t f && !xCheckOk f.data
  let (tag, s) := s.tagFrame l full c
  let s := ({ s with nextFrame := fid + 1 }).putFrame fid
    { frame := full, link := some l, tile := t, cls := cls, cells := cells, freed := min early cells, whole := whole,
      got := min f.data.length full.data.length, chkFail := failed, dest := .copies, void := false, why := 0,
      arrived := s.stampT l false 0, stampOk := s.stampOk t, tag := tag }
  let s := if charge then s.chargeStaging l cls cells early else s
  let s := if failed then s.count .TIL_CHK_FAIL_IN_count t 1 else s
  let s := s.routeFrame fid l c img full
  if whole then s.finishFrame fid else s.updLink l fun r => { r with partialFrame := some fid }

/-- Put a frame's late bytes into one of its copies. -/
def lateBytes (got : Nat) (rest : List Byte) (f : Frame) : Frame := { f with data := f.data.take got ++ rest }

/-- The copies of a frame, and what has been selected of them, take its late bytes. -/
def fillCopies (s : Blk) (fid got : Nat) (rest : List Byte) : Blk :=
  let s := (s.copiesOf fid).foldl (fun s (kc : Nat × CopyRec) =>
    let f := lateBytes got rest kc.2.frame
    s.putCopy kc.1 { kc.2 with frame := f, ncells := cellsOf (frameLen f),
                               tag := kc.2.tag.map fun t => { t with len := frameLen f } }) s
  { s with feld := s.feld.mapV .reset fun _ x => { x with tx := x.tx.map fun (r : TxRec) =>
      if r.copy / 4 = fid then { r with frame := lateBytes got rest r.frame } else r } }

/-- A frame being received ends without its tail being good: what is left of it is cut short (R527). -/
def abandonFrame (s : Blk) (fid : Nat) : Blk := s.cutShortFrame fid none

/-- The tail of a frame arrives. Where the length that its header gave is not its own, a Xeirrik frame is dropped with
XK_BAD_HDR (R85), and another whose cells were already asked for is cut short. -/
def tailArrives (s : Blk) (fid : Nat) (rest : List Byte) : Blk :=
  match s.frame? fid with
  | none => s
  | some r =>
    let full := lateBytes r.got rest r.frame
    let cells := if r.link.isSome then cellsOf (frameLen full) else r.cells
    let x := s.isXeirrik r.tile r.frame
    let wrong := full.data.length ≠ r.frame.data.length
    if wrong && x then (if r.void then s else s.countDrop r.tile 2).cutShortFrame fid (some (1, 2))
    else if cells ≠ r.cells && (s.copiesOf fid).any (fun kc => kc.2.phase ≠ .held) then s.abandonFrame fid
    else
      let failed := x && !xCheckOk full.data
      let s := if failed then s.count .TIL_CHK_FAIL_IN_count r.tile 1 else s
      let s := match r.link with
        | some l => if r.cells < cells then s.chargeStaging l r.cls (cells - r.cells) 0
                    else s.releaseStaging r.tile r.link r.cls (r.cells - cells)
        | none => s
      ((s.putFrame fid { r with frame := full, cells := cells, whole := true, got := full.data.length, chkFail := failed,
                                tag := r.tag.map fun t => { t with len := frameLen full } }).fillCopies
        fid r.got rest).finishFrame fid

/-! ### Link control frames, link words and PFC -/

/-- A link control frame by its type (R51). -/
def lcfReceived (s : Blk) (l : Nat) (b : List Byte) : Blk :=
  let x := lcfBody b
  match beAt b 0 1 with
  | 1 => s.capReceived l x
  | 2 => s.creditReceived l (.lcf x.classVal)
  | 3 => s.auditReceived l x.classVal
  | 4 => s.resyncReqReceived l
  | 5 => s.resyncMarkReceived l
  | 6 => s.resyncAckReceived l x.classVal
  | 7 => s.kaReqReceived l
  | 8 => if s.isIn l .up && (s.link l).kaAsked then s.toKeepalive l else s
  | 9 => s.wakeLink l
  | _ => s

/-- What a link word reports: acknowledgement, NAK and one class's credit (R55). -/
def wordReceived (s : Blk) (l w : Nat) : Blk :=
  let ack := bits w 34 22
  let s := if w.testBit 21 then s.nakReceived l ack
    else if s.flows l && s.flag .TIL_LNK_STATUS_retry_on l then s.ackUpTo l ack else s
  s.creditReceived l (.word ⟨bits w 20 18 % 8, Nat.mod_lt _ (by decide)⟩ (BitVec.ofNat 10 (bits w 17 8)))

/-- The link word of a frame, where it has one whose check fits (R55). -/
def goodWord (w : Option (BitVec 48)) : Option Nat := (w.filter linkWordOk).map BitVec.toNat

/-- A link control frame arrives (R50): discarded where its FCS, or its link word in Staketu mode, fails; a link with
link_mode 2 discards every one (R54). R55 has a frame with a bad link word errored, and R50 discards an LCF with a bad FCS without
effect: with a bad word too it starts no retry and is counted nowhere (DESIGN CHOICE, log entry 170). -/
def lcfArrives (s : Blk) (l : Nat) (word : Option (BitVec 48)) (f : Frame) (a : Arrival) : Blk :=
  if a.fcs ≠ .good || a.errored || (s.link l).mode = 2 then s
  else if s.staketu l then
    match goodWord word with
    | none => s
    | some w => (s.wordReceived l w).lcfReceived l f.data
  else s.lcfReceived l f.data

/-- A PFC frame: a pause time for each class that its enable vector names (R69). -/
def pfcArrives (s : Blk) (l : Nat) (b : List Byte) : Blk :=
  (List.range 8).foldl (fun s c => if (beAt b 2 2).testBit c then s.pfcReceived l c (beAt b (4 + 2 * c) 2) else s) s

/-! ### Data frames -/

/-- A stomped frame is discarded, and its cells are free at once, but for those returned before (R143). -/
def stompedFrame (s : Blk) (l : Nat) (f : Frame) (img : ImageClass) (early : Nat) : Blk :=
  let c := s.linkClass l f img.cls
  let n := cellsOf (frameLen f)
  ((s.chargeStaging l c n (min early n)).releaseStaging (tileOf l) (some l) c (n - early)).count .TIL_CHK_STOMP_RX_count (tileOf l) 1

/-- Frame nextLsn is delivered: the retry clock stops, and the next link word acknowledges it (R55, R62). -/
def deliveredLsn (s : Blk) (l : Nat) : Blk :=
  (s.updLink l fun r => { r with retryClock := false, early := 0, errored := none }).lsnDone l

/-- The head of frame nextLsn, or all of it, is good. -/
def acceptFrame (s : Blk) (l : Nat) (f : Frame) (a : Arrival) (img : ImageClass) : Blk :=
  if a.part = .head then s.landFrame l f false img true (s.link l).early
  else if a.fcs = .stomped then (s.stompedFrame l f img (s.link l).early).deliveredLsn l
  else (s.landFrame l f true img true (s.link l).early).deliveredLsn l

/-- A frame in sequence is errored: a NAK, or where retry is off it is lost (R47, R62). -/
def erroredFrame (s : Blk) (l : Nat) : Blk :=
  if s.flag .TIL_LNK_STATUS_retry_on l then s.sendNak l else s.count .TIL_LNK_LOST_count l 1

/-- A data frame, or its head, arrives on a link in Staketu mode (R55, R62). -/
def staketuFrame (s : Blk) (l : Nat) (word : Option (BitVec 48)) (f : Frame) (a : Arrival) (img : ImageClass) : Blk :=
  let bad := a.errored || (a.part = .whole && a.fcs = .bad)
  match goodWord word with
  | none => s.erroredFrame l
  | some w =>
    let s := s.wordReceived l w
    if !s.flag .TIL_LNK_STATUS_retry_on l then
      if bad then s.erroredFrame l
      else if a.part = .head then s.landFrame l f false img true 0
      else if a.fcs = .stomped then s.stompedFrame l f img 0
      else s.landFrame l f true img true 0
    else
      let r := s.link l
      let lsn := bits w 47 35
      let d := (lsn + 8192 - r.nextLsn) % 8192
      if 4096 ≤ d || r.ahead.contains lsn then s
      else if d = 0 then
        if r.partialFrame.isSome then s
        else if bad then
          (s.updLink l fun r => { r with errored := some (s.linkClass l f img.cls, cellsOf (frameLen f)) }).erroredFrame l
        else s.acceptFrame l f a img
      else if r.partialFrame.isSome && d = r.ahead.length + 1 && s.linkClass l f img.cls = 7 && !r.retryClock && !bad &&
          a.part = .whole then
        let s := s.updLink l fun r => { r with ahead := r.ahead ++ [lsn] }
        if a.fcs = .stomped then s.stompedFrame l f img 0 else s.landFrame l f true img true 0
      else if r.retryClock then s else s.sendNak l

/-- The tail of a frame arrives on a link in Staketu mode. An errored one gives its cells back to be sent again. -/
def staketuTail (s : Blk) (l fid : Nat) (rest : List Byte) (a : Arrival) : Blk :=
  let retry := s.flag .TIL_LNK_STATUS_retry_on l
  let s := s.updLink l fun r => { r with partialFrame := none }
  if a.errored || a.fcs = .bad then
    if retry then (s.takeBack l fid).sendNak l else (s.abandonFrame fid).erroredFrame l
  else
    let s := if a.fcs = .stomped then (s.abandonFrame fid).count .TIL_CHK_STOMP_RX_count (tileOf l) 1
      else s.tailArrives fid rest
    if retry then s.deliveredLsn l else s

/-- A data frame, a part of one, or a MAC control frame arrives on a link in Ethernet mode (R47, R69, R143). -/
def ethernetFrame (s : Blk) (l : Nat) (f : Frame) (a : Arrival) (img : ImageClass) : Blk :=
  let bad := a.errored || (a.part ≠ .head && a.fcs = .bad)
  if a.part = .tail then
    match (s.link l).partialFrame with
    | none => s
    | some fid =>
      let s := s.updLink l fun r => { r with partialFrame := none }
      if bad then (s.abandonFrame fid).erroredFrame l
      else if a.fcs = .stomped then (s.abandonFrame fid).count .TIL_CHK_STOMP_RX_count (tileOf l) 1
      else s.tailArrives fid f.data
  else if bad then s.erroredFrame l
  else if a.part = .head then (if (s.link l).partialFrame.isSome then s else s.landFrame l f false img true 0)
  else if a.fcs = .stomped then s.stompedFrame l f img 0
  else if f.etype = 0x8808 then (if beAt f.data 0 2 = 0x0101 then s.pfcArrives l f.data else s)
  else s.landFrame l f true img true 0

/-- A frame arrives on a link (R26). -/
def frameReceived (s : Blk) (l : Nat) (word : Option (BitVec 48)) (f : Frame) (a : Arrival) (img : ImageClass) : Blk :=
  if !s.linkExists l || s.isIn l .disabled then s
  else
    let s := (s.count .TIL_LNK_FEC_CORR_count l a.corrected).count .TIL_LNK_FEC_SYMERR_count l a.symbols
    let s := s.sendBack l word f
    if a.part ≠ .tail && f.etype.toNat = s.imgLcf then s.lcfArrives l word f a
    else if s.flows l then
      match a.part, (s.link l).partialFrame with
      | .tail, some fid => s.staketuTail l fid f.data a
      | .tail, none => s
      | _, _ => s.staketuFrame l word f a img
    else if s.ethernetMode l then s.ethernetFrame l f a img
    else s

/-! ### The congestion map -/

/-- The cells in the queues of class `c` of a link. -/
def classDepth (s : Blk) (l c : Nat) : Nat :=
  ((List.range 32).map fun n =>
    if s.nodeOwner (portOf l) n = subOf l then s.fld .FLD_SUB_DEPTH_cells (256 * portOf l + 32 * c + n) else 0).sum

/-- The state code of a link in the map (R116). -/
def cmapState (s : Blk) (l : Nat) : Nat :=
  if s.isIn l .up then (if s.staketu l then 1 else 2)
  else if s.isIn l .keepalive || s.isIn l .wake then 3 else 0

/-- The last instant of R114, in ns of hall time. -/
def cmapInstant (s : Blk) : Nat := s.quartzNs / (1000 * 2 ^ s.cmapN) * (1000 * 2 ^ s.cmapN)

/-- A link's entry (R116); `n` is the interval's. A tile whose Quartz copy does not agree takes no snapshot (R353), and the
spec states nothing of its links' entries but their IDs: the rest is a free value. -/
def cmapEntry (s : Blk) (n l : Nat) : Nat × Blk :=
  if s.bit .QTZ_TILE_SYNC_sync 0 (tileOf l) then
    let slot := (s.cmapInstant / (1000 * 2 ^ n) - 1) * 16 + n
    let util := min 15 ((s.linkBusy.get .reset l).of slot * 8 * 15 / (s.linkRate l * 2 ^ n))
    let level := (List.range 8).foldl (fun v c => v + depthLevel (s.classDepth l c) * 16 ^ c) 0
    (l * 2 ^ 54 + s.cmapState l * 2 ^ 52 + util * 2 ^ 48 + min 255 ((s.linkDrops.get .reset l).of slot) * 2 ^ 40 + level, s)
  else
    let (v, s) := s.free 54
    (l * 2 ^ 54 + v, s)

/-- A snapshot, where an instant of R114 has come that is not taken yet (R114 to R117, R352): the record is exported as a frame of the block's own to the list group, and a copy
goes to the host; it is skipped while the frame of the one before has not left the tile. The first record after a reset carries
sequence number 1 (DESIGN CHOICE, log entry 169). -/
def cmapSnapshot (s : Blk) : Blk :=
  let inst := s.cmapInstant
  if !s.flag .JSP_CMAP_CTL_en 0 || inst < s.cmapFrom then s
  else
    let n := s.cmapN
    let seq := (s.cmapSeq + 1) % 2 ^ 32
    let ls := (List.range 1024).filter s.linkExists
    let (es, s) := ls.foldl (fun (acc : List (List Byte) × Blk) l =>
      let (e, b) := acc.2.cmapEntry n l
      (acc.1 ++ [beBytes 8 e], b)) (([] : List (List Byte)), s)
    let s := { s with cmapSeq := seq, cmapFrom := inst + 1 }
    let busy := match s.cmapFrame with
      | some fid => (s.frame? fid).isSome
      | none => false
    if busy then s
    else
      let eid := s.fld .JSP_CMAP_SRC_eid 0
      let head := beBytes 1 1 ++ beBytes 1 0 ++ beBytes 2 ls.length ++ beBytes 4 seq ++ beBytes 6 (inst / 10 ^ 9 % 2 ^ 48) ++
        beBytes 4 (inst % 10 ^ 9) ++ beBytes 3 eid ++ beBytes 1 n ++ beBytes 10 0
      let t := ((List.range 32).find? fun t => s.domOn t).getD 0
      let (hop, s) := s.free 4
      let (sseq, s) := s.free 32
      let (area, s) := s.free 96
      let (f, s) := s.ownFrame ⟨s.fld .TIL_FWD_CFG_xeirrik_etype t, false, true, s.fld .JSP_CMAP_CTL_group 0, 1, eid, hop, 0x01,
        sseq, beBytes 12 area, head ++ es.flatten⟩
      let g := s.fld .JSP_CMAP_CTL_group 0
      let fid := s.nextFrame
      let s := if s.groupOk (dieOfTile t) g then ({ s with cmapFrame := some fid }).emitFrame t (.list g) f 1 .jasper
        else s.countDrop t 6
      if s.flag .JSP_CMAP_CTL_host_copy 0 then
        let (link, s) := s.free 10
        s.hostPush (s.hostRing 3 1 (s.fld .TIL_FWD_CFG_xeirrik_etype t) 0 f) f 1 3 link none
      else s

end Blk

/-! ### Meanings -/

open Blk

/-- R26, R47, R50, R55, R62, R69, R82, R143: a frame, or a part of one, arrives. -/
def execFrameReceived (link : LinkId) (word : Option (BitVec 48)) (frame : Frame) (arrival : Arrival) (image : ImageClass)
    (s : State) : Host.Outcome State Fault Refusal :=
  run (·.frameReceived link word frame arrival image) s

/-- R114 to R117. -/
def execCmapSnapshot (s : State) : Host.Outcome State Fault Refusal := run Blk.cmapSnapshot s

end Sys2Proof.Machine
end

