-- ==== Sys2Proof/Machine/Host.lean ====
section
/-!
DEFINITION. The host interface (chapter 15): doorbells (R470), rings and queues switched on, reset and stopped (R467, R469,
R479, R480), frames to and from the host (R472, R475, R476), CPL records (R477) and interrupts (R486 to R488).
-/

namespace Sys2Proof.Machine

/-- Bytes of a receive buffer (R472). -/
def rxLen (d : RxDesc) : Nat :=
  let n := d.len.toNat / 64 * 64
  if n = 0 || 32768 < n then 32768 else n

/-- Bytes laid into buffers in order, at most `n` of them: what each buffer takes, and what is left (R475). -/
def fillBuffers : Nat → List RxDesc → List Byte → List (RxDesc × List Byte) × List Byte
  | 0, _, bs => ([], bs)
  | n + 1, ds, bs =>
    if bs = [] then ([], [])
    else
      let d := ds.headD ⟨0, 0⟩
      let r := fillBuffers n ds.tail (bs.drop (rxLen d))
      ((d, bs.take (rxLen d)) :: r.1, r.2)

/-- A frame from its bytes, from the destination MAC address on. -/
def frameOf (bs : List Byte) : Frame :=
  let tagged := beAt bs 12 2 = 0x8100
  { dmac := BitVec.ofNat 48 (beAt bs 0 6), smac := BitVec.ofNat 48 (beAt bs 6 6),
    tci := if tagged then some (BitVec.ofNat 16 (beAt bs 14 2)) else none,
    etype := BitVec.ofNat 16 (beAt bs (if tagged then 16 else 12) 2), data := bs.drop (if tagged then 18 else 14) }

/-- The interrupt registers of a source (R486). -/
def sourceRegs (src : Nat) : List (Reg × Nat) :=
  if src < 0x20 then (List.range 32).map fun k => (.TIL_LNK_INT, 32 * src + k)
  else if src < 0x40 then [(.FLD_INT, src - 0x20)]
  else if src < 0x60 then [(.GRN_INT, src - 0x40)]
  else if src < 0x80 then [(.MICA_OE_INT, src - 0x60)]
  else if src < 0x84 then [(.BSL_INT, src - 0x80)]
  else if src < 0x8A then [(.D2D_PAIR_INT, src - 0x84)]
  else match src with
    | 0x8A => [(.COL_INT, 0)]
    | 0x8B => [(.GNS_INT, 0), (.GNS_CKP_INT, 0)]
    | 0x8C => [(.SHL_INT, 0)]
    | 0x8D => [(.MICA_ELS_INT, 0), (.FOI_INT, 0)]
    | 0x8E => [(.QTZ_INT, 0)]
    | 0x8F => [(.JSP_INT, 0)]
    | 0x90 => [(.IMG_INT, 0)]
    | 0x91 => [(.RSTC_INT, 0)]
    | 0x92 => [(.PWR_INT, 0)]
    | 0x93 => [(.OBS_INT, 0)]
    | 0x94 => [(.MGT_ERR_INT, 0)]
    | 0x95 => [(.DMA_INT, 0)]
    | 0x96 => [(.MGT_MBX_INT, 0)]
    | 0x97 => [(.GPIO_INT, 0)]
    | 0x98 => [(.I2C_INT, 0), (.I2C_INT, 1)]
    | _ => []

namespace Blk

/-- The fields of a register, as stored, in their places. -/
def regRaw (s : Blk) (r : Reg) (i : Nat) : Nat :=
  r.info.fields.foldl (fun v f => v + s.fld f i * 2 ^ f.info.lo) 0

/-! ### Interrupts -/

/-- A source is pending (R486). -/
def sourcePending (s : Blk) (src : Nat) : Bool :=
  (sourceRegs src).any fun x =>
    match irqOf x.1 x.2 with
    | none => false
    | some (en, k, _) => s.regRaw x.1 x.2 &&& s.fld en k ≠ 0

/-- Something routed to a vector is pending (R487). -/
def vectorPending (s : Blk) (v : Nat) : Bool :=
  ((List.range 153).any fun src =>
    s.flag .MGT_IRQ_ROUTE_host_en src && s.fld .MGT_IRQ_ROUTE_vector src = v && s.sourcePending src) ||
  s.rings.any fun kv => kv.2.pend && !s.flag .DMA_RING_CFG_side kv.1 && s.fld .DMA_RING_CFG_vector kv.1 = v

/-- A vector is re-armed; its message is sent again where anything routed to it is pending (R487). -/
def irqArm (s : Blk) (v : Nat) : Blk :=
  let s := s.setBit .MGT_IRQ_ARMED_armed 0 v true
  if s.vectorPending v then s.fireVector v else s

/-- A ring is no longer pending (R488). -/
def ringClear (s : Blk) (r : Nat) : Blk := { s with rings := s.rings.del r }

/-- delay_us has passed since the first unreported advance (R488). -/
def ringDelay (s : Blk) (r : Nat) : Blk :=
  if s.flag .DMA_RING_CFG_irq_en r && (s.ring r).adv ≠ 0 && !(s.ring r).pend then s.ringPending r else s

/-! ### Doorbells and switches -/

/-- A doorbell's tail is acceptable (R470). -/
def tailOk (head old size t : Nat) : Bool :=
  (t + 2 ^ 32 - head) % 2 ^ 32 ≤ size && (t + 2 ^ 32 - old) % 2 ^ 32 < 2 ^ 31

/-- The tail doorbell of a ring (R470, R488): an ignored one clears the ring too. -/
def ringDoorbell (s : Blk) (r t : Nat) : Blk :=
  let s := s.ringClear r
  if s.flag .DMA_RING_CFG_en r && tailOk (s.fld .DMA_RING_HEAD_head r) (s.fld .DMA_RING_TAIL_tail r) (s.ringSize r) t then
    s.setFld .DMA_RING_TAIL_tail r t
  else (s.setFld .DMA_RING_STATUS_tail_err r 1).raise .DMA_INT_tail_err 0

/-- Entries of a collective command queue (R479). -/
def cqSize (s : Blk) (q : Nat) : Nat := 2 ^ min 16 (max 6 (s.fld .DMA_CQ_CFG_size_log2 q))

/-- The tail doorbell of a collective command queue (R470, R479). -/
def cqDoorbell (s : Blk) (q t : Nat) : Blk :=
  if s.flag .DMA_CQ_CFG_en q && tailOk (s.fld .DMA_CQ_HEAD_head q) (s.cqTail.get 0 q) (s.cqSize q) t then
    { s with cqTail := s.cqTail.set 0 q t }
  else (s.setFld .DMA_CQ_STATUS_tail_err q 1).raise .DMA_INT_tail_err 0

/-- bm_stop of a ring: enabled, in host memory, and Bus Master Enable 0 (R467). -/
def bmRefresh (s : Blk) (r : Nat) : Blk :=
  s.setFld .DMA_RING_STATUS_bm_stop r
    (if s.flag .DMA_RING_CFG_en r && !s.flag .DMA_RING_CFG_side r && !s.busMaster then 1 else 0)

/-- The fields of DMA_RING_CFG of a 32-bit value. -/
def putRingCfg (s : Blk) (r v : Nat) : Blk :=
  Reg.DMA_RING_CFG.info.fields.foldl (fun s f => s.setFld f r (v / 2 ^ f.info.lo)) s

/-- A write of DMA_RING_CFG (R468, R469): while en = 1 only en is written; enabling sets head and tail to 0, and is ignored
for a reserved function or a second ring of function 0x5 or 0x6. -/
def ringEnable (s : Blk) (r v : Nat) : Blk :=
  let func := bits v 29 27
  if s.flag .DMA_RING_CFG_en r then (s.setFld .DMA_RING_CFG_en r (v / 2 ^ 31)).bmRefresh r
  else if !v.testBit 31 then s.putRingCfg r v
  else if func = 0 || ((func = 5 || func = 6) && (List.range 1024).any fun k =>
      k ≠ r && s.flag .DMA_RING_CFG_en k && s.fld .DMA_RING_CFG_func k = func) then s.raise .DMA_INT_cfg_reject 0
  else ((((s.putRingCfg r v).setFld .DMA_RING_HEAD_head r 0).setFld .DMA_RING_TAIL_tail r 0).ringClear r).bmRefresh r

/-- A write of DMA_CQ_CFG (R468, R479, R498). -/
def cqEnable (s : Blk) (q v : Nat) : Blk :=
  if s.flag .DMA_CQ_CFG_en q then s.setFld .DMA_CQ_CFG_en q (v / 2 ^ 31)
  else
    let s := Reg.DMA_CQ_CFG.info.fields.foldl (fun s f => s.setFld f q (v / 2 ^ f.info.lo)) s
    if v.testBit 31 then ({ s with cqTail := s.cqTail.del q }).setFld .DMA_CQ_HEAD_head q 0 else s

/-- The work that waited for a held record ends, or what waited behind it goes on (R477). -/
def workEnds (s : Blk) : HeldWork → Blk
  | .none => s
  | .ckp => s
  | .table _ => s
  | .desc d status => s.descEnds d status
  | .ctx k => s.ctxEnds k
  | .job g => s.runJobs g ((s.gateway g).jobs.length + 1)

/-- A record has left the pending buffer: the oldest one held takes its place (R477). -/
def placeFreed (s : Blk) : Blk :=
  match s.cplHeld with
  | [] => s
  | x :: rest => if 8192 ≤ s.cplCount then s else ((({ s with cplHeld := rest }).placeRecord x.ring x.rec_).workEnds x.work)

/-- `n` places of the pending buffer are free. -/
def placesFreed (s : Blk) : Nat → Blk
  | 0 => s
  | n + 1 => s.placeFreed.placesFreed n

/-- A ring is reset (R480): its pending records discarded and counted, its head at the tail, its faults cleared. -/
def ringReset (s : Blk) (r : Nat) : Blk :=
  let n := (s.cplWait.get [] r).length
  let free := fun (kc : Nat × CopyRec) => (kc.1, if kc.2.tx = some r then { kc.2 with tx := none } else kc.2)
  let s := { s with cplWait := s.cplWait.del r, hostTx := s.hostTx.del r, copies := s.copies.map free }
  let s := (s.count .DMA_CPL_DISCARD_count 0 n).placesFreed n
  (((s.setFld .DMA_RING_HEAD_head r (s.fld .DMA_RING_TAIL_tail r)).setFld .DMA_RING_STATUS_fault r 0).setFld
    .DMA_RING_STATUS_tail_err r 0).ringClear r

/-- A collective command queue is reset (R479, R480). -/
def cqReset (s : Blk) (q : Nat) : Blk :=
  ((s.setFld .DMA_CQ_HEAD_head q (s.cqTail.get 0 q)).setFld .DMA_CQ_STATUS_fault q 0).setFld .DMA_CQ_STATUS_tail_err q 0

/-- Bus Master Enable changes (R467). -/
def setBusMaster (s : Blk) (on : Bool) : Blk :=
  (List.range 1024).foldl (fun s r => s.bmRefresh r) { s with busMaster := on }

/-- A Function Level Reset (R467): the MSI-X table, Bus Master Enable, and every ring and queue in host memory. -/
def functionReset (s : Blk) : Blk :=
  let s := ({ s with msixTab := [] }.setFld .MSIX_PBA_pend 0 0).setBusMaster false
  let s := (List.range 1024).foldl (fun s r => if s.flag .DMA_RING_CFG_side r then s else s.ringReset r) s
  (List.range 4096).foldl (fun s q => if s.flag .DMA_CQ_CFG_side q then s else s.cqReset q) s

/-- A host access of a ring or queue ends in an error (R480). -/
def accessFault (s : Blk) : HostPlace → Blk
  | .ring r => if s.flag .DMA_RING_CFG_en r then (s.setFld .DMA_RING_STATUS_fault r 1).raise .DMA_INT_fault 0 else s
  | .queue q => if s.flag .DMA_CQ_CFG_en q then (s.setFld .DMA_CQ_STATUS_fault q 1).raise .DMA_INT_fault 0 else s

/-! ### Frames to the host -/

/-- Bytes 12 to 31 of an RX descriptor that the device writes (R472). -/
def rxWriteBack (h : HostFrame) (n : Nat) (sop eop trunc : Bool) : List Byte :=
  let flags := (if sop then 128 else 0) + (if eop then 64 else 0) + (if trunc then 32 else 0) +
    (if sop && h.ts.isSome then 16 else 0)
  beBytes 2 n ++ beBytes 1 flags ++ beBytes 1 (h.tc * 32 + h.why) ++
    (if sop then (match h.ts with
      | some t => t
      | none => beBytes 2 h.link ++ beBytes 14 0) else beBytes 16 0)

/-- A frame goes into a ring's buffers, and then the descriptors are written and the head moves past them (R471, R475). A PTP
message in a ring of side 1 is the firmware's (R473). -/
def deliverFrame (s : Blk) (r : Nat) (h : HostFrame) (descs : List RxDesc) : Blk :=
  let side := s.flag .DMA_RING_CFG_side r
  let head := s.fld .DMA_RING_HEAD_head r
  let (done, rest) := fillBuffers (min (s.ringFilled r) h.bytes.length) descs h.bytes
  let trunc := rest ≠ []
  let s := done.foldl (fun s (x : RxDesc × List Byte) => s.emit (.dmaWrite side x.1.addr.toNat x.2)) s
  let s := ((List.range done.length).zip done).foldl (fun s (x : Nat × RxDesc × List Byte) =>
    s.emit (.dmaWrite side (s.entryAddr r (head + x.1) 32 + 12)
      (rxWriteBack h x.2.2.length (x.1 = 0) (x.1 + 1 = done.length) trunc))) s
  let s := if trunc then (s.count .DMA_RING_TRUNC_count r 1).raise .DMA_INT_trunc 0 else s
  let s := s.advanceRing r done.length
  match side && !trunc && h.why = 2, h.ts with
  | true, some ts => s.ptpTake h.link ((frameOf h.bytes).data.drop (ptpStart (frameOf h.bytes))) ts
  | _, _ => s

/-- The oldest frame of a ring leaves the host receive buffer (R473, R475, R480). -/
def hostRxFrame (s : Blk) (r : Nat) (descs : List RxDesc) : Blk :=
  match s.hostRx.find? fun h => h.ring = r with
  | none => s
  | some h =>
    let s := { s with hostRx := s.hostRx.erase h }
    if !(s.flag .DMA_RING_CFG_en r && s.fld .DMA_RING_CFG_func r = 1) then s.count .DMA_RX_DROP_count 0 1
    else if s.ringHas r 1 then s.deliverFrame r h descs
    else s.count .DMA_RING_NOBUF_count r 1

/-! ### Frames from the host -/

/-- A TX frame's descriptors are right (R476): sop on the first and eop on the last alone, each length at least 1, the whole
at most 9,216 bytes, and the link one that exists. -/
def txDescsOk (s : Blk) (descs : List TxDesc) : Bool :=
  let n := descs.length
  let marks := ((List.range n).zip descs).all fun x =>
    x.2.flags.toNat.testBit 7 = (x.1 = 0) && x.2.flags.toNat.testBit 6 = (x.1 + 1 = n) && x.2.len ≠ 0
  let total := (descs.map fun d => d.len.toNat).sum
  marks && total ≤ 9216 && match descs with
    | [] => false
    | d :: _ => d.link.toNat < 1024 && s.linkExists d.link.toNat

/-- A TX frame goes straight to egress: its copy asks for admission, and the ring is held until that is decided (R476). -/
def txEgress (s : Blk) (r l c n : Nat) (ts : Bool) (f : Frame) : Blk :=
  let fid := s.nextFrame
  let t := tileOf l
  let key := 4 * fid + dieOf l
  let s := ({ s with nextFrame := fid + 1, hostTx := s.hostTx.put r ⟨fid, n⟩ }).putFrame fid
    { frame := f, link := none, tile := t, cls := c, cells := 0, freed := 0, whole := true, got := f.data.length,
      chkFail := false, dest := .copies, void := false, why := 0, arrived := 0, stampOk := false, tag := none }
  let s := s.putCopy key
    { frame := f, cls := c, node := .host, target := .link l, inLink := none, tile := t, ncells := cellsOf (frameLen f),
      phase := .held, stalled := false, sent := 0, landed := 0, wrote := 0, todo := [], refs := 0, cells := [], enqueued := false, first := false,
      turned := false, ftag := 0,
      chkFail := false, short := false, tag := none, tx := some r, ts := ts }
  s.ask key

/-- The next frame of a TX ring is taken (R476): `descs` and `bytes` are what the host wrote, from sop to eop. -/
def hostTxFrame (s : Blk) (r : Nat) (descs : List TxDesc) (bytes : List Byte) (img : ImageClass) : Blk :=
  if !s.ringHas r 2 || (s.hostTx.find r).isSome || s.ringFilled r < descs.length then s
  else match descs with
    | [] => s
    | d :: _ =>
      let n := descs.length
      if !s.txDescsOk descs then ({ s with hostTx := s.hostTx.put r ⟨0, n⟩ }).txDone r 2
      else
        let f := frameOf (padTo (max 14 (descs.map fun d => d.len.toNat).sum) bytes)
        let l := d.link.toNat
        let flags := d.flags.toNat
        if flags.testBit 5 then
          ({ s.landFrame l f true img false 0 with hostTx := s.hostTx.put r ⟨0, n⟩ }).txDone r 0
        else s.txEgress r l (flags % 8) n (flags.testBit 4) f

/-! ### Records -/

/-- A record's 64-byte entry (R477). -/
def cplEntry (x : CplRec) : List Byte :=
  padTo 32 x.bytes ++ beBytes 24 0 ++ beBytes 1 x.kind ++ beBytes 7 0

/-- The oldest record of a ring is written, discarded where the ring is no enabled CPL ring, or waits; an error record, even behind
one that waits, finds the ring without a free entry and is lost to it (R457, R477). -/
def cplRecord (s : Blk) (r : Nat) : Blk :=
  match s.cplWait.get [] r with
  | [] => s
  | x :: rest =>
    let gone := { s with cplWait := s.cplWait.set [] r rest }
    if !(s.flag .DMA_RING_CFG_en r && s.fld .DMA_RING_CFG_func r = 3) then
      ((gone.count .DMA_CPL_DISCARD_count 0 1).raise .DMA_INT_misroute 0).placeFreed
    else if s.ringHas r 3 then
      ((gone.emit (.dmaWrite (s.flag .DMA_RING_CFG_side r) (s.entryAddr r (s.fld .DMA_RING_HEAD_head r) 64)
        (cplEntry x))).advanceRing r 1).placeFreed
    else
      let (errs, kept) := (x :: rest).partition (·.kind = 5)
      let s := if s.cplFull then s.raise .DMA_INT_cpl_full 0 else s
      { s with cplWait := s.cplWait.set [] r kept }.count .MGT_ERR_LOST_count 0 errs.length

end Blk

/-! ### Meanings -/

open Blk

/-- R470, R488. -/
def execRingDoorbell (ring : RingId) (tail : BitVec 32) (s : State) : Host.Outcome State Fault Refusal :=
  run (fun b => if b.flag .DMA_RING_CFG_side ring.val then b.ringDoorbell ring tail.toNat else overPcie (·.ringDoorbell ring tail.toNat) b) s

/-- R470, R479. -/
def execCqDoorbell (queue : QueueId) (tail : BitVec 32) (s : State) : Host.Outcome State Fault Refusal :=
  run (fun b => if b.flag .DMA_CQ_CFG_side queue.val then b.cqDoorbell queue tail.toNat else overPcie (·.cqDoorbell queue tail.toNat) b) s

/-- R468, R469. -/
def execRingEnable (ring : RingId) (value : BitVec 32) (s : State) : Host.Outcome State Fault Refusal :=
  run (·.ringEnable ring value.toNat) s

/-- R480, R488. -/
def execRingReset (ring : RingId) (s : State) : Host.Outcome State Fault Refusal := run (·.ringReset ring) s

/-- R479, R480. -/
def execCqReset (queue : QueueId) (s : State) : Host.Outcome State Fault Refusal := run (·.cqReset queue) s

/-- R472, R475, R480. -/
def execHostRxFrame (ring : RingId) (descs : List RxDesc) (s : State) : Host.Outcome State Fault Refusal :=
  run (·.hostRxFrame ring descs) s

/-- R476. -/
def execHostTxFrame (ring : RingId) (descs : List TxDesc) (bytes : List Byte) (image : ImageClass) (s : State) :
    Host.Outcome State Fault Refusal :=
  run (·.hostTxFrame ring descs bytes image) s

/-- R477, R457. -/
def execCplRecord (ring : RingId) (s : State) : Host.Outcome State Fault Refusal := run (·.cplRecord ring) s

/-- R480. -/
def execHostAccessFault (place : HostPlace) (s : State) : Host.Outcome State Fault Refusal := run (·.accessFault place) s

/-- R467. -/
def execFunctionLevelReset (s : State) : Host.Outcome State Fault Refusal := run (overPcie Blk.functionReset) s

/-- R467. -/
def execBusMasterEnable (on : Bool) (s : State) : Host.Outcome State Fault Refusal := run (overPcie (·.setBusMaster on)) s

/-- R488. -/
def execRingIrqDelay (ring : RingId) (s : State) : Host.Outcome State Fault Refusal := run (·.ringDelay ring) s

/-- R487. -/
def execIrqArm (vector : Fin 64) (s : State) : Host.Outcome State Fault Refusal := run (·.irqArm vector) s

end Sys2Proof.Machine
end

