-- ==== Sys2Proof/Machine/Mailbox.lean ====
section
/-!
DEFINITION. The management mailbox (R481 to R485) and the recovery framing of the debug UART (R496): taking, answering and
acknowledging messages, and the messages themselves but for those that reach registers.
-/

namespace Sys2Proof.Machine.Blk

/-! ### Slots and messages (R481, R499) -/

/-- The 256 bytes of an H2D slot; byte 0 in bits [31:24] of its first word. -/
def h2dSlot (s : Blk) (slot : Nat) : List Byte :=
  (List.range 64).flatMap fun w => beBytes 4 (s.fld .MGT_MBX_H2D_word (64 * slot + w))

/-- A request read from a message; a len above 240 is kept as 241 bytes of payload. -/
def requestOf (bytes : List Byte) : MbxReq :=
  let len := beAt bytes 10 2
  { seq := beAt bytes 0 4, cmd := beAt bytes 8 2,
    payload := if len ≤ 240 then (List.range len).map fun i => bytes.getD (16 + i) 0 else List.replicate 241 0,
    aborted := false }

/-! ### Answering (R482, R483) -/

/-- The start took the recovery UART, so that the debug UART carries the recovery framing (R388, R496). -/
def uartFraming (s : Blk) : Bool := s.fld .IMG_BOOT_src 0 ≥ 2

/-- Post the answer to a mailbox request: DONE is set to ref (R483). -/
def mbxPost (s : Blk) (q : MbxReq) (status : Nat) (payload : List Byte) : Blk :=
  (s.setFld .MGT_MBX_H2D_DONE_seq 0 q.seq).postMessage q.seq q.cmd status payload

/-- Byte stuffing of the recovery framing (R496). -/
def stuff (bytes : List Byte) : List Byte :=
  bytes.flatMap fun (b : Byte) => if b = 0x7E ∨ b = 0x7D then [0x7D, b ^^^ 0x20] else [b]

/-- A body undone from byte stuffing; `esc` after 0x7D. -/
def unstuff (esc : Bool) : List Byte → List Byte
  | [] => []
  | b :: bs =>
    if esc then (b ^^^ 0x20) :: unstuff false bs
    else if b = 0x7D then unstuff true bs
    else b :: unstuff false bs

/-- A frame of the recovery framing: 0x7E, the stuffed body and 0x7E (R496). -/
def uartWrap (msg : List Byte) : List Byte :=
  let body := msg ++ beBytes 4 (crc32c msg)
  (0x7E : Byte) :: (stuff body ++ [(0x7E : Byte)])

/-- Send the answer to a recovery request on the debug UART. -/
def uartPost (s : Blk) (q : MbxReq) (status : Nat) (payload : List Byte) : Blk :=
  let seq := (s.uart.sent + 1) % 2 ^ 32
  let bytes := uartWrap (message seq q.seq q.cmd status payload)
  { s with uart := { s.uart with done := q.seq, sent := seq, last := some bytes } }.emit (.uart bytes)

/-- A message code that is answered otherwise than with UNKNOWN: the recovery monitor answers PING and FW_INFO (R485), and
the debug UART the four codes that serve it alone (R496). -/
def knownCode (s : Blk) (uart : Bool) (cmd : Nat) : Bool :=
  cmd = 0x0001 || cmd = 0x0002 || (uart && 0x0100 ≤ cmd && cmd ≤ 0x0103) ||
    (s.fld .IMG_BOOT_phase 0 ≠ 3 && (cmd = 0x0010 || cmd = 0x0011 || cmd = 0x0012))

/-- Answer the mailbox requests at the head that need no command of their own: ABORTED after a reset (R484), UNKNOWN for a
code that is none (R485). At most 16 requests wait (R482). -/
def mbxFlush (fuel : Nat) (s : Blk) : Blk :=
  match fuel with
  | 0 => s
  | n + 1 =>
    match s.mbxReqs with
    | [] => s
    | q :: qs =>
      if !s.fwReady || !s.mbxRoom then s
      else if q.aborted then mbxFlush n ({ s with mbxReqs := qs }.mbxPost q 5 [])
      else if s.knownCode false q.cmd then s
      else mbxFlush n ({ s with mbxReqs := qs }.mbxPost q 1 [])

/-- The same for the recovery framing. -/
def uartFlush (fuel : Nat) (s : Blk) : Blk :=
  match fuel with
  | 0 => s
  | n + 1 =>
    match s.uart.reqs with
    | [] => s
    | q :: qs =>
      if !s.fwReady then s
      else if q.aborted then uartFlush n ({ s with uart := { s.uart with reqs := qs } }.uartPost q 5 [])
      else if s.knownCode true q.cmd then s
      else uartFlush n ({ s with uart := { s.uart with reqs := qs } }.uartPost q 1 [])

/-- Post the events that wait, and answer whatever at the two heads needs no command of its own. -/
def flushMessages (s : Blk) : Blk := ((s.flushEvents 16).mbxFlush 16).uartFlush 16

/-- The request that a message's command answers: the oldest of the mailbox, or else of the recovery framing (true). -/
def headRequest (s : Blk) (cmd : Nat) : Option (Bool × MbxReq) :=
  if !s.fwReady then none
  else match s.mbxReqs with
  | q :: _ =>
    if q.cmd = cmd ∧ s.mbxRoom then some (false, q)
    else (s.uart.reqs.head?).bind fun (u : MbxReq) => if u.cmd = cmd then some (true, u) else none
  | [] => (s.uart.reqs.head?).bind fun (u : MbxReq) => if u.cmd = cmd then some (true, u) else none

/-- Answer the request at a head, and let the next ones be answered. -/
def answer (s : Blk) (uart : Bool) (q : MbxReq) (status : Nat) (payload : List Byte) : Blk :=
  let s :=
    if uart then { s with uart := { s.uart with reqs := s.uart.reqs.tail } }.uartPost q status payload
    else { s with mbxReqs := s.mbxReqs.tail }.mbxPost q status payload
  s.flushMessages

/-- A message whose payload is to have `len` bytes: what it does, and its answer. -/
def serve (s : Blk) (cmd len : Nat) (act : Blk → List Byte → Nat × Blk) : Blk :=
  match s.headRequest cmd with
  | none => s
  | some (uart, q) =>
    if q.payload.length = len then
      let (status, s) := act s q.payload
      s.answer uart q status []
    else s.answer uart q 2 []

/-! ### The commands -/

/-- A mailbox doorbell (R482): the next message is taken, or the doorbell is ignored with bad_seq. -/
def doMailboxDoorbell (seq : Nat) (s : Blk) : Blk :=
  let taken := s.fld .MGT_MBX_H2D_TAKEN_seq 0
  if seq = (taken + 1) % 2 ^ 32 ∧ seqAhead (s.fld .MGT_MBX_H2D_DONE_seq 0) taken < 16 then
    let q := { requestOf (s.h2dSlot (seq % 16)) with seq := seq }
    ({ s with mbxReqs := s.mbxReqs ++ [q] }.setFld .MGT_MBX_H2D_TAKEN_seq 0 seq).flushMessages
  else s.raise .MGT_MBX_INT_bad_seq 0

/-- A write of MGT_MBX_D2H_ACK (R482). -/
def doD2hAck (v : Nat) (s : Blk) : Blk :=
  let ack := s.fld .MGT_MBX_D2H_ACK_seq 0
  if seqAhead ack v ≤ seqAhead ack (s.fld .MGT_MBX_D2H_SENT_seq 0) then (s.setFld .MGT_MBX_D2H_ACK_seq 0 v).flushMessages
  else s.raise .MGT_MBX_INT_bad_seq 0

/-- PING is answered with its own payload (R485). -/
def doPing (s : Blk) : Blk :=
  match s.headRequest 0x0001 with
  | none => s
  | some (uart, q) => if q.payload.length ≤ 240 then s.answer uart q 0 q.payload else s.answer uart q 2 []

/-- FW_INFO returns IMG_RUN_VER0 to IMG_RUN_VER2 and the epoch (R485). -/
def doFwInfo (s : Blk) : Blk :=
  match s.headRequest 0x0002 with
  | none => s
  | some (uart, q) =>
    if q.payload = [] then
      s.answer uart q 0 (beBytes 4 (s.fld .IMG_RUN_VER_version 0) ++ beBytes 4 (s.fld .IMG_RUN_VER_version 1) ++
        beBytes 4 (s.fld .IMG_RUN_VER_version 2) ++ beBytes 1 (s.fld .MGT_MBX_STATUS_epoch 0))
    else s.answer uart q 2 []

/-- PTP_CFG sets the firmware's thresholds (R485). -/
def doPtpCfg (s : Blk) : Blk :=
  s.serve 0x0010 16 fun s p =>
    (0, { s with timeCfg :=
      { s.timeCfg with lockNs := beAt p 0 4, lockSyncs := beAt p 4 2, stepNs := beAt p 6 4, stepSyncs := beAt p 10 2, maxRate := beAt p 12 4 } })

/-- TOD_SET gives the hall-time seconds of the next PPS_IN edge (R359, R485). -/
def doTodSet (s : Blk) : Blk :=
  s.serve 0x0011 6 fun s p => (0, { s with timeCfg := { s.timeCfg with tod := some (beAt p 0 6) } })

/-- TIME_SRC selects PTP or PPS_IN as the time source (R485); another value is BAD_ARG. -/
def doTimeSrc (s : Blk) : Blk :=
  s.serve 0x0012 1 fun s p =>
    if beAt p 0 1 ≤ 1 then (0, { s with timeCfg := { s.timeCfg with ppsIn := beAt p 0 1 = 1 } }) else (3, s)

/-- A frame of the recovery framing (R496). A request numbered TAKEN + 1 is taken; one that repeats TAKEN is answered again. -/
def doUartFrame (bytes : List Byte) (s : Blk) : Blk :=
  let body := unstuff false ((bytes.drop 1).dropLast)
  let msg := body.take (body.length - 4)
  let framed := 2 ≤ bytes.length ∧ bytes.head? = some 0x7E ∧ bytes.getLast? = some 0x7E ∧
    ¬ (0x7E : Byte) ∈ (bytes.drop 1).dropLast
  if s.uartFraming ∧ s.fwReady ∧ framed ∧ 20 ≤ body.length ∧ beAt body (body.length - 4) 4 = crc32c msg then
    let q := requestOf msg
    if q.seq = (s.uart.taken + 1) % 2 ^ 32 ∧ seqAhead s.uart.done s.uart.taken < 16 then
      { s with uart := { s.uart with taken := q.seq, reqs := s.uart.reqs ++ [q] } }.flushMessages
    else if q.seq = s.uart.taken ∧ s.uart.done = s.uart.taken then
      match s.uart.last with
      | some b => s.emit (.uart b)
      | none => s
    else s
  else s

/-- The management cores leave a reset of any level (R484): the epoch advances, restarted is set, every request taken and not
answered is to be answered with ABORTED, events not posted are lost with the firmware's memory, and its settings are those of
its start (R485). -/
def mgmtLeave (s : Blk) : Blk :=
  let drop : MbxReq → MbxReq := fun q => { q with aborted := true }
  let s := { s with mbxReqs := s.mbxReqs.map drop, uart := { s.uart with reqs := s.uart.reqs.map drop },
                    mbxEvents := [], timeCfg := .reset, servo := .reset }
  (s.setFld .MGT_MBX_STATUS_epoch 0 (s.fld .MGT_MBX_STATUS_epoch 0 + 1)).raise .MGT_MBX_INT_restarted 0

/-- The firmware or the recovery monitor answers from now on. -/
def fwStart (s : Blk) : Blk := (s.setFld .MGT_MBX_STATUS_fw_ready 0 1).flushMessages

end Sys2Proof.Machine.Blk

namespace Sys2Proof.Machine

/-- MAILBOX_DOORBELL (R482). -/
def execMailboxDoorbell (seq : BitVec 32) (s : State) : Host.Outcome State Fault Refusal := run (Blk.overPcie (Blk.doMailboxDoorbell seq.toNat)) s
/-- D2H_ACK (R482). -/
def execD2hAck (value : BitVec 32) (s : State) : Host.Outcome State Fault Refusal := run (Blk.overPcie (Blk.doD2hAck value.toNat)) s
/-- PING (R485). -/
def execPing (s : State) : Host.Outcome State Fault Refusal := run Blk.doPing s
/-- FW_INFO (R485). -/
def execFwInfo (s : State) : Host.Outcome State Fault Refusal := run Blk.doFwInfo s
/-- PTP_CFG (R485). -/
def execPtpCfg (s : State) : Host.Outcome State Fault Refusal := run Blk.doPtpCfg s
/-- TOD_SET (R485). -/
def execTodSet (s : State) : Host.Outcome State Fault Refusal := run Blk.doTodSet s
/-- TIME_SRC (R485). -/
def execTimeSrc (s : State) : Host.Outcome State Fault Refusal := run Blk.doTimeSrc s
/-- UART_FRAME (R496). -/
def execUartFrame (bytes : List Byte) (s : State) : Host.Outcome State Fault Refusal := run (Blk.doUartFrame bytes) s

end Sys2Proof.Machine
end

