-- ==== Sys2Proof/Machine/Serial.lean ====
section
/-!
DEFINITION. The I²C controllers (R489, R490, R502), the SMBus target (R491) and the GPIO pins (R492, R493, R501).
-/

namespace Sys2Proof.Machine.Blk

/-! ### I²C controllers -/

/-- What a controller holds beside its registers. -/
def i2cOf (s : Blk) (c : Nat) : I2cRec := s.i2c.get .reset c

/-- Replace what a controller holds. -/
def putI2c (s : Blk) (c : Nat) (r : I2cRec) : Blk := { s with i2c := s.i2c.set .reset c r }

/-- A controller's lines are connected: those of controller 1 are GPIO0 and GPIO1 at function 0x1, once switched; in the hold of R505
no pad is driven (R489, R492, R493). Unconnected, a controller sees its lines idle, high. -/
def i2cWired (s : Blk) (c : Nat) : Bool :=
  !s.powerHold && (c = 0 || [0, 1].all fun pin => s.fld .GPIO_FUNC_func pin = 1 && (s.pinSwitches.find pin).isNone)

/-- A transfer or clear has ended. -/
def i2cDone (s : Blk) (c : Nat) : Blk :=
  ((s.setFld .I2C_STATUS_busy c 0).setFld .I2C_STATUS_done c 1).raise .I2C_INT_done c

/-- The `n` bytes that a transfer takes from the TX FIFO; one that the FIFO does not hold is a free value. -/
def i2cBytes : Nat → List Byte → Blk → List Byte × Blk
  | 0, _, s => ([], s)
  | n + 1, b :: bs, s => let r := i2cBytes n bs s; (b :: r.1, r.2)
  | n + 1, [], s =>
    let (v, s) := s.free 8
    let r := i2cBytes n [] s
    (BitVec.ofNat 8 v :: r.1, r.2)

/-- A write of I2C_CMD: with start = 1 a transfer begins (R489), unless it is refused. -/
def i2cStart (s : Blk) (c v : Nat) : Blk :=
  let rd := bits v 15 8
  let wr := bits v 7 0
  let put := fun (s : Blk) =>
    ((s.setFld .I2C_CMD_addr c (bits v 22 16)).setFld .I2C_CMD_rd_count c rd).setFld .I2C_CMD_wr_count c wr
  if !v.testBit 31 then put s
  else if s.flag .I2C_STATUS_busy c || (s.i2cOf c).refuses || !s.flag .I2C_CTL_en c || 32 < rd || 32 < wr then
    s.raise .I2C_INT_reject c
  else
    let r := s.i2cOf c
    let (bytes, s) := i2cBytes wr r.tx (put s)
    let s := s.putI2c c { r with tx := r.tx.drop wr }
    let s := (((s.setFld .I2C_STATUS_busy c 1).setFld .I2C_STATUS_done c 0).setFld .I2C_STATUS_nack c 0).setFld
      .I2C_STATUS_arb_lost c 0
    if s.i2cWired c then s.emit (.i2c c (bits v 22 16) bytes rd) else s

/-- A transfer ends (R489, R490). Bytes read go into the RX FIFO while it has room. No target answers on lines that are not
connected. -/
def i2cEnd (s : Blk) (c : Nat) (e : I2cEnd) : Blk :=
  if !s.flag .I2C_STATUS_busy c then s
  else
    let s := match (if s.i2cWired c then e else .nack) with
      | .good bs =>
        let r := s.i2cOf c
        (s.putI2c c { r with rx := (r.rx ++ bs.take (s.fld .I2C_CMD_rd_count c)).take 32 }).setFld .I2C_STATUS_scl_stuck c 0
      | .nack => s.setFld .I2C_STATUS_nack c 1
      | .arbLost => s.setFld .I2C_STATUS_arb_lost c 1
      | .sclStuck => s.setFld .I2C_STATUS_scl_stuck c 1
    s.i2cDone c

/-- A bus clear runs and ends (R490); SDA that is not connected reads high. -/
def i2cClearEnd (s : Blk) (c : Nat) (e : ClearEnd) : Blk :=
  let r := s.i2cOf c
  let s := match (if s.i2cWired c then e else .released) with
    | .released =>
      ((s.putI2c c { r with refuses := false }).setFld .I2C_STATUS_sda_stuck c 0).setFld .I2C_STATUS_scl_stuck c 0
    | .sdaStuck =>
      ((s.putI2c c { r with refuses := true }).setFld .I2C_STATUS_sda_stuck c 1).raise .I2C_INT_stuck c
    | .sclStuck => s.setFld .I2C_STATUS_scl_stuck c 1
  s.i2cDone c

/-- A clear is written, or follows a reset of the controller (R490): ignored while busy = 1. -/
def i2cClear (s : Blk) (c : Nat) (e : ClearEnd) : Blk :=
  if s.flag .I2C_STATUS_busy c then s.raise .I2C_INT_reject c else s.i2cClearEnd c e

/-- A controller's registers and FIFOs at reset (R502). -/
def i2cReset (s : Blk) (c : Nat) : Blk :=
  let fs := [Reg.I2C_CTL, .I2C_CMD, .I2C_DATA, .I2C_STATUS, .I2C_INT, .I2C_INT_EN].flatMap fun (r : Reg) => r.info.fields
  { fs.foldl (fun s f => s.clrFld f c) s with i2c := s.i2c.del c }

/-- A reset of a controller, and the clear that follows it when SDA reads low (R490). -/
def doI2cReset (c : Nat) (sdaLow : Bool) (e : ClearEnd) (s : Blk) : Blk :=
  if sdaLow && s.i2cWired c then (s.i2cReset c).i2cClearEnd c e else s.i2cReset c

/-- How a bus clear ends, where the command does not say: a free value. -/
def freeClear (s : Blk) : ClearEnd × Blk :=
  let (k, s) := s.free 2
  (if k = 0 then .sdaStuck else if k = 1 then .sclStuck else .released, s)

/-- A reset of the management cores, and of a controller with it, ends: the bus is cleared if SDA reads low, which is a free value,
as is how the clear ends (R490). -/
def i2cUp (s : Blk) (c : Nat) : Blk :=
  let (low, s) := s.free 1
  let (e, s) := s.freeClear
  doI2cReset c (low = 1) e s

/-- The management cores, and the controllers, leave a reset (R484, R490). -/
def mgmtUp (s : Blk) : Blk := (s.mgmtLeave.i2cUp 0).i2cUp 1

/-- A write of I2C_DATA enters the TX FIFO, while it has room (R489, R502). -/
def i2cPush (s : Blk) (c : Nat) (b : Byte) : Blk :=
  let r := s.i2cOf c
  if r.tx.length < 32 then s.putI2c c { r with tx := r.tx ++ [b] } else s

/-- A read of I2C_DATA takes the oldest byte of the RX FIFO. An empty one reads as its reset value, 0x00, until a byte has been taken
since the reset, and as a free value afterwards (R502). -/
def i2cPop (s : Blk) (c : Nat) : Nat × Blk :=
  let r := s.i2cOf c
  match r.rx with
  | [] => if r.popped then s.free 8 else (0, s)
  | b :: bs => (b.toNat, s.putI2c c { r with rx := bs, popped := true })

/-! ### The SMBus target -/

/-- The target answers but in the ASSERT phase of a cold reset (R491). -/
def targetUp (s : Blk) : Bool := !s.resets.any fun r => r.level = 0 && !r.released

/-- The register that a command code names (R491). -/
def targetRegister (s : Blk) (k : Nat) : Nat :=
  match k with
  | 0x00 => s.regRaw .MGT_DEVICE_ID 0
  | 0x01 => s.regRaw .RSTC_CAUSE 0
  | 0x02 => s.regRaw .RSTC_FAILS 0
  | 0x03 => s.regRaw .IMG_BOOT 0
  | 0x04 => s.regRaw .OBS_LC 0
  | 0x05 => s.regRaw .MGT_MBX_STATUS 0
  | k => if 0x10 ≤ k ∧ k < 0x10 + 124 then s.fld .JSP_MRG_RD_value (k - 0x10) else 0

/-- An SMBus Block Read (R491): the byte count, four bytes, and the PEC, computed over the whole transfer. -/
def blockRead (s : Blk) (k : Nat) : Blk :=
  if s.targetUp then
    let addr := s.fld .I2C_TGT_CFG_addr 0
    let data := (4 : Byte) :: beBytes 4 (s.targetRegister k)
    let head := beBytes 1 (2 * addr) ++ beBytes 1 k ++ beBytes 1 (2 * addr + 1)
    let pec := if s.flag .I2C_TGT_CFG_pec_en 0 then beBytes 1 (crc8 (head ++ data)) else []
    s.emit (.smbus (data ++ pec))
  else s

/-- SMB_ALERT_N is driven low (R491). -/
def alertLow (s : Blk) : Bool :=
  s.flag .I2C_TGT_CFG_alert_en 0 && (s.flag .JSP_INT_mrg_warn 0 || s.flag .JSP_INT_mrg_alarm 0)

/-- The Alert Response Address is read: the target gives its own address while it drives SMB_ALERT_N low (R491). -/
def alertAnswer (s : Blk) : Blk :=
  if s.targetUp && s.alertLow then s.emit (.smbus (beBytes 1 (2 * s.fld .I2C_TGT_CFG_addr 0))) else s

/-! ### GPIO -/

/-- The function of a pin that a code names: reserved codes are treated as 0x0 (R492). -/
def pinFunc (pin v : Nat) : Nat := if v = 1 ∧ pin < 8 then 1 else 0

/-- The level at which a pin is driven, if it is (R492, R495, R501, R505). An idle I²C controller drives neither of its pins; UART1 TX
idles high and its RX is an input. -/
def pinDrive (s : Blk) (pin : Nat) : Option Bool :=
  if s.powerHold then none
  else if s.jtagActs = .extest then Config.boundaryPad s.boundary pin
  else if pinFunc pin (s.fld .GPIO_FUNC_func pin) = 0 then
    if s.bit .GPIO_OE_oe 0 pin then some (s.bit .GPIO_OUT_out 0 pin) else none
  else match pin with
    | 2 => if s.alertLow then some false else none
    | 3 => some (!s.flag .JSP_INT_mrg_alarm 0)
    | 4 => some true
    | 6 => some s.ppsOut
    | 7 => some (!s.fatal)
    | _ => none

/-- The level of a pad as GPIO_IN shows it (R493, R501): the one held while its pin switches, the one driven, or else the one last
seen on it. -/
def padLevel (s : Blk) (pin : Nat) : Bool :=
  (match s.pinSwitches.find pin with
   | some p => p.drives
   | none => s.pinDrive pin).getD (s.bit .GPIO_IN_in 0 pin)

/-- The edges that the GPIO function of the pins sees as their levels change set their interrupt bits (R501). -/
def padEdges (old s : Blk) : Blk :=
  (List.range 16).foldl (fun s pin =>
    let rising := s.padLevel pin
    if old.padLevel pin ≠ rising && (s.pinSwitches.find pin).isNone && pinFunc pin (s.fld .GPIO_FUNC_func pin) = 0 &&
        (s.fld .GPIO_EDGE_sel 0).testBit (2 * pin + (if rising then 0 else 1)) then s.raiseBit .GPIO_INT_edge 0 pin
    else s) s

/-- A write of GPIO_FUNCn (R493): one that changes it starts a switch, and one during a switch waits for its end. -/
def gpioFunc (s : Blk) (pin v : Nat) : Blk :=
  match s.pinSwitches.find pin with
  | some p => { s with pinSwitches := s.pinSwitches.put pin { p with next := some v } }
  | none =>
    let old := s.fld .GPIO_FUNC_func pin
    if old = v then s
    else
      let p : PinSwitch := ⟨s.pinDrive pin, pinFunc pin old, none, none⟩
      ({ s with pinSwitches := s.pinSwitches.put pin p }.setFld .GPIO_FUNC_func pin v).setBit .GPIO_STATUS_switching 0 pin true

/-- A switch ends: the new function connects, and a held write is applied (R493). -/
def gpioSwitchEnd (s : Blk) (pin : Nat) : Blk :=
  match s.pinSwitches.find pin with
  | none => s
  | some p =>
    let s := { s with pinSwitches := s.pinSwitches.del pin }.setBit .GPIO_STATUS_switching 0 pin false
    let s := match p.pad with
      | some l => s.setBit .GPIO_IN_in 0 pin l
      | none => s
    match p.next with
    | some v => s.gpioFunc pin v
    | none => s

/-- The level put on a pad from outside changes (R493, R501): GPIO_IN follows where the block does not drive the pad, and a
selected edge that the GPIO function sees sets its interrupt bit. -/
def gpioEdge (s : Blk) (pin : Nat) (rising : Bool) : Blk :=
  match s.pinSwitches.find pin with
  | some p =>
    if p.old = 0 then { s with pinSwitches := s.pinSwitches.put pin { p with pad := some rising } }
    else s.setBit .GPIO_IN_in 0 pin rising
  | none => Blk.padEdges s (s.setBit .GPIO_IN_in 0 pin rising)

end Sys2Proof.Machine.Blk

namespace Sys2Proof.Machine

/-- I2C_START (R489). -/
def execI2cStart (ctrl : Fin 2) (value : BitVec 32) (s : State) : Host.Outcome State Fault Refusal :=
  run (fun b => b.i2cStart ctrl.val value.toNat) s
/-- I2C_TRANSFER_END (R489). -/
def execI2cTransferEnd (ctrl : Fin 2) (outcome : I2cEnd) (s : State) : Host.Outcome State Fault Refusal :=
  run (fun b => b.i2cEnd ctrl.val outcome) s
/-- I2C_CLEAR (R490). -/
def execI2cClear (ctrl : Fin 2) (outcome : ClearEnd) (s : State) : Host.Outcome State Fault Refusal :=
  run (fun b => b.i2cClear ctrl.val outcome) s
/-- I2C_RESET (R490). -/
def execI2cReset (ctrl : Fin 2) (sdaLow : Bool) (outcome : ClearEnd) (s : State) : Host.Outcome State Fault Refusal :=
  run (Blk.doI2cReset ctrl.val sdaLow outcome) s
/-- SMBUS_BLOCK_READ (R491). -/
def execSmbusBlockRead (code : BitVec 8) (s : State) : Host.Outcome State Fault Refusal := run (fun b => b.blockRead code.toNat) s
/-- ALERT_RESPONSE (R491). -/
def execAlertResponse (s : State) : Host.Outcome State Fault Refusal := run Blk.alertAnswer s
/-- GPIO_FUNC_WRITE (R493). -/
def execGpioFuncWrite (pin : Fin 16) (func : BitVec 2) (s : State) : Host.Outcome State Fault Refusal :=
  run (fun b => b.gpioFunc pin.val func.toNat) s
/-- GPIO_SWITCH_END (R493). -/
def execGpioSwitchEnd (pin : Fin 16) (s : State) : Host.Outcome State Fault Refusal := run (fun b => b.gpioSwitchEnd pin.val) s
/-- GPIO_EDGE (R501). -/
def execGpioEdge (pin : Fin 16) (rising : Bool) (s : State) : Host.Outcome State Fault Refusal :=
  run (fun b => b.gpioEdge pin.val rising) s

end Sys2Proof.Machine
end

