-- ==== Sys2Proof/Machine/Registers.lean ====
section
/-!
DEFINITION. Register accesses (R9 to R14, R415): the values that registers read as, what a write of each register does, 64-bit
registers by halves, isolation, and the windows of BAR2 (R465). The registers that start resets, power changes, image
commands and Obsidian commands are finished in the bus file.
-/

namespace Sys2Proof.Machine

/-- The power domain that answers at a BAR0 address, none for the always-on group (R415). -/
def addrDomain (addr : Nat) : Option Nat :=
  match Reg.find addr with
  | some (r, i, _) => r.domain i
  | none =>
    if 0x2000000 ≤ addr then some ((addr - 0x2000000) / 0x100000)
    else if 0x800000 ≤ addr ∧ addr < 0x840000 then some (156 + (addr - 0x800000) / 0x10000)
    else none

/-- The power domain that answers at a BAR2 offset: the tables' windows return die 0's copy (R88, R225, R260, R415). -/
def windowDomain (addr : Nat) : Option Nat := if addr < 0x3200000 then some 156 else none

/-- A table window of BAR2 (R88): the table and its first offset, by id. -/
def tableBase : Nat → Nat
  | 0 => 0x0000000
  | 1 => 0x0400000
  | 2 => 0x0800000
  | 3 => 0x1000000
  | 4 => 0x1400000
  | 5 => 0x1410000
  | 6 => 0x1420000
  | 7 => 0x1440000
  | _ => 0x1460000

/-- The interrupt enable registers (R486). -/
def isEnable (r : Reg) : Bool :=
  r.info.fields.any fun f => [Fld.TIL_LNK_INT_EN_bits, .FLD_INT_EN_bits, .GRN_INT_EN_bits, .MICA_OE_INT_EN_bits,
    .BSL_INT_EN_bits, .D2D_PAIR_INT_EN_bits, .COL_INT_EN_bits, .GNS_INT_EN_bits, .GNS_CKP_INT_EN_bits, .SHL_INT_EN_bits,
    .MICA_ELS_INT_EN_bits, .FOI_INT_EN_bits, .QTZ_INT_EN_bits, .JSP_INT_EN_bits, .IMG_INT_EN_bits, .RSTC_INT_EN_bits,
    .PWR_INT_EN_bits, .OBS_INT_EN_bits, .MGT_ERR_INT_EN_bits, .DMA_INT_EN_bits, .MGT_MBX_INT_EN_bits, .GPIO_INT_EN_bits,
    .I2C_INT_EN_bits].contains f

namespace Blk

/-! ### Reads -/

/-- What a field reads as: 0 if it is write-only (R12), computed from the state where it is, and otherwise as stored. -/
def readField (s : Blk) (f : Fld) (i : Nat) : Nat :=
  if f.info.access == .wo then 0
  else match f with
  | .MICA_LANE_STATUS_shut => if s.shut i then 1 else 0
  | .FOI_STATUS_hold_s => s.holdSeconds
  | .GPIO_IN_in => (List.range 16).foldl (fun v pin => if s.padLevel pin then v + 2 ^ pin else v) 0
  | .FLD_GATE_STATUS_time_wait => if s.hallValid && s.bit .QTZ_TILE_SYNC_sync 0 (tileOf i) then 0 else 1
  | .MGT_IRQ_PEND_pend =>
    (List.range 32).foldl (fun v b => if s.sourcePending (32 * i + b) then v + 2 ^ b else v) 0
  | .MGT_IRQ_RPEND_pend =>
    (List.range 32).foldl (fun v b => if (s.ring (32 * i + b)).pend then v + 2 ^ b else v) 0
  | _ => s.fld f i

/-- What copy `i` of a register reads as. -/
def readReg (s : Blk) (r : Reg) (i : Nat) : Nat :=
  if s.missing r i then 0 else r.info.fields.foldl (fun v f => v + s.readField f i * 2 ^ f.info.lo) 0

/-- What a read leaves in a field that it clears (R12): 0, or for a monitor's peak its current value (R372). -/
def clearedTo (s : Blk) (f : Fld) (i : Nat) : Nat := if f = .JSP_MRG_RD_peak then s.fld .JSP_MRG_RD_value i else 0

/-- A read of a register: its value, and the block after the fields that a read clears (R12) and the FIFO of I2C_DATA. -/
def takeReg (s : Blk) (r : Reg) (i : Nat) : Nat × Blk :=
  if r = .I2C_DATA then s.i2cPop i
  else (s.readReg r i, r.info.fields.foldl (fun s f => if f.info.access == .rc then s.setFld f i (s.clearedTo f i) else s) s)

/-- Copy `i` of a register is the low half of a chained pair of programmable counters, one 64-bit register (R363). -/
def chainLow (s : Blk) (r : Reg) (i : Nat) : Bool := r = .JSP_PCNT && i % 2 = 0 && s.flag .JSP_PSEL_chain (i + 1)

/-- Copy `i` of a register is the high half of a chained pair. -/
def chainHigh (s : Blk) (r : Reg) (i : Nat) : Bool := r = .JSP_PCNT && i % 2 = 1 && s.flag .JSP_PSEL_chain i

/-- A 32-bit read in BAR0 of a domain that answers: the low word of a 64-bit register latches its high word, and a read of the
high word returns what is latched, or the live word where nothing is (R11; DESIGN CHOICE, log entry 14); an unassigned address
reads as 0 (R14). -/
def wordRead (s : Blk) (addr : Nat) : Nat × Blk :=
  match Reg.find addr with
  | none => (0, s)
  | some (r, i, false) =>
    let (v, s) := s.takeReg r i
    if r.info.wide then (v % 2 ^ 32, { s with hiLatch := s.hiLatch.put addr (v / 2 ^ 32) })
    else if s.chainLow r i then (v, { s with hiLatch := s.hiLatch.put addr (s.fld .JSP_PCNT_count (i + 1)) })
    else if s.chainHigh r i then
      match s.hiLatch.find (addr - 4) with
      | some h => (h, { s with hiLatch := s.hiLatch.del (addr - 4) })
      | none => (v, s)
    else (v, s)
  | some (r, i, true) =>
    match s.hiLatch.find (addr - 4) with
    | some v => (v, { s with hiLatch := s.hiLatch.del (addr - 4) })
    | none => let (v, s) := s.takeReg r i; (v / 2 ^ 32, s)

/-- A read in BAR0 (R11, R14, R415). A 64-bit read that names 32-bit registers reads two of them. -/
def bar0Read (s : Blk) (addr : Nat) (wide : Bool) : Nat × Blk :=
  match addrDomain addr with
  | some n =>
    if s.isolated n then (isoValue n wide, s.isoAccess 0 addr)
    else if !wide then s.wordRead addr
    else match Reg.find addr with
      | some (r, i, false) =>
        if r.info.wide then s.takeReg r i
        else let (v, s) := s.wordRead addr; let (w, s) := s.wordRead (addr + 4); (v + w * 2 ^ 32, s)
      | _ => let (v, s) := s.wordRead addr; let (w, s) := s.wordRead (addr + 4); (v + w * 2 ^ 32, s)
  | none =>
    if !wide then s.wordRead addr
    else match Reg.find addr with
      | some (r, i, false) =>
        if r.info.wide then s.takeReg r i
        else let (v, s) := s.wordRead addr; let (w, s) := s.wordRead (addr + 4); (v + w * 2 ^ 32, s)
      | _ => let (v, s) := s.wordRead addr; let (w, s) := s.wordRead (addr + 4); (v + w * 2 ^ 32, s)

/-- An access of `n` bytes is one of R9: of 32 or 64 bits and naturally aligned. -/
def accessFits (addr n : Nat) : Bool := (n = 4 || n = 8) && addr % n = 0

/-- A read of `n` bytes in BAR0. Of registers the spec gives naturally aligned accesses of 32 and 64 bits alone (R9, R11): what any
other read returns is a free value, but for an isolated domain, which answers every read (R415; DESIGN CHOICE, log entry 13). -/
def busRead (s : Blk) (addr n : Nat) : Nat × Blk :=
  if accessFits addr n || (addrDomain addr).any s.isolated then s.bar0Read addr (n = 8) else s.free (8 * n)

/-! ### The windows of BAR2 (R465) -/

/-- A region descriptor's 32 bytes (R260). -/
def regionBytes (s : Blk) (i : Nat) : List Byte :=
  let r := s.region i
  let b := fun (x : Bool) (n : Nat) => if x then 2 ^ n else 0
  beBytes 1 (b r.valid 7 + r.mode * 16 + b r.dup 3 + b r.rd 2 + b r.wr 1 + b r.at_ 0) ++ beBytes 1 r.gen ++ beBytes 2 r.owner ++
    beBytes 3 (r.eid * 16) ++ beBytes 1 (b (s.sweeps.find i).isSome 7) ++ beBytes 4 r.base ++ beBytes 4 r.blocks ++
    beBytes 1 r.gw ++ beBytes 15 0

/-- A gateway entry's 64 bytes (R277). -/
def gatewayBytes (s : Blk) (g : Nat) : List Byte :=
  let r := s.gateways.get .reset g
  beBytes 1 ((if r.valid then 128 else 0) + (if r.v6 then 64 else 0)) ++ beBytes 1 r.state ++ beBytes 2 r.nh ++ beBytes 4 r.dqpn ++
    beBytes 4 r.sqpn ++ beBytes 4 r.rkey ++ beBytes 8 r.rva ++ beBytes 16 r.dip ++ beBytes 16 r.sip ++ beBytes 1 r.pmtu ++
    beBytes 1 r.retryCnt ++ beBytes 1 r.timeout ++ beBytes 1 r.rnrRetry ++ beBytes 2 r.rate ++ beBytes 2 0

/-- A shard entry's 64 bytes (R288). -/
def shardBytes (s : Blk) (i : Nat) : List Byte :=
  let r := s.shards.get .reset i
  let b := fun (x : Bool) (n : Nat) => if x then 2 ^ n else 0
  beBytes 1 r.state ++ beBytes 1 (b r.mirror 7 + b r.drain 6 + b r.parallel 5 + r.notify * 4) ++ beBytes 2 r.region ++
    beBytes 4 r.offset ++ beBytes 8 r.length ++ beBytes 4 r.ckpt ++ beBytes 3 (r.nEid * 16) ++ beBytes 1 r.sepoch ++
    beBytes 6 r.nOff ++ beBytes 2 r.nTag ++ beBytes 3 (r.pEid * 16) ++ beBytes 1 r.gw ++ beBytes 2 r.pRegion ++
    beBytes 2 r.pTag ++ beBytes 4 r.pOff ++ beBytes 8 r.rOff ++ beBytes 4 r.lines ++ beBytes 1 r.err ++ beBytes 7 0

/-- A group table entry's 32 bytes, die 0's copy (R224, R225). -/
def groupBytes (s : Blk) (g : Nat) : List Byte :=
  let hw := s.groupHw.get ⟨false, 0, 0⟩ g
  let e := beBytes 16 (s.groups.get 0 g)
  let e := if hw.fenced then e.set 0 (e.getD 0 0 ||| 0x20) else e
  e.set 6 (BitVec.ofNat 8 hw.epoch) ++ beBytes 2 hw.open_ ++ beBytes 14 0

/-- The byte at an offset of the forwarding tables' windows (R88). -/
def tableByte (s : Blk) (addr : Nat) : Byte :=
  match (List.range 9).find? fun t => tableBase t ≤ addr && addr < tableBase t + tableSize t * entryBytes t with
  | none => 0
  | some t =>
    let off := addr - tableBase t
    (beBytes (entryBytes t) (s.tableEntry 0 t (off / entryBytes t))).getD (off % entryBytes t) 0

/-- The byte at an offset of a window of entries of `n` bytes. -/
def entryByte (n off : Nat) (f : Nat → List Byte) : Byte := (f (off / n)).getD (off % n) 0

/-- The byte at a BAR2 offset below the counter views; what no window covers reads as 0. -/
def windowByte (s : Blk) (addr : Nat) : Byte :=
  if addr < 0x1480000 then s.tableByte addr
  else if addr < 0x2000000 then 0
  else if addr < 0x2020000 then entryByte 32 (addr - 0x2000000) s.groupBytes
  else if addr < 0x20A0000 then entryByte 8 (addr - 0x2020000) fun i => beBytes 8 (s.members.get 0 i)
  else if addr < 0x3000000 then 0
  else if addr < 0x3200000 then entryByte 32 (addr - 0x3000000) s.regionBytes
  else if addr < 0x3204000 then entryByte 64 (addr - 0x3200000) s.gatewayBytes
  else if addr < 0x3300000 then 0
  else if addr < 0x3400000 then entryByte 64 (addr - 0x3300000) s.shardBytes
  else if addr < 0x3408000 then entryByte 8 (addr - 0x3400000) fun r => beBytes 8 (ringEntry (s.foi.get .reset r))
  else if addr < 0x3410000 then 0
  else if addr < 0x3418000 then entryByte 8 (addr - 0x3410000) fun r => beBytes 8 (dirEntry r (s.foi.get .reset r))
  else 0

/-- A read in the user view of what JSP_UPERM does not open, or of no counter (R362). -/
def viewDenied (s : Blk) (addr : Nat) : Bool := 0x28000000 ≤ addr && !s.userMay (addr % 2 ^ 26)

/-- A live read in the user view of a counter that sits behind an isolation wrapper: its domain (R415). -/
def viewIso (s : Blk) (addr : Nat) : Option Nat :=
  if 0x28000000 ≤ addr && addr < 0x2C000000 then s.userIso (addr % 2 ^ 26) else none

/-- 64 bits of a counter view that may be read, at an offset of the map of BAR0 (R362): the view of the shadows, or the user view.
What lies between them reads as 0. -/
def viewValue (s : Blk) (addr : Nat) : Nat :=
  if 0x28000000 ≤ addr then s.userValue (0x2C000000 ≤ addr) (addr % 2 ^ 26)
  else if addr < 0x24000000 then s.shadowAt (addr - 0x20000000)
  else 0

/-- An address of the map of BAR0 is that of a high word: of a 64-bit register or of a chained pair. -/
def highAt (s : Blk) (a : Nat) : Bool :=
  match Reg.find a with
  | some (r, i, up) => up || s.chainHigh r i
  | none => false

/-- It is that of a low word. -/
def lowAt (s : Blk) (a : Nat) : Bool :=
  match Reg.find a with
  | some (r, i, up) => !up && (r.info.wide || s.chainLow r i)
  | none => false

/-- A 32-bit word of a counter view that may be read (R11, R362): the high word of a 64-bit counter or of a chained pair is latched
by a read of its low word. -/
def viewWord (s : Blk) (addr : Nat) : Nat × Blk :=
  if s.highAt (addr % 2 ^ 26) then
    match s.hiLatch.find (addr - 4) with
    | some v => (v, { s with hiLatch := s.hiLatch.del (addr - 4) })
    | none => (s.viewValue (addr - 4) / 2 ^ 32, s)
  else
    (s.viewValue addr % 2 ^ 32,
      if s.lowAt (addr % 2 ^ 26) then { s with hiLatch := s.hiLatch.put addr (s.viewValue addr / 2 ^ 32) } else s)

/-- A read of 32 or 64 bits in the counter views (R362, R415). Every read in the user view is judged for itself, one that a latched
high word would answer too. -/
def viewRead (s : Blk) (addr : Nat) (wide : Bool) : Nat × Blk :=
  let low := if !wide && s.highAt (addr % 2 ^ 26) then addr - 4 else addr
  if s.viewDenied low then (0, s.count .JSP_UREAD_DENIED_count 0 1)
  else match s.viewIso low with
    | some k => (isoValue k wide, s.isoAccess 1 addr)
    | none => if wide then (s.viewValue addr, s) else s.viewWord addr

/-- `n` bytes of what an isolated read returns, 0xDEAD_0000 plus the domain's index in every word (R415). -/
def isoBytes (k n : Nat) : Nat := leNat ((List.range n).map fun j => (leBytes 4 (isoValue k false)).getD (j % 4) 0)

/-- A read of `n` bytes in BAR2 (R465): of any size in the table windows, in address order (R88), and of 32 or 64 bits in the
counter views; the staging window reads as 0 (R401). -/
def bar2Read (s : Blk) (addr n : Nat) : Nat × Blk :=
  if addr < 0x20000000 then
    let read := fun (s : Blk) => leNat ((List.range n).map fun k => s.windowByte (addr + k))
    match windowDomain addr with
    | some k => if s.isolated k then (isoBytes k n, s.isoAccess 1 addr) else (read s, s)
    | none => (read s, s)
  else if addr < 0x30000000 then (if accessFits addr n then s.viewRead addr (n = 8) else s.free (8 * n))
  else (0, s)

/-- A write in BAR2: only the staging window takes it, in address order (R401, R465). -/
def bar2Write (s : Blk) (addr : Nat) (bytes : List Byte) : Blk :=
  if 0x30000000 ≤ addr ∧ addr < 0x30010000 then
    { s with window := (bytes.zipIdx.foldl (fun (w : Tab Byte) (bi : Byte × Nat) =>
        if addr - 0x30000000 + bi.2 < 65536 then w.set 0 (addr - 0x30000000 + bi.2) bi.1 else w) s.window) }
  else match windowDomain addr with
    | some n => if s.isolated n then s.isoAccess 1 addr else s
    | none => s

/-! ### Writes -/

/-- What a write leaves in a field by its access code (R12): `v` the bits written. -/
def putField (s : Blk) (f : Fld) (i v : Nat) : Blk :=
  match f.accessAt i with
  | .rw => s.setFld f i v
  | .w1c => s.setFld f i (s.fld f i &&& ((2 ^ f.info.width - 1) ^^^ (v % 2 ^ f.info.width)))
  | .w1s => s.setFld f i (s.fld f i ||| v)
  | _ => s

/-- Write every field of a register by its access code. -/
def putReg (s : Blk) (r : Reg) (i v : Nat) : Blk :=
  r.info.fields.foldl (fun s f => s.putField f i (v / 2 ^ f.info.lo)) s

/-- The value written to a field. -/
def part (f : Fld) (v : Nat) : Nat := v / 2 ^ f.info.lo % 2 ^ f.info.width

/-- Every armed vector with something pending sends its message (R487). -/
def recheckVectors (s : Blk) : Blk :=
  (List.range 64).foldl (fun s v => if s.bit .MGT_IRQ_ARMED_armed 0 v && s.vectorPending v then s.fireVector v else s) s

/-- Sources that a write has made pending and routed to the management cores interrupt them (R487). -/
def recheckMgmt (old s : Blk) : Blk :=
  (List.range 153).foldl (fun s src =>
    let due := fun (b : Blk) => b.flag .MGT_IRQ_ROUTE_mgmt_en src && b.sourcePending src
    if due s && !due old then s.emit (.mgmtIrq src) else s) s

/-- BSL_POOL_TCn is written: refused where the guarantees would exceed the usable cells (R131). -/
def poolWrite (s : Blk) (i v : Nat) : Blk :=
  let d := i / 8
  let g := ((List.range 8).map fun c => if c = i % 8 then part .BSL_POOL_TC_min_cells v else s.guaranteed d c).sum
  if s.usable d < g then s.raise .BSL_INT_cfg_reject d else s.putReg .BSL_POOL_TC i v

/-- TIL_LNK_CTL is written (R44, R66, R67, R76). -/
def linkCtlWrite (s : Blk) (l v : Nat) : Blk :=
  let was := s.flag .TIL_LNK_CTL_lnk_en l
  let kaWas := s.flag .TIL_LNK_CTL_ka_req l
  let ka := v.testBit 9
  let s := (s.setFld .TIL_LNK_CTL_ka_accept l (part .TIL_LNK_CTL_ka_accept v)).setFld .TIL_LNK_CTL_link_mode l
    (part .TIL_LNK_CTL_link_mode v)
  let s := match was, v.testBit 0 with
    | false, true => s.linkEnable l
    | _, false => s.linkDisable l
    | _, _ => s
  let s := if v.testBit 8 && (s.isIn l .up || s.isIn l .resync) then s.toRetrain l else s
  if !ka then (s.setFld .TIL_LNK_CTL_ka_req l 0).wakeLink l
  else if kaWas then s
  else (s.setFld .TIL_LNK_CTL_ka_req l 1).askKeepalive l

/-- D2D_LNK_CTL of end `i` is written (R153, R158). -/
def agateCtlWrite (s : Blk) (i v : Nat) : Blk :=
  let was := s.flag .D2D_LNK_CTL_en i
  let s := s.setFld .D2D_LNK_CTL_auto_retrain i (part .D2D_LNK_CTL_auto_retrain v)
  let en := part .D2D_LNK_CTL_en v ≠ 0
  let s := if en then s.agEnSet (i / 2) (i % 2) else if was && !en then s.agEnClear (i / 2) (i % 2) else s
  if part .D2D_LNK_CTL_retrain v ≠ 0 then s.agRetrain (i / 2) else s

/-- A gate register of bank `b` of link `l` is written (R175). -/
def gateWrite (s : Blk) (r : Reg) (l b i v : Nat) : Blk :=
  if s.gateLocked l b then s.raise .FLD_INT_cfg_reject (tileOf l)
  else if b = s.gateBank l then s.moveGates [l] fun s => s.putReg r i v
  else s.putReg r i v

/-- QTZ_CTL is written (R350, R359). -/
def quartzCtlWrite (s : Blk) (v : Nat) : Blk :=
  let s := if v.testBit 28 && !s.flag .QTZ_CTL_pps_out_en 0 then { s with ppsFrom := max s.ppsFrom s.quartzNs } else s
  let s := s.putReg .QTZ_CTL 0 v
  let s := if !v.testBit 28 then s.ppsLevel false else s
  let s := if v.testBit 29 then s.invalidate else s
  if v.testBit 31 then s.stepCommit else s

/-- I2C_CTL is written (R490, R502). SDA's level after a reset, and how a clear ends, are free values here: I2C_RESET and
I2C_CLEAR carry them. -/
def i2cCtlWrite (s : Blk) (c v : Nat) : Blk :=
  let (low, s) := s.free 1
  let (e, s) := s.freeClear
  let s := if v.testBit 30 then doI2cReset c (low = 1) e s else s.putReg .I2C_CTL c v
  if v.testBit 29 && !v.testBit 30 then s.i2cClear c e else s

/-- DMA_RING_BASE, DMA_RING_WB and DMA_CQ_BASE accept writes only while en = 0 (R468, R479). -/
def ringPlace (s : Blk) (en : Fld) (r : Reg) (i v : Nat) : Blk := if s.flag en i then s else s.putReg r i v

/-- A register is written whole: `v` is its new value, on the given path. -/
def regWrite (s : Blk) (path : Path) (r : Reg) (i v : Nat) : Blk :=
  if s.missing r i then s else
  match r with
  | .TIL_PORT_MODE => s.portModeWrite i v
  | .TIL_LNK_CTL => s.linkCtlWrite i v
  | .DMA_TBL_LOCK => if v.testBit 31 then s.lockTake i path else s.lockRelease i path
  | .BSL_CNT_SNAP => if part .BSL_CNT_SNAP_snap v ≠ 0 then s.countSnap i else s
  | .BSL_POOL_TC => s.poolWrite i v
  | .GPIO_OUT => Blk.padEdges s (s.putReg r i v)
  | .GPIO_OE => Blk.padEdges s (s.putReg r i v)
  | .D2D_LNK_CTL => s.agateCtlWrite i v
  | .FLD_SUB_CFG => s.subCfgWrite i (part .FLD_SUB_CFG_rate v) (part .FLD_SUB_CFG_burst v) (part .FLD_SUB_CFG_weight v)
  | .FLD_CBS_CFG => s.cbsCfgWrite (i / 8) (i % 8) (part .FLD_CBS_CFG_idle_slope v) (part .FLD_CBS_CFG_hi_limit v)
  | .FLD_CLS_CFG => s.clsCfgWrite (i / 8) (i % 8) (v.testBit 31) (v.testBit 30) (part .FLD_CLS_CFG_weight v)
  | .FLD_GATE_CTL => s.gateCtlWrite i (v.testBit 31) (part .FLD_GATE_CTL_len1 v) (part .FLD_GATE_CTL_len0 v) (v.testBit 0)
  | .FLD_TC7_MON => s.tc7MonWrite i (part .FLD_TC7_MON_rate v) (part .FLD_TC7_MON_burst v)
  | .FLD_GATE_BASE_S => s.gateWrite r (i / 2) (i % 2) i v
  | .FLD_GATE_BASE_NS => s.gateWrite r (i / 2) (i % 2) i v
  | .FLD_GATE_CYCLE_NS => s.gateWrite r (i / 2) (i % 2) i v
  | .FLD_GATE_ENT => s.gateWrite r (i / 128) (i / 64 % 2) i v
  | .FLD_PORT_SPLIT => s.portSplitWrite i v
  | .GRN_IST_CTL => if v.testBit 31 = s.flag .GRN_IST_CTL_en 0 then s.putReg r i v else (s.putReg r i v).istEnable
  | .GRN_CTL =>
    let s := if part .GRN_CTL_quarantine v ≠ 0 then s.quarantine i else s
    if part .GRN_CTL_release v ≠ 0 then s.unquarantine i else s
  | .GNS_CMD => s.gnsCmdWrite (part .GNS_CMD_op v) (part .GNS_CMD_index v)
  | .GNS_PART => s.partWrite (bits v 9 0) (bits v 19 10)
  | .SHL_STR_CTL =>
    if part .SHL_STR_CTL_en v ≠ 0 then s.streamEnable i (part .SHL_STR_CTL_region v)
    else s.streamDisable i (part .SHL_STR_CTL_region v)
  | .SHL_GRP_MAP => s.groupMapWrite i v
  | .MICA_OE_CTL => if v.testBit 1 then (s.putReg r i v).oeSweep i else s.putReg r i v
  | .MICA_ELS_CTL => s.elsWrite i (part .MICA_ELS_CTL_en v ≠ 0)
  | .FOI_CTL =>
    let was := s.flag .FOI_CTL_en 0
    let en := part .FOI_CTL_en v ≠ 0
    let s := s.setFld .FOI_CTL_block_rogue 0 (part .FOI_CTL_block_rogue v)
    if en && !was then s.foiEnable else if was && !en then s.foiDisable else s
  | .FOI_CMD => s.foiCmdWrite (part .FOI_CMD_op v) (part .FOI_CMD_index v)
  | .QTZ_CTL => s.quartzCtlWrite v
  | .QTZ_RATE => s.rateWrite v
  | .QTZ_SNAP => if v.testBit 0 then s.qtzSnap else s
  | .QTZ_TXTS_POP => if v.testBit 0 then s.txtsPop i else s
  | .JSP_SNAP_CTL =>
    if part .JSP_SNAP_CTL_go v ≠ 0 then
      s.snapGo (part .JSP_SNAP_CTL_at_time v ≠ 0) (part .JSP_SNAP_CTL_groups v)
    else s.putReg r i v
  | .JSP_CMAP_CTL => { s.putReg r i v with cmapFrom := max s.cmapFrom s.quartzNs }
  | .JSP_TRC_SEED => { s.putReg r i v with trcLfsr := [] }
  | .DMA_RING_BASE => s.ringPlace .DMA_RING_CFG_en r i v
  | .DMA_RING_WB => s.ringPlace .DMA_RING_CFG_en r i v
  | .DMA_RING_CFG => s.ringEnable i v
  | .DMA_RING_CTL => if v.testBit 0 then s.ringReset i else s
  | .DMA_CQ_BASE => s.ringPlace .DMA_CQ_CFG_en r i v
  | .DMA_CQ_CFG => s.cqEnable i v
  | .DMA_CQ_CTL => if v.testBit 0 then s.cqReset i else s
  | .MGT_MBX_D2H_ACK => doD2hAck v s
  | .MGT_IRQ_ARM => s.irqArm (part .MGT_IRQ_ARM_vector v)
  | .MGT_IRQ_ROUTE => (recheckMgmt s (s.putReg r i v)).recheckVectors
  | .GPIO_FUNC => s.gpioFunc i (part .GPIO_FUNC_func v)
  | .I2C_CTL => s.i2cCtlWrite i v
  | .I2C_CMD => s.i2cStart i v
  | .I2C_DATA => s.i2cPush i (BitVec.ofNat 8 v)
  | _ => if isEnable r then (recheckMgmt s (s.putReg r i v)).recheckVectors else s.putReg r i v

/-- The low word that a write of the high word alone leaves (R11): 0 where writing it back would clear bits. -/
def lowKept (s : Blk) (r : Reg) (i : Nat) : Nat :=
  if r.info.fields.any fun f => f.info.access == .w1c then 0 else s.regRaw r i % 2 ^ 32

/-- A 32-bit write in BAR0 of a domain that answers, `put` writing a register whole: the low word of a 64-bit register is
held, and a write of its high word commits both (R11). -/
def wordWrite (s : Blk) (put : Blk → Reg → Nat → Nat → Blk) (addr v : Nat) : Blk :=
  match Reg.find addr with
  | none => s
  | some (r, i, false) => if r.info.wide then { s with loHeld := s.loHeld.put addr v } else put s r i v
  | some (r, i, true) =>
    let lo := (s.loHeld.find (addr - 4)).getD (s.lowKept r i)
    put { s with loHeld := s.loHeld.del (addr - 4) } r i (v * 2 ^ 32 + lo)

/-- A write in BAR0 (R11, R14, R415), `put` writing a register whole. -/
def bar0Write (s : Blk) (put : Blk → Reg → Nat → Nat → Blk) (addr v : Nat) (wide : Bool) : Blk :=
  let go := fun (s : Blk) =>
    if !wide then s.wordWrite put addr (v % 2 ^ 32)
    else match Reg.find addr with
      | some (r, i, false) =>
        if r.info.wide then put { s with loHeld := s.loHeld.del addr } r i v
        else (s.wordWrite put addr (v % 2 ^ 32)).wordWrite put (addr + 4) (v / 2 ^ 32)
      | _ => (s.wordWrite put addr (v % 2 ^ 32)).wordWrite put (addr + 4) (v / 2 ^ 32)
  match addrDomain addr with
  | some n => if s.isolated n then s.isoAccess 0 addr else go s
  | none => go s

end Blk

/-- An access that a read answers: its value is sent out. -/
def readOut (f : Blk → Nat × Blk) (s : Blk) : Blk := let (v, s) := f s; s.emit (.data v)

/-- CQ_STATUS_READ (R283). -/
def execCqStatusRead (die : DieId) (s : State) : Host.Outcome State Fault Refusal :=
  run (readOut fun b => b.bar0Read (Reg.GNS_CQ_STATUS.addrOf die.val) false) s
/-- MARGIN_READ (R372). -/
def execMarginRead (monitor : MonitorId) (s : State) : Host.Outcome State Fault Refusal :=
  run (readOut fun b => b.bar0Read (Reg.JSP_MRG_RD.addrOf monitor.val) false) s
/-- LOW_WORD_READ (R11). -/
def execLowWordRead (address : BitVec 26) (s : State) : Host.Outcome State Fault Refusal :=
  run (readOut fun b => b.busRead address.toNat 4) s

end Sys2Proof.Machine
end

