-- ==== Sys2Proof/Machine/Crypto.lean ====
section
/-!
DEFINITION. SHA-384 and ECDSA over the curve P-384, by which containers, records and signed requests are checked (R376 to
R378, R385, R439). The spec names them and does not define them: taken from FIPS 180-4 and FIPS 186-5 (PRESUMED, log entry 88).
-/

namespace Sys2Proof.Machine

/-! ### SHA-384 -/

/-- A word of 64 bits, by its value. -/
def w64 (n : Nat) : Nat := n % 0x10000000000000000

/-- Rotate a 64-bit word right. -/
def rotr (x k : Nat) : Nat := (x >>> k) ||| w64 (x <<< (64 - k))

/-- The round constants of SHA-384, part 0. -/
def shaK0 : List Nat :=
  [0x428A2F98D728AE22, 0x7137449123EF65CD, 0xB5C0FBCFEC4D3B2F, 0xE9B5DBA58189DBBC,
   0x3956C25BF348B538, 0x59F111F1B605D019, 0x923F82A4AF194F9B, 0xAB1C5ED5DA6D8118,
   0xD807AA98A3030242, 0x12835B0145706FBE, 0x243185BE4EE4B28C, 0x550C7DC3D5FFB4E2,
   0x72BE5D74F27B896F, 0x80DEB1FE3B1696B1, 0x9BDC06A725C71235, 0xC19BF174CF692694,
   0xE49B69C19EF14AD2, 0xEFBE4786384F25E3, 0x0FC19DC68B8CD5B5, 0x240CA1CC77AC9C65]

/-- The round constants of SHA-384, part 1. -/
def shaK1 : List Nat :=
  [0x2DE92C6F592B0275, 0x4A7484AA6EA6E483, 0x5CB0A9DCBD41FBD4, 0x76F988DA831153B5,
   0x983E5152EE66DFAB, 0xA831C66D2DB43210, 0xB00327C898FB213F, 0xBF597FC7BEEF0EE4,
   0xC6E00BF33DA88FC2, 0xD5A79147930AA725, 0x06CA6351E003826F, 0x142929670A0E6E70,
   0x27B70A8546D22FFC, 0x2E1B21385C26C926, 0x4D2C6DFC5AC42AED, 0x53380D139D95B3DF,
   0x650A73548BAF63DE, 0x766A0ABB3C77B2A8, 0x81C2C92E47EDAEE6, 0x92722C851482353B]

/-- The round constants of SHA-384, part 2. -/
def shaK2 : List Nat :=
  [0xA2BFE8A14CF10364, 0xA81A664BBC423001, 0xC24B8B70D0F89791, 0xC76C51A30654BE30,
   0xD192E819D6EF5218, 0xD69906245565A910, 0xF40E35855771202A, 0x106AA07032BBD1B8,
   0x19A4C116B8D2D0C8, 0x1E376C085141AB53, 0x2748774CDF8EEB99, 0x34B0BCB5E19B48A8,
   0x391C0CB3C5C95A63, 0x4ED8AA4AE3418ACB, 0x5B9CCA4F7763E373, 0x682E6FF3D6B2B8A3,
   0x748F82EE5DEFB2FC, 0x78A5636F43172F60, 0x84C87814A1F0AB72, 0x8CC702081A6439EC]

/-- The round constants of SHA-384, part 3. -/
def shaK3 : List Nat :=
  [0x90BEFFFA23631E28, 0xA4506CEBDE82BDE9, 0xBEF9A3F7B2C67915, 0xC67178F2E372532B,
   0xCA273ECEEA26619C, 0xD186B8C721C0C207, 0xEADA7DD6CDE0EB1E, 0xF57D4F7FEE6ED178,
   0x06F067AA72176FBA, 0x0A637DC5A2C898A6, 0x113F9804BEF90DAE, 0x1B710B35131C471B,
   0x28DB77F523047D84, 0x32CAAB7B40C72493, 0x3C9EBE0A15C9BEBC, 0x431D67C49C100D4C,
   0x4CC5D4BECB3E42B6, 0x597F299CFC657E2A, 0x5FCB6FAB3AD6FAEC, 0x6C44198C4A475817]

/-- The round constants of SHA-384. -/
def shaK : List Nat := shaK0 ++ shaK1 ++ shaK2 ++ shaK3

/-- The initial hash value of SHA-384. -/
def shaInit : List Nat :=
  [0xCBBB9D5DC1059ED8, 0x629A292A367CD507, 0x9159015A3070DD17, 0x152FECD8F70E5939,
   0x67332667FFC00B31, 0x8EB44A8768581511, 0xDB0C2E0D64F98FA7, 0x47B5481DBEFA4FA4]

/-- The padded message. -/
def shaPad (bs : List Byte) : List Byte :=
  bs ++ (0x80 : Byte) :: (List.replicate ((239 - bs.length % 128) % 128) (0 : Byte) ++ beBytes 16 (8 * bs.length))

/-- The next word of the message schedule from the last sixteen, oldest first. -/
def shaNext (w : List Nat) : Nat :=
  let s0 := fun x => rotr x 1 ^^^ rotr x 8 ^^^ (x >>> 7)
  let s1 := fun x => rotr x 19 ^^^ rotr x 61 ^^^ (x >>> 6)
  w64 (s1 (w.getD 14 0) + w.getD 9 0 + s0 (w.getD 1 0) + w.getD 0 0)

/-- One round: the eight working variables and the schedule window. -/
def shaRound (r : List Nat × List Nat) (k : Nat) : List Nat × List Nat :=
  match r with
  | ([a, b, c, d, e, f, g, h], w) =>
    let ch := (e &&& f) ^^^ ((0xFFFFFFFFFFFFFFFF - e) &&& g)
    let t1 := h + (rotr e 14 ^^^ rotr e 18 ^^^ rotr e 41) + ch + k + w.getD 0 0
    let maj := (a &&& b) ^^^ (a &&& c) ^^^ (b &&& c)
    let t2 := (rotr a 28 ^^^ rotr a 34 ^^^ rotr a 39) + maj
    ([w64 (t1 + t2), a, b, c, w64 (d + t1), e, f, g], w.drop 1 ++ [shaNext w])
  | _ => r

/-- One block of 128 bytes. -/
def shaBlock (h : List Nat) (block : List Byte) : List Nat :=
  let w := (List.range 16).map fun i => beNat ((block.drop (8 * i)).take 8)
  let r := shaK.foldl shaRound (h, w)
  (List.range 8).map fun i => w64 (h.getD i 0 + r.1.getD i 0)

/-- The hash value after `n` more blocks. -/
def shaBlocks : Nat → List Nat → List Byte → List Nat
  | 0, h, _ => h
  | n + 1, h, bs => shaBlocks n (shaBlock h (bs.take 128)) (bs.drop 128)

/-- SHA-384 as a number of 384 bits. -/
def sha384 (bs : List Byte) : Nat :=
  let p := shaPad bs
  ((shaBlocks (p.length / 128) shaInit p).take 6).foldl (fun n w => n * 2 ^ 64 + w) 0

/-! ### ECDSA over P-384 -/

/-- The prime of the field. -/
def p384 : Nat := 2 ^ 384 - 2 ^ 128 - 2 ^ 96 + 2 ^ 32 - 1

/-- The order of the base point. -/
def n384 : Nat :=
  0xFFFFFFFFFFFFFFFFFFFFFFFFFFFFFFFFFFFFFFFFFFFFFFFFC7634D81F4372DDF581A0DB248B0A77AECEC196ACCC52973

/-- The coefficient b of the curve. -/
def b384 : Nat :=
  0xB3312FA7E23EE7E4988E056BE3F82D19181D9C6EFE8141120314088F5013875AC656398D8A2ED19D2A85C8EDD3EC2AEF

/-- The base point. -/
def g384 : Nat × Nat :=
  (0xAA87CA22BE8B05378EB1C71EF320AD746E1D3B628BA79B9859F741E082542A385502F25DBF55296C3A545E3872760AB7,
   0x3617DE4A96262C6F5D9E98BF9292DC29F8F41DBD289A147CE9DA3113B5F0B8C00A60B1CE1D7E819D7A431D7C90EA0E5F)

/-- The bits of a 384-bit number, most significant first. -/
def bits384 (k : Nat) : List Bool := (List.range 384).map fun i => k.testBit (383 - i)

/-- A power modulo `m`. -/
def powMod (m a k : Nat) : Nat := (bits384 k).foldl (fun r b => if b then r * r % m * a % m else r * r % m) 1

/-- The inverse modulo a prime. -/
def invMod (m a : Nat) : Nat := powMod m (a % m) (m - 2)

/-- The sum of two points of the curve; none is the point at infinity. -/
def ecAdd : Option (Nat × Nat) → Option (Nat × Nat) → Option (Nat × Nat)
  | none, q => q
  | p, none => p
  | some (x1, y1), some (x2, y2) =>
    if x1 = x2 ∧ (y1 + y2) % p384 = 0 then none
    else
      let l := if x1 = x2 then (3 * x1 * x1 + (p384 - 3)) * invMod p384 (2 * y1) % p384
        else (y2 + p384 - y1) * invMod p384 (x2 + p384 - x1) % p384
      let x := (l * l + 2 * p384 - x1 - x2) % p384
      some (x, (l * (x1 + p384 - x) + (p384 - y1)) % p384)

/-- A multiple of a point. -/
def ecMul (k : Nat) (p : Nat × Nat) : Option (Nat × Nat) :=
  (bits384 k).foldl (fun r b => let r := ecAdd r r; if b then ecAdd r (some p) else r) none

/-- A public key lies on the curve. -/
def onCurve (p : Nat × Nat) : Bool :=
  p.1 < p384 && p.2 < p384 && p.2 * p.2 % p384 = (p.1 * p.1 * p.1 + (p384 - 3) * p.1 + b384) % p384

/-- An ECDSA P-384 signature over a SHA-384 digest verifies under a public key. -/
def ecdsaOk (key : Nat × Nat) (digest r s : Nat) : Bool :=
  if onCurve key && 0 < r && r < n384 && 0 < s && s < n384 then
    let w := invMod n384 s
    match ecAdd (ecMul (digest * w % n384) g384) (ecMul (r * w % n384) key) with
    | some (x, _) => x % n384 = r
    | none => false
  else false

/-- A scalar from 1 to the order less 1. -/
def scalar384 (v : Nat) : Nat := v % (n384 - 1) + 1

/-- The public key of a private key. -/
def publicKey (d : Nat) : Nat × Nat := (ecMul (scalar384 d) g384).getD (0, 0)

/-- The ECDSA P-384 signature, r and s, of a digest by a private key with the per-signature secret `k`. -/
def ecdsaSign (d k digest : Nat) : Nat × Nat :=
  let r := ((ecMul (scalar384 k) g384).getD (0, 0)).1 % n384
  (r, invMod n384 (scalar384 k) * (digest + r * scalar384 d) % n384)

end Sys2Proof.Machine
end

