-- ==== Sys2Proof/Machine/Bundles.lean ====
section
/-!
DEFINITION. Containers and bundles (R375 to R379), what verification checks (R378, R380), interface epochs (R381 to R383),
the flash and the activation record (R384 to R387).
-/

namespace Sys2Proof.Machine

/-- Where bytes are read from: a slot of the flash, the RAM stage, or a container inside one. -/
abbrev Reader := Nat → Byte

/-- `n` bytes at an offset. -/
def rdList (rd : Reader) (off n : Nat) : List Byte := (List.range n).map fun i => rd (off + i)

/-- A big-endian number of `n` bytes at an offset. -/
def rdNat (rd : Reader) (off n : Nat) : Nat := beNat (rdList rd off n)

/-- A container inside another. -/
def rdAt (rd : Reader) (off : Nat) : Reader := fun i => rd (off + i)

/-- A section table entry (R377). -/
structure Section where
  type : Nat
  target : Nat
  offset : Nat
  size : Nat
  digest : Nat
  deriving DecidableEq, Repr

/-- Section `i` of a container (R377). -/
def sectionAt (rd : Reader) (i : Nat) : Section :=
  let o := 128 + 64 * i
  ⟨rdNat rd o 1, rdNat rd (o + 1) 1, rdNat rd (o + 8) 4, rdNat rd (o + 12) 4, rdNat rd (o + 16) 48⟩

/-- The kind of a container (R375, R376). -/
def kindOf (rd : Reader) : Nat := rdNat rd 5 1

/-- The length of a container (R376). -/
def lengthOf (rd : Reader) : Nat := rdNat rd 8 4

/-- The sections of a container. -/
def sectionsOf (rd : Reader) : List Section := (List.range (min 64 (rdNat rd 6 2))).map (sectionAt rd)

/-- A section's bytes. -/
def sectionBytes (rd : Reader) (x : Section) : List Byte := rdList rd x.offset x.size

/-- The first section of a type and target. -/
def findSection (rd : Reader) (type target : Nat) : Option Section :=
  (sectionsOf rd).find? fun x => x.type = type && x.target = target

/-- The epochs that a container states for its interface with component `j`, lo and hi (R376, R381). -/
def rangeOf (rd : Reader) (j : Nat) : Nat × Nat := (rdNat rd (28 + 4 * j) 2, rdNat rd (30 + 4 * j) 2)

/-- The component of a container's kind (R375). -/
def componentOf (kind : Nat) : Nat := kind - 1

/-- A section may stand in a container of a kind, with its target (R377, R379). -/
def sectionFits (kind : Nat) (x : Section) : Bool :=
  match kind with
  | 0x01 => (x.type = 0x20 || x.type = 0x21) && x.target = 0xFF
  | 0x02 => x.type = 0x30 && (x.target < 8 || x.target = 0xFF)
  | 0x03 => ((x.type = 0x01 || x.type = 0x02 || x.type = 0x04) && x.target = 0xFF) || (x.type = 0x03 && x.target < 32)
  | 0x10 => x.type = 0x10 && x.target = 0xFF
  | _ => false

/-- How many sections of a type a container holds. -/
def countType (xs : List Section) (type : Nat) : Nat := (xs.filter fun x => x.type = type).length

/-- A container of a kind holds the sections that it must (R379). -/
def sectionsComplete (kind : Nat) (xs : List Section) : Bool :=
  match kind with
  | 0x01 => 1 ≤ countType xs 0x20
  | 0x02 => 1 ≤ countType xs 0x30
  | 0x03 => countType xs 0x01 = 1 && countType xs 0x02 = 1 && countType xs 0x04 ≤ 1 &&
      (List.range 32).all fun t => (xs.filter fun x => x.type = 0x03 && x.target = t).length = 1
  | _ => countType xs 0x10 = 3

/-- No two sections overlap. -/
def disjoint : List Section → Bool
  | [] => true
  | x :: xs => (xs.all fun y => x.offset + x.size ≤ y.offset || y.offset + y.size ≤ x.offset) && disjoint xs

/-- The tile window that a BAR0 address lies in (R10). -/
def tileWindow (addr : Nat) : Option Nat := if 0x2000000 ≤ addr ∧ addr < 0x4000000 then some ((addr - 0x2000000) / 0x100000) else none

/-- The register writes of a section's bytes: a section of no bytes holds none (DEDUCED, log entry 90), of others they are the compiler's own (R380). -/
def sectionWrites (b : List Byte) : List (Nat × Nat) := if b = [] then [] else Config.sectionWrites b

/-- What the device checks of a Plaper image's register writes (R380): TILE sections write only in their tile's window, and
GLOBAL writes a per-tile register with one value on every tile. -/
def plaperWritesOk (rd : Reader) (xs : List Section) : Bool :=
  xs.all fun x =>
    let ws := sectionWrites (sectionBytes rd x)
    if x.type = 0x03 then ws.all fun w => tileWindow w.1 = some x.target
    else if x.type = 0x01 then ws.all fun w =>
      match tileWindow w.1 with
      | none => true
      | some t => (List.range 32).all fun u => ws.contains (w.1 + u * 0x100000 - t * 0x100000, w.2)
    else true

/-- The shared digest of a Plaper image (R380). -/
def sharedDigest (rd : Reader) : Nat :=
  match findSection rd 0x01 0xFF, findSection rd 0x02 0xFF with
  | some g, some l => sha384 (sectionBytes rd g ++ sectionBytes rd l)
  | _, _ => 0

/-- Check 1 of R378: the header and the section table are well formed (R376, R377, R379, R380, R381). `room` is what the
container may fill. -/
def wellFormed (rd : Reader) (room : Nat) : Bool :=
  let kind := kindOf rd
  let n := rdNat rd 6 2
  let len := lengthOf rd
  let xs := sectionsOf rd
  rdNat rd 0 4 = 0x5758494D && rdNat rd 4 1 = 1 && (kind = 1 || kind = 2 || kind = 3 || kind = 0x10) &&
    1 ≤ n && n ≤ 64 && len ≤ 50331648 && len ≤ room && 128 + 64 * n + 256 ≤ len &&
    (rdNat rd 44 1 ≤ 3 || rdNat rd 44 1 = 0xFF) && rdNat rd 45 1 ≤ 1 &&
    (xs.all fun x => sectionFits kind x && x.offset % 256 = 0 && 128 + 64 * n ≤ x.offset && x.offset + x.size ≤ len - 256) &&
    disjoint xs && sectionsComplete kind xs &&
    (kind = 0x10 || (List.range 4).all fun j => j = componentOf kind || (rangeOf rd j).1 ≤ (rangeOf rd j).2) &&
    rdNat rd 48 48 = (if kind = 3 then sharedDigest rd else 0) && (kind ≠ 3 || plaperWritesOk rd xs)

/-- Checks 1 to 5 of R378 on one container: the result code of R396 of the first that fails, 0 if none does. -/
def containerCheck (fz : Fuses) (rd : Reader) (room : Nat) : Nat :=
  let len := lengthOf rd
  let key := rdNat rd 44 1
  let blk := len - 256
  let open_ := fz.lc ≤ 1 && rdNat rd 45 1 = 0
  if !wellFormed rd room then 5
  else if !((sectionsOf rd).all fun x => sha384 (sectionBytes rd x) = x.digest) then 5
  else if !open_ && (rdNat rd 45 1 = 0 || 3 < key || fz.revoked.testBit key ||
      fz.keys.find key ≠ some (sha384 (rdList rd blk 97)) || rdNat rd blk 1 ≠ 4) then 7
  else if !open_ && !ecdsaOk (rdNat rd (blk + 1) 48, rdNat rd (blk + 49) 48) (sha384 (rdList rd 0 (len - 256)))
      (rdNat rd (blk + 104) 48) (rdNat rd (blk + 152) 48) then 6
  else if kindOf rd ≠ 0x10 && rdNat rd 20 4 < fz.svn.getD (componentOf (kindOf rd)) 0 then 8
  else 0

/-- The offset of a bundle's container of a component (R375). -/
def componentOffset (rd : Reader) (c : Nat) : Option Nat :=
  ((sectionsOf rd).find? fun x => x.type = 0x10 && rdNat rd (x.offset + 5) 1 = c + 1).map fun x => x.offset

/-- A component's container in a bundle. -/
def componentIn (rd : Reader) (c : Nat) : Reader := rdAt rd ((componentOffset rd c).getD 0)

/-- A bundle verifies (R378): the result code of R396, 0 if it does. -/
def bundleCheck (fz : Fuses) (rd : Reader) (room : Nat) : Nat :=
  let outer := containerCheck fz rd room
  if outer ≠ 0 then outer
  else if kindOf rd ≠ 0x10 || !((List.range 3).all fun c => (componentOffset rd c).isSome) then 5
  else ((sectionsOf rd).map fun x => containerCheck fz (rdAt rd x.offset) x.size).foldl (fun r c => if r ≠ 0 then r else c) 0

/-! ### Epochs (R381 to R383) -/

/-- Two ranges overlap (R381). -/
def overlap (a b : Nat × Nat) : Bool := max a.1 b.1 ≤ min a.2 b.2

/-- The components of the pairs, in the order of their codes (R381). -/
def pairList : List (Nat × Nat) := [(0, 1), (0, 2), (0, 3), (1, 2), (1, 3), (2, 3)]

/-- The lowest code of a pair that fails, 0 if none does; `r i j` is the range of component `i` for component `j`. -/
def epochFail (r : Nat → Nat → Nat × Nat) : Nat :=
  match (pairList.zipIdx).find? fun p => !overlap (r p.1.1 p.1.2) (r p.1.2 p.1.1) with
  | none => 0
  | some p => p.2 + 1

/-- The lowest pair code that fails in any of several combinations. -/
def epochFailAny (rs : List (Nat → Nat → Nat × Nat)) : Nat :=
  ((List.range 7).find? fun k => k ≠ 0 && rs.any fun r => epochFail r = k).getD 0

namespace Blk

/-- The epochs of the silicon (R382). -/
def siRange (s : Blk) (j : Nat) : Nat × Nat := (s.fld .IMG_SI_RANGE_lo j, s.fld .IMG_SI_RANGE_hi j)

/-- The ranges of a combination of three containers and the silicon. -/
def comboRanges (s : Blk) (m c p : Reader) (i j : Nat) : Nat × Nat :=
  match i with
  | 0 => rangeOf m j
  | 1 => rangeOf c j
  | 2 => rangeOf p j
  | _ => s.siRange j

/-- The ranges of a bundle's own combination. -/
def bundleRanges (s : Blk) (rd : Reader) : Nat → Nat → Nat × Nat :=
  s.comboRanges (componentIn rd 0) (componentIn rd 1) (componentIn rd 2)

/-! ### Flash (R384) -/

/-- The flash address of a slot, 0 for A. -/
def slotBase (slot : Nat) : Nat := if slot = 0 then 0x1000000 else 0x4000000

/-- A slot of the flash; a byte never programmed reads as erased. -/
def slotReader (s : Blk) (slot : Nat) : Reader := fun i => s.flash.get 0xFF (slotBase slot + i)

/-- The RAM stage. -/
def ramReader (s : Blk) : Reader := fun i => s.ramStage.get 0 i

/-- Erase `n` sectors of 64 KiB from an address. -/
def eraseFlash (s : Blk) (addr n : Nat) : Blk :=
  { s with flash := s.flash.filter fun kv => !(decide (addr ≤ kv.1) && decide (kv.1 < addr + n * 65536)) }

/-- Program bytes of the flash. -/
def programFlash (s : Blk) (addr : Nat) (bytes : List Byte) : Blk :=
  { s with flash := bytes.zipIdx.foldl (fun (m : Tab Byte) (bi : Byte × Nat) => m.set 0xFF (addr + bi.2) bi.1) s.flash }

/-! ### The activation record (R385 to R387) -/

/-- The bytes of a copy of the record. -/
def recordBytes (s : Blk) (copy : Nat) : List Byte := rdList (fun i => s.flash.get 0xFF (copy * 65536 + i)) 0 128

/-- A copy is valid (R386). -/
def copyValid (s : Blk) (copy : Nat) : Bool :=
  let b := s.recordBytes copy
  beAt b 0 4 = 0x57584152 && beAt b 124 4 = crc32c (b.take 124)

/-- The record in force, if there is one (R386). -/
def recordInForce (s : Blk) : Option (List Byte) :=
  match s.copyValid 0, s.copyValid 1 with
  | true, true =>
    let d := (beAt (s.recordBytes 1) 4 4 + 2 ^ 32 - beAt (s.recordBytes 0) 4 4) % 2 ^ 32
    some (s.recordBytes (if 1 ≤ d ∧ d < 2 ^ 31 then 1 else 0))
  | true, false => some (s.recordBytes 0)
  | false, true => some (s.recordBytes 1)
  | false, false => none

/-- Fields of a record (R385). -/
def recState (b : List Byte) : Nat := beAt b 8 1
/-- The slot to start. -/
def recSlot (b : List Byte) : Nat := beAt b 9 1 % 2
/-- The last confirmed slot. -/
def recConf (b : List Byte) : Nat := beAt b 10 1 % 2
/-- Trial starts made. -/
def recTrials (b : List Byte) : Nat := beAt b 11 1

/-- The record in force is TRIAL. -/
def onTrial (s : Blk) : Bool := match s.recordInForce with
  | some b => recState b = 2
  | none => false

/-- The inactive slot (R387). -/
def inactiveSlot (s : Blk) : Nat := match s.recordInForce with
  | some b => 1 - recConf b
  | none => 0

/-- The digest of a slot's bundle header. -/
def headerHash (rd : Reader) : Nat := sha384 (rdList rd 0 128)

/-- Show the record in force in IMG_BOOT (R401). -/
def mirrorRecord (s : Blk) : Blk := match s.recordInForce with
  | some b => ((s.setFld .IMG_BOOT_trial 0 (if recState b = 2 then 1 else 0)).setFld .IMG_BOOT_trials 0 (recTrials b)).setFld
      .IMG_BOOT_conf_slot 0 (recConf b)
  | none => ((s.setFld .IMG_BOOT_trial 0 0).setFld .IMG_BOOT_trials 0 0).setFld .IMG_BOOT_conf_slot 0 0

/-- Write a record: seq + 1, copy 0 and then copy 1 (R385, R386). -/
def writeActivation (s : Blk) (state slot conf trials flags slotHash confHash : Nat) : Blk :=
  let seq := match s.recordInForce with
    | some b => beAt b 4 4 + 1
    | none => 1
  let body := beBytes 4 0x57584152 ++ beBytes 4 seq ++ beBytes 1 state ++ beBytes 1 slot ++ beBytes 1 conf ++ beBytes 1 trials ++
    beBytes 1 flags ++ beBytes 3 0 ++ beBytes 48 slotHash ++ beBytes 48 confHash ++ beBytes 12 0
  let bytes := body ++ beBytes 4 (crc32c body)
  (((((s.eraseFlash 0 1).programFlash 0 bytes).eraseFlash 65536 1).programFlash 65536 bytes).mirrorRecord)

/-- Write a record that differs from the one in force in state, slot, confirmed slot, trials and reverted only. -/
def amendRecord (s : Blk) (state slot conf trials : Nat) (reverted : Bool) : Blk :=
  match s.recordInForce with
  | none => s
  | some b =>
    let hash := fun k => if k = recSlot b then beAt b 16 48 else beAt b 64 48
    s.writeActivation state slot conf trials (if reverted then 1 else 0)
      (if slot = recConf b && slot ≠ recSlot b then beAt b 64 48 else hash slot)
      (if conf = recConf b then beAt b 64 48 else hash conf)

/-! ### The running set (R393) -/

/-- The part numbers of the management firmware and of controller `c`'s firmware; tile t's image is part t. -/
def mgmtPart : Nat := 32
/-- The part number of a controller's firmware. -/
def micaPart (c : Nat) : Nat := 33 + c

/-- The component of a part (R375). -/
def partComponent (k : Nat) : Nat := if k < 32 then 2 else if k = 32 then 0 else 1

/-- The slot that a part of the running set names. -/
def partSlot (s : Blk) (k : Nat) : Nat :=
  if k < 32 then (if s.bit .IMG_TILE_SRC_src 0 k then 1 else 0)
  else if k = 32 then s.fld .IMG_BOOT_mgmt_slot 0
  else if s.bit .IMG_BOOT_mica_src 0 (k - 33) then 1 else 0

/-- The container from which a part of the running set was loaded. -/
def partReader (s : Blk) (k : Nat) : Reader :=
  componentIn (if s.ramParts.contains k then s.ramReader else s.slotReader (s.partSlot k)) (partComponent k)

/-- The slots from which a part of the running set comes; none before a set runs, and while a bundle loads, its own. -/
def runningSlots (s : Blk) : List Nat :=
  if s.heldDigests = [] then []
  else if s.fld .IMG_BOOT_phase 0 = 1 then (if s.ramParts = [] then [s.fld .IMG_BOOT_slot 0] else [])
  else (((List.range 41).filter fun k => !s.ramParts.contains k).map s.partSlot).dedup

/-! ### Checks of the image commands (R394) -/

/-- The download is VERIFIED, and for the given target. -/
def verified (s : Blk) (target : Nat) : Bool := s.fld .IMG_DL_STATUS_state 0 = 2 && s.fld .IMG_DL_STATUS_target 0 = target

/-- The TRIAL record naming the inactive slot, or, with no record in force, the record of R387. -/
def writeTrial (s : Blk) : Blk :=
  let slot := s.inactiveSlot
  let hash := headerHash (s.slotReader slot)
  match s.recordInForce with
  | some b => s.writeActivation 2 slot (recConf b) 0 0 hash
      (if recConf b = recSlot b then beAt b 16 48 else beAt b 64 48)
  | none => s.writeActivation 1 0 0 0 0 hash hash

/-- A CONFIRM passes its checks (R394). -/
def mayConfirm (s : Blk) : Bool :=
  match s.recordInForce with
  | none => false
  | some b => s.onTrial && s.fld .IMG_BOOT_phase 0 = 2 && s.ramParts = [] && s.runningSlots = [recSlot b]

/-- What CONFIRM writes (R394). -/
def confirmRecord (s : Blk) : Blk :=
  match s.recordInForce with
  | none => s
  | some b => s.amendRecord 1 (recSlot b) (recSlot b) 0 false

/-- A download's length is within bounds (R394). -/
def lengthOk (n : Nat) : Bool := 384 ≤ n && n ≤ 50331648

/-- The inactive slot may be written (R394). -/
def slotFree (s : Blk) : Bool := !s.onTrial && !s.runningSlots.contains s.inactiveSlot

/-- A chunk of `size` bytes at `off` is the download's next (R394). -/
def chunkOk (s : Blk) (off size : Nat) : Bool :=
  off = s.fld .IMG_DL_STATUS_bytes 0 && size ≠ 0 && size ≤ 65536 && off + size ≤ s.dlLength &&
    (size % 256 = 0 || off + size = s.dlLength)

/-- The first `n` bytes of the staging window. -/
def windowBytes (s : Blk) (n : Nat) : List Byte := rdList (fun i => s.window.get 0 i) 0 n

/-- The ranges of every combination of given containers with the silicon. -/
def mixedRanges (s : Blk) (ms cs ps : List Reader) : List (Nat → Nat → Nat × Nat) :=
  ms.flatMap fun m => cs.flatMap fun c => ps.map fun p => s.comboRanges m c p

/-- The containers from which parts of the running set were loaded, one for each source in use. -/
def runningReaders (s : Blk) (ks : List Nat) : List Reader :=
  ((ks.map fun k => (s.ramParts.contains k, s.partSlot k)).zip ks).foldr
    (fun (x : (Bool × Nat) × Nat) (rest : List ((Bool × Nat) × Nat)) => if rest.any fun y => y.1 = x.1 then rest else x :: rest) []
    |>.map fun x => s.partReader x.2

/-- The shared digest that the running image states (R380). -/
def runningShared (s : Blk) : Nat := rdNat (s.partReader 0) 48 48

/-- An image runs (R391). -/
def imageRuns (s : Blk) : Bool := s.fld .IMG_BOOT_phase 0 = 2

/-- ACTIVATE with mode NEXT: its checks, in the order of R394; 0: it passes. -/
def nextCheck (s : Blk) : Nat × Nat :=
  let e := epochFail (s.bundleRanges (s.slotReader s.inactiveSlot))
  if !s.verified 0 then (0x0C, 0) else if s.onTrial then (3, 0) else if e ≠ 0 then (9, e) else (0, 0)

/-- ACTIVATE with mode ROLL: its checks, in the order of R394 and R398; 0: the roll begins. -/
def rollCheck (s : Blk) : Nat × Nat :=
  let new := s.slotReader s.inactiveSlot
  let e := epochFailAny (s.mixedRanges (componentIn new 0 :: s.runningReaders [32])
    (componentIn new 1 :: s.runningReaders ((List.range 8).map micaPart)) (componentIn new 2 :: s.runningReaders (List.range 32)))
  if !s.verified 0 then (0x0C, 0)
  else if s.onTrial || !s.imageRuns then (3, 0)
  else if rdNat (componentIn new 2) 48 48 ≠ s.runningShared then (0x0A, 0)
  else if e ≠ 0 then (9, e)
  else (0, 0)

/-! ### An update cut off (R400) -/

/-- A write of the activation record cut off: before copy 0 is touched, with copy 0 invalid, or with copy 0 new and copy 1 old or
invalid; which of them, `k` says. `t`: the block as the whole write would leave it. -/
def cutRecord (s t : Blk) (k : Nat) : Blk :=
  let zero := s.eraseFlash 0 1
  let one := zero.programFlash 0 (t.recordBytes 0)
  match k % 4 with
  | 0 => s
  | 1 => zero
  | 2 => one
  | _ => one.eraseFlash 65536 1

/-- The sectors of the record's two copies (R384). -/
def recordSectors (s : Blk) : Tab Byte := s.flash.filter fun kv => kv.1 < 131072

/-- A cold or warm reset, or a loss of power, comes while a start writes the record, or an image command runs: how far its flash
write had got is a free value (R400). -/
def cutUpdate (s : Blk) : Blk :=
  match s.imgCmd, s.bootWrite with
  | none, none => s
  | none, some old =>
    let (k, t) := s.free 32
    if k % 5 = 4 then t else ({ t with flash := old ++ s.flash.filter fun (kv : Nat × Byte) => 131072 ≤ kv.1 } : Blk).cutRecord s k
  | some (op, a0, a1), _ =>
    let (k, t) := s.free 32
    let base := slotBase s.inactiveSlot
    match op with
    | 1 => if lengthOk a0 && a1 % 2 = 0 && s.slotFree then t.eraseFlash base (k % (ceilDiv a0 65536 + 1)) else s
    | 2 =>
      if s.fld .IMG_DL_STATUS_state 0 = 1 && !s.flag .IMG_DL_STATUS_target 0 && s.chunkOk a0 a1 then
        t.programFlash (base + a0) (s.windowBytes (k % (a1 + 1)))
      else s
    | 4 =>
      if (a1 % 4 = 0 && s.nextCheck.1 = 0) || (a1 % 4 = 1 && s.roll.isNone && s.rollCheck.1 = 0) then t.cutRecord s.writeTrial k else s
    | 5 => if s.mayConfirm then t.cutRecord s.confirmRecord k else s
    | _ => s

end Blk

end Sys2Proof.Machine
end

