-- ==== Sys2Proof/Machine/Lose.lean ====
section
/-!
DEFINITION. What a reset, a power-down or a loss of power takes away: registers by what resets them (R412), frames and their
cells (R411), the contexts it marks (R413), and the parts of chapters 2 to 11 that lie in a tile, a die or the device.
-/

namespace Sys2Proof.Machine.Blk

/-! ### Register fields -/

/-- Forget every field of the registers, by copy, that a test names: they read as at reset. -/
def dropRegs (s : Blk) (p : Reg → Nat → Bool) : Blk :=
  let names := Reg.all.flatMap fun (r : Reg) => r.info.fields.map fun (f : Fld) => (f.ctorIdx, r)
  { s with fields := s.fields.filter fun (kv : Nat × Nat) =>
      !(names.any fun (n : Nat × Reg) => n.1 = kv.1 % 1024 && p n.2 (kv.1 / 1024)) }

/-- Keep the fields of the registers, by copy, that a test names. -/
def keepRegs (s : Blk) (p : Reg → Nat → Bool) : Tab Nat := (s.dropRegs fun r i => !p r i).fields

/-- Registers of an optical engine that show its loops, its light and its lanes: the loops run on through a tile reset
(R340). -/
def showsLoops (r : Reg) : Bool := r = .MICA_LANE_STATUS || r = .MICA_OE_STATUS || r = .MICA_LANE_PWR

/-- The count of cells retired by repair: no event counter (R446). -/
def showsRepair (r : Reg) : Bool := r = .BSL_REPAIRED

/-! ### Frames (R411) -/

/-- The cells that a staged frame adds to RSTC_LOST_CELLS: ceil(L / 256), or, its length not known, those it holds. -/
def lostCells (s : Blk) (r : FrameRec) : Nat :=
  if r.whole || s.lengthKnown r.tile r.frame then cellsOf (frameLen r.frame) else r.cells - r.freed

/-- Copies with a reference on one of the links: queued, in transmission, or unacknowledged. -/
def copiesOnLinks (s : Blk) (link : Nat → Bool) : List Nat :=
  (s.queues.flatMap fun (kv : Nat × List QEntry) =>
    if link (4 * (kv.1 / 256) + s.nodeOwner (kv.1 / 256) (kv.1 % 32)) then kv.2.map QEntry.copy else []) ++
  (s.feld.flatMap fun (kv : Nat × FeldLink) => if link kv.1 then kv.2.tx.map TxRec.copy else []) ++
  (s.links.flatMap fun (kv : Nat × LinkRec) => if link kv.1 then kv.2.unacked.map SentFrame.copy else [])

/-- The frames that are discarded: staged on a tile, not yet taken by an engine or a path; with a copy on a die; or with a
reference on a link (R411). Each is named once. `own`: the frames that a tile itself makes are lost with it. -/
def heldFrames (s : Blk) (tile link die : Nat → Bool) (own : Bool) : List Nat :=
  let staged := s.frames.filterMap fun (kv : Nat × FrameRec) =>
    if tile kv.2.tile && (own || kv.2.link.isSome) && kv.2.dest ≠ .engine && kv.2.dest ≠ .pieces then some kv.1 else none
  let onDie := s.copies.filterMap fun (kv : Nat × CopyRec) => if die (kv.1 % 4) then some (kv.1 / 4) else none
  let crossing := s.transfers.filterMap fun (kv : Nat × Transfer) =>
    match s.frame? (kv.1 / 4) with
    | some r => if die (kv.1 % 4) && (r.dest = .gneiss || r.dest = .garnet) then some (kv.1 / 4) else none
    | none => none
  (staged ++ crossing ++ onDie ++ (s.copiesOnLinks link).map (· / 4)).dedup

/-- The cells of a frame, staged or with a copy. -/
def frameCells (s : Blk) (fid : Nat) : Nat :=
  match s.frame? fid with
  | some r => s.lostCells r
  | none =>
    match s.copies.find? fun (kv : Nat × CopyRec) => kv.1 / 4 = fid with
    | some kv => cellsOf (frameLen kv.2.frame)
    | none => 0

/-- Count the cells of discarded frames in RSTC_LOST_CELLS. -/
def countLost (s : Blk) (fids : List Nat) : Blk := s.count .RSTC_LOST_CELLS_count 0 (fids.map s.frameCells).sum

/-- A staged frame is discarded; copies all of whose cells are written go on (R411, R527). -/
def dropStaged (s : Blk) (fid : Nat) : Blk :=
  let s := s.cutShortFrame fid none
  s.forget fid

/-- Every frame staged on, or made by, a tile is discarded. -/
def dropTileFrames (s : Blk) (tile : Nat → Bool) (own : Bool) : Blk :=
  (s.frames.filterMap fun (kv : Nat × FrameRec) =>
    if tile kv.2.tile && (own || kv.2.link.isSome) then some kv.1 else none).foldl (fun s f => s.dropStaged f) s

/-! ### Contexts (R413) -/

/-- Mark the contexts that have an open chunk on one of the engines, a member behind one of the links, or need one of the
pairs. -/
def markContexts (s : Blk) (engine link pair : Nat → Bool) : Blk :=
  let hit := fun (k : Nat) (c : CtxRec) =>
    ((List.range 32).any fun t => engine t && (s.engine t).chunks.any fun (x : ChunkRec) => x.id.ctx = k) ||
    (c.members.any fun (m : Nat × Nat) => link m.1) || (List.range 6).any fun p => pair p && c.needsPair p
  { s with contexts := s.contexts.map fun (kv : Nat × CtxRec) =>
      (kv.1, if hit kv.1 kv.2 then { kv.2 with marked := true } else kv.2) }

/-! ### Links -/

/-- A link goes dark: what it settled and holds is gone (R72, R412). -/
def darkLink (s : Blk) (l : Nat) : Blk := { (s.leave l (s.inService l)).setState l .disabled with links := s.links.del l }

/-- Every link of a tile goes dark, without interrupts: their enables are reset with them. -/
def darkTile (s : Blk) (t : Nat) : Blk :=
  let ls := (List.range 32).map fun k => 32 * t + k
  let s := ls.foldl (fun s l => s.clrFld .TIL_LNK_INT_EN_bits l) s
  let s := ls.foldl (fun s l => (s.leave l (s.inService l)).setState l .disabled) s
  { s with links := s.links.filter fun (kv : Nat × LinkRec) => tileOf kv.1 ≠ t }

/-! ### A tile (R402, R412) -/

/-- What lies in a tile beside its registers and frames: Feldspar's state, buckets, spray pointers, the replication logic, and
what its trace and timestamp units hold; its section is to be loaded again (R393, R397). -/
def blankTile (s : Blk) (t : Nat) : Blk :=
  { s with
    feld := s.feld.filter fun (kv : Nat × FeldLink) => tileOf kv.1 ≠ t
    buckets := s.buckets.filter fun (kv : Nat × (Int × Nat)) => kv.1 / 2048 ≠ t
    queues := s.queues.filter fun (kv : Nat × List QEntry) => kv.1 / 2048 ≠ t
    sprayPtr := s.sprayPtr.filter fun (kv : Nat × Nat) => kv.1 / 4096 ≠ t
    repl := s.repl.del t
    linkBusy := s.linkBusy.filter fun (kv : Nat × Usage) => tileOf kv.1 ≠ t
    linkDrops := s.linkDrops.filter fun (kv : Nat × Usage) => tileOf kv.1 ≠ t
    txts := s.txts.del t
    loaded := s.loaded.del t
    tileLoading := s.tileLoading.map fun r => if r.tile = t then { r with filled := false } else r
    trcLfsr := s.trcLfsr.del t
    trcNext := s.trcNext.del t
    trcBuf := s.trcBuf.del t
    trcRate := s.trcRate.del t }

/-- The logic of a tile loses what it holds: its links, the frames staged on it, and its registers but for those that
show the loops of its optical engine. -/
def loseTile (s : Blk) (t : Nat) : Blk :=
  let s := (s.darkTile t).dropTileFrames (· = t) false
  let left := fun (l : List (Nat × Request)) => l.filter fun q => !(q.1 = t && q.2.isSpill)
  let s := s.updBsl (t / 8) fun b => { b with requests := left b.requests, carried := left b.carried }
  let s := (s.blankTile t).dropRegs fun r i =>
    r.info.scope == .tile && r.outer i = t && !showsLoops r && r.info.dom != .garnet
  s.tileUnsync t

/-- A tile is reset (R402, R412): its logic, its Garnet engine, which enters SELFTEST, and its registers. A Garnet domain that
is not ON has nothing to lose (R425). -/
def resetTile (s : Blk) (t : Nat) : Blk :=
  let s := s.loseTile t
  if s.domOn (64 + t) then
    let s := (s.loseEngine t 0).dropRegs fun r i => r.info.dom == .garnet && r.outer i = t
    s.showEngine t 3
  else s

/-! ### Chapter 8 and 9 (R311) -/

/-- Updates waiting at a die are lost, and their requests are not answered (R410): later ordered stores of their buckets
wait for them no longer. Those applied before are written back (R273). -/
def loseUpdates (s : Blk) (d : Nat) : Blk :=
  let gone := ((s.updates.get [] d).map UpdEntry.req).dedup
  let s := gone.foldl (fun s k =>
    match s.requests.find k with
    | none => s
    | some (q : MemReq) => { s with requests := s.requests.del k,
                                     ordApplied := s.ordApplied.set 0 q.bucket (s.ordApplied.get 0 q.bucket + 1) }) s
  let s := { s with updates := s.updates.del d }
  ((s.hot.filter fun kv => kv.2.die = d).map Prod.fst).foldl (fun s x => s.writeBack x) s

/-- Mirrors and drains that run stop with RESET: err, and an event record (R299, R311). -/
def stopShards (s : Blk) : Blk :=
  s.shards.keys.foldl (fun s i =>
    let s := if (s.shard i).mpos.isSome then
      (((s.stopMirror i).putShard i { (s.stopMirror i).shard i with err := 0x0F }).shardEvent i 0x0F).raise .GNS_CKP_INT_mirror_fail 0
      else s
    if (s.shard i).drainRuns then
      ((s.putShard i { s.shard i with drainRuns := false, err := 0x0F }).shardEvent i 0x0F).raise .GNS_CKP_INT_drain_fail 0
    else s) s

/-- Restores and replays that run stop with RESET (R311). -/
def stopWork (s : Blk) : Blk :=
  let s := s.restores.foldl (fun s (kv : Nat × RestoreRec) => s.endRestore kv.1 kv.2 0x0F) s
  s.replays.keys.foldl (fun s id =>
    match s.replays.find id with
    | none => s
    | some r => ({ s with replays := s.replays.put id { r with buf := [], ended := some 0x0F } }.dropOwn (.replay id)).replayCheck id) s

/-- Valid gateways are FAILED after a reset; what they were doing is over (R311). -/
def failGateways (s : Blk) : Blk :=
  s.gateways.keys.foldl (fun s g => if (s.gateway g).valid then s.gwFail g 8 else s) s

/-! ### A die (R402, R412) -/

/-- The pairs of a die. -/
def pairsOf (d : Nat) : List Nat := (List.range 6).filter fun p => (pairDies p).1 = d || (pairDies p).2 = d

/-- The Agate links of a die go through FAILED, and its pairs are down (R412). -/
def failAgate (s : Blk) (d : Nat) : Blk :=
  let hit := fun (s : Blk) (l b : Nat) => if s.agIn l b .off then s else s.agFail l b
  (pairsOf d).foldl (fun s p =>
    let s := (List.range 8).foldl (fun s k => hit (hit s (8 * p + k) 0) (8 * p + k) 1) s
    (s.relive p 0).relive p 1) s

/-- A register of the Agate end on die `d`. -/
def agateEndOn (d : Nat) (r : Reg) (i : Nat) : Bool :=
  r.info.scope == .agate && (let p := pairDies (i / 2 / 8); if i % 2 = 0 then p.1 = d else p.2 = d)

/-- The states of a die's Agate links as they stand, by receiving end. -/
def agateStates (s : Blk) : List (Nat × Nat) := (List.range 96).map fun i => (i, s.fld .D2D_LNK_STATUS_state i)

/-- The copies of frames in a die's Basalt buffer, and those of other dies' buffers still to be read from it, are gone. -/
def loseCopies (s : Blk) (d : Nat) : Blk :=
  let s := (s.copies.keys.filter fun k => k % 4 = d).foldl (fun s k => s.discardAndOffer k) s
  { s with basalt := s.basalt.del d }

/-- A die's forwarding, group and member table copies are lost (R414). -/
def loseTables (s : Blk) (d : Nat) : Blk :=
  { s with
    tables := s.tables.filter fun (kv : Nat × Nat) => kv.1 / 9437184 ≠ d
    groups := s.groups.filter fun (kv : Nat × Nat) => kv.1 / 4096 ≠ d
    members := s.members.filter fun (kv : Nat × Nat) => kv.1 / 65536 ≠ d }

/-- The table copies of a die are to be loaded again (R414). -/
def needTables (s : Blk) (d : Nat) : Blk := { s with tableLoads := (s.tableLoads ++ [d]).dedup }

/-- A die is reset (R402, R410 to R412): its tiles and engines, its buffers, updates and tables, its ends of the Agate links,
its Mica controllers but for MICA0 and MICA1, and its registers. -/
def resetDie (s : Blk) (d : Nat) : Blk :=
  let mine := (List.range 8).map fun k => 8 * d + k
  let s := mine.foldl (fun s t => (s.darkTile t)) s
  let s := s.dropTileFrames (fun t => t / 8 = d) true
  let s := ((s.transfers.keys.filter fun k => k % 4 = d).foldl (fun s k => (s.dropFrame (k / 4)).forget (k / 4)) s).loseCopies d
  let s := s.failAgate d
  let s := mine.foldl (fun s t => s.resetTile t) s
  let s := (s.loseUpdates d).loseTables d
  let s := if s.fld .PWR_DOM_STATUS_state (156 + d) = 0 then s else s.needTables d
  let s := if d = 0 then s else (s.ctrlStop (2 * d)).ctrlStop (2 * d + 1)
  let s := (s.stopShards.stopWork).failGateways
  let s := { s with journal := s.journal.filter fun (j : JournalItem) => j.tile / 8 ≠ d }
  let old := s.agateStates
  let s := s.dropRegs fun r i => (r.info.scope == .die && r.outer i = d && !showsRepair r) || agateEndOn d r i
  (old.foldl (fun s x => s.setFld .D2D_LNK_STATUS_state x.1 x.2) s).freshCounts d

/-! ### The device (R402, R412) -/

/-- What a warm reset leaves in the registers (R412): the always-on group's but for the download's (R394), and what the loops,
the repairs and the pads show. -/
def warmFields (s : Blk) : Tab Nat :=
  s.keepRegs fun r _ => (r.info.scope == .cold && r != .IMG_DL_STATUS) || showsLoops r || showsRepair r || r = .GPIO_IN

/-- The records of R299 that wait, or are held, and that a test picks. -/
def ckpWaiting (s : Blk) (p : CplRec → Bool) : List (Nat × CplRec) :=
  ((s.cplWait.flatMap fun (kv : Nat × List CplRec) => kv.2.map fun (c : CplRec) => (kv.1, c)) ++
    s.cplHeld.map fun (x : HeldRec) => (x.ring, x.rec_)).filter fun x =>
    x.2.kind = 4 && p x.2

/-- The record is an event's (R299). -/
def isEvent (c : CplRec) : Bool := c.bytes.getD 1 0 = 0x80

/-- A warm reset (R402, R410 to R412, R311, R340): what is kept is named. -/
def resetWarm (s : Blk) : Blk :=
  let s := s.cutUpdate
  let s := (List.range 4).foldl (fun s d => s.loseUpdates d) s
  let s := (List.range 8).foldl (fun s c => s.ctrlStop c) s
  let owed := s.owed ++ s.ckpWaiting isEvent
  let s := { s with cplWait := [], cplHeld := [] }
  let s := s.shards.keys.foldl (fun s i => if (s.shard i).state = 1 then s.failShard i 0x0F else s) s
  let s := s.stopShards.stopWork
  let owed := owed ++ s.ckpWaiting fun _ => true
  let epoch := s.fld .MGT_MBX_STATUS_epoch 0
  let fail := fun (_ : Nat) (g : GwRec) =>
    if g.valid then { g with state := 2, jobs := [], running := none, stores := [], sent := [], rnrFrom := none } else g
  let s' : Blk :=
    { Blk.reset with
      fields := s.warmFields, qOffset := s.qOffset, hbm := s.hbm, lineMeta := s.lineMeta, stale := s.stale,
      regions := s.regions, gnsCmd := s.gnsCmd, snap := s.snap, sweeps := s.sweeps, gateways := s.gateways.mapV .reset fail, shards := s.shards,
      streams := s.streams.mapV ⟨[], [], none⟩ fun _ (r : StreamRec) => { r with waiting := [] },
      flash := s.flash, foi := s.foi, foiHalves := s.foiHalves, foiHold := s.foiHold, qStep := s.qStep, ppsOut := s.ppsOut, ppsFrom := s.ppsFrom,
      ppsRose := s.ppsRose, cmapFrom := s.cmapFrom,
      shadow := s.shadow, mrgFired := s.mrgFired, recentCe := s.recentCe, sweepWait := s.sweepWait, owed := owed,
      heldDigests := s.heldDigests, ramParts := s.ramParts, resets := s.resets, startDue := false, coldStart := s.coldStart, resetLow := s.resetLow, clkMode := s.clkMode,
      powerHold := s.powerHold, tripped := s.tripped, obsCmd := s.obsCmd, obsRefuses := s.obsRefuses, fatal := s.fatal,
      softSram := s.softSram, softHbm := s.softHbm, rowsDue := s.rowsDue, imgMaxFrame := s.imgMaxFrame, imgLcf := s.imgLcf, cmapSeq := s.cmapSeq,
      boundary := s.boundary, jtagIr := s.jtagIr, trcLfsr := [], nextOwn := s.nextOwn, nextWork := s.nextWork,
      now := s.now, fresh := s.fresh, out := s.out }
  let s' := s'.setFld .MGT_MBX_STATUS_epoch 0 epoch
  let s' := (List.range 32).foldl (fun s t => s.tileUnsync t) s'
  let s' := (List.range 4).foldl (fun s d => s.freshCounts d) s'
  ((s'.setFld .IMG_BOOT_phase 0 0).setFld .FOI_CMD_STATUS_busy 0 0).setFld .IMG_CMD_STATUS_busy 0 0

/-- Fields that a cold reset leaves: what is sampled from pins, and what Obsidian senses (R388, R432). -/
def coldFields (s : Blk) : Tab Nat :=
  s.keepRegs fun r _ => r = .GPIO_IN || r = .OBS_LC || r = .OBS_KEY_STATUS || r = .OBS_SVN_MIN || r = .OBS_DEV_ID ||
    r = .RSTC_MAP || r = .IMG_SI_RANGE || r = .MICA_ELS_STATUS || r = .MICA_ELS_PWR || r = .RSTC_CLK_STATUS

/-- A cold reset (R402, R412): everything but the flash, the pins and the straps; the lines of retired rows stay poisoned
(R446). -/
def resetCold (s : Blk) : Blk :=
  let s := s.cutUpdate
  let src := s.fld .IMG_BOOT_src 0
  let s' : Blk :=
    { Blk.reset with
      fields := s.coldFields, lineMeta := s.lineMeta.filter (·.2.retired), flash := s.flash, resets := s.resets, startDue := false, resetLow := s.resetLow,
      clkMode := s.clkMode, powerHold := s.powerHold, tripped := s.tripped, boundary := s.boundary, jtagIr := s.jtagIr,
      now := s.now, fresh := s.fresh, out := s.out }
  Blk.tellPins s (s'.setFld .IMG_BOOT_src 0 src)

end Sys2Proof.Machine.Blk
end

