-- ==== Sys2Proof/Machine/Resets.lean ====
section
/-!
DEFINITION. Resets (R402 to R413): their sources and fused levels, what a request does, and the end of the logic reset; the
watchdog, the clock monitors (R428, R429), the rails and the thermal trip (R505, R520).
-/

namespace Sys2Proof.Machine

/-- The levels that a source may be fused to (R403). -/
def allowedLevels : Nat → List Nat
  | 0 => [0]
  | 1 => [0]
  | 2 => [0, 1]
  | 3 => [0, 1, 4]
  | 4 => [0, 1, 2, 3, 4]
  | 5 => [0, 1, 2, 3, 4]
  | 6 => [0, 1, 2]
  | _ => [1, 4]

/-- The level a source causes on unprogrammed fuses (R403). -/
def defaultLevel : Nat → Nat
  | 0 => 0
  | 1 => 0
  | 7 => 4
  | _ => 1

/-- The level that a fused entry causes: itself where the source allows it, otherwise the narrowest allowed level that is
wider (R403). No allowed level being wider, the widest allowed (a choice of the model). -/
def fusedLevel (src entry : Nat) : Nat :=
  ((allowedLevels src).filter (· ≤ entry)).getLastD ((allowedLevels src).headD 0)

/-- The level in force of each source, from the fuses. -/
def mapLevel (fz : Fuses) (src : Nat) : Nat :=
  match fz.levels.find src with
  | some e => fusedLevel src e
  | none => defaultLevel src

/-- RSTC_MAP as the fuses give it (R403, R430). -/
def mapWord (fz : Fuses) : Nat := (List.range 8).foldl (fun w k => w + mapLevel fz k * 8 ^ k) 0

/-- A reset takes over another, and absorbs a request for it: it is wider, or equal (R404). Those at the die and tile levels
for different targets both run (log entry 178). -/
def ResetRun.covers (a b : ResetRun) : Bool :=
  match a.level with
  | 0 => true
  | 1 => b.level ≠ 0
  | 2 => b.level = 4 || (b.level = 2 && b.die = a.die) || (b.level = 3 && b.tile / 8 = a.die)
  | 3 => b.level = 4 || (b.level = 3 && b.tile = a.tile)
  | _ => b.level = 4

/-- The management cores are reset at the mgmt level, or with a reset that took one over (R402, R404). -/
def ResetRun.takesCores (r : ResetRun) : Bool := r.level = 4 || r.cores

/-- The switched domains that a reset holds (R402, R421): at the die level, the domains of its tiles, engines and stacks, its
die management domain and the Agate links that end on it. -/
def ResetRun.domains (r : ResetRun) : List Nat :=
  match r.level with
  | 0 => List.range 160
  | 1 => List.range 160
  | 2 => ((List.range 8).flatMap fun k => [8 * r.die + k, 32 + 8 * r.die + k, 64 + 8 * r.die + k]) ++
      ((List.range 3).map fun k => 96 + 3 * r.die + k) ++
      ((Blk.pairsOf r.die).flatMap fun p => (List.range 8).map fun k => 108 + 8 * p + k) ++ [156 + r.die]
  | 3 => [r.tile, 32 + r.tile, 64 + r.tile]
  | _ => []

/-- The tiles that a reset takes. -/
def ResetRun.tiles (r : ResetRun) : List Nat :=
  match r.level with
  | 0 => List.range 32
  | 1 => List.range 32
  | 2 => (List.range 8).map fun k => 8 * r.die + k
  | 3 => [r.tile]
  | _ => []

/-- The dies that a reset takes. -/
def ResetRun.dies (r : ResetRun) : List Nat :=
  match r.level with
  | 0 => List.range 4
  | 1 => List.range 4
  | 2 => [r.die]
  | _ => []

namespace Blk

/-- A domain's state (R431). -/
def domState (s : Blk) (n : Nat) : Nat := s.fld .PWR_DOM_STATUS_state n

/-- Write a domain's state. -/
def setDom (s : Blk) (n v : Nat) : Blk := s.setFld .PWR_DOM_STATUS_state n v

/-- Record a reset in RSTC_CAUSE (R405); `again` where it takes over from a request of the same time, which was not a reset of
its own (R404). -/
def recordCause (s : Blk) (src : Nat) (r : ResetRun) (again : Bool) : Blk :=
  let n := if r.level = 0 then 0 else min 255 (s.fld .RSTC_CAUSE_resets 0 + if again then 0 else 1)
  ((((s.setFld .RSTC_CAUSE_resets 0 n).setFld .RSTC_CAUSE_level 0 r.level).setFld .RSTC_CAUSE_src 0 src).setFld .RSTC_CAUSE_die 0
    r.die).setFld .RSTC_CAUSE_tile 0 r.tile

/-- A start that now runs counts as failed if it is cut off (R390, R419). -/
def startCounts (s : Blk) : Bool :=
  let src := s.fld .IMG_BOOT_src 0
  (s.startDue && src = 0 && !s.onTrial) || (s.fld .IMG_BOOT_phase 0 = 1 && ((src = 0 && !s.onTrial) || src = 1))

/-- A start has failed (R419, R420). -/
def failStart (s : Blk) : Blk :=
  let n := min 7 (s.fld .RSTC_FAILS_count 0 + 1)
  (s.setFld .RSTC_FAILS_count 0 n).setFld .RSTC_FAILS_locked 0 (if 3 ≤ n then 1 else 0)

/-- RSTC_FAILS.clear is written 1 (R420). -/
def failsClear (s : Blk) : Blk := (s.setFld .RSTC_FAILS_count 0 0).setFld .RSTC_FAILS_locked 0 0

/-- An Obsidian command ends with its result (R435). -/
def obsEnd (s : Blk) (result : Nat) : Blk :=
  (({ s with obsCmd := none, bist := none }.setFld .OBS_CMD_STATUS_busy 0 0).setFld .OBS_CMD_STATUS_result 0 result).raise
    .OBS_INT_cmd_done 0

/-- A reset that takes the domain under BIST ends it with ABORTED; the domain then follows the reset (R445). -/
def abortBist (s : Blk) (r : ResetRun) : Blk :=
  match s.bist with
  | none => s
  | some n =>
    if r.level ≤ 2 && r.domains.contains n then
      (s.setDom n 1).obsEnd 0x0B
    else s

/-- What a reset takes with it, by its level (R410 to R413). -/
def takeAway (s : Blk) (r : ResetRun) : Blk :=
  let tile := fun t => r.tiles.contains t
  let die := fun d => r.dies.contains d
  let link := fun l => tile (tileOf l)
  let counted := fun (s : Blk) => s.countLost (s.heldFrames tile link die (r.level ≠ 3))
  let marked := fun (s : Blk) => s.markContexts tile link fun p => die (pairDies p).1 || die (pairDies p).2
  match r.level with
  | 0 => s.resetCold
  | 1 => (counted s).resetWarm
  | 2 => (marked (counted s)).resetDie r.die
  | 3 => (marked (counted s)).resetTile r.tile
  | _ => ((s.setFld .MGT_MBX_STATUS_fw_ready 0 0).i2cReset 0).i2cReset 1

/-- Show the domains, dies and tiles that a reset holds (R415, R430, R431). -/
def showHeld (s : Blk) (r : ResetRun) : Blk :=
  let s := r.domains.foldl (fun s n => if s.domState n = 1 then s.setDom n 3 else s) s
  let s := r.dies.foldl (fun s d => s.setBit .RSTC_DIE_RST_die 0 d true) s
  r.tiles.foldl (fun s t => s.setBit .RSTC_TILE_RST_tile 0 t true) s

/-- The target of a die or tile reset is off, so that the reset has no effect (R425). -/
def targetOff (s : Blk) (r : ResetRun) : Bool :=
  (r.level = 2 && s.domState (156 + r.die) = 0) || (r.level = 3 && s.domState r.tile = 0)

/-- A reset in progress was requested at this time: the two requests fall in one management clock (R404). DESIGN CHOICE,
log entry 157: that clock is one ns of the model's time. -/
def sameClock (s : Blk) (a : ResetRun) : Bool := a.start = s.now && !a.released

/-- A request is absorbed by a reset in progress (R404); where the two are of one clock, level and target, the lower source is the
one recorded. -/
def absorb (s : Blk) (src : Nat) (r : ResetRun) : Blk :=
  if (s.resets.any fun a => s.sameClock a && a.level = r.level && a.die = r.die && a.tile = r.tile) &&
      s.fld .RSTC_CAUSE_level 0 = r.level then s.setFld .RSTC_CAUSE_src 0 (min src (s.fld .RSTC_CAUSE_src 0))
  else s

/-- A reset is requested: absorbed by one in progress that takes every part it takes; without effect on a target that is off, and
a tile under BIST takes no reset of its own; otherwise recorded, and what it holds is lost (R404, R405, R409, R425, R445). -/
def request (s : Blk) (src level die tile : Nat) : Blk :=
  let r : ResetRun := ⟨level, if level = 2 then die else 0, if level = 3 then tile else 0, false, s.now, false⟩
  if s.resets.any (·.covers r) then s.absorb src r
  else if s.targetOff r || (level = 3 && s.bist = some tile) then s
  else
    let took := level ≠ 4 && s.resets.any fun a => r.covers a && a.takesCores
    let again := s.resets.any fun a => s.sameClock a && r.covers a
    let s := if level = 1 && s.startCounts then s.failStart else s
    let s := ({ s with resets := s.resets.filter (!r.covers ·) }.abortBist r).takeAway r
    let s := { s with resets := s.resets ++ [{ r with cores := took }], loadDue := s.loadDue.filter (!r.domains.contains ·.1) }
    (s.recordCause src r again).showHeld r

/-- The level in force of a source (R403, R430). -/
def levelOf (s : Blk) (src : Nat) : Nat := s.fld .RSTC_MAP_levels 0 / 8 ^ src % 8

/-! ### Clocks (R428, R429) -/

/-- The field and the bit of a clock in RSTC_CLK_STATUS. -/
def clockBit : ClockId → Fld × Nat
  | .ref => (.RSTC_CLK_STATUS_ref, 0)
  | .mref => (.RSTC_CLK_STATUS_mref, 0)
  | .pcie => (.RSTC_CLK_STATUS_pcie_ref, 0)
  | .time => (.RSTC_CLK_STATUS_time_pll, 0)
  | .mgmt => (.RSTC_CLK_STATUS_mgmt_pll, 0)
  | .core d => (.RSTC_CLK_STATUS_core_pll, d.val)
  | .hbm d => (.RSTC_CLK_STATUS_hbm_pll, d.val)
  | .lane d => (.RSTC_CLK_STATUS_lane_pll, d.val)

/-- A clock has failed and is not good again. -/
def clockBad (s : Blk) (c : ClockId) : Bool := s.bit (clockBit c).1 0 (clockBit c).2

/-- The die whose PLL a clock is. -/
def clockDie : ClockId → Option Nat
  | .core d => some d.val
  | .hbm d => some d.val
  | .lane d => some d.val
  | _ => none

/-- The PLLs of a die have failed, one of them at least. -/
def diePllBad (s : Blk) (d : Nat) : Bool :=
  s.bit .RSTC_CLK_STATUS_core_pll 0 d || s.bit .RSTC_CLK_STATUS_hbm_pll 0 d || s.bit .RSTC_CLK_STATUS_lane_pll 0 d

/-- A clock of the whole device has failed, PCIE_REFCLK apart. -/
def deviceClockBad (s : Blk) : Bool :=
  s.clockBad .ref || s.clockBad .mref || s.clockBad .time || s.clockBad .mgmt

/-- A clock monitor trips (R429); after a thermal trip the monitors are held off (R520). -/
def clockFail (s : Blk) (c : ClockId) : Blk :=
  if s.tripped || s.clockBad c then s
  else
    let s := (s.setBit (clockBit c).1 0 (clockBit c).2 true).raise .RSTC_INT_clk_fail 0
    let s := if c = .ref || c = .time then s.invalidate else s
    match clockDie c with
    | some d =>
      if d = 0 then s.request 6 (min 1 (s.levelOf 6)) 0 0 else s.request 6 (s.levelOf 6) d 0
    | none => if c = .pcie then s else s.request 6 (min 1 (s.levelOf 6)) 0 0

/-- A clock is good again (R429); with PCIE_REFCLK the link returns, and the messages that waited for it go. -/
def clockGood (s : Blk) (c : ClockId) : Blk :=
  if s.tripped then s
  else
    let s := s.setBit (clockBit c).1 0 (clockBit c).2 false
    if c = .pcie then s.recheckVectors else s

/-! ### The end of ASSERT (R409) -/

/-- A reset may be released: RESET_N high, the rails good, the clocks it needs running, no thermal trip, and no scan. -/
def mayRelease (s : Blk) (r : ResetRun) : Bool :=
  !s.tripped && !s.deviceClockBad &&
  match r.level with
  | 0 => !s.powerHold && !s.resetLow && !s.flag .OBS_LC_scan 0 && (List.range 4).all fun d => !s.diePllBad d
  | 1 => !s.powerHold && !s.resetLow && !s.flag .OBS_LC_scan 0 && (List.range 4).all fun d => !s.diePllBad d
  | 2 => !s.diePllBad r.die
  | 3 => !s.diePllBad (r.tile / 8)
  | _ => true

/-- The domains of a reset leave it, but for those another reset holds. -/
def releaseDomains (s : Blk) (r : ResetRun) : Blk :=
  let held := s.resets.filter (!·.released)
  let s := r.domains.foldl (fun s n => if s.domState n = 3 && !(held.any fun h => h.domains.contains n) then s.setDom n 1 else s) s
  let s := r.dies.foldl (fun s d => s.setBit .RSTC_DIE_RST_die 0 d false) s
  r.tiles.foldl (fun s t => if held.any fun h => h.tiles.contains t then s else s.setBit .RSTC_TILE_RST_tile 0 t false) s

/-- RELEASE at the warm or cold level: the reset is over, and a start is due (R388, R404, R409); engines enter SELFTEST, and Agate
links train (R153, R412). -/
def releaseDevice (s : Blk) : Blk :=
  let s := { s with startDue := true }
  let s := (List.range 32).foldl (fun s t => s.setFld .GRN_STATUS_state t 3) s
  s.agStartAll.mgmtUp

/-- RELEASE: reset `k` of those in progress (R409). -/
def assertEnd (s : Blk) (k : Nat) : Blk :=
  match s.resets[k]? with
  | none => s
  | some r =>
    if r.released || !s.mayRelease r then s
    else if r.level ≤ 1 then ({ s with resets := s.resets.eraseIdx k }.releaseDomains r).releaseDevice
    else
      let s := { s with resets := s.resets.set k { r with released := true } }.releaseDomains r
      let s := if r.takesCores then s.mgmtUp else s
      if r.level = 2 then
        (pairsOf r.die).foldl (fun s p => (List.range 8).foldl (fun s k => (s.agStart (8 * p + k) 0).agStart (8 * p + k) 1) s) s
      else s

/-! ### Sources -/

/-- RSTC_SWRST is written (R406). -/
def swReset (s : Blk) (v : Nat) : Blk :=
  let level := part .RSTC_SWRST_level v
  if part .RSTC_SWRST_key v ≠ 0xA5 then s
  else if 4 < level || level < s.levelOf 4 then s.raise .RSTC_INT_sw_reject 0
  else s.request 4 level (part .RSTC_SWRST_die v) (part .RSTC_SWRST_tile v)

/-- JTAG's RESET_REQ, where debug is allowed (R403, R495): ignored where the level is wider than the entry. -/
def debugReset (s : Blk) (level die tile : Nat) : Blk :=
  if 4 < level || level < s.levelOf 5 then s else s.request 5 level die tile

/-- The straps are sampled (R388, R427). -/
def sampleStraps (s : Blk) (boot clk : Nat) : Blk := { s.setFld .IMG_BOOT_src 0 boot with clkMode := clk }

/-- The cold reset of a rail's rise or fall, and its hold (R403, R505), in which the JTAG port is reset (PRESUMED: IEEE 1149.1, log
entry 180): after a rise nothing is left of a reset in progress. -/
def railReset (s : Blk) (src : Nat) : Blk :=
  let t := s.request src (s.levelOf src) 0 0
  Blk.tellPins t { t with powerHold := true, jtagIr := 0x01 }

/-- VDD_AON rises (R403, R440, R520): what a trip or scan held is over. -/
def powerOn (s : Blk) : Blk :=
  let s := Blk.tellPin s { s with tripped := false } .thermtrip
  { s.setFld .OBS_LC_scan 0 0 with resets := [] }.railReset 0

/-- The rails have been good for 1 ms (R505); with RESET_N high, the straps are taken here. -/
def holdEnd (s : Blk) (boot clk : Nat) : Blk :=
  let t := Blk.tellPins s { s with powerHold := false }
  if !s.powerHold then s else if s.resetLow then t else t.sampleStraps boot clk

/-- RESET_N changes (R388, R403). -/
def resetPin (s : Blk) (low : Bool) (boot clk : Nat) : Blk :=
  if low then (if s.resetLow then s else { s.request 2 (s.levelOf 2) 0 0 with resetLow := true })
  else if s.resetLow then { s.sampleStraps boot clk with resetLow := false }
  else s

/-- Half of the watchdog's time passes without a kick (R407). -/
def wdtHalfway (s : Blk) : Blk :=
  if s.flag .RSTC_WDT_CTL_en 0 then { s.raise .RSTC_INT_wdt_half 0 with wdtHalf := true } else s

/-- All of the watchdog's time passes without a kick (R407): its count starts again. -/
def wdtFires (s : Blk) : Blk :=
  if s.flag .RSTC_WDT_CTL_en 0 && s.wdtHalf then { s with wdtHalf := false }.request 3 (s.levelOf 3) 0 0 else s

/-- The thermal trip fires (R520). -/
def trip (s : Blk) : Blk :=
  if s.tripped then s else Blk.tellPins s { s with tripped := true }

end Blk

open Blk

/-! ### Meanings of the reset rows -/

/-- POWER_ON (R403, R505). -/
def execPowerOn (s : State) : Host.Outcome State Fault Refusal := run Blk.powerOn s
/-- POWER_GOOD_HOLD_END (R505). -/
def execPowerGoodHoldEnd (bootSrc clkMode : BitVec 2) (s : State) : Host.Outcome State Fault Refusal :=
  run (fun b => b.holdEnd bootSrc.toNat clkMode.toNat) s
/-- BROWN_OUT (R403, R505). -/
def execBrownOut (s : State) : Host.Outcome State Fault Refusal := run (fun b => b.railReset 1) s
/-- RESET_N (R388, R403). -/
def execResetN (low : Bool) (bootSrc clkMode : BitVec 2) (s : State) : Host.Outcome State Fault Refusal :=
  run (fun b => b.resetPin low bootSrc.toNat clkMode.toNat) s
/-- WATCHDOG_KICK (R407). -/
def execWatchdogKick (s : State) : Host.Outcome State Fault Refusal := run (fun b => { b with wdtHalf := false }) s
/-- WATCHDOG_HALF (R407). -/
def execWatchdogHalf (s : State) : Host.Outcome State Fault Refusal := run Blk.wdtHalfway s
/-- WATCHDOG_TIMEOUT (R407). -/
def execWatchdogTimeout (s : State) : Host.Outcome State Fault Refusal := run Blk.wdtFires s
/-- SOFTWARE_REQUEST (R406). -/
def execSoftwareRequest (value : BitVec 32) (s : State) : Host.Outcome State Fault Refusal := run (fun b => b.swReset value.toNat) s
/-- MGMT_LOCKUP (R408). -/
def execMgmtLockup (s : State) : Host.Outcome State Fault Refusal := run (fun b => b.request 7 (b.levelOf 7) 0 0) s
/-- CLOCK_FAILURE (R429). -/
def execClockFailure (clock : ClockId) (s : State) : Host.Outcome State Fault Refusal := run (fun b => b.clockFail clock) s
/-- CLOCK_RECOVERY (R429). -/
def execClockRecovery (clock : ClockId) (s : State) : Host.Outcome State Fault Refusal := run (fun b => b.clockGood clock) s
/-- RESET_ASSERT_END (R409). -/
def execResetAssertEnd (run_ : Nat) (s : State) : Host.Outcome State Fault Refusal := run (fun b => b.assertEnd run_) s
/-- FAILS_CLEAR (R420). -/
def execFailsClear (s : State) : Host.Outcome State Fault Refusal := run Blk.failsClear s
/-- THERMAL_TRIP (R520). -/
def execThermalTrip (s : State) : Host.Outcome State Fault Refusal := run Blk.trip s

end Sys2Proof.Machine
end

