-- ==== Sys2Proof/Machine/Load.lean ====
section
/-!
DEFINITION. Loading an image: what a section writes (R380), the digests held of the running set (R393), measurements (R441), the
firmware of the Mica controllers, and the table copies of a die (R414).
-/

namespace Sys2Proof.Machine.Blk

/-- A register written by the block's own firmware or image, for `wordWrite`. -/
def ownPut (s : Blk) (r : Reg) (i v : Nat) : Blk := s.regWrite .mgmt r i v

/-- The register writes of a section are applied; a domain that is not ON takes none, and the reset, power, image and security
registers are no part of an image. -/
def applyWrites (s : Blk) (ws : List (Nat × Nat)) : Blk :=
  ws.foldl (fun (s : Blk) (w : Nat × Nat) =>
    let a := w.1 % 2 ^ 26
    let on := match addrDomain a with
      | some n => s.domOn n
      | none => decide (a < 0x300000 ∨ 0x600000 ≤ a)
    if on then s.wordWrite ownPut a (w.2 % 2 ^ 32) else s) s

/-- Component `c` runs from a container: its version and its measurement (R401, R441). -/
def measure (s : Blk) (c : Nat) (rd : Reader) : Blk :=
  let h := headerHash rd
  (List.range 12).foldl (fun s w => s.setFld .OBS_MEAS_hash (12 * c + w) (h / 2 ^ (32 * (11 - w))))
    (s.setFld .IMG_RUN_VER_version c (rdNat rd 16 4))

/-- The sections of a container that a part loads (R379, R393). -/
def partSections (rd : Reader) (k : Nat) : List Section :=
  (sectionsOf rd).filter fun x =>
    if k < 32 then x.type = 0x03 && x.target = k
    else if k = 32 then true
    else x.target = k - 33 || x.target = 0xFF

/-- The digests of a part's sections, as its container states them. -/
def statedDigests (rd : Reader) (k : Nat) : List Nat := (partSections rd k).map (·.digest)

/-- Part `k` is loaded from a bundle: its digests are held from now on (R393). -/
def holdPart (s : Blk) (bundle : Reader) (k : Nat) : Blk :=
  { s with heldDigests := s.heldDigests.put k (statedDigests (componentIn bundle (partComponent k)) k) }

/-- Hold the digests of every part of a bundle that starts (R393). -/
def holdAll (s : Blk) (bundle : Reader) : Blk := (List.range 41).foldl (fun s k => s.holdPart bundle k) { s with heldDigests := [] }

/-- A part can be read, and each of its sections has the digest held (R393). -/
def partGood (s : Blk) (k : Nat) (flashOk : Bool) : Bool :=
  (flashOk || s.ramParts.contains k) &&
    ((partSections (s.partReader k) k).map fun x => sha384 (sectionBytes (s.partReader k) x)) = s.heldDigests.get [] k

/-- A section that may have been loaded is in force: its digest (R380). -/
def noteLoaded (s : Blk) (k : Nat) (x : Option Section) : Blk := { s with loaded := s.loaded.put k (x.map (·.digest)) }

/-- Tile t's section is loaded from the running set, or the tile is left dark (R393). -/
def loadTile (s : Blk) (t : Nat) (flashOk : Bool) : Blk :=
  if s.partGood t flashOk then
    match findSection (s.partReader t) 0x03 t with
    | some x =>
      let s' := (s.noteLoaded t (some x)).applyWrites (sectionWrites (sectionBytes (s.partReader t) x))
      if t = 0 then s'.measure 2 (s.partReader t) else s'
    | none => s
  else (s.noteLoaded t none).raise .IMG_INT_reload_err 0

/-- Controller c's firmware is loaded from the running set and started, or the controller stays stopped (R393). -/
def loadMica (s : Blk) (c : Nat) (flashOk : Bool) (far : Nat → Bool) : Blk :=
  if s.partGood (micaPart c) flashOk then (s.ctrlRun c far).measure 1 (s.partReader (micaPart c))
  else s.raise .IMG_INT_reload_err 0

/-- The management firmware is loaded from the running set and answers, or it stays stopped (R393). -/
def loadMgmt (s : Blk) (flashOk : Bool) : Blk :=
  if s.partGood mgmtPart flashOk then (s.measure 0 (s.partReader mgmtPart)).fwStart
  else s.raise .IMG_INT_reload_err 0

/-- A test of the lanes named by a command's operand. -/
def farOf (far : List (TileId × LaneNo)) (k : Nat) : Bool := far.any fun (x : TileId × LaneNo) => 64 * x.1.val + x.2.val = k

/-! ### Tables (R379, R391, R414) -/

/-- An update record from its bytes (R103). -/
def recordOf (b : List Byte) : TblRecord :=
  { table := BitVec.ofNat 8 (beAt b 0 1), op := BitVec.ofNat 8 (beAt b 1 1), count := BitVec.ofNat 16 (beAt b 2 2),
    first := BitVec.ofNat 32 (beAt b 4 4), tag := BitVec.ofNat 32 (beAt b 12 4), body := b.drop 16 }

/-- The records of an image's TABLES section are applied; one that fails a check of R104, the lock apart, changes nothing. -/
def applyTables (s : Blk) (image : Reader) : Blk :=
  match findSection image 0x04 0xFF with
  | none => s
  | some x => (Config.sectionRecords (sectionBytes image x)).foldl (fun (s : Blk) (b : List Byte) =>
      let r := recordOf b
      if s.recordStatus .mgmtQueue r ≤ 1 then (s.applyEntries r 0 r.count.toNat).2.2 else s) s

/-- Copy die `e`'s share of a table of `stride` keys a die to die `d`. -/
def copyShare (t : Tab Nat) (stride e d : Nat) : Tab Nat :=
  (t.filter fun (kv : Nat × Nat) => kv.1 / stride = e).foldl (fun (t : Tab Nat) (kv : Nat × Nat) =>
    t.put (kv.1 % stride + d * stride) kv.2) (t.filter fun (kv : Nat × Nat) => kv.1 / stride ≠ d)

/-- A switched domain that has reached ON loads: a tile its TILE section, a die its Mica firmware (R423). -/
def loadOn (s : Blk) (n : Nat) (flashOk : Bool) : Blk :=
  if !s.imageRuns || !s.domOn n then s
  else if n < 32 then s.loadTile n flashOk
  else if 156 < n then
    (s.loadMica (2 * (n - 156)) flashOk fun _ => false).loadMica (2 * (n - 156) + 1) flashOk fun _ => false
  else s

/-- The die of a tile domain or a die management domain. -/
def loadDie (n : Nat) : Nat := if n < 32 then n / 8 else n - 156

/-- A switched domain loads, once the table copies of its die are back (R414, R423). -/
def loadAfterTables (s : Blk) (n : Nat) (flashOk : Bool) : Blk :=
  if s.tableLoads.contains (loadDie n) then { s with loadDue := s.loadDue ++ [(n, flashOk)] } else s.loadOn n flashOk

/-- The table copies of die d are back: the records and the loads that waited for them go on. -/
def loadWaiting (s : Blk) (d : Nat) : Blk :=
  tblResume <| (s.loadDue.filter fun x => loadDie x.1 = d).foldl (fun s x => s.loadOn x.1 x.2)
    { s with loadDue := s.loadDue.filter fun x => loadDie x.1 ≠ d, tableLoads := s.tableLoads.filter (· ≠ d) }

/-- The table copies of a die are loaded: from the lowest die that can serve, else from the running image (R414). -/
def reloadTables (s : Blk) (d : Nat) : Blk :=
  if !s.tableLoads.contains d || !s.domOn (156 + d) then s
  else
    let s := match s.tableSource d with
      | some e => { s with tables := copyShare s.tables 9437184 e d, groups := copyShare s.groups 4096 e d,
                           members := copyShare s.members 65536 e d }
      | none =>
        let built := if s.imageRuns then { s with tables := [] }.applyTables (s.partReader 0) else { s with tables := [] }
        { s with tables := (built.tables.filter fun (kv : Nat × Nat) => kv.1 / 9437184 = d).foldl
                   (fun (t : Tab Nat) (kv : Nat × Nat) => t.put kv.1 kv.2)
                   (s.tables.filter fun (kv : Nat × Nat) => kv.1 / 9437184 ≠ d) }
    s.loadWaiting d

end Sys2Proof.Machine.Blk

namespace Sys2Proof.Machine

/-- TABLE_COPY_RELOAD (R414). -/
def execTableCopyReload (die : DieId) (s : State) : Host.Outcome State Fault Refusal := run (fun b => b.reloadTables die.val) s

end Sys2Proof.Machine
end

