-- ==== Sys2Proof/Machine/Power.lean ====
section
/-!
DEFINITION. Power domains (R421 to R423), their stagger (R447), and the sleep states (R424, R425).
-/

namespace Sys2Proof.Machine

/-- The domains that a domain requires (R421); the always-on group apart. -/
def domNeeds (n : Nat) : List Nat :=
  if n < 32 then [156 + n / 8]
  else if n < 64 then [n - 32]
  else if n < 96 then [n - 64]
  else if n < 108 then [156 + (n - 96) / 3]
  else if n < 156 then let p := pairDies ((n - 108) / 8); [156 + p.1, 156 + p.2]
  else []

/-- The switched domains, each after those it requires. -/
def domUpOrder : List Nat :=
  ((List.range 4).map (156 + ·)) ++ ((List.range 12).map (96 + ·)) ++ ((List.range 48).map (108 + ·)) ++ List.range 96

/-- A sleep state leaves a domain on (R424). -/
def sleepKeeps (state n : Nat) : Bool :=
  match state with
  | 0 => true
  | 1 => n < 64 || 96 ≤ n
  | 2 => 156 ≤ n
  | _ => false

namespace Blk

/-- A domain's write in PWR_DOM_CTL as it stands. -/
def domAsked (s : Blk) (n : Nat) : Bool := s.flag .PWR_DOM_CTL_on n

/-- The domains that a domain requires are ON. -/
def needsOn (s : Blk) (n : Nat) : Bool := (domNeeds n).all fun m => s.domOn m

/-- A domain is under BIST, or requires the domain that is (R445). -/
def underTest (s : Blk) (n : Nat) : Bool :=
  match s.bist with
  | none => false
  | some m => n = m || (domNeeds n).contains m

/-! ### Power-down (R423) -/

/-- Registers of a domain are lost with its power; what shows the loops stays true. -/
def dropDomain (s : Blk) (kind : DomKind) (outer : Nat) : Blk :=
  s.dropRegs fun r i => r.info.dom == kind && r.outer i = outer && !showsLoops r

/-- The effects of a domain's power-down, by its kind (R423). -/
def darkDomain (s : Blk) (n : Nat) : Blk :=
  if n < 32 then
    let s := s.countLost (s.heldFrames (· = n) (fun _ => false) (fun _ => false) false)
    s.loseTile n
  else if n < 64 then (((List.range 32).foldl (fun s k => s.lightGone (32 * (n - 32) + k)) s).oeOff (n - 32)).dropDomain .oe (n - 32)
  else if n < 96 then ((s.loseEngine (n - 64) 0).dropDomain .garnet (n - 64)).showEngine (n - 64) 0
  else if n < 108 then s
  else if n < 156 then
    let l := n - 108
    let s := [0, 1].foldl (fun s b => if s.agIn l b .off then s else s.agFail l b) s
    (((s.setAg l 0 .off).setAg l 1 .off).relive (l / 8) 0).relive (l / 8) 1
  else
    let d := n - 156
    let s := ((s.loseCopies d).loseUpdates d).loseTables d
    let s := if d = 0 then s else (s.ctrlStop (2 * d)).ctrlStop (2 * d + 1)
    tblResume { (s.dropRegs fun r i => r.info.scope == .die && r.outer i = d && !showsRepair r).freshCounts d with
      tableLoads := s.tableLoads.filter (· ≠ d) }

/-- A domain goes OFF. -/
def powerOff (s : Blk) (n : Nat) : Blk :=
  if s.domState n = 0 then { s with powerQueue := s.powerQueue.filter (· ≠ n) }
  else ({ s with loadDue := s.loadDue.filter (·.1 ≠ n) }.darkDomain n).setDom n 0

/-- PWR_DOM_CTLn.on is written 0 (R422, R423, R445); the always-on group's bits are read-only. -/
def domDown (s : Blk) (n : Nat) : Blk :=
  if 160 ≤ n then s
  else if s.underTest n || ((List.range 160).any fun m => (domNeeds m).contains n && s.domState m ≠ 0) ||
      (64 ≤ n && n < 96 && s.domState n ≠ 0 && s.fld .GRN_STATUS_state (n - 64) ≠ 4) ||
      (108 ≤ n && n < 156 && !(s.agIn (n - 108) 0 .off && s.agIn (n - 108) 1 .off)) then s.raise .PWR_INT_dep_reject 0
  else (s.setFld .PWR_DOM_CTL_on n 0).powerOff n

/-! ### Power-up (R422, R423, R447) -/

/-- A domain waits for its turn. -/
def powerAsk (s : Blk) (n : Nat) : Blk :=
  if s.domState n = 0 && !s.powerQueue.contains n then { s with powerQueue := s.powerQueue ++ [n] } else s

/-- PWR_DOM_CTLn.on is written 1 (R422, R445). In a sleep state that holds the domain off it takes its turn on leaving. -/
def domUp (s : Blk) (n : Nat) : Blk :=
  if 160 ≤ n then s
  else if s.underTest n || !s.needsOn n then s.raise .PWR_INT_dep_reject 0
  else
    let s := s.setFld .PWR_DOM_CTL_on n 1
    if sleepKeeps (s.fld .PWR_SLEEP_target 0) n then s.powerAsk n else s

/-- The next domain asked for starts its ramp, no other being on its way (R422, R447): the first whose requirements are ON. -/
def powerTurn (s : Blk) : Blk :=
  if (List.range 160).any fun n => s.domState n = 2 then s
  else match s.powerQueue.find? fun n => s.needsOn n with
    | none => s
    | some n => { s with powerQueue := s.powerQueue.filter (· ≠ n) }.setDom n 2

/-- The effects of a domain that has reached ON (R423). -/
def lightDomain (s : Blk) (n : Nat) (flashOk : Bool) : Blk :=
  if n < 32 then
    (s.tileUnsync n).loadAfterTables n flashOk
  else if n < 64 then s.oeOn (n - 32)
  else if n < 96 then s.showEngine (n - 64) 3
  else if n < 108 then s
  else if n < 156 then (s.agStart (n - 108) 0).agStart (n - 108) 1
  else
    let d := n - 156
    ((s.freshCounts d).needTables d).loadAfterTables n flashOk

/-- A powering domain reaches ON. -/
def domReady (s : Blk) (n : Nat) (flashOk : Bool) : Blk := if s.domState n = 2 then (s.setDom n 1).lightDomain n flashOk else s

/-! ### Cells of a slice that is off (R423) -/

/-- Cells of tile t's slice still owned 10 ms after its power-down are discarded with their frames. What a frame already sent needs for
its replay stays (DESIGN CHOICE, log entry 181). -/
def sliceDiscard (s : Blk) (t : Nat) : Blk :=
  if s.domState t ≠ 0 then s
  else (s.copies.filter fun kv => kv.1 % 4 = t / 8 && kv.2.cells.any fun n => n / 65536 = t % 8).foldl (fun s kv =>
    (s.countLost [kv.1 / 4]).cutCells kv.1) s

/-! ### Sleep (R424, R425) -/

/-- A mirror, a drain or a gateway job is active (R425). -/
def ckpActive (s : Blk) : Bool :=
  (s.shards.any fun (kv : Nat × ShardRec) => kv.2.mpos.isSome || kv.2.drainRuns) ||
  s.gateways.any fun (kv : Nat × GwRec) => kv.2.jobs ≠ [] || kv.2.running.isSome

/-- A sleep write is ignored (R425). -/
def sleepRefused (s : Blk) (target : Nat) : Bool :=
  s.flag .PWR_SLEEP_busy 0 || (target ≠ 0 && s.fld .COL_STATUS_open 0 ≠ 0) ||
  (2 ≤ target && (s.flag .COL_CTL_en 0 || s.flag .GNS_CTL_en 0 || s.ckpActive))

/-- S1 writes ka_req on every link that has settled keepalive, and notes where it did (R424). -/
def sleepAskKa (s : Blk) : Blk :=
  (List.range 1024).foldl (fun s l =>
    if s.flag .TIL_LNK_STATUS_ka_cap l && !s.flag .TIL_LNK_CTL_ka_req l then
      { (s.setFld .TIL_LNK_CTL_ka_req l 1).askKeepalive l with sleepKa := s.sleepKa ++ [l] }
    else s) s

/-- Leaving S1, ka_req is cleared where S1 wrote it (R424). -/
def sleepEndKa (s : Blk) : Blk :=
  s.sleepKa.foldl (fun s l => (s.setFld .TIL_LNK_CTL_ka_req l 0).wakeLink l) { s with sleepKa := [] }

/-- PWR_SLEEP.target is written (R424, R425). For S1 the engines are quarantined now and powered down at the end; for S2 and
S3 domains go OFF now, each after those that require it. -/
def sleepWrite (s : Blk) (target : Nat) : Blk :=
  if s.sleepRefused target then s.raise .PWR_INT_sleep_reject 0
  else if target = s.fld .PWR_SLEEP_state 0 then s.setFld .PWR_SLEEP_target 0 target
  else
    let s := (s.setFld .PWR_SLEEP_target 0 target).setFld .PWR_SLEEP_busy 0 1
    let s := if target = 1 then s else s.sleepEndKa
    let s := if target = 1 then ((List.range 32).foldl (fun s t => s.quarantine t) s).sleepAskKa
      else domUpOrder.reverse.foldl (fun s n => if sleepKeeps target n then s else s.powerOff n) s
    domUpOrder.foldl (fun s n => if sleepKeeps target n && s.domAsked n then s.powerAsk n else s) s

/-- A transition completes: for S1 the engines, evacuated, go OFF; domains that come back are all ON (R424, R425). -/
def sleepEnd (s : Blk) : Blk :=
  let target := s.fld .PWR_SLEEP_target 0
  if !s.flag .PWR_SLEEP_busy 0 || s.powerQueue ≠ [] || (List.range 160).any (fun n => s.domState n = 2) then s
  else
    let s := if target = 1 then (List.range 32).foldl (fun s t => (s.evacuate t).powerOff (64 + t)) s else s
    ((s.setFld .PWR_SLEEP_busy 0 0).setFld .PWR_SLEEP_state 0 target).raise .PWR_INT_sleep_done 0

end Blk

open Blk

/-! ### Meanings of the power rows -/

/-- DOMAIN_POWER_UP (R422). -/
def execDomainPowerUp (domain : DomainId) (s : State) : Host.Outcome State Fault Refusal := run (fun b => b.domUp domain.val) s
/-- DOMAIN_POWER_DOWN (R422, R423). -/
def execDomainPowerDown (domain : DomainId) (s : State) : Host.Outcome State Fault Refusal := run (fun b => b.domDown domain.val) s
/-- POWER_UP_TURN (R447). -/
def execPowerUpTurn (s : State) : Host.Outcome State Fault Refusal := run Blk.powerTurn s
/-- DOMAIN_ON (R423). -/
def execDomainOn (domain : DomainId) (flashOk : Bool) (s : State) : Host.Outcome State Fault Refusal :=
  run (fun b => b.domReady domain.val flashOk) s
/-- TILE_CELL_DISCARD (R423). -/
def execTileCellDiscard (tile : TileId) (s : State) : Host.Outcome State Fault Refusal := run (fun b => b.sliceDiscard tile.val) s
/-- SLEEP_REQUEST (R424, R425). -/
def execSleepRequest (target : BitVec 2) (s : State) : Host.Outcome State Fault Refusal := run (fun b => b.sleepWrite target.toNat) s
/-- SLEEP_DONE (R424, R425). -/
def execSleepDone (s : State) : Host.Outcome State Fault Refusal := run Blk.sleepEnd s

end Sys2Proof.Machine
end

