-- ==== Sys2Proof/Machine/Obsidian.lean ====
section
/-!
DEFINITION. Obsidian (R432 to R446): the life cycle, its commands and the fuses they program, attestation, BIST and repair, scan
entry; and the scrubbers (R450, R451).
-/

namespace Sys2Proof.Machine

/-- The outcome of a command that reads or programs fuses. -/
def runF (f : Blk → Fuses → Blk × Fuses) (s : State) : Host.Outcome State Fault Refusal :=
  let (b, fz) := f s.blk s.fuses
  .next { s with blk := b, fuses := fz }

/-- The outcome of a command that reads the fuses and programs none. -/
def runR (f : Fuses → Blk → Blk) (s : State) : Host.Outcome State Fault Refusal := .next { s with blk := f s.fuses s.blk }

/-! ### Fuses -/

/-- A record is written to a bank (R436): to the first of its two banks that holds no uncommitted record. A read-back failure
leaves that bank spoiled. -/
def Fuses.spoil (fz : Fuses) (key : Nat) : Fuses := { fz with spoiled := fz.spoiled.set 0 key (fz.spoiled.get 0 key + 1) }

/-- A record has a bank left. -/
def Fuses.hasBank (fz : Fuses) (key : Nat) : Bool := fz.spoiled.get 0 key < 2

/-- A record with a spare bank is written whole, as `commit` does, or fails its read-back (R436). -/
def Fuses.record (fz : Fuses) (key : Nat) (fails : Bool) (commit : Fuses → Fuses) : Bool × Fuses :=
  if !fz.hasBank key then (false, fz) else if fails then (false, fz.spoil key) else (true, commit fz)

/-- Slot `k` is programmed. -/
def Fuses.programmed (fz : Fuses) (k : Nat) : Bool := (fz.keys.find k).isSome

/-- Slots 0 to 4 that are programmed, as bits. -/
def Fuses.slots (fz : Fuses) : Nat := (List.range 5).foldl (fun w k => if fz.programmed k then w + 2 ^ k else w) 0

namespace Blk

/-- Show the fuses in the Obsidian registers, the reset map and the life-cycle state (R432, R459). -/
def showFuses (s : Blk) (fz : Fuses) : Blk :=
  let s := (s.setFld .OBS_LC_state 0 fz.lc).setFld .OBS_LC_dbg_open 0 (if fz.lc ≤ 1 || fz.lc = 4 then 1 else 0)
  let s := (s.setFld .OBS_KEY_STATUS_programmed 0 fz.slots).setFld .OBS_KEY_STATUS_revoked 0 fz.revoked
  let s := (List.range 3).foldl (fun s c => s.setFld .OBS_SVN_MIN_min c (fz.svn.getD c 0)) s
  s.setFld .OBS_REPAIR_fused 0 fz.repairs

/-- OBS_REPAIR.pending follows the soft repairs of SRAM, which are those that fuses take (R446). -/
def showRepairs (s : Blk) : Blk := s.setFld .OBS_REPAIR_pending 0 (min 4095 s.softSram)

/-- A fresh nonce (R437). -/
def renewNonce (s : Blk) : Blk :=
  (List.range 12).foldl (fun s w => let (v, s) := s.free 32; s.setFld .OBS_NONCE_nonce w v) s

/-! ### Commands (R434, R435) -/

/-- The command data. -/
def obsData (s : Blk) : List Byte := (List.range 64).flatMap fun i => beBytes 4 (s.fld .OBS_CMD_DATA_data i)

/-- Write the first bytes of the command data. -/
def putObsData (s : Blk) (bytes : List Byte) : Blk :=
  let all := bytes ++ s.obsData.drop bytes.length
  (List.range 64).foldl (fun s i => s.setFld .OBS_CMD_DATA_data i (beAt all (4 * i) 4)) s

/-- The life-cycle states in which a command is listed (R434). -/
def obsStates : Nat → List Nat
  | 1 => [0, 1, 2]
  | 2 => [3]
  | 3 => [0, 1, 2]
  | 4 => [2, 3]
  | 5 => [2, 3]
  | 6 => [0, 1, 2]
  | 7 => [1, 2, 3, 4]
  | 8 => [2, 3]
  | _ => [0, 1, 2, 3, 4]

/-- A command changes fuses (R433). -/
def changesFuses (op : Nat) : Bool := 1 ≤ op && op ≤ 7

/-- The first of the checks that hold for every command: STATE, PATH, and the refusal after a FATAL error (R433, R434, R454), which
ends with NOT_READY. -/
def obsCheck (s : Blk) (fz : Fuses) (op : Nat) (path : Path) : Nat :=
  if !(obsStates op).contains fz.lc then 2
  else if changesFuses op && (fz.lc = 2 || fz.lc = 3) && path ≠ .mgmt then 3
  else if s.obsRefuses && (changesFuses op || op = 8) then 0x0D
  else 0

/-- The running command of OBS_CMD, where its op is `op` and no thermal trip has taken over from it (R520), passes the common checks and has its effect: `f` gives its result. A
FUSE_ERR sets fuse_err (R436). -/
def obsRun (op : Nat) (f : Nat → Blk → Fuses → Nat × Blk × Fuses) (s : Blk) (fz : Fuses) : Blk × Fuses :=
  match s.obsCmd with
  | none => (s, fz)
  | some (o, index, path) =>
    if s.tripped || o ≠ op then (s, fz)
    else
      let c := s.obsCheck fz op path
      let (r, s, fz) := if c ≠ 0 then (c, s, fz) else f index s fz
      let s := if r = 0x0A then s.raise .OBS_INT_fuse_err 0 else s
      (s.obsEnd r, fz)

/-- LC_ADVANCE (R432, R434, R436). -/
def lcAdvance (failAt : Option Nat) (_ : Nat) (s : Blk) (fz : Fuses) : Nat × Blk × Fuses :=
  let target := beAt s.obsData 0 1
  if target ≠ fz.lc + 1 then (4, s, fz)
  else if fz.lc = 1 && fz.slots % 16 = 0 then (0x0D, s, fz)
  else
    let secret := fz.lc = 1 && fz.secret.isNone
    if secret && failAt = some 0 then (0x0A, s, fz)
    else
      let fz' := if secret then { fz with secret := some s.fresh } else fz
      let s := if secret then { s with fresh := s.fresh + 1 } else s
      let (ok, fz') := fz'.record (16 + fz.lc) (failAt = some (if secret then 1 else 0)) fun f => { f with lc := f.lc + 1 }
      (if ok then 0 else 0x0A, s.showFuses fz', fz')

/-- KEY_SET (R434). -/
def keySet (failAt : Option Nat) (index : Nat) (s : Blk) (fz : Fuses) : Nat × Blk × Fuses :=
  if 4 < index then (4, s, fz)
  else if fz.programmed index then (5, s, fz)
  else
    let (ok, fz') := fz.record index (failAt = some 0) fun f => { f with keys := f.keys.put index (beAt s.obsData 0 48) }
    (if ok then 0 else 0x0A, s.showFuses fz', fz')

/-- The containers of a bundle: itself and those in it. -/
def bundleContainers (rd : Reader) : List Reader := rd :: (List.range 3).map (componentIn rd)

/-- The containers that KEY_REVOKE and SVN_RAISE look at: those of the conf_slot bundle, of the slot that the record in force
names, and of the running set (R434). -/
def keptContainers (s : Blk) (named : Bool) : List Reader :=
  (match s.recordInForce with
   | some b => bundleContainers (s.slotReader (recConf b)) ++ (if named then bundleContainers (s.slotReader (recSlot b)) else [])
   | none => []) ++
  (if s.heldDigests = [] then [] else (List.range 41).map s.partReader)

/-- KEY_REVOKE (R434). -/
def keyRevoke (failAt : Option Nat) (index : Nat) (s : Blk) (fz : Fuses) : Nat × Blk × Fuses :=
  if 3 < index || !fz.programmed index || fz.revoked.testBit index then (4, s, fz)
  else if !((List.range 4).any fun k => k ≠ index && fz.programmed k && !fz.revoked.testBit k) then (6, s, fz)
  else if (s.keptContainers true).any fun rd => rdNat rd 44 1 = index then (5, s, fz)
  else if failAt = some 0 then (0x0A, s, fz)
  else
    let fz' := { fz with revoked := fz.revoked ||| 2 ^ index }
    (0, s.showFuses fz', fz')

/-- SVN_RAISE (R434): a thermometer of fuses, so a failed step leaves the steps before it (R436). -/
def svnRaise (failAt : Option Nat) (index : Nat) (s : Blk) (fz : Fuses) : Nat × Blk × Fuses :=
  let now_ := fz.svn.getD index 0
  let want := beAt s.obsData 0 4
  if 2 < index || want ≤ now_ || 64 < want then (4, s, fz)
  else if (s.keptContainers false).any fun rd => kindOf rd = index + 1 && rdNat rd 20 4 < want then (5, s, fz)
  else
    let steps := match failAt with
      | some k => min k (want - now_)
      | none => want - now_
    let fz' := { fz with svn := fz.svn.set index (now_ + steps) }
    (if steps = want - now_ then 0 else 0x0A, s.showFuses fz', fz')

/-- RSTMAP_SET (R434): R403 applies the entry at the next start. -/
def rstmapSet (failAt : Option Nat) (index : Nat) (s : Blk) (fz : Fuses) : Nat × Blk × Fuses :=
  let level := beAt s.obsData 0 1 % 8
  if 7 < index || (fz.levels.find index).isSome || 4 < level then (4, s, fz)
  else
    let (ok, fz') := fz.record (32 + index) (failAt = some 0) fun f => { f with levels := f.levels.put index level }
    (if ok then 0 else 0x0A, s, fz')

/-- REPAIR_FUSE (R434, R446): entries are fused in order until one fails or the space is used up; then every HBM repair is made
hard. -/
def repairFuse (failAt : Option Nat) (_ : Nat) (s : Blk) (fz : Fuses) : Nat × Blk × Fuses :=
  let room := min s.softSram (2048 - fz.repairs)
  let done := match failAt with
    | some k => min k room
    | none => room
  let fz' := { fz with repairs := fz.repairs + done }
  let s := { s with softSram := s.softSram - done }
  let s := (s.showRepairs).showFuses fz'
  if done < room then (0x0A, s, fz')
  else if 0 < s.softSram then (9, s, fz')
  else (0, { s with softHbm := 0 }, fz')

/-- ATTEST (R441); from scan entry on the secret is not sensed (R440). -/
def attest (_ : Nat) (s : Blk) (fz : Fuses) : Nat × Blk × Fuses :=
  match fz.secret, fz.destroyed with
  | some k, false =>
    if s.flag .OBS_LC_scan 0 then (0x0E, s, fz) else
    let meas := (List.range 36).flatMap fun w => beBytes 4 (s.fld .OBS_MEAS_hash w)
    let msg := s.obsData.take 48 ++ beBytes 8 (s.fld .OBS_DEV_ID_id 0) ++ beBytes 1 (s.fld .OBS_LC_state 0) ++ meas ++
      beBytes 4 (s.fld .IMG_TILE_SRC_src 0)
    let (v, s) := s.free 384
    let d := Config.deviceKey k
    let sig := ecdsaSign d v (sha384 msg)
    let key := publicKey d
    (0, s.putObsData (beBytes 48 sig.1 ++ beBytes 48 sig.2 ++ beBytes 1 4 ++ beBytes 48 key.1 ++ beBytes 48 key.2), fz)
  | _, _ => (0x0E, s, fz)

/-! ### Zeroing (R439, R440) -/

/-- Zero is written to every line of the stacks that a test names. -/
def zeroHbm (s : Blk) (stack : Nat → Bool) : Blk :=
  { s with
    hbm := s.hbm.filter fun (kv : Nat × Byte) => !stack (lineStack (kv.1 / 256))
    lineMeta := s.lineMeta.filterMap fun (kv : Nat × LineMeta) =>
      if stack (lineStack kv.1) then
        (if kv.2.retired then some (kv.1, { LineMeta.reset with poison := true, retired := true }) else none)
      else some kv }

/-- Zero is written to every SRAM: the tables, the buffers and what lies in them, the kept marks, the stages of a download, and the
memory of the management cores. -/
def zeroSram (s : Blk) : Blk :=
  let s := s.frames.keys.foldl (fun s f => s.cutShortFrame f none) s
  let s := (List.range 4).foldl (fun s d => s.loseCopies d) s
  let s := (List.range 32).foldl (fun s t => if s.domOn (64 + t) then s.loseEngine t (s.fld .GRN_STATUS_state t) else s) s
  { s with
    tables := [], groups := [], members := [], learn := [], frames := [], copies := [], updates := [], hot := [], requests := [],
    memWait := [], ordWait := [], regions := [], gateways := [], shards := [], sweeps := [], restores := [], replays := [],
    journal := [], contexts := [], window := [], ramStage := [], hostRx := [], hostTx := [], txts := [], trcBuf := [],
    cplWait := [], cplHeld := [], servo := .reset, timeCfg := .reset, mbxReqs := [], mbxEvents := [],
    tblWaits := [], uart := { s.uart with reqs := [], last := none },
    streams := s.streams.mapV ⟨[], [], none⟩ fun _ (r : StreamRec) => { r with waiting := [], marks := [] } }

/-- RMA_UNLOCK (R438, R439): the nonce is renewed whatever the result (R437). -/
def rmaUnlock (failAt : Option Nat) (_ : Nat) (s : Blk) (fz : Fuses) : Nat × Blk × Fuses :=
  let d := s.obsData
  let key := d.take 97
  let nonce := (List.range 12).flatMap fun w => beBytes 4 (s.fld .OBS_NONCE_nonce w)
  let msg := nonce ++ beBytes 8 (s.fld .OBS_DEV_ID_id 0) ++ [0x52, 0x4D, 0x41]
  if s.fld .IMG_BOOT_phase 0 ≠ 3 then (0x0D, s, fz)
  else if fz.keys.find 4 ≠ some (sha384 key) then (7, s, fz)
  else if beAt key 0 1 ≠ 4 || !ecdsaOk (beAt d 1 48, beAt d 49 48) (sha384 msg) (beAt d 104 48) (beAt d 152 48) then (8, s, fz)
  else
    let s := (s.zeroHbm fun h => s.domOn (96 + h)).zeroSram
    if failAt = some 0 then (0x0A, s, fz)
    else
      let fz := { fz with destroyed := true }
      let (ok, fz') := fz.record (16 + fz.lc) (failAt = some 1) fun f => { f with lc := 4 }
      (if ok then 0 else 0x0A, s.showFuses fz', fz')

/-- RMA_UNLOCK as it runs. -/
def rmaRun (failAt : Option Nat) (s : Blk) (fz : Fuses) : Blk × Fuses :=
  match s.obsCmd with
  | some (2, _, _) =>
    if s.tripped then (s, fz)
    else
      let (s, fz) := obsRun 2 (rmaUnlock failAt) s fz
      (s.renewNonce, fz)
  | _ => (s, fz)

/-! ### BIST (R443 to R446) -/

/-- A valid region holds a store block on stack `h`. -/
def stackHeld (s : Blk) (h : Nat) : Bool :=
  s.regions.any fun (kv : Nat × RegionRec) =>
    kv.2.valid && (List.range (min 12 kv.2.blocks)).any fun k => (kv.2.base + k) % 12 = h

/-- What BIST of a domain finds before it runs: 0, BAD_ARG, or NOT_READY (R443). -/
def bistCheck (s : Blk) (n : Nat) : Nat :=
  let ready := fun (b : Bool) => if b then 0 else 0x0D
  if n < 32 then
    ready (s.domState (32 + n) = 0 && s.domState (64 + n) = 0 && (List.range 32).all fun k => !s.flag .TIL_LNK_CTL_lnk_en (32 * n + k))
  else if n < 64 then 4
  else if n < 96 then ready (s.fld .GRN_STATUS_state (n - 64) = 4)
  else if n < 108 then ready (s.domOn n && !s.stackHeld (n - 96))
  else if 156 ≤ n && n < 160 then ready ((List.range 160).all fun m => !(domNeeds m).contains n || s.domState m = 0)
  else 4

/-- BIST of a domain starts (R443): what it holds is gone, and it is out of service. -/
def bistStart (s : Blk) (n : Nat) : Blk :=
  let s := { s with bist := some n }
  if n < 32 then s.powerOff n
  else if n < 96 then (s.loseEngine (n - 64) 4).setDom n 3
  else if n < 108 then s.setDom n 3
  else ({ s with loadDue := s.loadDue.filter (·.1 ≠ n) }.darkDomain n).setDom n 3

/-- Repairs found, and cells retired on a die; beyond 16,384 of them a record is written (R446). -/
def addRepairs (s : Blk) (sram hbm retired d : Nat) : Blk :=
  let was := s.fld .BSL_REPAIRED_count d
  let s := { s with softSram := s.softSram + sram, softHbm := s.softHbm + hbm }.showRepairs
  let s := s.setFld .BSL_REPAIRED_count d (was + retired)
  if was ≤ 16384 && 16384 < was + retired then
    let (b, s) := s.free 8
    let (c, s) := s.free 16
    s.reportError (.repairShort (b % 20 + 1) c d)
  else s

/-- Rows of stack `h`, given by their store lines, are retired: their lines are poisoned for good, and the rows counted (R446). -/
def retireRows (s : Blk) (h : Nat) (rows : List (List Nat)) : Blk :=
  rows.foldl (fun s row =>
    let s := (row.filter fun x => lineStack x = h).foldl (fun s x =>
      (if (s.meta_ x).poison then s else s.count .GNS_POISONED_count 0 1).putMeta x { LineMeta.reset with poison := true, retired := true }) s
    s.setFld .OBS_REPAIR_hbm_retired 0 (min 255 (s.fld .OBS_REPAIR_hbm_retired 0 + 1))) s

/-- The die of a domain. -/
def domDie (n : Nat) : Nat := if n < 96 then n % 32 / 8 else if n < 108 then (n - 96) / 3 else n - 156

/-- The domain under BIST has passed (R443): a tile goes ON, whatever its state before; a domain that a sleep state has powered down
meanwhile, and a tile that it holds off, stay OFF. -/
def bistPass (s : Blk) (n : Nat) (flashOk : Bool) : Blk :=
  if n < 32 then (if sleepKeeps (s.fld .PWR_SLEEP_target 0) n then (s.setDom n 1).lightDomain n flashOk else s)
  else if s.domState n ≠ 3 then s
  else if n < 108 then s.setDom n 1
  else (s.setDom n 1).lightDomain n flashOk

/-- The domain under BIST has failed: it is powered down, and reported (R443). -/
def bistFail (s : Blk) (n : Nat) : Blk :=
  let s := ((s.powerOff n).setFld .PWR_DOM_CTL_on n 0).raise .OBS_INT_bist_fail 0
  let (b, s) := s.free 8
  let (c, s) := s.free 16
  s.reportError (.bistFail (b % 20 + 1) c (n < 96) (if n < 96 then n % 32 else domDie n))

/-- BIST ends. One that could not start ends with what stopped it. A tile's repairs the rows queued for it (R454). -/
def bistRun (found : BistFindings) (n : Nat) (s : Blk) : Nat × Blk :=
  let c := if s.bist = some n then 0 else s.bistCheck n
  if c ≠ 0 then (c, s)
  else
    let s := if s.bist = some n then s else s.bistStart n
    let mine := fun (x : Nat × Nat) => n < 32 && x.1 = n / 8 && x.2 / 2048 = n % 8
    let due := (s.rowsDue.filter mine).length
    let s := { s with rowsDue := s.rowsDue.filter (!mine ·) }.addRepairs (found.softSram + due) found.softHbm (if n < 32 then found.retired else 0) (domDie n)
    let s := if 96 ≤ n && n < 108 then (s.zeroHbm (· = n - 96)).retireRows (n - 96) found.rows else s
    if found.pass then (0, s.bistPass n found.flashOk) else (0x0C, s.bistFail n)

/-- OBS_CMD is written (R434, R435): ignored while a command runs; an op that names no command ends at once, and BIST begins. -/
def obsWrite (s : Blk) (path : Path) (op index : Nat) : Blk :=
  if s.flag .OBS_CMD_STATUS_busy 0 then s.raise .OBS_INT_cmd_reject 0
  else
    let s := { s with obsCmd := some (op, index, path) }.setFld .OBS_CMD_STATUS_busy 0 1
    if op = 0 || 9 < op then s.obsEnd 1
    else if op = 9 && s.bistCheck index = 0 then s.bistStart index
    else s

/-! ### Scan (R440) -/

/-- The scan-entry instruction, in the states that allow it (R433, R440): every SRAM is zeroed, and the device is out of service
until a power-on reset; Obsidian's hash state is zeroed with them. DESIGN CHOICE, log entry 158: it stands as in a reset of the whole device that nothing but POWER_ON ends. -/
def scanEntry (s : Blk) : Blk :=
  let r : ResetRun := ⟨0, 0, 0, false, s.now, false⟩
  let s := (List.range 32).foldl (fun s t => s.loseTile t) s.zeroSram
  let s := (List.range 36).foldl (fun s w => s.setFld .OBS_MEAS_hash w 0) s
  ({ s with resets := [r], loadDue := [], startDue := false }.setFld .OBS_LC_scan 0 1).showHeld r

/-! ### Scrubbers (R450, R451, R454) -/

/-- A scrubbed word is corrected: recorded by its owner (R450, R454). -/
def scrubCorrected (s : Blk) (w : SramWord) : Blk :=
  match w with
  | .basalt d cell _ => s.reportError (.sramSingle 0x03 d.val cell.val)
  | .staging fid => s.reportError (.sramSingle 0x01 ((s.frame? fid).map FrameRec.tile |>.getD 0) 0)
  | .scratch t line =>
    ((s.count .GRN_SCR_CORR_count t.val 1).raise .GRN_INT_scr_corr t.val).reportError (.sramSingle 0x05 t.val line)
  | .table d _ e => s.reportError (.sramSingle 0x10 d.val e.toNat)
  | .group d e => s.reportError (.sramSingle 0x10 d.val e.toNat)
  | .member d e => s.reportError (.sramSingle 0x10 d.val e.toNat)
  | .mgmt => s.reportError (.sramSingle 0x0F 0 0)
  | .alwaysOn => s.reportError (.sramSingle 0x13 0 0)
  | .other b i => s.reportError (.sramSingle (b.val + 1) i.toNat 0)

/-- The open chunk or audit copy whose lanes a scratch line holds: which, is a free value; the last value says none. -/
def chunkOfLine (s : Blk) (t : Nat) : Option ChunkRec × Blk :=
  let cs := ((s.engine t).chunks ++ (s.engine t).copies).filter fun c => c.status = 0 && !c.spilled
  let (k, s) := s.free 14
  (cs[k % (cs.length + 1)]?, s)

/-- A scrubbed word cannot be corrected (R213, R454). -/
def scrubLost (s : Blk) (w : SramWord) : Blk :=
  match w with
  | .basalt d cell frame =>
    let s := match frame with
      | none => s
      | some f => match s.copy? (4 * f + d.val) with
        | some c => s.putCopy (4 * f + d.val) { c with lost := true }
        | none => s
    let s := { s with rowsDue := (s.rowsDue ++ [(d.val, cell.val / 32)]).dedup }
    s.reportError (.basaltDoubleBit d.val cell.val)
  | .staging fid =>
    match s.frame? fid with
    | none => s
    | some r => ((s.count .TIL_CHK_FAIL_IN_count r.tile 1).dropStaged fid).reportError (.stagingDoubleBit r.tile 0)
  | .scratch t line =>
    let (c, s) := s.chunkOfLine t.val
    let s := match c with
      | some c =>
        (if (s.chunkAt t.val c.id).isSome then s.failChunk t.val c 2 else s.loseCopy t.val c.id).raise .GRN_INT_scr_uncorr t.val
      | none => s.raise .GRN_INT_scr_uncorr t.val
    s.reportError (.scratchDoubleBit t.val line)
  | .table _ _ _ => s.lookupLost w
  | .group _ _ => s.lookupLost w
  | .member _ _ => s.lookupLost w
  | .mgmt => s.reportError .mgmtMemory
  | .alwaysOn => s.reportError .alwaysOn
  | .other _ _ => s

/-- The scrubber reads a word (R450). -/
def sramScrub (s : Blk) (w : SramWord) (found : WordFinding) : Blk :=
  match found with
  | .clean => s
  | .corrected => s.scrubCorrected w
  | .uncorrectable => s.scrubLost w

/-- The other copy of a store line of a duplicated region (R258). -/
def dupPartner (s : Blk) (x : Nat) : Option Nat :=
  let b := x / 16
  match s.regions.find? fun (kv : Nat × RegionRec) => kv.2.valid && kv.2.dup && kv.2.base ≤ b && b < kv.2.base + kv.2.blocks with
  | none => none
  | some kv => some (if (b - kv.2.base) % 12 < 6 then x + 96 else x - 96)

/-- A store line, or the other copy of it, stands in the hot-line buffer: from its first pending update to the last (R273). -/
def hotLine (s : Blk) (x : Nat) : Bool :=
  let held := fun (y : Nat) => (s.hot.find y).isSome || (List.range 4).any fun d => (s.updQueue d).any fun e => e.store = y
  held x || (s.dupPartner x).any held

/-- The patrol scrub reads a line (R451), but for one that the hot-line buffer holds (R452). -/
def patrol (s : Blk) (x : Nat) (found : WordFinding) : Blk :=
  let h := lineStack x
  if !s.flag .GNS_SCRUB_CTL_en 0 || !s.stackUp h || s.hotLine x then s
  else match found with
  | .clean => s
  | .corrected => (s.count .GNS_HBM_CE_count 0 1).reportError (.hbmCorrected h (lineAddr x))
  | .uncorrectable =>
    let s := (s.putMeta x { s.meta_ x with poison := true }).count .GNS_POISONED_count 0 1
    let good := match s.dupPartner x with
      | none => none
      | some y => if s.liveLine y && !(s.meta_ y).poison then some y else none
    match good with
    | some y => s.repairLine [x, y]
    | none => s.reportError (.hbmLost h (lineAddr x))

end Blk

open Blk

/-! ### Meanings of the Obsidian rows -/

/-- LC_ADVANCE (R432, R434). -/
def execLcAdvance (failAt : Option Nat) (s : State) : Host.Outcome State Fault Refusal := runF (obsRun 1 (lcAdvance failAt)) s
/-- RMA_UNLOCK (R438, R439). -/
def execRmaUnlock (failAt : Option Nat) (s : State) : Host.Outcome State Fault Refusal := runF (rmaRun failAt) s
/-- KEY_SET (R434). -/
def execKeySet (failAt : Option Nat) (s : State) : Host.Outcome State Fault Refusal := runF (obsRun 3 (keySet failAt)) s
/-- KEY_REVOKE (R434). -/
def execKeyRevoke (failAt : Option Nat) (s : State) : Host.Outcome State Fault Refusal := runF (obsRun 4 (keyRevoke failAt)) s
/-- SVN_RAISE (R434, R436). -/
def execSvnRaise (failAt : Option Nat) (s : State) : Host.Outcome State Fault Refusal := runF (obsRun 5 (svnRaise failAt)) s
/-- RSTMAP_SET (R434). -/
def execRstmapSet (failAt : Option Nat) (s : State) : Host.Outcome State Fault Refusal := runF (obsRun 6 (rstmapSet failAt)) s
/-- REPAIR_FUSE (R446). -/
def execRepairFuse (failAt : Option Nat) (s : State) : Host.Outcome State Fault Refusal := runF (obsRun 7 (repairFuse failAt)) s
/-- ATTEST (R441). -/
def execAttest (s : State) : Host.Outcome State Fault Refusal := runF (obsRun 8 attest) s
/-- BIST (R443). -/
def execBist (found : BistFindings) (s : State) : Host.Outcome State Fault Refusal :=
  runR (fun fz b => (obsRun 9 (fun n b fz => let (r, b) := bistRun found n b; (r, b, fz)) b fz).1) s
/-- SRAM_SCRUB (R450). -/
def execSramScrub (word : SramWord) (found : WordFinding) (s : State) : Host.Outcome State Fault Refusal :=
  run (fun b => b.sramScrub word found) s
/-- PATROL_SCRUB (R451). -/
def execPatrolScrub (line : Fin 2415919104) (found : WordFinding) (s : State) : Host.Outcome State Fault Refusal :=
  run (fun b => b.patrol line.val found) s

end Sys2Proof.Machine
end

