-- ==== Sys2Proof/Machine/Images.lean ====
section
/-!
DEFINITION. The image controller (R388 to R399): the boot ROM's start, recovery mode, the load of a bundle, the reload after
narrower resets, the commands of IMG_CMD, tile loads and rolls.
-/

namespace Sys2Proof.Machine.Blk

/-! ### The start (R388 to R392, R419, R442) -/

/-- What a start makes anew: fuses sensed, the nonce, what a FATAL record held back, the numbers of the recovery framing; after a cold reset the repairs that
memory BIST finds, and the domains that it fails, which go OFF after those that require them (R403, R432, R437, R442, R446, R454, R496). -/
def startSense (s : Blk) (fz : Fuses) (found : ReloadFindings) : Blk :=
  let s := ((s.showFuses fz).setFld .RSTC_MAP_levels 0 (mapWord fz)).setFld .OBS_DEV_ID_id 0 fz.devId
  let s : Blk :=
    { s.renewNonce with
      startDue := false, obsRefuses := false, fatal := false, ramParts := [], heldDigests := [],
      uart := ⟨0, 0, 0, [], none⟩ }
  let s := if found.senseErr then s.reportError .alwaysOn else s
  if s.coldStart then
    let s := { s with coldStart := false, softSram := found.softSram, softHbm := found.softHbm }.showRepairs
    let s := (List.range 4).foldl (fun s d => (s.addRepairs 0 0 (found.retired.getD d 0) d).freshCounts d) s
    let failed := fun (n : Nat) => n < 160 && found.failed.any fun d => d.val = n
    domUpOrder.reverse.foldl (fun s n =>
      if failed n then s.bistFail n
      else if (domNeeds n).any fun m => failed m || (domNeeds m).any failed then s.powerOff n else s) s
  else s

/-- IMG_BOOT is rewritten: phase, failed pair and error, and the record in force (R401). -/
def bootWord (s : Blk) (phase pair err : Nat) (reverted : Bool) (slot : Nat) : Blk :=
  let s := (((s.setFld .IMG_BOOT_phase 0 phase).setFld .IMG_BOOT_boot_pair 0 pair).setFld .IMG_BOOT_boot_err 0 err).mirrorRecord
  let s := (s.setFld .IMG_BOOT_reverted 0 (if reverted then 1 else 0)).setFld .IMG_BOOT_slot 0 slot
  (s.setFld .IMG_BOOT_mgmt_slot 0 0).setFld .IMG_BOOT_mica_src 0 0

/-- A start ends in recovery mode (R389, R392, R419): the recovery monitor answers. `counts`: the start is one that counts. -/
def enterRecovery (s : Blk) (pair err : Nat) (reverted counts : Bool) (slot : Nat) : Blk :=
  let s := s.bootWord 3 pair err reverted slot
  (if counts then s.failStart else s).fwStart

/-- The error of boot_err for a result of R396 (R401); an unreadable flash is given apart. -/
def bootErr : Nat → Nat
  | 5 => 3
  | 6 => 2
  | 7 => 7
  | 8 => 6
  | 9 => 4
  | _ => 5

/-- A bundle may start (R378, R381, R389): the result that stops it, with the failed pair; its header must have the digest
that the record names, and a header that has not stops it as a malformed one does. -/
def slotCheck (s : Blk) (fz : Fuses) (slot hash : Nat) : Nat × Nat :=
  let rd := s.slotReader slot
  let c := bundleCheck fz rd 50331648
  let e := epochFail (s.bundleRanges rd)
  if c ≠ 0 then (c, 0) else if headerHash rd ≠ hash then (5, 0) else if e ≠ 0 then (9, e) else (0, 0)

/-- A bundle starts to load (R391): the digests of its parts are held. -/
def startLoad (s : Blk) (bundle : Reader) (reverted : Bool) (slot : Nat) : Blk :=
  (s.bootWord 1 0 0 reverted slot).holdAll bundle

/-- A flash start (R389); a bundle that cannot be read fails R378. -/
def flashStart (s : Blk) (fz : Fuses) (flashOk : Bool) : Blk :=
  match s.recordInForce with
  | none => s.enterRecovery 0 1 false true 0
  | some b =>
    let check := fun (s : Blk) (b : List Byte) => if flashOk then s.slotCheck fz (recSlot b) (beAt b 16 48) else (0x0B, 0)
    let (s, reverted) :=
      if !s.onTrial then (s, false)
      else
        let s := { s with bootWrite := some s.recordSectors }
        if (check s b).1 = 0 && recTrials b < 3 then (s.amendRecord 2 (recSlot b) (recConf b) (recTrials b + 1) false, false)
        else ((s.amendRecord 1 (recConf b) (recConf b) 0 true).raise .IMG_INT_reverted 0, true)
    let b := s.recordInForce.getD b
    let (code, pair) := check s b
    if code ≠ 0 then (s.enterRecovery pair (bootErr code) reverted (!s.onTrial) (recSlot b)).raise .IMG_INT_fell_back 0
    else s.startLoad (s.slotReader (recSlot b)) reverted (recSlot b)

/-- The boot ROM runs (R388, R420, R446): recovery mode where starts are locked, where the always-on memory has no spares
left, or where the straps say so; a host load waits in ROM. -/
def bootRom (s : Blk) (fz : Fuses) (found : ReloadFindings) : Blk :=
  let cold := s.coldStart
  let s := (s.startSense fz found).agStartAll
  let src := s.fld .IMG_BOOT_src 0
  let counts := src = 0 && !s.onTrial
  if s.flag .RSTC_FAILS_locked 0 then s.enterRecovery 0 0 false counts 0
  else if cold && !found.aonRepairable then s.enterRecovery 0 8 false counts 0
  else if 2 ≤ src then s.enterRecovery 0 0 false false 0
  else if src = 1 then s.bootWord 0 0 0 false 0
  else s.flashStart fz found.flashOk

/-! ### The load (R391) -/

/-- MICA0 and MICA1 start: on the bundle that loads, or, in recovery mode, on the conf_slot firmware if it passes (R391, R392). -/
def micaStart (s : Blk) (fz : Fuses) (far : Nat → Bool) : Blk :=
  if s.micaRuns 0 then s
  else
    let s := { s with bootWrite := none }
    let go := fun (s : Blk) (rd : Reader) => ((s.ctrlRun 0 far).ctrlRun 1 far).measure 1 rd
    match s.fld .IMG_BOOT_phase 0 with
    | 1 =>
      let s := if s.ramParts = [] then s.setFld .IMG_BOOT_mica_src 0 (if s.fld .IMG_BOOT_slot 0 = 1 then 3 else 0) else s
      go s (s.partReader (micaPart 0))
    | 3 =>
      match s.recordInForce with
      | none => s
      | some b =>
        let rd := componentIn (s.slotReader (recConf b)) 1
        if kindOf rd = 2 && containerCheck fz rd 50331648 = 0 && overlap (rangeOf rd 3) (s.siRange 1) then
          go (s.setFld .IMG_BOOT_mica_src 0 (if recConf b = 1 then 3 else 0)) rd
        else s
    | _ => s

/-- The running set is the bundle that was started (R393). -/
def recordSet (s : Blk) : Blk :=
  if s.ramParts ≠ [] then s
  else
    let b := s.fld .IMG_BOOT_slot 0
    ((s.setFld .IMG_BOOT_mgmt_slot 0 b).setFld .IMG_BOOT_mica_src 0 (if b = 1 then 255 else 0)).setFld .IMG_TILE_SRC_src 0
      (if b = 1 then 2 ^ 32 - 1 else 0)

/-- The margin thresholds that the loaded image writes for monitor `m` (R368, R518): the alarm in bits 31 to 16, the warning in bits
15 to 0. -/
def imageThreshold (m : Nat) : Nat :=
  if m < 32 then 0x03480320
  else if m < 64 then 0x00040010
  else if m < 76 then 0x02F802D0
  else if m < 92 then
    match (m - 76) % 4 with
    | 1 => 0x0308030C
    | 2 => 0x0338033D
    | _ => 0x02D702DB
  else 0x02800258

/-- GLOBAL, LAYOUT and TABLES are applied (R380, R391). What a layout and the programs in it make of a frame is the compiler's own:
the commands that carry frames give it (log entries 4 and 10). -/
def applyShared (s : Blk) (image : Reader) : Blk :=
  let s := match findSection image 0x01 0xFF with
    | none => s
    | some x =>
      let b := sectionBytes image x
      let s := s.applyWrites (sectionWrites b)
      { s with imgMaxFrame := max 1522 (min 9216 ((Config.sectionMaxFrame b).getD 9216)),
               imgLcf := (Config.sectionLinkType b).getD 0x88B6 % 65536 }
  let s := (List.range 124).foldl (fun s m => s.putReg .JSP_MRG_THR m (imageThreshold m)) s
  (s.noteLoaded 32 (findSection image 0x02 0xFF)).applyTables image

/-- The records owed for a reset are written as the device returns to image running (R311). -/
def postOwed (s : Blk) : Blk :=
  s.owed.foldl (fun (s : Blk) (x : Nat × CplRec) => s.postRecord x.1 x.2.kind x.2.bytes) { s with owed := [] }

/-- Steps 2 to 4 of R391 are complete: the device is in image running. -/
def imageRunning (s : Blk) (far : Nat → Bool) : Blk :=
  if s.fld .IMG_BOOT_phase 0 ≠ 1 || !s.micaRuns 0 then s
  else
    let s := s.recordSet
    let s := (s.measure 0 (s.partReader mgmtPart)).applyShared (s.partReader 0)
    let s := [2, 3, 4, 5, 6, 7].foldl (fun s c => if s.domOn (156 + c / 2) then s.ctrlRun c far else s) s
    let s := (s.measure 1 (s.partReader (micaPart 0))).setFld .IMG_BOOT_phase 0 2
    let s := (List.range 32).foldl (fun s t => if s.domOn t then s.loadTile t true else s) s
    (s.measure 2 (s.partReader 0)).failsClear.postOwed.fwStart

/-! ### Reloads (R393, R409) -/

/-- A released reset reloads what it took: a tile its section, a die its controllers and sections once its tables are back, the
management cores their firmware (R393, R414). A die and a tile wait for the die's table copies. -/
def reload (s : Blk) (k : Nat) (found : ReloadFindings) : Blk :=
  match s.resets[k]? with
  | none => s
  | some r =>
    if !r.released || (r.level = 2 && s.tableLoads.contains r.die) || (r.level = 3 && s.tableLoads.contains (r.tile / 8)) then s
    else
      let s := { s with resets := s.resets.eraseIdx k }
      let far := farOf found.far
      let s := if !r.takesCores then s
        else if s.imageRuns then s.loadMgmt found.flashOk
        else if s.fld .IMG_BOOT_phase 0 = 3 then s.fwStart else s
      match r.level with
      | 2 =>
        if !s.imageRuns then s
        else
          let s := if r.die = 0 || !s.domOn (156 + r.die) then s else
            (s.loadMica (2 * r.die) found.flashOk far).loadMica (2 * r.die + 1) found.flashOk far
          r.tiles.foldl (fun s t => if s.domOn t then s.loadTile t found.flashOk else s) s
      | 3 => if s.imageRuns && s.domOn r.tile then s.loadTile r.tile found.flashOk else s
      | _ => s

/-- RESET_RELOAD: the boot ROM starts where a start is due; otherwise reset `k` reloads. -/
def doReload (k : Nat) (found : ReloadFindings) (fz : Fuses) (s : Blk) : Blk :=
  if s.tripped then s
  else if s.startDue then (if s.powerHold then s else s.bootRom fz found)
  else s.reload k found

/-! ### Commands (R394 to R396) -/

/-- A command ends with its result (R395). -/
def imgEnd (s : Blk) (result pair : Nat) : Blk :=
  ((({ s with imgCmd := none }.setFld .IMG_CMD_STATUS_busy 0 0).setFld .IMG_CMD_STATUS_result 0 result).setFld
    .IMG_CMD_STATUS_fail_pair 0 pair).raise .IMG_INT_cmd_done 0

/-- IMG_CMD is written (R394, R395): ignored while a command runs; an op that names no command ends at once, and so does an
ACTIVATE of a mode that no target matches. -/
def imgWrite (s : Blk) (op : Nat) : Blk :=
  if s.flag .IMG_CMD_STATUS_busy 0 then s.raise .IMG_INT_cmd_reject 0
  else
    let a0 := s.fld .IMG_CMD_ARG0_arg 0
    let a1 := s.fld .IMG_CMD_ARG1_arg 0
    let s := { s with imgCmd := some (op, a0, a1) }.setFld .IMG_CMD_STATUS_busy 0 1
    if op = 0 || 6 < op then s.imgEnd 1 0 else if op = 4 && a1 % 4 = 3 then s.imgEnd 0x0C 0 else s

/-- The running command of IMG_CMD, where it is `op` (and, for ACTIVATE, of a mode) and no thermal trip has taken over from it
(R520): `f` gives its result, the failed pair and
the block. -/
def imgRun (s : Blk) (op : Nat) (mode : Option Nat) (f : Blk → Nat → Nat → Nat × Nat × Blk) : Blk :=
  match s.imgCmd with
  | none => s
  | some (o, a0, a1) =>
    if s.tripped || o ≠ op || s.roll.isSome || (match mode with | some m => a1 % 4 ≠ m | none => false) then s
    else
      let (r, pair, s) := f s a0 a1
      s.imgEnd r pair

/-- A host-load start waits for its bundle, or recovery mode runs: the RAM stage may be written (R394). -/
def hostLoads (s : Blk) : Bool := s.fld .IMG_BOOT_phase 0 = 0 && s.fld .IMG_BOOT_src 0 = 1 && !s.startDue

/-- DL_BEGIN (R394). -/
def dlBegin (s : Blk) (a0 a1 : Nat) : Nat × Nat × Blk :=
  let slot := s.inactiveSlot
  let ram := a1 % 2 = 1
  if !lengthOk a0 then (2, 0, s)
  else if !ram && !s.slotFree then (4, 0, s)
  else if ram && !(s.hostLoads || s.fld .IMG_BOOT_phase 0 = 3) then (3, 0, s)
  else
    let s := if ram then s else s.eraseFlash (slotBase slot) ((a0 + 65535) / 65536)
    let s := { s with dlLength := a0 }
    (0, 0, ((s.setFld .IMG_DL_STATUS_state 0 1).setFld .IMG_DL_STATUS_target 0 (a1 % 2)).setFld .IMG_DL_STATUS_bytes 0 0)

/-- DL_CHUNK (R394). -/
def dlChunk (s : Blk) (a0 a1 : Nat) : Nat × Nat × Blk :=
  if s.fld .IMG_DL_STATUS_state 0 ≠ 1 then (3, 0, s)
  else if !s.chunkOk a0 a1 then (2, 0, s)
  else
    let data := s.windowBytes a1
    let s := if s.flag .IMG_DL_STATUS_target 0 then
      { s with ramStage := data.zipIdx.foldl (fun (m : Tab Byte) (bi : Byte × Nat) => m.set 0 (a0 + bi.2) bi.1) s.ramStage }
      else s.programFlash (slotBase s.inactiveSlot + a0) data
    (0, 0, s.setFld .IMG_DL_STATUS_bytes 0 (a0 + a1))

/-- The download as it may be read: the RAM stage, or the inactive slot. -/
def dlReader (s : Blk) : Reader := if s.flag .IMG_DL_STATUS_target 0 then s.ramReader else s.slotReader s.inactiveSlot

/-- VERIFY (R394): the download becomes VERIFIED, or FAILED. -/
def imgVerify (flashOk : Bool) (fz : Fuses) (s : Blk) (_ _ : Nat) : Nat × Nat × Blk :=
  let c := bundleCheck fz s.dlReader 50331648
  let e := epochFail (s.bundleRanges s.dlReader)
  let failed := s.setFld .IMG_DL_STATUS_state 0 3
  if !flashOk && !s.flag .IMG_DL_STATUS_target 0 then (0x0B, 0, failed)
  else if c ≠ 0 then (c, 0, failed)
  else if e ≠ 0 then (9, e, failed)
  else (0, 0, s.setFld .IMG_DL_STATUS_state 0 2)

/-- ACTIVATE with mode NEXT (R383, R387, R394). -/
def activateNext (s : Blk) (_ _ : Nat) : Nat × Nat × Blk :=
  let (code, pair) := s.nextCheck
  (code, pair, if code = 0 then s.writeTrial else s)

/-- ACTIVATE with mode RUN (R388, R394): the RAM bundle starts, or, where its combination fails, recovery mode. -/
def activateRun (fz : Fuses) (s : Blk) (_ _ : Nat) : Nat × Nat × Blk :=
  let c := bundleCheck fz s.ramReader 50331648
  let e := epochFail (s.bundleRanges s.ramReader)
  if !s.verified 1 then (0x0C, 0, s)
  else if !s.hostLoads then (3, 0, s)
  else if c ≠ 0 || e ≠ 0 then
    (0, 0, (s.enterRecovery (if c ≠ 0 then 0 else e) (bootErr (if c ≠ 0 then c else 9)) false true 0).raise .IMG_INT_fell_back 0)
  else (0, 0, { s.startLoad s.ramReader false 0 with ramParts := List.range 41 })

/-- CONFIRM (R394). -/
def imgConfirm (s : Blk) (_ _ : Nat) : Nat × Nat × Blk :=
  if s.mayConfirm then (0, 0, s.confirmRecord) else (3, 0, s)

/-! ### Tile loads (R397) -/

/-- Steps 1 and 2 of a tile load (R397): the engine evacuated, the links down. -/
def tileDown (s : Blk) (t : Nat) : Blk :=
  if s.domOn t then
    let s := (s.quarantine t).evacuate t
    (s.countLost (s.heldFrames (· = t) (fun l => tileOf l = t) (fun _ => false) false)).darkTile t
  else s

/-- The links of a tile that are enabled. -/
def enabledLinks (s : Blk) (t : Nat) : List Nat :=
  ((List.range 32).map fun k => 32 * t + k).filter fun l => s.flag .TIL_LNK_CTL_lnk_en l

/-- Step 3 (R397): the tile reset, its section loaded. -/
def tileFill (s : Blk) (t : Nat) (flashOk : Bool) : Blk := (s.resetTile t).loadTile t flashOk

/-- Steps 4 and 5 (R397): the engine released, and the links enabled as they were, unless the load left the tile dark. -/
def tileUp (s : Blk) (t : Nat) (was : List Nat) : Blk :=
  let s := s.unquarantine t
  if s.leftDark t then s
  else ((List.range 32).map fun k => 32 * t + k).foldl (fun s l =>
    if was.contains l then (if s.flag .TIL_LNK_CTL_lnk_en l then s else s.linkEnable l)
    else if s.flag .TIL_LNK_CTL_lnk_en l then s.linkDisable l else s) s

/-- Tile t runs the image of the inactive slot from now on. -/
def takeTile (s : Blk) (t slot : Nat) : Blk :=
  let s := (s.setBit .IMG_TILE_SRC_src 0 t (slot = 1)).holdPart (s.slotReader slot) t
  { s with ramParts := s.ramParts.filter (· ≠ t) }

/-- TILE_LOAD: its checks (R394, R397); 0: the load begins. -/
def tileLoadCheck (s : Blk) (a0 a1 : Nat) : Nat × Nat :=
  let image := if a1 % 2 = 1 then componentIn (s.slotReader s.inactiveSlot) 2 else s.partReader (a0 % 32)
  let e := epochFailAny (s.mixedRanges (s.runningReaders [32]) (s.runningReaders ((List.range 8).map micaPart)) [image])
  if !s.imageRuns then (3, 0)
  else if a1 % 2 = 1 && !s.verified 0 then (0x0C, 0)
  else if a1 % 2 = 1 && rdNat image 48 48 ≠ s.runningShared then (0x0A, 0)
  else if e ≠ 0 then (9, e)
  else (0, 0)

/-- A tile load goes on (R397): a tile in reset, or whose die's table copies are being loaded, is waited for (R414); step 3, again
after a reset of the tile; then steps 4 and 5, and the command ends. The load of a tile that is OFF, and one that leaves its tile
dark, end at once. -/
def tileLoadOn (s : Blk) (r : TileLoadRec) (flashOk : Bool) : Blk :=
  let done := fun (s : Blk) (result : Nat) => { s.tileUp r.tile r.links with tileLoading := none }.imgEnd result 0
  if s.domState r.tile = 0 then { s with tileLoading := none }.imgEnd 0 0
  else if !s.domOn r.tile || s.tableLoads.contains (r.tile / 8) then s
  else if r.filled then done s 0
  else
    let s := s.tileFill r.tile flashOk
    if s.leftDark r.tile then done s 0x0B else { s with tileLoading := some { r with filled := true } }

/-- TILE_LOAD (R394, R397): it begins, down to step 3, or goes on. -/
def imgTileLoad (flashOk : Bool) (s : Blk) : Blk :=
  match s.imgCmd with
  | some (6, a0, a1) =>
    if s.tripped then s
    else match s.tileLoading with
    | some r => s.tileLoadOn r flashOk
    | none =>
      let t := a0 % 32
      let (code, pair) := s.tileLoadCheck a0 a1
      if code ≠ 0 then s.imgEnd code pair
      else
        let was := s.enabledLinks t
        let s := (if a1 % 2 = 1 then s.takeTile t s.inactiveSlot else s).tileDown t
        { s with tileLoading := some ⟨t, was, false⟩ }.tileLoadOn ⟨t, was, false⟩ flashOk
  | _ => s

/-! ### Rolls (R398, R399) -/

/-- The controller of a group, if the roll restarts controllers: the group is then its four tiles. -/
def groupMica (g : List Nat) : Option Nat := if g.length = 4 then g.head?.map fun t => micaOf t else none

/-- The groups of a roll (R398). -/
def rollGroups (mica : Bool) : List (List Nat) :=
  if mica then (List.range 8).map fun c => (List.range 4).map fun k => 8 * (c / 2) + 4 * (c % 2) + k
  else (List.range 32).map fun t => [t]

/-- The management firmware restarts on a slot (R398). -/
def rollMgmt (s : Blk) (slot : Nat) : Blk :=
  let s := (s.setFld .IMG_BOOT_mgmt_slot 0 slot).holdPart (s.slotReader slot) mgmtPart
  let s := { s with ramParts := s.ramParts.filter (· ≠ mgmtPart) }
  (s.setFld .MGT_MBX_STATUS_fw_ready 0 0).mgmtUp.loadMgmt true

/-- What says which code a container holds: its header, and its section table with the sections' digests (R376, R377). -/
def codeBytes (rd : Reader) : List Byte := rdList rd 0 (128 + 64 * min 64 (rdNat rd 6 2))

/-- ACTIVATE with mode ROLL begins (R398); it stays the running command until its last group is done. -/
def activateRoll (s : Blk) : Blk :=
  match s.imgCmd with
  | some (4, _, a1) =>
    if s.tripped || a1 % 4 ≠ 1 || s.roll.isSome then s
    else
      let (code, pair) := s.rollCheck
      if code ≠ 0 then s.imgEnd code pair
      else
        let slot := s.inactiveSlot
        let new := s.slotReader slot
        let differs := fun (k : Nat) => codeBytes (componentIn new (partComponent k)) ≠ codeBytes (s.partReader k)
        let newMgmt := differs mgmtPart
        let newMica := (List.range 8).any fun c => differs (micaPart c)
        let s := s.writeTrial
        let s := if newMgmt then s.rollMgmt slot else s
        { s with roll := some ⟨slot, rollGroups newMica, []⟩ }
  | _ => s

/-- A group is wholly on a slot. -/
def groupOn (s : Blk) (slot : Nat) (g : List Nat) : Bool :=
  (g.all fun t => s.partSlot t = slot && !s.ramParts.contains t) &&
    (match groupMica g with
     | some c => s.partSlot (micaPart c) = slot && !s.ramParts.contains (micaPart c)
     | none => true)

/-- A controller restarts on a slot's firmware (R398). -/
def rollMica (s : Blk) (slot c : Nat) (flashOk : Bool) (far : Nat → Bool) : Blk :=
  let s := (s.setBit .IMG_BOOT_mica_src 0 c (slot = 1)).holdPart (s.slotReader slot) (micaPart c)
  let s := { s with ramParts := s.ramParts.filter (· ≠ micaPart c) }
  (s.ctrlStop c).loadMica c flashOk far

/-- The next group of a roll (R398), once its dies have their table copies (R414): links of the last one that are not UP set roll_link; with no group left the command ends. -/
def rollGroup (flashOk : Bool) (far : Nat → Bool) (s : Blk) : Blk :=
  match s.roll with
  | none => s
  | some r =>
    if s.tripped then s
    else
    let s := if r.upLinks.all fun l => s.isIn l .up then s else s.raise .IMG_INT_roll_link 0
    match r.groups.dropWhile fun g => s.groupOn r.slot g with
    | [] => { s with roll := none }.imgEnd 0 0
    | g :: rest =>
      if g.any fun t => s.domOn t && s.tableLoads.contains (t / 8) then s
      else
        let up := (g.flatMap fun t => (List.range 32).map fun k => 32 * t + k).filter fun l => s.isIn l .up
        let was := g.map fun t => (t, s.enabledLinks t)
        let s := g.foldl (fun s t => s.tileDown t) s
        let s := match groupMica g with
          | some c => s.rollMica r.slot c flashOk far
          | none => s
        let s := was.foldl (fun s x =>
          let s := s.takeTile x.1 r.slot
          if s.domOn x.1 then (s.tileFill x.1 flashOk).tileUp x.1 x.2 else s) s
        { s with roll := some ⟨r.slot, rest, up⟩ }

end Sys2Proof.Machine.Blk

namespace Sys2Proof.Machine

open Blk

/-! ### Meanings of the image rows -/

/-- RESET_RELOAD (R388, R393, R409). -/
def execResetReload (run_ : Nat) (found : ReloadFindings) (s : State) : Host.Outcome State Fault Refusal := runR (doReload run_ found) s
/-- MICA_START (R391). -/
def execMicaStart (far : List (TileId × LaneNo)) (s : State) : Host.Outcome State Fault Refusal :=
  runR (fun fz b => b.micaStart fz (farOf far)) s
/-- IMAGE_RUNNING (R391). -/
def execImageRunning (far : List (TileId × LaneNo)) (s : State) : Host.Outcome State Fault Refusal :=
  run (fun b => b.imageRunning (farOf far)) s
/-- DL_BEGIN (R394). -/
def execDlBegin (s : State) : Host.Outcome State Fault Refusal := run (fun b => b.imgRun 1 none Blk.dlBegin) s
/-- DL_CHUNK (R394). -/
def execDlChunk (s : State) : Host.Outcome State Fault Refusal := run (fun b => b.imgRun 2 none Blk.dlChunk) s
/-- VERIFY (R394). -/
def execVerify (flashOk : Bool) (s : State) : Host.Outcome State Fault Refusal :=
  runR (fun fz b => b.imgRun 3 none (imgVerify flashOk fz)) s
/-- ACTIVATE_NEXT (R394). -/
def execActivateNext (s : State) : Host.Outcome State Fault Refusal := run (fun b => b.imgRun 4 (some 0) Blk.activateNext) s
/-- ACTIVATE_ROLL (R398). -/
def execActivateRoll (s : State) : Host.Outcome State Fault Refusal := run Blk.activateRoll s
/-- ACTIVATE_RUN (R394). -/
def execActivateRun (s : State) : Host.Outcome State Fault Refusal :=
  runR (fun fz b => b.imgRun 4 (some 2) (Blk.activateRun fz)) s
/-- CONFIRM (R394). -/
def execConfirm (s : State) : Host.Outcome State Fault Refusal := run (fun b => b.imgRun 5 none Blk.imgConfirm) s
/-- TILE_LOAD (R397). -/
def execTileLoad (flashOk : Bool) (s : State) : Host.Outcome State Fault Refusal := run (Blk.imgTileLoad flashOk) s
/-- ROLL_GROUP (R398). -/
def execRollGroup (flashOk : Bool) (far : List (TileId × LaneNo)) (s : State) : Host.Outcome State Fault Refusal :=
  run (rollGroup flashOk (farOf far)) s

end Sys2Proof.Machine
end

