-- ==== Sys2Proof/Machine/Bus.lean ====
section
/-!
DEFINITION. The whole of a register write: the registers that start resets, power changes, image commands and Obsidian commands
beside those of the register file; the rows of register accesses (R9 to R12, R415); the register codes of the recovery UART
(R496); and the JTAG port (R495).
-/

namespace Sys2Proof.Machine.Blk

/-- A register is written whole, from a path (R12, R394, R406, R407, R420, R422, R424, R434). -/
def busPut (path : Path) (s : Blk) (r : Reg) (i v : Nat) : Blk :=
  match r with
  | .IMG_CMD => s.imgWrite (part .IMG_CMD_op v)
  | .RSTC_SWRST => s.swReset v
  | .RSTC_WDT_CTL => if v.testBit 31 then { s.putReg r i v with wdtHalf := false } else s.putReg r i v
  | .RSTC_WDT_KICK => if v.testBit 0 then { s with wdtHalf := false } else s
  | .RSTC_FAILS => if v.testBit 8 then s.failsClear else s
  | .PWR_DOM_CTL => if v.testBit 0 then s.domUp i else s.domDown i
  | .PWR_SLEEP => s.sleepWrite (part .PWR_SLEEP_target v)
  | .OBS_CMD => s.obsWrite path (part .OBS_CMD_op v) (part .OBS_CMD_index v)
  | _ => s.regWrite path r i v

/-- A write in BAR0 on a path. One that is not naturally aligned is no access of R9: it reaches no register, but an isolated domain
counts it (R415; DESIGN CHOICE, log entry 13). -/
def busWrite (s : Blk) (path : Path) (addr v : Nat) (wide : Bool) : Blk :=
  if accessFits addr (if wide then 8 else 4) || (addrDomain addr).any s.isolated then s.bar0Write (busPut path) addr v wide else s

/-- An offset of BAR4 lies in the MSI-X table. -/
def inMsixTable (addr : Nat) : Bool := 0x30000 ≤ addr && addr < 0x30400

/-- A write in BAR4 (R466): the MSI-X table takes 32-bit and 64-bit ones, doorbells 32-bit ones, and the rest of the window none. -/
def bar4Write (s : Blk) (addr v : Nat) (wide : Bool) : Blk :=
  if inMsixTable addr then
    if addr % (if wide then 8 else 4) ≠ 0 then s
    else
      let s := s.msixWrite addr (v % 2 ^ 32)
      if wide then s.msixWrite (addr + 4) (v / 2 ^ 32) else s
  else if wide || addr % 4 ≠ 0 then s
  else if addr < 0x1000 then s.ringDoorbell (addr / 4) v
  else if 0x10000 ≤ addr ∧ addr < 0x14000 then s.cqDoorbell ((addr - 0x10000) / 4) v
  else if addr = 0x20000 then doMailboxDoorbell v s
  else s

/-- A read of `n` bytes in BAR4: the MSI-X table and the pending bit array; a doorbell reads as 0 (R466). Of the table and the array
PCI Express gives aligned accesses of 32 and 64 bits: what another read of them returns is a free value (log entry 20). -/
def bar4Read (s : Blk) (addr n : Nat) : Nat × Blk :=
  if inMsixTable addr || addr = 0x31000 || addr = 0x31004 then
    if accessFits addr n then
      (if inMsixTable addr then s.msixWord addr + (if n = 8 then s.msixWord (addr + 4) * 2 ^ 32 else 0)
       else s.fld .MSIX_PBA_pend 0 / 2 ^ (8 * (addr % 8)) % 2 ^ (8 * n), s)
    else s.free (8 * n)
  else (0, s)

/-- A register write from a path (R9 to R12, R463): the host's comes over the link. -/
def pathWrite (path : Path) (addr v : Nat) (wide : Bool) (s : Blk) : Blk :=
  if path = .host && !s.pcieUp then s else s.busWrite path addr v wide

/-- An access of a window over the link (R415, R429, R463). -/
def access (s : Blk) (bar : Bar) (addr : Nat) (a : BusAccess) : Blk :=
  if !s.pcieUp then s else
  match bar, a with
  | .bar0, .read n => readOut (fun s => s.busRead (addr % 2 ^ 26) n) s
  | .bar0, .write v wide => s.busWrite .host (addr % 2 ^ 26) v.toNat wide
  | .bar2, .read n => readOut (fun s => s.bar2Read addr n) s
  | .bar2, .write v wide => s.bar2Write addr (leBytes (if wide then 8 else 4) v.toNat)
  | .bar4, .read n => readOut (fun s => s.bar4Read addr n) s
  | .bar4, .write v wide => s.bar4Write addr v.toNat wide

/-! ### The recovery UART's own codes (R496) -/

/-- The bar and the offset that a REG_READ or REG_WRITE names, where bar is 0 or 2. -/
def uartPlace (p : List Byte) : Option (Bool × Nat) :=
  let off := beAt p 1 4
  if beAt p 0 1 = 0 then some (false, off % 2 ^ 26) else if beAt p 0 1 = 2 then some (true, off % 2 ^ 30) else none

/-- REG_READ (R496): BAD_LEN, BAD_ARG, or four bytes. -/
def uartRead (s : Blk) : Blk :=
  match s.headRequest 0x0100 with
  | none => s
  | some (uart, q) =>
    if q.payload.length ≠ 5 then s.answer uart q 2 []
    else match uartPlace q.payload with
      | none => s.answer uart q 3 []
      | some (two, off) =>
        if off % 4 ≠ 0 then s.answer uart q 3 []
        else
          let (v, s) := if two then s.bar2Read off 4 else s.bar0Read off false
          s.answer uart q 0 (beBytes 4 v)

/-- REG_WRITE (R496). -/
def uartWrite (s : Blk) : Blk :=
  s.serve 0x0101 9 fun s p =>
    match uartPlace p with
    | none => (3, s)
    | some (two, off) =>
      if off % 4 ≠ 0 then (3, s)
      else (0, if two then s.bar2Write off (leBytes 4 (beAt p 5 4)) else s.busWrite .mgmt off (beAt p 5 4) false)

/-- BAUD (R496): applied after the response. -/
def uartBaud (s : Blk) : Blk :=
  match s.headRequest 0x0102 with
  | none => s
  | some (uart, q) =>
    if q.payload.length ≠ 1 then s.answer uart q 2 []
    else if 3 < beAt q.payload 0 1 then s.answer uart q 3 []
    else (s.answer uart q 0 []).setFld .MGT_UART_CFG_baud 0 (beAt q.payload 0 1)

/-- STAGE_WRITE (R496): 1 to 232 bytes into the staging window, within its 64 KiB. -/
def uartStage (s : Blk) : Blk :=
  match s.headRequest 0x0103 with
  | none => s
  | some (uart, q) =>
    let n := q.payload.length - 4
    let off := beAt q.payload 0 4
    if q.payload.length < 5 || 236 < q.payload.length then s.answer uart q 2 []
    else if 65536 < off + n then s.answer uart q 3 []
    else (s.bar2Write (0x30000000 + off) (q.payload.drop 4)).answer uart q 0 []

/-! ### JTAG (R495) -/

/-- A data register shifts out; in the hold of R505 the pad drives nothing. -/
def shiftOut (s : Blk) (v : Nat) : Blk := if s.powerHold then s else s.emit (.jtag v)

/-- The bypass register, captured as 0, is shifted out (IEEE 1149.1). -/
def bypass (s : Blk) : Blk := s.shiftOut 0

/-- An instruction is loaded and acts, as BYPASS outside its states (R495). Pins that EXTEST drives, or drives no longer, change. -/
def jtagRun (i : JtagInstr) (f : Blk → Blk) (s : Blk) : Blk :=
  let t := { s with jtagIr := i.code }
  let t := if t.jtagActs = i then f t else t.bypass
  if i = .extest || s.jtagActs = .extest then Blk.tellPins s t else t

/-- The identity that IDCODE shifts out (R495). -/
def idcode : Nat := 1 * 2 ^ 28 + 0x0410 * 2 ^ 12 + Config.jtagManufacturer % 2 ^ 11 * 2 + 1

/-- BAR_ACCESS: a 32-bit access in BAR0 or BAR2 (R495). -/
def jtagAccess (s : Blk) (two : Bool) (addr : Nat) (w : Option Nat) : Blk :=
  match w with
  | none =>
    let (v, s) := if two then s.bar2Read addr 4 else s.busRead (addr % 2 ^ 26) 4
    s.shiftOut v
  | some v => if two then s.bar2Write addr (leBytes 4 v) else s.busWrite .jtag (addr % 2 ^ 26) v false

end Sys2Proof.Machine.Blk

namespace Sys2Proof.Machine

open Blk

/-! ### Meanings of the register rows -/

/-- REGISTER_WRITE (R12). -/
def execRegisterWrite (path : Path) (address : BitVec 26) (value : BitVec 64) (wide : Bool) (s : State) :
    Host.Outcome State Fault Refusal :=
  run (pathWrite path address.toNat value.toNat wide) s
/-- LOW_WORD_WRITE (R11). -/
def execLowWordWrite (path : Path) (address : BitVec 26) (value : BitVec 32) (s : State) : Host.Outcome State Fault Refusal :=
  run (pathWrite path address.toNat value.toNat false) s
/-- HIGH_WORD_WRITE (R11). -/
def execHighWordWrite (path : Path) (address : BitVec 26) (value : BitVec 32) (s : State) : Host.Outcome State Fault Refusal :=
  run (pathWrite path address.toNat value.toNat false) s

/-- ISOLATED_ACCESS (R415). -/
def execIsolatedAccess (bar : Bar) (address : BitVec 30) (access_ : BusAccess) (s : State) : Host.Outcome State Fault Refusal :=
  run (fun b => b.access bar address.toNat access_) s

/-! ### Meanings of the UART rows -/

/-- REG_READ (R496). -/
def execRegRead (s : State) : Host.Outcome State Fault Refusal := run Blk.uartRead s
/-- REG_WRITE (R496). -/
def execRegWrite (s : State) : Host.Outcome State Fault Refusal := run Blk.uartWrite s
/-- BAUD (R496). -/
def execBaud (s : State) : Host.Outcome State Fault Refusal := run Blk.uartBaud s
/-- STAGE_WRITE (R496). -/
def execStageWrite (s : State) : Host.Outcome State Fault Refusal := run Blk.uartStage s

/-! ### Meanings of the JTAG rows -/

/-- BYPASS (R495). -/
def execBypass (_shift : BitVec 1) (s : State) : Host.Outcome State Fault Refusal := run (jtagRun .bypass Blk.bypass) s
/-- IDCODE (R495). -/
def execIdcode (s : State) : Host.Outcome State Fault Refusal := run (jtagRun .idcode fun b => b.shiftOut idcode) s
/-- SAMPLE_PRELOAD (R495): the pins sampled are shifted out, and the boundary register is preloaded. -/
def execSamplePreload (sampled data : Nat) (s : State) : Host.Outcome State Fault Refusal :=
  run (jtagRun .sample fun b => { b.shiftOut sampled with boundary := data }) s
/-- EXTEST (R495): the digital pins are driven from the boundary register. -/
def execExtest (data : Nat) (s : State) : Host.Outcome State Fault Refusal :=
  run (jtagRun .extest fun b => { b with boundary := data }) s
/-- DEBUG_TRANSPORT (R495). -/
def execDebugTransport (s : State) : Host.Outcome State Fault Refusal :=
  if s.blk.debugOpen then .refused .debugTransport else run (jtagRun .transport id) s
/-- BAR_ACCESS (R495). -/
def execBarAccess (bar2 : Bool) (address : BitVec 30) (write : Option (BitVec 32)) (s : State) : Host.Outcome State Fault Refusal :=
  run (jtagRun .access fun b => b.jtagAccess bar2 address.toNat (write.map BitVec.toNat)) s
/-- RESET_REQ (R433, R495). -/
def execResetReq (level : BitVec 3) (die : BitVec 2) (tile : BitVec 5) (s : State) : Host.Outcome State Fault Refusal :=
  run (jtagRun .resetReq fun b => b.debugReset level.toNat die.toNat tile.toNat) s
/-- SCAN_ENTRY (R440, R495). -/
def execScanEntry (s : State) : Host.Outcome State Fault Refusal := run (jtagRun .scan Blk.scanEntry) s
/-- OBSIDIAN_COMMAND_PATH (R434, R495). -/
def execObsidianCommandPath (op : BitVec 4) (index : BitVec 8) (s : State) : Host.Outcome State Fault Refusal :=
  run (jtagRun .obsidian fun b => b.obsWrite .jtag op.toNat index.toNat) s

end Sys2Proof.Machine
end

