-- ==== Sys2Proof/Machine/Links.lean ====
section
/-!
DEFINITION. Meanings of the link rows (chapter 2). A row named after a timer is the event of that time having passed.
-/

namespace Sys2Proof.Machine

open Blk

/-- R43. -/
def execPortModeWrite (port : PortId) (value : BitVec 32) (s : State) : Host.Outcome State Fault Refusal :=
  run (·.portModeWrite port value.toNat) s

/-- R44, R81. -/
def execLinkEnable (link : LinkId) (s : State) : Host.Outcome State Fault Refusal := run (·.linkEnable link) s

/-- R44, R72. -/
def execLinkDisable (link : LinkId) (s : State) : Host.Outcome State Fault Refusal := run (·.linkDisable link) s

/-- R44, R52, R60. -/
def execPcsAligned (link : LinkId) (s : State) : Host.Outcome State Fault Refusal := run (·.pcsAligned link) s

/-- R52, R54. -/
def execCapReceived (link : LinkId) (cap : Lcf) (s : State) : Host.Outcome State Fault Refusal :=
  run (·.capReceived link cap) s

/-- R52: a CAP every 100 µs in EXCHANGE. -/
def execCapTimer (link : LinkId) (s : State) : Host.Outcome State Fault Refusal :=
  run (fun b => if b.isIn link .exchange then b.sendCap link else b) s

/-- R44. -/
def execExchangeTimeout (link : LinkId) (s : State) : Host.Outcome State Fault Refusal :=
  run (·.exchangeTimeout link) s

/-- R54: a CAP every 100 ms in Ethernet mode with link_mode 0. -/
def execEthernetCapTimer (link : LinkId) (s : State) : Host.Outcome State Fault Refusal :=
  run (fun b => if b.isIn link .up && !b.staketu link && (b.link link).mode = 0 then b.sendCap link else b) s

/-- R56: a CREDIT LCF with the cumulative returns of every class. -/
def execCreditReportTimer (link : LinkId) (s : State) : Host.Outcome State Fault Refusal :=
  run (fun b => if b.flows link then
    b.lcf link .credit { lcfBlank with classVal := classVals (b.link link).returned } else b) s

/-- R56. -/
def execCreditReceived (link : LinkId) (report : CreditReport) (s : State) : Host.Outcome State Fault Refusal :=
  run (·.creditReceived link report) s

/-- R59: an AUDIT LCF where both partners advertise the audit. -/
def execAuditTimer (link : LinkId) (s : State) : Host.Outcome State Fault Refusal :=
  run (fun b => if b.isIn link .up && b.staketu link && (b.link link).features.testBit 3 then
    b.lcf link .audit { lcfBlank with classVal := classVals (b.link link).cellsSent } else b) s

/-- R59. -/
def execAuditReceived (link : LinkId) (sent : List (BitVec 16)) (s : State) : Host.Outcome State Fault Refusal :=
  run (·.auditReceived link sent) s

/-- R60. -/
def execResyncReq (link : LinkId) (s : State) : Host.Outcome State Fault Refusal := run (·.resyncReqReceived link) s

/-- R60. -/
def execResyncMark (link : LinkId) (s : State) : Host.Outcome State Fault Refusal := run (·.resyncMarkReceived link) s

/-- R60. -/
def execResyncAck (link : LinkId) (charged : List (BitVec 16)) (s : State) : Host.Outcome State Fault Refusal :=
  run (·.resyncAckReceived link charged) s

/-- R60: a re-initialisation that has not ended in both directions takes the link into RETRAIN. -/
def execResyncTimeout (link : LinkId) (s : State) : Host.Outcome State Fault Refusal :=
  run (fun b => if b.flows link && ((b.link link).txReinit || (b.link link).rxReinit) then b.toRetrain link else b) s

/-- R46, R48. -/
def execUncorrectableCodeword (link : LinkId) (s : State) : Host.Outcome State Fault Refusal :=
  run (·.uncorrectable link) s

/-- R48: the burst event ends; no counter changes. -/
def execBurstGapExpiry (link : LinkId) (s : State) : Host.Outcome State Fault Refusal :=
  run (·.updLink link fun r => { r with burst := false }) s

/-- R63. -/
def execRetryClockExpiry (link : LinkId) (s : State) : Host.Outcome State Fault Refusal := run (·.retryExpired link) s

/-- R64. -/
def execNakReceived (link : LinkId) (ack : BitVec 13) (s : State) : Host.Outcome State Fault Refusal :=
  run (·.nakReceived link ack.toNat) s

/-- R64: a replay without a NAK. -/
def execReplayTimeout (link : LinkId) (s : State) : Host.Outcome State Fault Refusal :=
  run (fun b => if b.flows link && b.flag .TIL_LNK_STATUS_retry_on link then b.replay link else b) s

/-- R64: a frame uncovered 4 µs after its first transmission takes the link into RETRAIN. -/
def execSenderAckTimeout (link : LinkId) (s : State) : Host.Outcome State Fault Refusal :=
  run (fun b => if b.flows link && (b.link link).unacked ≠ [] then b.toRetrain link else b) s

/-- R76, R44: retrain written in UP or RESYNC. -/
def execRetrainWrite (link : LinkId) (s : State) : Host.Outcome State Fault Refusal :=
  run (fun b => if b.isIn link .up || b.isIn link .resync then b.toRetrain link else b) s

/-- R66: ka_req written 1. -/
def execKeepaliveRequest (link : LinkId) (s : State) : Host.Outcome State Fault Refusal :=
  run (fun b => if b.linkExists link then (b.setFld .TIL_LNK_CTL_ka_req link 1).askKeepalive link else b) s

/-- R67: ka_req written 0. -/
def execKeepaliveRelease (link : LinkId) (s : State) : Host.Outcome State Fault Refusal :=
  run (fun b => if b.linkExists link then (b.setFld .TIL_LNK_CTL_ka_req link 0).wakeLink link else b) s

/-- R66. -/
def execKaReq (link : LinkId) (s : State) : Host.Outcome State Fault Refusal := run (·.kaReqReceived link) s

/-- R66: the link enters KEEPALIVE on KA_ACK. -/
def execKaAck (link : LinkId) (s : State) : Host.Outcome State Fault Refusal :=
  run (fun b => if b.isIn link .up && (b.link link).kaAsked then b.toKeepalive link else b) s

/-- R66: a partner that did not answer is asked again. -/
def execKaRetryTimer (link : LinkId) (s : State) : Host.Outcome State Fault Refusal :=
  run (fun b => if (b.link link).kaAsked then b.askKeepalive link else b) s

/-- R67: a keepalive word on the lowest lane. -/
def execKeepaliveWordTimer (link : LinkId) (s : State) : Host.Outcome State Fault Refusal :=
  run (fun b => if b.isIn link .keepalive then b.sendKeepalive link false else b) s

/-- R67: a valid keepalive word; its wake flag wakes the link. -/
def execKeepaliveWord (link : LinkId) (wake : Bool) (s : State) : Host.Outcome State Fault Refusal :=
  run (fun b => if wake then b.wakeLink link else b) s

/-- R44. -/
def execKeepaliveWordTimeout (link : LinkId) (s : State) : Host.Outcome State Fault Refusal :=
  run (fun b => if b.isIn link .keepalive then b.toHoldDown link else b) s

/-- R44, R67. -/
def execWake (link : LinkId) (s : State) : Host.Outcome State Fault Refusal := run (·.wakeLink link) s

/-- R44. -/
def execWakeTimeout (link : LinkId) (s : State) : Host.Outcome State Fault Refusal :=
  run (fun b => if b.isIn link .wake then b.toHoldDown link else b) s

/-- R44. -/
def execRetrainDone (link : LinkId) (s : State) : Host.Outcome State Fault Refusal := run (·.retrainDone link) s

/-- R44: no further effect. -/
def execRetrainTimeout (link : LinkId) (s : State) : Host.Outcome State Fault Refusal :=
  run (fun b => if b.isIn link .retrain then b.setState link .holdDown else b) s

/-- R44: acquisition restarts. -/
def execHoldDownExpiry (link : LinkId) (s : State) : Host.Outcome State Fault Refusal :=
  run (fun b => if b.isIn link .holdDown then b.toAcquire link else b) s

/-- R44, R49. -/
def execLossOfSignal (link : LinkId) (light : Bool) (s : State) : Host.Outcome State Fault Refusal :=
  run (·.lossOfSignal link light) s

/-- R69. -/
def execPfcReceived (link : LinkId) (cls : ClassId) (quanta : BitVec 16) (s : State) : Host.Outcome State Fault Refusal :=
  run (·.pfcReceived link cls quanta.toNat) s

/-- R70: XOFF is sent again for each class in which it is in force, while the link carries Ethernet traffic. -/
def execPfcRefreshTimer (link : LinkId) (s : State) : Host.Outcome State Fault Refusal :=
  run (fun b => if b.ethernetMode link then (List.range 8).foldl (fun b c =>
    if (b.link link).xoff.testBit c then b.sendPfc link c true else b) b else b) s

/-- R69: the paused class may start frames again. -/
def execPfcPauseExpiry (link : LinkId) (cls : ClassId) (s : State) : Host.Outcome State Fault Refusal :=
  run (·.updLink link fun r => { r with paused := r.paused &&& (255 - 2 ^ cls.val) }) s

end Sys2Proof.Machine
end

