-- ==== Sys2Proof/Machine/Dispatch.lean ====
section
/-!
DEFINITION. The commands' dispatch: one arm for each constructor, a direct call of its meaning.
-/

namespace Sys2Proof.Machine

/-- The effect of one command on the block, its queue apart. -/
def exec (i : Instr) (s : State) : Host.Outcome State Fault Refusal :=
  match i with
  | .registerWrite path address value wide => Sys2Proof.Machine.execRegisterWrite path address value wide s
  | .lowWordRead address => Sys2Proof.Machine.execLowWordRead address s
  | .lowWordWrite path address value => Sys2Proof.Machine.execLowWordWrite path address value s
  | .highWordWrite path address value => Sys2Proof.Machine.execHighWordWrite path address value s
  | .isolatedAccess bar address access => Sys2Proof.Machine.execIsolatedAccess bar address access s
  | .cqStatusRead die => Sys2Proof.Machine.execCqStatusRead die s
  | .marginRead monitor => Sys2Proof.Machine.execMarginRead monitor s
  | .frameReceived link word frame arrival image => Sys2Proof.Machine.execFrameReceived link word frame arrival image s
  | .learnEvent => Sys2Proof.Machine.execLearnEvent s
  | .ageingSweep => Sys2Proof.Machine.execAgeingSweep s
  | .admissionRequest die idle => Sys2Proof.Machine.execAdmissionRequest die idle s
  | .admissionRetry frame die => Sys2Proof.Machine.execAdmissionRetry frame die s
  | .admissionStall frame die => Sys2Proof.Machine.execAdmissionStall frame die s
  | .firstCellWritten frame die => Sys2Proof.Machine.execFirstCellWritten frame die s
  | .lastCellWritten frame die => Sys2Proof.Machine.execLastCellWritten frame die s
  | .agateCellSend frame die => Sys2Proof.Machine.execAgateCellSend frame die s
  | .agateCellLanded link back => Sys2Proof.Machine.execAgateCellLanded link back s
  | .agateCreditReturn pair back cls => Sys2Proof.Machine.execAgateCreditReturn pair back cls s
  | .flitCrcFail link back => Sys2Proof.Machine.execFlitCrcFail link back s
  | .agateEnSet link endJ => Sys2Proof.Machine.execAgateEnSet link endJ s
  | .agateEnClear link endJ => Sys2Proof.Machine.execAgateEnClear link endJ s
  | .agateRetrain link => Sys2Proof.Machine.execAgateRetrain link s
  | .agateTrained link back => Sys2Proof.Machine.execAgateTrained link back s
  | .agateTrainingTimeout link back => Sys2Proof.Machine.execAgateTrainingTimeout link back s
  | .agateDrained link back => Sys2Proof.Machine.execAgateDrained link back s
  | .agateFailedExpiry link back => Sys2Proof.Machine.execAgateFailedExpiry link back s
  | .agateLossOfLock link back => Sys2Proof.Machine.execAgateLossOfLock link back s
  | .countSnap die => Sys2Proof.Machine.execCountSnap die s
  | .auditSweep die lost astray => Sys2Proof.Machine.execAuditSweep die lost astray s
  | .fldSelection link lead cut => Sys2Proof.Machine.execFldSelection link lead cut s
  | .egressPipeline link corrupt => Sys2Proof.Machine.execEgressPipeline link corrupt s
  | .gateBoundary link => Sys2Proof.Machine.execGateBoundary link s
  | .gateCommit link => Sys2Proof.Machine.execGateCommit link s
  | .gateBankSwitch link => Sys2Proof.Machine.execGateBankSwitch link s
  | .portSplitWrite port value => Sys2Proof.Machine.execPortSplitWrite port value s
  | .portModeWrite port value => Sys2Proof.Machine.execPortModeWrite port value s
  | .linkEnable link => Sys2Proof.Machine.execLinkEnable link s
  | .linkDisable link => Sys2Proof.Machine.execLinkDisable link s
  | .pcsAligned link => Sys2Proof.Machine.execPcsAligned link s
  | .capReceived link cap => Sys2Proof.Machine.execCapReceived link cap s
  | .capTimer link => Sys2Proof.Machine.execCapTimer link s
  | .exchangeTimeout link => Sys2Proof.Machine.execExchangeTimeout link s
  | .ethernetCapTimer link => Sys2Proof.Machine.execEthernetCapTimer link s
  | .creditReportTimer link => Sys2Proof.Machine.execCreditReportTimer link s
  | .creditReceived link report => Sys2Proof.Machine.execCreditReceived link report s
  | .auditTimer link => Sys2Proof.Machine.execAuditTimer link s
  | .auditReceived link sent => Sys2Proof.Machine.execAuditReceived link sent s
  | .resyncReq link => Sys2Proof.Machine.execResyncReq link s
  | .resyncMark link => Sys2Proof.Machine.execResyncMark link s
  | .resyncAck link charged => Sys2Proof.Machine.execResyncAck link charged s
  | .resyncTimeout link => Sys2Proof.Machine.execResyncTimeout link s
  | .uncorrectableCodeword link => Sys2Proof.Machine.execUncorrectableCodeword link s
  | .burstGapExpiry link => Sys2Proof.Machine.execBurstGapExpiry link s
  | .retryClockExpiry link => Sys2Proof.Machine.execRetryClockExpiry link s
  | .nakReceived link ack => Sys2Proof.Machine.execNakReceived link ack s
  | .replayTimeout link => Sys2Proof.Machine.execReplayTimeout link s
  | .senderAckTimeout link => Sys2Proof.Machine.execSenderAckTimeout link s
  | .retrainWrite link => Sys2Proof.Machine.execRetrainWrite link s
  | .keepaliveRequest link => Sys2Proof.Machine.execKeepaliveRequest link s
  | .keepaliveRelease link => Sys2Proof.Machine.execKeepaliveRelease link s
  | .kaReq link => Sys2Proof.Machine.execKaReq link s
  | .kaAck link => Sys2Proof.Machine.execKaAck link s
  | .kaRetryTimer link => Sys2Proof.Machine.execKaRetryTimer link s
  | .keepaliveWordTimer link => Sys2Proof.Machine.execKeepaliveWordTimer link s
  | .keepaliveWord link wake => Sys2Proof.Machine.execKeepaliveWord link wake s
  | .keepaliveWordTimeout link => Sys2Proof.Machine.execKeepaliveWordTimeout link s
  | .wake link => Sys2Proof.Machine.execWake link s
  | .wakeTimeout link => Sys2Proof.Machine.execWakeTimeout link s
  | .retrainDone link => Sys2Proof.Machine.execRetrainDone link s
  | .retrainTimeout link => Sys2Proof.Machine.execRetrainTimeout link s
  | .holdDownExpiry link => Sys2Proof.Machine.execHoldDownExpiry link s
  | .lossOfSignal link light => Sys2Proof.Machine.execLossOfSignal link light s
  | .pfcReceived link cls quanta => Sys2Proof.Machine.execPfcReceived link cls quanta s
  | .pfcRefreshTimer link => Sys2Proof.Machine.execPfcRefreshTimer link s
  | .lockTake table path => Sys2Proof.Machine.execLockTake table path s
  | .lockRelease table path => Sys2Proof.Machine.execLockRelease table path s
  | .tblWrite source rec_ => Sys2Proof.Machine.execTblWrite source rec_ s
  | .tblClear source rec_ => Sys2Proof.Machine.execTblClear source rec_ s
  | .tblInsert source rec_ => Sys2Proof.Machine.execTblInsert source rec_ s
  | .tblDelete source rec_ => Sys2Proof.Machine.execTblDelete source rec_ s
  | .cmapSnapshot => Sys2Proof.Machine.execCmapSnapshot s
  | .replicationTake tile => Sys2Proof.Machine.execReplicationTake tile s
  | .contribAccept frame trouble => Sys2Proof.Machine.execContribAccept frame trouble s
  | .spillRequest tile idle => Sys2Proof.Machine.execSpillRequest tile idle s
  | .contribRetry frame trouble => Sys2Proof.Machine.execContribRetry frame trouble s
  | .spillWaitTimeout frame => Sys2Proof.Machine.execSpillWaitTimeout frame s
  | .chunkRelease tile group seq chunk trouble => Sys2Proof.Machine.execChunkRelease tile group seq chunk trouble s
  | .quarantine tile => Sys2Proof.Machine.execQuarantine tile s
  | .garnetRelease tile => Sys2Proof.Machine.execGarnetRelease tile s
  | .evacuationDone tile => Sys2Proof.Machine.execEvacuationDone tile s
  | .selftestDone tile pass => Sys2Proof.Machine.execSelftestDone tile pass s
  | .istTurnExpiry => Sys2Proof.Machine.execIstTurnExpiry s
  | .istPassDone pass => Sys2Proof.Machine.execIstPassDone pass s
  | .allReduce queue desc => Sys2Proof.Machine.execAllReduce queue desc s
  | .reduceScatter queue desc => Sys2Proof.Machine.execReduceScatter queue desc s
  | .allGather queue desc => Sys2Proof.Machine.execAllGather queue desc s
  | .broadcast queue desc => Sys2Proof.Machine.execBroadcast queue desc s
  | .barrier queue desc => Sys2Proof.Machine.execBarrier queue desc s
  | .abort queue desc => Sys2Proof.Machine.execAbort queue desc s
  | .rebind queue desc => Sys2Proof.Machine.execRebind queue desc s
  | .groupSet queue desc data => Sys2Proof.Machine.execGroupSet queue desc data s
  | .groupClear queue desc => Sys2Proof.Machine.execGroupClear queue desc s
  | .memberSet queue desc data => Sys2Proof.Machine.execMemberSet queue desc data s
  | .nop queue desc => Sys2Proof.Machine.execNop queue desc s
  | .tokenWrite token value => Sys2Proof.Machine.execTokenWrite token value s
  | .contrib frame => Sys2Proof.Machine.execContrib frame s
  | .gather frame => Sys2Proof.Machine.execGather frame s
  | .bcast frame => Sys2Proof.Machine.execBcast frame s
  | .barrierArrival frame => Sys2Proof.Machine.execBarrierArrival frame s
  | .contextTimeout group seq => Sys2Proof.Machine.execContextTimeout group seq s
  | .contextFinish group seq => Sys2Proof.Machine.execContextFinish group seq s
  | .contextFailure group seq => Sys2Proof.Machine.execContextFailure group seq s
  | .rebindCommit group => Sys2Proof.Machine.execRebindCommit group s
  | .fenceTimeout group => Sys2Proof.Machine.execFenceTimeout group s
  | .read frame => Sys2Proof.Machine.execRead frame s
  | .write frame => Sys2Proof.Machine.execWrite frame s
  | .add frame => Sys2Proof.Machine.execAdd frame s
  | .fetchAdd frame => Sys2Proof.Machine.execFetchAdd frame s
  | .swap frame => Sys2Proof.Machine.execSwap frame s
  | .cas frame => Sys2Proof.Machine.execCas frame s
  | .fetchOr frame => Sys2Proof.Machine.execFetchOr frame s
  | .fetchAnd frame => Sys2Proof.Machine.execFetchAnd frame s
  | .updateApply die pos => Sys2Proof.Machine.execUpdateApply die pos s
  | .updateQueueRetry frame => Sys2Proof.Machine.execUpdateQueueRetry frame s
  | .orderTimeout frame => Sys2Proof.Machine.execOrderTimeout frame s
  | .writeResp frame => Sys2Proof.Machine.execWriteResp frame s
  | .rgnSet => Sys2Proof.Machine.execRgnSet s
  | .rgnClear => Sys2Proof.Machine.execRgnClear s
  | .rgnRetag => Sys2Proof.Machine.execRgnRetag s
  | .gwSet => Sys2Proof.Machine.execGwSet s
  | .gwClear => Sys2Proof.Machine.execGwClear s
  | .sweepDone region => Sys2Proof.Machine.execSweepDone region s
  | .gneissJob ring job => Sys2Proof.Machine.execGneissJob ring job s
  | .roceAck gw psn bad => Sys2Proof.Machine.execRoceAck gw psn bad s
  | .roceNak gw psn nak => Sys2Proof.Machine.execRoceNak gw psn nak s
  | .rnrNak gw psn => Sys2Proof.Machine.execRnrNak gw psn s
  | .rnrTimer gw => Sys2Proof.Machine.execRnrTimer gw s
  | .ackTimeout gw => Sys2Proof.Machine.execAckTimeout gw s
  | .cnp gw => Sys2Proof.Machine.execCnp gw s
  | .rateRecovery gw => Sys2Proof.Machine.execRateRecovery gw s
  | .partWrite value => Sys2Proof.Machine.execPartWrite value s
  | .openShard ring cmd => Sys2Proof.Machine.execOpenShard ring cmd s
  | .release ring cmd => Sys2Proof.Machine.execRelease ring cmd s
  | .mirror ring cmd => Sys2Proof.Machine.execMirror ring cmd s
  | .drain ring cmd => Sys2Proof.Machine.execDrain ring cmd s
  | .restore ring cmd => Sys2Proof.Machine.execRestore ring cmd s
  | .mark ring cmd => Sys2Proof.Machine.execMark ring cmd s
  | .trim ring cmd => Sys2Proof.Machine.execTrim ring cmd s
  | .replay ring cmd => Sys2Proof.Machine.execReplay ring cmd s
  | .fillTimeout shard => Sys2Proof.Machine.execFillTimeout shard s
  | .mirrorWriteSend shard => Sys2Proof.Machine.execMirrorWriteSend shard s
  | .respTimeout reqId => Sys2Proof.Machine.execRespTimeout reqId s
  | .restoreFrame work => Sys2Proof.Machine.execRestoreFrame work s
  | .replayWrite work => Sys2Proof.Machine.execReplayWrite work s
  | .journalAppend => Sys2Proof.Machine.execJournalAppend s
  | .journalRecordVisible stream => Sys2Proof.Machine.execJournalRecordVisible stream s
  | .streamEnable stream region => Sys2Proof.Machine.execStreamEnable stream region s
  | .streamDisable stream region => Sys2Proof.Machine.execStreamDisable stream region s
  | .groupMapWrite group value => Sys2Proof.Machine.execGroupMapWrite group value s
  | .quench tile on => Sys2Proof.Machine.execQuench tile on s
  | .oeSweep tile => Sys2Proof.Machine.execOeSweep tile s
  | .elsEnWrite els en => Sys2Proof.Machine.execElsEnWrite els en s
  | .elsPresenceChange els present => Sys2Proof.Machine.execElsPresenceChange els present s
  | .elsFaultChange els fault => Sys2Proof.Machine.execElsFaultChange els fault s
  | .laserLightLost els laser power => Sys2Proof.Machine.execLaserLightLost els laser power s
  | .laserLightReturn els laser power far => Sys2Proof.Machine.execLaserLightReturn els laser power far s
  | .resonanceFound tile lane heater => Sys2Proof.Machine.execResonanceFound tile lane heater s
  | .sweepTimeout tile lane => Sys2Proof.Machine.execSweepTimeout tile lane s
  | .heaterRangeEnd tile lane => Sys2Proof.Machine.execHeaterRangeEnd tile lane s
  | .loopUpdate tile lane sample => Sys2Proof.Machine.execLoopUpdate tile lane sample s
  | .laneDriverChange tile lane modulates => Sys2Proof.Machine.execLaneDriverChange tile lane modulates s
  | .foiEnable => Sys2Proof.Machine.execFoiEnable s
  | .foiDisable => Sys2Proof.Machine.execFoiDisable s
  | .ringLight ring => Sys2Proof.Machine.execRingLight ring s
  | .ringDark ring => Sys2Proof.Machine.execRingDark ring s
  | .ringHeaterEnd ring => Sys2Proof.Machine.execRingHeaterEnd ring s
  | .ringLockUpdate ring heater lockErr => Sys2Proof.Machine.execRingLockUpdate ring heater lockErr s
  | .tapSample tap power => Sys2Proof.Machine.execTapSample tap power s
  | .rogueLight ring => Sys2Proof.Machine.execRogueLight ring s
  | .circuitActive ring => Sys2Proof.Machine.execCircuitActive ring s
  | .circuitLoss ring => Sys2Proof.Machine.execCircuitLoss ring s
  | .revokeDark ring => Sys2Proof.Machine.execRevokeDark ring s
  | .revokeTimer ring => Sys2Proof.Machine.execRevokeTimer ring s
  | .grant => Sys2Proof.Machine.execGrant s
  | .revoke => Sys2Proof.Machine.execRevoke s
  | .block => Sys2Proof.Machine.execBlock s
  | .unblock => Sys2Proof.Machine.execUnblock s
  | .cal inRange heater => Sys2Proof.Machine.execCal inRange heater s
  | .locate => Sys2Proof.Machine.execLocate s
  | .directoryPublication => Sys2Proof.Machine.execDirectoryPublication s
  | .rawWrap => Sys2Proof.Machine.execRawWrap s
  | .stepCommit => Sys2Proof.Machine.execStepCommit s
  | .stepApply => Sys2Proof.Machine.execStepApply s
  | .rateWrite value => Sys2Proof.Machine.execRateWrite value s
  | .invalidate => Sys2Proof.Machine.execInvalidate s
  | .qtzSnap => Sys2Proof.Machine.execQtzSnap s
  | .tileCopySync tile => Sys2Proof.Machine.execTileCopySync tile s
  | .txtsPop tile => Sys2Proof.Machine.execTxtsPop tile s
  | .ppsInEdge => Sys2Proof.Machine.execPpsInEdge s
  | .ppsOutEdge => Sys2Proof.Machine.execPpsOutEdge s
  | .ppsOutFall => Sys2Proof.Machine.execPpsOutFall s
  | .counterCarry => Sys2Proof.Machine.execCounterCarry s
  | .snapGo atTime groups => Sys2Proof.Machine.execSnapGo atTime groups s
  | .snapLatch => Sys2Proof.Machine.execSnapLatch s
  | .snapDone => Sys2Proof.Machine.execSnapDone s
  | .prunWrite run => Sys2Proof.Machine.execPrunWrite run s
  | .traceRecord tile => Sys2Proof.Machine.execTraceRecord tile s
  | .monitorSample monitor value => Sys2Proof.Machine.execMonitorSample monitor value s
  | .monitorRearm monitor => Sys2Proof.Machine.execMonitorRearm monitor s
  | .dlBegin => Sys2Proof.Machine.execDlBegin s
  | .dlChunk => Sys2Proof.Machine.execDlChunk s
  | .verify flashOk => Sys2Proof.Machine.execVerify flashOk s
  | .activateNext => Sys2Proof.Machine.execActivateNext s
  | .activateRoll => Sys2Proof.Machine.execActivateRoll s
  | .activateRun => Sys2Proof.Machine.execActivateRun s
  | .confirm => Sys2Proof.Machine.execConfirm s
  | .tileLoad flashOk => Sys2Proof.Machine.execTileLoad flashOk s
  | .rollGroup flashOk far => Sys2Proof.Machine.execRollGroup flashOk far s
  | .micaStart far => Sys2Proof.Machine.execMicaStart far s
  | .imageRunning far => Sys2Proof.Machine.execImageRunning far s
  | .powerOn => Sys2Proof.Machine.execPowerOn s
  | .powerGoodHoldEnd bootSrc clkMode => Sys2Proof.Machine.execPowerGoodHoldEnd bootSrc clkMode s
  | .brownOut => Sys2Proof.Machine.execBrownOut s
  | .resetN low bootSrc clkMode => Sys2Proof.Machine.execResetN low bootSrc clkMode s
  | .watchdogKick => Sys2Proof.Machine.execWatchdogKick s
  | .watchdogHalf => Sys2Proof.Machine.execWatchdogHalf s
  | .watchdogTimeout => Sys2Proof.Machine.execWatchdogTimeout s
  | .softwareRequest value => Sys2Proof.Machine.execSoftwareRequest value s
  | .mgmtLockup => Sys2Proof.Machine.execMgmtLockup s
  | .clockFailure clock => Sys2Proof.Machine.execClockFailure clock s
  | .clockRecovery clock => Sys2Proof.Machine.execClockRecovery clock s
  | .resetAssertEnd run => Sys2Proof.Machine.execResetAssertEnd run s
  | .resetReload run found => Sys2Proof.Machine.execResetReload run found s
  | .tableCopyReload die => Sys2Proof.Machine.execTableCopyReload die s
  | .failsClear => Sys2Proof.Machine.execFailsClear s
  | .domainPowerUp domain => Sys2Proof.Machine.execDomainPowerUp domain s
  | .domainPowerDown domain => Sys2Proof.Machine.execDomainPowerDown domain s
  | .domainOn domain flashOk => Sys2Proof.Machine.execDomainOn domain flashOk s
  | .tileCellDiscard tile => Sys2Proof.Machine.execTileCellDiscard tile s
  | .sleepRequest target => Sys2Proof.Machine.execSleepRequest target s
  | .sleepDone => Sys2Proof.Machine.execSleepDone s
  | .lcAdvance failAt => Sys2Proof.Machine.execLcAdvance failAt s
  | .rmaUnlock failAt => Sys2Proof.Machine.execRmaUnlock failAt s
  | .keySet failAt => Sys2Proof.Machine.execKeySet failAt s
  | .keyRevoke failAt => Sys2Proof.Machine.execKeyRevoke failAt s
  | .svnRaise failAt => Sys2Proof.Machine.execSvnRaise failAt s
  | .rstmapSet failAt => Sys2Proof.Machine.execRstmapSet failAt s
  | .repairFuse failAt => Sys2Proof.Machine.execRepairFuse failAt s
  | .attest => Sys2Proof.Machine.execAttest s
  | .bist found => Sys2Proof.Machine.execBist found s
  | .scanEntry => Sys2Proof.Machine.execScanEntry s
  | .sramScrub word found => Sys2Proof.Machine.execSramScrub word found s
  | .patrolScrub line found => Sys2Proof.Machine.execPatrolScrub line found s
  | .ringDoorbell ring tail => Sys2Proof.Machine.execRingDoorbell ring tail s
  | .cqDoorbell queue tail => Sys2Proof.Machine.execCqDoorbell queue tail s
  | .ringEnable ring value => Sys2Proof.Machine.execRingEnable ring value s
  | .ringReset ring => Sys2Proof.Machine.execRingReset ring s
  | .cqReset queue => Sys2Proof.Machine.execCqReset queue s
  | .hostRxFrame ring descs => Sys2Proof.Machine.execHostRxFrame ring descs s
  | .hostTxFrame ring descs bytes image => Sys2Proof.Machine.execHostTxFrame ring descs bytes image s
  | .cplRecord ring => Sys2Proof.Machine.execCplRecord ring s
  | .hostAccessFault place => Sys2Proof.Machine.execHostAccessFault place s
  | .functionLevelReset => Sys2Proof.Machine.execFunctionLevelReset s
  | .busMasterEnable on => Sys2Proof.Machine.execBusMasterEnable on s
  | .ringIrqDelay ring => Sys2Proof.Machine.execRingIrqDelay ring s
  | .irqArm vector => Sys2Proof.Machine.execIrqArm vector s
  | .mailboxDoorbell seq => Sys2Proof.Machine.execMailboxDoorbell seq s
  | .d2hAck value => Sys2Proof.Machine.execD2hAck value s
  | .ping => Sys2Proof.Machine.execPing s
  | .fwInfo => Sys2Proof.Machine.execFwInfo s
  | .ptpCfg => Sys2Proof.Machine.execPtpCfg s
  | .todSet => Sys2Proof.Machine.execTodSet s
  | .timeSrc => Sys2Proof.Machine.execTimeSrc s
  | .uartFrame bytes => Sys2Proof.Machine.execUartFrame bytes s
  | .regRead => Sys2Proof.Machine.execRegRead s
  | .regWrite => Sys2Proof.Machine.execRegWrite s
  | .baud => Sys2Proof.Machine.execBaud s
  | .stageWrite => Sys2Proof.Machine.execStageWrite s
  | .i2cStart ctrl value => Sys2Proof.Machine.execI2cStart ctrl value s
  | .i2cTransferEnd ctrl outcome => Sys2Proof.Machine.execI2cTransferEnd ctrl outcome s
  | .i2cClear ctrl outcome => Sys2Proof.Machine.execI2cClear ctrl outcome s
  | .i2cReset ctrl sdaLow outcome => Sys2Proof.Machine.execI2cReset ctrl sdaLow outcome s
  | .smbusBlockRead code => Sys2Proof.Machine.execSmbusBlockRead code s
  | .alertResponse => Sys2Proof.Machine.execAlertResponse s
  | .gpioFuncWrite pin func => Sys2Proof.Machine.execGpioFuncWrite pin func s
  | .gpioSwitchEnd pin => Sys2Proof.Machine.execGpioSwitchEnd pin s
  | .gpioEdge pin rising => Sys2Proof.Machine.execGpioEdge pin rising s
  | .bypass shift => Sys2Proof.Machine.execBypass shift s
  | .idcode => Sys2Proof.Machine.execIdcode s
  | .samplePreload sampled data => Sys2Proof.Machine.execSamplePreload sampled data s
  | .extest data => Sys2Proof.Machine.execExtest data s
  | .debugTransport => Sys2Proof.Machine.execDebugTransport s
  | .barAccess bar2 address write => Sys2Proof.Machine.execBarAccess bar2 address write s
  | .obsidianCommandPath op index => Sys2Proof.Machine.execObsidianCommandPath op index s
  | .resetReq level die tile => Sys2Proof.Machine.execResetReq level die tile s
  | .thermalTrip => Sys2Proof.Machine.execThermalTrip s
  | .pfcPauseExpiry link cls => Sys2Proof.Machine.execPfcPauseExpiry link cls s
  | .readResp frame => Sys2Proof.Machine.execReadResp frame s
  | .atomicResp frame => Sys2Proof.Machine.execAtomicResp frame s
  | .powerUpTurn => Sys2Proof.Machine.execPowerUpTurn s
  | .staleBlocksCopied stack => Sys2Proof.Machine.execStaleBlocksCopied stack s
  | .userViewRead shadow address => Sys2Proof.Machine.execUserViewRead shadow address s

end Sys2Proof.Machine
end

