-- ==== Sys2Proof/Machine/Tick.lean ====
section
/-!
DEFINITION. What the block does of itself in an idle step, and the placing of a command: the firmware's answer to an error record
(R455), or one nanosecond of its clocks (R346, R350, R363).
-/

namespace Sys2Proof.Machine.Blk

/-- The firmware requests the reset of an error record (R455): a warm request wider than the entry becomes the widest that the entry
allows. -/
def grantWish (s : Blk) (w : ResetWish) : Blk :=
  let level := if w.level = 1 then max 1 (s.levelOf 4) else w.level
  if level < s.levelOf 4 then s.raise .RSTC_INT_sw_reject 0 else s.request 4 level w.die w.tile

/-- The time clock runs (R346, R429, R520). -/
def timeRuns (s : Blk) : Bool :=
  !s.clockBad .ref && !s.clockBad .time && !s.tripped && !s.resets.any fun r => r.level = 0 && !r.released

/-- One cycle of the time clock: raw advances or wraps, and then a committed step is applied (R346, R348, R350). -/
def timeCycle (s : Blk) : Blk :=
  if !s.timeRuns then s
  else
    let s := if s.fld .QTZ_RAW_raw 0 = 2 ^ 64 - 65536 then s.rawWrap else s.setFld .QTZ_RAW_raw 0 (s.fld .QTZ_RAW_raw 0 + 65536)
    if s.flag .QTZ_STATUS_step_pending 0 then s.stepApply else s

/-- The core clocks of one nanosecond, for the counters that select them (R363). -/
def coreCycles (s : Blk) : Blk :=
  let n := (s.now + 1) * 7 / 4 - s.now * 7 / 4
  (List.range 4).foldl (fun s d => if s.tripped || s.bit .RSTC_CLK_STATUS_core_pll 0 d then s else s.pcntEvent d 0 n) s

/-- One nanosecond passes. -/
def nanosecond (s : Blk) : Blk :=
  let s := s.timeCycle.coreCycles.istBegins
  { s with now := s.now + 1 }

/-- An idle step: a request that the firmware owes, the recovery monitor making none (R392, R455), or one nanosecond. -/
def idle (s : Blk) : Blk :=
  match s.wishes with
  | w :: ws => if s.fwReady && !s.tripped && s.fld .IMG_BOOT_phase 0 ≠ 3 then { s with wishes := ws }.grantWish w else s.nanosecond
  | [] => s.nanosecond

end Sys2Proof.Machine.Blk
end

