-- ==== Sys2Proof/Safety.lean ====
section
/-!
DEFINITION. The terms that statements about runs are made of: what it is for a command to run, what a command may leave
unchanged, and the invariants of the block.
-/

namespace Sys2Proof

open Machine

/-- Command `c` runs from state `s`: it answers a next state, and `P` holds of that state. -/
def Runs (c : Instr) (s : State) (P : State → Prop) : Prop := ∃ t, exec c s = .next t ∧ P t

/-- A run is safe while no command stops it. -/
def Safe (o : Host.Outcome State Fault Refusal) : Prop := ∃ t, o = .next t

/-- `t` is `s` but for register fields and what has been sent: every table, buffer, queue and memory of the block is as it
was. -/
def Machine.Blk.FldsOut (s t : Blk) : Prop := t = { s with fields := t.fields, out := t.out }

/-- `t` is `s` but for what has been sent and the register fields of which `p` holds: HBM, frames, tables, buffers and every
other register field read as before. -/
def Machine.Blk.Within (s t : Blk) (p : Fld → Nat → Prop) : Prop := s.FldsOut t ∧ ∀ f i, ¬ p f i → t.fld f i = s.fld f i

/-- The fields that counting may change beside the counter itself: the programmable counters, their overflow bits, two
event bits of Jasper, the armed vectors and the pending bits of masked ones (R360, R363, R466, R487). -/
def Machine.Blk.counts (g : Fld) : Prop :=
  g = .MGT_IRQ_ARMED_armed ∨ g = .MSIX_PBA_pend ∨ g = .JSP_PCNT_count ∨ g = .JSP_PCNT_OVF_ovf ∨ g = .JSP_INT_pcnt_ovf ∨ g = .JSP_INT_sat

/-- The queue and the fuses are as they were, and of the block only register fields listed in `fs` and what has been sent
may have changed. -/
def OnlyFields (s t : State) (fs : List (Fld × Nat)) : Prop :=
  t.pending = s.pending ∧ t.fuses = s.fuses ∧ s.blk.Within t.blk fun f i => (f, i) ∈ fs

/-- As `OnlyFields`, where the command may also send interrupt messages: then the armed vectors and the pending bits of the masked
ones may change too (R466, R487). -/
def OnlyFieldsIrq (s t : State) (fs : List (Fld × Nat)) : Prop := 
  OnlyFields s t ((.MGT_IRQ_ARMED_armed, 0) :: (.MSIX_PBA_pend, 0) :: fs)

/-- As `OnlyFields`, where the command also counts: the programmable counters may follow. -/
def OnlyFieldsCnt (s t : State) (fs : List (Fld × Nat)) : Prop :=
  t.pending = s.pending ∧ t.fuses = s.fuses ∧ s.blk.Within t.blk fun f i => (f, i) ∈ fs ∨ Blk.counts f

/-- A memory of bytes is in its canonical form: addresses strictly rising, and no entry that an unlisted address reads
as; `d` is what an unlisted address reads as. -/
def Memory.wf (d : Byte) (m : Tab Byte) : Bool := Tab.wf (fun _ => d) m

/-- The registers whose write does more than their fields' access codes say (R12). -/
def actingReg : Reg → Bool
  | .IMG_CMD | .RSTC_SWRST | .RSTC_WDT_CTL | .RSTC_WDT_KICK | .RSTC_FAILS | .PWR_DOM_CTL | .PWR_SLEEP | .OBS_CMD 
  | .TIL_PORT_MODE | .TIL_LNK_CTL | .DMA_TBL_LOCK | .BSL_CNT_SNAP | .BSL_POOL_TC | .D2D_LNK_CTL | .FLD_SUB_CFG 
  | .FLD_CBS_CFG | .FLD_CLS_CFG | .FLD_TC7_MON | .GRN_IST_CTL | .JSP_CMAP_CTL | .FLD_GATE_CTL | .FLD_GATE_BASE_S | .FLD_GATE_BASE_NS | .FLD_GATE_CYCLE_NS 
  | .FLD_GATE_ENT | .FLD_PORT_SPLIT | .GRN_CTL | .GNS_CMD | .GNS_PART | .SHL_STR_CTL | .SHL_GRP_MAP | .MICA_OE_CTL 
  | .MICA_ELS_CTL | .FOI_CTL | .FOI_CMD | .QTZ_CTL | .QTZ_RATE | .QTZ_SNAP | .QTZ_TXTS_POP | .JSP_SNAP_CTL 
  | .JSP_TRC_SEED | .DMA_RING_BASE | .DMA_RING_WB | .DMA_RING_CFG | .DMA_RING_CTL | .DMA_CQ_BASE | .DMA_CQ_CFG 
  | .DMA_CQ_CTL | .MGT_MBX_D2H_ACK | .MGT_IRQ_ARM | .MGT_IRQ_ROUTE | .GPIO_FUNC | .I2C_CTL | .I2C_CMD | .I2C_DATA 
  | .TIL_LNK_INT_EN | .FLD_INT_EN | .GRN_INT_EN | .MICA_OE_INT_EN | .BSL_INT_EN | .D2D_PAIR_INT_EN | .COL_INT_EN 
  | .GNS_INT_EN | .GNS_CKP_INT_EN | .SHL_INT_EN | .MICA_ELS_INT_EN | .FOI_INT_EN | .QTZ_INT_EN | .JSP_INT_EN 
  | .IMG_INT_EN | .RSTC_INT_EN | .PWR_INT_EN | .OBS_INT_EN | .MGT_ERR_INT_EN | .DMA_INT_EN | .MGT_MBX_INT_EN 
  | .GPIO_INT_EN | .I2C_INT_EN | .GPIO_OUT | .GPIO_OE => true
  | _ => false

/-- What the access code of a field leaves in it, `v` being the bits written (R12). -/
def accessLeaves (a : Access) (width old v : Nat) : Nat :=
  match a with
  | .rw => v
  | .w1c => old &&& ((2 ^ width - 1) ^^^ v)
  | .w1s => (old ||| v) % 2 ^ width
  | _ => old

/-- What a path writes arrives: the host's comes over the PCI Express link (R429). -/
abbrev PathOpen (s : State) (p : Path) : Prop := p = .host → s.blk.pcieUp = true

/-- The register at a BAR0 address answers: it exists, it is the low word or the high word of copy `i` of register `r`, and
its power domain is not isolated (R9, R415). The sub-port that it is of exists (R73, R183, R371). -/
def Answers (b : Blk) (addr : Nat) (r : Reg) (i : Nat) (high : Bool) : Prop :=
  Reg.find addr = some (r, i, high) ∧ (∀ n, addrDomain addr = some n → b.isolated n = false) ∧ b.missing r i = false

/-- The newest that the block has sent is `o`, on the medium of link `l` unless its port is dark, or what the port's loopback makes of
it (R74, R392, R393, R423, R505, R520). -/
def Sent (t : State) (l : Nat) (o : Output) : Prop :=
  match t.blk.fld .TIL_PORT_MODE_loopback (portOf l) with
  | 1 => t.blk.out.head? = some (.nearEnd o)
  | 2 => True
  | _ => t.blk.portDark l = false → t.blk.out.head? = some o

/-- The finish tag that a weighted class of a link has at a selection, its head frame having so many bytes (R164, R165). -/
def Machine.Blk.classTag (b : Blk) (l c bytes : Nat) : Nat :=
  let k := (b.feldOf l).linkNode.kids.get ⟨0, 0, 0, false, 0⟩ c
  (if k.on then k.start else (b.feldOf l).linkNode.vtime + k.lag) + schedCost bytes (b.fld .FLD_CLS_CFG_weight (8 * l + c))

/-- A selection on link `l`, planned `lead` ns ahead, takes the head frame `e` of node `n` of class `c` (R163, R164): of the highest
strict class that is eligible, or, where none is, of the weighted class with the least finish tag, the lower of two that are equal. -/
abbrev Machine.Blk.Picks (b : Blk) (l lead c n : Nat) (e : QEntry) : Prop :=
  b.eligibleClass l c lead = some (n, e) ∧
  ((b.strict l c = true ∧ ∀ c' < 8, c < c' → b.strict l c' = false ∨ b.eligibleClass l c' lead = none) ∨
   (b.strict l c = false ∧ (∀ c' < 8, b.strict l c' = true → b.eligibleClass l c' lead = none) ∧
    ∀ c' < 8, c' ≠ c → (b.eligibleClass l c' lead).all (fun ne => b.classTag l c e.bytes < b.classTag l c' ne.2.bytes ||
      (b.classTag l c e.bytes = b.classTag l c' ne.2.bytes && c < c')) = true))

/-- The children of a scheduling node stand by number. -/
abbrev Machine.SchedNode.Sorted (k : SchedNode) : Prop := (k.kids.map Prod.fst).Pairwise (· < ·)

/-- How a whole frame arrives that is good. -/
def goodArrival : Arrival := { part := .whole, fcs := .good, errored := false, corrected := 0, symbols := 0 }

/-- A good frame is the next to come on a link that is UP, in Ethernet mode, or in Staketu mode with retry on, its link word in turn and
acknowledging nothing; it goes to its tile's pipeline, and no earlier frame of the link is in staging (R55, R62, R69, R82, R126). -/
abbrev Comes (s : State) (l : LinkId) (w : Option (BitVec 48)) (f : Frame) (img : ImageClass) : Prop :=
  s.blk.linkExists l = true ∧ s.blk.linkState l = 3 ∧ f.etype.toNat ≠ s.blk.imgLcf ∧ f.etype ≠ 0x8808 ∧ isPtp f = false ∧
  s.blk.flag .TIL_FWD_CFG_fwd_en (tileOf l) = true ∧ img.badWord = none ∧
  (∀ d < 4, s.blk.copy? (4 * s.blk.nextFrame + d) = none) ∧ (∀ kv ∈ s.blk.frames, kv.2.link ≠ some l.val) ∧
  ((s.blk.staketu l = false ∧ w = none) ∨
   (s.blk.staketu l = true ∧ s.blk.flag .TIL_LNK_STATUS_retry_on l = true ∧ (s.blk.link l).unacked = [] ∧
    (s.blk.link l).ahead = [] ∧ (s.blk.link l).partialFrame = none ∧
    (Blk.goodWord w).any (fun v => !v.testBit 21 && bits v 47 35 = (s.blk.link l).nextLsn) = true))

/-- The frame that came was dropped by its tile's pipeline, counted under its reason: it has no copy, and is not in staging (R121). -/
def DroppedFor (s t : State) (l reason : Nat) : Prop :=
  t.blk.fld .TIL_FWD_DROP_count (14 * tileOf l + reason) =
    min (s.blk.fld .TIL_FWD_DROP_count (14 * tileOf l + reason) + 1) (2 ^ 64 - 1) ∧
  t.blk.copies = s.blk.copies ∧ t.blk.frame? s.blk.nextFrame = none ∧ t.blk.nextFrame = s.blk.nextFrame + 1

/-- The frame that came has a copy for a link, `f'` in class `c`: its request is with the allocator of its own tile's die, or its first
cell is to cross to the link's die, unless their pair is down (R112, R126 to R128, R154). -/
def SentOn (s t : State) (l o c : Nat) (f' : Frame) : Prop :=
  let key := 4 * s.blk.nextFrame + dieOf o
  let copy := (t.blk.copy? key).map fun x => (x.frame, x.cls, x.target, x.inLink, x.tile, x.ncells)
  let made := some (f', c, Target.link o, some l, tileOf l, cellsOf (frameLen f'))
  t.blk.nextFrame = s.blk.nextFrame + 1 ∧
  if dieOf o = dieOfTile (tileOf l) then
    copy = made ∧ (t.blk.bsl (dieOf o)).requests = (s.blk.bsl (dieOf o)).requests ++ [(tileOf l, .copy key)]
  else if s.blk.liveLinks (dirOf (dieOfTile (tileOf l)) (dieOf o)) = 0 then
    t.blk.copy? key = none ∧ t.blk.fld .BSL_DROP_PAIRDOWN_count (dieOfTile (tileOf l)) =
      min (s.blk.fld .BSL_DROP_PAIRDOWN_count (dieOfTile (tileOf l)) + 1) (2 ^ 64 - 1)
  else copy = made ∧ (t.blk.copy? key).map (·.phase) = some .toCross

/-- The inputs of a source of a tile's replication logic: Garnet, restore and pieces (R29). -/
def Machine.ReplTile.source (r : ReplTile) : Nat → List ReplItem
  | 0 => r.garnet
  | 1 => r.restore
  | _ => r.pieces

/-- A copy on tile `t`'s die holds a cell of the tile's Basalt slice (R423). -/
def inSlice (t : TileId) (kv : Nat × CopyRec) : Bool := kv.1 % 4 = t.val / 8 && kv.2.cells.any fun n => n / 65536 = t.val % 8

/-- A link is live in every direction of every die pair (R154). -/
abbrev AllLive (s : State) : Prop := ∀ k < 12, 0 < s.blk.liveLinks k

/-- Frame `fid` has a copy of each die on which the target names a link by the tables of die `td`, and no other (R112). -/
def CopiedTo (s t : State) (fid td : Nat) (target : Target) (f : Frame) (c : Nat) : Prop :=
  ∀ d < 4, (t.blk.copy? (4 * fid + d)).map (fun x => (x.frame, x.cls, x.target)) =
    if s.blk.legsBy td d target ≠ [] then some (f, c, target) else none

/-- From `s` to `t` a link has sent a link control frame of a type, the newest that the block has sent, with a body of which `p`
holds; it carries a link word in Staketu mode alone (R50, R51, R55). -/
def LcfSent (s t : State) (l : Nat) (ty : LcfType) (p : Lcf → Prop) : Prop :=
  ∃ (w : Option (BitVec 48)) (b : Lcf), w.isSome = s.blk.staketu l ∧ b.txStamp = BitVec.ofNat 32 (s.blk.stamp l) ∧ p b ∧
    Sent t l (.lcf l w (lcfFrame s.blk.imgLcf l ty b))

/-- A descriptor of kind `kind` that opened no context has ended: its record waits for its CPL ring, its end is counted, and
its queue's head has passed it (R231, R252, R253). -/
def DescEnded (s t : State) (queue : QueueId) (kind : Nat) (d : ColDesc) (status : Nat) : Prop :=
  t.blk.cplWait.get [] d.cring.toNat = s.blk.cplWait.get [] d.cring.toNat ++
    [⟨1, beBytes 1 status ++ beBytes 1 kind ++ beBytes 2 d.group.toNat ++ beBytes 2 d.seq.toNat ++ beBytes 2 0 ++
      beBytes 4 d.tag.toNat ++ List.replicate 20 0⟩] ∧
  t.blk.fld .DMA_CQ_HEAD_head queue = (s.blk.fld .DMA_CQ_HEAD_head queue + 1) % 2 ^ 32 ∧
  (status = 0 → t.blk.fld .COL_COMPLETED_count 0 = min (s.blk.fld .COL_COMPLETED_count 0 + 1) (2 ^ 64 - 1)) ∧
  (status ≠ 0 → t.blk.fld .COL_FAILED_count 0 = min (s.blk.fld .COL_FAILED_count 0 + 1) (2 ^ 64 - 1) ∧
    t.blk.flag .COL_INT_ctx_fail 0 = true)

/-- A command of the checkpoint command queue has been taken, its record waiting for its CPL ring (R297, R299). -/
def CkpRecorded (s t : State) (ring cring status op index tag state value0 value1 : Nat) : Prop :=
  t.blk.cplWait.get [] cring = s.blk.cplWait.get [] cring ++
    [⟨4, beBytes 1 status ++ beBytes 1 op ++ beBytes 2 index ++ beBytes 2 tag ++ beBytes 1 state ++ beBytes 1 0 ++
      beBytes 8 value0 ++ beBytes 8 value1 ++ beBytes 8 0⟩] ∧
  t.blk.fld .DMA_RING_HEAD_head ring = (s.blk.fld .DMA_RING_HEAD_head ring + 1) % 2 ^ 32

/-- The fields in which Obsidian shows the fuses (R432, R459). -/
def fuseFields : List Fld :=
  [.OBS_LC_state, .OBS_LC_dbg_open, .OBS_KEY_STATUS_programmed, .OBS_KEY_STATUS_revoked, .OBS_SVN_MIN_min, .OBS_REPAIR_fused]

/-- The fields that the end of a command of Obsidian writes (R435, R436), the armed vectors with them (R487). -/
def obsEndFields : List Fld :=
  [.OBS_CMD_STATUS_busy, .OBS_CMD_STATUS_result, .OBS_INT_cmd_done, .OBS_INT_fuse_err, .MGT_IRQ_ARMED_armed, .MSIX_PBA_pend]

/-- The condition under which each of the 302 commands completes: the debug module is not on the port (R495). Every other command completes from every state and with every operand: what it finds unfit it
leaves as the spec says, which is its effect there. -/
def Completes (c : Instr) (s : State) : Prop :=
  match c with
  | .debugTransport => s.blk.debugOpen = false
  | _ => True

/-- The commands that may program fuses (R433, R436). -/
def programsFuses (c : Instr) : Bool :=
  match c with
  | .lcAdvance _ => true
  | .rmaUnlock _ => true
  | .keySet _ => true
  | .keyRevoke _ => true
  | .svnRaise _ => true
  | .rstmapSet _ => true
  | .repairFuse _ => true
  | _ => false

/-- A command of Obsidian has ended with a result (R435): of the block it has left all else as it was, but for the fields `fs`,
the soft repairs, the count of free values used and what has been sent. -/
def ObsEnded (s t : State) (result : Nat) (fs : List Fld) : Prop :=
  t.blk.fld .OBS_CMD_STATUS_result 0 = result ∧ t.blk.flag .OBS_CMD_STATUS_busy 0 = false ∧
  t.blk.flag .OBS_INT_cmd_done 0 = true ∧ (result = 0x0A → t.blk.flag .OBS_INT_fuse_err 0 = true) ∧ t.pending = s.pending ∧
  t.blk = { s.blk with obsCmd := none, bist := none, fields := t.blk.fields, out := t.blk.out, fresh := t.blk.fresh,
                       softSram := t.blk.softSram, softHbm := t.blk.softHbm } ∧
  ∀ f i, f ∉ obsEndFields ++ fs → t.blk.fld f i = s.blk.fld f i

/-- The management firmware or the recovery monitor has one request to serve, from the mailbox, and nothing else waits. -/
def AsksMailbox (s : State) (q : MbxReq) (cmd : Nat) : Prop :=
  s.blk.fwReady = true ∧ s.blk.mbxReqs = [q] ∧ q.cmd = cmd ∧ s.blk.mbxRoom = true ∧ s.blk.mbxEvents = [] ∧
    s.blk.uart.reqs = []

/-- A mailbox request has its response (R481 to R483): it lies in the D2H slot of the next number, with ref its seq, and DONE
is ref. -/
def MailboxAnswered (s t : State) (q : MbxReq) (status : Nat) (payload : List Byte) : Prop :=
  t.blk.fld .MGT_MBX_D2H_SENT_seq 0 = (s.blk.fld .MGT_MBX_D2H_SENT_seq 0 + 1) % 2 ^ 32 ∧
  t.blk.fld .MGT_MBX_H2D_DONE_seq 0 = q.seq % 2 ^ 32 ∧ t.blk.flag .MGT_MBX_INT_d2h 0 = true ∧ t.blk.mbxReqs = [] ∧
  (∀ w < 64, t.blk.fld .MGT_MBX_D2H_word (64 * ((s.blk.fld .MGT_MBX_D2H_SENT_seq 0 + 1) % 2 ^ 32 % 16) + w) =
    beAt (beBytes 4 ((s.blk.fld .MGT_MBX_D2H_SENT_seq 0 + 1) % 2 ^ 32) ++ beBytes 4 q.seq ++ beBytes 2 q.cmd ++
      beBytes 2 payload.length ++ beBytes 2 status ++ beBytes 2 0 ++ payload) (4 * w) 4) ∧
  t.blk.hbm = s.blk.hbm ∧ t.blk.uart = s.blk.uart ∧ t.pending = s.pending ∧ t.fuses = s.fuses

/-- One request waits on the debug UART, in its recovery framing, and nothing else does. -/
def AsksUart (s : State) (q : MbxReq) (cmd : Nat) : Prop :=
  s.blk.fwReady = true ∧ s.blk.uart.reqs = [q] ∧ q.cmd = cmd ∧ s.blk.mbxReqs = [] ∧ s.blk.mbxEvents = []

/-- A request of the debug UART has its response there (R496). -/
def UartAnswered (s t : State) (q : MbxReq) (status : Nat) (payload : List Byte) : Prop :=
  t.blk.uart.done = q.seq ∧ t.blk.uart.sent = (s.blk.uart.sent + 1) % 2 ^ 32 ∧ t.blk.uart.taken = s.blk.uart.taken ∧
  t.blk.uart.reqs = [] ∧
  Output.uart (Blk.uartWrap (Blk.message ((s.blk.uart.sent + 1) % 2 ^ 32) q.seq q.cmd status payload)) ∈ t.blk.out ∧
  t.pending = s.pending ∧ t.fuses = s.fuses

/-- The fuses are as a part can have them (R432 to R436, R439, R446): from PROVISIONED on there are a device secret and a signing
key that is not revoked; only programmed slots 0 to 3 are revoked, and none before PROVISIONED; the secret is destroyed in RMA and
not before DEPLOYED; each number is within its fuses. -/
def FusesSound (f : Fuses) : Prop :=
  f.lc ≤ 4 ∧
  (2 ≤ f.lc → f.secret.isSome = true ∧ ∃ k < 4, f.programmed k = true ∧ f.revoked.testBit k = false) ∧
  (∀ k, f.revoked.testBit k = true → k < 4 ∧ f.programmed k = true) ∧ (f.lc ≤ 1 → f.revoked = 0) ∧
  (f.destroyed = true → 3 ≤ f.lc) ∧ (f.lc = 4 → f.destroyed = true) ∧
  f.svn.length = 3 ∧ (∀ c < 3, f.svn.getD c 0 ≤ 64) ∧ f.repairs ≤ 2048 ∧
  ∀ k v, f.levels.find k = some v → k ≤ 7 ∧ v ≤ 4

/-- Fuses are only programmed: from `a` to `b` no fuse is undone (R432, R434, R436, R446). -/
def FusesGrow (a b : Fuses) : Prop :=
  a.lc ≤ b.lc ∧ (∀ k, a.revoked.testBit k = true → b.revoked.testBit k = true) ∧
  (∀ k v, a.keys.find k = some v → b.keys.find k = some v) ∧ (∀ c, a.svn.getD c 0 ≤ b.svn.getD c 0) ∧
  (∀ k v, a.levels.find k = some v → b.levels.find k = some v) ∧ a.repairs ≤ b.repairs ∧
  (a.destroyed = true → b.destroyed = true) ∧ (∀ k, a.secret = some k → b.secret = some k) ∧ b.devId = a.devId

end Sys2Proof
end

