-- ==== Sys2Proof/Certificates/Slice0/Obligations.lean ====
section
/-!
DEFINITION. The statements for the provers: what each family of commands does to the block, in the terms of Safety, and what
holds of every step. Where a docstring names rules, R<n> are the numbered rules of the spec.
-/

open Sys2Proof Sys2Proof.Machine

/-! ### Register accesses (R9 to R14, R283, R362, R372, R415) -/

/-- R12, by access code: a 32-bit write of a register whose write does nothing more leaves in each field what the field's access
code says, and changes nothing else. (The registers whose write does more are stated by rows of their own.) R73, R183, R371:
a register of a sub-port that does not exist reads as 0 and ignores writes. -/
def Obligations.RegisterWriteByAccessCode : Prop :=
  (∀ (s : State) (path : Path) (a : BitVec 26) (v : BitVec 64) (r : Reg) (i : Nat),
    Reg.find a.toNat = some (r, i, false) → (∀ n, addrDomain a.toNat = some n → s.blk.isolated n = false) →
    s.blk.missing r i = true → a.toNat % 4 = 0 → r.info.wide = false →
    Runs (.registerWrite path a v false) s (fun t => t = s) ∧
    Runs (.lowWordRead a) s fun t => t = { s with blk := s.blk.emit (.data 0) }) ∧
  ∀ (s : State) (path : Path) (a : BitVec 26) (v : BitVec 64) (r : Reg) (i : Nat),
    Answers s.blk a.toNat r i false → r.info.wide = false → a.toNat % 4 = 0 → actingReg r = false → PathOpen s path →
    Runs (.registerWrite path a v false) s fun t =>
      (∀ f ∈ r.info.fields, t.blk.fld f i = accessLeaves (f.accessAt i) f.info.width (s.blk.fld f i)
        (v.toNat % 2 ^ 32 / 2 ^ f.info.lo % 2 ^ f.info.width)) ∧
      OnlyFields s t (r.info.fields.map fun f => (f, i))

/-- R11: a read of the low word of a 64-bit register returns it and latches the high word; a write of the low word is held, and
changes nothing else; a write of the high word commits it with the low word held, or, where none is held, alone, the low
word then staying as it was (a low word with W1C fields is written as 0, the log's entry on R11). Where no high word waits,
a read of the high word returns the live one, a choice of the model (log entry 14). -/
def Obligations.SixtyFourBitHalves : Prop :=
  (∀ (s : State) (a : BitVec 26) (r : Reg) (i : Nat),
    Answers s.blk a.toNat r i false → r.info.wide = true → a.toNat % 4 = 0 →
    Runs (.lowWordRead a) s fun t => t.blk.out = .data (s.blk.readReg r i % 2 ^ 32) :: s.blk.out ∧
      t.blk.hiLatch.find a.toNat = some (s.blk.readReg r i / 2 ^ 32)) ∧
  (∀ (s : State) (a : BitVec 26) (r : Reg) (i v : Nat),
    Answers s.blk a.toNat r i true → a.toNat % 4 = 0 → s.blk.hiLatch.find (a.toNat - 4) = some v →
    Runs (.lowWordRead a) s fun t => t.blk.out = .data v :: s.blk.out ∧ t.blk.hiLatch.find (a.toNat - 4) = none) ∧
  (∀ (s : State) (a : BitVec 26) (r : Reg) (i : Nat),
    Answers s.blk a.toNat r i true → a.toNat % 4 = 0 → s.blk.hiLatch.find (a.toNat - 4) = none →
    Runs (.lowWordRead a) s fun t => t.blk.out = .data (s.blk.readReg r i / 2 ^ 32) :: s.blk.out) ∧
  (∀ (s : State) (path : Path) (a : BitVec 26) (v : BitVec 32) (r : Reg) (i : Nat),
    Answers s.blk a.toNat r i false → r.info.wide = true → a.toNat % 4 = 0 → PathOpen s path →
    Runs (.lowWordWrite path a v) s fun t => t.blk.loHeld.find a.toNat = some v.toNat ∧
      t = { s with blk := { s.blk with loHeld := t.blk.loHeld } }) ∧
  (∀ (s : State) (path : Path) (a : BitVec 26) (v : BitVec 32) (r : Reg) (i lo : Nat),
    Answers s.blk a.toNat r i true → a.toNat % 4 = 0 → actingReg r = false → PathOpen s path →
    (s.blk.loHeld.find (a.toNat - 4) = some lo ∨
      s.blk.loHeld.find (a.toNat - 4) = none ∧ (∀ f ∈ r.info.fields, f.info.access ≠ .w1c) ∧ lo = s.blk.regRaw r i % 2 ^ 32) →
    Runs (.highWordWrite path a v) s fun t =>
      (∀ f ∈ r.info.fields, t.blk.fld f i = accessLeaves (f.accessAt i) f.info.width (s.blk.fld f i)
        ((v.toNat * 2 ^ 32 + lo) / 2 ^ f.info.lo % 2 ^ f.info.width)) ∧
      t.blk.loHeld.find (a.toNat - 4) = none)

/-- R415: an access of a domain that is not ON, in BAR0 or in a BAR2 window: a read returns 0xDEAD_0000 plus the domain's index
(in both words of a 64-bit read), a write is discarded, and each is counted and sets RSTC_INT.iso, the first one's place
being latched. Nothing else changes. (That an access which is not naturally aligned does so too is the model's choice, log
entry 13.) R429: with PCIE_REFCLK failed no access comes over the link. R283: a read of GNS_CQ_STATUS returns the register
and clears its peak; R372: one of JSP_MRG_RDm returns it and puts its peak to its value; R362: a read of the user counter
view returns the counter where its group is permitted (of a programmable counter its neighbour above it too, R363), and
otherwise 0, which is counted. -/
def Obligations.WindowAccesses : Prop :=
  ((∀ (s : State) (bar : Bar) (a : BitVec 30) (acc : BusAccess), s.blk.flag .RSTC_CLK_STATUS_pcie_ref 0 = true →
    Runs (.isolatedAccess bar a acc) s fun t => t = s) ∧
  ∀ (s : State) (bar : Bar) (a : BitVec 30) (acc : BusAccess) (n : Nat), s.blk.pcieUp = true →
    (bar = .bar0 ∧ addrDomain (a.toNat % 2 ^ 26) = some n ∨ bar = .bar2 ∧ windowDomain a.toNat = some n) →
    s.blk.domOn n = false →
    Runs (.isolatedAccess bar a acc) s fun t =>
      t.blk.flag .RSTC_INT_iso 0 = true ∧
      t.blk.fld .RSTC_ISO_CNT_count 0 = min (s.blk.fld .RSTC_ISO_CNT_count 0 + 1) (2 ^ 64 - 1) ∧
      (acc = .read 4 → t.blk.out.head? = some (.data (0xDEAD0000 + n))) ∧
      (acc = .read 8 → t.blk.out.head? = some (.data ((0xDEAD0000 + n) * (2 ^ 32 + 1)))) ∧
      (s.blk.flag .RSTC_INT_iso 0 = false →
        t.blk.fld .RSTC_ISO_ADDR_bar 0 = (if bar = .bar0 then 0 else 1) ∧
        t.blk.fld .RSTC_ISO_ADDR_offset 0 = (if bar = .bar0 then a.toNat % 2 ^ 26 else a.toNat)) ∧
      OnlyFieldsCnt s t [(.RSTC_INT_iso, 0), (.RSTC_ISO_CNT_count, 0), (.RSTC_ISO_ADDR_bar, 0), (.RSTC_ISO_ADDR_offset, 0)]) ∧
  ((∀ (s : State) (d : DieId), (∀ n, addrDomain (Reg.GNS_CQ_STATUS.addrOf d) = some n → s.blk.isolated n = false) →
    Runs (.cqStatusRead d) s fun t =>
      t.blk.out = .data (s.blk.readReg .GNS_CQ_STATUS d) :: s.blk.out ∧
      t.blk.fld .GNS_CQ_STATUS_peak d = 0 ∧ OnlyFields s t [(.GNS_CQ_STATUS_peak, d)]) ∧
  (∀ (s : State) (m : MonitorId),
    Runs (.marginRead m) s fun t =>
      t.blk.out = .data (s.blk.readReg .JSP_MRG_RD m) :: s.blk.out ∧
      t.blk.fld .JSP_MRG_RD_peak m = s.blk.fld .JSP_MRG_RD_value m % 2 ^ 16 ∧ OnlyFields s t [(.JSP_MRG_RD_peak, m)]) ∧
  (∀ (s : State) (a : BitVec 26) (r : Reg) (i g : Nat), Blk.counterAt a.toNat = some (r, i, g) → s.blk.pcieUp = true →
    s.blk.bit .JSP_UPERM_groups 0 g = true → (∀ n, r.domain i = some n → s.blk.isolated n = false) →
    Runs (.userViewRead false a) s (fun t => t = { s with blk := s.blk.emit (.data
      (s.blk.counterValue r i + if r = .JSP_PCNT ∧ i % 2 = 0 then 2 ^ 32 * s.blk.counterValue r (i + 1) else 0)) }) ∧
    Runs (.userViewRead true a) s (fun t => t = { s with blk := s.blk.emit (.data
      (s.blk.shadow.get 0 a.toNat + if r = .JSP_PCNT ∧ i % 2 = 0 then 2 ^ 32 * s.blk.shadow.get 0 (a.toNat + 4) else 0)) })) ∧
  (∀ (s : State) (shadow : Bool) (a : BitVec 26),
    (∀ r i g, Blk.counterAt a.toNat = some (r, i, g) → s.blk.bit .JSP_UPERM_groups 0 g = false) → s.blk.pcieUp = true →
    Runs (.userViewRead shadow a) s fun t => t.blk.out.head? = some (.data 0) ∧
      t.blk.fld .JSP_UREAD_DENIED_count 0 = min (s.blk.fld .JSP_UREAD_DENIED_count 0 + 1) (2 ^ 64 - 1) ∧
      OnlyFieldsCnt s t [(.JSP_UREAD_DENIED_count, 0)]))

/-! ### Forwarding tables, learning and locks (R88 to R105, R414) -/

/-- R101: a free lock is taken for the writer's path (the JTAG port's counts as the management cores', a reading the log names;
two writes in one nanosecond count as one management clock, and a freed lock keeps its last holder's code: choices of the
model, log entry 125); a lock held is not taken, but by the management cores in the very time in which the host took it; a
lock is freed by the path that holds it, and by the management cores whoever holds it. R103, R105: a record of the
management cores' own queue that passes the checks of R104 and none of whose entries is reserved: a write puts every entry
of its body into all four die copies, a clear puts zero, and the completion says OK and how many entries were applied.
Nothing but the tables changes. (Tables 1, 3 and 5 have further rules of their own.) R414: while a die's copies are loaded a
record of that queue waits, and nothing is applied. -/
def Obligations.TableLocksAndRecords : Prop :=
  ((∀ (s : State) (n : Fin 9) (p : Path), s.blk.flag .DMA_TBL_LOCK_locked n = false →
    Runs (.lockTake n p) s fun t => t.blk.flag .DMA_TBL_LOCK_locked n = true ∧
      t.blk.fld .DMA_TBL_LOCK_holder n = (if p = .host then 0 else 1) ∧
      OnlyFields { s with blk := { s.blk with lockAt := t.blk.lockAt } } t
        [(.DMA_TBL_LOCK_locked, n), (.DMA_TBL_LOCK_holder, n)]) ∧
  (∀ (s : State) (n : Fin 9) (p : Path), s.blk.flag .DMA_TBL_LOCK_locked n = true → p ≠ .host →
    s.blk.lockAt.find n = some s.blk.now →
    Runs (.lockTake n p) s fun t => t.blk.flag .DMA_TBL_LOCK_locked n = true ∧ t.blk.fld .DMA_TBL_LOCK_holder n = 1) ∧
  (∀ (s : State) (n : Fin 9) (p : Path), s.blk.flag .DMA_TBL_LOCK_locked n = true →
    (p = .host ∨ s.blk.lockAt.find n ≠ some s.blk.now) →
    Runs (.lockTake n p) s fun t => t = s) ∧
  (∀ (s : State) (n : Fin 9) (p : Path), n ≠ 3 → s.blk.flag .DMA_TBL_LOCK_locked n = true →
    (p ≠ .host ∨ s.blk.fld .DMA_TBL_LOCK_holder n = 0) →
    Runs (.lockRelease n p) s fun t => t.blk.flag .DMA_TBL_LOCK_locked n = false ∧
      OnlyFields s t [(.DMA_TBL_LOCK_locked, n)]) ∧
  (∀ (s : State) (n : Fin 9), s.blk.flag .DMA_TBL_LOCK_locked n = true → s.blk.fld .DMA_TBL_LOCK_holder n = 1 →
    Runs (.lockRelease n .host) s fun t => t = s)) ∧
  ((∀ (s : State) (r : TblRecord) (i : Instr), s.blk.tableLoads ≠ [] →
    i ∈ [Instr.tblWrite .mgmtQueue r, .tblClear .mgmtQueue r, .tblInsert .mgmtQueue r, .tblDelete .mgmtQueue r] →
    Runs i s fun t => ∃ x : TblRecord, x = { r with op := x.op } ∧
      t = { s with blk := { s.blk with tblWaits := s.blk.tblWaits ++ [x] } }) ∧
  ∀ (s : State) (r : TblRecord) (k : Nat) (d : DieId), s.blk.tableLoads = [] →
    r.table.toNat ∈ [0, 2, 4, 6, 7, 8] → k < r.count.toNat →
    (s.blk.recordStatus .mgmtQueue { r with op := 0 } = 0 →
      (∀ j < r.count.toNat, entryBad r.table.toNat (Blk.bodyEntry { r with op := 0 } j) = false) →
      Runs (.tblWrite .mgmtQueue { r with op := 0 }) s fun t =>
        t.blk.tableEntry d r.table.toNat (r.first.toNat + k) =
          beAt r.body (k * entryBytes r.table.toNat) (entryBytes r.table.toNat) ∧
        t.blk.out = .tableDone r.tag.toNat 0 r.count.toNat :: s.blk.out ∧
        t = { s with blk := { s.blk with tables := t.blk.tables, out := t.blk.out } }) ∧
    (s.blk.recordStatus .mgmtQueue { r with op := 1 } = 0 →
      Runs (.tblClear .mgmtQueue { r with op := 1 }) s fun t =>
        t.blk.tableEntry d r.table.toNat (r.first.toNat + k) = 0 ∧
        t.blk.out = .tableDone r.tag.toNat 0 r.count.toNat :: s.blk.out ∧
        t = { s with blk := { s.blk with tables := t.blk.tables, out := t.blk.out } }))

/-- R98, R99, R103: the learning table. An insert record of one key with a free entry in its bucket writes it, a delete record
removes it; the oldest learn event of an unknown source is learned; and the ageing sweep removes the dynamic entries older
than age_s. -/
def Obligations.LearningTable : Prop :=
  (∀ (s : State) (r : TblRecord) (i : Nat) (d : DieId), s.blk.tableLoads = [] → r.count = 1 → i < 262144 →
    s.blk.recordStatus .mgmtQueue { r with op := 2 } = 0 →
    entryBad 3 (Blk.bodyEntry { r with op := 2 } 0) = false →
    s.blk.findLearn 0 (bits (Blk.bodyEntry r 0) 79 68) (bits (Blk.bodyEntry r 0) 127 80) = none →
    s.blk.freeLearn (bits (Blk.bodyEntry r 0) 79 68) (bits (Blk.bodyEntry r 0) 127 80) = some i → r.op = 2 →
    Runs (.tblInsert .mgmtQueue r) s fun t => t.blk.tableEntry d 3 i = Blk.bodyEntry r 0 ∧
      t.blk.out = .tableDone r.tag.toNat 0 1 :: s.blk.out) ∧
  (∀ (s : State) (r : TblRecord) (i : Nat) (d : DieId), s.blk.tableLoads = [] → r.count = 1 → i < 262144 → r.op = 3 →
    s.blk.recordStatus .mgmtQueue r = 0 →
    s.blk.findLearn 0 (bits (Blk.bodyEntry r 0) 79 68) (bits (Blk.bodyEntry r 0) 127 80) = some i →
    Runs (.tblDelete .mgmtQueue r) s fun t => t.blk.tableEntry d 3 i = 0 ∧
      t.blk.out = .tableDone r.tag.toNat 0 1 :: s.blk.out) ∧
  (∀ (s : State) (e : LearnEvent) (rest : List LearnEvent) (i : Nat) (d : DieId),
    s.blk.flag .DMA_TBL_LOCK_locked 3 = false → s.blk.learn = e :: rest → i < 262144 →
    s.blk.findLearn 0 e.vid e.mac = none → s.blk.atLimit e.link = false → s.blk.freeLearn e.vid e.mac = some i →
    Runs .learnEvent s fun t => t.blk.learn = rest ∧
      t.blk.tableEntry d 3 i = learnEntry e.mac e.vid e.link false s.blk.seconds16) ∧
  (∀ (s : State) (i : Nat) (d : DieId), s.blk.fld .DMA_TBL_AGE_age_s 0 ≠ 0 → s.blk.flag .DMA_TBL_LOCK_locked 3 = false →
    i < 262144 → Blk.dynamicEntry (s.blk.tableEntry 0 3 i) = true →
    s.blk.fld .DMA_TBL_AGE_age_s 0 < (s.blk.seconds16 + 65536 - bits (s.blk.tableEntry 0 3 i) 55 40) % 65536 →
    Runs .ageingSweep s fun t => t.blk.tableEntry d 3 i = 0)

/-! ### Admission, Basalt and Agate (R127 to R155) -/

/-- R128, R129, R132 to R134, R139: the allocator. A copy within its class's guarantee, or within what alpha leaves it of the
shared cells, is admitted with all its cells, reserved out of the free list, when its request is decided, and the pointer
moves on. Which free cells it takes, the lowest-numbered, is the model's choice (log entry 32), and that it takes all of
them or none (log entry 174). A lossy copy that does not fit is discarded and counted; a refused lossless copy requests
again; one refused for longer than stall_us is counted and reported once. -/
def Obligations.AdmissionDecided : Prop :=
  (∀ (s : State) (d : DieId) (idle key : Nat) (t : Fin 32) (c : CopyRec),
    (s.blk.bsl d).requests = [(t.val, .copy key)] → (s.blk.bsl d).carried = [] → key % 4 = d → s.blk.copy? key = some c →
    c.inLink = none → c.tx = none → s.blk.receivers key c = s.blk.namedLegs d c.target → s.blk.namedLegs d c.target ≠ [] →
    c.ncells ≤ s.blk.freeCount d → (s.blk.overCells d c.cls c.ncells : Int) ≤ s.blk.freeShared d →
    (s.blk.overCells d c.cls c.ncells = 0 ∨ 8 < s.blk.fld .BSL_POOL_TC_alpha (8 * d + c.cls) ∨
      ∀ depth ∈ 0 :: ((s.blk.namedLegs d c.target).filterMap fun x => s.blk.queueFor x.1 c.cls c.node).map (s.blk.queueCells d),
        ((depth + c.ncells) * 16 : Int) ≤ 2 ^ s.blk.fld .BSL_POOL_TC_alpha (8 * d + c.cls) * s.blk.freeShared d) →
    Runs (.admissionRequest d idle) s fun u =>
      (u.blk.copy? key).map (fun x => (x.phase, x.todo, x.cells)) =
        some (.granted, s.blk.namedLegs d c.target, s.blk.pickCells d c.ncells) ∧
      (u.blk.bsl d).requests = [] ∧
      (∀ n, (u.blk.bsl d).cells.find n =
        if n ∈ s.blk.pickCells d c.ncells then some ⟨false, c.cls⟩ else (s.blk.bsl d).cells.find n) ∧
      (u.blk.bsl d).pointer = ((s.blk.bsl d).pointer + idle + 1) % 32) ∧
  (∀ (s : State) (d : DieId) (idle key : Nat) (t : Fin 32) (c : CopyRec),
    (s.blk.bsl d).requests = [(t.val, .copy key)] → (s.blk.bsl d).carried = [] → key % 4 = d → s.blk.copy? key = some c →
    c.inLink = none → c.tx = none → s.blk.receivers key c = s.blk.namedLegs d c.target → s.blk.namedLegs d c.target ≠ [] →
    s.blk.lossless d c.cls = false →
    (s.blk.freeCount d < c.ncells ∨ s.blk.freeShared d < (s.blk.overCells d c.cls c.ncells : Int)) →
    Runs (.admissionRequest d idle) s fun u => u.blk.copy? key = none ∧ (u.blk.bsl d).requests = [] ∧
      u.blk.fld .BSL_DROP_NOCELL_count d = min (s.blk.fld .BSL_DROP_NOCELL_count d + 1) (2 ^ 64 - 1)) ∧
  (∀ (s : State) (fid : Nat) (d : DieId) (c : CopyRec), s.blk.copy? (4 * fid + d) = some c → c.phase = .refused →
    dieOfTile c.tile = d →
    Runs (.admissionRetry fid d) s fun u => u.blk.copy? (4 * fid + d) = some { c with phase := .asked } ∧
      (u.blk.bsl d).requests = (s.blk.bsl d).requests ++ [(c.tile, .copy (4 * fid + d))]) ∧
  (∀ (s : State) (fid : Nat) (d : DieId) (c : CopyRec), s.blk.copy? (4 * fid + d) = some c → c.phase = .refused →
    c.turned = true → c.stalled = false → s.blk.lossless d c.cls = true →
    Runs (.admissionStall fid d) s fun u => u.blk.copy? (4 * fid + d) = some { c with stalled := true } ∧
      u.blk.fld .BSL_ADM_STALL_count d = min (s.blk.fld .BSL_ADM_STALL_count d + 1) (2 ^ 64 - 1) ∧
      u.blk.flag .BSL_INT_stall d = true)

/-- R137, R151, R159, R161: cut-through: the first cell of a granted copy puts it on the queue of a link that it goes to
cut-through; store and forward: the last cell does. While an earlier frame of its ingress link and class has still to be
enqueued for one of its links, neither does. -/
def Obligations.CopiesEnqueued : Prop :=
  (∀ (s : State) (fid q : Nat) (d : DieId) (c : CopyRec) (x : Leg), s.blk.copy? (4 * fid + d) = some c →
    c.phase = .granted → c.first = false → s.blk.cellAt (4 * fid + d) 0 c = true → c.todo = [x] →
    s.blk.behindEarlier (4 * fid + d) c = false →
    s.blk.cutThrough c x.1 = true → c.cls ≠ 7 → s.blk.inService x.1 = true → s.blk.queueFor x.1 c.cls c.node = some q →
    Runs (.firstCellWritten fid d) s fun u =>
      ∃ e : QEntry, u.blk.queue q = s.blk.queue q ++ [e] ∧ e.copy = 4 * fid + d ∧ e.cells = c.ncells) ∧
  (∀ (s : State) (fid q : Nat) (d : DieId) (c : CopyRec) (x : Leg), s.blk.copy? (4 * fid + d) = some c →
    c.phase = .granted → dieOfTile c.tile = d → c.todo = [x] → c.cls ≠ 7 → c.chkFail = false →
    s.blk.behindEarlier (4 * fid + d) c = false →
    s.blk.inService x.1 = true → s.blk.queueFor x.1 c.cls c.node = some q →
    (∀ r, s.blk.frame? fid = some r → r.whole = true ∧ r.chkFail = false) →
    Runs (.lastCellWritten fid d) s fun u =>
      ∃ e : QEntry, u.blk.queue q = s.blk.queue q ++ [e] ∧ e.copy = 4 * fid + d ∧ e.cells = c.ncells) ∧
  (∀ (s : State) (fid : Nat) (d : DieId) (c : CopyRec), s.blk.copy? (4 * fid + d) = some c → c.first = false →
    s.blk.behindEarlier (4 * fid + d) c = true →
    Runs (.firstCellWritten fid d) s (· = s) ∧ Runs (.lastCellWritten fid d) s (· = s))

/-- R128, R149 to R151: a copy's first cell takes an Agate credit of its class, and joins the bundle with a header that gives
its place in the tile's stream and the frame's tag (what the spec leaves open of the header, log entry 143); a cell that
lands leaves its lane and, in its stream's order, is released, the credit of a cell whose copy is gone being on its way
back; a credit that arrives may be used again. R153, R154: the states of an Agate link's directions, as D2D_LNK_STATUS shows
them at the end that receives each. Where a direction leaves LIVE here another link of the pair is live in it, so that the
pair is not down. That the auto_retrain of the end which receives a failed direction governs it is read by inference (log
entry 26). -/
def Obligations.AgateLinks : Prop :=
  ((∀ (s : State) (fid : Nat) (d : DieId) (c : CopyRec) (k : Nat), s.blk.copy? (4 * fid + d) = some c → c.phase = .toCross →
    c.sent = 0 → dieOfTile c.tile ≠ d → k = dirOf (dieOfTile c.tile) d → 0 < vget (s.blk.dir k).credits c.cls →
    (∀ j < 8, (s.blk.lane (2 * (8 * (k / 2) + j) + k % 2)).cells = []) → 0 < s.blk.liveLinks k → 0 < c.ncells →
    (∀ r, s.blk.frame? fid = some r → r.link = none ∨ 0 < Blk.cellsHere r) →
    Runs (.agateCellSend fid d) s fun u =>
      u.blk.copy? (4 * fid + d) = some { c with sent := 1, phase := .crossing, ftag := (s.blk.dir k).sendTag.get 0 c.tile } ∧
      (u.blk.dir k).credits = vsub (s.blk.dir k).credits c.cls 1 ∧
      ∀ j < 8, s.blk.pickLink (k / 2) (k % 2) = some j →
        (u.blk.lane (2 * (8 * (k / 2) + j) + k % 2)).cells.map (fun x => (x.copy, x.idx, x.cls, x.tile, x.seq)) =
          [(4 * fid + d, 0, c.cls, c.tile, (s.blk.dir k).sendSeq.get 0 c.tile)] ∧
        (u.blk.lane (2 * (8 * (k / 2) + j) + k % 2)).cells.map (fun x => (x.head.length, beAt x.head 2 2, beAt x.head 10 2)) =
          [(32, (s.blk.dir k).sendSeq.get 0 c.tile % 65536, (s.blk.dir k).sendTag.get 0 c.tile % 65536)]) ∧
  (∀ (s : State) (l : AgateId) (back : Bool) (x : AgateCell) (rest : List AgateCell) (k : Nat), k = 2 * (l / 8) + dirBit back →
    (s.blk.lane (2 * l + dirBit back)).cells = x :: rest → (s.blk.dir k).landing = [] →
    x.seq = (s.blk.dir k).recvSeq.get 0 x.tile → x.ready = false → s.blk.copy? x.copy = none →
    s.blk.transfers.find x.copy = none →
    Runs (.agateCellLanded l back) s fun u => (u.blk.lane (2 * l + dirBit back)).cells = rest ∧
      (u.blk.dir k).landing = [] ∧ (u.blk.dir k).inFlight = vadd (s.blk.dir k).inFlight x.cls 1 ∧
      (u.blk.dir k).recvSeq.get 0 x.tile = (x.seq + 1) % 65536) ∧
  (∀ (s : State) (p : PairId) (back : Bool) (c : ClassId) (k : Nat), k = 2 * p + dirBit back →
    0 < vget (s.blk.dir k).inFlight c →
    Runs (.agateCreditReturn p back c) s fun u => (u.blk.dir k).inFlight = vsub (s.blk.dir k).inFlight c 1 ∧
      (u.blk.dir k).credits = vadd (s.blk.dir k).credits c 1 ∧ ∀ f i, u.blk.fld f i = s.blk.fld f i) ∧
  (∀ (s : State) (l : AgateId) (back : Bool), (s.blk.lane (2 * l + dirBit back)).badReplays ≠ 3 →
    Runs (.flitCrcFail l back) s fun u =>
      u.blk.fld .D2D_LNK_CRCERR_count (rxEnd l (dirBit back)) =
        min (s.blk.fld .D2D_LNK_CRCERR_count (rxEnd l (dirBit back)) + 1) (2 ^ 64 - 1) ∧
      u.blk.fld .D2D_LNK_REPLAY_count (rxEnd l (dirBit back)) =
        min (s.blk.fld .D2D_LNK_REPLAY_count (rxEnd l (dirBit back)) + 1) (2 ^ 64 - 1) ∧
      (u.blk.lane (2 * l + dirBit back)).badReplays = (s.blk.lane (2 * l + dirBit back)).badReplays + 1)) ∧
  ((∀ (s : State) (l : AgateId) (endJ : Bool), s.blk.flag .D2D_LNK_CTL_en (2 * l + (1 - dirBit endJ)) = true →
    s.blk.domOn (108 + l) = true → s.blk.agIn l 0 .off = true → s.blk.agIn l 1 .off = true →
    Runs (.agateEnSet l endJ) s fun t => t.blk.agIn l 0 .training = true ∧ t.blk.agIn l 1 .training = true ∧
      OnlyFields s t [(.D2D_LNK_CTL_en, 2 * l + dirBit endJ), (.D2D_LNK_STATUS_state, rxEnd l 0),
        (.D2D_LNK_STATUS_state, rxEnd l 1)]) ∧
  (∀ (s : State) (l : AgateId) (endJ : Bool), (∀ b < 2, s.blk.agIn l b .training = true ∨ s.blk.agIn l b .failed = true) →
    Runs (.agateEnClear l endJ) s fun t => t.blk.agIn l 0 .off = true ∧ t.blk.agIn l 1 .off = true ∧
      t.blk.flag .D2D_LNK_CTL_en (2 * l + dirBit endJ) = false ∧
      OnlyFields s t [(.D2D_LNK_CTL_en, 2 * l + dirBit endJ), (.D2D_LNK_STATUS_state, rxEnd l 0),
        (.D2D_LNK_STATUS_state, rxEnd l 1)]) ∧
  (∀ (s : State) (l : AgateId) (back : Bool), s.blk.agIn l (dirBit back) .training = true → s.blk.pairAwake (l / 8) = true →
    Runs (.agateTrained l back) s fun t => t.blk.agIn l (dirBit back) .live = true) ∧
  (∀ (s : State) (l : AgateId) (back : Bool), s.blk.agIn l (dirBit back) .training = true →
    Runs (.agateTrainingTimeout l back) s fun t => t.blk.agIn l (dirBit back) .failed = true ∧
      t.blk.flag .D2D_PAIR_INT_link_fail (l / 8) = true) ∧
  (∀ (s : State) (l : AgateId) (back : Bool), s.blk.agIn l (dirBit back) .draining = true →
    (s.blk.lane (2 * l + dirBit back)).cells = [] →
    Runs (.agateDrained l back) s fun t =>
      t.blk.agIn l (dirBit back) (if s.blk.agReady l = true then .training else .off) = true ∧
      OnlyFields s t [(.D2D_LNK_STATUS_state, rxEnd l (dirBit back))]) ∧
  (∀ (s : State) (l : AgateId) (back : Bool), s.blk.agIn l (dirBit back) .failed = true → s.blk.agReady l = true →
    s.blk.flag .D2D_LNK_CTL_auto_retrain (rxEnd l (dirBit back)) = true →
    Runs (.agateFailedExpiry l back) s fun t => t.blk.agIn l (dirBit back) .training = true ∧
      OnlyFields s t [(.D2D_LNK_STATUS_state, rxEnd l (dirBit back))]) ∧
  (∀ (s : State) (l : AgateId) (back : Bool) (k : Nat), s.blk.agIn l (dirBit back) .live = true → k < 8 → 8 * (l / 8) + k ≠ l →
    s.blk.agIn (8 * (l / 8) + k) (dirBit back) .live = true → s.blk.pairAwake (l / 8) = true →
    Runs (.agateLossOfLock l back) s (fun t => t.blk.agIn l (dirBit back) .failed = true ∧
      t.blk.flag .D2D_PAIR_INT_link_fail (l / 8) = true) ∧
    (s.blk.agIn l (1 - dirBit back) .live = false →
      Runs (.agateRetrain l) s fun t => t.blk.agIn l (dirBit back) .failed = true ∧
        t.blk.flag .D2D_PAIR_INT_link_fail (l / 8) = true)))

/-- R144 to R146: BSL_CNT_SNAP latches the four counts of a die's buffer in one clock; a sweep of the auditor shows the cells it
found unowned, and puts one found so twice on end, filled with zeros, back on the free list; a cell newly found double-owned
is counted. -/
def Obligations.BasaltBooks : Prop :=
  (∀ (s : State) (d : DieId),
    Runs (.countSnap d) s fun t =>
      t.blk.fld .BSL_QUEUED_count d = s.blk.queuedCells d % 2 ^ 20 ∧
      t.blk.fld .BSL_RESERVED_count d = s.blk.reservedCells d % 2 ^ 20 ∧
      t.blk.fld .BSL_RETIRED_count d = s.blk.retired d % 2 ^ 20 ∧
      t.blk.fld .BSL_FREE_count d =
        (524288 - s.blk.retired d - s.blk.queuedCells d - s.blk.reservedCells d) % 2 ^ 20 ∧
      OnlyFields s t [(.BSL_QUEUED_count, d), (.BSL_RESERVED_count, d), (.BSL_RETIRED_count, d), (.BSL_FREE_count, d)]) ∧
  (∀ (s : State) (d : DieId) (cell : Nat) (u : CellUse), s.blk.flag .BSL_AUDIT_CTL_en d = true →
    (s.blk.bsl d).cells = [(cell, u)] → (s.blk.bsl d).astray = [] →
    Runs (.auditSweep d [cell] []) s fun t => t.blk.fld .BSL_AUDIT_STATUS_suspect d = 1 ∧
      ((s.blk.bsl d).suspects.contains cell = false → (t.blk.bsl d).suspects = [cell] ∧ (t.blk.bsl d).cells = [(cell, u)]) ∧
      ((s.blk.bsl d).suspects.contains cell = true → (t.blk.bsl d).cells = [] ∧ (t.blk.bsl d).suspects = [] ∧
        (t.blk.bsl d).bytes.find cell = none ∧
        t.blk.fld .BSL_AUDIT_RECLAIM_count d = min (s.blk.fld .BSL_AUDIT_RECLAIM_count d + 1) (2 ^ 64 - 1) ∧
        t.blk.flag .BSL_INT_leak d = true)) ∧
  (∀ (s : State) (d : DieId) (cell : Nat), s.blk.flag .BSL_AUDIT_CTL_en d = true → (s.blk.bsl d).astray = [] →
    cell ∈ s.blk.ownedCells d → (s.blk.bsl d).doubles.contains cell = false →
    Runs (.auditSweep d [] [cell]) s fun t => (t.blk.bsl d).doubles = [cell] ∧
      t.blk.fld .BSL_AUDIT_DOUBLE_count d = min (s.blk.fld .BSL_AUDIT_DOUBLE_count d + 1) (2 ^ 64 - 1) ∧
      t.blk.flag .BSL_INT_double d = true)

/-! ### Feldspar and egress (R26, R160 to R175) -/

/-- R57, R162 to R165: a selection takes the head frame of the highest strict class that is eligible, or, where none is, of the
weighted class with the least finish tag: it leaves its queue and is on its way to the transmitter; in Staketu mode the
credits held cover it beside those owed already. The tags follow: the link's virtual time becomes the finish tag of a
weighted class that is served, which is its next start tag, and the others keep theirs; within the class the node with the
least finish tag is served likewise, and has the finish tag of its next head frame at once, or leaves with a lag of 0. -/
def Obligations.FeldsparSelects : Prop :=
  ∀ (s : State) (l : LinkId) (lead : Fin 225) (cut : Option Nat) (c : ClassId) (n q tag : Nat) (e : QEntry) (cp : CopyRec)
    (k : SchedNode), s.blk.Picks l lead c n e → q = 256 * portOf l + 32 * c + n → s.blk.copy? e.copy = some cp →
    (s.blk.feldOf l).linkNode.Sorted → ((s.blk.feldOf l).classNodes.get ⟨0, []⟩ c).Sorted →
    k = s.blk.judgedClass l c lead → tag = (k.kids.get ⟨0, 0, 0, false, 0⟩ n).finish →
    Runs (.fldSelection l lead cut) s fun t => t.blk.queue q = (s.blk.queue q).drop 1 ∧
      (∃ x ∈ (t.blk.feldOf l).tx, x.copy = e.copy ∧ x.cls = c) ∧
      (s.blk.staketu l = true → s.blk.owedCredits l c + e.cells ≤ vget (s.blk.link l).held c) ∧
      (s.blk.strict l c = true → (t.blk.feldOf l).linkNode.vtime = (s.blk.feldOf l).linkNode.vtime) ∧
      (s.blk.strict l c = false → (t.blk.feldOf l).linkNode.vtime = s.blk.classTag l c e.bytes ∧
        ((t.blk.feldOf l).linkNode.kids.find c).map (·.start) = some (s.blk.classTag l c e.bytes)) ∧
      (∀ c' < 8, ∀ ne, c' ≠ c.val → s.blk.strict l c' = false → s.blk.eligibleClass l c' lead = some ne →
        ((t.blk.feldOf l).linkNode.kids.find c').map (·.finish) = some (s.blk.classTag l c' ne.2.bytes)) ∧
      (∀ ne ∈ s.blk.eligibleQueues l c lead, tag ≤ (k.kids.get ⟨0, 0, 0, false, 0⟩ ne.1).finish) ∧
      ((t.blk.feldOf l).classNodes.get ⟨0, []⟩ c).vtime = tag ∧
      ∀ x, x = ((t.blk.feldOf l).classNodes.get ⟨0, []⟩ c).kids.get ⟨0, 0, 0, false, 0⟩ n → x.start = tag ∧
        (∀ e', (n, e') ∈ t.blk.eligibleQueues l c lead → x.on = true ∧
          x.finish = tag + schedCost e'.bytes (s.blk.fld .FLD_SUB_CFG_weight q)) ∧
        ((∀ e', (n, e') ∉ t.blk.eligibleQueues l c lead) → x.on = false ∧ x.lag = 0)

/-- R26, R55, R57, R62, R64: the frame selected first begins, where its credits are held, under the next sequence number; at its
end it has left under the number and the link word that it began with, its credits are taken, and with retry on it is held
until it is acknowledged; R60: a RESYNC_MARK that is due follows the frame in progress; R83: a frame too long for the link
is dropped and counted. R172, R175, R183: the gate list of a link, whose sub-port exists: a boundary shows the entry in
force; a commit with gate_en = 0 switches banks at once, and otherwise is pending; the switch toggles the active bank. A
sub-port that does not exist ignores a commit. -/
def Obligations.EgressAndGates : Prop :=
  ((∀ (s : State) (l : LinkId) (x : TxRec) (xs : List TxRec) (c : CopyRec) (n : Nat) (w : BitVec 48),
    (s.blk.feldOf l).tx = x :: xs → (∀ y ∈ xs, y.begun = false) → (∀ u ∈ (s.blk.link l).unacked, u.due = false) →
    (∀ r, s.blk.frame? (x.copy / 4) = some r → r.whole = true ∧ r.chkFail = false) →
    s.blk.copy? x.copy = some c → c.chkFail = false → c.short = false → c.lost = false →
    s.blk.checkFails l x (some c) false = false →
    s.blk.staketu l = true → s.blk.flag .TIL_LNK_STATUS_retry_on l = true →
    (x.begun = true ∧ x.word = some (n, w)) ∨ (x.begun = false ∧ frameLen x.frame ≤ s.blk.linkMax l ∧
      s.blk.mayBegin l x.cls (cellsOf (frameLen x.frame)) = true ∧ n = ((s.blk.link l).lsn + 1) % 8192 ∧
      w = s.blk.linkWord l n false) →
    Runs (.egressPipeline l false) s fun t => (t.blk.feldOf l).tx.map TxRec.copy = xs.map TxRec.copy ∧
      (x.begun = false → bits w.toNat 47 35 = n ∧ (xs = [] → (t.blk.link l).lsn = n)) ∧
      (∃ f, ((s.blk.link l).markDue = false → Sent t l (.frame l (some w) f false)) ∧
        (t.blk.link l).unacked = Blk.keepSent (s.blk.link l).unacked ⟨n, x.copy, x.cls, f, false, false, true⟩ ∧
        (t.blk.link l).held = vsub (s.blk.link l).held x.cls (cellsOf (frameLen f)) ∧
        (t.blk.link l).cellsSent = vadd (s.blk.link l).cellsSent x.cls (cellsOf (frameLen f))) ∧
      (t.blk.link l).markDue = false) ∧
  (∀ (s : State) (l : LinkId) (x : TxRec) (xs : List TxRec) (c : CopyRec), (s.blk.feldOf l).tx = x :: xs →
    (∀ y ∈ x :: xs, y.begun = false) → (∀ r, s.blk.frame? (x.copy / 4) = some r → r.whole = true) →
    s.blk.copy? x.copy = some c → s.blk.linkMax l < frameLen x.frame →
    Runs (.egressPipeline l false) s fun t => (t.blk.feldOf l).tx.map TxRec.copy = xs.map TxRec.copy ∧
      t.blk.fld .TIL_FWD_DROP_count (14 * tileOf l + 0xC) =
        min (s.blk.fld .TIL_FWD_DROP_count (14 * tileOf l + 0xC) + 1) (2 ^ 64 - 1))) ∧
  ((∀ (s : State) (l : LinkId), s.blk.gated l = true → s.blk.queues = [] →
    Runs (.gateBoundary l) s fun t =>
      t.blk.fld .FLD_GATE_STATUS_entry l = s.blk.gateEntry l s.blk.quartzNs % 64 ∧
      OnlyFields { s with blk := { s.blk with feld := t.blk.feld } } t [(.FLD_GATE_STATUS_entry, l)]) ∧
  (∀ (s : State) (l : LinkId), s.blk.linkExists l = false → Runs (.gateCommit l) s (· = s)) ∧
  (∀ (s : State) (l : LinkId), s.blk.linkExists l = true → s.blk.flag .FLD_GATE_STATUS_pending l = false →
    s.blk.flag .FLD_GATE_CTL_gate_en l = true →
    Runs (.gateCommit l) s fun t => t.blk.flag .FLD_GATE_STATUS_pending l = true ∧
      t.blk.fld .FLD_GATE_STATUS_active l = s.blk.fld .FLD_GATE_STATUS_active l ∧
      ∃ at_, (t.blk.feldOf l).switchAt = some at_ ∧ s.blk.quartzNs + 1000 ≤ at_) ∧
  (∀ (s : State) (l : LinkId), s.blk.linkExists l = true → s.blk.flag .FLD_GATE_STATUS_pending l = false →
    s.blk.flag .FLD_GATE_CTL_gate_en l = false →
    Runs (.gateCommit l) s fun t => t.blk.fld .FLD_GATE_STATUS_active l = (1 - s.blk.fld .FLD_GATE_STATUS_active l) % 2 ∧
      t.blk.flag .FLD_GATE_STATUS_pending l = false) ∧
  (∀ (s : State) (l : LinkId), s.blk.linkExists l = true → s.blk.flag .FLD_GATE_STATUS_pending l = true →
    Runs (.gateCommit l) s (fun t => t.blk.flag .FLD_INT_cfg_reject (tileOf l) = true ∧
      OnlyFieldsIrq s t [(.FLD_INT_cfg_reject, tileOf l)]) ∧
    Runs (.gateBankSwitch l) s fun t => t.blk.fld .FLD_GATE_STATUS_active l = (1 - s.blk.fld .FLD_GATE_STATUS_active l) % 2 ∧
      t.blk.flag .FLD_GATE_STATUS_pending l = false ∧ (t.blk.feldOf l).switchAt = none))

/-- R43, R160: the node owners and the breakout mode of a port change only while every sub-port is disabled; otherwise the write
is refused, and said to be, as is a write of the reserved breakout mode 0x3. R44, R76, R81: how a link comes up and goes:
the state that each command leaves, by the codes of R44. A link whose port is dark (R392, R393, R423, R505, R520) finds no
alignment. That alignment sets signal, and that LOSS_OF_SIGNAL carries what is left of it, are the model's (log entry 154). -/
def Obligations.PortsAndLinkStates : Prop :=
  ((∀ (s : State) (p : PortId) (v : BitVec 64), (∀ k < 4, s.blk.flag .TIL_LNK_CTL_lnk_en (4 * p + k) = false) →
    Runs (.portSplitWrite p v) s fun t => t.blk.fld .FLD_PORT_SPLIT_nodes p = v.toNat ∧
      OnlyFields s t [(.FLD_PORT_SPLIT_nodes, p)]) ∧
  (∀ (s : State) (p : PortId) (v : BitVec 64) (k : Nat), k < 4 → s.blk.flag .TIL_LNK_CTL_lnk_en (4 * p + k) = true →
    Runs (.portSplitWrite p v) s fun t => t.blk.flag .FLD_INT_cfg_reject (p / 8) = true ∧
      OnlyFieldsIrq s t [(.FLD_INT_cfg_reject, p / 8)]) ∧
  (∀ (s : State) (p : PortId) (v : BitVec 32), (∀ k < 4, s.blk.flag .TIL_LNK_CTL_lnk_en (4 * p + k) = false) →
    v.toNat % 4 ≠ 3 → v.toNat.testBit 8 = false →
    Runs (.portModeWrite p v) s fun t => t.blk.fld .TIL_PORT_MODE_breakout p % 4 = (if s.blk.fld .TIL_PORT_MODE_breakout p = v.toNat % 4
        then s.blk.fld .TIL_PORT_MODE_breakout p % 4 else v.toNat % 4) ∧
      t.blk.fld .TIL_PORT_MODE_loopback p = v.toNat / 16 % 4 ∧
      OnlyFields s t [(.TIL_PORT_MODE_breakout, p), (.TIL_PORT_MODE_loopback, p)]) ∧
  (∀ (s : State) (p : PortId) (v : BitVec 32),
    (∃ k < 4, s.blk.flag .TIL_LNK_CTL_lnk_en (4 * p + k) = true) ∨ v.toNat % 4 = 3 →
    v.toNat % 4 ≠ s.blk.fld .TIL_PORT_MODE_breakout p → v.toNat.testBit 8 = false →
    Runs (.portModeWrite p v) s fun t => t.blk.flag .TIL_PORT_MODE_bo_reject p = true ∧
      OnlyFieldsIrq s t [(.TIL_PORT_MODE_bo_reject, p), (.TIL_PORT_MODE_loopback, p)])) ∧
  ((∀ (s : State) (l : LinkId), s.blk.linkExists l = true → s.blk.linkState l = 0 →
    Runs (.linkEnable l) s fun t => t.blk.linkState l = 1 ∧ t.blk.flag .TIL_LNK_CTL_lnk_en l = true ∧
      t.blk.fld .TIL_LNK_LOST_count l = 0 ∧ t.blk.fld .TIL_LNK_FEC_CORR_count l = 0) ∧
  (∀ (s : State) (l : LinkId), s.blk.linkExists l = true → Runs (.linkDisable l) s fun t => t.blk.linkState l = 0) ∧
  (∀ (s : State) (l : LinkId), s.blk.portDark l = true → Runs (.pcsAligned l) s (· = s) ∧ Runs (.retrainDone l) s (· = s)) ∧
  (∀ (s : State) (l : LinkId), s.blk.portDark l = false → s.blk.linkState l = 1 → (s.blk.link l).mode ≠ 2 →
    Runs (.pcsAligned l) s fun t => t.blk.linkState l = 2 ∧ t.blk.flag .TIL_LNK_STATUS_signal l = true) ∧
  (∀ (s : State) (l : LinkId), s.blk.portDark l = false → s.blk.linkState l = 1 → (s.blk.link l).mode = 2 →
    Runs (.pcsAligned l) s fun t => t.blk.linkState l = 3 ∧ t.blk.staketu l = false ∧ t.blk.flag .TIL_LNK_INT_up l = true) ∧
  (∀ (s : State) (l : LinkId), s.blk.linkState l = 2 → (s.blk.link l).mode ≠ 1 →
    Runs (.exchangeTimeout l) s fun t => t.blk.linkState l = 3 ∧ t.blk.staketu l = false) ∧
  (∀ (s : State) (l : LinkId), s.blk.linkState l = 2 → (s.blk.link l).mode = 1 →
    Runs (.exchangeTimeout l) s fun t => t.blk.linkState l = 8) ∧
  (∀ (s : State) (l : LinkId), s.blk.linkState l = 3 ∨ s.blk.linkState l = 4 →
    Runs (.retrainWrite l) s (fun t => t.blk.linkState l = 7) ∧
    Runs (.lossOfSignal l true) s (fun t => t.blk.linkState l = 8) ∧
    Runs (.lossOfSignal l false) s (fun t => t.blk.linkState l = 8)) ∧
  (∀ (s : State) (l : LinkId), s.blk.linkState l = 7 →
    (s.blk.portDark l = false → Runs (.retrainDone l) s fun t => t.blk.linkState l = 2) ∧
    Runs (.retrainTimeout l) s (fun t => t.blk.linkState l = 8 ∧
      OnlyFields s t [(.TIL_LNK_STATUS_state, l), (.TIL_LNK_STATUS_up, l)])) ∧
  (∀ (s : State) (l : LinkId), s.blk.linkState l = 8 →
    Runs (.holdDownExpiry l) s fun t => t.blk.linkState l = 1 ∧
      (t.blk.link l).mode = (if s.blk.fld .TIL_LNK_CTL_link_mode l = 3 then 0 else s.blk.fld .TIL_LNK_CTL_link_mode l)))

/-- R66, R67: keepalive: asked for where it is settled and wanted, entered on KA_ACK, kept by words on the lowest lane, and left
through WAKE, or for HOLD_DOWN where its words or its wake fail; a re-initialisation of credits does not outlast UP (R60).
What the CRC-8 of a keepalive word covers is the model's (log entry 132). R51, R52, R54: the capability exchange: a CAP goes
out when its timer runs, in EXCHANGE and, in Ethernet mode with link_mode 0, from UP; one that confirms, and comes in
Staketu mode, is answered; a CAP that confirms the last direction settles the link into Staketu mode. That every CAP with a
version is valid is the model's (log entry 118), and that the first frame has sequence number 0 is read by inference (log
entry 21). -/
def Obligations.KeepaliveAndCapability : Prop :=
  ((∀ (s : State) (l : LinkId), s.blk.linkExists l = true → s.blk.linkState l = 3 →
    s.blk.flag .TIL_LNK_STATUS_ka_cap l = true →
    Runs (.keepaliveRequest l) s fun t => t.blk.flag .TIL_LNK_CTL_ka_req l = true ∧ (t.blk.link l).kaAsked = true ∧
      LcfSent s t l .kaReq fun _ => True) ∧
  (∀ (s : State) (l : LinkId), s.blk.linkState l = 3 → s.blk.flag .TIL_LNK_STATUS_ka_cap l = true →
    s.blk.flag .TIL_LNK_CTL_ka_req l = true → (s.blk.link l).kaAsked = true →
    Runs (.kaRetryTimer l) s fun t => LcfSent s t l .kaReq fun _ => True) ∧
  (∀ (s : State) (l : LinkId), s.blk.linkState l = 3 → s.blk.flag .TIL_LNK_STATUS_ka_cap l = true → s.blk.queues = [] →
    (s.blk.feldOf l).tx = [] → (s.blk.link l).unacked = [] → s.blk.flag .TIL_LNK_CTL_ka_accept l = true →
    Runs (.kaReq l) s fun t => t.blk.linkState l = 5 ∧ t.blk.flag .TIL_LNK_INT_ka_change l = true) ∧
  (∀ (s : State) (l : LinkId), s.blk.linkState l = 3 → (s.blk.link l).kaAsked = true →
    Runs (.kaAck l) s fun t => t.blk.linkState l = 5 ∧ t.blk.flag .TIL_LNK_INT_ka_change l = true ∧
      (t.blk.link l).txReinit = false ∧ (t.blk.link l).rxReinit = false) ∧
  (∀ (s : State) (l : LinkId), s.blk.linkState l = 5 →
    Runs (.keepaliveWordTimer l) s (fun t =>
      t = { s with blk := s.blk.onWire l (.keepalive l false (keepaliveCheck false)) }) ∧
    Runs (.keepaliveWord l true) s (fun t => t.blk.linkState l = 6 ∧ Sent t l (.keepalive l true (keepaliveCheck true))) ∧
    Runs (.keepaliveWord l false) s (fun t => t = s) ∧
    Runs (.wake l) s (fun t => t.blk.linkState l = 6 ∧ Sent t l (.keepalive l true (keepaliveCheck true))) ∧
    Runs (.keepaliveWordTimeout l) s (fun t => t.blk.linkState l = 8) ∧
    (s.blk.linkExists l = true → Runs (.keepaliveRelease l) s fun t => t.blk.linkState l = 6 ∧
      t.blk.flag .TIL_LNK_CTL_ka_req l = false)) ∧
  (∀ (s : State) (l : LinkId), s.blk.linkState l = 6 →
    Runs (.wakeTimeout l) s (fun t => t.blk.linkState l = 8) ∧
    (s.blk.portDark l = false →
      Runs (.pcsAligned l) s fun t => t.blk.linkState l = 3 ∧ t.blk.flag .TIL_LNK_INT_up l = true ∧
        (t.blk.link l).txReinit = true ∧ (t.blk.link l).rxReinit = true))) ∧
  ((∀ (s : State) (l : LinkId), s.blk.linkState l = 2 →
    Runs (.capTimer l) s fun t => LcfSent s t l .cap (fun b => b.features = 0xF ∧ b.conf = (s.blk.link l).ownConf) ∧
      (t.blk.link l).stamps = s.blk.stamp l :: (s.blk.link l).stamps) ∧
  (∀ (s : State) (l : LinkId), s.blk.linkState l = 3 → s.blk.staketu l = false → (s.blk.link l).mode = 0 →
    Runs (.ethernetCapTimer l) s fun t => LcfSent s t l .cap fun b => b.features = 0xF) ∧
  (∀ (s : State) (l : LinkId) (c : Lcf), s.blk.linkState l = 3 → s.blk.staketu l = true → c.llv ≠ 0 → c.conf = true →
    Runs (.capReceived l c) s fun t => LcfSent s t l .cap (fun b => b.echoStamp = c.txStamp ∧ b.conf = true) ∧
      t.blk.linkState l = 3) ∧
  (∀ (s : State) (l : LinkId) (c : Lcf), s.blk.linkState l = 2 → (s.blk.link l).ownConf = true → c.llv ≠ 0 → c.conf = true →
    Runs (.capReceived l c) s fun t => t.blk.linkState l = 3 ∧ t.blk.staketu l = true ∧
      (t.blk.link l).maxFrame = min (min s.blk.imgMaxFrame c.maxFrame.toNat) 9216 ∧
      (t.blk.link l).features = 0xF &&& c.features.toNat ∧ (t.blk.link l).nextLsn = 0 ∧ (t.blk.link l).lsn = 8191))

/-- R55 to R60: credits, no replay being due. A link that carries Staketu traffic reports what it returned; a report raises the
credits held by what is new in it; an audit that fits changes nothing and one that does not is reported and starts a
re-initialisation; the three messages of a re-initialisation do what R60 says, and one that does not end takes the link into
RETRAIN. R46, R48, R60, R62 to R64: errors and retry. A replay waits for the end of the frame in progress, and in a
re-initialisation for its end. -/
def Obligations.CreditsAndErrors : Prop :=
  ((∀ (s : State) (l : LinkId), s.blk.flows l = true →
    Runs (.creditReportTimer l) s fun t => t = { s with blk := { s.blk with out := t.blk.out, linkBusy := t.blk.linkBusy } } ∧
      LcfSent s t l .credit fun b => b.classVal = classVals (s.blk.link l).returned) ∧
  (∀ (s : State) (l : LinkId) (c : ClassId) (total : BitVec 10) (d : Nat), s.blk.flows l = true →
    d = (total.toNat + 1024 - vget (s.blk.link l).returnsSeen c % 1024) % 1024 → (∀ u ∈ (s.blk.link l).unacked, u.due = false) →
    Runs (.creditReceived l (.word c total)) s fun t => (t.blk.link l).held = vadd (s.blk.link l).held c d ∧
      (t.blk.link l).returnsSeen = vadd (s.blk.link l).returnsSeen c d ∧ ∀ f i, t.blk.fld f i = s.blk.fld f i) ∧
  (∀ (s : State) (l : LinkId), s.blk.linkState l = 3 → s.blk.staketu l = true → (s.blk.link l).features.testBit 3 = true →
    Runs (.auditTimer l) s (fun t => t = { s with blk := { s.blk with out := t.blk.out, linkBusy := t.blk.linkBusy } } ∧
      LcfSent s t l .audit fun b => b.classVal = classVals (s.blk.link l).cellsSent) ∧
    ∀ sent : List (BitVec 16), (s.blk.link l).retryClock = false → (s.blk.link l).rxReinit = false →
      ((∀ c < 8, (sent.getD c 0).toNat = (vget (s.blk.link l).cellsRcvd c + vget (s.blk.link l).lostCells c) % 65536) →
        Runs (.auditReceived l sent) s fun t => t = s) ∧
      (∀ c < 8, (sent.getD c 0).toNat ≠ (vget (s.blk.link l).cellsRcvd c + vget (s.blk.link l).lostCells c) % 65536 →
        Runs (.auditReceived l sent) s fun t => t.blk.linkState l = 4 ∧ t.blk.flag .TIL_LNK_INT_credit_mismatch l = true ∧
          (t.blk.link l).txReinit = true ∧ (t.blk.link l).rxReinit = true)) ∧
  (∀ (s : State) (l : LinkId), s.blk.flows l = true → (s.blk.link l).txReinit = false →
    Runs (.resyncReq l) s fun t => (t.blk.link l).txReinit = true ∧ (t.blk.link l).rxReinit = true ∧
      (s.blk.midFrame l = false → LcfSent s t l .resyncMark fun b => b.classVal = classVals (s.blk.link l).cellsSent) ∧
      (s.blk.midFrame l = true → (t.blk.link l).markDue = true)) ∧
  (∀ (s : State) (l : LinkId), s.blk.flows l = true → s.blk.linkState l = 3 →
    Runs (.resyncMark l) s fun t => LcfSent s t l .resyncAck (fun b => b.classVal = classVals (s.blk.link l).charged) ∧
      (t.blk.link l).lostCells = vzero ∧ (t.blk.link l).returned = vzero ∧ (t.blk.link l).rxReinit = false ∧ (t.blk.link l).cellsRcvd = vzero) ∧
  (∀ (s : State) (l : LinkId) (ch : List (BitVec 16)), s.blk.flows l = true → (s.blk.link l).txReinit = true →
    s.blk.linkState l = 3 → (s.blk.link l).noGrant = false → (s.blk.link l).markDue = false →
    (∀ u ∈ (s.blk.link l).unacked, u.due = false) →
    Runs (.resyncAck l ch) s fun t => (t.blk.link l).txReinit = false ∧ (t.blk.link l).cellsSent = vzero ∧
      (t.blk.link l).held = (List.range 8).map fun c =>
        s.blk.fld .TIL_LNK_GRANT_TC_partner_grant (8 * l + c) - (ch.getD c 0).toNat) ∧
  (∀ (s : State) (l : LinkId), s.blk.flows l = true → (s.blk.link l).txReinit = true →
    Runs (.resyncTimeout l) s fun t => t.blk.linkState l = 7)) ∧
  ((∀ (s : State) (l : LinkId), s.blk.linkState l ≠ 0 → (s.blk.link l).burst = false →
    s.blk.fld .TIL_LNK_BURST_CFG_retrain_count l = 0 →
    Runs (.uncorrectableCodeword l) s fun t => (t.blk.link l).burst = true ∧ t.blk.flag .TIL_LNK_INT_burst l = true ∧
      t.blk.fld .TIL_LNK_FEC_UNCORR_count l = min (s.blk.fld .TIL_LNK_FEC_UNCORR_count l + 1) (2 ^ 64 - 1) ∧
      t.blk.fld .TIL_LNK_BURSTS_count l = min (s.blk.fld .TIL_LNK_BURSTS_count l + 1) (2 ^ 64 - 1)) ∧
  (∀ (s : State) (l : LinkId), Runs (.burstGapExpiry l) s fun t => (t.blk.link l).burst = false ∧
    ∀ f i, t.blk.fld f i = s.blk.fld f i) ∧
  (∀ (s : State) (l : LinkId), s.blk.flows l = true → (s.blk.link l).retryClock = true →
    Runs (.retryClockExpiry l) s fun t =>
      t.blk.fld .TIL_LNK_LOST_count l = min (s.blk.fld .TIL_LNK_LOST_count l + 1) (2 ^ 64 - 1) ∧
      t.blk.flag .TIL_LNK_INT_frame_lost l = true ∧ (t.blk.link l).retryClock = false ∧ t.blk.linkState l = 4) ∧
  (∀ (s : State) (l : LinkId) (ack : BitVec 13) (x y : SentFrame), s.blk.flows l = true →
    s.blk.flag .TIL_LNK_STATUS_retry_on l = true → (s.blk.link l).unacked = [x, y] → x.lsn = ack.toNat → y.lsn ≠ ack.toNat →
    s.blk.copy? x.copy = none → y.paid = true →
    Runs (.nakReceived l ack) s fun t =>
      ((s.blk.link l).txReinit = false → s.blk.midFrame l = false → (t.blk.link l).unacked = [{ y with due := false }] ∧
        Sent t l (.frame l (some (s.blk.linkWord l y.lsn false)) y.frame y.stomp)) ∧
      ((s.blk.link l).txReinit = true ∨ s.blk.midFrame l = true → (t.blk.link l).unacked = [{ y with due := true }] ∧
        t.blk.out = s.blk.out)) ∧
  (∀ (s : State) (l : LinkId), s.blk.flows l = true → s.blk.flag .TIL_LNK_STATUS_retry_on l = true →
    (s.blk.link l).txReinit = false → (s.blk.feldOf l).tx = [] →
    (∀ u ∈ (s.blk.link l).unacked, u.due = false ∧ u.paid = true) →
    Runs (.replayTimeout l) s fun t => t.blk.link l = s.blk.link l ∧
      t = { s with blk := { (s.blk.link l).unacked.foldl (fun b f =>
        b.onWire l (.frame l (some (s.blk.linkWord l f.lsn false)) f.frame f.stomp)) s.blk with links := t.blk.links } }) ∧
  (∀ (s : State) (l : LinkId), s.blk.flows l = true → (s.blk.link l).unacked ≠ [] →
    Runs (.senderAckTimeout l) s fun t => t.blk.linkState l = 7))

/-- R69, R70: priority flow control on a link in Ethernet mode. R26, R47, R50, R51, R55, R62, R69, R143: a frame arrives. On a
link in Staketu mode with retry on, a data frame whose link word is good and acknowledges nothing: in its turn and good, it
lands, and the next is awaited; stomped, it is discarded, counted, and passed; errored, it is asked for again, with one NAK
(which more of them are sent, log entry 30); behind its turn, it lands nowhere. A link control frame does what its type
says, as CAP does in EXCHANGE; a PFC frame, of the layout of IEEE 802.1Qbb (presumed, log entry 28), pauses the classes it
names. R82 to R112, R121: what becomes of a good frame that comes on a link, in Ethernet mode or in Staketu mode, by its
tile's pipeline: a Xeirrik frame that is no frame of the spec, has no route, names a group that may not be used or has no
hops left is dropped under its reason; one for a link, for a spray set or for a list group has a copy for each die that it
is for, its hop_limit one lower, which asks for admission; one for Garnet waits for its engine. An IP frame to the router is
sent on with its TTL one lower, or dropped; a bridged one goes where its address was learnt, or is dropped with its VLAN. -/
def Obligations.PauseAndFrames : Prop :=
  ((∀ (s : State) (l : LinkId) (c : ClassId) (q : BitVec 16), s.blk.linkState l = 3 → s.blk.staketu l = false →
    s.blk.bit .TIL_LNK_PFC_CFG_pfc_rx_en l c = true →
    Runs (.pfcReceived l c q) s fun t => (t.blk.link l).paused.testBit c = (q ≠ 0) ∧ ∀ f i, t.blk.fld f i = s.blk.fld f i) ∧
  (∀ (s : State) (l : LinkId) (c : ClassId), Runs (.pfcPauseExpiry l c) s fun t => (t.blk.link l).paused.testBit c = false ∧
    ∀ f i, t.blk.fld f i = s.blk.fld f i) ∧
  (∀ (s : State) (l : LinkId), s.blk.ethernetMode l = true → Runs (.pfcRefreshTimer l) s fun t =>
    t = { s with blk := ((List.range 8).filter fun c => (s.blk.link l).xoff.testBit c).foldl
                          (fun b c => b.onWire l (.pfc l c 0xFFFF)) s.blk }) ∧
  (∀ (s : State) (l : LinkId), s.blk.ethernetMode l = false → Runs (.pfcRefreshTimer l) s fun t => t = s)) ∧
  ((∀ (s : State) (l : LinkId) (w : BitVec 48) (f : Frame) (img : ImageClass) (a : Arrival), s.blk.linkExists l = true →
    s.blk.linkState l = 3 → s.blk.staketu l = true → s.blk.flag .TIL_LNK_STATUS_retry_on l = true →
    f.etype.toNat ≠ s.blk.imgLcf → Blk.goodWord (some w) = some w.toNat → w.toNat.testBit 21 = false →
    (s.blk.link l).unacked = [] → (s.blk.link l).ahead = [] → (s.blk.link l).partialFrame = none →
    (s.blk.link l).nextLsn < 8192 → a.part = .whole →
    (bits w.toNat 47 35 = (s.blk.link l).nextLsn → a.errored = false → a.fcs = .good →
      Runs (.frameReceived l (some w) f a img) s fun t => (t.blk.link l).retryClock = false ∧ (t.blk.link l).early = 0 ∧
        (t.blk.link l).errored = none ∧ (t.blk.link l).nextLsn = ((s.blk.link l).nextLsn + 1) % 8192 ∧
        s.blk.nextFrame < t.blk.nextFrame) ∧
    (bits w.toNat 47 35 = (s.blk.link l).nextLsn → a.errored = false → a.fcs = .stomped →
      Runs (.frameReceived l (some w) f a img) s fun t =>
        (t.blk.link l).nextLsn = ((s.blk.link l).nextLsn + 1) % 8192 ∧ t.blk.frames = s.blk.frames ∧
        t.blk.fld .TIL_CHK_STOMP_RX_count (tileOf l) =
          min (s.blk.fld .TIL_CHK_STOMP_RX_count (tileOf l) + 1) (2 ^ 64 - 1)) ∧
    (bits w.toNat 47 35 = (s.blk.link l).nextLsn → a.errored = true ∨ a.fcs = .bad →
      Runs (.frameReceived l (some w) f a img) s fun t =>
        (t.blk.link l).retryClock = true ∧ t.blk.frames = s.blk.frames ∧ (t.blk.link l).nextLsn = (s.blk.link l).nextLsn ∧
        t.blk.fld .TIL_LNK_RETRY_count l = min (s.blk.fld .TIL_LNK_RETRY_count l + 1) (2 ^ 64 - 1)) ∧
    (4096 ≤ (bits w.toNat 47 35 + 8192 - (s.blk.link l).nextLsn) % 8192 →
      Runs (.frameReceived l (some w) f a img) s fun t => t.blk.frames = s.blk.frames ∧
        (t.blk.link l).nextLsn = (s.blk.link l).nextLsn ∧ (t.blk.link l).retryClock = (s.blk.link l).retryClock)) ∧
  (∀ (s : State) (l : LinkId) (f : Frame) (img : ImageClass), s.blk.linkExists l = true → s.blk.linkState l = 2 →
    s.blk.staketu l = false → f.etype.toNat = s.blk.imgLcf → (s.blk.link l).mode ≠ 2 → beAt f.data 0 1 = 1 →
    (s.blk.link l).ownConf = true → (lcfBody f.data).llv ≠ 0 → (lcfBody f.data).conf = true →
    Runs (.frameReceived l none f { part := .whole, fcs := .good, errored := false, corrected := 0, symbols := 0 } img) s
      fun t => t.blk.linkState l = 3 ∧ t.blk.staketu l = true) ∧
  (∀ (s : State) (l : LinkId) (f : Frame) (img : ImageClass) (c : ClassId), s.blk.linkExists l = true → s.blk.linkState l = 3 →
    s.blk.staketu l = false → f.tci = none → f.etype = 0x8808 → s.blk.imgLcf ≠ 0x8808 → beAt f.data 0 2 = 0x0101 →
    (beAt f.data 2 2).testBit c = true → beAt f.data (4 + 2 * c) 2 ≠ 0 → s.blk.bit .TIL_LNK_PFC_CFG_pfc_rx_en l c = true →
    Runs (.frameReceived l none f { part := .whole, fcs := .good, errored := false, corrected := 0, symbols := 0 } img) s
      fun t => (t.blk.link l).paused.testBit c = true)) ∧
  ((∀ (s : State) (l : LinkId) (w : Option (BitVec 48)) (f : Frame) (img : ImageClass) (h : XHeader) (e m : Nat), Comes s l w f img →
    s.blk.isXeirrik (tileOf l) f = true → h = xHeader f.data → e = s.blk.tableEntry (dieOf l) 0 h.dst →
    m = (if f.tci.isSome then 54 else 50) →
    (h.ver ≠ 1 → Runs (.frameReceived l w f goodArrival img) s fun t => DroppedFor s t l 1) ∧
    (h.ver = 1 → frameLen f < m ∨ frameLen f - m < h.len ∨ (frameLen f ≠ 64 ∧ h.len ≠ frameLen f - m) →
      Runs (.frameReceived l w f goodArrival img) s fun t => DroppedFor s t l 2) ∧
    (h.ver = 1 → m ≤ frameLen f → h.len = frameLen f - m ∨ (frameLen f = 64 ∧ h.len ≤ frameLen f - m) →
      s.blk.staketu l = false → Blk.tagClass f h.tc ≠ h.tc →
      Runs (.frameReceived l w f goodArrival img) s fun t => DroppedFor s t l 3) ∧
    (h.ver = 1 → m ≤ frameLen f → h.len = frameLen f - m ∨ (frameLen f = 64 ∧ h.len ≤ frameLen f - m) →
      s.blk.staketu l = true ∨ Blk.tagClass f h.tc = h.tc →
      (h.mcast = true → s.blk.mcastTarget (dieOf l) h.dst = none →
        Runs (.frameReceived l w f goodArrival img) s fun t => DroppedFor s t l 6) ∧
      (∀ g, h.mcast = true → s.blk.mcastTarget (dieOf l) h.dst = some g →
        (h.hop = 0 → Runs (.frameReceived l w f goodArrival img) s fun t => DroppedFor s t l 4) ∧
        (h.hop ≠ 0 → AllLive s →
          Runs (.frameReceived l w f goodArrival img) s fun t => ∀ d < 4,
            (t.blk.copy? (4 * s.blk.nextFrame + d)).map (fun x => (x.frame, x.cls, x.target)) =
              if (s.blk.legsBy (dieOf l) d g).any fun x => x.1 ≠ l.val || s.blk.mayReflect (dieOf l) g
                then some (decHop f, h.tc, g) else none)) ∧
      (h.mcast = false → e.testBit 31 = false →
        Runs (.frameReceived l w f goodArrival img) s fun t => DroppedFor s t l 5) ∧
      (h.mcast = false → e.testBit 31 = true → bits e 30 28 = 1 →
        (h.hop = 0 → Runs (.frameReceived l w f goodArrival img) s fun t => DroppedFor s t l 4) ∧
        (h.hop ≠ 0 → Runs (.frameReceived l w f goodArrival img) s fun t =>
          SentOn s t l (bits e 15 0 % 1024) h.tc (decHop f))) ∧
      (h.mcast = false → e.testBit 31 = true → bits e 30 28 = 2 → h.hop ≠ 0 →
        (s.blk.sprayLive (dieOf l) (bits e 15 0 % 4096) = [] →
          Runs (.frameReceived l w f goodArrival img) s fun t => DroppedFor s t l 5) ∧
        (s.blk.sprayLive (dieOf l) (bits e 15 0 % 4096) ≠ [] → Runs (.frameReceived l w f goodArrival img) s fun t =>
          ∃ m ∈ s.blk.sprayLive (dieOf l) (bits e 15 0 % 4096), SentOn s t l m.2 h.tc (decHop f) ∧
            (h.sprayOk = true → ∀ m' ∈ s.blk.sprayLive (dieOf l) (bits e 15 0 % 4096),
              s.blk.sprayDepth (tileOf l) m.2 h.tc img.node.toNat ≤ s.blk.sprayDepth (tileOf l) m'.2 h.tc img.node.toNat))) ∧
      (h.mcast = false → e.testBit 31 = true → bits e 30 28 = 3 → bits e 15 0 % 4 = 1 →
        (h.opcode < 0x10 ∨ 0x3F < h.opcode → Runs (.frameReceived l w f goodArrival img) s fun t => DroppedFor s t l 7) ∧
        (0x10 ≤ h.opcode → h.opcode ≤ 0x13 → Runs (.frameReceived l w f goodArrival img) s fun t =>
          (t.blk.frame? s.blk.nextFrame).map (fun r => (r.dest, r.frame, r.whole)) = some (.garnet, f, true))))) ∧
  (∀ (s : State) (l : LinkId) (w : Option (BitVec 48)) (f : Frame) (img : ImageClass) (v6 : Bool) (nh e : Nat), Comes s l w f img →
    s.blk.isXeirrik (tileOf l) f = false → s.blk.fld .TIL_FWD_RMAC_rmac (tileOf l) ≠ 0 →
    f.dmac.toNat = s.blk.fld .TIL_FWD_RMAC_rmac (tileOf l) → ipKind f = some v6 →
    s.blk.flag .TIL_FWD_CFG_route_en (tileOf l) = true →
    (s.blk.prefixLookup (dieOf l) v6 (ipDst v6 f.data) = none →
      Runs (.frameReceived l w f goodArrival img) s fun t => DroppedFor s t l 5) ∧
    (s.blk.prefixLookup (dieOf l) v6 (ipDst v6 f.data) = some nh → e = s.blk.tableEntry (dieOf l) 2 nh → e.testBit 63 = true →
      bits e 62 60 = 1 →
      (ipTtl v6 f.data ≤ 1 → Runs (.frameReceived l w f goodArrival img) s fun t => DroppedFor s t l 0xA) ∧
      (1 < ipTtl v6 f.data → bits e 79 68 = 0 → Runs (.frameReceived l w f goodArrival img) s fun t =>
        SentOn s t l (bits e 47 32 % 1024) (Blk.tagClass f img.cls)
          { f with dmac := BitVec.ofNat 48 (bits e 127 80), smac := BitVec.ofNat 48 (s.blk.fld .TIL_FWD_RMAC_rmac (tileOf l)),
                   tci := none, data := decTtl v6 f.data }))) ∧
  (∀ (s : State) (l : LinkId) (w : Option (BitVec 48)) (f : Frame) (img : ImageClass) (vid v : Nat), Comes s l w f img →
    s.blk.isXeirrik (tileOf l) f = false → s.blk.fld .TIL_FWD_RMAC_rmac (tileOf l) = 0 → vid = s.blk.vlanOf (dieOf l) l f →
    v = s.blk.tableEntry (dieOf l) 4 vid →
    (v.testBit 63 = false → Runs (.frameReceived l w f goodArrival img) s fun t => DroppedFor s t l 0xB) ∧
    (∀ i, v.testBit 63 = true → s.blk.flag .TIL_FWD_CFG_learn_en (tileOf l) = false → f.dmac.toNat.testBit 40 = false →
      s.blk.findLearn (dieOf l) vid f.dmac.toNat = some i → bits (s.blk.tableEntry (dieOf l) 3 i) 67 58 ≠ l.val →
      Runs (.frameReceived l w f goodArrival img) s fun t =>
        SentOn s t l (bits (s.blk.tableEntry (dieOf l) 3 i) 67 58) (Blk.tagClass f img.cls) f)))

/-! ### Garnet (R189 to R222) and replication (R28, R29) -/

/-- R194, R195, R209: a contribution that reaches an ACTIVE engine with no trouble found is added to its open chunk, or opens
the chunk where scratch has room, at the first try and when it requests again. R139, R208, R209: an engine's oldest request
for spill cells, which fits the quota and the shared pool, is granted cells of the free list, filled with zeros, and is
otherwise refused. Which free cells it takes, the lowest-numbered, is the model's choice (log entry 32). A contribution
refused for wait_us, which is the chunk's first of its member, fails its chunk with NO_SCRATCH, opened or not. -/
def Obligations.ContributionsAndSpill : Prop :=
  (∀ (s : State) (fid : Nat) (t : TileId) (r : FrameRec) (x : Contribution) (c : CtxRec),
    s.blk.frame? fid = some r → r.dest = .engine → x = contributionOf r.frame → s.blk.ctx? x.id.ctx = some c →
    c.epoch = x.id.epoch → s.blk.engineFor c x.id = some t.val → s.blk.active t = true →
    s.blk.crossed fid r (dieOfTile t) = true →
    s.blk.heldBack fid r = false → (s.blk.engine t).log.contains x.id = false →
    (∀ k : ChunkRec, s.blk.chunkAt t x.id = some k → k.arrived.testBit x.member = false → k.status = 0 → k.audit = none →
      x.fmt = k.fmt → x.op = k.op → x.elems = k.elems → x.payload.length = payloadLen k.fmt k.elems →
      k.lines ≠ 0 → (Blk.accumulate k x).2 = 0 →
      ∀ i, i = (if (s.blk.refuser fid).isSome then Instr.contribRetry fid ⟨.none, .none⟩
        else Instr.contribAccept fid ⟨.none, .none⟩) →
      Runs i s fun u => u.blk.chunkAt t x.id = some (Blk.accumulate k x).1) ∧
    (∀ k : ChunkRec, s.blk.chunkAt t x.id = none → s.blk.tableFull t = false → s.blk.openStatus x = 0 →
      s.blk.fld .GRN_AUDIT_CFG_audit_log2 0 = 15 → k = s.blk.newChunk x c.count →
      Blk.linesFor k (Blk.accumulate k x).2 ≤ s.blk.freeScratch t →
      ∀ i, i = (if (s.blk.refuser fid).isSome then Instr.contribRetry fid ⟨.none, .none⟩
        else Instr.contribAccept fid ⟨.none, .none⟩) →
      Runs i s fun u => ∃ k', u.blk.chunkAt t x.id = some k' ∧ k'.arrived = 2 ^ x.member ∧ k'.status = 0 ∧
        k'.blocks = (Blk.accumulate k x).1.blocks)) ∧
  ((∀ (s : State) (t : TileId) (idle : Nat) (a : SpillAsk), (s.blk.spill t).find? (fun a => a.want ≠ 0) = some a →
    (s.blk.spill t).find? (fun b => b.frame = a.frame) = some a → (s.blk.bsl (dieOfTile t)).requests = [] →
    (s.blk.bsl (dieOfTile t)).carried = [] →
    (s.blk.spillFits t a.want = true →
      Runs (.spillRequest t idle) s fun u =>
        u.blk.spill t = (s.blk.spill t).map (fun b => if b.frame = a.frame then
          { b with want := 0, got := b.got + a.want, refused := false, cells := b.cells ++ s.blk.pickCells (dieOfTile t) a.want }
          else b) ∧
        u.blk.fld .GRN_SPILL_USED_cells t = (s.blk.fld .GRN_SPILL_USED_cells t + a.want) % 2 ^ 20 ∧
        (∀ n, (u.blk.bsl (dieOfTile t)).cells.find n =
          if n ∈ s.blk.pickCells (dieOfTile t) a.want then some ⟨true, 5⟩ else (s.blk.bsl (dieOfTile t)).cells.find n) ∧
        ∀ n ∈ s.blk.pickCells (dieOfTile t) a.want, (u.blk.bsl (dieOfTile t)).bytes.find n = none) ∧
    (s.blk.spillFits t a.want = false →
      Runs (.spillRequest t idle) s fun u => u.blk.fields = s.blk.fields ∧
        u.blk.spill t = (s.blk.spill t).map fun b => if b.frame = a.frame then { b with want := 0, refused := true } else b)) ∧
  (∀ (s : State) (fid : Nat) (t : TileId) (r : FrameRec) (x : Contribution), s.blk.refuser fid = some t.val →
    s.blk.frame? fid = some r → x = contributionOf r.frame → (s.blk.engine t).log.contains x.id = false →
    (∀ k : ChunkRec, s.blk.chunkAt t x.id = some k → k.status = 0 → k.arrived.testBit x.member = false →
      Runs (.spillWaitTimeout fid) s fun u => u.blk.flag .GRN_INT_no_scratch t = true ∧
        (u.blk.chunkAt t x.id).map (fun c => (c.status, c.arrived)) = some (3, k.arrived ||| 2 ^ x.member)) ∧
    (s.blk.chunkAt t x.id = none →
      Runs (.spillWaitTimeout fid) s fun u => u.blk.flag .GRN_INT_no_scratch t = true ∧
        (u.blk.engine t).log = (x.id :: (s.blk.engine t).log).take 4096 ∧
        u.blk.fld .GRN_FAILED_count t = min (s.blk.fld .GRN_FAILED_count t + 1) (2 ^ 64 - 1))))

/-- R195, R196, R206: a complete chunk of a live context is released: its result, rounded, goes to the replication logic of its
tile as a RESULT frame's payload, its identity into the release log, and its entry is freed; a failed one leaves no result. -/
def Obligations.ChunksReleased : Prop :=
  ∀ (s : State) (t : TileId) (g : BitVec 12) (q : BitVec 16) (n : BitVec 18) (c : ChunkRec),
    (s.blk.engine t).chunks.find? (fun c => c.id.ctx = ctxNum g.toNat q.toNat && c.id.chunk = n.toNat && c.full) = some c →
    (∀ k : CtxRec, c.status = 0 → s.blk.active t = true → c.audit = none → s.blk.ctx? c.id.ctx = some k →
      k.state ≠ .failing → k.epoch = c.id.epoch →
      Runs (.chunkRelease t g q n ⟨.none, .none⟩) s fun u => u.blk.chunkAt t c.id = none ∧
        (u.blk.engine t).log = (c.id :: (s.blk.engine t).log).take 4096 ∧
        (u.blk.ctx? c.id.ctx).map CtxRec.chunksOk = some (k.chunksOk + 1) ∧
        ∃ i, (u.blk.repl.get .reset t).garnet = (s.blk.repl.get .reset t).garnet ++ [i] ∧
          (i.frame.data.drop 32).take (roundChunk { c with audit := none }).1.length =
            (roundChunk { c with audit := none }).1) ∧
    (∀ tr : ReleaseFindings, c.status ≠ 0 →
      Runs (.chunkRelease t g q n tr) s fun u => u.blk.chunkAt t c.id = none ∧
        (u.blk.engine t).log = (c.id :: (s.blk.engine t).log).take 4096 ∧ u.blk.repl = s.blk.repl)

/-- R214 to R216, R218: the states of an engine, by the codes of GRN_STATUS: quarantined on request, moved out, tested, and
ACTIVE again; the turns of the idle-slot test. R28, R29: a clock of the replication logic takes one input, of the first
source with one after the source served last, and makes a frame of it, or of the piece that waits in staging: a copy for
each die that it is for. -/
def Obligations.EnginesAndReplication : Prop :=
  ((∀ (s : State) (t : TileId), s.blk.active t = true →
    Runs (.quarantine t) s fun u => u.blk.fld .GRN_STATUS_state t = 2 ∧ (u.blk.engine t).retest = false) ∧
  (∀ (s : State) (t : TileId), s.blk.active t = false → Runs (.quarantine t) s fun u => u = s) ∧
  (∀ (s : State) (t : TileId), s.blk.fld .GRN_STATUS_state t = 4 →
    Runs (.garnetRelease t) s fun u => u.blk.fld .GRN_STATUS_state t = 3 ∧ OnlyFields s u [(.GRN_STATUS_state, t)]) ∧
  (∀ (s : State) (t : TileId), s.blk.fld .GRN_STATUS_state t = 2 → (s.blk.engine t).chunks = [] →
    Runs (.evacuationDone t) s fun u =>
      ((s.blk.engine t).retest = true → u.blk.fld .GRN_STATUS_state t = 3 ∧ OnlyFields s u [(.GRN_STATUS_state, t)]) ∧
      ((s.blk.engine t).retest = false → u.blk.fld .GRN_STATUS_state t = 4 ∧ u.blk.flag .GRN_INT_quarantined t = true ∧
        OnlyFieldsIrq s u [(.GRN_STATUS_state, t), (.GRN_INT_quarantined, t)])) ∧
  (∀ (s : State) (t : TileId), s.blk.fld .GRN_STATUS_state t = 3 →
    (s.blk.openElsewhere t = false →
      Runs (.selftestDone t true) s fun u => u.blk.active t = true ∧ u.blk.fld .GRN_STATUS_subst t = 0 ∧
        (u.blk.engine t).subst = none) ∧
    Runs (.selftestDone t false) s fun u => u.blk.fld .GRN_STATUS_state t = 4 ∧
      u.blk.flag .GRN_INT_quarantined t = true ∧ u.blk.bit .GRN_IST_FAIL_fail 0 t = true) ∧
  (∀ (s : State) (e : Nat), s.blk.flag .GRN_IST_CTL_en 0 = true → e = s.blk.fld .GRN_IST_STATUS_engine 0 →
    Runs .istTurnExpiry s (fun u => u.blk.fld .GRN_IST_STATUS_engine 0 = (e + 1) % 32 ∧
      u.blk.flag .GRN_IST_STATUS_busy 0 = s.blk.active ((e + 1) % 32) ∧ u.blk.istOver = false ∧
      (s.blk.istOver = false → s.blk.active e = true → e < 32 → u.blk.bit .GRN_IST_STARVED_starved 0 e = true) ∧
      OnlyFields { s with blk := { s.blk with istOver := false } } u
        [(.GRN_IST_STARVED_starved, 0), (.GRN_IST_STATUS_engine, 0), (.GRN_IST_STATUS_busy, 0)]) ∧
    (s.blk.istOver = false → s.blk.active e = true →
      Runs (.istPassDone true) s (fun u => u.blk.flag .GRN_IST_STATUS_busy 0 = false ∧
        u.blk.fld .GRN_IST_PASSES_count 0 = min (s.blk.fld .GRN_IST_PASSES_count 0 + 1) (2 ^ 64 - 1) ∧
        OnlyFieldsCnt { s with blk := { s.blk with istOver := true } } u
          [(.GRN_IST_STATUS_busy, 0), (.GRN_IST_PASSES_count, 0)]) ∧
      (e < 32 →
        Runs (.istPassDone false) s fun u => u.blk.fld .GRN_STATUS_state e = 2 ∧ u.blk.bit .GRN_IST_FAIL_fail 0 e = true)))) ∧
  (∀ (s : State) (t : TileId) (r : ReplTile) (i : ReplItem) (rest : List ReplItem) (m j : Nat), r = s.blk.repl.get .reset t →
    m < 3 → j = (r.last + 1 + m) % 3 → r.source j = i :: rest → (∀ m' < m, r.source ((r.last + 1 + m') % 3) = []) → AllLive s →
    (i.piece = none → (∀ d < 4, s.blk.copy? (4 * s.blk.nextFrame + d) = none) →
      Runs (.replicationTake t) s fun u => (u.blk.repl.get .reset t).last = j ∧ (u.blk.repl.get .reset t).source j = rest ∧
        (∀ j' < 3, j' ≠ j → (u.blk.repl.get .reset t).source j' = r.source j') ∧ u.blk.nextFrame = s.blk.nextFrame + 1 ∧
        CopiedTo s u s.blk.nextFrame (dieOfTile t) i.target i.frame i.cls) ∧
    (∀ (fid : Nat) (fr : FrameRec), i.piece = some fid → s.blk.frame? fid = some fr → s.blk.mayReflect (dieOfTile fr.tile) i.target = true →
      (∀ d < 4, s.blk.copy? (4 * fid + d) = none) →
      Runs (.replicationTake t) s fun u => (u.blk.repl.get .reset t).last = j ∧ (u.blk.repl.get .reset t).source j = rest ∧
        (∀ j' < 3, j' ≠ j → (u.blk.repl.get .reset t).source j' = r.source j') ∧ u.blk.nextFrame = s.blk.nextFrame ∧
        CopiedTo s u fid (dieOfTile fr.tile) i.target i.frame i.cls))

/-! ### Collectives (R223 to R255) -/

/-- R229, R231, R243: a descriptor, read from its 64 bytes, of kinds 0x01 to 0x05 that passes the checks starts: its context is
open, its group has one more, and its queue's head has passed it. R231, R232, R477: a descriptor whose token condition does
not hold, or that finds the controller disabled, waits with nothing changed; the check of R231 that it fails names the
status that it ends with. -/
def Obligations.ContextsStart : Prop :=
  (∀ (s : State) (q : QueueId) (w : Bytes64) (d : ColDesc) (kind : Nat) (i : Instr),
    (kind, i) ∈ [(1, Instr.allReduce q w), (2, Instr.reduceScatter q w), (3, Instr.allGather q w), (4, Instr.broadcast q w),
      (5, Instr.barrier q w)] → d = Blk.colDesc w → Blk.descKind w = kind →
    s.blk.mayStart q d = true → s.blk.roomFor d.group.toNat = true →
    s.blk.fieldsOk kind d = true → s.blk.groupValid d.group.toNat = true →
    s.blk.ctx? (ctxNum d.group.toNat d.seq.toNat) = none → s.blk.pathDown (s.blk.newCtx kind d) = false →
    Runs i s fun t => t.blk.ctx? (ctxNum d.group.toNat d.seq.toNat) = some (s.blk.newCtx kind d) ∧
      (t.blk.groupState d.group.toNat).open_ = (s.blk.groupState d.group.toNat).open_ + 1 ∧
      t.blk.fld .COL_STATUS_open 0 = s.blk.fld .COL_STATUS_open 0 + 1 ∧
      OnlyFields { s with blk := { s.blk with contexts := t.blk.contexts, groupHw := t.blk.groupHw, nextWork := t.blk.nextWork } } t
        [(.COL_STATUS_open, 0), (.DMA_CQ_HEAD_head, q)]) ∧
  (∀ (s : State) (q : QueueId) (w : Bytes64) (d : ColDesc) (kind : Nat) (i : Instr),
    (kind, i) ∈ [(1, Instr.allReduce q w), (2, Instr.reduceScatter q w), (3, Instr.allGather q w), (4, Instr.broadcast q w),
      (5, Instr.barrier q w)] → d = Blk.colDesc w → Blk.descKind w = kind →
    (s.blk.mayStart q d = false → Runs i s fun t => t = s) ∧
    (s.blk.mayStart q d = true → s.blk.roomFor d.group.toNat = true → s.blk.cplFull = false →
      (s.blk.fieldsOk kind d = false → Runs i s fun t => DescEnded s t q kind d 0x10) ∧
      (s.blk.fieldsOk kind d = true → s.blk.groupValid d.group.toNat = false →
        Runs i s fun t => DescEnded s t q kind d 0x11) ∧
      (s.blk.fieldsOk kind d = true → s.blk.groupValid d.group.toNat = true →
        (s.blk.ctx? (ctxNum d.group.toNat d.seq.toNat)).isSome = true → Runs i s fun t => DescEnded s t q kind d 0x12) ∧
      (s.blk.fieldsOk kind d = true → s.blk.groupValid d.group.toNat = true →
        s.blk.ctx? (ctxNum d.group.toNat d.seq.toNat) = none → s.blk.pathDown (s.blk.newCtx kind d) = true →
        Runs i s fun t => DescEnded s t q kind d 5)))

/-- R230, R232, R248, R253, R477: ABORT makes an OPEN or CLOSING context fail with ABORTED (with RESET where a reset has marked
it, R413); NOP ends at once, and a descriptor of a reserved kind, which comes with NOP's command (read by inference, log
entry 151), with BAD_DESC; a descriptor that ends well raises its token; while the pending buffer is full its record is
held, and its end waits; a token is written. -/
def Obligations.AbortsAndTokens : Prop :=
  (∀ (s : State) (q : QueueId) (w : Bytes64) (d : ColDesc) (c : CtxRec), d = Blk.colDesc w → Blk.descKind w = 8 → s.blk.mayStart q d = true →
    s.blk.cplFull = false →
    (s.blk.ctx? (ctxNum d.group.toNat d.seq.toNat) = some c → c.state ≠ .failing → c.recorded = false →
      Runs (.abort q w) s fun t => DescEnded s t q 8 d 0 ∧
        t.blk.ctx? (ctxNum d.group.toNat d.seq.toNat) = some { c with state := .failing, status := if c.marked then 6 else 4 }) ∧
    (s.blk.ctx? (ctxNum d.group.toNat d.seq.toNat) = none ∨
        s.blk.ctx? (ctxNum d.group.toNat d.seq.toNat) = some c ∧ (c.state = .failing ∨ c.recorded = true) →
      Runs (.abort q w) s fun t => DescEnded s t q 8 d 0x14 ∧ t.blk.contexts = s.blk.contexts)) ∧
  (∀ (s : State) (q : QueueId) (w : Bytes64) (d : ColDesc), d = Blk.colDesc w → s.blk.mayStart q d = true →
    (Blk.descKind w = 0xF → s.blk.cplFull = true →
      Runs (.nop q w) s fun t => (t.blk.cplHeld.map fun x => (x.ring, x.work)) =
          (s.blk.cplHeld.map fun x => (x.ring, x.work)) ++ [(d.cring.toNat, .desc d 0)] ∧ t.blk.contexts = s.blk.contexts ∧
        t.blk.cplWait = s.blk.cplWait ∧ t.blk.fld .COL_COMPLETED_count 0 = s.blk.fld .COL_COMPLETED_count 0 ∧
        t.blk.fld .DMA_CQ_HEAD_head q = (s.blk.fld .DMA_CQ_HEAD_head q + 1) % 2 ^ 32 ∧ t.blk.flag .DMA_INT_cpl_full 0 = true) ∧
    (Blk.descKind w = 0xF → s.blk.cplFull = false →
      Runs (.nop q w) s fun t => DescEnded s t q 0xF d 0 ∧ t.blk.contexts = s.blk.contexts ∧
        (d.sigTok ≠ 0xFFFF → t.blk.fld .COL_TOKEN_value (d.sigTok.toNat % 4096) =
          (s.blk.fld .COL_TOKEN_value (d.sigTok.toNat % 4096) + 1) % 2 ^ 32)) ∧
    (Blk.descKind w ∉ [1, 2, 3, 4, 5, 8, 9, 0xA, 0xB, 0xC, 0xF] → s.blk.cplFull = false →
      Runs (.nop q w) s fun t => DescEnded s t q (Blk.descKind w) d 0x10 ∧ t.blk.contexts = s.blk.contexts)) ∧
  (∀ (s : State) (k : Fin 4096) (v : BitVec 32),
    Runs (.tokenWrite k v) s fun t => t.blk.fld .COL_TOKEN_value k = v.toNat ∧ OnlyFields s t [(.COL_TOKEN_value, k)])

/-- R240, R241, R242: groups and members. REBIND fences its group, and once the group has no context open replaces the member,
or gives up in time; GROUP_SET and GROUP_CLEAR write the entry of a group at rest into every die's copy and advance its
epoch (the fence and epoch fields are the controller's own; that GROUP_CLEAR writes zeros is read by inference, log entry
46); MEMBER_SET writes member entries no valid group uses. -/
def Obligations.GroupsWritten : Prop :=
  (∀ (s : State) (q : QueueId) (w : Bytes64) (d : ColDesc), d = Blk.colDesc w → Blk.descKind w = 9 → s.blk.mayStart q d = true →
    (s.blk.groupState d.group.toNat).fenced = false → s.blk.groupValid d.group.toNat = true →
    d.member.toNat % 1024 < (Blk.groupRun (s.blk.group d.group.toNat)).1 → (beAt d.args 0 8).testBit 63 = true →
    Runs (.rebind q w) s fun t => (t.blk.groupState d.group.toNat).fenced = true ∧
      t.blk.fences.find d.group.toNat = some ⟨d, d.member.toNat % 1024, beAt d.args 0 8⟩) ∧
  (∀ (s : State) (g : BitVec 12) (f : Fence) (die : DieId), s.blk.fences.find g.toNat = some f →
    ((s.blk.groupState g.toNat).open_ = 0 →
      Runs (.rebindCommit g) s fun t => (t.blk.groupState g.toNat).fenced = false ∧ t.blk.fences.find g.toNat = none ∧
        (t.blk.groupState g.toNat).epoch = ((s.blk.groupState g.toNat).epoch + 1) % 256 ∧
        t.blk.memberEntry die ((Blk.groupRun (s.blk.group g.toNat)).2 + f.member) = f.entry % 2 ^ 64) ∧
    ((s.blk.groupState g.toNat).open_ ≠ 0 →
      Runs (.fenceTimeout g) s fun t => (t.blk.groupState g.toNat).fenced = false ∧ t.blk.fences.find g.toNat = none ∧
        (t.blk.groupState g.toNat).epoch = (s.blk.groupState g.toNat).epoch ∧
        (s.blk.cplFull = false → t.blk.flag .COL_INT_fence_timeout 0 = true))) ∧
  (∀ (s : State) (q : QueueId) (w : Bytes64) (d : ColDesc) (die : DieId), d = Blk.colDesc w → s.blk.mayStart q d = true →
    s.blk.cplFull = false → s.blk.groupBusy d.group.toNat = false →
    (Blk.descKind w = 0xB → Runs (.groupClear q w) s fun t => t.blk.groupEntry die d.group.toNat = 0 ∧ DescEnded s t q 0xB d 0 ∧
      (t.blk.groupState d.group.toNat).epoch = ((s.blk.groupState d.group.toNat).epoch + 1) % 256) ∧
    (∀ (bs : List Byte) (e n first : Nat), Blk.descKind w = 0xA → e = beAt bs 0 16 → (n, first) = Blk.groupRun e → d.addr ≠ 0 → 1 ≤ n → n ≤ 1024 →
      first + n ≤ 65536 → 1 ≤ bits e 61 56 → bits e 61 56 ≤ 32 →
      (∀ m < n, (s.blk.memberEntry s.blk.liveDie (first + m)).testBit 63 = true) →
      Runs (.groupSet q w (some bs)) s fun t => DescEnded s t q 0xA d 0 ∧
        (t.blk.groupState d.group.toNat).epoch = ((s.blk.groupState d.group.toNat).epoch + 1) % 256 ∧
        ∀ b < 128, (t.blk.groupEntry die d.group.toNat).testBit b = (e.testBit b && b ≠ 125 && !(72 ≤ b && b ≤ 79)))) ∧
  (∀ (s : State) (q : QueueId) (w : Bytes64) (d : ColDesc) (die : DieId) (bs : List Byte) (first n k : Nat), d = Blk.colDesc w →
    Blk.descKind w = 0xC → s.blk.mayStart q d = true → s.blk.cplFull = false → d.addr ≠ 0 → first = beAt d.args 0 4 → n = beAt d.args 4 2 → n ≤ 1024 → first + n ≤ 65536 →
    s.blk.inRun first n = false → k < n →
    Runs (.memberSet q w (some bs)) s fun t => DescEnded s t q 0xC d 0 ∧
      t.blk.memberEntry die (first + k) = beAt (bs.drop (8 * k)) 0 8)

/-- R24, R27, R235, R237: a received frame of a collective is discarded by the first check that it fails, and counted under it;
one that passes is taken by its context: a contribution goes to an engine, over Agate where it lies on another die, a piece
to the other members, and an arrival is counted at the die of the barrier's home tile, to which it crosses first. R238,
R243, R249, R252, R413, R477: how a context ends: timed out, it fails (one that a reset has marked too while it is CLOSING,
read by inference, log entry 177); finished, it leaves its slot with a completion of status 0; failing, it leaves it with
its status, every chunk of it aborted; while the pending buffer is full the record alone waits, and the context with it. -/
def Obligations.ContextsRunAndEnd : Prop :=
  (∀ (s : State) (fid : Nat) (r : FrameRec) (op : Nat) (i : Instr),
    (op, i) ∈ [(0x10, Instr.contrib fid), (0x11, Instr.gather fid), (0x12, Instr.bcast fid), (0x13, Instr.barrierArrival fid)] →
    s.blk.frame? fid = some r → r.dest = .garnet → r.whole = true → r.chkFail = false →
    (xHeader r.frame.data).opcode = op →
    (∀ reason, s.blk.colCheck r = some reason →
      Runs i s fun t => t.blk.frame? fid = none ∧ t.blk.contexts = s.blk.contexts ∧
        t.blk.fld .COL_DISCARD_count (9 * r.tile + reason) =
          min (s.blk.fld .COL_DISCARD_count (9 * r.tile + reason) + 1) (2 ^ 64 - 1)) ∧
    (∀ (c : CtxRec) (a : ColArea) (k : Nat), s.blk.colCheck r = none → a = colArea r.frame.data → k = ctxNum a.group a.seq →
      s.blk.ctx? k = some c →
      (∀ e, c.reducing = true → s.blk.engineFor c ⟨k, a.chunk, a.epoch⟩ = some e →
        (dieOfTile r.tile ≠ dieOfTile e → 0 < s.blk.liveLinks (dirOf (dieOfTile r.tile) (dieOfTile e))) →
        Runs i s fun t => t.blk.frame? fid = some { r with dest := .engine } ∧
          (dieOfTile r.tile ≠ dieOfTile e → (t.blk.transfers.find (4 * fid + dieOfTile e)).isSome = true) ∧
          (t.blk.ctx? k).map (fun x => x.taken.get 0 a.chunk) = some (c.taken.get 0 a.chunk ||| 2 ^ a.member)) ∧
      (c.kind = 3 ∨ c.kind = 4 →
        Runs i s fun t => t.blk.frame? fid = some { r with dest := .pieces } ∧
          (t.blk.ctx? k).map (fun x => (x.taken.get 0 a.member, x.chunksOk)) =
            some (c.taken.get 0 a.member + 1, c.chunksOk + 1) ∧
          ∃ x, (t.blk.repl.get .reset r.tile).pieces = (s.blk.repl.get .reset r.tile).pieces ++ [x] ∧ x.piece = some fid) ∧
      (∀ hd, c.kind = 5 → hd = dieOfTile (c.home 0) → s.blk.crossed fid r hd = false → s.blk.transfers.find (4 * fid + hd) = none →
        0 < s.blk.liveLinks (dirOf (dieOfTile r.tile) hd) →
        Runs i s fun t => t.blk.frame? fid = some r ∧ (t.blk.transfers.find (4 * fid + hd)).isSome = true ∧
          t.blk.contexts = s.blk.contexts) ∧
      (c.kind = 5 → s.blk.crossed fid r (dieOfTile (c.home 0)) = true →
        Runs i s fun t => t.blk.frame? fid = none ∧
          (t.blk.ctx? k).map (fun x => x.taken.get 0 a.member) = some 1))) ∧
  (∀ (s : State) (g : BitVec 12) (q : BitVec 16) (k : Nat) (c : CtxRec), k = ctxNum g.toNat q.toNat → s.blk.ctx? k = some c →
    (c.recorded = false → c.state = .opened ∨ (c.state = .closing ∧ c.marked = true) →
      Runs (.contextTimeout g q) s fun t =>
        t.blk.ctx? k = some { c with state := .failing, status := if c.marked then 6 else 1 }) ∧
    (c.state = .closing → c.marked = false → c.recorded = false → (c.reducing = true → c.chunksOk = c.chunks) →
      s.blk.ctxPending c.run = false → s.blk.cplFull = false →
      Runs (.contextFinish g q) s fun t => t.blk.ctx? k = none ∧
        t.blk.fld .COL_STATUS_open 0 = (s.blk.fld .COL_STATUS_open 0 - 1) % 2 ^ 15 ∧
        t.blk.fld .COL_COMPLETED_count 0 = min (s.blk.fld .COL_COMPLETED_count 0 + 1) (2 ^ 64 - 1) ∧
        ∃ bs, t.blk.cplWait.get [] c.desc.cring.toNat = s.blk.cplWait.get [] c.desc.cring.toNat ++ [⟨1, bs⟩] ∧
          bs.take 1 = beBytes 1 c.status ∧ bs.length = 32) ∧
    (c.state = .failing → c.recorded = false → s.blk.cplFull = true →
      Runs (.contextFailure g q) s fun t => (t.blk.ctx? k).map (fun x => (x.state, x.status, x.recorded)) =
          some (.failing, c.status, true) ∧
        (∀ (tile : TileId) (x : ChunkRec), x ∈ (t.blk.engine tile).chunks → x.id.ctx ≠ k) ∧
        (t.blk.cplHeld.map fun x => (x.ring, x.work)) =
          (s.blk.cplHeld.map fun x => (x.ring, x.work)) ++ [(c.desc.cring.toNat, .ctx k)]) ∧
    (c.state = .failing → c.recorded = false → s.blk.cplFull = false →
      Runs (.contextFailure g q) s fun t => t.blk.ctx? k = none ∧
        (∀ (tile : TileId) (x : ChunkRec), x ∈ (t.blk.engine tile).chunks → x.id.ctx ≠ k) ∧
        ∃ bs, t.blk.cplWait.get [] c.desc.cring.toNat = s.blk.cplWait.get [] c.desc.cring.toNat ++ [⟨1, bs⟩] ∧
          bs.take 1 = beBytes 1 c.status ∧ bs.length = 32))

/-! ### The Gneiss store (R256 to R283) -/

/-- R265, R267 to R269: a memory request that fails a check of R268 is answered with its status and changes no byte of the
store; a READ that passes is answered at once, and changes none where no line it reads is poisoned. Both are counted. Either
waits until its cells have crossed to the dies of its lines. R275, R282, R294, R295: responses. One that answers a
notification of the spine's own ends it; one that answers nothing is counted as stray; a WRITE of the spine's own without a
response is sent again, up to retries times; the stale block of a stack powered again is copied from the live copy. -/
def Obligations.MemoryRequests : Prop :=
  (∀ (s : State) (fid op st : Nat) (r : FrameRec) (i : Instr) (q : MemReq) (h : XHeader),
    (op, i) ∈ [(0x40, Instr.read fid), (0x41, Instr.write fid), (0x48, Instr.add fid), (0x49, Instr.fetchAdd fid),
      (0x4A, Instr.swap fid), (0x4B, Instr.cas fid), (0x4C, Instr.fetchOr fid), (0x4D, Instr.fetchAnd fid)] →
    s.blk.frame? fid = some r → fid < s.blk.nextFrame → r.dest = .gneiss → r.whole = true → r.chkFail = false →
    h = xHeader r.frame.data → h.opcode = op → s.blk.heldBack fid r = false → q = s.blk.memReqOf r →
    (s.blk.reqDies q h.dst).all (s.blk.crossed fid r) = true → st = s.blk.memStatus q h.dst h.len →
    (st ≠ 0 → Runs i s fun t => t.blk.frame? fid = none ∧ t.blk.hbm = s.blk.hbm ∧ t.blk.updates = s.blk.updates ∧
      t.blk.fld .GNS_REQ_ERR_count 0 = min (s.blk.fld .GNS_REQ_ERR_count 0 + 1) (2 ^ 64 - 1)) ∧
    (∀ (rn off len : Nat) (bs : List Byte) (a b c : Bool) (never : Nat), st = 0 → op = 0x40 → (rn, off, len) = Blk.reqRange q →
      (s.blk.region rn).mode ≠ 3 → s.blk.readRange rn off len = .ok bs a b c never →
      (∀ n ∈ Blk.linesOf off len, ∀ x ∈ (s.blk.region rn).copies n, (s.blk.meta_ x).poison = false) →
      Runs i s fun t => t.blk.frame? fid = none ∧ t.blk.hbm = s.blk.hbm ∧ t.blk.updates = s.blk.updates ∧
        t.blk.fld .GNS_REQ_OK_count 0 = min (s.blk.fld .GNS_REQ_OK_count 0 + 1) (2 ^ 64 - 1) ∧
        t.blk.fld .GNS_NW_READS_count 0 = min (s.blk.fld .GNS_NW_READS_count 0 + never) (2 ^ 64 - 1))) ∧
  ((∀ (s : State) (fid : Nat) (r : FrameRec), s.blk.frame? fid = some r → r.dest = .gneiss → r.whole = true →
    r.chkFail = false →
    (∀ (id k : Nat) (w : OwnWrite), (xHeader r.frame.data).opcode = 0x61 → id = bits (beAt r.frame.data 16 12) 31 16 →
      bits (beAt r.frame.data 16 12) 47 40 = 0 → s.blk.ownWrites.find id = some w → w.kind = .notify k →
      Runs (.writeResp fid) s fun t => t.blk.frame? fid = none ∧ t.blk.ownWrites.find id = none) ∧
    (∀ i, ((xHeader r.frame.data).opcode = 0x61 ∧ i = Instr.writeResp fid ∧
        s.blk.ownWrites.find (bits (beAt r.frame.data 16 12) 31 16) = none) ∨
      ((xHeader r.frame.data).opcode = 0x60 ∧ i = .readResp fid) ∨ ((xHeader r.frame.data).opcode = 0x68 ∧ i = .atomicResp fid) →
      Runs i s fun t => t.blk.frame? fid = none ∧ t.blk.hbm = s.blk.hbm ∧
        t.blk.fld .GNS_STRAY_count 0 = min (s.blk.fld .GNS_STRAY_count 0 + 1) (2 ^ 64 - 1))) ∧
  (∀ (s : State) (id : BitVec 16) (w : OwnWrite), s.blk.ownWrites.find id.toNat = some w →
    w.tries < s.blk.fld .GNS_CKP_CFG_retries 0 →
    Runs (.respTimeout id) s fun t => t.blk.ownWrites.find id.toNat = some { w with tries := w.tries + 1 }) ∧
  (∀ (s : State) (stack : Fin 12) (b o : Nat) (kv : Nat × RegionRec), s.blk.stackUp stack = true →
    (s.blk.stale.keys.filter fun b => b % 12 = stack.val) = [b] →
    s.blk.regions.find? (fun kv => kv.2.valid && kv.2.dup && kv.2.base ≤ b && b < kv.2.base + kv.2.blocks) = some kv →
    o = (if (b - kv.2.base) % 12 < 6 then b + 6 else b - 6) → o ≠ b → s.blk.liveLine (16 * o) = true →
    Runs (.staleBlocksCopied stack) s fun t => t.blk.stale.get false b = false ∧
      ∀ k < 16, t.blk.lineBytes (16 * b + k) = s.blk.lineBytes (16 * o + k)))

/-- R265, R271, R272, R276: a store or atomic that passes its checks takes an entry of the update queue for each line it
touches, in the die of the line, at the first try and when it requests again; an ordered store waits for its predecessors,
and one whose wait runs out meanwhile is answered with none of its effect; a store to a pass-through region goes to its
gateway. R258, R265, R270, R273: the first update of its line is applied to every live copy of the line: the line then reads
as the store or atomic leaves it, and every byte of the store outside the line's copies reads as before. With more pending
on the line and room in the die's buffer, the line is held there and HBM is not written. An update for a region since
cleared or retagged changes nothing. (Regions that absorb have further rules; `store` is where its region puts the entry's
line.) -/
def Obligations.MemoryUpdates : Prop :=
  (∀ (s : State) (fid op : Nat) (r : FrameRec) (i : Instr) (q : MemReq) (h : XHeader) (rn off len : Nat) (payload : List Byte),
    (op, i) ∈ [(0x41, Instr.write fid), (0x48, Instr.add fid), (0x49, Instr.fetchAdd fid), (0x4A, Instr.swap fid),
      (0x4B, Instr.cas fid), (0x4C, Instr.fetchOr fid), (0x4D, Instr.fetchAnd fid)] →
    s.blk.frame? fid = some r → fid < s.blk.nextFrame → r.dest = .gneiss → r.whole = true → r.chkFail = false →
    h = xHeader r.frame.data → h.opcode = op → s.blk.heldBack fid r = false → q = s.blk.memReqOf r →
    (s.blk.reqDies q h.dst).all (s.blk.crossed fid r) = true → s.blk.memStatus q h.dst h.len = 0 → (rn, off, len) = Blk.reqRange q → payload = (r.frame.data.drop 32).take h.len →
    (∀ d : DieId, (s.blk.region rn).mode ≠ 3 → (s.blk.noteOrder fid q).mustWait fid = false →
      (∀ n ∈ Blk.linesOf off len, ∃ x ∈ (s.blk.region rn).copies n, s.blk.liveLine x = true) →
      (∀ k < 4, (s.blk.entriesOf q s.blk.nextReq payload).filter (fun e => e.1 = k) ≠ [] →
        s.blk.entriesFree k q.tile ((s.blk.entriesOf q s.blk.nextReq payload).filter fun e => e.1 = k).length = true) →
      ∀ j, j = i ∨ (j = .updateQueueRetry fid ∧ s.blk.memWait.contains fid = true) →
      Runs j s fun t => t.blk.frame? fid = none ∧ t.blk.hbm = s.blk.hbm ∧ t.blk.nextReq = s.blk.nextReq + 1 ∧
        t.blk.updQueue d = s.blk.updQueue d ++
          ((s.blk.entriesOf q s.blk.nextReq payload).filter fun e => e.1 = d.val).map Prod.snd) ∧
    (s.blk.ordWait.find fid = none → op = 0x41 → q.area.testBit 2 = true →
      s.blk.ordApplied.get 0 q.bucket < s.blk.ordTaken.get 0 q.bucket →
      Runs i s fun t => t = { s with blk := { s.blk with
        ordWait := s.blk.ordWait.put fid (q.bucket, s.blk.ordTaken.get 0 q.bucket) } }) ∧
    (∀ b goal, s.blk.ordWait.find fid = some (b, goal) → s.blk.ordApplied.get 0 b < goal → Runs i s fun t => t = s) ∧
    (s.blk.mustWait fid = true →
      Runs (.orderTimeout fid) s fun t => t.blk.frame? fid = none ∧ t.blk.hbm = s.blk.hbm ∧ t.blk.updates = s.blk.updates ∧
        t.blk.fld .GNS_REQ_ERR_count 0 = min (s.blk.fld .GNS_REQ_ERR_count 0 + 1) (2 ^ 64 - 1)) ∧
    ((s.blk.region rn).mode = 3 → (s.blk.noteOrder fid q).mustWait fid = false → s.blk.gwLive (s.blk.region rn).gw = true →
      Runs i s fun t => t.blk.hbm = s.blk.hbm ∧ ∃ x,
        (t.blk.gateway (s.blk.region rn).gw).stores = (s.blk.gateway (s.blk.region rn).gw).stores ++ [x] ∧ x.req = q)) ∧
  (∀ (s : State) (d : DieId) (pos : Nat) (e : UpdEntry), (s.blk.updQueue d)[pos]? = some e →
    (∀ x ∈ (s.blk.updQueue d).take pos, ¬ (x.store = e.store)) →
    (∀ (bs : List Byte) (never c2 : Bool), (s.blk.region e.region).valid = true → (s.blk.region e.region).gen = e.gen →
      (s.blk.region e.region).mode ≠ 1 → s.blk.readStored e.region e.line = .ok bs never c2 → (e.onto bs).length = 256 →
      (∃ x ∈ (s.blk.region e.region).copies e.line, s.blk.liveLine x = true ∧ (s.blk.meta_ x).retired = false) →
      e.store = s.blk.storeLine e.region e.line →
      Runs (.updateApply d pos) s fun t => t.blk.updQueue d = (s.blk.updQueue d).eraseIdx pos ∧
        (∃ c2', t.blk.readStored e.region e.line = .ok (e.onto bs) false c2') ∧
        (∀ a, (∀ x ∈ (s.blk.region e.region).copies e.line, a / 256 ≠ x) → t.blk.hbm.get 0 a = s.blk.hbm.get 0 a) ∧
        ((∃ x ∈ (s.blk.updQueue d).drop (pos + 1), x.store = e.store) →
          (s.blk.hot.filter fun kv => kv.2.die = d.val).length < 4096 →
          t.blk.hbm = s.blk.hbm ∧ t.blk.hot.find e.store = some ⟨d.val, (s.blk.region e.region).copies e.line, e.region, e.gen, 0, e.onto bs⟩ ∧
          t.blk.fld .GNS_COMBINED_count d = min (s.blk.fld .GNS_COMBINED_count d + 1) (2 ^ 64 - 1))) ∧
    ((s.blk.region e.region).valid = false ∨ (s.blk.region e.region).gen ≠ e.gen → s.blk.hot.find e.store = none →
      Runs (.updateApply d pos) s fun t => t.blk.updQueue d = (s.blk.updQueue d).eraseIdx pos ∧ t.blk.hbm = s.blk.hbm ∧
        t.blk.lineMeta = s.blk.lineMeta))

/-- R262 to R264: the commands of GNS_CMD on regions: a region set, cleared or retagged, its generation moving on, or a result
that names the check it fails with every region as it was; a zeroing sweep zeroes the lines of the old generation and no
others, and no hot-line buffer holds one of them any more (R273). That RGN_SET writes the valid bit as it is given, and that
a RETAG during a sweep starts it anew, is read by inference (log entry 61). -/
def Obligations.RegionsManaged : Prop :=
  (∀ (s : State) (i : Nat), s.blk.gnsCmd = some (1, i) →
    ((s.blk.rgnSet i).1 = 0 →
      Runs .rgnSet s fun t => t.blk.gnsCmd = none ∧ t.blk.fld .GNS_CMD_STATUS_result 0 = 0 ∧
        (s.blk.region i).valid = false ∧ (t.blk.region i).valid = (beAt s.blk.gnsData 0 1).testBit 7 ∧
        (t.blk.region i).gen = ((s.blk.region i).gen + 1) % 256 ∧ (t.blk.region i).mode = bits (beAt s.blk.gnsData 0 1) 6 4 ∧
        (t.blk.region i).base = beAt s.blk.gnsData 8 4 % 2 ^ 28 ∧ (t.blk.region i).blocks = beAt s.blk.gnsData 12 4 % 2 ^ 22 ∧
        t.blk.hbm = s.blk.hbm) ∧
    ((s.blk.region i).valid = true →
      Runs .rgnSet s fun t => t.blk.gnsCmd = none ∧ t.blk.fld .GNS_CMD_STATUS_result 0 = 3 ∧
        t.blk.regions = s.blk.regions)) ∧
  (∀ (s : State) (i op : Nat) (c : Instr), (op, c) ∈ [(2, Instr.rgnClear), (3, Instr.rgnRetag)] → s.blk.gnsCmd = some (op, i) →
    ((s.blk.region i).valid = true →
      Runs c s fun t => t.blk.fld .GNS_CMD_STATUS_result 0 = 0 ∧
        (t.blk.region i).gen = ((s.blk.region i).gen + 1) % 256 ∧ (t.blk.region i).valid = decide (op = 3) ∧
        t.blk.sweeps.find i = some ⟨(s.blk.region i).gen, (s.blk.region i).base, (s.blk.region i).blocks⟩ ∧
        (op = 3 → (t.blk.region i).owner = beAt s.blk.gnsData 2 2 ∧ (t.blk.region i).epoch = 0)) ∧
    ((s.blk.region i).valid = false →
      Runs c s fun t => t.blk.fld .GNS_CMD_STATUS_result 0 = 7 ∧ t.blk.regions = s.blk.regions ∧ t.blk.sweeps = s.blk.sweeps)) ∧
  (∀ (s : State) (i : BitVec 16) (w : Sweep) (x : Nat) (old : Bool), s.blk.sweeps.find i.toNat = some w →
    s.blk.lineMeta.wf (fun _ => .reset) = true →
    old = ((s.blk.meta_ x).written && (s.blk.meta_ x).region = i.toNat && (s.blk.meta_ x).gen = w.gen &&
      w.base ≤ x / 16 && x / 16 < w.base + w.blocks && s.blk.stackUp (lineStack x)) →
    Runs (.sweepDone i) s fun t => t.blk.sweeps.find i.toNat = none ∧ t.blk.flag .GNS_INT_sweep_done 0 = true ∧
      (∀ kv ∈ t.blk.hot, ¬ (kv.2.region = i.toNat ∧ kv.2.gen = w.gen)) ∧
      (old = true → t.blk.lineBytes x = List.replicate 256 0 ∧ (t.blk.meta_ x).written = false) ∧
      (old = false → t.blk.lineBytes x = s.blk.lineBytes x ∧ t.blk.meta_ x = s.blk.meta_ x))

/-- R262, R277, R286: gateways set and cleared by GNS_CMD, and the partition of the store: a write to GNS_PART that moves no
region's store between the partitions takes effect, and one past the store is refused. R276 to R281: gateways at work: a job
posted behind one that runs is queued; acknowledged packets leave the list of those sent, and the job they end is recorded;
a NAK of a lost packet, a timer or a timeout sends again, until retry_cnt or rnr_retry is used up; other NAKs fail the
gateway; CNP and recovery move its rate. -/
def Obligations.Gateways : Prop :=
  ((∀ (s : State) (g : Nat), s.blk.gnsCmd = some (4, g) →
    ((s.blk.gwSet g).1 = 0 →
      Runs .gwSet s fun t => t.blk.gnsCmd = none ∧ t.blk.fld .GNS_CMD_STATUS_result 0 = 0 ∧
        (t.blk.gateway g).valid = (beAt s.blk.gnsData 0 1).testBit 7 ∧ (t.blk.gateway g).state = 0 ∧
        (t.blk.gateway g).psn = 0 ∧ (t.blk.gateway g).dqpn = beAt s.blk.gnsData 4 4 % 2 ^ 24 ∧
        (t.blk.gateway g).rate = beAt s.blk.gnsData 60 2) ∧
    (255 < g → Runs .gwSet s fun t => t.blk.fld .GNS_CMD_STATUS_result 0 = 2 ∧ t.blk.gateways = s.blk.gateways)) ∧
  (∀ (s : State) (g : Nat), s.blk.gnsCmd = some (5, g) → g ≤ 255 →
    (s.blk.gwWorks g = false → (∀ kv ∈ s.blk.regions, ¬ (kv.2.valid = true ∧ kv.2.mode = 3 ∧ kv.2.gw = g)) →
      Runs .gwClear s fun t => t.blk.fld .GNS_CMD_STATUS_result 0 = 0 ∧ (t.blk.gateway g).valid = false) ∧
    (s.blk.gwWorks g = true →
      Runs .gwClear s fun t => t.blk.fld .GNS_CMD_STATUS_result 0 = 6 ∧ t.blk.gateways = s.blk.gateways)) ∧
  (∀ (s : State) (v : BitVec 32) (m a : Nat), m = v.toNat % 1024 → a = v.toNat / 1024 % 1024 →
    (m + a ≤ 576 → (∀ kv ∈ s.blk.regions, kv.2.valid = false) →
      Runs (.partWrite v) s fun t => t.blk.fld .GNS_PART_mem_gib 0 = m ∧ t.blk.fld .GNS_PART_abs_gib 0 = a ∧
        t.blk.fld .GNS_PART_STATUS_jrn_gib 0 = 576 - m - a ∧
        OnlyFields s t [(.GNS_PART_mem_gib, 0), (.GNS_PART_abs_gib, 0), (.GNS_PART_STATUS_jrn_gib, 0)]) ∧
    (576 < m + a →
      Runs (.partWrite v) s fun t => t.blk.flag .GNS_PART_STATUS_reject 0 = true ∧
        OnlyFieldsIrq s t [(.GNS_PART_STATUS_reject, 0)]))) ∧
  ((∀ (s : State) (ring : RingId) (w : Bytes32) (j g : Nat), j = w.toNat → g = bits j 255 248 → s.blk.jobRing = some ring.val →
    ((s.blk.gateway g).valid = true → (s.blk.gateway g).running.isSome = true →
      (s.blk.gateway g).jobs.length + s.blk.jobsHeld g < 15 →
      (s.blk.gateway g).state ≠ 2 →
      Runs (.gneissJob ring w) s fun t => (t.blk.gateway g).jobs = (s.blk.gateway g).jobs ++
          [⟨bits j 239 224, bits j 223 192, bits j 191 128, bits j 127 64, .ring (bits j 25 16) (bits j 63 32)⟩] ∧ t.blk.jobTurn = some ring.val ∧
        t.blk.fld .DMA_RING_HEAD_head ring = (s.blk.fld .DMA_RING_HEAD_head ring + 1) % 2 ^ 32) ∧
    ((s.blk.gateway g).valid = false → s.blk.cplFull = false →
      Runs (.gneissJob ring w) s fun t => t.blk.gateways = s.blk.gateways ∧
        t.blk.cplWait.get [] (bits j 25 16) = s.blk.cplWait.get [] (bits j 25 16) ++
          [⟨3, beBytes 1 1 ++ beBytes 1 g ++ beBytes 2 0 ++ beBytes 4 (bits j 63 32) ++ beBytes 8 0⟩])) ∧
  (∀ (s : State) (ring : RingId) (w : Bytes32), s.blk.jobRing ≠ some ring.val → Runs (.gneissJob ring w) s fun t => t = s) ∧
  (∀ (s : State) (g : GatewayId) (psn : BitVec 24),
    Runs (.roceAck g psn true) s fun t => OnlyFieldsCnt s t [(.GNS_GW_DISCARD_count, 0)] ∧
      t.blk.fld .GNS_GW_DISCARD_count 0 = min (s.blk.fld .GNS_GW_DISCARD_count 0 + 1) (2 ^ 64 - 1)) ∧
  (∀ (s : State) (g : GatewayId) (psn : BitVec 24) (k : Nat) (x : GwRun), s.blk.gwLive g = true →
    covered (s.blk.gateway g).sent psn.toNat = some k → (s.blk.gateway g).running = some x → (s.blk.gateway g).jobs = [] →
    (s.blk.gateway g).stores = [] →
    ((∃ p ∈ (s.blk.gateway g).sent.drop k, p.psn = x.last) →
      Runs (.roceAck g psn false) s fun t => (t.blk.gateway g).sent = (s.blk.gateway g).sent.drop k ∧
        (t.blk.gateway g).tries = 0 ∧ (t.blk.gateway g).running = some { x with
          acked := x.acked + ((((s.blk.gateway g).sent.take k).filter GwPacket.job).map GwPacket.bytes).sum }) ∧
    (∀ cring tag, (∀ p ∈ (s.blk.gateway g).sent.drop k, p.psn ≠ x.last) → x.job.owner = .ring cring tag → s.blk.cplFull = false →
      Runs (.roceAck g psn false) s fun t => (t.blk.gateway g).running = none ∧
        ∃ bs, t.blk.cplWait.get [] cring = s.blk.cplWait.get [] cring ++ [⟨3, bs⟩] ∧ bs.take 1 = beBytes 1 0)) ∧
  (∀ (s : State) (g : GatewayId) (psn : BitVec 24) (p : GwPacket) (ps : List GwPacket), s.blk.gwLive g = true →
    (s.blk.gateway g).sent = p :: ps → p.psn = psn.toNat →
    covered (s.blk.gateway g).sent (psnAdd psn.toNat (2 ^ 24 - 1)) = none →
    ((s.blk.gateway g).tries < (s.blk.gateway g).retryCnt →
      Runs (.roceNak g psn .sequence) s (fun t => t.blk.gateway g = { s.blk.gateway g with tries := (s.blk.gateway g).tries + 1 }) ∧
      Runs (.ackTimeout g) s (fun t => t.blk.gateway g = { s.blk.gateway g with tries := (s.blk.gateway g).tries + 1 })) ∧
    ((s.blk.gateway g).retryCnt ≤ (s.blk.gateway g).tries →
      Runs (.ackTimeout g) s fun t => (t.blk.gateway g).state = 2 ∧ t.blk.flag .GNS_INT_gw_fail 0 = true) ∧
    Runs (.rnrNak g psn) s (fun t => t.blk.gateway g = { s.blk.gateway g with rnrFrom := some psn.toNat }) ∧
    Runs (.roceNak g psn .access) s (fun t => (t.blk.gateway g).state = 2 ∧ (t.blk.gateway g).sent = [] ∧
      t.blk.flag .GNS_INT_gw_fail 0 = true)) ∧
  (∀ (s : State) (g : GatewayId) (psn : Nat), (s.blk.gateway g).rnrFrom = some psn →
    ((s.blk.gateway g).rnrRetry = 7 ∨ (s.blk.gateway g).rnrTries < (s.blk.gateway g).rnrRetry →
      Runs (.rnrTimer g) s fun t => (t.blk.gateway g).rnrFrom = none ∧
        (t.blk.gateway g).rnrTries = (s.blk.gateway g).rnrTries + 1) ∧
    ((s.blk.gateway g).rnrRetry ≠ 7 → (s.blk.gateway g).rnrRetry ≤ (s.blk.gateway g).rnrTries →
      Runs (.rnrTimer g) s fun t => (t.blk.gateway g).state = 2 ∧ t.blk.flag .GNS_INT_gw_fail 0 = true)) ∧
  (∀ (s : State) (g : GatewayId), s.blk.gwLive g = true →
    Runs (.cnp g) s (fun t => (t.blk.gateway g).cur = max 1 ((s.blk.gateway g).cur / 2) ∧
      t = { s with blk := { s.blk with gateways := t.blk.gateways } }) ∧
    Runs (.rateRecovery g) s (fun t => (t.blk.gateway g).cur =
        min ((s.blk.gateway g).rate : Rat) ((s.blk.gateway g).cur + (s.blk.gateway g).rate / 20) ∧
      t = { s with blk := { s.blk with gateways := t.blk.gateways } })))

/-! ### Checkpoints and Shale (R284 to R314) -/

/-- R288, R297 to R299: the shard commands of the checkpoint command queue: what each leaves in the shard's entry, and the
record that answers it; a command of an op that is none ends with BAD_CMD. R289, R290, R292, R295, R301, R303: a shard's
levels: a counted line, the last of which absorbs it; a mirror that sends its next piece in its turn; a shard not filled in
time; a restore that sends its next piece, and ends after the last, or because its region's generation has changed. -/
def Obligations.Shards : Prop :=
  (∀ (s : State) (ring : RingId) (w : Bytes64) (c : CkpCmd) (op i : Nat), s.blk.ringHas ring 6 = true → s.blk.cplFull = false →
    c = ckpCmd w → op = (w.extractLsb' 504 8).toNat → i = c.index.toNat →
    (∀ x, (op, x) ∈ [(1, Instr.openShard ring w), (2, Instr.release ring w), (3, Instr.mirror ring w),
        (4, Instr.drain ring w)] → 16383 < i →
      Runs x s fun t => t.blk.shards = s.blk.shards ∧ CkpRecorded s t ring c.cring.toNat 2 op i c.tag.toNat 0 0 0) ∧
    (op = 1 → i ≤ 16383 → (s.blk.openCmd c i).1 = 0 →
      Runs (.openShard ring w) s fun t => t.blk.shard i = s.blk.openEntry c ∧
        (t.blk.region (s.blk.openEntry c).region).epoch = (s.blk.region (s.blk.openEntry c).region).epoch + 1 ∧
        CkpRecorded s t ring c.cring.toNat 0 1 i c.tag.toNat 1 0 0) ∧
    (i ≤ 16383 → (s.blk.shard i).state ≠ 0 →
      (op = 1 → Runs (.openShard ring w) s (fun t => t.blk.shards = s.blk.shards ∧
        CkpRecorded s t ring c.cring.toNat 3 1 i c.tag.toNat (s.blk.shard i).state 0 0)) ∧
      (op = 2 → (s.blk.shard i).mpos = none → (s.blk.shard i).drainRuns = false →
        Runs (.release ring w) s fun t => t.blk.shard i = .reset ∧ CkpRecorded s t ring c.cring.toNat 0 2 i c.tag.toNat 0 0 0)) ∧
    (op = 3 → i ≤ 16383 → (s.blk.shard i).state = 2 ∨ (s.blk.shard i).state = 3 → (s.blk.shard i).mpos = none →
      Runs (.mirror ring w) s fun t => t.blk.shard i = { s.blk.shard i with err := 0, mpos := some 0 } ∧
        CkpRecorded s t ring c.cring.toNat 0 3 i c.tag.toNat (s.blk.shard i).state 0 0) ∧
    (∀ (r : ShardRec) (g : GwRec), op = 4 → i ≤ 16383 → r = s.blk.shard i → g = s.blk.gateway r.gw →
      r.state = 2 ∨ r.state = 3 ∨ r.state = 4 → r.drainRuns = false → g.valid = true → g.running.isSome = true → g.state ≠ 2 →
      Runs (.drain ring w) s fun t =>
        t.blk.shard i = { r with err := 0, drainStarted := true, drainRuns := true } ∧
        (t.blk.gateway r.gw).jobs = g.jobs ++ [⟨r.region, r.offset, r.length, r.rOff, .shard i⟩] ∧
        CkpRecorded s t ring c.cring.toNat 0 4 i c.tag.toNat r.state 0 0) ∧
    (op ∉ [1, 2, 3, 4, 8, 16, 17, 18] →
      Runs (.openShard ring w) s fun t => t.blk.shards = s.blk.shards ∧ CkpRecorded s t ring c.cring.toNat 1 op i c.tag.toNat 0 0 0) ∧
    (∀ (n off len : Nat), op = 8 → n = beAt c.args 0 2 → off = beAt c.args 4 4 → len = beAt c.args 8 8 →
      (beAt c.args 2 1).testBit 7 = false → (s.blk.region n).valid = true → (s.blk.region n).mode < 2 →
      off + len ≤ (s.blk.region n).size → off % 256 = 0 → len % 256 = 0 → len ≠ 0 → len ≤ 2 ^ 32 →
      Runs (.restore ring w) s fun t => t.blk.nextWork = s.blk.nextWork + 1 ∧
        ∃ r, t.blk.restores.find s.blk.nextWork = some r ∧ r.region = n ∧ r.offset = off ∧ r.length = len ∧ r.pos = 0 ∧
          r.gen = (s.blk.region n).gen)) ∧
  ((∀ (s : State) (d : DieId) (pos k : Nat) (e : UpdEntry) (bs : List Byte) (never c2 : Bool),
    (s.blk.updQueue d)[pos]? = some e →
    (∀ x ∈ (s.blk.updQueue d).take pos, x.store ≠ e.store) →
    (s.blk.region e.region).valid = true → (s.blk.region e.region).gen = e.gen →
    s.blk.readStored e.region e.line = .ok bs never c2 → (s.blk.absorbEpoch e.region e.line).2 = some k →
    (∀ x ∈ (s.blk.region e.region).copies e.line, (s.blk.meta_ x).retired = false) →
    (s.blk.shard k).mirror = false → (s.blk.shard k).drain = false →
    Runs (.updateApply d pos) s fun t => (t.blk.shard k).lines = (s.blk.shard k).lines + 1 ∧
      (t.blk.shard k).state = (if (s.blk.shard k).lines + 1 = (s.blk.shard k).length / 256 then 2 else (s.blk.shard k).state)) ∧
  (∀ (s : State) (i : ShardId), (s.blk.shard i).state = 1 → s.blk.fld .GNS_CKP_FILL_fill_ms 0 ≠ 0 →
    Runs (.fillTimeout i) s fun t => (t.blk.shard i).state = 5 ∧ t.blk.flag .GNS_CKP_INT_shard_fail 0 = true ∧
      t.blk.fld .GNS_CKP_FAILED_count 0 = min (s.blk.fld .GNS_CKP_FAILED_count 0 + 1) (2 ^ 64 - 1)) ∧
  (∀ (s : State) (i : ShardId) (r : ShardRec) (p n : Nat), r = s.blk.shard i → r.mpos = some p → p < r.length →
    n = min 8192 (r.length - p) → s.blk.ownWrites = [] → s.blk.mirrorTurn i = true →
    (∀ (bs : List Byte) (a b c : Bool) (k : Nat), s.blk.readRange r.region (r.offset + p) n = .ok bs a b c k →
      Runs (.mirrorWriteSend i) s fun t => (t.blk.shard i).mpos = some (p + n) ∧
        ∃ w, t.blk.ownWrites.find (s.blk.nextOwn % 65536) = some w ∧ w.kind = .mirror i ∧ w.dst = r.pEid ∧ w.tries = 0) ∧
    (s.blk.readRange r.region (r.offset + p) n = .memErr → r.drain = false →
      Runs (.mirrorWriteSend i) s fun t => (t.blk.shard i).mpos = none ∧ (t.blk.shard i).err = 0x0D ∧
        t.blk.flag .GNS_CKP_INT_mirror_fail 0 = true)) ∧
  (∀ (s : State) (i : ShardId), s.blk.mirrorTurn i = false → Runs (.mirrorWriteSend i) s fun t => t = s) ∧
  (∀ (s : State) (id : Nat) (r : RestoreRec), s.blk.restores.find id = some r →
    (∀ (n : Nat) (bs : List Byte) (a b c : Bool) (k : Nat), r.pos < r.length → r.changed = false →
      n = min r.piece (r.length - r.pos) →
      s.blk.readRange r.region (r.offset + r.pos) n = .ok bs a b c k →
      Runs (.restoreFrame id) s fun t =>
        t.blk.restores.find id = some { r with pos := r.pos + n, frames := r.frames + 1 } ∧
        t.blk.fld .GNS_CKP_RESTORE_FR_count 0 = min (s.blk.fld .GNS_CKP_RESTORE_FR_count 0 + 1) (2 ^ 64 - 1)) ∧
    (r.changed = true → s.blk.cplFull = false →
      Runs (.restoreFrame id) s fun t => t.blk.restores.find id = none ∧
        ∃ bs, t.blk.cplWait.get [] r.cring = s.blk.cplWait.get [] r.cring ++ [⟨4, bs⟩] ∧ bs.take 2 = beBytes 1 0x0C ++ beBytes 1 8) ∧
    (r.changed = false → r.length ≤ r.pos → s.blk.restorePending id = false → s.blk.cplFull = false →
      Runs (.restoreFrame id) s fun t => t.blk.restores.find id = none ∧
        ∃ bs, t.blk.cplWait.get [] r.cring = s.blk.cplWait.get [] r.cring ++ [⟨4, bs⟩] ∧ bs.take 2 = beBytes 1 0 ++ beBytes 1 8)))

/-- R304 to R306: the journal: a result passed to Shale is appended, lost for want of room, or discarded for want of a stream,
each counted; the first record waiting becomes visible when it is in the store. -/
def Obligations.JournalRecords : Prop :=
  (∀ (s : State) (j : JournalItem) (js : List JournalItem), s.blk.journal = j :: js →
    (∀ k, s.blk.flag .SHL_CTL_en 0 = true → j.stream = some k → s.blk.flag .SHL_STR_CTL_en k = true →
      (s.blk.streamRoom k (resultRecord j 0).length = true → (s.blk.stream k).lost = none →
        Runs .journalAppend s fun t => t.blk.journal = js ∧
          (t.blk.stream k).waiting = (s.blk.stream k).waiting ++ [resultRecord j (s.blk.streamEnd k)] ∧
          t.blk.fld .SHL_RECORDS_count 0 = min (s.blk.fld .SHL_RECORDS_count 0 + 1) (2 ^ 64 - 1)) ∧
      (s.blk.streamRoom k (resultRecord j 0).length = false →
        Runs .journalAppend s fun t => t.blk.journal = js ∧ (t.blk.stream k).waiting = (s.blk.stream k).waiting ∧
          t.blk.flag .SHL_STR_CTL_ovf k = true ∧ t.blk.flag .SHL_INT_overflow 0 = true ∧
          t.blk.fld .SHL_STR_LOST_count k = min (s.blk.fld .SHL_STR_LOST_count k + 1) (2 ^ 64 - 1))) ∧
    (j.stream = none →
      Runs .journalAppend s fun t => t.blk.journal = js ∧ t.blk.streams = s.blk.streams ∧
        t.blk.flag .SHL_INT_no_stream 0 = true ∧
        t.blk.fld .SHL_DISCARDED_count 0 = min (s.blk.fld .SHL_DISCARDED_count 0 + 1) (2 ^ 64 - 1))) ∧
  (∀ (s : State) (k : StreamId) (bs : List Byte) (more : List (List Byte)) (i p : Nat) (line : List Byte) (a b : Bool),
    (s.blk.stream k).waiting = bs :: more → bs.length = 32 → i = s.blk.fld .SHL_STR_CTL_region k →
    p = s.blk.fld .SHL_STR_WPOS_pos k % s.blk.streamSize k → p % 256 + 32 ≤ 256 →
    s.blk.readStored i (p / 256) = .ok line a b →
    (∀ x ∈ (s.blk.region i).copies (p / 256), (s.blk.meta_ x).retired = true → (s.blk.meta_ x).poison = true) →
    Runs (.journalRecordVisible k) s fun t => (t.blk.stream k).waiting = more ∧
      t.blk.fld .SHL_STR_WPOS_pos k = (s.blk.fld .SHL_STR_WPOS_pos k + 32) % 2 ^ 64 ∧
      ∃ b', t.blk.readStored i (p / 256) = .ok (overlay line (p % 256) bs) false b')

/-- R307, R309: MARK appends a mark and answers its position; TRIM frees the stream up to a kept mark; REPLAY starts from the
trim position or a kept mark, sends what it has read, and ends with a record once all is answered. R313, R314: the registers
of a stream: it is enabled only over a valid journal region of at least 64 KiB, from position 0; disabled, when what is not
yet visible is dropped; and a group's stream is mapped. -/
def Obligations.Streams : Prop :=
  ((∀ (s : State) (ring : RingId) (w : Bytes64) (c : CkpCmd) (op k : Nat), s.blk.ringHas ring 6 = true → s.blk.cplFull = false →
    c = ckpCmd w → op = (w.extractLsb' 504 8).toNat → k = c.index.toNat → k ≤ 255 → s.blk.flag .SHL_STR_CTL_en k = true →
    (op = 0x10 → s.blk.streamRoom k 32 = true → (s.blk.stream k).lost = none →
      Runs (.mark ring w) s fun t =>
        (t.blk.stream k).waiting = (s.blk.stream k).waiting ++ [markRecord (beAt c.args 0 4) (s.blk.streamEnd k)] ∧
        s.blk.streamEnd k ∈ (t.blk.stream k).marks ∧
        CkpRecorded s t ring c.cring.toNat 0 0x10 k c.tag.toNat 0 (s.blk.streamEnd k) 0) ∧
    (op = 0x10 → s.blk.streamRoom k 32 = false →
      Runs (.mark ring w) s fun t => t.blk.streams = s.blk.streams ∧
        CkpRecorded s t ring c.cring.toNat 0x11 0x10 k c.tag.toNat 0 0 0) ∧
    (op = 0x11 → beAt c.args 0 8 ∈ (s.blk.stream k).marks → s.blk.fld .SHL_STR_TPOS_pos k ≤ beAt c.args 0 8 → s.blk.replays = [] →
      Runs (.trim ring w) s fun t => t.blk.fld .SHL_STR_TPOS_pos k = beAt c.args 0 8 ∧
        (t.blk.stream k).marks = (s.blk.stream k).marks.filter (fun m => beAt c.args 0 8 ≤ m) ∧
        CkpRecorded s t ring c.cring.toNat 0 0x11 k c.tag.toNat 0 0 0) ∧
    (op = 0x11 → beAt c.args 0 8 ∉ (s.blk.stream k).marks →
      Runs (.trim ring w) s fun t => t.blk.streams = s.blk.streams ∧
        t.blk.fld .SHL_STR_TPOS_pos k = s.blk.fld .SHL_STR_TPOS_pos k ∧
        CkpRecorded s t ring c.cring.toNat 0x10 0x11 k c.tag.toNat 0 0 0) ∧
    (op = 0x12 → beAt c.args 8 8 = 0 → s.blk.fld .SHL_STR_TPOS_pos k ≤ s.blk.fld .SHL_STR_WPOS_pos k →
      beAt c.args 0 8 = s.blk.fld .SHL_STR_TPOS_pos k ∨ beAt c.args 0 8 ∈ (s.blk.stream k).marks →
      Runs (.replay ring w) s fun t => t.blk.nextWork = s.blk.nextWork + 1 ∧
        ∃ r, t.blk.replays.find s.blk.nextWork = some r ∧ r.stream = k ∧ r.pos = beAt c.args 0 8 ∧
          r.endPos = s.blk.fld .SHL_STR_WPOS_pos k ∧ r.sent = 0 ∧ r.ended = none)) ∧
  (∀ (s : State) (id : Nat) (r : ReplayRec), s.blk.replays.find id = some r →
    (r.ended = none → (s.blk.region r.region).valid = true → (s.blk.region r.region).gen = r.gen → 8192 ≤ r.buf.length →
      s.blk.ownWrites = [] →
      Runs (.replayWrite id) s fun t =>
        t.blk.replays.find id = some { r with buf := r.buf.drop 8192, sent := r.sent + 8192 } ∧
        ∃ w, t.blk.ownWrites.find (s.blk.nextOwn % 65536) = some w ∧ w.kind = .replay id ∧ w.dst = r.dest) ∧
    (∀ st, r.ended = some st → r.buf = [] → s.blk.ownWrites = [] → s.blk.cplFull = false →
      Runs (.replayWrite id) s fun t => t.blk.replays.find id = none ∧
        ∃ bs, t.blk.cplWait.get [] r.cring = s.blk.cplWait.get [] r.cring ++ [⟨4, bs⟩] ∧
          bs.take 2 = beBytes 1 st ++ beBytes 1 0x12))) ∧
  ((∀ (s : State) (k : StreamId) (n : BitVec 16) (r : RegionRec), r = s.blk.region n.toNat →
    s.blk.flag .SHL_STR_CTL_en k = false →
    (r.valid = true → r.mode = 2 → 65536 ≤ r.size →
      Runs (.streamEnable k n) s fun t => t.blk.flag .SHL_STR_CTL_en k = true ∧ t.blk.fld .SHL_STR_CTL_region k = n.toNat ∧
        t.blk.fld .SHL_STR_WPOS_pos k = 0 ∧ t.blk.fld .SHL_STR_TPOS_pos k = 0 ∧ t.blk.flag .SHL_STR_CTL_ovf k = false ∧
        t.blk.stream k = ⟨[], [], none⟩) ∧
    (r.valid = false ∨ r.mode ≠ 2 ∨ r.size < 65536 →
      Runs (.streamEnable k n) s fun t => t.blk.flag .SHL_INT_cfg_reject 0 = true ∧
        OnlyFieldsIrq s t [(.SHL_INT_cfg_reject, 0)]) ∧
    Runs (.streamDisable k n) s (fun t => t.blk.fld .SHL_STR_CTL_region k = n.toNat ∧
      OnlyFields s t [(.SHL_STR_CTL_region, k)])) ∧
  (∀ (s : State) (k : StreamId) (n : BitVec 16), s.blk.flag .SHL_STR_CTL_en k = true →
    s.blk.fld .SHL_STR_CTL_region k = n.toNat →
    Runs (.streamDisable k n) s (fun t => t.blk.flag .SHL_STR_CTL_en k = false ∧
      t.blk.stream k = { s.blk.stream k with waiting := [] } ∧ (∀ j : StreamId, j ≠ k → t.blk.stream j = s.blk.stream j) ∧
      OnlyFields { s with blk := { s.blk with streams := t.blk.streams } } t [(.SHL_STR_CTL_en, k)]) ∧
    Runs (.streamEnable k n) s (fun t => t = s)) ∧
  (∀ (s : State) (g : BitVec 12) (v : BitVec 32),
    Runs (.groupMapWrite g v) s fun t => t.blk.flag .SHL_GRP_MAP_valid g.toNat = v.msb ∧
      t.blk.fld .SHL_GRP_MAP_stream g.toNat = v.toNat % 256 ∧
      OnlyFields s t [(.SHL_GRP_MAP_valid, g.toNat), (.SHL_GRP_MAP_stream, g.toNat)]))

/-! ### Optics and the Foiraeth by-pass (R315 to R345) -/

/-- R316, R322, R323: the modulator loops of the lanes, by the codes of MICA_LANE_STATUS: a sweep ends in PILOT or FAULT, a
powered engine's monitors are read and a loop in LIVE or PILOT updated, the driver moves a loop between PILOT and LIVE, a
heater at its range's end faults, and a faulted lane of a disabled link sweeps again where its controller has room. R317,
R319, R320, R322: the laser modules: their enables, presence and faults, and a laser's light: where it goes, the lanes that
it lights hold their heater codes; where it returns, they go on. -/
def Obligations.LoopsAndLasers : Prop :=
  ((∀ (s : State) (t : TileId) (n : LaneNo) (k : Nat), k = laneKey t n → k ∉ s.blk.sweepWait →
    (s.blk.loopIn k .sweep = true →
      (∀ h : BitVec 16, Runs (.resonanceFound t n h) s fun u => u.blk.loopIn k .pilot = true ∧
        u.blk.fld .MICA_LANE_STATUS_heater k = h.toNat) ∧
      Runs (.sweepTimeout t n) s (fun u => u.blk.loopIn k .fault = true ∧ u.blk.flag .MICA_OE_INT_lane_fault t = true ∧
        u.blk.fld .MICA_OE_FAULTS_count t = min (s.blk.fld .MICA_OE_FAULTS_count t + 1) (2 ^ 64 - 1))) ∧
    (s.blk.loopIn k .sweep = true ∨ s.blk.loopIn k .live = true ∨ s.blk.loopIn k .pilot = true →
      Runs (.heaterRangeEnd t n) s fun u => u.blk.loopIn k .fault = true ∧ u.blk.flag .MICA_OE_INT_lane_fault t = true) ∧
    (s.blk.domOn (32 + t.val) = true → s.blk.loopIn k .live = true ∨ s.blk.loopIn k .pilot = true →
      ∀ x : LaneSample, Runs (.loopUpdate t n x) s fun u => u.blk.fld .MICA_LANE_STATUS_heater k = x.heater.toNat ∧
        u.blk.fld .MICA_LANE_STATUS_lock_err k = x.lockErr.toNat ∧ u.blk.fld .MICA_LANE_PWR_tx_pwr k = x.txPower.toNat ∧
        u.blk.fld .MICA_LANE_PWR_rx_pwr k = x.rxPower.toNat ∧
        OnlyFields s u [(.MICA_LANE_STATUS_heater, k), (.MICA_LANE_STATUS_lock_err, k), (.MICA_LANE_PWR_tx_pwr, k),
          (.MICA_LANE_PWR_rx_pwr, k)]) ∧
    (s.blk.domOn (32 + t.val) = true → s.blk.loopIn k .live = false → s.blk.loopIn k .pilot = false →
      ∀ x : LaneSample, Runs (.loopUpdate t n x) s fun u => u.blk.fld .MICA_LANE_PWR_tx_pwr k = x.txPower.toNat ∧
        u.blk.fld .MICA_LANE_PWR_rx_pwr k = x.rxPower.toNat ∧
        OnlyFields s u [(.MICA_LANE_PWR_tx_pwr, k), (.MICA_LANE_PWR_rx_pwr, k)]) ∧
    (s.blk.loopIn k .pilot = true → Runs (.laneDriverChange t n true) s fun u => u.blk.loopIn k .live = true ∧
      OnlyFields s u [(.MICA_LANE_STATUS_state, k)]) ∧
    (s.blk.loopIn k .live = true → Runs (.laneDriverChange t n false) s fun u => u.blk.loopIn k .pilot = true ∧
      OnlyFields s u [(.MICA_LANE_STATUS_state, k)]) ∧
    (s.blk.loopIn k .fault = true → s.blk.isIn (s.blk.laneLink k) .disabled = true → s.blk.micaRuns (micaOf t) = true →
      s.blk.sweepWait = [] → (∀ j ∈ micaLanes (micaOf t), s.blk.loopIn j .sweep = false) →
      (∀ m : LaneNo, m ≠ n → s.blk.loopIn (laneKey t m) .fault = false) →
      Runs (.oeSweep t) s fun u => u.blk.loopIn k .sweep = true)) ∧
  (∀ (s : State) (t : TileId) (on : Bool),
    Runs (.quench t on) s fun u => u.blk.flag .MICA_OE_CTL_quench t = on ∧ OnlyFields s u [(.MICA_OE_CTL_quench, t)])) ∧
  ((∀ (s : State) (m : ElsId) (en : Bool),
    Runs (.elsEnWrite m en) s fun t => t.blk.flag .MICA_ELS_CTL_en m = en ∧ OnlyFields s t [(.MICA_ELS_CTL_en, m)]) ∧
  (∀ (s : State) (m : ElsId) (x : Bool),
    (s.blk.flag .MICA_ELS_STATUS_present m ≠ x →
      Runs (.elsPresenceChange m x) s fun t => t.blk.flag .MICA_ELS_STATUS_present m = x ∧
        t.blk.bit .MICA_ELS_INT_change 0 m = true ∧ (x = false → t.blk.flag .MICA_ELS_CTL_en m = false) ∧
        OnlyFieldsIrq s t [(.MICA_ELS_STATUS_present, m), (.MICA_ELS_INT_change, 0), (.MICA_ELS_CTL_en, m)]) ∧
    (s.blk.flag .MICA_ELS_STATUS_fault m ≠ x →
      Runs (.elsFaultChange m x) s fun t => t.blk.flag .MICA_ELS_STATUS_fault m = x ∧
        t.blk.bit .MICA_ELS_INT_change 0 m = true ∧
        OnlyFieldsIrq s t [(.MICA_ELS_STATUS_fault, m), (.MICA_ELS_INT_change, 0)])) ∧
  (∀ (s : State) (m : ElsId) (j : Fin 8) (p : BitVec 16),
    (s.blk.bit .MICA_ELS_STATUS_on m j = true → signed16 p.toNat < 1400 →
      Runs (.laserLightLost m j p) s fun t => t.blk.bit .MICA_ELS_STATUS_on m j = false ∧
        t.blk.flag .MICA_OE_INT_light_loss (2 * m.val + j.val / 4) = true ∧
        ∀ k ∈ laserLanes m j, s.blk.loopIn k .live = true ∨ s.blk.loopIn k .pilot = true → t.blk.loopIn k .hold = true) ∧
    (∀ far : BitVec 16, s.blk.bit .MICA_ELS_STATUS_on m j = false → 1500 ≤ signed16 p.toNat →
      Runs (.laserLightReturn m j p far) s fun t => t.blk.bit .MICA_ELS_STATUS_on m j = true ∧
        t.blk.flag .MICA_OE_INT_light_ok (2 * m.val + j.val / 4) = true ∧
        ∀ k ∈ laserLanes m j, s.blk.loopIn k .hold = true → s.blk.micaRuns (micaOf (laneTile k)) = true →
          k ∉ s.blk.sweepWait → far.toNat.testBit (k % 16) = false → t.blk.loopIn k .pilot = true)))

/-- R328, R329, R336: the loops of the router's rings, by the codes of rstate, and the taps. -/
def Obligations.RouterRings : Prop :=
  (∀ (s : State) (r : WaveId),
    (s.blk.foiHalves = [0, 0] → s.blk.micaRuns (r.val / 2048) = true → s.blk.ringIn r .off = true →
      Runs .foiEnable s fun t => t.blk.flag .FOI_CTL_en 0 = true ∧
        (t.blk.foiRing r).rstate = (if s.blk.entryIn r .blocked then 4 else 1)) ∧
    (s.blk.foiHalves = [1, 1] → s.blk.ringIn r .track = true ∨ s.blk.ringIn r .lock = true →
      Runs .foiDisable s fun t => t.blk.flag .FOI_CTL_en 0 = false ∧
        t.blk.foiRing r = { s.blk.foiRing r with rstate := 3 })) ∧
  (∀ (s : State) (r : WaveId),
    (s.blk.ringIn r .track = true → -2000 ≤ s.blk.dropTap r →
      Runs (.ringLight r) s fun t => t.blk.foiRing r = { s.blk.foiRing r with rstate := 2 }) ∧
    (s.blk.ringIn r .lock = true → s.blk.dropTap r < -2500 →
      Runs (.ringDark r) s fun t => (t.blk.foiRing r).rstate = 1 ∧ (t.blk.foiRing r).dstate = (s.blk.foiRing r).dstate) ∧
    (1 ≤ (s.blk.foiRing r).rstate → (s.blk.foiRing r).rstate ≤ 4 →
      Runs (.ringHeaterEnd r) s fun t => t.blk.foiRing r = { s.blk.foiRing r with rstate := 5, dstate := 5, holder := 0 } ∧
        t.blk.flag .FOI_INT_ring_fault 0 = true) ∧
    (∀ (h : BitVec 16) (e : BitVec 8), s.blk.ringIn r .lock = true →
      Runs (.ringLockUpdate r h e) s fun t =>
        t.blk.foiRing r = { s.blk.foiRing r with heater := h.toNat, lockErr := e.toNat }) ∧
    (∀ (h : BitVec 16) (e : BitVec 8), s.blk.ringIn r .track = true →
      Runs (.ringLockUpdate r h e) s fun t => ∃ v, t.blk.foiRing r = { s.blk.foiRing r with heater := v })) ∧
  (∀ (s : State) (r : WaveId) (i : Fin 64) (p : BitVec 16) (v : Nat),
    v = (if signed16 p.toNat < -3000 then 0x8000 else p.toNat) →
    Runs (.tapSample (.input i) p) s (fun t => t.blk.fld .FOI_BPI_PWR_pwr i = v ∧ OnlyFields s t [(.FOI_BPI_PWR_pwr, i)]) ∧
    Runs (.tapSample (.output i) p) s (fun t => t.blk.fld .FOI_BPO_PWR_pwr i = v ∧ OnlyFields s t [(.FOI_BPO_PWR_pwr, i)]) ∧
    Runs (.tapSample (.drop r) p) s (fun t => t.blk.foiRing r = { s.blk.foiRing r with drop := v }))

/-- R330: what light does to the colour directory, by the codes of dstate. R331, R332, R339: the commands of FOI_CMD: the effect
of each on its entry, and its result; the ring of a half whose loops do not run holds where it would track or lock (R328). -/
def Obligations.ColourDirectory : Prop :=
  (∀ (s : State) (r : WaveId),
    (s.blk.entryIn r .free = true → s.blk.rogueDbm ≤ s.blk.dropTap r →
      Runs (.rogueLight r) s fun t => t.blk.flag .FOI_INT_rogue 0 = true ∧
        t.blk.fld .FOI_ROGUE_count 0 = min (s.blk.fld .FOI_ROGUE_count 0 + 1) (2 ^ 64 - 1) ∧
        t.blk.entryIn r (if s.blk.flag .FOI_CTL_block_rogue 0 then .blocked else .free) = true) ∧
    (s.blk.entryIn r .granted = true → s.blk.actDbm ≤ s.blk.dropTap r →
      Runs (.circuitActive r) s fun t => t.blk.foiRing r = { s.blk.foiRing r with dstate := 2 } ∧
        OnlyFields { s with blk := { s.blk with foi := t.blk.foi } } t [(.FOI_STATUS_active, 0)]) ∧
    (s.blk.entryIn r .active = true → s.blk.dropTap r < s.blk.actDbm →
      Runs (.circuitLoss r) s fun t => t.blk.foiRing r = { s.blk.foiRing r with dstate := 1 } ∧
        t.blk.flag .FOI_INT_loss 0 = true ∧
        t.blk.fld .FOI_LOSS_count 0 = min (s.blk.fld .FOI_LOSS_count 0 + 1) (2 ^ 64 - 1)) ∧
    (s.blk.entryIn r .revoking = true → s.blk.dropTap r < s.blk.rogueDbm →
      Runs (.revokeDark r) s fun t => t.blk.foiRing r = { s.blk.foiRing r with dstate := 0, holder := 0 }) ∧
    (s.blk.entryIn r .revoking = true → s.blk.rogueDbm ≤ s.blk.dropTap r →
      Runs (.revokeTimer r) s fun t => t.blk.entryIn r .blocked = true ∧ (t.blk.foiRing r).holder = 0 ∧
        t.blk.flag .FOI_INT_revoke_block 0 = true)) ∧
  ((∀ (s : State) (r : Nat), s.blk.foiCmd = some (1, r) →
    (s.blk.entryIn r .free = true → s.blk.fld .FOI_CMD_DATA_eid 0 ≠ 0 → s.blk.heldEntries (r / 64) < 16 →
      Runs .grant s fun t => t.blk.foiRing r = { s.blk.foiRing r with
          dstate := 1, holder := s.blk.fld .FOI_CMD_DATA_eid 0, seq := ((s.blk.foiRing r).seq + 1) % 65536 } ∧
        t.blk.fld .FOI_CMD_STATUS_result 0 = 0 ∧ t.blk.flag .FOI_CMD_STATUS_busy 0 = false ∧ t.blk.foiCmd = none) ∧
    (s.blk.entryIn r .free = true → s.blk.fld .FOI_CMD_DATA_eid 0 ≠ 0 → 16 ≤ s.blk.heldEntries (r / 64) →
      Runs .grant s fun t => t.blk.foi = s.blk.foi ∧ t.blk.fld .FOI_CMD_STATUS_result 0 = 4)) ∧
  (∀ (s : State) (r : Nat), s.blk.foiCmd = some (2, r) →
    (s.blk.entryIn r .granted = true ∨ s.blk.entryIn r .active = true →
      Runs .revoke s fun t => t.blk.foiRing r = { s.blk.foiRing r with dstate := 3 } ∧
        t.blk.fld .FOI_CMD_STATUS_result 0 = 0) ∧
    (s.blk.entryIn r .free = true →
      Runs .revoke s fun t => t.blk.foi = s.blk.foi ∧ t.blk.fld .FOI_CMD_STATUS_result 0 = 5)) ∧
  (∀ (s : State) (r : Nat), s.blk.foiCmd = some (3, r) → s.blk.entryIn r .fault = false →
    Runs .block s fun t => t.blk.entryIn r .blocked = true ∧ t.blk.fld .FOI_CMD_STATUS_result 0 = 0) ∧
  (∀ (s : State) (r : Nat), s.blk.foiCmd = some (4, r) → s.blk.entryIn r .blocked = true →
    Runs .unblock s fun t => t.blk.entryIn r .free = true ∧ t.blk.fld .FOI_CMD_STATUS_result 0 = 0 ∧
      (s.blk.ringIn r .block = true → (t.blk.foiRing r).rstate = if s.blk.loopRuns r then 1 else 3)) ∧
  (∀ (s : State) (r : Nat) (inRange : Bool) (h : BitVec 16), s.blk.foiCmd = some (5, r) → -2000 ≤ s.blk.dropTap r →
    (s.blk.ringIn r .lock = true →
      Runs (.cal inRange h) s fun t => t.blk.foiRing r = { s.blk.foiRing r with heater := h.toNat } ∧
        t.blk.fld .FOI_CMD_STATUS_result 0 = 0) ∧
    (s.blk.ringIn r .fault = true → s.blk.entryIn r .fault = true →
      Runs (.cal true h) s fun t =>
        t.blk.foiRing r = { s.blk.foiRing r with
          heater := h.toNat, rstate := (if s.blk.loopRuns r then 2 else 3), dstate := 0 })) ∧
  (∀ (s : State) (r : Nat), s.blk.foiCmd = some (6, r) → s.blk.entryIn r .granted = true ∨ s.blk.entryIn r .active = true →
    Runs .locate s fun t => t.blk.fld .FOI_CMD_STATUS_loc 0 = s.blk.locate r ∧ t.blk.fld .FOI_CMD_STATUS_result 0 = 0 ∧
      1 ≤ s.blk.locate r ∧ s.blk.locate r ≤ 4 ∧ t.blk.foi = s.blk.foi) ∧
  (∀ (s : State) (i off : Nat) (g : RegionRec), s.blk.flag .FOI_PUB_CTL_en 0 = true → s.blk.fld .IMG_BOOT_phase 0 = 2 →
    i = s.blk.fld .FOI_PUB_CTL_region 0 → g = s.blk.region i → off = s.blk.fld .FOI_PUB_OFF_offset 0 →
    (g.valid = true → g.mode = 0 → g.rd = true → 256 * off + 32832 ≤ g.size →
      (∀ k < 129, s.blk.readStored i (off + k) ≠ .memErr ∧ s.blk.readStored i (off + k) ≠ .stackDown) →
      Runs .directoryPublication s fun t =>
        t.blk.fld .FOI_PUB_SEQ_seq 0 = (s.blk.fld .FOI_PUB_SEQ_seq 0 + 1) % 2 ^ 32) ∧
    (g.valid = false ∨ g.mode ≠ 0 →
      Runs .directoryPublication s fun t => t.blk.flag .FOI_INT_pub_err 0 = true ∧
        OnlyFieldsIrq s t [(.FOI_INT_pub_err, 0)])))

/-! ### Time and telemetry (R346 to R374) -/

/-- R346 to R350: Quartz's time T goes on through a wrap of the raw counter and through a new rate, which is held within its
bounds; a committed step is added to T where it is armed or T not yet valid, and is refused otherwise. -/
def Obligations.TimeCounts : Prop :=
  (∀ s : State, s.blk.fld .QTZ_RAW_raw 0 = 2 ^ 64 - 65536 →
    Runs .rawWrap s fun t => t.blk.fld .QTZ_RAW_raw 0 = 0 ∧ t.blk.flag .QTZ_INT_wrap 0 = true ∧
      (t.blk.quartzT : Int) = ((2 : Int) ^ 64 + s.blk.qRate * 2 ^ 32 + s.blk.qOffset) % 2 ^ 96) ∧
  (∀ (s : State) (v : BitVec 32),
    Runs (.rateWrite v) s fun t => t.blk.qRate = max (-4194304) (min 4194304 v.toInt) ∧ t.blk.quartzT = s.blk.quartzT) ∧
  (∀ s : State,
    Runs .stepCommit s (fun t => t.blk.flag .QTZ_STATUS_step_pending 0 = true ∧
      t.blk.qStep = s.blk.fld .QTZ_STEP_step 0 + 2 ^ 32 * s.blk.fld .QTZ_STEP_step 1 + 2 ^ 64 * s.blk.fld .QTZ_STEP_step 2 ∧
      t.blk.quartzT = s.blk.quartzT) ∧
    (s.blk.flag .QTZ_STATUS_step_pending 0 = true →
      (s.blk.hallValid = false ∨ s.blk.flag .QTZ_CTL_step_arm 0 = true →
        Runs .stepApply s fun t => t.blk.quartzT = (s.blk.quartzT + s.blk.qStep) % 2 ^ 96 ∧ t.blk.hallValid = true ∧
          t.blk.flag .QTZ_STATUS_step_pending 0 = false ∧ t.blk.flag .QTZ_INT_stepped 0 = true ∧
          t.blk.fld .QTZ_STEPS_count 0 = min (s.blk.fld .QTZ_STEPS_count 0 + 1) (2 ^ 64 - 1)) ∧
      (s.blk.hallValid = true → s.blk.flag .QTZ_CTL_step_arm 0 = false →
        Runs .stepApply s fun t => t.blk.quartzT = s.blk.quartzT ∧ t.blk.flag .QTZ_INT_step_reject 0 = true ∧
          OnlyFieldsIrq s t [(.QTZ_STATUS_step_pending, 0), (.QTZ_INT_step_reject, 0)])) ∧
    Runs .invalidate s (fun t => t.blk.hallValid = false ∧ t.blk.ppsOut = false ∧ t.blk.quartzT = s.blk.quartzT))

/-- R353, R356, R359, R370: the latches of time: QTZ_SNAP takes time, rate and offset in one clock; a PPS_IN edge is stamped,
less its delay; a tile's copy agrees with the master, and the gates of its links follow; the oldest transmit timestamp of a
tile is popped; PPS_OUT rises at a whole second of hall time not marked yet, and falls once its width has passed. -/
def Obligations.TimeLatches : Prop :=
  (∀ s : State, Runs .qtzSnap s fun t =>
    t.blk.fld .QTZ_SNAP_RAW_raw 0 = s.blk.fld .QTZ_RAW_raw 0 % 2 ^ 64 ∧
    t.blk.fld .QTZ_SNAP_RATE_rate 0 = s.blk.fld .QTZ_RATE_rate 0 % 2 ^ 32 ∧
    t.blk.fld .QTZ_SNAP_SEC_sec 0 = s.blk.hallSec ∧ t.blk.fld .QTZ_SNAP_NSEC_nsec 0 = s.blk.hallNsec ∧
    t.blk.fld .QTZ_SNAP_FRAC_frac 0 = s.blk.hallFrac ∧
    (∀ w < 3, t.blk.fld .QTZ_SNAP_OFF_offset w = s.blk.qOffset / 2 ^ (32 * w) % 2 ^ 32) ∧
    OnlyFields s t [(.QTZ_SNAP_RAW_raw, 0), (.QTZ_SNAP_RATE_rate, 0), (.QTZ_SNAP_SEC_sec, 0), (.QTZ_SNAP_NSEC_nsec, 0),
      (.QTZ_SNAP_FRAC_frac, 0), (.QTZ_SNAP_OFF_offset, 0), (.QTZ_SNAP_OFF_offset, 1), (.QTZ_SNAP_OFF_offset, 2)]) ∧
  (∀ (s : State) (tile : TileId), s.blk.domOn tile = true → s.blk.queues = [] →
    Runs (.tileCopySync tile) s fun t => t.blk.bit .QTZ_TILE_SYNC_sync 0 tile = true ∧
      OnlyFields { s with blk := { s.blk with feld := t.blk.feld } } t
        ((.QTZ_TILE_SYNC_sync, 0) :: (Blk.tileLinks tile).map fun l => (.FLD_GATE_STATUS_entry, l))) ∧
  (∀ (s : State) (tile : TileId),
    (∀ (r : List Byte) (rest : List (List Byte)), s.blk.txts.get [] tile = r :: rest →
      Runs (.txtsPop tile) s fun t => t.blk.txts.get [] tile = rest ∧ t.blk.flag .QTZ_TXTS_POP_empty tile = false ∧
        ∀ w < 4, t.blk.fld .QTZ_TXTS_record (4 * tile.val + w) = beAt r (4 * w) 4) ∧
    (s.blk.txts.get [] tile = [] →
      Runs (.txtsPop tile) s fun t => t.blk.flag .QTZ_TXTS_POP_empty tile = true ∧
        OnlyFields s t [(.QTZ_TXTS_POP_empty, tile)])) ∧
  (∀ s : State,
    Runs .ppsInEdge s (fun t => t.blk.flag .QTZ_INT_pps_in 0 = true ∧
      (t.blk.fld .QTZ_PPS_IN_SEC_sec 0 * 10 ^ 9 + t.blk.fld .QTZ_PPS_IN_NSEC_nsec 0 : Int) =
        (s.blk.quartzNs - signed16 (s.blk.fld .QTZ_PPS_DLY_in_dly 0)) % (2 ^ 48 * 10 ^ 9) ∧
      t.blk.fld .QTZ_PPS_IN_NSEC_nsec 0 < 10 ^ 9) ∧
    (s.blk.hallValid = true → s.blk.flag .QTZ_CTL_pps_out_en 0 = true → s.blk.ppsFrom ≤ s.blk.ppsSecond →
      Runs .ppsOutEdge s fun t => t.blk.ppsOut = true ∧ t.blk.ppsRose = s.blk.now ∧ t.blk.ppsFrom = s.blk.ppsSecond + 1 ∧
        t.blk.fields = s.blk.fields) ∧
    (s.blk.ppsSecond < s.blk.ppsFrom → Runs .ppsOutEdge s fun t => t = s) ∧
    (s.blk.ppsRose + max 1 (s.blk.fld .QTZ_CTL_pps_width_ms 0) * 10 ^ 6 ≤ s.blk.now →
      Runs .ppsOutFall s fun t => t.blk.ppsOut = false ∧ t.blk.fields = s.blk.fields) ∧
    (s.blk.now < s.blk.ppsRose + max 1 (s.blk.fld .QTZ_CTL_pps_width_ms 0) * 10 ^ 6 → Runs .ppsOutFall s fun t => t = s))

/-- R360, R361, R363, R372: a snapshot of the counters starts, latches the groups it is asked for when its time has come, and
completes; a carry between the halves of a counter changes no value read; the programmable counters are run and stopped. -/
def Obligations.CountersLatched : Prop :=
  (∀ (s : State) (atTime : Bool) (groups : BitVec 11), s.blk.flag .JSP_SNAP_STATUS_busy 0 = false →
    (atTime = false ∨ s.blk.snapPassed = true →
      Runs (.snapGo atTime groups) s fun t => t.blk.snap = some (groups.toNat, true) ∧
        t.blk.shadow = (s.blk.latchCounters groups.toNat).shadow ∧ t.blk.flag .JSP_SNAP_STATUS_busy 0 = true) ∧
    (atTime = true → s.blk.snapPassed = false →
      Runs (.snapGo atTime groups) s fun t => t.blk.snap = some (groups.toNat, false) ∧ t.blk.shadow = s.blk.shadow ∧
        t.blk.flag .JSP_SNAP_STATUS_busy 0 = true)) ∧
  (∀ (s : State) (groups : Nat), s.blk.snap = some (groups, false) →
    (s.blk.snapPassed = true →
      Runs .snapLatch s fun t => t.blk.snap = some (groups, true) ∧ t.blk.shadow = (s.blk.latchCounters groups).shadow ∧
        t.blk.fields = s.blk.fields) ∧
    (s.blk.snapPassed = false → Runs .snapLatch s fun t => t = s)) ∧
  (∀ (s : State) (groups : Nat), s.blk.snap = some (groups, true) →
    Runs .snapDone s fun t => t.blk.snap = none ∧ t.blk.flag .JSP_SNAP_STATUS_busy 0 = false ∧
      t.blk.fld .JSP_SNAP_STATUS_seq 0 = (s.blk.fld .JSP_SNAP_STATUS_seq 0 + 1) % 2 ^ 16 ∧ t.blk.shadow = s.blk.shadow) ∧
  (∀ s : State, Runs .counterCarry s fun t => t = s) ∧
  (∀ (s : State) (on : Bool),
    Runs (.prunWrite on) s fun t => t.blk.flag .JSP_PRUN_run 0 = on ∧ OnlyFields s t [(.JSP_PRUN_run, 0)])

/-- R367, R477: a tile delivers its oldest trace record into its TRACE ring; at the tile's limit the record is lost, and where
the ring is no enabled TRACE ring it is discarded. R114 to R117: a congestion map snapshot, where it is on and an instant of
R114 has come, takes the next sequence number, and makes no frame while the frame of the one before is still there (the
skipping is the model's reading, log entry 33). -/
def Obligations.TraceAndMap : Prop :=
  (∀ (s : State) (tile : TileId) (bs : List Byte) (rest : List (List Byte)) (ring : Nat),
    s.blk.trcBuf.get [] tile = bs :: rest → ring = s.blk.fld .JSP_TRC_CTL_ring tile →
    (s.blk.fld .JSP_TRC_LIMIT_limit tile = 0 → s.blk.fld .DMA_RING_CFG_func ring = 4 → s.blk.ringHas ring 4 = true →
      Runs (.traceRecord tile) s fun t => t.blk.trcBuf.get [] tile = rest ∧
        .dmaWrite (s.blk.flag .DMA_RING_CFG_side ring) (s.blk.entryAddr ring (s.blk.fld .DMA_RING_HEAD_head ring) 64) bs
          ∈ t.blk.out ∧
        t.blk.fld .DMA_RING_HEAD_head ring = (s.blk.fld .DMA_RING_HEAD_head ring + 1) % 2 ^ 32) ∧
    (s.blk.fld .JSP_TRC_LIMIT_limit tile ≠ 0 → (s.blk.trcRate.get (0, 0) tile).1 = s.blk.now / 10 ^ 6 →
      s.blk.fld .JSP_TRC_LIMIT_limit tile ≤ (s.blk.trcRate.get (0, 0) tile).2 →
      Runs (.traceRecord tile) s fun t => t.blk.trcBuf.get [] tile = rest ∧ t.blk.flag .JSP_INT_trc_lost 0 = true ∧
        t.blk.fld .JSP_TRC_LOST_count tile = min (s.blk.fld .JSP_TRC_LOST_count tile + 1) (2 ^ 64 - 1)) ∧
    (s.blk.fld .JSP_TRC_LIMIT_limit tile = 0 →
      s.blk.flag .DMA_RING_CFG_en ring = false ∨ s.blk.fld .DMA_RING_CFG_func ring ≠ 4 →
      Runs (.traceRecord tile) s fun t => t.blk.trcBuf.get [] tile = rest ∧ t.blk.flag .DMA_INT_misroute 0 = true ∧
        t.blk.fld .DMA_CPL_DISCARD_count 0 = min (s.blk.fld .DMA_CPL_DISCARD_count 0 + 1) (2 ^ 64 - 1))) ∧
  (∀ s : State,
    (s.blk.flag .JSP_CMAP_CTL_en 0 = false ∨ s.blk.cmapInstant < s.blk.cmapFrom → Runs .cmapSnapshot s fun t => t = s) ∧
    (s.blk.flag .JSP_CMAP_CTL_en 0 = true → s.blk.cmapFrom ≤ s.blk.cmapInstant →
      Runs .cmapSnapshot s (fun t => t.blk.cmapSeq = (s.blk.cmapSeq + 1) % 2 ^ 32 ∧ t.blk.cmapFrom = s.blk.cmapInstant + 1 ∧
        t.fuses = s.fuses) ∧
      ∀ fid, s.blk.cmapFrame = some fid → (s.blk.frame? fid).isSome = true →
        Runs .cmapSnapshot s fun t => t.blk.nextFrame = s.blk.nextFrame ∧ t.blk.frames = s.blk.frames ∧
          t.blk.linkBusy = s.blk.linkBusy ∧ t.blk.linkDrops = s.blk.linkDrops ∧ t.blk.fields = s.blk.fields))

/-- R368, R369: a margin monitor's sample is shown, its peak follows, and a threshold crossed for the first time raises its
event; a monitor back on the good side of warn arms again. -/
def Obligations.MarginMonitors : Prop :=
  ∀ (s : State) (m : MonitorId) (v : BitVec 16),
    (worse m v.toNat (s.blk.fld .JSP_MRG_THR_warn m) = false → worse m v.toNat (s.blk.fld .JSP_MRG_THR_alarm m) = false →
      Runs (.monitorSample m v) s fun t => t.blk.fld .JSP_MRG_RD_value m = v.toNat ∧
        (worse m v.toNat (s.blk.fld .JSP_MRG_RD_peak m) = true → t.blk.fld .JSP_MRG_RD_peak m = v.toNat) ∧
        (worse m v.toNat (s.blk.fld .JSP_MRG_RD_peak m) = false →
          t.blk.fld .JSP_MRG_RD_peak m = s.blk.fld .JSP_MRG_RD_peak m) ∧
        OnlyFields s t [(.JSP_MRG_RD_value, m), (.JSP_MRG_RD_peak, m)]) ∧
    (worse m v.toNat (s.blk.fld .JSP_MRG_THR_warn m) = true → worse m v.toNat (s.blk.fld .JSP_MRG_THR_alarm m) = false →
      (s.blk.mrgFired.get 0 m).testBit 0 = false →
      Runs (.monitorSample m v) s fun t => t.blk.flag .JSP_INT_mrg_warn 0 = true ∧
        (t.blk.mrgFired.get 0 m).testBit 0 = true ∧ t.blk.fld .JSP_MRG_RD_value m = v.toNat) ∧
    (worse m v.toNat (s.blk.fld .JSP_MRG_THR_alarm m) = true → (s.blk.mrgFired.get 0 m).testBit 1 = false →
      Runs (.monitorSample m v) s fun t => t.blk.flag .JSP_INT_mrg_alarm 0 = true ∧
        (t.blk.mrgFired.get 0 m).testBit 1 = true) ∧
    (worse m (s.blk.fld .JSP_MRG_RD_value m) (s.blk.fld .JSP_MRG_THR_warn m) = false →
      Runs (.monitorRearm m) s fun t => t.blk.mrgFired.get 0 m = 0 ∧ t.blk.fields = s.blk.fields)

/-! ### Images (R375 to R401) -/

/-- R394 to R396: downloads: DL_BEGIN starts one of the length it is given, DL_CHUNK appends the window's bytes to it, VERIFY
checks it, and each command ends with its result and IMG_INT.cmd_done. -/
def Obligations.ImageDownloads : Prop :=
  (∀ (s : State) (a0 a1 : Nat), s.blk.imgCmd = some (1, a0, a1) → s.blk.roll = none → s.blk.tripped = false →
    (384 ≤ a0 → a0 ≤ 50331648 → a1 % 2 = 0 → s.blk.onTrial = false →
      s.blk.runningSlots.contains s.blk.inactiveSlot = false →
      Runs .dlBegin s fun t => t.blk.dlLength = a0 ∧ t.blk.fld .IMG_DL_STATUS_state 0 = 1 ∧
        t.blk.fld .IMG_DL_STATUS_bytes 0 = 0 ∧ t.blk.flag .IMG_DL_STATUS_target 0 = false ∧
        t.blk.fld .IMG_CMD_STATUS_result 0 = 0 ∧ t.blk.flag .IMG_CMD_STATUS_busy 0 = false ∧ t.blk.imgCmd = none ∧
        t.blk.flag .IMG_INT_cmd_done 0 = true ∧ t.fuses = s.fuses) ∧
    (a0 < 384 ∨ 50331648 < a0 →
      Runs .dlBegin s fun t => t.blk.fld .IMG_CMD_STATUS_result 0 = 2 ∧ t.blk.flash = s.blk.flash)) ∧
  (∀ (s : State) (a0 a1 i : Nat), s.blk.imgCmd = some (2, a0, a1) → s.blk.roll = none → s.blk.tripped = false →
    (s.blk.fld .IMG_DL_STATUS_state 0 = 1 → a0 = s.blk.fld .IMG_DL_STATUS_bytes 0 → 1 ≤ a1 → a1 ≤ 65536 →
      a0 + a1 ≤ s.blk.dlLength → (a1 % 256 = 0 ∨ a0 + a1 = s.blk.dlLength) → i < a1 →
      s.blk.flag .IMG_DL_STATUS_target 0 = true →
      Runs .dlChunk s fun t => t.blk.fld .IMG_DL_STATUS_bytes 0 = (a0 + a1) % 2 ^ 26 ∧
        t.blk.ramStage.get 0 (a0 + i) = s.blk.window.get 0 i ∧ t.blk.flash = s.blk.flash ∧
        t.blk.fld .IMG_CMD_STATUS_result 0 = 0) ∧
    (s.blk.fld .IMG_DL_STATUS_state 0 ≠ 1 →
      Runs .dlChunk s fun t => t.blk.fld .IMG_CMD_STATUS_result 0 = 3 ∧ t.blk.flash = s.blk.flash ∧
        t.blk.ramStage = s.blk.ramStage)) ∧
  (∀ (s : State) (a0 a1 : Nat), s.blk.imgCmd = some (3, a0, a1) → s.blk.roll = none → s.blk.tripped = false →
    (bundleCheck s.fuses s.blk.dlReader 50331648 = 0 → epochFail (s.blk.bundleRanges s.blk.dlReader) = 0 →
      Runs (.verify true) s fun t => t.blk.fld .IMG_DL_STATUS_state 0 = 2 ∧ t.blk.fld .IMG_CMD_STATUS_result 0 = 0) ∧
    (∀ c, bundleCheck s.fuses s.blk.dlReader 50331648 = c → c ≠ 0 →
      Runs (.verify true) s fun t => t.blk.fld .IMG_DL_STATUS_state 0 = 3 ∧
        t.blk.fld .IMG_CMD_STATUS_result 0 = c % 256))

/-- R385 to R387, R394, R397, R398: activation: NEXT writes a TRIAL record naming the verified slot, CONFIRM confirms it, RUN
starts the verified RAM bundle, or recovery mode where its combination fails, ROLL begins or is refused, a roll with every
group on its slot is complete, and a tile load waits for a tile in reset, ends once its tile is loaded, and ends for one
that is OFF; only a verified download is activated. R388 to R393, R409, R419: starts: the boot ROM enters recovery mode
where starts are locked, the straps say so or the flash holds no activation record, and waits where the host is to load; the
controllers start on the bundle that loads, and the device then runs its image; a tile that was reset while no image runs is
left as its reset left it, the recovery monitor answers again after a reset of the management cores, and after a thermal
trip nothing reloads (R520). -/
def Obligations.ActivationAndStarts : Prop :=
  ((∀ (s : State) (a0 a1 : Nat), s.blk.imgCmd = some (4, a0, a1) → s.blk.roll = none → s.blk.tripped = false →
    (∀ b, a1 % 4 = 0 → s.blk.verified 0 = true → s.blk.recordInForce = some b → s.blk.onTrial = false →
      epochFail (s.blk.bundleRanges (s.blk.slotReader s.blk.inactiveSlot)) = 0 →
      Runs .activateNext s fun t => t.blk.fld .IMG_CMD_STATUS_result 0 = 0 ∧ t.blk.onTrial = true ∧
        t.blk.recordInForce.map Blk.recSlot = some (1 - Blk.recConf b) ∧ t.blk.recordInForce.map Blk.recConf = some (Blk.recConf b)) ∧
    (a1 % 4 = 0 → s.blk.verified 0 = false →
      Runs .activateNext s fun t => t.blk.fld .IMG_CMD_STATUS_result 0 = 0x0C ∧ t.blk.flash = s.blk.flash) ∧
    (a1 % 4 = 2 → s.blk.verified 1 = true → s.blk.hostLoads = true → bundleCheck s.fuses s.blk.ramReader 50331648 = 0 →
      epochFail (s.blk.bundleRanges s.blk.ramReader) = 0 →
      Runs .activateRun s fun t => t.blk.fld .IMG_CMD_STATUS_result 0 = 0 ∧ t.blk.fld .IMG_BOOT_phase 0 = 1 ∧
        t.blk.ramParts = List.range 41) ∧
    (a1 % 4 = 2 → s.blk.verified 1 = true → s.blk.hostLoads = true →
      bundleCheck s.fuses s.blk.ramReader 50331648 ≠ 0 ∨ epochFail (s.blk.bundleRanges s.blk.ramReader) ≠ 0 →
      Runs .activateRun s fun t => t.blk.fld .IMG_CMD_STATUS_result 0 = 0 ∧ t.blk.fld .IMG_BOOT_phase 0 = 3 ∧
        t.blk.flag .IMG_INT_fell_back 0 = true) ∧
    (a1 % 4 = 1 → s.blk.rollCheck.1 = 0 →
      Runs .activateRoll s fun t => (t.blk.roll.map fun r => r.slot) = some s.blk.inactiveSlot ∧
        t.blk.imgCmd = s.blk.imgCmd) ∧
    (∀ c pair, a1 % 4 = 1 → s.blk.rollCheck = (c, pair) → c ≠ 0 →
      Runs .activateRoll s fun t => t.blk.roll = none ∧ t.blk.fld .IMG_CMD_STATUS_result 0 = c % 256 ∧
        t.blk.flash = s.blk.flash)) ∧
  (∀ (s : State) (a0 a1 : Nat) (b : List Byte), s.blk.imgCmd = some (5, a0, a1) → s.blk.roll = none → s.blk.tripped = false →
    s.blk.recordInForce = some b → s.blk.onTrial = true → s.blk.imageRuns = true → s.blk.ramParts = [] →
    s.blk.runningSlots = [Blk.recSlot b] →
    Runs .confirm s fun t => t.blk.fld .IMG_CMD_STATUS_result 0 = 0 ∧ t.blk.onTrial = false ∧
      t.blk.recordInForce.map Blk.recConf = some (Blk.recSlot b)) ∧
  (∀ (s : State) (a0 a1 : Nat) (flashOk : Bool), s.blk.imgCmd = some (6, a0, a1) → s.blk.roll = none → s.blk.tripped = false →
    (∀ c pair, s.blk.tileLoading = none → s.blk.tileLoadCheck a0 a1 = (c, pair) → c ≠ 0 →
      Runs (.tileLoad flashOk) s fun t => t.blk.fld .IMG_CMD_STATUS_result 0 = c % 256 ∧ t.blk.imgCmd = none ∧
        t.blk.tileLoading = none ∧ t.blk.flash = s.blk.flash) ∧
    (s.blk.tileLoading = none → s.blk.imageRuns = false → s.blk.tileLoadCheck a0 a1 = (3, 0)) ∧
    (s.blk.imageRuns = true → a1 % 2 = 1 → s.blk.verified 0 = false → s.blk.tileLoadCheck a0 a1 = (0x0C, 0)) ∧
    (s.blk.tileLoading = none → s.blk.tileLoadCheck a0 a1 = (0, 0) → s.blk.domState (a0 % 32) = 3 →
      Runs (.tileLoad flashOk) s fun t => t.blk.imgCmd = s.blk.imgCmd ∧
        t.blk.tileLoading = some ⟨a0 % 32, s.blk.enabledLinks (a0 % 32), false⟩) ∧
    (∀ r : TileLoadRec, s.blk.tileLoading = some r →
      (s.blk.domState r.tile = 0 ∨ (r.filled = true ∧ s.blk.domOn r.tile = true ∧ s.blk.tableLoads.contains (r.tile / 8) = false) →
        Runs (.tileLoad flashOk) s fun t => t.blk.tileLoading = none ∧ t.blk.imgCmd = none ∧
          t.blk.fld .IMG_CMD_STATUS_result 0 = 0) ∧
      (s.blk.domState r.tile = 3 → Runs (.tileLoad flashOk) s fun t => t = s))) ∧
  (∀ (s : State) (r : RollRec) (flashOk : Bool) (far : List (TileId × LaneNo)), s.blk.roll = some r → s.blk.tripped = false →
    (∀ g ∈ r.groups, s.blk.groupOn r.slot g = true) →
    Runs (.rollGroup flashOk far) s fun t => t.blk.roll = none ∧ t.blk.imgCmd = none ∧
      t.blk.fld .IMG_CMD_STATUS_result 0 = 0 ∧
      ((∃ l ∈ r.upLinks, s.blk.isIn l .up = false) → t.blk.flag .IMG_INT_roll_link 0 = true))) ∧
  ((∀ (s : State) (k : Nat) (x : ReloadFindings), s.blk.startDue = true → s.blk.tripped = false → s.blk.powerHold = false →
    s.blk.coldStart = false →
    (s.blk.flag .RSTC_FAILS_locked 0 = true →
      Runs (.resetReload k x) s fun t => t.blk.fld .IMG_BOOT_phase 0 = 3 ∧ t.blk.startDue = false ∧
        t.blk.flag .MGT_MBX_STATUS_fw_ready 0 = true) ∧
    (s.blk.flag .RSTC_FAILS_locked 0 = false → s.blk.fld .IMG_BOOT_src 0 = 1 →
      Runs (.resetReload k x) s fun t => t.blk.fld .IMG_BOOT_phase 0 = 0 ∧ t.blk.startDue = false ∧ t.blk.hostLoads = true) ∧
    (s.blk.flag .RSTC_FAILS_locked 0 = false → 2 ≤ s.blk.fld .IMG_BOOT_src 0 →
      Runs (.resetReload k x) s fun t => t.blk.fld .IMG_BOOT_phase 0 = 3 ∧ t.blk.fld .IMG_BOOT_boot_err 0 = 0) ∧
    (s.blk.flag .RSTC_FAILS_locked 0 = false → s.blk.fld .IMG_BOOT_src 0 = 0 → s.blk.recordInForce = none →
      Runs (.resetReload k x) s fun t => t.blk.fld .IMG_BOOT_phase 0 = 3 ∧ t.blk.fld .IMG_BOOT_boot_err 0 = 1 ∧
        t.blk.fld .RSTC_FAILS_count 0 = min 7 (s.blk.fld .RSTC_FAILS_count 0 + 1))) ∧
  (∀ (s : State) (k : Nat) (x : ReloadFindings) (r : ResetRun), s.blk.startDue = false → s.blk.tripped = false →
    s.blk.resets[k]? = some r → r.released = true →
    (r.level = 3 → r.takesCores = false → s.blk.tableLoads.contains (r.tile / 8) = false → s.blk.imageRuns = false →
      Runs (.resetReload k x) s fun t => t = { s with blk := { s.blk with resets := s.blk.resets.eraseIdx k } }) ∧
    (r.level = 4 ∨ (r.cores = true ∧ r.level = 3 ∧ s.blk.tableLoads.contains (r.tile / 8) = false) →
      s.blk.fld .IMG_BOOT_phase 0 = 3 →
      Runs (.resetReload k x) s fun t => t.blk.resets = s.blk.resets.eraseIdx k ∧
        t.blk.flag .MGT_MBX_STATUS_fw_ready 0 = true)) ∧
  (∀ (s : State) (k : Nat) (x : ReloadFindings), s.blk.tripped = true → Runs (.resetReload k x) s fun t => t = s) ∧
  (∀ (s : State) (far : List (TileId × LaneNo)), s.blk.fld .IMG_BOOT_phase 0 = 1 → s.blk.micaRuns 0 = false →
    Runs (.micaStart far) s fun t => t.blk.micaRuns 0 = true ∧ t.blk.micaRuns 1 = true) ∧
  (∀ (s : State) (far : List (TileId × LaneNo)), s.blk.fld .IMG_BOOT_phase 0 = 1 → s.blk.micaRuns 0 = true →
    Runs (.imageRunning far) s fun t => t.blk.fld .IMG_BOOT_phase 0 = 2))

/-! ### Resets, clocks and power (R402 to R431, R505, R520) -/

/-- R403 to R407, R410 to R412, R505: the sources of resets. With no other in progress each causes a reset of its level, which
RSTC_CAUSE records; a cold one empties the store, a warm or narrower one keeps it (with no line in the hot-line buffer,
whose lines it would write back, R273); a request of RSTC_SWRST with the wrong key does nothing, one wider than its fused
level is refused, one of a part that is off has no effect, one that a wider or equal reset in progress covers is absorbed, a
wider one takes over a reset of the management cores, which are then reset with it (log entry 178), and of two of one
management clock (taken as one ns, the model's choice, log entry 157) the lower source is recorded. -/
def Obligations.ResetSources : Prop :=
  (∀ (s : State) (src : Nat) (i : Instr) (bs cm : BitVec 2),
    (src = 0 ∧ i = .powerOn) ∨ (src = 1 ∧ i = .brownOut ∧ s.blk.resets = []) ∨
      (src = 2 ∧ i = .resetN true bs cm ∧ s.blk.resetLow = false ∧ s.blk.resets = []) ∨
      (src = 3 ∧ i = .watchdogTimeout ∧ s.blk.flag .RSTC_WDT_CTL_en 0 = true ∧ s.blk.wdtHalf = true ∧ s.blk.resets = []) ∨
      (src = 7 ∧ i = .mgmtLockup ∧ s.blk.resets = []) →
    s.blk.levelOf src ≠ 3 → (s.blk.levelOf src = 2 → s.blk.domState 156 ≠ 0) →
    Runs i s fun t => t.blk.fld .RSTC_CAUSE_src 0 = src ∧ t.blk.fld .RSTC_CAUSE_level 0 = s.blk.levelOf src ∧
      t.blk.fld .RSTC_CAUSE_resets 0 = (if s.blk.levelOf src = 0 then 0 else min 255 (s.blk.fld .RSTC_CAUSE_resets 0 + 1)) ∧
      t.blk.fld .RSTC_CAUSE_die 0 = 0 ∧ t.blk.fld .RSTC_CAUSE_tile 0 = 0 ∧
      (t.blk.resets.map fun r => (r.level, r.released)) = [(s.blk.levelOf src, false)] ∧
      (s.blk.levelOf src = 0 → t.blk.hbm = []) ∧ (s.blk.levelOf src = 1 → s.blk.hot = [] → t.blk.hbm = s.blk.hbm) ∧
      (i = .powerOn ∨ i = .brownOut → t.blk.powerHold = true) ∧ t.fuses = s.fuses) ∧
  (∀ (s : State) (v : BitVec 32) (level : Nat), level = v.toNat / 2 ^ 16 % 8 →
    (v.toNat / 2 ^ 24 ≠ 0xA5 → Runs (.softwareRequest v) s fun t => t = s) ∧
    (v.toNat / 2 ^ 24 = 0xA5 → 4 < level ∨ level < s.blk.levelOf 4 →
      Runs (.softwareRequest v) s fun t => t.blk.flag .RSTC_INT_sw_reject 0 = true ∧
        OnlyFieldsIrq s t [(.RSTC_INT_sw_reject, 0)]) ∧
    (v.toNat / 2 ^ 24 = 0xA5 → level ≤ 4 → s.blk.levelOf 4 ≤ level → s.blk.resets = [] → s.blk.bist = none →
      (level = 2 → s.blk.domState (156 + Blk.part .RSTC_SWRST_die v.toNat) ≠ 0) →
      (level = 3 → s.blk.domState (Blk.part .RSTC_SWRST_tile v.toNat) ≠ 0) →
      Runs (.softwareRequest v) s fun t => t.blk.fld .RSTC_CAUSE_src 0 = 4 ∧ t.blk.fld .RSTC_CAUSE_level 0 = level ∧
        t.blk.fld .RSTC_CAUSE_resets 0 = (if level = 0 then 0 else min 255 (s.blk.fld .RSTC_CAUSE_resets 0 + 1)) ∧
        t.blk.fld .RSTC_CAUSE_die 0 = (if level = 2 then Blk.part .RSTC_SWRST_die v.toNat else 0) ∧
        t.blk.fld .RSTC_CAUSE_tile 0 = (if level = 3 then Blk.part .RSTC_SWRST_tile v.toNat else 0) ∧
        (t.blk.resets.map fun r => (r.level, r.released)) = [(level, false)] ∧
        (1 ≤ level → s.blk.hot = [] → t.blk.hbm = s.blk.hbm)) ∧
    (v.toNat / 2 ^ 24 = 0xA5 → level ≤ 4 → s.blk.levelOf 4 ≤ level →
      s.blk.resets.any (fun r => r.level = 0 || (level = 4 && r.level ≤ 4)) = true →
      (∀ a ∈ s.blk.resets, s.blk.sameClock a = false) → Runs (.softwareRequest v) s fun t => t = s) ∧
    (∀ a, v.toNat / 2 ^ 24 = 0xA5 → level = 2 ∨ level = 3 → s.blk.levelOf 4 ≤ level → s.blk.resets = [a] → a.level = 4 →
      s.blk.bist = none → (level = 2 → s.blk.domState (156 + Blk.part .RSTC_SWRST_die v.toNat) ≠ 0) →
      (level = 3 → s.blk.domState (Blk.part .RSTC_SWRST_tile v.toNat) ≠ 0) →
      Runs (.softwareRequest v) s fun t =>
        (t.blk.resets.map fun r => (r.level, r.released, r.cores)) = [(level, false, true)]) ∧
    (v.toNat / 2 ^ 24 = 0xA5 → s.blk.levelOf 4 ≤ level → s.blk.resets = [] →
      (level = 2 ∧ s.blk.domState (156 + Blk.part .RSTC_SWRST_die v.toNat) = 0) ∨
        (level = 3 ∧ s.blk.domState (Blk.part .RSTC_SWRST_tile v.toNat) = 0) →
      Runs (.softwareRequest v) s fun t => t = s) ∧
    (∀ a, v.toNat / 2 ^ 24 = 0xA5 → level ≤ 1 → s.blk.levelOf 4 ≤ level → s.blk.resets = [a] → s.blk.sameClock a = true →
      a.level = level → a.die = 0 → a.tile = 0 → s.blk.fld .RSTC_CAUSE_level 0 = level →
      Runs (.softwareRequest v) s fun t => t.blk.fld .RSTC_CAUSE_src 0 = min 4 (s.blk.fld .RSTC_CAUSE_src 0) ∧
        OnlyFields s t [(.RSTC_CAUSE_src, 0)])) ∧
  (∀ (s : State) (bs cm : BitVec 2),
    (s.blk.resetLow = true → Runs (.resetN false bs cm) s fun t => t.blk.resetLow = false ∧ t.blk.clkMode = cm.toNat ∧
      t.blk.fld .IMG_BOOT_src 0 = bs.toNat ∧ OnlyFields { s with blk := { s.blk with resetLow := false, clkMode := cm.toNat } } t
        [(.IMG_BOOT_src, 0)]) ∧
    (s.blk.powerHold = true → Runs (.powerGoodHoldEnd bs cm) s fun t => t.blk.powerHold = false ∧
      (s.blk.resetLow = false → t.blk.fld .IMG_BOOT_src 0 = bs.toNat)))

/-- R407, R409, R412, R420, R428, R429, R520: the watchdog, the clock monitors, the thermal trip, and the end of ASSERT: a
device reset ends with a start due and its engines in SELFTEST, a tile's with its domain ON. R414: the tables of a die that
has lost them are copied from the lowest-numbered die that can serve, where no table record waits for them. -/
def Obligations.ResetRelease : Prop :=
  ((∀ s : State,
    Runs .watchdogKick s (fun t => t = { s with blk := { s.blk with wdtHalf := false } }) ∧
    (s.blk.flag .RSTC_WDT_CTL_en 0 = true → Runs .watchdogHalf s fun t => t.blk.wdtHalf = true ∧
      t.blk.flag .RSTC_INT_wdt_half 0 = true) ∧
    Runs .failsClear s (fun t => t.blk.fld .RSTC_FAILS_count 0 = 0 ∧ t.blk.flag .RSTC_FAILS_locked 0 = false ∧
      OnlyFields s t [(.RSTC_FAILS_count, 0), (.RSTC_FAILS_locked, 0)]) ∧
    (s.blk.tripped = false → s.blk.jtagActs ≠ .extest → Runs .thermalTrip s fun t => t.blk.tripped = true ∧ t.blk.fields = s.blk.fields ∧
      t.blk.out.head? = some (.pin .thermtrip false))) ∧
  (∀ s : State, s.blk.tripped = false → s.blk.clockBad .pcie = false →
    Runs (.clockFailure .pcie) s fun t => t.blk.clockBad .pcie = true ∧ t.blk.flag .RSTC_INT_clk_fail 0 = true ∧
      OnlyFieldsIrq s t [(.RSTC_CLK_STATUS_pcie_ref, 0), (.RSTC_INT_clk_fail, 0)]) ∧
  (∀ (s : State) (c : ClockId), c = .ref ∨ c = .mref ∨ c = .time ∨ c = .mgmt → s.blk.tripped = false →
    s.blk.clockBad c = false → s.blk.resets = [] →
    Runs (.clockFailure c) s fun t => t.blk.fld .RSTC_CAUSE_src 0 = 6 ∧
      t.blk.fld .RSTC_CAUSE_level 0 = min 1 (s.blk.levelOf 6)) ∧
  (∀ (s : State) (c : ClockId), s.blk.tripped = false →
    Runs (.clockRecovery c) s fun t => t.blk.clockBad c = false ∧ OnlyFieldsIrq s t [((Blk.clockBit c).1, 0)] ∧
      (c ≠ .pcie → OnlyFields s t [((Blk.clockBit c).1, 0)])) ∧
  (∀ (s : State) (r : ResetRun) (t : TileId), s.blk.resets = [r] → r.released = false → s.blk.mayRelease r = true →
    (r.level ≤ 1 → Runs (.resetAssertEnd 0) s fun u => u.blk.resets = [] ∧ u.blk.startDue = true ∧
      u.blk.fld .GRN_STATUS_state t = 3 ∧ u.blk.flag .MGT_MBX_INT_restarted 0 = true) ∧
    (r.level = 3 → r.tile = t → s.blk.domState t = 3 →
      Runs (.resetAssertEnd 0) s fun u => u.blk.resets = [{ r with released := true }] ∧ u.blk.domOn t = true ∧
        u.blk.bit .RSTC_TILE_RST_tile 0 t = false))) ∧
  (∀ (s : State) (d : DieId) (e k : Nat), d.val ∈ s.blk.tableLoads → s.blk.domOn (156 + d) = true → s.blk.tblWaits = [] →
    (∀ x ∈ s.blk.loadDue, Blk.loadDie x.1 ≠ d) → s.blk.tableSource d = some e → s.blk.tables.wf (fun _ => 0) = true → k < 9437184 →
    Runs (.tableCopyReload d) s fun t => d.val ∉ t.blk.tableLoads ∧
      t.blk.tables.get 0 (d * 9437184 + k) = s.blk.tables.get 0 (e * 9437184 + k) ∧
      ∀ c, c ≠ d.val → t.blk.tables.get 0 (c * 9437184 + k) = s.blk.tables.get 0 (c * 9437184 + k))

/-- R421 to R423, R447: power domains, by the codes of PWR_DOM_STATUS: a domain is asked for, takes its turn when what it
requires is ON and no other ramps, and reaches ON; a domain that another needs is not powered down; a frame that still holds
cells of the slice of a tile that is OFF is discarded with them, and counted. R424, R425: sleep: a request that the state of
the device forbids is refused; another starts its transition, which completes when no domain is on its way. -/
def Obligations.PowerAndSleep : Prop :=
  ((∀ (s : State) (n : DomainId), n < 160 → s.blk.bist = none →
    (s.blk.needsOn n = true → s.blk.fld .PWR_SLEEP_target 0 = 0 → s.blk.domState n = 0 →
      Runs (.domainPowerUp n) s fun t => t.blk.domAsked n = true ∧ n.val ∈ t.blk.powerQueue ∧
        t.blk.domState n = 0) ∧
    (s.blk.needsOn n = false →
      Runs (.domainPowerUp n) s fun t => t.blk.flag .PWR_INT_dep_reject 0 = true ∧
        OnlyFieldsIrq s t [(.PWR_INT_dep_reject, 0)]) ∧
    (∀ m, m < 160 → n.val ∈ domNeeds m → s.blk.domState m ≠ 0 →
      Runs (.domainPowerDown n) s fun t => t.blk.flag .PWR_INT_dep_reject 0 = true ∧
        OnlyFieldsIrq s t [(.PWR_INT_dep_reject, 0)]) ∧
    ((∀ m < 160, n.val ∈ domNeeds m → s.blk.domState m = 0) → n.val < 64 ∨ (96 ≤ n.val ∧ n.val < 108) →
      Runs (.domainPowerDown n) s fun t => t.blk.domState n = 0 ∧ t.blk.domAsked n = false)) ∧
  (∀ (s : State) (n : Nat), (∀ m < 160, s.blk.domState m ≠ 2) → (s.blk.powerQueue.find? fun n => s.blk.needsOn n) = some n →
    Runs .powerUpTurn s fun t => t.blk.domState n = 2 ∧ n ∉ t.blk.powerQueue) ∧
  (∀ (s : State) (n : DomainId) (flashOk : Bool), s.blk.domState n = 2 → 96 ≤ n.val → n.val < 108 →
    Runs (.domainOn n flashOk) s fun t => t.blk.domState n = 1 ∧ OnlyFields s t [(.PWR_DOM_STATUS_state, n)]) ∧
  (∀ (s : State) (n : DomainId) (flashOk : Bool), s.blk.domState n = 2 → 64 ≤ n.val → n.val < 96 →
    Runs (.domainOn n flashOk) s fun t => t.blk.domState n = 1 ∧ t.blk.fld .GRN_STATUS_state (n.val - 64) = 3 ∧
      OnlyFields s t [(.PWR_DOM_STATUS_state, n), (.GRN_STATUS_state, n.val - 64)]) ∧
  (∀ (s : State) (t : TileId), s.blk.domState t = 0 →
    (s.blk.copies.filter (inSlice t) = [] → Runs (.tileCellDiscard t) s fun u => u = s) ∧
    ∀ key c, s.blk.copies.filter (inSlice t) = [(key, c)] → s.blk.copy? key = some c →
      (s.blk.feld.any fun kv => kv.2.tx.any (·.copy = key)) = false →
      Runs (.tileCellDiscard t) s fun u => u.blk.copy? key = none ∧ (∀ n ∈ c.cells, n ∉ (u.blk.bsl (t / 8)).cells.keys) ∧
        (∀ q ∈ u.blk.queues, ∀ e ∈ q.2, e.copy ≠ key) ∧
        u.blk.fld .RSTC_LOST_CELLS_count 0 = min (s.blk.fld .RSTC_LOST_CELLS_count 0 + s.blk.frameCells (key / 4)) (2 ^ 64 - 1)) ∧
  (∀ (s : State) (t : TileId), s.blk.domState t ≠ 0 → Runs (.tileCellDiscard t) s fun u => u = s)) ∧
  ((∀ (s : State) (v : BitVec 2), s.blk.sleepRefused v.toNat = true →
    Runs (.sleepRequest v) s fun t => t.blk.flag .PWR_INT_sleep_reject 0 = true ∧
      OnlyFieldsIrq s t [(.PWR_INT_sleep_reject, 0)]) ∧
  (∀ (s : State) (v : BitVec 2), s.blk.sleepRefused v.toNat = false →
    (v.toNat ≠ s.blk.fld .PWR_SLEEP_state 0 →
      Runs (.sleepRequest v) s fun t => t.blk.fld .PWR_SLEEP_target 0 = v.toNat ∧ t.blk.flag .PWR_SLEEP_busy 0 = true ∧
        (2 ≤ v.toNat → ∀ n < 160, sleepKeeps v.toNat n = false → t.blk.domState n = 0)) ∧
    (v.toNat = s.blk.fld .PWR_SLEEP_state 0 →
      Runs (.sleepRequest v) s fun t => t.blk.fld .PWR_SLEEP_target 0 = v.toNat ∧ OnlyFields s t [(.PWR_SLEEP_target, 0)])) ∧
  (∀ s : State, s.blk.flag .PWR_SLEEP_busy 0 = true → s.blk.powerQueue = [] → (∀ n < 160, s.blk.domState n ≠ 2) →
    s.blk.fld .PWR_SLEEP_target 0 ≠ 1 →
    Runs .sleepDone s fun t => t.blk.flag .PWR_SLEEP_busy 0 = false ∧ t.blk.flag .PWR_INT_sleep_done 0 = true ∧
      t.blk.fld .PWR_SLEEP_state 0 = s.blk.fld .PWR_SLEEP_target 0 % 4))

/-! ### Obsidian and the scrubbers (R432 to R451) -/

/-- R433, R434, R454: a command in a state of the life cycle that does not list it ends with STATE, a fuse-changing command in
PROVISIONED or DEPLOYED from another path than the management cores with PATH, and after an uncorrectable error of the
always-on group fuse commands and ATTEST with NOT_READY; no fuse changes. RMA_UNLOCK renews the nonce even so. -/
def Obligations.ObsidianChecks : Prop :=
  ∀ (s : State) (op index : Nat) (path : Path) (fa : Option Nat) (i : Instr),
    (op, i) ∈ [(1, Instr.lcAdvance fa), (2, Instr.rmaUnlock fa), (3, Instr.keySet fa), (4, Instr.keyRevoke fa),
      (5, Instr.svnRaise fa), (6, Instr.rstmapSet fa), (7, Instr.repairFuse fa), (8, Instr.attest)] →
    s.blk.obsCmd = some (op, index, path) → s.blk.tripped = false →
    (s.fuses.lc ∉ Blk.obsStates op →
      Runs i s fun t => ObsEnded s t 2 [.OBS_NONCE_nonce] ∧ t.fuses = s.fuses) ∧
    (s.fuses.lc ∈ Blk.obsStates op →
      s.fuses.lc = 2 ∨ s.fuses.lc = 3 → op ≤ 7 → path ≠ .mgmt →
      Runs i s fun t => ObsEnded s t 3 [.OBS_NONCE_nonce] ∧ t.fuses = s.fuses) ∧
    (s.fuses.lc ∈ Blk.obsStates op → (op = 8 ∨ path = .mgmt) → s.blk.obsRefuses = true →
      Runs i s fun t => ObsEnded s t 0x0D [.OBS_NONCE_nonce] ∧ t.fuses = s.fuses)

/-- R432, R434, R436: LC_ADVANCE steps the life cycle by one state, from TEST with a device secret generated unless one is
committed; a target that is not the next is BAD_ARG; a record whose read-back fails leaves the state. KEY_SET fuses a hash
into a slot not programmed, and KEY_REVOKE revokes a slot that no kept image needs, never the last. -/
def Obligations.LifeCycleAndKeys : Prop :=
  (∀ (s : State) (index : Nat) (path : Path) (fa : Option Nat), s.blk.obsCmd = some (1, index, path) → s.blk.tripped = false →
    s.blk.obsCheck s.fuses 1 path = 0 →
    (beAt s.blk.obsData 0 1 ≠ s.fuses.lc + 1 → Runs (.lcAdvance fa) s fun t => ObsEnded s t 4 [] ∧ t.fuses = s.fuses) ∧
    (beAt s.blk.obsData 0 1 = s.fuses.lc + 1 → s.fuses.lc = 1 → s.fuses.slots % 16 = 0 →
      Runs (.lcAdvance fa) s fun t => ObsEnded s t 0x0D [] ∧ t.fuses = s.fuses) ∧
    (beAt s.blk.obsData 0 1 = s.fuses.lc + 1 → s.fuses.lc < 4 → (s.fuses.lc = 1 → s.fuses.slots % 16 ≠ 0) →
      (s.fuses.hasBank (16 + s.fuses.lc) = true →
        Runs (.lcAdvance none) s fun t => ObsEnded s t 0 fuseFields ∧
          t.fuses = { s.fuses with lc := s.fuses.lc + 1, secret := t.fuses.secret } ∧
          t.fuses.secret = (if s.fuses.lc = 1 ∧ s.fuses.secret = none then some s.blk.fresh else s.fuses.secret) ∧
          t.blk.fld .OBS_LC_state 0 = s.fuses.lc + 1) ∧
      (s.fuses.lc ≠ 1 → Runs (.lcAdvance (some 0)) s fun t => ObsEnded s t 0x0A fuseFields ∧ t.fuses.lc = s.fuses.lc))) ∧
  (∀ (s : State) (index : Nat) (path : Path) (fa : Option Nat), s.blk.obsCmd = some (3, index, path) → s.blk.tripped = false →
    s.blk.obsCheck s.fuses 3 path = 0 →
    (4 < index → Runs (.keySet fa) s fun t => ObsEnded s t 4 [] ∧ t.fuses = s.fuses) ∧
    (index ≤ 4 → s.fuses.programmed index = true →
      Runs (.keySet fa) s fun t => ObsEnded s t 5 [] ∧ t.fuses = s.fuses) ∧
    (index ≤ 4 → s.fuses.programmed index = false →
      (s.fuses.hasBank index = true → Runs (.keySet none) s fun t => ObsEnded s t 0 fuseFields ∧
        t.fuses = { s.fuses with keys := t.fuses.keys } ∧
        t.fuses.keys.find index = some (beAt s.blk.obsData 0 48) ∧
        (∀ k, k ≠ index → t.fuses.keys.find k = s.fuses.keys.find k) ∧
        t.blk.fld .OBS_KEY_STATUS_programmed 0 = t.fuses.slots) ∧
      Runs (.keySet (some 0)) s (fun t => ObsEnded s t 0x0A fuseFields ∧ t.fuses.keys = s.fuses.keys))) ∧
  (∀ (s : State) (index : Nat) (path : Path) (fa : Option Nat), s.blk.obsCmd = some (4, index, path) → s.blk.tripped = false →
    s.blk.obsCheck s.fuses 4 path = 0 →
    (3 < index ∨ s.fuses.programmed index = false ∨ s.fuses.revoked.testBit index = true →
      Runs (.keyRevoke fa) s fun t => ObsEnded s t 4 [] ∧ t.fuses = s.fuses) ∧
    (index ≤ 3 → s.fuses.programmed index = true → s.fuses.revoked.testBit index = false →
      ((∀ k < 4, k ≠ index → s.fuses.programmed k = true → s.fuses.revoked.testBit k = true) →
        Runs (.keyRevoke fa) s fun t => ObsEnded s t 6 [] ∧ t.fuses = s.fuses) ∧
      (∀ k, k < 4 → k ≠ index → s.fuses.programmed k = true → s.fuses.revoked.testBit k = false →
        ((s.blk.keptContainers true).any (fun rd => rdNat rd 44 1 = index) = true →
          Runs (.keyRevoke fa) s fun t => ObsEnded s t 5 [] ∧ t.fuses = s.fuses) ∧
        ((∀ rd ∈ s.blk.keptContainers true, rdNat rd 44 1 ≠ index) →
          Runs (.keyRevoke none) s fun t => ObsEnded s t 0 fuseFields ∧
            t.fuses = { s.fuses with revoked := s.fuses.revoked ||| 2 ^ index }))))

/-- R434, R436, R439, R441, R446: SVN_RAISE raises a minimum by a thermometer of fuses, never above what a kept image has;
RSTMAP_SET fuses an entry once; REPAIR_FUSE fuses the soft repairs while there is room; ATTEST signs with the device key,
but not after scan entry (R440); RMA_UNLOCK, in recovery and signed with the key of slot 4, zeroes the powered stacks and
the SRAMs, destroys the secret and enters RMA. -/
def Obligations.FusesRaised : Prop :=
  (∀ (s : State) (index : Nat) (path : Path) (fa : Option Nat), s.blk.obsCmd = some (5, index, path) → s.blk.tripped = false →
    s.blk.obsCheck s.fuses 5 path = 0 → s.fuses.svn.length = 3 →
    (2 < index ∨ beAt s.blk.obsData 0 4 ≤ s.fuses.svn.getD index 0 ∨ 64 < beAt s.blk.obsData 0 4 →
      Runs (.svnRaise fa) s fun t => ObsEnded s t 4 [] ∧ t.fuses = s.fuses) ∧
    (index ≤ 2 → s.fuses.svn.getD index 0 < beAt s.blk.obsData 0 4 → beAt s.blk.obsData 0 4 ≤ 64 →
      (∀ rd ∈ s.blk.keptContainers false, kindOf rd = index + 1 → beAt s.blk.obsData 0 4 ≤ rdNat rd 20 4) →
      Runs (.svnRaise none) s (fun t => ObsEnded s t 0 fuseFields ∧
        t.fuses = { s.fuses with svn := s.fuses.svn.set index (beAt s.blk.obsData 0 4) } ∧
        t.blk.fld .OBS_SVN_MIN_min index = beAt s.blk.obsData 0 4) ∧
      ∀ k, s.fuses.svn.getD index 0 + k < beAt s.blk.obsData 0 4 →
        Runs (.svnRaise (some k)) s fun t => ObsEnded s t 0x0A fuseFields ∧
          t.fuses = { s.fuses with svn := s.fuses.svn.set index (s.fuses.svn.getD index 0 + k) })) ∧
  (∀ (s : State) (index : Nat) (path : Path) (fa : Option Nat), s.blk.obsCmd = some (6, index, path) → s.blk.tripped = false →
    s.blk.obsCheck s.fuses 6 path = 0 →
    (7 < index ∨ (s.fuses.levels.find index).isSome = true ∨ 4 < beAt s.blk.obsData 0 1 % 8 →
      Runs (.rstmapSet fa) s fun t => ObsEnded s t 4 [] ∧ t.fuses = s.fuses) ∧
    (index ≤ 7 → s.fuses.levels.find index = none → beAt s.blk.obsData 0 1 % 8 ≤ 4 →
      s.fuses.hasBank (32 + index) = true →
      Runs (.rstmapSet none) s fun t => ObsEnded s t 0 [] ∧ t.fuses = { s.fuses with levels := t.fuses.levels } ∧
        t.fuses.levels.find index = some (beAt s.blk.obsData 0 1 % 8))) ∧
  (∀ (s : State) (index : Nat) (path : Path), s.blk.obsCmd = some (7, index, path) → s.blk.tripped = false → s.blk.obsCheck s.fuses 7 path = 0 →
    Runs (.repairFuse none) s fun t =>
      ObsEnded s t (if s.blk.softSram ≤ 2048 - s.fuses.repairs then 0 else 9) (fuseFields ++ [.OBS_REPAIR_pending]) ∧
      t.fuses = { s.fuses with repairs := s.fuses.repairs + min s.blk.softSram (2048 - s.fuses.repairs) } ∧
      t.blk.softSram = s.blk.softSram - min s.blk.softSram (2048 - s.fuses.repairs) ∧
      (s.blk.softSram ≤ 2048 - s.fuses.repairs → t.blk.softHbm = 0)) ∧
  (∀ (s : State) (index : Nat) (path : Path), s.blk.obsCmd = some (8, index, path) → s.blk.tripped = false → s.blk.obsCheck s.fuses 8 path = 0 →
    (s.fuses.secret = none ∨ s.fuses.destroyed = true →
      Runs .attest s fun t => ObsEnded s t 0x0E [] ∧ t.fuses = s.fuses) ∧
    (s.blk.flag .OBS_LC_scan 0 = true → Runs .attest s fun t => ObsEnded s t 0x0E [] ∧ t.fuses = s.fuses) ∧
    (∀ k, s.fuses.secret = some k → s.fuses.destroyed = false → s.blk.flag .OBS_LC_scan 0 = false →
      Runs .attest s fun t => ObsEnded s t 0 [.OBS_CMD_DATA_data] ∧ t.fuses = s.fuses ∧
        ∃ v, ∀ w < 48, t.blk.fld .OBS_CMD_DATA_data w =
          (let sig := ecdsaSign (Config.deviceKey k) v (sha384 (s.blk.obsData.take 48 ++ beBytes 8 (s.blk.fld .OBS_DEV_ID_id 0) ++
             beBytes 1 (s.blk.fld .OBS_LC_state 0) ++
             ((List.range 36).flatMap fun m => beBytes 4 (s.blk.fld .OBS_MEAS_hash m)) ++
             beBytes 4 (s.blk.fld .IMG_TILE_SRC_src 0)))
           beAt (beBytes 48 sig.1 ++ beBytes 48 sig.2 ++ beBytes 1 4 ++
             beBytes 48 (publicKey (Config.deviceKey k)).1 ++ beBytes 48 (publicKey (Config.deviceKey k)).2) (4 * w) 4))) ∧
  (∀ (s : State) (index : Nat) (path : Path) (fa : Option Nat), s.blk.obsCmd = some (2, index, path) → s.blk.tripped = false →
    s.blk.obsCheck s.fuses 2 path = 0 →
    (s.blk.fld .IMG_BOOT_phase 0 ≠ 3 →
      Runs (.rmaUnlock fa) s fun t => ObsEnded s t 0x0D [.OBS_NONCE_nonce] ∧ t.fuses = s.fuses) ∧
    (s.blk.fld .IMG_BOOT_phase 0 = 3 →
      (s.fuses.keys.find 4 ≠ some (sha384 (s.blk.obsData.take 97)) →
        Runs (.rmaUnlock fa) s fun t => ObsEnded s t 7 [.OBS_NONCE_nonce] ∧ t.fuses = s.fuses) ∧
      (s.fuses.keys.find 4 = some (sha384 (s.blk.obsData.take 97)) → beAt s.blk.obsData 0 1 ≠ 4 →
        Runs (.rmaUnlock fa) s fun t => ObsEnded s t 8 [.OBS_NONCE_nonce] ∧ t.fuses = s.fuses) ∧
      (∀ digest, digest = sha384 (((List.range 12).flatMap fun w => beBytes 4 (s.blk.fld .OBS_NONCE_nonce w)) ++
          beBytes 8 (s.blk.fld .OBS_DEV_ID_id 0) ++ [0x52, 0x4D, 0x41]) →
        s.fuses.keys.find 4 = some (sha384 (s.blk.obsData.take 97)) → beAt s.blk.obsData 0 1 = 4 →
        (ecdsaOk (beAt s.blk.obsData 1 48, beAt s.blk.obsData 49 48) digest (beAt s.blk.obsData 104 48)
            (beAt s.blk.obsData 152 48) = false →
          Runs (.rmaUnlock fa) s fun t => ObsEnded s t 8 [.OBS_NONCE_nonce] ∧ t.fuses = s.fuses) ∧
        (ecdsaOk (beAt s.blk.obsData 1 48, beAt s.blk.obsData 49 48) digest (beAt s.blk.obsData 104 48)
            (beAt s.blk.obsData 152 48) = true → s.fuses.hasBank (16 + s.fuses.lc) = true →
          Runs (.rmaUnlock none) s fun t => t.fuses = { s.fuses with destroyed := true, lc := 4 } ∧
            t.blk.fld .OBS_CMD_STATUS_result 0 = 0 ∧ t.blk.flag .OBS_CMD_STATUS_busy 0 = false ∧
            t.blk.fld .OBS_LC_state 0 = 4 ∧ t.blk.tables = [] ∧
            ∀ a, t.blk.hbm.get 0 a =
              if s.blk.domOn (96 + lineStack (a / 256)) = true then 0 else s.blk.hbm.get 0 a))))

/-- R440, R443, R446, R450, R451: BIST of a domain passes or fails, or ends with what keeps it from starting; scan is entered
with the SRAMs zeroed, the store as it was and the device held in reset (how it is held is the model's choice, log entry
158); the scrubbers count what they correct, a line that no copy serves is poisoned, and a frame that has lost a Basalt cell
is marked to be stomped as it is sent, the cell's row to be repaired (R454). -/
def Obligations.TestAndScrub : Prop :=
  (∀ (s : State) (n : Nat) (path : Path) (x : BistFindings), s.blk.obsCmd = some (9, n, path) → s.blk.tripped = false →
    s.fuses.lc ≤ 4 →
    (s.blk.bist ≠ some n → ∀ c, s.blk.bistCheck n = c → c ≠ 0 →
      Runs (.bist x) s fun t => ObsEnded s t c [] ∧ t.fuses = s.fuses) ∧
    (s.blk.bist = some n → 96 ≤ n → n < 108 →
      (x.pass = true → s.blk.domState n = 3 → Runs (.bist x) s fun t => t.blk.fld .OBS_CMD_STATUS_result 0 = 0 ∧ t.blk.bist = none ∧
        t.blk.domState n = 1 ∧ t.fuses = s.fuses ∧
        ∀ a, t.blk.hbm.get 0 a = if lineStack (a / 256) = n - 96 then 0 else s.blk.hbm.get 0 a) ∧
      (x.pass = false → Runs (.bist x) s fun t => t.blk.fld .OBS_CMD_STATUS_result 0 = 0x0C ∧ t.blk.bist = none ∧
        t.blk.domState n = 0 ∧ t.blk.domAsked n = false ∧ t.blk.flag .OBS_INT_bist_fail 0 = true ∧ t.fuses = s.fuses))) ∧
  (∀ s : State, s.blk.debugOpen = true →
    Runs .scanEntry s fun t => t.blk.flag .OBS_LC_scan 0 = true ∧ t.blk.hbm = s.blk.hbm ∧ t.blk.tables = [] ∧
      t.blk.groups = [] ∧ t.blk.window = [] ∧ t.blk.regions = [] ∧
      (t.blk.resets.map fun r => (r.level, r.released)) = [(0, false)] ∧ t.fuses = s.fuses) ∧
  (∀ (s : State) (w : SramWord), Runs (.sramScrub w .clean) s fun t => t = s) ∧
  (∀ (s : State) (tile : TileId) (line : Nat),
    Runs (.sramScrub (.scratch tile line) .corrected) s fun t => t.blk.flag .GRN_INT_scr_corr tile = true ∧
      t.blk.fld .GRN_SCR_CORR_count tile = min (s.blk.fld .GRN_SCR_CORR_count tile + 1) (2 ^ 64 - 1) ∧
      t.blk.hbm = s.blk.hbm ∧ t.blk.tables = s.blk.tables ∧ t.fuses = s.fuses) ∧
  (∀ (s : State) (d : DieId) (cell : Fin 524288) (f : Nat) (c : CopyRec), s.blk.copy? (4 * f + d) = some c →
    Runs (.sramScrub (.basalt d cell (some f)) .uncorrectable) s fun t =>
      t.blk.copy? (4 * f + d) = some { c with lost := true } ∧ (d.val, cell.val / 32) ∈ t.blk.rowsDue) ∧
  (∀ (s : State) (d : DieId) (tb : Fin 9) (e : BitVec 20), (s.blk.tableSource d).isSome = true →
    Runs (.sramScrub (.table d tb e) .uncorrectable) s fun t => t.blk.tables = s.blk.tables ∧
      t.blk.flag .MGT_ERR_INT_uc_cont 0 = true ∧ t.blk.hbm = s.blk.hbm) ∧
  (∀ (s : State) (x : Fin 2415919104) (found : WordFinding),
    (s.blk.flag .GNS_SCRUB_CTL_en 0 = false ∨ s.blk.stackUp (lineStack x) = false ∨ s.blk.hotLine x = true →
      Runs (.patrolScrub x found) s fun t => t = s) ∧
    (s.blk.flag .GNS_SCRUB_CTL_en 0 = true → s.blk.stackUp (lineStack x) = true → s.blk.hotLine x = false →
      Runs (.patrolScrub x .clean) s (fun t => t = s) ∧
      Runs (.patrolScrub x .corrected) s (fun t => t.blk.hbm = s.blk.hbm ∧ t.blk.lineMeta = s.blk.lineMeta ∧
        t.blk.fld .GNS_HBM_CE_count 0 = min (s.blk.fld .GNS_HBM_CE_count 0 + 1) (2 ^ 64 - 1)) ∧
      (s.blk.dupPartner x = none → Runs (.patrolScrub x .uncorrectable) s fun t => (t.blk.meta_ x).poison = true ∧
        t.blk.hbm = s.blk.hbm ∧ t.blk.fld .GNS_POISONED_count 0 = min (s.blk.fld .GNS_POISONED_count 0 + 1) (2 ^ 64 - 1))))

/-! ### Rings, queues and interrupts (R467 to R480, R486 to R488) -/

/-- R467 to R470, R479, R480, R488: a doorbell is applied when its tail fits, and is ignored with tail_err otherwise, and either
way its ring is cleared; one of the host's side comes over the link, which is down while PCIE_REFCLK is lost (R429);
enabling a ring sets its head and tail to 0, unless its function is reserved or taken; a reset of a ring or a queue sets its
head to its tail and clears its faults; a Function Level Reset does so for all that lie in host memory. A write that a
reject ignores leaves the register whole (the model's reading, log entry 66). -/
def Obligations.RingsAndQueues : Prop :=
  (∀ (s : State) (r : RingId) (t : BitVec 32), s.blk.flag .DMA_RING_CFG_side r = true ∨ s.blk.pcieUp = true →
    (s.blk.flag .DMA_RING_CFG_en r = true → (t.toNat + 2 ^ 32 - s.blk.fld .DMA_RING_HEAD_head r) % 2 ^ 32 ≤ s.blk.ringSize r →
      (t.toNat + 2 ^ 32 - s.blk.fld .DMA_RING_TAIL_tail r) % 2 ^ 32 < 2 ^ 31 →
      Runs (.ringDoorbell r t) s fun u => u.blk.fld .DMA_RING_TAIL_tail r = t.toNat ∧ u.blk.ring r = ⟨0, false⟩ ∧
        OnlyFields { s with blk := { s.blk with rings := s.blk.rings.del r } } u [(.DMA_RING_TAIL_tail, r)]) ∧
    (s.blk.flag .DMA_RING_CFG_en r = false ∨
      s.blk.ringSize r < (t.toNat + 2 ^ 32 - s.blk.fld .DMA_RING_HEAD_head r) % 2 ^ 32 ∨
      2 ^ 31 ≤ (t.toNat + 2 ^ 32 - s.blk.fld .DMA_RING_TAIL_tail r) % 2 ^ 32 →
      Runs (.ringDoorbell r t) s fun u => u.blk.flag .DMA_RING_STATUS_tail_err r = true ∧
        u.blk.flag .DMA_INT_tail_err 0 = true ∧ u.blk.fld .DMA_RING_TAIL_tail r = s.blk.fld .DMA_RING_TAIL_tail r ∧
        OnlyFieldsIrq { s with blk := { s.blk with rings := s.blk.rings.del r } } u
          [(.DMA_RING_STATUS_tail_err, r), (.DMA_INT_tail_err, 0)])) ∧
  (∀ (s : State) (r : RingId) (q : QueueId) (t : BitVec 32), s.blk.pcieUp = false →
    (s.blk.flag .DMA_RING_CFG_side r = false → Runs (.ringDoorbell r t) s fun u => u = s) ∧
    (s.blk.flag .DMA_CQ_CFG_side q = false → Runs (.cqDoorbell q t) s fun u => u = s) ∧
    Runs .functionLevelReset s (fun u => u = s) ∧ ∀ on, Runs (.busMasterEnable on) s fun u => u = s) ∧
  (∀ (s : State) (q : QueueId) (t : BitVec 32), s.blk.flag .DMA_CQ_CFG_side q = true ∨ s.blk.pcieUp = true →
    (s.blk.flag .DMA_CQ_CFG_en q = true → (t.toNat + 2 ^ 32 - s.blk.fld .DMA_CQ_HEAD_head q) % 2 ^ 32 ≤ s.blk.cqSize q →
      (t.toNat + 2 ^ 32 - s.blk.cqTail.get 0 q) % 2 ^ 32 < 2 ^ 31 →
      Runs (.cqDoorbell q t) s fun u => u = { s with blk := { s.blk with cqTail := s.blk.cqTail.set 0 q t.toNat } }) ∧
    (s.blk.flag .DMA_CQ_CFG_en q = false →
      Runs (.cqDoorbell q t) s fun u => u.blk.flag .DMA_CQ_STATUS_tail_err q = true ∧
        OnlyFieldsIrq s u [(.DMA_CQ_STATUS_tail_err, q), (.DMA_INT_tail_err, 0)])) ∧
  (∀ (s : State) (q : QueueId),
    Runs (.cqReset q) s (fun u => u.blk.fld .DMA_CQ_HEAD_head q = s.blk.cqTail.get 0 q % 2 ^ 32 ∧
      u.blk.flag .DMA_CQ_STATUS_fault q = false ∧ u.blk.flag .DMA_CQ_STATUS_tail_err q = false ∧
      OnlyFields s u [(.DMA_CQ_HEAD_head, q), (.DMA_CQ_STATUS_fault, q), (.DMA_CQ_STATUS_tail_err, q)])) ∧
  (∀ (s : State) (r : RingId) (v : BitVec 32) (func : Nat), func = v.toNat / 2 ^ 27 % 8 →
    (s.blk.flag .DMA_RING_CFG_en r = true →
      Runs (.ringEnable r v) s fun u => u.blk.flag .DMA_RING_CFG_en r = v.toNat.testBit 31 ∧
        OnlyFields s u [(.DMA_RING_CFG_en, r), (.DMA_RING_STATUS_bm_stop, r)]) ∧
    (s.blk.flag .DMA_RING_CFG_en r = false → v.toNat.testBit 31 = true →
      (func ≠ 0 → (func = 5 ∨ func = 6 → ∀ k < 1024, k ≠ r.val → s.blk.flag .DMA_RING_CFG_en k = true →
          s.blk.fld .DMA_RING_CFG_func k ≠ func) →
        Runs (.ringEnable r v) s fun u => u.blk.flag .DMA_RING_CFG_en r = true ∧ u.blk.fld .DMA_RING_CFG_func r = func ∧
          u.blk.fld .DMA_RING_CFG_size_log2 r = v.toNat / 2 ^ 20 % 32 ∧ u.blk.flag .DMA_RING_CFG_side r = v.toNat.testBit 30 ∧
          u.blk.fld .DMA_RING_HEAD_head r = 0 ∧ u.blk.fld .DMA_RING_TAIL_tail r = 0) ∧
      (func = 0 ∨ ((func = 5 ∨ func = 6) ∧ ∃ k, k < 1024 ∧ k ≠ r.val ∧ s.blk.flag .DMA_RING_CFG_en k = true ∧
          s.blk.fld .DMA_RING_CFG_func k = func) →
        Runs (.ringEnable r v) s fun u => u.blk.flag .DMA_INT_cfg_reject 0 = true ∧
          OnlyFieldsIrq s u [(.DMA_INT_cfg_reject, 0)]))) ∧
  (∀ (s : State) (r : RingId),
    Runs (.ringReset r) s fun u => u.blk.fld .DMA_RING_HEAD_head r = s.blk.fld .DMA_RING_TAIL_tail r % 2 ^ 32 ∧
      u.blk.fld .DMA_RING_TAIL_tail r = s.blk.fld .DMA_RING_TAIL_tail r ∧ u.blk.flag .DMA_RING_STATUS_fault r = false ∧
      u.blk.flag .DMA_RING_STATUS_tail_err r = false ∧
      u.blk.fld .DMA_CPL_DISCARD_count 0 =
        min (s.blk.fld .DMA_CPL_DISCARD_count 0 + (s.blk.cplWait.get [] r).length) (2 ^ 64 - 1) ∧
      (s.blk.cplHeld = [] →
        u.blk.cplWait.get [] r = [] ∧ u.blk.hbm = s.blk.hbm ∧ u.blk.frames = s.blk.frames)) ∧
  (∀ (s : State) (place : HostPlace), ∀ p : Fld × Fld × Nat,
    (∃ r, place = .ring r ∧ p = (.DMA_RING_CFG_en, .DMA_RING_STATUS_fault, r.val)) ∨
      (∃ q, place = .queue q ∧ p = (.DMA_CQ_CFG_en, .DMA_CQ_STATUS_fault, q.val)) →
    (s.blk.flag p.1 p.2.2 = true → Runs (.hostAccessFault place) s fun u => u.blk.flag p.2.1 p.2.2 = true ∧
      u.blk.flag .DMA_INT_fault 0 = true ∧ OnlyFieldsIrq s u [(p.2.1, p.2.2), (.DMA_INT_fault, 0)]) ∧
    (s.blk.flag p.1 p.2.2 = false → Runs (.hostAccessFault place) s fun u => u = s)) ∧
  (∀ s : State, s.blk.pcieUp = true →
    Runs .functionLevelReset s fun u => u.blk.busMaster = false ∧ u.blk.msixTab = [] ∧
      u.fuses = s.fuses ∧ (s.blk.cplHeld = [] → u.blk.hbm = s.blk.hbm) ∧
      ∀ r < 1024, (s.blk.cplHeld = [] → s.blk.flag .DMA_RING_CFG_side r = true →
          u.blk.fld .DMA_RING_HEAD_head r = s.blk.fld .DMA_RING_HEAD_head r) ∧
        (s.blk.flag .DMA_RING_CFG_side r = false →
          u.blk.fld .DMA_RING_HEAD_head r = s.blk.fld .DMA_RING_TAIL_tail r % 2 ^ 32 ∧
          u.blk.flag .DMA_RING_STATUS_fault r = false)) ∧
  (∀ (s : State) (on : Bool), s.blk.pcieUp = true →
    Runs (.busMasterEnable on) s fun u => u.blk.busMaster = on ∧ u.fuses = s.fuses ∧
      (∀ r < 1024, u.blk.flag .DMA_RING_STATUS_bm_stop r =
        (s.blk.flag .DMA_RING_CFG_en r && !s.blk.flag .DMA_RING_CFG_side r && !on)) ∧
      Blk.Within { s.blk with busMaster := on } u.blk fun f _ => f = .DMA_RING_STATUS_bm_stop)

/-- R471, R475 to R477, R480: the oldest frame for a ring fills its buffers, or is counted where there is no buffer or no ring;
a frame of a TX ring goes into the pipeline of its link's tile, as if received there, and is answered SENT, or asks for
admission for its link in its class, and one whose descriptors are wrong is answered BAD_DESC; the oldest record of a CPL
ring is written, or is discarded where the ring takes none; with no free entry it waits, but for error records, which are
lost to the ring. (The next record held by its producer then takes the place freed, and the work that waited for it ends.) -/
def Obligations.HostFramesAndRecords : Prop :=
  (∀ (s : State) (r : RingId) (descs : List RxDesc),
    ((∀ h ∈ s.blk.hostRx, h.ring ≠ r.val) → Runs (.hostRxFrame r descs) s fun t => t = s) ∧
    (∀ h, s.blk.hostRx.find? (fun h => h.ring = r.val) = some h →
      (s.blk.flag .DMA_RING_CFG_en r = false ∨ s.blk.fld .DMA_RING_CFG_func r ≠ 1 →
        Runs (.hostRxFrame r descs) s fun t => t.blk.hostRx = s.blk.hostRx.erase h ∧
          t.blk.fld .DMA_RX_DROP_count 0 = min (s.blk.fld .DMA_RX_DROP_count 0 + 1) (2 ^ 64 - 1) ∧
          t.blk.fld .DMA_RING_HEAD_head r = s.blk.fld .DMA_RING_HEAD_head r) ∧
      (s.blk.flag .DMA_RING_CFG_en r = true → s.blk.fld .DMA_RING_CFG_func r = 1 → s.blk.ringHas r 1 = false →
        Runs (.hostRxFrame r descs) s fun t => t.blk.hostRx = s.blk.hostRx.erase h ∧
          t.blk.fld .DMA_RING_NOBUF_count r = min (s.blk.fld .DMA_RING_NOBUF_count r + 1) (2 ^ 64 - 1) ∧
          t.blk.fld .DMA_RING_HEAD_head r = s.blk.fld .DMA_RING_HEAD_head r) ∧
      (∀ d rest, descs = d :: rest → s.blk.ringHas r 1 = true → h.bytes ≠ [] → h.bytes.length ≤ rxLen d →
        Runs (.hostRxFrame r descs) s fun t => t.blk.hostRx = s.blk.hostRx.erase h ∧
          t.blk.fld .DMA_RING_HEAD_head r = (s.blk.fld .DMA_RING_HEAD_head r + 1) % 2 ^ 32 ∧
          t.blk.fld .DMA_RING_TRUNC_count r = s.blk.fld .DMA_RING_TRUNC_count r ∧
          Output.dmaWrite (s.blk.flag .DMA_RING_CFG_side r) d.addr.toNat h.bytes ∈ t.blk.out))) ∧
  (∀ (s : State) (r : RingId) (d : TxDesc) (rest : List TxDesc) (bytes : List Byte) (img : ImageClass),
    s.blk.ringHas r 2 = true → s.blk.hostTx.find r = none → (d :: rest).length ≤ s.blk.ringFilled r →
    (s.blk.txDescsOk (d :: rest) = false →
      Runs (.hostTxFrame r (d :: rest) bytes img) s fun t => t.blk.hostTx.find r = none ∧
        t.blk.fld .DMA_RING_HEAD_head r = (s.blk.fld .DMA_RING_HEAD_head r + (rest.length + 1)) % 2 ^ 32 ∧
        Output.dmaWrite (s.blk.flag .DMA_RING_CFG_side r)
          (s.blk.entryAddr r (s.blk.fld .DMA_RING_HEAD_head r + rest.length) 32 + 15) [2] ∈ t.blk.out ∧
        t.blk.frames = s.blk.frames) ∧
    (∀ (f : Frame) (l : Nat), s.blk.txDescsOk (d :: rest) = true → l = d.link.toNat →
      f = frameOf (padTo (max 14 (((d :: rest).map fun d => d.len.toNat).sum)) bytes) →
      (d.flags.toNat.testBit 5 = false →
        Runs (.hostTxFrame r (d :: rest) bytes img) s fun t => t.blk.nextFrame = s.blk.nextFrame + 1 ∧
          t.blk.hostTx.find r = some ⟨s.blk.nextFrame, rest.length + 1⟩ ∧
          (t.blk.copy? (4 * s.blk.nextFrame + dieOf l)).map
              (fun x => (x.frame, x.cls, x.node, x.target, x.ncells, x.phase, x.tx, x.ts)) =
            some (f, d.flags.toNat % 8, .host, .link l, cellsOf (frameLen f), .asked, some r.val, d.flags.toNat.testBit 4) ∧
          (t.blk.bsl (dieOf l)).requests =
            (s.blk.bsl (dieOf l)).requests ++ [(tileOf l, .copy (4 * s.blk.nextFrame + dieOf l))] ∧
          t.blk.fields = s.blk.fields) ∧
      (d.flags.toNat.testBit 5 = true →
        Runs (.hostTxFrame r (d :: rest) bytes img) s (fun t => t.blk.hostTx.find r = none ∧
          t.blk.fld .DMA_RING_HEAD_head r = (s.blk.fld .DMA_RING_HEAD_head r + (rest.length + 1)) % 2 ^ 32 ∧
          Output.dmaWrite (s.blk.flag .DMA_RING_CFG_side r)
            (s.blk.entryAddr r (s.blk.fld .DMA_RING_HEAD_head r + rest.length) 32 + 15) [0] ∈ t.blk.out) ∧
        ∀ (h : XHeader) (e m : Nat), isPtp f = false → s.blk.flag .TIL_FWD_CFG_fwd_en (tileOf l) = true → img.badWord = none →
          (∀ c < 4, s.blk.copy? (4 * s.blk.nextFrame + c) = none) → (∀ kv ∈ s.blk.frames, kv.2.link ≠ some l) →
          s.blk.isXeirrik (tileOf l) f = true → h = xHeader f.data → e = s.blk.tableEntry (dieOf l) 0 h.dst →
          m = (if f.tci.isSome then 54 else 50) →
          (h.ver ≠ 1 → Runs (.hostTxFrame r (d :: rest) bytes img) s fun t => DroppedFor s t l 1) ∧
          (h.ver = 1 → m ≤ frameLen f → h.len = frameLen f - m ∨ (frameLen f = 64 ∧ h.len ≤ frameLen f - m) →
            s.blk.staketu l = true ∨ Blk.tagClass f h.tc = h.tc → h.mcast = false → e.testBit 31 = true → bits e 30 28 = 1 →
            h.hop ≠ 0 →
            Runs (.hostTxFrame r (d :: rest) bytes img) s fun t => SentOn s t l (bits e 15 0 % 1024) h.tc (decHop f))))) ∧
  (∀ (s : State) (r : RingId) (d : TxDesc) (bytes : List Byte) (img : ImageClass), s.blk.ringHas r 2 = false →
    Runs (.hostTxFrame r [d] bytes img) s fun t => t = s) ∧
  (∀ (s : State) (r : RingId),
    (s.blk.cplWait.get [] r = [] → Runs (.cplRecord r) s fun t => t = s) ∧
    (∀ x rest, s.blk.cplWait.get [] r = x :: rest →
      (s.blk.flag .DMA_RING_CFG_en r = false ∨ s.blk.fld .DMA_RING_CFG_func r ≠ 3 →
        s.blk.cplHeld = [] →
        Runs (.cplRecord r) s fun t => t.blk.cplWait.get [] r = rest ∧ t.blk.flag .DMA_INT_misroute 0 = true ∧
          t.blk.fld .DMA_CPL_DISCARD_count 0 = min (s.blk.fld .DMA_CPL_DISCARD_count 0 + 1) (2 ^ 64 - 1)) ∧
      (s.blk.flag .DMA_RING_CFG_en r = true → s.blk.fld .DMA_RING_CFG_func r = 3 → s.blk.ringHas r 3 = true →
        s.blk.cplHeld = [] →
        Runs (.cplRecord r) s fun t => t.blk.cplWait.get [] r = rest ∧
          t.blk.fld .DMA_RING_HEAD_head r = (s.blk.fld .DMA_RING_HEAD_head r + 1) % 2 ^ 32 ∧
          Output.dmaWrite (s.blk.flag .DMA_RING_CFG_side r)
            (64 * s.blk.fld .DMA_RING_BASE_base r + s.blk.fld .DMA_RING_HEAD_head r % s.blk.ringSize r * 64)
            (padTo 32 x.bytes ++ beBytes 24 0 ++ beBytes 1 x.kind ++ beBytes 7 0) ∈ t.blk.out) ∧
      (s.blk.flag .DMA_RING_CFG_en r = true → s.blk.fld .DMA_RING_CFG_func r = 3 → s.blk.ringHas r 3 = false →
        Runs (.cplRecord r) s fun t => t.blk.cplWait.get [] r = (x :: rest).filter (fun y => y.kind ≠ 5) ∧
          t.blk.fld .MGT_ERR_LOST_count 0 =
            min (s.blk.fld .MGT_ERR_LOST_count 0 + ((x :: rest).filter (fun y => y.kind = 5)).length) (2 ^ 64 - 1))))

/-- R487, R488: writing a vector re-arms it, and where something routed to it is pending its message goes out, or waits in the
pending bit array where the vector is masked (PRESUMED from PCI Express, log entry 20), and it is disarmed again; while the
link is down it stays armed (R429); a ring whose delay has passed since its first unreported advance becomes pending, and
one of side 1 interrupts the management cores. -/
def Obligations.VectorsArmed : Prop :=
  (∀ (s : State) (v : Fin 64),
    ((s.blk.setBit .MGT_IRQ_ARMED_armed 0 v true).vectorPending v = false → Runs (.irqArm v) s fun t => t.blk.bit .MGT_IRQ_ARMED_armed 0 v = true ∧
      t.blk.out = s.blk.out ∧ OnlyFields s t [(.MGT_IRQ_ARMED_armed, 0)]) ∧
    ((s.blk.setBit .MGT_IRQ_ARMED_armed 0 v true).vectorPending v = true → s.blk.pcieUp = false →
      Runs (.irqArm v) s fun t => t.blk.bit .MGT_IRQ_ARMED_armed 0 v = true ∧
      t.blk.out = s.blk.out ∧ OnlyFields s t [(.MGT_IRQ_ARMED_armed, 0)]) ∧
    ((s.blk.setBit .MGT_IRQ_ARMED_armed 0 v true).vectorPending v = true → s.blk.pcieUp = true → s.blk.msixMasked v = true →
      Runs (.irqArm v) s fun t => t.blk.bit .MGT_IRQ_ARMED_armed 0 v = false ∧ t.blk.bit .MSIX_PBA_pend 0 v = true ∧
      t.blk.out = s.blk.out ∧ OnlyFields s t [(.MGT_IRQ_ARMED_armed, 0), (.MSIX_PBA_pend, 0)]) ∧
    ((s.blk.setBit .MGT_IRQ_ARMED_armed 0 v true).vectorPending v = true → s.blk.pcieUp = true → s.blk.msixMasked v = false →
      Runs (.irqArm v) s fun t => t.blk.bit .MGT_IRQ_ARMED_armed 0 v = false ∧
      t.blk.out = .msix v :: s.blk.out ∧ OnlyFields s t [(.MGT_IRQ_ARMED_armed, 0)])) ∧
  (∀ (s : State) (r : RingId),
    (s.blk.flag .DMA_RING_CFG_irq_en r = true → (s.blk.ring r).adv ≠ 0 → (s.blk.ring r).pend = false →
      Runs (.ringIrqDelay r) s fun t => t.blk.ring r = ⟨(s.blk.ring r).adv, true⟩ ∧ t.fuses = s.fuses ∧
        (s.blk.flag .DMA_RING_CFG_side r = true → t.blk.fields = s.blk.fields ∧ t.blk.out = .mgmtRing r :: s.blk.out)) ∧
    (s.blk.flag .DMA_RING_CFG_irq_en r = false ∨ (s.blk.ring r).adv = 0 ∨ (s.blk.ring r).pend = true →
      Runs (.ringIrqDelay r) s fun t => t = s))

/-! ### Mailbox and recovery UART (R481 to R485, R496) -/

/-- R482: a doorbell with TAKEN + 1 takes the message of its slot, while fewer than 16 wait; any other is ignored with bad_seq,
and so is an acknowledgement outside ACK to SENT. Neither arrives while the PCI Express link is down (R429). -/
def Obligations.MailboxSequence : Prop :=
  (∀ (s : State) (seq v : BitVec 32), s.blk.pcieUp = false →
    Runs (.mailboxDoorbell seq) s (fun t => t = s) ∧ Runs (.d2hAck v) s fun t => t = s) ∧
  (∀ (s : State) (seq : BitVec 32) (taken : Nat), s.blk.pcieUp = true → taken = s.blk.fld .MGT_MBX_H2D_TAKEN_seq 0 →
    (seq.toNat ≠ (taken + 1) % 2 ^ 32 ∨ 16 ≤ Blk.seqAhead (s.blk.fld .MGT_MBX_H2D_DONE_seq 0) taken →
      Runs (.mailboxDoorbell seq) s fun t => t.blk.flag .MGT_MBX_INT_bad_seq 0 = true ∧
        OnlyFieldsIrq s t [(.MGT_MBX_INT_bad_seq, 0)]) ∧
    (∀ q : MbxReq, seq.toNat = (taken + 1) % 2 ^ 32 → Blk.seqAhead (s.blk.fld .MGT_MBX_H2D_DONE_seq 0) taken < 16 →
      q = { Blk.requestOf (s.blk.h2dSlot (seq.toNat % 16)) with seq := seq.toNat } →
      (s.blk.fwReady = false ∨
        s.blk.mbxReqs = [] ∧ s.blk.mbxEvents = [] ∧ s.blk.uart.reqs = [] ∧ (q.cmd = 1 ∨ q.cmd = 2) →
        Runs (.mailboxDoorbell seq) s fun t => t.blk.fld .MGT_MBX_H2D_TAKEN_seq 0 = seq.toNat ∧
          OnlyFields { s with blk := { s.blk with mbxReqs := s.blk.mbxReqs ++ [q] } } t [(.MGT_MBX_H2D_TAKEN_seq, 0)]) ∧
      (s.blk.fwReady = true → s.blk.mbxRoom = true → s.blk.mbxReqs = [] → s.blk.mbxEvents = [] → s.blk.uart.reqs = [] →
        q.cmd ∉ [1, 2, 0x10, 0x11, 0x12] →
        Runs (.mailboxDoorbell seq) s fun t => t.blk.fld .MGT_MBX_H2D_TAKEN_seq 0 = seq.toNat ∧
          MailboxAnswered s t q 1 []))) ∧
  (∀ (s : State) (v : BitVec 32) (ack : Nat), s.blk.pcieUp = true → ack = s.blk.fld .MGT_MBX_D2H_ACK_seq 0 →
    (Blk.seqAhead ack (s.blk.fld .MGT_MBX_D2H_SENT_seq 0) < Blk.seqAhead ack v.toNat →
      Runs (.d2hAck v) s fun t => t.blk.flag .MGT_MBX_INT_bad_seq 0 = true ∧
        OnlyFieldsIrq s t [(.MGT_MBX_INT_bad_seq, 0)]) ∧
    (Blk.seqAhead ack v.toNat ≤ Blk.seqAhead ack (s.blk.fld .MGT_MBX_D2H_SENT_seq 0) →
      s.blk.mbxReqs = [] → s.blk.mbxEvents = [] → s.blk.uart.reqs = [] →
      Runs (.d2hAck v) s fun t => t.blk.fld .MGT_MBX_D2H_ACK_seq 0 = v.toNat ∧
        OnlyFields s t [(.MGT_MBX_D2H_ACK_seq, 0)]))

/-- R483, R485: each message is answered once: PING with its payload, FW_INFO with the running versions and the epoch, PTP_CFG,
TOD_SET and TIME_SRC after taking effect; a payload of the wrong length is BAD_LEN. A TIME_SRC of another value is BAD_ARG
(the model's choice, log entry 71). -/
def Obligations.MessagesAnswered : Prop :=
  (∀ (s : State) (q : MbxReq),
    (AsksMailbox s q 1 → q.payload.length ≤ 240 → Runs .ping s fun t => MailboxAnswered s t q 0 q.payload) ∧
    (AsksMailbox s q 2 → q.payload = [] → Runs .fwInfo s fun t => MailboxAnswered s t q 0
      (beBytes 4 (s.blk.fld .IMG_RUN_VER_version 0) ++ beBytes 4 (s.blk.fld .IMG_RUN_VER_version 1) ++
        beBytes 4 (s.blk.fld .IMG_RUN_VER_version 2) ++ beBytes 1 (s.blk.fld .MGT_MBX_STATUS_epoch 0))) ∧
    (AsksMailbox s q 2 → q.payload ≠ [] → Runs .fwInfo s fun t => MailboxAnswered s t q 2 []) ∧
    (AsksMailbox s q 0x10 → q.payload.length = 16 → Runs .ptpCfg s fun t => MailboxAnswered s t q 0 [] ∧
      t.blk.timeCfg =
        { s.blk.timeCfg with
          lockNs := beAt q.payload 0 4, lockSyncs := beAt q.payload 4 2, stepNs := beAt q.payload 6 4,
          stepSyncs := beAt q.payload 10 2, maxRate := beAt q.payload 12 4 }) ∧
    (AsksMailbox s q 0x11 → q.payload.length = 6 → Runs .todSet s fun t => MailboxAnswered s t q 0 [] ∧
      t.blk.timeCfg = { s.blk.timeCfg with tod := some (beAt q.payload 0 6) }) ∧
    (AsksMailbox s q 0x12 → q.payload.length = 1 → beAt q.payload 0 1 ≤ 1 →
      Runs .timeSrc s fun t => MailboxAnswered s t q 0 [] ∧
        t.blk.timeCfg = { s.blk.timeCfg with ppsIn := decide (beAt q.payload 0 1 = 1) }) ∧
    (AsksMailbox s q 0x12 → q.payload.length = 1 → 1 < beAt q.payload 0 1 →
      Runs .timeSrc s fun t => MailboxAnswered s t q 3 [] ∧ t.blk.timeCfg = s.blk.timeCfg)) ∧
  (∀ (s : State) (q : MbxReq) (c : Nat × Nat × Instr),
    c ∈ [(0x10, 16, Instr.ptpCfg), (0x11, 6, Instr.todSet), (0x12, 1, Instr.timeSrc)] →
    AsksMailbox s q c.1 → q.payload.length ≠ c.2.1 →
    Runs c.2.2 s fun t => MailboxAnswered s t q 2 [] ∧ t.blk.timeCfg = s.blk.timeCfg)

/-- R496: a frame of the recovery framing whose body checks is taken when it is numbered TAKEN + 1, and one that repeats TAKEN
is answered again with the same bytes; REG_READ and REG_WRITE reach BAR0, BAUD sets the rate, and STAGE_WRITE the window. -/
def Obligations.RecoveryUart : Prop :=
  (∀ (s : State) (msg : List Byte) (q : MbxReq), s.blk.uartFraming = true → s.blk.fwReady = true → 16 ≤ msg.length →
    q = Blk.requestOf msg →
    (q.seq = (s.blk.uart.taken + 1) % 2 ^ 32 → Blk.seqAhead s.blk.uart.done s.blk.uart.taken < 16 → s.blk.mbxReqs = [] →
      s.blk.mbxEvents = [] → s.blk.uart.reqs = [] → 0x100 ≤ q.cmd → q.cmd ≤ 0x103 →
      Runs (.uartFrame (Blk.uartWrap msg)) s fun t =>
        t = { s with blk := { s.blk with uart := { s.blk.uart with taken := q.seq, reqs := [q] } } }) ∧
    (∀ b, q.seq = s.blk.uart.taken → s.blk.uart.done = s.blk.uart.taken → s.blk.uart.last = some b →
      s.blk.uart.taken < 2 ^ 32 →
      Runs (.uartFrame (Blk.uartWrap msg)) s fun t => t = { s with blk := s.blk.emit (.uart b) })) ∧
  (∀ (s : State) (bytes : List Byte), s.blk.uartFraming = false → Runs (.uartFrame bytes) s fun t => t = s) ∧
  (∀ (s : State) (q : MbxReq),
    (AsksUart s q 0x100 → q.payload.length ≠ 5 → Runs .regRead s fun t => UartAnswered s t q 2 []) ∧
    (∀ (a : Nat) (r : Reg) (i : Nat), AsksUart s q 0x100 → q.payload.length = 5 → beAt q.payload 0 1 = 0 →
      a = beAt q.payload 1 4 % 2 ^ 26 → a % 4 = 0 → Answers s.blk a r i false → r.info.wide = false →
      r ≠ .I2C_DATA →
      Runs .regRead s fun t => UartAnswered s t q 0 (beBytes 4 (s.blk.readReg r i))) ∧
    (∀ (a v : Nat) (r : Reg) (i : Nat), AsksUart s q 0x101 → q.payload.length = 9 → beAt q.payload 0 1 = 0 →
      a = beAt q.payload 1 4 % 2 ^ 26 → a % 4 = 0 → v = beAt q.payload 5 4 → Answers s.blk a r i false →
      r.info.wide = false → actingReg r = false →
      Runs .regWrite s fun t => UartAnswered s t q 0 [] ∧
        ∀ f ∈ r.info.fields, t.blk.fld f i = accessLeaves (f.accessAt i) f.info.width (s.blk.fld f i)
          (v / 2 ^ f.info.lo % 2 ^ f.info.width)) ∧
    (AsksUart s q 0x102 → q.payload.length = 1 → beAt q.payload 0 1 ≤ 3 →
      Runs .baud s fun t => UartAnswered s t q 0 [] ∧ t.blk.fld .MGT_UART_CFG_baud 0 = beAt q.payload 0 1) ∧
    (∀ off n : Nat, AsksUart s q 0x103 → q.payload.length = n + 4 → 1 ≤ n → n ≤ 232 → off = beAt q.payload 0 4 →
      off + n ≤ 65536 →
      Runs .stageWrite s fun t => UartAnswered s t q 0 [] ∧ ∀ k < n, t.blk.window.get 0 (off + k) = q.payload.getD (4 + k) 0))

/-! ### I²C, SMBus and GPIO (R489 to R493, R501, R502) -/

/-- R489, R490, R502: a transfer starts on an idle, enabled controller that takes transfers, and is otherwise refused; it ends
with the bytes read in the RX FIFO, or with nack, arb_lost or scl_stuck; a clear that leaves SDA low makes the controller
refuse transfers; a reset clears its registers. Controller 1 finds no target and SDA high while its pins have another
function (R492, R493). Counts above 32 refuse a transfer too (the model's choice, log entry 73). R491: the SMBus target
answers a Block Read with four bytes of the register that the command code names, and the PEC where it is on (computed as
SMBus has it: PRESUMED, log entry 74), but in the ASSERT phase of a cold reset; it answers the Alert Response Address while
it drives SMB_ALERT_N low. -/
def Obligations.I2cAndSmbus : Prop :=
  ((∀ (s : State) (c : Fin 2) (v : BitVec 32) (rd wr : Nat), rd = v.toNat / 2 ^ 8 % 256 → wr = v.toNat % 256 →
    (v.toNat.testBit 31 = false →
      Runs (.i2cStart c v) s fun t => t.blk.fld .I2C_CMD_addr c = v.toNat / 2 ^ 16 % 128 ∧
        t.blk.fld .I2C_CMD_rd_count c = rd ∧ t.blk.fld .I2C_CMD_wr_count c = wr ∧
        OnlyFields s t [(.I2C_CMD_addr, c), (.I2C_CMD_rd_count, c), (.I2C_CMD_wr_count, c)]) ∧
    (v.toNat.testBit 31 = true → s.blk.flag .I2C_STATUS_busy c = true ∨ (s.blk.i2cOf c).refuses = true ∨
        s.blk.flag .I2C_CTL_en c = false ∨ 32 < rd ∨ 32 < wr →
      Runs (.i2cStart c v) s fun t => t.blk.flag .I2C_INT_reject c = true ∧ OnlyFieldsIrq s t [(.I2C_INT_reject, c)]) ∧
    (v.toNat.testBit 31 = true → s.blk.flag .I2C_STATUS_busy c = false → (s.blk.i2cOf c).refuses = false →
      s.blk.flag .I2C_CTL_en c = true → rd ≤ 32 → wr ≤ 32 → wr ≤ (s.blk.i2cOf c).tx.length →
      Runs (.i2cStart c v) s fun t => t.blk.flag .I2C_STATUS_busy c = true ∧ t.blk.flag .I2C_STATUS_done c = false ∧
        t.blk.i2cOf c = { s.blk.i2cOf c with tx := (s.blk.i2cOf c).tx.drop wr } ∧
        t.blk.out = if s.blk.i2cWired c then .i2c c (v.toNat / 2 ^ 16 % 128) ((s.blk.i2cOf c).tx.take wr) rd :: s.blk.out
          else s.blk.out)) ∧
  (∀ (s : State) (c : Fin 2) (e : I2cEnd),
    (s.blk.flag .I2C_STATUS_busy c = false → Runs (.i2cTransferEnd c e) s fun t => t = s) ∧
    (s.blk.flag .I2C_STATUS_busy c = true →
      Runs (.i2cTransferEnd c e) s fun t => t.blk.flag .I2C_STATUS_busy c = false ∧ t.blk.flag .I2C_STATUS_done c = true ∧
        t.blk.flag .I2C_INT_done c = true ∧
        (s.blk.i2cWired c = false ∨ e = .nack → t.blk.flag .I2C_STATUS_nack c = true) ∧
        (s.blk.i2cWired c = true → e = .arbLost → t.blk.flag .I2C_STATUS_arb_lost c = true) ∧
        (s.blk.i2cWired c = true → e = .sclStuck → t.blk.flag .I2C_STATUS_scl_stuck c = true) ∧
        (∀ bs, s.blk.i2cWired c = true → e = .good bs → t.blk.flag .I2C_STATUS_scl_stuck c = false ∧ (t.blk.i2cOf c).rx =
          ((s.blk.i2cOf c).rx ++ bs.take (s.blk.fld .I2C_CMD_rd_count c)).take 32))) ∧
  (∀ (s : State) (c : Fin 2) (e : ClearEnd),
    (s.blk.flag .I2C_STATUS_busy c = true →
      Runs (.i2cClear c e) s fun t => t.blk.flag .I2C_INT_reject c = true ∧ OnlyFieldsIrq s t [(.I2C_INT_reject, c)]) ∧
    (s.blk.flag .I2C_STATUS_busy c = false →
      Runs (.i2cClear c e) s fun t => t.blk.flag .I2C_INT_done c = true ∧
        (s.blk.i2cWired c = false ∨ e = .released →
          (t.blk.i2cOf c).refuses = false ∧ t.blk.flag .I2C_STATUS_sda_stuck c = false) ∧
        (s.blk.i2cWired c = true → e = .sdaStuck → (t.blk.i2cOf c).refuses = true ∧ t.blk.flag .I2C_STATUS_sda_stuck c = true ∧
          t.blk.flag .I2C_INT_stuck c = true) ∧
        (s.blk.i2cWired c = true → e = .sclStuck → t.blk.flag .I2C_STATUS_scl_stuck c = true))) ∧
  (∀ (s : State) (c : Fin 2) (e : ClearEnd),
    Runs (.i2cReset c false e) s (fun t => t.blk.i2cOf c = .reset ∧ t.blk.flag .I2C_CTL_en c = false ∧
      t.blk.flag .I2C_STATUS_busy c = false ∧ t.blk.hbm = s.blk.hbm) ∧
    (s.blk.i2cWired c = false → Runs (.i2cReset c true e) s fun t => t.blk.i2cOf c = .reset ∧
      t.blk.flag .I2C_STATUS_busy c = false) ∧
    (s.blk.i2cWired c = true →
      Runs (.i2cReset c true .sdaStuck) s fun t => (t.blk.i2cOf c).refuses = true ∧ t.blk.flag .I2C_INT_stuck c = true))) ∧
  ((∀ (s : State) (k : BitVec 8) (v : Nat), (∀ r ∈ s.blk.resets, r.level = 0 → r.released = true) →
    (v = if k = 0 then s.blk.regRaw .MGT_DEVICE_ID 0 else if k = 1 then s.blk.regRaw .RSTC_CAUSE 0
      else if k = 2 then s.blk.regRaw .RSTC_FAILS 0 else if k = 3 then s.blk.regRaw .IMG_BOOT 0
      else if k = 4 then s.blk.regRaw .OBS_LC 0 else if k = 5 then s.blk.regRaw .MGT_MBX_STATUS 0
      else if 16 ≤ k.toNat ∧ k.toNat < 140 then s.blk.fld .JSP_MRG_RD_value (k.toNat - 16) else 0) →
    (s.blk.flag .I2C_TGT_CFG_pec_en 0 = false →
      Runs (.smbusBlockRead k) s fun t => t = { s with blk := s.blk.emit (.smbus ((4 : Byte) :: beBytes 4 v)) }) ∧
    (s.blk.flag .I2C_TGT_CFG_pec_en 0 = true →
      Runs (.smbusBlockRead k) s fun t => ∃ p : Byte,
        t = { s with blk := s.blk.emit (.smbus ((4 : Byte) :: beBytes 4 v ++ [p])) })) ∧
  (∀ (s : State) (k : BitVec 8), (∃ r ∈ s.blk.resets, r.level = 0 ∧ r.released = false) →
    Runs (.smbusBlockRead k) s (fun t => t = s) ∧ Runs .alertResponse s (fun t => t = s)) ∧
  (∀ s : State, (∀ r ∈ s.blk.resets, r.level = 0 → r.released = true) →
    (s.blk.flag .I2C_TGT_CFG_alert_en 0 = true →
      s.blk.flag .JSP_INT_mrg_warn 0 = true ∨ s.blk.flag .JSP_INT_mrg_alarm 0 = true →
      Runs .alertResponse s fun t =>
        t = { s with blk := s.blk.emit (.smbus (beBytes 1 (2 * s.blk.fld .I2C_TGT_CFG_addr 0))) }) ∧
    (s.blk.flag .I2C_TGT_CFG_alert_en 0 = false ∨
      s.blk.flag .JSP_INT_mrg_warn 0 = false ∧ s.blk.flag .JSP_INT_mrg_alarm 0 = false →
      Runs .alertResponse s fun t => t = s)))

/-- R493, R501: a write that changes a pin's function starts a switch; one during a switch is held, the latest alone, and
applied when the switch ends; a selected edge on a pin of the GPIO function that the block does not drive sets its interrupt
bit, and during a switch no edge reaches the GPIO function; GPIO_IN shows the level that the block drives, or the one last
seen on the pad. -/
def Obligations.GpioPins : Prop :=
  (∀ (s : State) (pin : Fin 16) (v : BitVec 2),
    (s.blk.pinSwitches.find pin = none → s.blk.fld .GPIO_FUNC_func pin ≠ v.toNat →
      Runs (.gpioFuncWrite pin v) s fun t => t.blk.fld .GPIO_FUNC_func pin = v.toNat ∧
        t.blk.bit .GPIO_STATUS_switching 0 pin = true ∧ (t.blk.pinSwitches.find pin).isSome = true ∧
        OnlyFields { s with blk := { s.blk with pinSwitches := t.blk.pinSwitches } } t
          [(.GPIO_FUNC_func, pin), (.GPIO_STATUS_switching, 0)]) ∧
    (s.blk.pinSwitches.find pin = none → s.blk.fld .GPIO_FUNC_func pin = v.toNat →
      Runs (.gpioFuncWrite pin v) s fun t => t = s) ∧
    (∀ p, s.blk.pinSwitches.find pin = some p →
      Runs (.gpioFuncWrite pin v) s fun t => t.blk.pinSwitches.find pin = some { p with next := some v.toNat } ∧
        t = { s with blk := { s.blk with pinSwitches := t.blk.pinSwitches } })) ∧
  (∀ (s : State) (pin : Fin 16),
    (s.blk.pinSwitches.find pin = none → Runs (.gpioSwitchEnd pin) s fun t => t = s) ∧
    (∀ p, s.blk.pinSwitches.find pin = some p →
      (p.next = none → Runs (.gpioSwitchEnd pin) s fun t => t.blk.pinSwitches.find pin = none ∧
        t.blk.bit .GPIO_STATUS_switching 0 pin = false ∧
        (∀ l, p.pad = some l → t.blk.bit .GPIO_IN_in 0 pin = l) ∧
        t.blk.fld .GPIO_FUNC_func pin = s.blk.fld .GPIO_FUNC_func pin) ∧
      (∀ v : BitVec 2, p.next = some v.toNat → v.toNat ≠ s.blk.fld .GPIO_FUNC_func pin →
        Runs (.gpioSwitchEnd pin) s fun t => t.blk.fld .GPIO_FUNC_func pin = v.toNat ∧
          t.blk.bit .GPIO_STATUS_switching 0 pin = true))) ∧
  (∀ (s : State) (pin : Fin 16) (up : Bool),
    (s.blk.pinSwitches.find pin = none → s.blk.bit .GPIO_IN_in 0 pin ≠ up →
      Runs (.gpioEdge pin up) s fun t => t.blk.bit .GPIO_IN_in 0 pin = up ∧
        (s.blk.fld .GPIO_FUNC_func pin = 0 → s.blk.pinDrive pin = none → (s.blk.fld .GPIO_EDGE_sel 0).testBit (2 * pin + (if up then 0 else 1)) = true →
          t.blk.bit .GPIO_INT_edge 0 pin = true) ∧
        ((s.blk.fld .GPIO_EDGE_sel 0).testBit (2 * pin + (if up then 0 else 1)) = false ∨ (s.blk.pinDrive pin).isSome = true →
          t.blk.fld .GPIO_INT_edge 0 = s.blk.fld .GPIO_INT_edge 0) ∧
        OnlyFieldsIrq s t [(.GPIO_IN_in, 0), (.GPIO_INT_edge, 0)]) ∧
    (s.blk.pinSwitches.find pin = none → s.blk.bit .GPIO_IN_in 0 pin = up → Runs (.gpioEdge pin up) s fun t => OnlyFields s t []) ∧
    (∀ p, s.blk.pinSwitches.find pin = some p → p.old = 0 →
      Runs (.gpioEdge pin up) s fun t => t.blk.pinSwitches.find pin = some { p with pad := some up } ∧
        t.blk.fields = s.blk.fields)) ∧
  (∀ (s : State) (pin : Fin 16), s.blk.pinSwitches.find pin = none → s.blk.powerHold = false → s.blk.jtagActs ≠ .extest →
    s.blk.fld .GPIO_FUNC_func pin = 0 → (s.blk.readReg .GPIO_IN 0).testBit pin =
      if s.blk.bit .GPIO_OE_oe 0 pin then s.blk.bit .GPIO_OUT_out 0 pin else s.blk.bit .GPIO_IN_in 0 pin)

/-! ### JTAG (R433, R440, R495) -/

/-- R495: BYPASS, IDCODE and SAMPLE/PRELOAD work in every state; where R433 allows debug, EXTEST drives the pins from the
boundary register, BAR_ACCESS reaches the windows, the Obsidian path takes commands and RESET_REQ requests a reset no wider
than its entry; elsewhere they act as BYPASS. In the hold of R505 the port shifts nothing out. What the bypass register
shifts out is IEEE 1149.1's (PRESUMED, log entry 75); an access that is not aligned reaches no register (the model's choice,
log entry 13). R495: where debug is allowed, DEBUG_TRANSPORT puts the RISC-V debug module on the port; what the module does
the spec does not give, and the command stops there. -/
def Obligations.JtagInstructions : Prop :=
  ((∀ (s : State) (b : BitVec 1) (sampled data : Nat),
    (s.blk.jtagActs ≠ .extest → s.blk.powerHold = false →
      Runs (.bypass b) s (fun t => t = { s with blk := { s.blk with jtagIr := 0xFF }.emit (.jtag 0) }) ∧
      Runs .idcode s (fun t =>
        t = { s with blk := { s.blk with jtagIr := 0x01 }.emit (.jtag (0x10410001 + 2 * (Config.jtagManufacturer % 2048))) }) ∧
      Runs (.samplePreload sampled data) s (fun t =>
        t = { s with blk := { s.blk with jtagIr := 0x02, boundary := data }.emit (.jtag sampled) })) ∧
    (s.blk.jtagActs ≠ .extest → s.blk.powerHold = true →
      Runs (.bypass b) s (fun t => t = { s with blk := { s.blk with jtagIr := 0xFF } }) ∧
      Runs .idcode s fun t => t = { s with blk := { s.blk with jtagIr := 0x01 } }) ∧
    (s.blk.jtagActs = .extest → Runs (.bypass b) s fun t => t.blk.jtagActs = .bypass ∧
      OnlyFields { s with blk := { s.blk with jtagIr := 0xFF } } t [] ∧
      (s.blk.powerHold = false → .jtag 0 ∈ t.blk.out ∧
        ∀ m : ElsId, s.blk.padOf (.elsEn m) ≠ some (s.blk.elsEn m) → .pin (.elsEn m) (s.blk.elsEn m) ∈ t.blk.out))) ∧
  (∀ (s : State) (i : Instr) (code data : Nat) (two : Bool) (a : BitVec 30) (w : Option (BitVec 32)) (op : BitVec 4)
    (index : BitVec 8) (level : BitVec 3) (die : BitVec 2) (tile : BitVec 5),
    (code, i) ∈ [(0x00, Instr.extest data), (0x10, Instr.debugTransport), (0x11, Instr.barAccess two a w),
      (0x12, Instr.obsidianCommandPath op index), (0x20, Instr.resetReq level die tile), (0x30, Instr.scanEntry)] →
    s.blk.debugOpen = false → s.blk.powerHold = false →
    Runs i s fun t => t = { s with blk := { s.blk with jtagIr := code }.emit (.jtag 0) }) ∧
  (∀ (s : State) (data : Nat) (a : BitVec 30) (w : BitVec 32) (op : BitVec 4) (index : BitVec 8),
    s.blk.debugOpen = true →
    Runs (.extest data) s (fun t => t.blk.jtagActs = .extest ∧
      OnlyFields { s with blk := { s.blk with jtagIr := 0x00, boundary := data } } t [] ∧
      (∀ m : ElsId, t.blk.padOf (.elsEn m) = Config.boundaryPad data (16 + m)) ∧
      (s.blk.powerHold = false → t.blk.padOf .ppsOut = Config.boundaryPad data 32 ∧
        ∀ pin : Fin 16, t.blk.pinDrive pin = Config.boundaryPad data pin)) ∧
    (∀ (r : Reg) (i : Nat), a.toNat % 4 = 0 → Answers s.blk (a.toNat % 2 ^ 26) r i false → r.info.wide = false →
      (r ≠ .I2C_DATA → s.blk.jtagActs ≠ .extest → s.blk.powerHold = false → Runs (.barAccess false a none) s fun t =>
        t.blk.out.head? = some (.jtag ({ s.blk with jtagIr := 0x11 }.readReg r i))) ∧
      (actingReg r = false → Runs (.barAccess false a (some w)) s fun t =>
        ∀ f ∈ r.info.fields, t.blk.fld f i = accessLeaves (f.accessAt i) f.info.width (s.blk.fld f i)
          (w.toNat / 2 ^ f.info.lo % 2 ^ f.info.width))) ∧
    (a.toNat % 4 ≠ 0 → (addrDomain (a.toNat % 2 ^ 26)).any s.blk.isolated = false → Runs (.barAccess false a (some w)) s fun t =>
      OnlyFields { s with blk := { s.blk with jtagIr := 0x11 } } t []) ∧
    (s.blk.flag .OBS_CMD_STATUS_busy 0 = true → Runs (.obsidianCommandPath op index) s fun t =>
      t.blk.flag .OBS_INT_cmd_reject 0 = true ∧
      OnlyFieldsIrq { s with blk := { s.blk with jtagIr := 0x12 } } t [(.OBS_INT_cmd_reject, 0)]) ∧
    (s.blk.flag .OBS_CMD_STATUS_busy 0 = false → 1 ≤ op.toNat → op.toNat ≤ 8 →
      Runs (.obsidianCommandPath op index) s fun t => t.blk.obsCmd = some (op.toNat, index.toNat, .jtag) ∧
        t.blk.flag .OBS_CMD_STATUS_busy 0 = true)) ∧
  (∀ (s : State) (level : BitVec 3) (die : BitVec 2) (tile : BitVec 5), s.blk.debugOpen = true →
    (4 < level.toNat ∨ level.toNat < s.blk.levelOf 5 →
      Runs (.resetReq level die tile) s fun t => OnlyFields { s with blk := { s.blk with jtagIr := 0x20 } } t []) ∧
    (level.toNat ≤ 4 → s.blk.levelOf 5 ≤ level.toNat → s.blk.resets = [] → s.blk.bist = none →
      (level = 2 → s.blk.domState (156 + die.toNat) ≠ 0) → (level = 3 → s.blk.domState tile.toNat ≠ 0) →
      Runs (.resetReq level die tile) s fun t => t.blk.fld .RSTC_CAUSE_src 0 = 5 ∧
        t.blk.fld .RSTC_CAUSE_level 0 = level.toNat ∧
        (t.blk.resets.map fun r => (r.level, r.released)) = [(level.toNat, false)]))) ∧
  (∀ s : State, s.blk.debugOpen = true → exec .debugTransport s = .refused .debugTransport)

/-! ### The block as a whole -/

/-- A step runs the command at the front of the queue on the state with the queue's rest, and no command touches the queue. On
an empty queue the block's own time passes (the model's choice, log entry 2): the fuses and the store are as they were. -/
def Obligations.StepTakesFrontCommand : Prop :=
  (∀ (s : State) (c : Instr) (rest : List Instr), s.pending = c :: rest → step s = exec c { s with pending := rest }) ∧
  (∀ (s t : State) (c : Instr), exec c s = .next t → t.pending = s.pending) ∧
  (∀ s : State, s.pending = [] → s.blk.wishes = [] → ∃ t, step s = .next t ∧ t.pending = [] ∧ t.fuses = s.fuses ∧
    t.blk.hbm = s.blk.hbm ∧ t.blk.now = s.blk.now + 1)

/-- The state after reset: nothing waits, every register field reads its reset value, the store lists nothing, and the fuses are
unprogrammed (the fuses of a new part, and the values of registers for which the spec gives none, are the model's choice,
log entries 5 to 8). R502's value of I2C_TGT_CFG, R487's armed vectors, R346's raw counter and R485's settings are among
them. -/
def Obligations.ResetState : Prop :=
  State.reset.pending = [] ∧ State.reset.fuses = Fuses.blank ∧ State.reset.blk.hbm = [] ∧
  (∀ a, State.reset.blk.hbm.get 0 a = 0) ∧
  (∀ (f : Fld) (i : Nat), State.reset.blk.fld f i = f.resetAt i) ∧
  State.reset.blk.regRaw .I2C_TGT_CFG 0 = 0xCC ∧ State.reset.blk.fld .MGT_IRQ_ARMED_armed 0 = 2 ^ 64 - 1 ∧
  State.reset.blk.fld .QTZ_RAW_raw 0 = 0 ∧ State.reset.blk.regRaw .RSTC_CAUSE 0 = 0 ∧
  State.reset.blk.timeCfg = ⟨100, 8, 1000, 16, 4295, false, none⟩ ∧
  State.reset.blk.frames = [] ∧ State.reset.blk.copies = [] ∧ State.reset.blk.contexts = [] ∧ State.reset.blk.requests = []

/-- Every command completes from every state and with every operand, but for DEBUG_TRANSPORT where debug is allowed, whose
effect the spec does not give (R433, R495), with no effect on the queue, and on the fuses only where it is a command of
Obsidian that programs them (R436). It names all the forms of the command table: the result of each is the matter of the
statements of its family. -/
def Obligations.CommandsComplete : Prop :=
  ∀ (c : Instr) (s : State), Completes c s →
    Runs c s fun t => t.pending = s.pending ∧ (programsFuses c = false → t.fuses = s.fuses)

/-- R432 to R436, R439, R446: whatever the block does, a step from fuses as a part can have them leaves such fuses, and undoes
none of them: the life cycle never goes back, keys, levels and revocations stay, minimum versions and repairs never sink, a
signing key is left, and the destroyed secret stays so. -/
def Obligations.FusesOnlyProgrammed : Prop :=
  ∀ s t : State, FusesSound s.fuses → step s = .next t → FusesSound t.fuses ∧ FusesGrow s.fuses t.fuses

/-- The fuses at reset are as a part can have them. -/
def Obligations.FusesSoundAtReset : Prop :=
  FusesSound State.reset.fuses
end

