-- ==== Sys2Proof/Laws/Tab.lean ====
section
/-!
SUPPORT. What the sparse tables do: a read after a write, a read elsewhere, and the canonical form that every table
operation keeps. The reading laws hold of every list, in canonical form or not.
-/

namespace Sys2Proof.Machine

variable {α : Type}

theorem Tab.find_put (t : Tab α) (k j : Nat) (v : α) : (t.put k v).find j = if j = k then some v else t.find j := by
  induction t with
  | nil =>
    rcases eq_or_ne j k with h | h
    · simp [Tab.put, Tab.find, h]
    · simp [Tab.put, Tab.find, h, h.symm]
  | cons a t ih =>
    obtain ⟨a, w⟩ := a
    rcases eq_or_ne a k with h1 | h1
    · subst h1
      rcases eq_or_ne j a with h | h
      · simp [Tab.put, Tab.find, h]
      · simp [Tab.put, Tab.find, h, h.symm]
    · rcases eq_or_ne j k with h | h
      · subst h
        by_cases h2 : j < a <;> simp [Tab.put, Tab.find, h1, h2, ih]
      · by_cases h2 : k < a <;> simp [Tab.put, Tab.find, h1, h2, ih, h, h.symm]

theorem Tab.find_del (t : Tab α) (k j : Nat) : (t.del k).find j = if j = k then none else t.find j := by
  induction t with
  | nil => simp [Tab.del, Tab.find]
  | cons a t ih =>
    obtain ⟨a, w⟩ := a
    rcases eq_or_ne a k with h1 | h1
    · subst h1
      rcases eq_or_ne j a with h | h
      · subst h; simpa [Tab.del] using ih
      · simp [Tab.del, Tab.find, h, h.symm, ih]
    · rcases eq_or_ne j a with h | h
      · subst h; simp [Tab.del, Tab.find, h1]
      · simp [Tab.del, Tab.find, h1, h.symm, ih]

/-- A read after a write: the value at its key, what was there before at every other. -/
theorem Tab.get_set [DecidableEq α] (t : Tab α) (d e : α) (k j : Nat) (v : α) (h : j = k → e = d) :
    (t.set d k v).get e j = if j = k then v else t.get e j := by
  unfold Tab.set Tab.get
  split_ifs with hv hj hj
  · simp [Tab.find_del, hj, h hj, hv]
  · simp [Tab.find_del, hj]
  · simp [Tab.find_put, hj]
  · simp [Tab.find_put, hj]

theorem Tab.find_put_self (t : Tab α) (k : Nat) (v : α) : (t.put k v).find k = some v := by simp [Tab.find_put]

theorem Tab.find_del_self (t : Tab α) (k : Nat) : (t.del k).find k = none := by simp [Tab.find_del]

/-! ### The canonical form -/

/-- Every key listed is above `m`. -/
def Tab.above (m : Nat) (t : Tab α) : Prop := ∀ kv ∈ t, m < kv.1

theorem Tab.wf_cons [DecidableEq α] (d : Nat → α) (k : Nat) (v : α) (t : Tab α) :
    Tab.wf d ((k, v) :: t) = true ↔ v ≠ d k ∧ Tab.above k t ∧ Tab.wf d t = true := by
  induction t generalizing k v with
  | nil => simp [Tab.wf, Tab.above]
  | cons a t ih =>
    obtain ⟨k', v'⟩ := a
    have h1 : Tab.wf d ((k, v) :: (k', v') :: t) = (decide (k < k') && decide (v ≠ d k) && Tab.wf d ((k', v') :: t)) := rfl
    rw [h1]
    simp only [Bool.and_eq_true, decide_eq_true_eq, ih k' v', Tab.above, List.forall_mem_cons]
    constructor
    · rintro ⟨⟨a, b⟩, c, e, f⟩
      exact ⟨b, ⟨a, fun kv h => lt_trans a (e kv h)⟩, c, e, f⟩
    · rintro ⟨b, ⟨a, -⟩, c, e, f⟩
      exact ⟨⟨a, b⟩, c, e, f⟩

theorem Tab.above_put (t : Tab α) (m k : Nat) (v : α) (hm : m < k) (h : Tab.above m t) : Tab.above m (t.put k v) := by
  induction t with
  | nil => simpa [Tab.put, Tab.above] using hm
  | cons a t ih =>
    obtain ⟨a, w⟩ := a
    simp only [Tab.above, List.forall_mem_cons] at h ih
    simp only [Tab.put]
    split_ifs <;> simp only [Tab.above, List.forall_mem_cons]
    · exact ⟨hm, h.2⟩
    · exact ⟨hm, h⟩
    · exact ⟨h.1, ih h.2⟩

theorem Tab.above_del (t : Tab α) (m k : Nat) (h : Tab.above m t) : Tab.above m (t.del k) := by
  induction t with
  | nil => simpa [Tab.del] using h
  | cons a t ih =>
    obtain ⟨a, w⟩ := a
    simp only [Tab.above, List.forall_mem_cons] at h ih
    simp only [Tab.del]
    split_ifs
    · exact ih h.2
    · simp only [Tab.above, List.forall_mem_cons]; exact ⟨h.1, ih h.2⟩

theorem Tab.wf_put [DecidableEq α] (d : Nat → α) (t : Tab α) (k : Nat) (v : α) (hv : v ≠ d k) (h : Tab.wf d t = true) :
    Tab.wf d (t.put k v) = true := by
  induction t with
  | nil => simpa [Tab.put, Tab.wf] using hv
  | cons a t ih =>
    obtain ⟨a, w⟩ := a
    rw [Tab.wf_cons] at h
    simp only [Tab.put]
    split_ifs with h1 h2
    · subst h1; rw [Tab.wf_cons]; exact ⟨hv, h.2⟩
    · rw [Tab.wf_cons, Tab.wf_cons]
      refine ⟨hv, ?_, h⟩
      simp only [Tab.above, List.forall_mem_cons]
      exact ⟨h2, fun kv hk => lt_trans h2 (h.2.1 kv hk)⟩
    · rw [Tab.wf_cons]
      exact ⟨h.1, Tab.above_put t a k v (by omega) h.2.1, ih h.2.2⟩

theorem Tab.wf_del [DecidableEq α] (d : Nat → α) (t : Tab α) (k : Nat) (h : Tab.wf d t = true) :
    Tab.wf d (t.del k) = true := by
  induction t with
  | nil => simp [Tab.del, Tab.wf]
  | cons a t ih =>
    obtain ⟨a, w⟩ := a
    rw [Tab.wf_cons] at h
    simp only [Tab.del]
    split_ifs
    · exact ih h.2.2
    · rw [Tab.wf_cons]; exact ⟨h.1, Tab.above_del t a k h.2.1, ih h.2.2⟩

/-- A write keeps the canonical form. -/
theorem Tab.wf_set [DecidableEq α] (d : Nat → α) (t : Tab α) (k : Nat) (v : α) (h : Tab.wf d t = true) :
    Tab.wf d (t.set (d k) k v) = true := by
  unfold Tab.set
  split_ifs with hv
  · exact Tab.wf_del d t k h
  · exact Tab.wf_put d t k v hv h

theorem Tab.above_filter (t : Tab α) (m : Nat) (p : Nat × α → Bool) (h : Tab.above m t) : Tab.above m (t.filter p) :=
  fun kv hk => h kv (List.mem_filter.mp hk).1

/-- Leaving entries out keeps the canonical form. -/
theorem Tab.wf_filter [DecidableEq α] (d : Nat → α) (t : Tab α) (p : Nat × α → Bool) (h : Tab.wf d t = true) :
    Tab.wf d (t.filter p) = true := by
  induction t with
  | nil => simp [Tab.wf]
  | cons a t ih =>
    obtain ⟨a, w⟩ := a
    rw [Tab.wf_cons] at h
    rw [List.filter_cons]
    split_ifs
    · rw [Tab.wf_cons]; exact ⟨h.1, Tab.above_filter t a p h.2.1, ih h.2.2⟩
    · exact ih h.2.2

/-- Many writes, one after the other, keep the canonical form. -/
theorem Tab.wf_foldl_set [DecidableEq α] {β : Type} (d : α) (g : β → Nat) (w : β → α) (bs : List β) (t : Tab α)
    (h : Tab.wf (fun _ => d) t = true) :
    Tab.wf (fun _ => d) (bs.foldl (fun (t : Tab α) b => t.set d (g b) (w b)) t) = true := by
  induction bs generalizing t with
  | nil => exact h
  | cons b bs ih => exact ih _ (Tab.wf_set (fun _ => d) t (g b) (w b) h)

end Sys2Proof.Machine
end

