-- ==== Sys2Proof/Laws/State.lean ====
section
/-!
SUPPORT. What the named updates of the block do, field by field: a register field read after a write, and the parts of
the block that an update leaves as they were. An event raised, or a count, changes register fields and what has been
sent, and nothing else.
-/

namespace Sys2Proof.Machine

/-! ### Register fields -/

theorem fkey_inj (f g : Fld) (i j : Nat) (h : fkey f i = fkey g j) : f = g ∧ i = j := by
  have hf : f.ctorIdx < 1024 := by cases f <;> decide
  have hg : g.ctorIdx < 1024 := by cases g <;> decide
  unfold fkey at h
  have h1 : f.ctorIdx = g.ctorIdx := by omega
  have h2 : i = j := by omega
  refine ⟨?_, h2⟩
  rw [← Fld.ofNat_ctorIdx f, h1, Fld.ofNat_ctorIdx]

namespace Blk

variable (s : Blk)

/-- A register field after a write: the value cut to the field's width where the field is the one written. -/
theorem fld_setFld (f g : Fld) (i j v : Nat) :
    (s.setFld f i v).fld g j = if g = f ∧ j = i then v % 2 ^ f.info.width else s.fld g j := by
  unfold fld setFld
  rw [Tab.get_set]
  · by_cases h : g = f ∧ j = i
    · rw [if_pos h, h.1, h.2, if_pos rfl]
    · rw [if_neg h, if_neg fun e => h (fkey_inj _ _ _ _ e)]
  · intro e
    obtain ⟨rfl, rfl⟩ := fkey_inj _ _ _ _ e
    rfl

@[simp] theorem fld_setFld_self (f : Fld) (i v : Nat) : (s.setFld f i v).fld f i = v % 2 ^ f.info.width := by
  simp [fld_setFld]

@[simp] theorem fld_setFld_ne (f g : Fld) (i j v : Nat) (h : g ≠ f) : (s.setFld f i v).fld g j = s.fld g j := by
  simp [fld_setFld, h]

theorem fld_setFld_idx (f g : Fld) (i j v : Nat) (h : j ≠ i) : (s.setFld f i v).fld g j = s.fld g j := by
  simp [fld_setFld, h]

/-- A field put back to its reset value. -/
theorem fld_clrFld (f g : Fld) (i j : Nat) :
    (s.clrFld f i).fld g j = if g = f ∧ j = i then f.resetAt i else s.fld g j := by
  unfold fld clrFld Tab.get
  rw [Tab.find_del]
  by_cases h : g = f ∧ j = i
  · rw [if_pos h, h.1, h.2, if_pos rfl]; rfl
  · rw [if_neg h, if_neg fun e => h (fkey_inj _ _ _ _ e)]

/-- A change of anything but the register fields leaves every field as it was. -/
theorem fld_congr {s t : Blk} (h : t.fields = s.fields) (f : Fld) (i : Nat) : t.fld f i = s.fld f i := by
  unfold fld; rw [h]

@[simp] theorem setFld_links (f : Fld) (i v : Nat) : (s.setFld f i v).links = s.links := rfl
@[simp] theorem setFld_tables (f : Fld) (i v : Nat) : (s.setFld f i v).tables = s.tables := rfl
@[simp] theorem setFld_learn (f : Fld) (i v : Nat) : (s.setFld f i v).learn = s.learn := rfl
@[simp] theorem setFld_lockAt (f : Fld) (i v : Nat) : (s.setFld f i v).lockAt = s.lockAt := rfl
@[simp] theorem setFld_placed (f : Fld) (i v : Nat) : (s.setFld f i v).placed = s.placed := rfl
@[simp] theorem setFld_transfers (f : Fld) (i v : Nat) : (s.setFld f i v).transfers = s.transfers := rfl
@[simp] theorem setFld_cmapFrom (f : Fld) (i v : Nat) : (s.setFld f i v).cmapFrom = s.cmapFrom := rfl
@[simp] theorem setFld_ppsFrom (f : Fld) (i v : Nat) : (s.setFld f i v).ppsFrom = s.ppsFrom := rfl
@[simp] theorem setFld_istOver (f : Fld) (i v : Nat) : (s.setFld f i v).istOver = s.istOver := rfl
@[simp] theorem setFld_hot (f : Fld) (i v : Nat) : (s.setFld f i v).hot = s.hot := rfl
@[simp] theorem setFld_mirrorSent (f : Fld) (i v : Nat) : (s.setFld f i v).mirrorSent = s.mirrorSent := rfl
@[simp] theorem setFld_cplHeld (f : Fld) (i v : Nat) : (s.setFld f i v).cplHeld = s.cplHeld := rfl
@[simp] theorem setFld_ppsRose (f : Fld) (i v : Nat) : (s.setFld f i v).ppsRose = s.ppsRose := rfl
@[simp] theorem setFld_loadDue (f : Fld) (i v : Nat) : (s.setFld f i v).loadDue = s.loadDue := rfl
@[simp] theorem setFld_servo (f : Fld) (i v : Nat) : (s.setFld f i v).servo = s.servo := rfl
@[simp] theorem setFld_jobTurn (f : Fld) (i v : Nat) : (s.setFld f i v).jobTurn = s.jobTurn := rfl
@[simp] theorem setFld_sprayPtr (f : Fld) (i v : Nat) : (s.setFld f i v).sprayPtr = s.sprayPtr := rfl
@[simp] theorem setFld_frames (f : Fld) (i v : Nat) : (s.setFld f i v).frames = s.frames := rfl
@[simp] theorem setFld_copies (f : Fld) (i v : Nat) : (s.setFld f i v).copies = s.copies := rfl
@[simp] theorem setFld_nextFrame (f : Fld) (i v : Nat) : (s.setFld f i v).nextFrame = s.nextFrame := rfl
@[simp] theorem setFld_agateLanes (f : Fld) (i v : Nat) : (s.setFld f i v).agateLanes = s.agateLanes := rfl
@[simp] theorem setFld_agateDirs (f : Fld) (i v : Nat) : (s.setFld f i v).agateDirs = s.agateDirs := rfl
@[simp] theorem setFld_basalt (f : Fld) (i v : Nat) : (s.setFld f i v).basalt = s.basalt := rfl
@[simp] theorem setFld_spills (f : Fld) (i v : Nat) : (s.setFld f i v).spills = s.spills := rfl
@[simp] theorem setFld_queues (f : Fld) (i v : Nat) : (s.setFld f i v).queues = s.queues := rfl
@[simp] theorem setFld_buckets (f : Fld) (i v : Nat) : (s.setFld f i v).buckets = s.buckets := rfl
@[simp] theorem setFld_feld (f : Fld) (i v : Nat) : (s.setFld f i v).feld = s.feld := rfl
@[simp] theorem setFld_engines (f : Fld) (i v : Nat) : (s.setFld f i v).engines = s.engines := rfl
@[simp] theorem setFld_groups (f : Fld) (i v : Nat) : (s.setFld f i v).groups = s.groups := rfl
@[simp] theorem setFld_members (f : Fld) (i v : Nat) : (s.setFld f i v).members = s.members := rfl
@[simp] theorem setFld_groupHw (f : Fld) (i v : Nat) : (s.setFld f i v).groupHw = s.groupHw := rfl
@[simp] theorem setFld_fences (f : Fld) (i v : Nat) : (s.setFld f i v).fences = s.fences := rfl
@[simp] theorem setFld_contexts (f : Fld) (i v : Nat) : (s.setFld f i v).contexts = s.contexts := rfl
@[simp] theorem setFld_repl (f : Fld) (i v : Nat) : (s.setFld f i v).repl = s.repl := rfl
@[simp] theorem setFld_journal (f : Fld) (i v : Nat) : (s.setFld f i v).journal = s.journal := rfl
@[simp] theorem setFld_linkBusy (f : Fld) (i v : Nat) : (s.setFld f i v).linkBusy = s.linkBusy := rfl
@[simp] theorem setFld_linkDrops (f : Fld) (i v : Nat) : (s.setFld f i v).linkDrops = s.linkDrops := rfl
@[simp] theorem setFld_imgMaxFrame (f : Fld) (i v : Nat) : (s.setFld f i v).imgMaxFrame = s.imgMaxFrame := rfl
@[simp] theorem setFld_imgLcf (f : Fld) (i v : Nat) : (s.setFld f i v).imgLcf = s.imgLcf := rfl
@[simp] theorem setFld_cmapSeq (f : Fld) (i v : Nat) : (s.setFld f i v).cmapSeq = s.cmapSeq := rfl
@[simp] theorem setFld_cmapFrame (f : Fld) (i v : Nat) : (s.setFld f i v).cmapFrame = s.cmapFrame := rfl
@[simp] theorem setFld_qOffset (f : Fld) (i v : Nat) : (s.setFld f i v).qOffset = s.qOffset := rfl
@[simp] theorem setFld_hbm (f : Fld) (i v : Nat) : (s.setFld f i v).hbm = s.hbm := rfl
@[simp] theorem setFld_lineMeta (f : Fld) (i v : Nat) : (s.setFld f i v).lineMeta = s.lineMeta := rfl
@[simp] theorem setFld_stale (f : Fld) (i v : Nat) : (s.setFld f i v).stale = s.stale := rfl
@[simp] theorem setFld_regions (f : Fld) (i v : Nat) : (s.setFld f i v).regions = s.regions := rfl
@[simp] theorem setFld_sweeps (f : Fld) (i v : Nat) : (s.setFld f i v).sweeps = s.sweeps := rfl
@[simp] theorem setFld_gnsCmd (f : Fld) (i v : Nat) : (s.setFld f i v).gnsCmd = s.gnsCmd := rfl
@[simp] theorem setFld_updates (f : Fld) (i v : Nat) : (s.setFld f i v).updates = s.updates := rfl
@[simp] theorem setFld_requests (f : Fld) (i v : Nat) : (s.setFld f i v).requests = s.requests := rfl
@[simp] theorem setFld_nextReq (f : Fld) (i v : Nat) : (s.setFld f i v).nextReq = s.nextReq := rfl
@[simp] theorem setFld_memWait (f : Fld) (i v : Nat) : (s.setFld f i v).memWait = s.memWait := rfl
@[simp] theorem setFld_ordWait (f : Fld) (i v : Nat) : (s.setFld f i v).ordWait = s.ordWait := rfl
@[simp] theorem setFld_ordTaken (f : Fld) (i v : Nat) : (s.setFld f i v).ordTaken = s.ordTaken := rfl
@[simp] theorem setFld_ordApplied (f : Fld) (i v : Nat) : (s.setFld f i v).ordApplied = s.ordApplied := rfl
@[simp] theorem setFld_gateways (f : Fld) (i v : Nat) : (s.setFld f i v).gateways = s.gateways := rfl
@[simp] theorem setFld_shards (f : Fld) (i v : Nat) : (s.setFld f i v).shards = s.shards := rfl
@[simp] theorem setFld_ownWrites (f : Fld) (i v : Nat) : (s.setFld f i v).ownWrites = s.ownWrites := rfl
@[simp] theorem setFld_nextOwn (f : Fld) (i v : Nat) : (s.setFld f i v).nextOwn = s.nextOwn := rfl
@[simp] theorem setFld_restores (f : Fld) (i v : Nat) : (s.setFld f i v).restores = s.restores := rfl
@[simp] theorem setFld_replays (f : Fld) (i v : Nat) : (s.setFld f i v).replays = s.replays := rfl
@[simp] theorem setFld_nextWork (f : Fld) (i v : Nat) : (s.setFld f i v).nextWork = s.nextWork := rfl
@[simp] theorem setFld_streams (f : Fld) (i v : Nat) : (s.setFld f i v).streams = s.streams := rfl
@[simp] theorem setFld_rings (f : Fld) (i v : Nat) : (s.setFld f i v).rings = s.rings := rfl
@[simp] theorem setFld_cqTail (f : Fld) (i v : Nat) : (s.setFld f i v).cqTail = s.cqTail := rfl
@[simp] theorem setFld_busMaster (f : Fld) (i v : Nat) : (s.setFld f i v).busMaster = s.busMaster := rfl
@[simp] theorem setFld_cplWait (f : Fld) (i v : Nat) : (s.setFld f i v).cplWait = s.cplWait := rfl
@[simp] theorem setFld_recentCe (f : Fld) (i v : Nat) : (s.setFld f i v).recentCe = s.recentCe := rfl
@[simp] theorem setFld_wishes (f : Fld) (i v : Nat) : (s.setFld f i v).wishes = s.wishes := rfl
@[simp] theorem setFld_sweepWait (f : Fld) (i v : Nat) : (s.setFld f i v).sweepWait = s.sweepWait := rfl
@[simp] theorem setFld_foi (f : Fld) (i v : Nat) : (s.setFld f i v).foi = s.foi := rfl
@[simp] theorem setFld_foiCmd (f : Fld) (i v : Nat) : (s.setFld f i v).foiCmd = s.foiCmd := rfl
@[simp] theorem setFld_foiHalves (f : Fld) (i v : Nat) : (s.setFld f i v).foiHalves = s.foiHalves := rfl
@[simp] theorem setFld_foiHold (f : Fld) (i v : Nat) : (s.setFld f i v).foiHold = s.foiHold := rfl
@[simp] theorem setFld_qStep (f : Fld) (i v : Nat) : (s.setFld f i v).qStep = s.qStep := rfl
@[simp] theorem setFld_ppsOut (f : Fld) (i v : Nat) : (s.setFld f i v).ppsOut = s.ppsOut := rfl
@[simp] theorem setFld_txts (f : Fld) (i v : Nat) : (s.setFld f i v).txts = s.txts := rfl
@[simp] theorem setFld_snap (f : Fld) (i v : Nat) : (s.setFld f i v).snap = s.snap := rfl
@[simp] theorem setFld_shadow (f : Fld) (i v : Nat) : (s.setFld f i v).shadow = s.shadow := rfl
@[simp] theorem setFld_trcLfsr (f : Fld) (i v : Nat) : (s.setFld f i v).trcLfsr = s.trcLfsr := rfl
@[simp] theorem setFld_trcNext (f : Fld) (i v : Nat) : (s.setFld f i v).trcNext = s.trcNext := rfl
@[simp] theorem setFld_trcBuf (f : Fld) (i v : Nat) : (s.setFld f i v).trcBuf = s.trcBuf := rfl
@[simp] theorem setFld_trcRate (f : Fld) (i v : Nat) : (s.setFld f i v).trcRate = s.trcRate := rfl
@[simp] theorem setFld_mrgFired (f : Fld) (i v : Nat) : (s.setFld f i v).mrgFired = s.mrgFired := rfl
@[simp] theorem setFld_imgCmd (f : Fld) (i v : Nat) : (s.setFld f i v).imgCmd = s.imgCmd := rfl
@[simp] theorem setFld_window (f : Fld) (i v : Nat) : (s.setFld f i v).window = s.window := rfl
@[simp] theorem setFld_flash (f : Fld) (i v : Nat) : (s.setFld f i v).flash = s.flash := rfl
@[simp] theorem setFld_ramStage (f : Fld) (i v : Nat) : (s.setFld f i v).ramStage = s.ramStage := rfl
@[simp] theorem setFld_dlLength (f : Fld) (i v : Nat) : (s.setFld f i v).dlLength = s.dlLength := rfl
@[simp] theorem setFld_ramParts (f : Fld) (i v : Nat) : (s.setFld f i v).ramParts = s.ramParts := rfl
@[simp] theorem setFld_heldDigests (f : Fld) (i v : Nat) : (s.setFld f i v).heldDigests = s.heldDigests := rfl
@[simp] theorem setFld_roll (f : Fld) (i v : Nat) : (s.setFld f i v).roll = s.roll := rfl
@[simp] theorem setFld_rowsDue (f : Fld) (i v : Nat) : (s.setFld f i v).rowsDue = s.rowsDue := rfl
@[simp] theorem setFld_tblWaits (f : Fld) (i v : Nat) : (s.setFld f i v).tblWaits = s.tblWaits := rfl
@[simp] theorem setFld_tileLoading (f : Fld) (i v : Nat) : (s.setFld f i v).tileLoading = s.tileLoading := rfl
@[simp] theorem setFld_loaded (f : Fld) (i v : Nat) : (s.setFld f i v).loaded = s.loaded := rfl
@[simp] theorem setFld_bootWrite (f : Fld) (i v : Nat) : (s.setFld f i v).bootWrite = s.bootWrite := rfl
@[simp] theorem setFld_resets (f : Fld) (i v : Nat) : (s.setFld f i v).resets = s.resets := rfl
@[simp] theorem setFld_startDue (f : Fld) (i v : Nat) : (s.setFld f i v).startDue = s.startDue := rfl
@[simp] theorem setFld_coldStart (f : Fld) (i v : Nat) : (s.setFld f i v).coldStart = s.coldStart := rfl
@[simp] theorem setFld_tableLoads (f : Fld) (i v : Nat) : (s.setFld f i v).tableLoads = s.tableLoads := rfl
@[simp] theorem setFld_wdtHalf (f : Fld) (i v : Nat) : (s.setFld f i v).wdtHalf = s.wdtHalf := rfl
@[simp] theorem setFld_resetLow (f : Fld) (i v : Nat) : (s.setFld f i v).resetLow = s.resetLow := rfl
@[simp] theorem setFld_clkMode (f : Fld) (i v : Nat) : (s.setFld f i v).clkMode = s.clkMode := rfl
@[simp] theorem setFld_powerHold (f : Fld) (i v : Nat) : (s.setFld f i v).powerHold = s.powerHold := rfl
@[simp] theorem setFld_tripped (f : Fld) (i v : Nat) : (s.setFld f i v).tripped = s.tripped := rfl
@[simp] theorem setFld_powerQueue (f : Fld) (i v : Nat) : (s.setFld f i v).powerQueue = s.powerQueue := rfl
@[simp] theorem setFld_sleepKa (f : Fld) (i v : Nat) : (s.setFld f i v).sleepKa = s.sleepKa := rfl
@[simp] theorem setFld_owed (f : Fld) (i v : Nat) : (s.setFld f i v).owed = s.owed := rfl
@[simp] theorem setFld_obsCmd (f : Fld) (i v : Nat) : (s.setFld f i v).obsCmd = s.obsCmd := rfl
@[simp] theorem setFld_bist (f : Fld) (i v : Nat) : (s.setFld f i v).bist = s.bist := rfl
@[simp] theorem setFld_obsRefuses (f : Fld) (i v : Nat) : (s.setFld f i v).obsRefuses = s.obsRefuses := rfl
@[simp] theorem setFld_fatal (f : Fld) (i v : Nat) : (s.setFld f i v).fatal = s.fatal := rfl
@[simp] theorem setFld_softSram (f : Fld) (i v : Nat) : (s.setFld f i v).softSram = s.softSram := rfl
@[simp] theorem setFld_softHbm (f : Fld) (i v : Nat) : (s.setFld f i v).softHbm = s.softHbm := rfl
@[simp] theorem setFld_hostRx (f : Fld) (i v : Nat) : (s.setFld f i v).hostRx = s.hostRx := rfl
@[simp] theorem setFld_hostTx (f : Fld) (i v : Nat) : (s.setFld f i v).hostTx = s.hostTx := rfl
@[simp] theorem setFld_mbxReqs (f : Fld) (i v : Nat) : (s.setFld f i v).mbxReqs = s.mbxReqs := rfl
@[simp] theorem setFld_mbxEvents (f : Fld) (i v : Nat) : (s.setFld f i v).mbxEvents = s.mbxEvents := rfl
@[simp] theorem setFld_uart (f : Fld) (i v : Nat) : (s.setFld f i v).uart = s.uart := rfl
@[simp] theorem setFld_timeCfg (f : Fld) (i v : Nat) : (s.setFld f i v).timeCfg = s.timeCfg := rfl
@[simp] theorem setFld_msixTab (f : Fld) (i v : Nat) : (s.setFld f i v).msixTab = s.msixTab := rfl
@[simp] theorem setFld_i2c (f : Fld) (i v : Nat) : (s.setFld f i v).i2c = s.i2c := rfl
@[simp] theorem setFld_pinSwitches (f : Fld) (i v : Nat) : (s.setFld f i v).pinSwitches = s.pinSwitches := rfl
@[simp] theorem setFld_boundary (f : Fld) (i v : Nat) : (s.setFld f i v).boundary = s.boundary := rfl
@[simp] theorem setFld_jtagIr (f : Fld) (i v : Nat) : (s.setFld f i v).jtagIr = s.jtagIr := rfl
@[simp] theorem setFld_hiLatch (f : Fld) (i v : Nat) : (s.setFld f i v).hiLatch = s.hiLatch := rfl
@[simp] theorem setFld_loHeld (f : Fld) (i v : Nat) : (s.setFld f i v).loHeld = s.loHeld := rfl
@[simp] theorem setFld_now (f : Fld) (i v : Nat) : (s.setFld f i v).now = s.now := rfl
@[simp] theorem setFld_fresh (f : Fld) (i v : Nat) : (s.setFld f i v).fresh = s.fresh := rfl
@[simp] theorem setFld_out (f : Fld) (i v : Nat) : (s.setFld f i v).out = s.out := rfl

/-! ### Outputs -/

@[simp] theorem fld_emit (o : Output) (f : Fld) (i : Nat) : (s.emit o).fld f i = s.fld f i := rfl
@[simp] theorem emit_fields (o : Output) : (s.emit o).fields = s.fields := rfl
@[simp] theorem emit_links (o : Output) : (s.emit o).links = s.links := rfl
@[simp] theorem emit_tables (o : Output) : (s.emit o).tables = s.tables := rfl
@[simp] theorem emit_learn (o : Output) : (s.emit o).learn = s.learn := rfl
@[simp] theorem emit_lockAt (o : Output) : (s.emit o).lockAt = s.lockAt := rfl
@[simp] theorem emit_placed (o : Output) : (s.emit o).placed = s.placed := rfl
@[simp] theorem emit_transfers (o : Output) : (s.emit o).transfers = s.transfers := rfl
@[simp] theorem emit_cmapFrom (o : Output) : (s.emit o).cmapFrom = s.cmapFrom := rfl
@[simp] theorem emit_ppsFrom (o : Output) : (s.emit o).ppsFrom = s.ppsFrom := rfl
@[simp] theorem emit_istOver (o : Output) : (s.emit o).istOver = s.istOver := rfl
@[simp] theorem emit_hot (o : Output) : (s.emit o).hot = s.hot := rfl
@[simp] theorem emit_mirrorSent (o : Output) : (s.emit o).mirrorSent = s.mirrorSent := rfl
@[simp] theorem emit_cplHeld (o : Output) : (s.emit o).cplHeld = s.cplHeld := rfl
@[simp] theorem emit_ppsRose (o : Output) : (s.emit o).ppsRose = s.ppsRose := rfl
@[simp] theorem emit_loadDue (o : Output) : (s.emit o).loadDue = s.loadDue := rfl
@[simp] theorem emit_servo (o : Output) : (s.emit o).servo = s.servo := rfl
@[simp] theorem emit_jobTurn (o : Output) : (s.emit o).jobTurn = s.jobTurn := rfl
@[simp] theorem emit_sprayPtr (o : Output) : (s.emit o).sprayPtr = s.sprayPtr := rfl
@[simp] theorem emit_frames (o : Output) : (s.emit o).frames = s.frames := rfl
@[simp] theorem emit_copies (o : Output) : (s.emit o).copies = s.copies := rfl
@[simp] theorem emit_nextFrame (o : Output) : (s.emit o).nextFrame = s.nextFrame := rfl
@[simp] theorem emit_agateLanes (o : Output) : (s.emit o).agateLanes = s.agateLanes := rfl
@[simp] theorem emit_agateDirs (o : Output) : (s.emit o).agateDirs = s.agateDirs := rfl
@[simp] theorem emit_basalt (o : Output) : (s.emit o).basalt = s.basalt := rfl
@[simp] theorem emit_spills (o : Output) : (s.emit o).spills = s.spills := rfl
@[simp] theorem emit_queues (o : Output) : (s.emit o).queues = s.queues := rfl
@[simp] theorem emit_buckets (o : Output) : (s.emit o).buckets = s.buckets := rfl
@[simp] theorem emit_feld (o : Output) : (s.emit o).feld = s.feld := rfl
@[simp] theorem emit_engines (o : Output) : (s.emit o).engines = s.engines := rfl
@[simp] theorem emit_groups (o : Output) : (s.emit o).groups = s.groups := rfl
@[simp] theorem emit_members (o : Output) : (s.emit o).members = s.members := rfl
@[simp] theorem emit_groupHw (o : Output) : (s.emit o).groupHw = s.groupHw := rfl
@[simp] theorem emit_fences (o : Output) : (s.emit o).fences = s.fences := rfl
@[simp] theorem emit_contexts (o : Output) : (s.emit o).contexts = s.contexts := rfl
@[simp] theorem emit_repl (o : Output) : (s.emit o).repl = s.repl := rfl
@[simp] theorem emit_journal (o : Output) : (s.emit o).journal = s.journal := rfl
@[simp] theorem emit_linkBusy (o : Output) : (s.emit o).linkBusy = s.linkBusy := rfl
@[simp] theorem emit_linkDrops (o : Output) : (s.emit o).linkDrops = s.linkDrops := rfl
@[simp] theorem emit_imgMaxFrame (o : Output) : (s.emit o).imgMaxFrame = s.imgMaxFrame := rfl
@[simp] theorem emit_imgLcf (o : Output) : (s.emit o).imgLcf = s.imgLcf := rfl
@[simp] theorem emit_cmapSeq (o : Output) : (s.emit o).cmapSeq = s.cmapSeq := rfl
@[simp] theorem emit_cmapFrame (o : Output) : (s.emit o).cmapFrame = s.cmapFrame := rfl
@[simp] theorem emit_qOffset (o : Output) : (s.emit o).qOffset = s.qOffset := rfl
@[simp] theorem emit_hbm (o : Output) : (s.emit o).hbm = s.hbm := rfl
@[simp] theorem emit_lineMeta (o : Output) : (s.emit o).lineMeta = s.lineMeta := rfl
@[simp] theorem emit_stale (o : Output) : (s.emit o).stale = s.stale := rfl
@[simp] theorem emit_regions (o : Output) : (s.emit o).regions = s.regions := rfl
@[simp] theorem emit_sweeps (o : Output) : (s.emit o).sweeps = s.sweeps := rfl
@[simp] theorem emit_gnsCmd (o : Output) : (s.emit o).gnsCmd = s.gnsCmd := rfl
@[simp] theorem emit_updates (o : Output) : (s.emit o).updates = s.updates := rfl
@[simp] theorem emit_requests (o : Output) : (s.emit o).requests = s.requests := rfl
@[simp] theorem emit_nextReq (o : Output) : (s.emit o).nextReq = s.nextReq := rfl
@[simp] theorem emit_memWait (o : Output) : (s.emit o).memWait = s.memWait := rfl
@[simp] theorem emit_ordWait (o : Output) : (s.emit o).ordWait = s.ordWait := rfl
@[simp] theorem emit_ordTaken (o : Output) : (s.emit o).ordTaken = s.ordTaken := rfl
@[simp] theorem emit_ordApplied (o : Output) : (s.emit o).ordApplied = s.ordApplied := rfl
@[simp] theorem emit_gateways (o : Output) : (s.emit o).gateways = s.gateways := rfl
@[simp] theorem emit_shards (o : Output) : (s.emit o).shards = s.shards := rfl
@[simp] theorem emit_ownWrites (o : Output) : (s.emit o).ownWrites = s.ownWrites := rfl
@[simp] theorem emit_nextOwn (o : Output) : (s.emit o).nextOwn = s.nextOwn := rfl
@[simp] theorem emit_restores (o : Output) : (s.emit o).restores = s.restores := rfl
@[simp] theorem emit_replays (o : Output) : (s.emit o).replays = s.replays := rfl
@[simp] theorem emit_nextWork (o : Output) : (s.emit o).nextWork = s.nextWork := rfl
@[simp] theorem emit_streams (o : Output) : (s.emit o).streams = s.streams := rfl
@[simp] theorem emit_rings (o : Output) : (s.emit o).rings = s.rings := rfl
@[simp] theorem emit_cqTail (o : Output) : (s.emit o).cqTail = s.cqTail := rfl
@[simp] theorem emit_busMaster (o : Output) : (s.emit o).busMaster = s.busMaster := rfl
@[simp] theorem emit_cplWait (o : Output) : (s.emit o).cplWait = s.cplWait := rfl
@[simp] theorem emit_recentCe (o : Output) : (s.emit o).recentCe = s.recentCe := rfl
@[simp] theorem emit_wishes (o : Output) : (s.emit o).wishes = s.wishes := rfl
@[simp] theorem emit_sweepWait (o : Output) : (s.emit o).sweepWait = s.sweepWait := rfl
@[simp] theorem emit_foi (o : Output) : (s.emit o).foi = s.foi := rfl
@[simp] theorem emit_foiCmd (o : Output) : (s.emit o).foiCmd = s.foiCmd := rfl
@[simp] theorem emit_foiHalves (o : Output) : (s.emit o).foiHalves = s.foiHalves := rfl
@[simp] theorem emit_foiHold (o : Output) : (s.emit o).foiHold = s.foiHold := rfl
@[simp] theorem emit_qStep (o : Output) : (s.emit o).qStep = s.qStep := rfl
@[simp] theorem emit_ppsOut (o : Output) : (s.emit o).ppsOut = s.ppsOut := rfl
@[simp] theorem emit_txts (o : Output) : (s.emit o).txts = s.txts := rfl
@[simp] theorem emit_snap (o : Output) : (s.emit o).snap = s.snap := rfl
@[simp] theorem emit_shadow (o : Output) : (s.emit o).shadow = s.shadow := rfl
@[simp] theorem emit_trcLfsr (o : Output) : (s.emit o).trcLfsr = s.trcLfsr := rfl
@[simp] theorem emit_trcNext (o : Output) : (s.emit o).trcNext = s.trcNext := rfl
@[simp] theorem emit_trcBuf (o : Output) : (s.emit o).trcBuf = s.trcBuf := rfl
@[simp] theorem emit_trcRate (o : Output) : (s.emit o).trcRate = s.trcRate := rfl
@[simp] theorem emit_mrgFired (o : Output) : (s.emit o).mrgFired = s.mrgFired := rfl
@[simp] theorem emit_imgCmd (o : Output) : (s.emit o).imgCmd = s.imgCmd := rfl
@[simp] theorem emit_window (o : Output) : (s.emit o).window = s.window := rfl
@[simp] theorem emit_flash (o : Output) : (s.emit o).flash = s.flash := rfl
@[simp] theorem emit_ramStage (o : Output) : (s.emit o).ramStage = s.ramStage := rfl
@[simp] theorem emit_dlLength (o : Output) : (s.emit o).dlLength = s.dlLength := rfl
@[simp] theorem emit_ramParts (o : Output) : (s.emit o).ramParts = s.ramParts := rfl
@[simp] theorem emit_heldDigests (o : Output) : (s.emit o).heldDigests = s.heldDigests := rfl
@[simp] theorem emit_roll (o : Output) : (s.emit o).roll = s.roll := rfl
@[simp] theorem emit_rowsDue (o : Output) : (s.emit o).rowsDue = s.rowsDue := rfl
@[simp] theorem emit_tblWaits (o : Output) : (s.emit o).tblWaits = s.tblWaits := rfl
@[simp] theorem emit_tileLoading (o : Output) : (s.emit o).tileLoading = s.tileLoading := rfl
@[simp] theorem emit_loaded (o : Output) : (s.emit o).loaded = s.loaded := rfl
@[simp] theorem emit_bootWrite (o : Output) : (s.emit o).bootWrite = s.bootWrite := rfl
@[simp] theorem emit_resets (o : Output) : (s.emit o).resets = s.resets := rfl
@[simp] theorem emit_startDue (o : Output) : (s.emit o).startDue = s.startDue := rfl
@[simp] theorem emit_coldStart (o : Output) : (s.emit o).coldStart = s.coldStart := rfl
@[simp] theorem emit_tableLoads (o : Output) : (s.emit o).tableLoads = s.tableLoads := rfl
@[simp] theorem emit_wdtHalf (o : Output) : (s.emit o).wdtHalf = s.wdtHalf := rfl
@[simp] theorem emit_resetLow (o : Output) : (s.emit o).resetLow = s.resetLow := rfl
@[simp] theorem emit_clkMode (o : Output) : (s.emit o).clkMode = s.clkMode := rfl
@[simp] theorem emit_powerHold (o : Output) : (s.emit o).powerHold = s.powerHold := rfl
@[simp] theorem emit_tripped (o : Output) : (s.emit o).tripped = s.tripped := rfl
@[simp] theorem emit_powerQueue (o : Output) : (s.emit o).powerQueue = s.powerQueue := rfl
@[simp] theorem emit_sleepKa (o : Output) : (s.emit o).sleepKa = s.sleepKa := rfl
@[simp] theorem emit_owed (o : Output) : (s.emit o).owed = s.owed := rfl
@[simp] theorem emit_obsCmd (o : Output) : (s.emit o).obsCmd = s.obsCmd := rfl
@[simp] theorem emit_bist (o : Output) : (s.emit o).bist = s.bist := rfl
@[simp] theorem emit_obsRefuses (o : Output) : (s.emit o).obsRefuses = s.obsRefuses := rfl
@[simp] theorem emit_fatal (o : Output) : (s.emit o).fatal = s.fatal := rfl
@[simp] theorem emit_softSram (o : Output) : (s.emit o).softSram = s.softSram := rfl
@[simp] theorem emit_softHbm (o : Output) : (s.emit o).softHbm = s.softHbm := rfl
@[simp] theorem emit_hostRx (o : Output) : (s.emit o).hostRx = s.hostRx := rfl
@[simp] theorem emit_hostTx (o : Output) : (s.emit o).hostTx = s.hostTx := rfl
@[simp] theorem emit_mbxReqs (o : Output) : (s.emit o).mbxReqs = s.mbxReqs := rfl
@[simp] theorem emit_mbxEvents (o : Output) : (s.emit o).mbxEvents = s.mbxEvents := rfl
@[simp] theorem emit_uart (o : Output) : (s.emit o).uart = s.uart := rfl
@[simp] theorem emit_timeCfg (o : Output) : (s.emit o).timeCfg = s.timeCfg := rfl
@[simp] theorem emit_msixTab (o : Output) : (s.emit o).msixTab = s.msixTab := rfl
@[simp] theorem emit_i2c (o : Output) : (s.emit o).i2c = s.i2c := rfl
@[simp] theorem emit_pinSwitches (o : Output) : (s.emit o).pinSwitches = s.pinSwitches := rfl
@[simp] theorem emit_boundary (o : Output) : (s.emit o).boundary = s.boundary := rfl
@[simp] theorem emit_jtagIr (o : Output) : (s.emit o).jtagIr = s.jtagIr := rfl
@[simp] theorem emit_hiLatch (o : Output) : (s.emit o).hiLatch = s.hiLatch := rfl
@[simp] theorem emit_loHeld (o : Output) : (s.emit o).loHeld = s.loHeld := rfl
@[simp] theorem emit_now (o : Output) : (s.emit o).now = s.now := rfl
@[simp] theorem emit_fresh (o : Output) : (s.emit o).fresh = s.fresh := rfl
@[simp] theorem emit_out (o : Output) : (s.emit o).out = o :: s.out := rfl

/-! ### Records of the numbered objects -/

@[simp] theorem fld_updLink (l : Nat) (g : LinkRec → LinkRec) (f : Fld) (i : Nat) : (s.updLink l g).fld f i = s.fld f i := rfl
@[simp] theorem fld_updFeld (l : Nat) (g : FeldLink → FeldLink) (f : Fld) (i : Nat) : (s.updFeld l g).fld f i = s.fld f i := rfl
@[simp] theorem fld_updBsl (d : Nat) (g : BasaltDie → BasaltDie) (f : Fld) (i : Nat) : (s.updBsl d g).fld f i = s.fld f i := rfl
@[simp] theorem fld_updDir (k : Nat) (g : AgateDir → AgateDir) (f : Fld) (i : Nat) : (s.updDir k g).fld f i = s.fld f i := rfl
@[simp] theorem fld_updLane (k : Nat) (g : AgateLane → AgateLane) (f : Fld) (i : Nat) : (s.updLane k g).fld f i = s.fld f i := rfl
@[simp] theorem fld_updSpill (k : Nat) (g : List SpillAsk → List SpillAsk) (f : Fld) (i : Nat) : (s.updSpill k g).fld f i = s.fld f i := rfl
@[simp] theorem fld_putFrame (k : Nat) (r : FrameRec) (f : Fld) (i : Nat) : (s.putFrame k r).fld f i = s.fld f i := rfl
@[simp] theorem fld_delFrame (k : Nat) (f : Fld) (i : Nat) : (s.delFrame k).fld f i = s.fld f i := rfl
@[simp] theorem fld_putCopy (k : Nat) (c : CopyRec) (f : Fld) (i : Nat) : (s.putCopy k c).fld f i = s.fld f i := rfl
@[simp] theorem fld_delCopy (k : Nat) (f : Fld) (i : Nat) : (s.delCopy k).fld f i = s.fld f i := rfl

theorem link_updLink (l m : Nat) (g : LinkRec → LinkRec) :
    (s.updLink l g).link m = if m = l then g (s.link l) else s.link m := Tab.get_set _ _ _ _ _ _ fun _ => rfl
theorem feldOf_updFeld (l m : Nat) (g : FeldLink → FeldLink) :
    (s.updFeld l g).feldOf m = if m = l then g (s.feldOf l) else s.feldOf m := Tab.get_set _ _ _ _ _ _ fun _ => rfl
theorem bsl_updBsl (d e : Nat) (g : BasaltDie → BasaltDie) :
    (s.updBsl d g).bsl e = if e = d then g (s.bsl d) else s.bsl e := Tab.get_set _ _ _ _ _ _ fun _ => rfl
theorem dir_updDir (k m : Nat) (g : AgateDir → AgateDir) :
    (s.updDir k g).dir m = if m = k then g (s.dir k) else s.dir m := Tab.get_set _ _ _ _ _ _ fun _ => rfl
theorem lane_updLane (k m : Nat) (g : AgateLane → AgateLane) :
    (s.updLane k g).lane m = if m = k then g (s.lane k) else s.lane m := Tab.get_set _ _ _ _ _ _ fun _ => rfl
theorem frame_putFrame (k m : Nat) (r : FrameRec) :
    (s.putFrame k r).frame? m = if m = k then some r else s.frame? m := Tab.find_put _ _ _ _
theorem frame_delFrame (k m : Nat) : (s.delFrame k).frame? m = if m = k then none else s.frame? m := Tab.find_del _ _ _
theorem copy_putCopy (k m : Nat) (c : CopyRec) :
    (s.putCopy k c).copy? m = if m = k then some c else s.copy? m := Tab.find_put _ _ _ _
theorem copy_delCopy (k m : Nat) : (s.delCopy k).copy? m = if m = k then none else s.copy? m := Tab.find_del _ _ _

end Blk

end Sys2Proof.Machine
end

