-- ==== Sys2Proof/Laws/Events.lean ====
section
/-!
SUPPORT. What raising an event (R486, R487) and counting (R360, R363) can do, said once: register fields and what has
been sent may change, nothing else; and which register fields.
-/

namespace Sys2Proof.Machine

theorem Fld.width_pos (f : Fld) : 0 < f.info.width := by cases f <;> decide

namespace Blk

variable (s : Blk)

theorem FldsOut.rfl' : FldsOut s s := rfl

theorem FldsOut.trans {a b c : Blk} (h : FldsOut a b) (k : FldsOut b c) : FldsOut a c := by
  unfold FldsOut at *; rw [k, h]

theorem FldsOut.setFld (f : Fld) (i v : Nat) : FldsOut s (s.setFld f i v) := rfl

theorem FldsOut.emit (o : Output) : FldsOut s (s.emit o) := rfl

/-- What each step of a fold keeps, the fold keeps. -/
theorem FldsOut.foldl {β : Type} (g : Blk → β → Blk) (h : ∀ t b, FldsOut t (g t b)) (l : List β) (t : Blk) :
    FldsOut t (l.foldl g t) := by
  induction l generalizing t with
  | nil => rfl
  | cons b l ih => exact (h t b).trans (ih _)

/-! ### Which register fields -/

theorem Within.refl (p : Fld → Nat → Prop) : Within s s p := ⟨rfl, fun _ _ _ => rfl⟩

theorem Within.trans {a b c : Blk} {p : Fld → Nat → Prop} (h : Within a b p) (k : Within b c p) : Within a c p :=
  ⟨h.1.trans k.1, fun f i hp => (k.2 f i hp).trans (h.2 f i hp)⟩

theorem Within.mono {a b : Blk} {p q : Fld → Nat → Prop} (h : Within a b p) (hpq : ∀ f i, p f i → q f i) : Within a b q :=
  ⟨h.1, fun f i hq => h.2 f i fun hp => hq (hpq f i hp)⟩

theorem Within.setFld {p : Fld → Nat → Prop} (f : Fld) (i v : Nat) (h : p f i) : Within s (s.setFld f i v) p := by
  refine ⟨rfl, fun g j hp => ?_⟩
  rw [fld_setFld, if_neg]
  rintro ⟨rfl, rfl⟩; exact hp h

theorem Within.emit {p : Fld → Nat → Prop} (o : Output) : Within s (s.emit o) p := ⟨rfl, fun _ _ _ => rfl⟩

/-- What each step of a fold keeps, the fold keeps. -/
theorem Within.foldl {β : Type} {p : Fld → Nat → Prop} (g : Blk → β → Blk) (l : List β) (h : ∀ t, ∀ b ∈ l, Within t (g t b) p)
    (t : Blk) : Within t (l.foldl g t) p := by
  induction l generalizing t with
  | nil => exact Within.refl t p
  | cons b l ih => exact (h t b (by simp)).trans (ih (fun t b hb => h t b (by simp [hb])) _)

/-- The fields that sending an interrupt message may change: the armed vectors, and the pending bits of masked ones. -/
def messages (g : Fld) : Prop := g = .MGT_IRQ_ARMED_armed ∨ g = .MSIX_PBA_pend

theorem Within.sendMsix {p : Fld → Nat → Prop} (v : Nat) (h : ∀ g, messages g → p g 0) : Within s (s.sendMsix v) p := by
  unfold Blk.sendMsix; split
  · exact Within.setFld s _ _ _ (h _ (.inr rfl))
  · exact Within.emit _ _

theorem Within.fireVector {p : Fld → Nat → Prop} (v : Nat) (h : ∀ g, messages g → p g 0) : Within s (s.fireVector v) p := by
  unfold Blk.fireVector; split
  · exact (Within.setFld s _ _ _ (h _ (.inl rfl))).trans (Within.sendMsix _ _ h)
  · exact Within.refl s p

theorem Within.fireSource {p : Fld → Nat → Prop} (v : Nat) (h : ∀ g, messages g → p g 0) : Within s (s.fireSource v) p := by
  have key : ∀ t : Blk, Within s t p →
      Within s (if t.flag .MGT_IRQ_ROUTE_host_en v then t.fireVector (t.fld .MGT_IRQ_ROUTE_vector v) else t) p := by
    intro t ht; split
    · exact ht.trans (Within.fireVector _ _ h)
    · exact ht
  unfold Blk.fireSource
  exact key _ (by split; exacts [Within.emit _ _, Within.refl s p])

/-- Raising an event may change its own field and the armed vectors. -/
theorem Within.raiseBits {p : Fld → Nat → Prop} (f : Fld) (i v : Nat) (h : ∀ g, messages g → p g 0) (hf : p f i) :
    Within s (s.raiseBits f i v) p := by
  unfold Blk.raiseBits; dsimp only
  split
  · exact Within.setFld s _ _ _ hf
  · split
    · exact Within.setFld s _ _ _ hf
    · exact (Within.setFld s _ _ _ hf).trans (Within.fireSource _ _ h)

theorem Within.raise {p : Fld → Nat → Prop} (f : Fld) (i : Nat) (h : ∀ g, messages g → p g 0) (hf : p f i) :
    Within s (s.raise f i) p := Within.raiseBits s f i 1 h hf

theorem Within.raiseBit {p : Fld → Nat → Prop} (f : Fld) (i b : Nat) (h : ∀ g, messages g → p g 0) (hf : p f i) :
    Within s (s.raiseBit f i b) p := Within.raiseBits s f i _ h hf

theorem Within.pcntAdd {p : Fld → Nat → Prop} (d n m : Nat) (h : ∀ f i, counts f → p f i) : Within s (s.pcntAdd d n m) p := by
  have h1 : ∀ i, p .JSP_PCNT_count i := fun i => h _ _ (by simp [counts])
  have h2 : ∀ i, p .JSP_PCNT_OVF_ovf i := fun i => h _ _ (by simp [counts])
  have h3 : p .JSP_INT_pcnt_ovf 0 := h _ _ (by simp [counts])
  have h4 : ∀ g, messages g → p g 0 := fun g hg => h _ _ (by rcases hg with rfl | rfl <;> simp [counts])
  unfold Blk.pcntAdd; dsimp only
  split_ifs
  · exact Within.setFld s _ _ _ (h1 _)
  · exact (Within.setFld s _ _ _ (h1 _)).trans (Within.setFld _ _ _ _ (h1 _))
  · exact Within.setFld s _ _ _ (h1 _)
  · exact Within.setFld s _ _ _ (h1 _)
  · exact ((Within.setFld s _ _ _ (h1 _)).trans (Within.setFld _ _ _ _ (h2 _))).trans (Within.raise _ _ _ h4 h3)

theorem Within.pcntRun {p : Fld → Nat → Prop} (d k src m : Nat) (s : Blk) (h : ∀ f i, counts f → p f i) :
    Within s (Blk.pcntRun d k src m s) p := by
  induction k generalizing src m s with
  | zero => exact Within.refl _ _
  | succ k ih =>
    unfold Blk.pcntRun; split
    · exact Within.refl _ _
    · refine Within.foldl _ _ (fun t n _ => ?_) s
      split
      · exact ((Within.pcntAdd _ _ _ _ h).trans (ih _ _ _)).trans (ih _ _ _)
      · exact Within.refl _ _

theorem Within.pcntEvent {p : Fld → Nat → Prop} (d src m : Nat) (h : ∀ f i, counts f → p f i) :
    Within s (s.pcntEvent d src m) p := by
  unfold Blk.pcntEvent; split
  · exact Within.pcntRun d 64 src m s h
  · exact Within.refl _ _

/-- A count may change its counter and the fields of `counts`. -/
theorem Within.count {p : Fld → Nat → Prop} (f : Fld) (i n : Nat) (h : ∀ f i, counts f → p f i) (hf : p f i) :
    Within s (s.count f i n) p := by
  unfold Blk.count; dsimp only
  split
  · exact Within.setFld s _ _ _ hf
  · have hb := (Within.pcntEvent s (counterDie f.reg i) (f.reg.addrOf i) (min n (2 ^ 64 - 1 - s.fld f i)) h).trans
      (Within.setFld _ f i ((s.pcntEvent (counterDie f.reg i) (f.reg.addrOf i) (min n (2 ^ 64 - 1 - s.fld f i))).fld f i +
        min n (2 ^ 64 - 1 - s.fld f i)) hf)
    split
    · exact hb.trans (Within.raise _ _ _ (fun g hg => h _ _ (by rcases hg with rfl | rfl <;> simp [counts]))
        (h _ _ (by simp [counts])))
    · exact hb

/-- Raising an event changes register fields and what has been sent only. -/
theorem FldsOut.raise (f : Fld) (i : Nat) : FldsOut s (s.raise f i) :=
  (Within.raise (p := fun _ _ => True) s f i (fun _ _ => trivial) trivial).1

/-- Counting changes register fields and what has been sent only. -/
theorem FldsOut.count (f : Fld) (i n : Nat) : FldsOut s (s.count f i n) :=
  (Within.count (p := fun _ _ => True) s f i n (fun _ _ _ => trivial) trivial).1

@[simp] theorem fld_raise_ne (f : Fld) (i : Nat) (g : Fld) (j : Nat) (h : ¬ messages g) (hf : g ≠ f) :
    (s.raise f i).fld g j = s.fld g j :=
  (Within.raise (p := fun a _ => messages a ∨ a = f) s f i (fun _ h => .inl h) (.inr rfl)).2 g j (by simp [h, hf])

@[simp] theorem fld_raiseBit_ne (f : Fld) (i b : Nat) (g : Fld) (j : Nat) (h : ¬ messages g) (hf : g ≠ f) :
    (s.raiseBit f i b).fld g j = s.fld g j :=
  (Within.raiseBit (p := fun a _ => messages a ∨ a = f) s f i b (fun _ h => .inl h) (.inr rfl)).2 g j (by simp [h, hf])

/-- A count leaves every other field as it was, but those of `counts`. -/
@[simp] theorem fld_count_ne (f : Fld) (i n : Nat) (g : Fld) (j : Nat) (h : ¬ counts g) (hf : g ≠ f) :
    (s.count f i n).fld g j = s.fld g j :=
  (Within.count (p := fun a _ => counts a ∨ a = f) s f i n (fun _ _ h => .inl h) (.inr rfl)).2 g j (by simp [h, hf])

/-- The bits of an event field after some are raised. -/
theorem fld_raiseBits (f : Fld) (i v : Nat) (h : ¬ messages f) :
    (s.raiseBits f i v).fld f i = (s.fld f i ||| v) % 2 ^ f.info.width := by
  have hs : ∀ (t : Blk) (k : Nat), (t.fireSource k).fld f i = t.fld f i := fun t k =>
    (Within.fireSource (p := fun a _ => messages a) t k (fun _ h => h)).2 f i h
  unfold Blk.raiseBits; dsimp only
  split
  · simp [orFld]
  · split
    · simp [orFld]
    · rw [hs]; simp [orFld]

/-- A raised event bit reads 1. -/
@[simp] theorem flag_raise (f : Fld) (i : Nat) (h : ¬ messages f) : (s.raise f i).flag f i = true := by
  have hp := f.width_pos
  unfold flag Blk.raise
  rw [fld_raiseBits _ _ _ _ h]
  simp only [ne_eq, decide_eq_true_eq]
  intro e
  have h1 := Nat.testBit_mod_two_pow (s.fld f i ||| 1) f.info.width 0
  rw [e] at h1
  simp [hp] at h1

/-- Bit b of an event field after it has been raised. -/
theorem bit_raiseBit (f : Fld) (i b : Nat) (h : ¬ messages f) (hb : b < f.info.width) :
    (s.raiseBit f i b).bit f i b = true := by
  unfold Blk.bit Blk.raiseBit
  rw [fld_raiseBits _ _ _ _ h]
  simp [Nat.testBit_mod_two_pow, hb]

/-- A 64-bit counter rises by what is counted, and stops at 2⁶⁴ − 1 (R360). -/
theorem fld_count_self (f : Fld) (i n : Nat) (h : ¬ counts f) (hw : f.info.width = 64) :
    (s.count f i n).fld f i = min (s.fld f i + n) (2 ^ 64 - 1) := by
  have hu : (s.pcntEvent (counterDie f.reg i) (f.reg.addrOf i) (min n (2 ^ 64 - 1 - s.fld f i))).fld f i = s.fld f i :=
    (Within.pcntEvent (p := fun a _ => counts a) s _ _ _ (fun _ _ h => h)).2 f i h
  unfold Blk.count; dsimp only
  rw [hu]
  simp only [counts, not_or] at h
  split
  · rw [fld_setFld_self, hw]; omega
  · split
    · rw [fld_raise_ne _ _ _ _ _ (by simp [messages, h.1, h.2.1]) h.2.2.2.2.2, fld_setFld_self, hw]; omega
    · rw [fld_setFld_self, hw]; omega

@[simp] theorem raise_links (f : Fld) (i : Nat) : (s.raise f i).links = s.links := by rw [FldsOut.raise s f i]
@[simp] theorem raise_tables (f : Fld) (i : Nat) : (s.raise f i).tables = s.tables := by rw [FldsOut.raise s f i]
@[simp] theorem raise_learn (f : Fld) (i : Nat) : (s.raise f i).learn = s.learn := by rw [FldsOut.raise s f i]
@[simp] theorem raise_lockAt (f : Fld) (i : Nat) : (s.raise f i).lockAt = s.lockAt := by rw [FldsOut.raise s f i]
@[simp] theorem raise_placed (f : Fld) (i : Nat) : (s.raise f i).placed = s.placed := by rw [FldsOut.raise s f i]
@[simp] theorem raise_transfers (f : Fld) (i : Nat) : (s.raise f i).transfers = s.transfers := by rw [FldsOut.raise s f i]
@[simp] theorem raise_cmapFrom (f : Fld) (i : Nat) : (s.raise f i).cmapFrom = s.cmapFrom := by rw [FldsOut.raise s f i]
@[simp] theorem raise_ppsFrom (f : Fld) (i : Nat) : (s.raise f i).ppsFrom = s.ppsFrom := by rw [FldsOut.raise s f i]
@[simp] theorem raise_istOver (f : Fld) (i : Nat) : (s.raise f i).istOver = s.istOver := by rw [FldsOut.raise s f i]
@[simp] theorem raise_hot (f : Fld) (i : Nat) : (s.raise f i).hot = s.hot := by rw [FldsOut.raise s f i]
@[simp] theorem raise_mirrorSent (f : Fld) (i : Nat) : (s.raise f i).mirrorSent = s.mirrorSent := by rw [FldsOut.raise s f i]
@[simp] theorem raise_cplHeld (f : Fld) (i : Nat) : (s.raise f i).cplHeld = s.cplHeld := by rw [FldsOut.raise s f i]
@[simp] theorem raise_ppsRose (f : Fld) (i : Nat) : (s.raise f i).ppsRose = s.ppsRose := by rw [FldsOut.raise s f i]
@[simp] theorem raise_loadDue (f : Fld) (i : Nat) : (s.raise f i).loadDue = s.loadDue := by rw [FldsOut.raise s f i]
@[simp] theorem raise_servo (f : Fld) (i : Nat) : (s.raise f i).servo = s.servo := by rw [FldsOut.raise s f i]
@[simp] theorem raise_jobTurn (f : Fld) (i : Nat) : (s.raise f i).jobTurn = s.jobTurn := by rw [FldsOut.raise s f i]
@[simp] theorem raise_sprayPtr (f : Fld) (i : Nat) : (s.raise f i).sprayPtr = s.sprayPtr := by rw [FldsOut.raise s f i]
@[simp] theorem raise_frames (f : Fld) (i : Nat) : (s.raise f i).frames = s.frames := by rw [FldsOut.raise s f i]
@[simp] theorem raise_copies (f : Fld) (i : Nat) : (s.raise f i).copies = s.copies := by rw [FldsOut.raise s f i]
@[simp] theorem raise_nextFrame (f : Fld) (i : Nat) : (s.raise f i).nextFrame = s.nextFrame := by rw [FldsOut.raise s f i]
@[simp] theorem raise_agateLanes (f : Fld) (i : Nat) : (s.raise f i).agateLanes = s.agateLanes := by rw [FldsOut.raise s f i]
@[simp] theorem raise_agateDirs (f : Fld) (i : Nat) : (s.raise f i).agateDirs = s.agateDirs := by rw [FldsOut.raise s f i]
@[simp] theorem raise_basalt (f : Fld) (i : Nat) : (s.raise f i).basalt = s.basalt := by rw [FldsOut.raise s f i]
@[simp] theorem raise_spills (f : Fld) (i : Nat) : (s.raise f i).spills = s.spills := by rw [FldsOut.raise s f i]
@[simp] theorem raise_queues (f : Fld) (i : Nat) : (s.raise f i).queues = s.queues := by rw [FldsOut.raise s f i]
@[simp] theorem raise_buckets (f : Fld) (i : Nat) : (s.raise f i).buckets = s.buckets := by rw [FldsOut.raise s f i]
@[simp] theorem raise_feld (f : Fld) (i : Nat) : (s.raise f i).feld = s.feld := by rw [FldsOut.raise s f i]
@[simp] theorem raise_engines (f : Fld) (i : Nat) : (s.raise f i).engines = s.engines := by rw [FldsOut.raise s f i]
@[simp] theorem raise_groups (f : Fld) (i : Nat) : (s.raise f i).groups = s.groups := by rw [FldsOut.raise s f i]
@[simp] theorem raise_members (f : Fld) (i : Nat) : (s.raise f i).members = s.members := by rw [FldsOut.raise s f i]
@[simp] theorem raise_groupHw (f : Fld) (i : Nat) : (s.raise f i).groupHw = s.groupHw := by rw [FldsOut.raise s f i]
@[simp] theorem raise_fences (f : Fld) (i : Nat) : (s.raise f i).fences = s.fences := by rw [FldsOut.raise s f i]
@[simp] theorem raise_contexts (f : Fld) (i : Nat) : (s.raise f i).contexts = s.contexts := by rw [FldsOut.raise s f i]
@[simp] theorem raise_repl (f : Fld) (i : Nat) : (s.raise f i).repl = s.repl := by rw [FldsOut.raise s f i]
@[simp] theorem raise_journal (f : Fld) (i : Nat) : (s.raise f i).journal = s.journal := by rw [FldsOut.raise s f i]
@[simp] theorem raise_linkBusy (f : Fld) (i : Nat) : (s.raise f i).linkBusy = s.linkBusy := by rw [FldsOut.raise s f i]
@[simp] theorem raise_linkDrops (f : Fld) (i : Nat) : (s.raise f i).linkDrops = s.linkDrops := by rw [FldsOut.raise s f i]
@[simp] theorem raise_imgMaxFrame (f : Fld) (i : Nat) : (s.raise f i).imgMaxFrame = s.imgMaxFrame := by rw [FldsOut.raise s f i]
@[simp] theorem raise_imgLcf (f : Fld) (i : Nat) : (s.raise f i).imgLcf = s.imgLcf := by rw [FldsOut.raise s f i]
@[simp] theorem raise_cmapSeq (f : Fld) (i : Nat) : (s.raise f i).cmapSeq = s.cmapSeq := by rw [FldsOut.raise s f i]
@[simp] theorem raise_cmapFrame (f : Fld) (i : Nat) : (s.raise f i).cmapFrame = s.cmapFrame := by rw [FldsOut.raise s f i]
@[simp] theorem raise_qOffset (f : Fld) (i : Nat) : (s.raise f i).qOffset = s.qOffset := by rw [FldsOut.raise s f i]
@[simp] theorem raise_hbm (f : Fld) (i : Nat) : (s.raise f i).hbm = s.hbm := by rw [FldsOut.raise s f i]
@[simp] theorem raise_lineMeta (f : Fld) (i : Nat) : (s.raise f i).lineMeta = s.lineMeta := by rw [FldsOut.raise s f i]
@[simp] theorem raise_stale (f : Fld) (i : Nat) : (s.raise f i).stale = s.stale := by rw [FldsOut.raise s f i]
@[simp] theorem raise_regions (f : Fld) (i : Nat) : (s.raise f i).regions = s.regions := by rw [FldsOut.raise s f i]
@[simp] theorem raise_sweeps (f : Fld) (i : Nat) : (s.raise f i).sweeps = s.sweeps := by rw [FldsOut.raise s f i]
@[simp] theorem raise_gnsCmd (f : Fld) (i : Nat) : (s.raise f i).gnsCmd = s.gnsCmd := by rw [FldsOut.raise s f i]
@[simp] theorem raise_updates (f : Fld) (i : Nat) : (s.raise f i).updates = s.updates := by rw [FldsOut.raise s f i]
@[simp] theorem raise_requests (f : Fld) (i : Nat) : (s.raise f i).requests = s.requests := by rw [FldsOut.raise s f i]
@[simp] theorem raise_nextReq (f : Fld) (i : Nat) : (s.raise f i).nextReq = s.nextReq := by rw [FldsOut.raise s f i]
@[simp] theorem raise_memWait (f : Fld) (i : Nat) : (s.raise f i).memWait = s.memWait := by rw [FldsOut.raise s f i]
@[simp] theorem raise_ordWait (f : Fld) (i : Nat) : (s.raise f i).ordWait = s.ordWait := by rw [FldsOut.raise s f i]
@[simp] theorem raise_ordTaken (f : Fld) (i : Nat) : (s.raise f i).ordTaken = s.ordTaken := by rw [FldsOut.raise s f i]
@[simp] theorem raise_ordApplied (f : Fld) (i : Nat) : (s.raise f i).ordApplied = s.ordApplied := by rw [FldsOut.raise s f i]
@[simp] theorem raise_gateways (f : Fld) (i : Nat) : (s.raise f i).gateways = s.gateways := by rw [FldsOut.raise s f i]
@[simp] theorem raise_shards (f : Fld) (i : Nat) : (s.raise f i).shards = s.shards := by rw [FldsOut.raise s f i]
@[simp] theorem raise_ownWrites (f : Fld) (i : Nat) : (s.raise f i).ownWrites = s.ownWrites := by rw [FldsOut.raise s f i]
@[simp] theorem raise_nextOwn (f : Fld) (i : Nat) : (s.raise f i).nextOwn = s.nextOwn := by rw [FldsOut.raise s f i]
@[simp] theorem raise_restores (f : Fld) (i : Nat) : (s.raise f i).restores = s.restores := by rw [FldsOut.raise s f i]
@[simp] theorem raise_replays (f : Fld) (i : Nat) : (s.raise f i).replays = s.replays := by rw [FldsOut.raise s f i]
@[simp] theorem raise_nextWork (f : Fld) (i : Nat) : (s.raise f i).nextWork = s.nextWork := by rw [FldsOut.raise s f i]
@[simp] theorem raise_streams (f : Fld) (i : Nat) : (s.raise f i).streams = s.streams := by rw [FldsOut.raise s f i]
@[simp] theorem raise_rings (f : Fld) (i : Nat) : (s.raise f i).rings = s.rings := by rw [FldsOut.raise s f i]
@[simp] theorem raise_cqTail (f : Fld) (i : Nat) : (s.raise f i).cqTail = s.cqTail := by rw [FldsOut.raise s f i]
@[simp] theorem raise_busMaster (f : Fld) (i : Nat) : (s.raise f i).busMaster = s.busMaster := by rw [FldsOut.raise s f i]
@[simp] theorem raise_cplWait (f : Fld) (i : Nat) : (s.raise f i).cplWait = s.cplWait := by rw [FldsOut.raise s f i]
@[simp] theorem raise_recentCe (f : Fld) (i : Nat) : (s.raise f i).recentCe = s.recentCe := by rw [FldsOut.raise s f i]
@[simp] theorem raise_wishes (f : Fld) (i : Nat) : (s.raise f i).wishes = s.wishes := by rw [FldsOut.raise s f i]
@[simp] theorem raise_sweepWait (f : Fld) (i : Nat) : (s.raise f i).sweepWait = s.sweepWait := by rw [FldsOut.raise s f i]
@[simp] theorem raise_foi (f : Fld) (i : Nat) : (s.raise f i).foi = s.foi := by rw [FldsOut.raise s f i]
@[simp] theorem raise_foiCmd (f : Fld) (i : Nat) : (s.raise f i).foiCmd = s.foiCmd := by rw [FldsOut.raise s f i]
@[simp] theorem raise_foiHalves (f : Fld) (i : Nat) : (s.raise f i).foiHalves = s.foiHalves := by rw [FldsOut.raise s f i]
@[simp] theorem raise_foiHold (f : Fld) (i : Nat) : (s.raise f i).foiHold = s.foiHold := by rw [FldsOut.raise s f i]
@[simp] theorem raise_qStep (f : Fld) (i : Nat) : (s.raise f i).qStep = s.qStep := by rw [FldsOut.raise s f i]
@[simp] theorem raise_ppsOut (f : Fld) (i : Nat) : (s.raise f i).ppsOut = s.ppsOut := by rw [FldsOut.raise s f i]
@[simp] theorem raise_txts (f : Fld) (i : Nat) : (s.raise f i).txts = s.txts := by rw [FldsOut.raise s f i]
@[simp] theorem raise_snap (f : Fld) (i : Nat) : (s.raise f i).snap = s.snap := by rw [FldsOut.raise s f i]
@[simp] theorem raise_shadow (f : Fld) (i : Nat) : (s.raise f i).shadow = s.shadow := by rw [FldsOut.raise s f i]
@[simp] theorem raise_trcLfsr (f : Fld) (i : Nat) : (s.raise f i).trcLfsr = s.trcLfsr := by rw [FldsOut.raise s f i]
@[simp] theorem raise_trcNext (f : Fld) (i : Nat) : (s.raise f i).trcNext = s.trcNext := by rw [FldsOut.raise s f i]
@[simp] theorem raise_trcBuf (f : Fld) (i : Nat) : (s.raise f i).trcBuf = s.trcBuf := by rw [FldsOut.raise s f i]
@[simp] theorem raise_trcRate (f : Fld) (i : Nat) : (s.raise f i).trcRate = s.trcRate := by rw [FldsOut.raise s f i]
@[simp] theorem raise_mrgFired (f : Fld) (i : Nat) : (s.raise f i).mrgFired = s.mrgFired := by rw [FldsOut.raise s f i]
@[simp] theorem raise_imgCmd (f : Fld) (i : Nat) : (s.raise f i).imgCmd = s.imgCmd := by rw [FldsOut.raise s f i]
@[simp] theorem raise_window (f : Fld) (i : Nat) : (s.raise f i).window = s.window := by rw [FldsOut.raise s f i]
@[simp] theorem raise_flash (f : Fld) (i : Nat) : (s.raise f i).flash = s.flash := by rw [FldsOut.raise s f i]
@[simp] theorem raise_ramStage (f : Fld) (i : Nat) : (s.raise f i).ramStage = s.ramStage := by rw [FldsOut.raise s f i]
@[simp] theorem raise_dlLength (f : Fld) (i : Nat) : (s.raise f i).dlLength = s.dlLength := by rw [FldsOut.raise s f i]
@[simp] theorem raise_ramParts (f : Fld) (i : Nat) : (s.raise f i).ramParts = s.ramParts := by rw [FldsOut.raise s f i]
@[simp] theorem raise_heldDigests (f : Fld) (i : Nat) : (s.raise f i).heldDigests = s.heldDigests := by rw [FldsOut.raise s f i]
@[simp] theorem raise_roll (f : Fld) (i : Nat) : (s.raise f i).roll = s.roll := by rw [FldsOut.raise s f i]
@[simp] theorem raise_rowsDue (f : Fld) (i : Nat) : (s.raise f i).rowsDue = s.rowsDue := by rw [FldsOut.raise s f i]
@[simp] theorem raise_tblWaits (f : Fld) (i : Nat) : (s.raise f i).tblWaits = s.tblWaits := by rw [FldsOut.raise s f i]
@[simp] theorem raise_tileLoading (f : Fld) (i : Nat) : (s.raise f i).tileLoading = s.tileLoading := by rw [FldsOut.raise s f i]
@[simp] theorem raise_loaded (f : Fld) (i : Nat) : (s.raise f i).loaded = s.loaded := by rw [FldsOut.raise s f i]
@[simp] theorem raise_bootWrite (f : Fld) (i : Nat) : (s.raise f i).bootWrite = s.bootWrite := by rw [FldsOut.raise s f i]
@[simp] theorem raise_resets (f : Fld) (i : Nat) : (s.raise f i).resets = s.resets := by rw [FldsOut.raise s f i]
@[simp] theorem raise_startDue (f : Fld) (i : Nat) : (s.raise f i).startDue = s.startDue := by rw [FldsOut.raise s f i]
@[simp] theorem raise_coldStart (f : Fld) (i : Nat) : (s.raise f i).coldStart = s.coldStart := by rw [FldsOut.raise s f i]
@[simp] theorem raise_tableLoads (f : Fld) (i : Nat) : (s.raise f i).tableLoads = s.tableLoads := by rw [FldsOut.raise s f i]
@[simp] theorem raise_wdtHalf (f : Fld) (i : Nat) : (s.raise f i).wdtHalf = s.wdtHalf := by rw [FldsOut.raise s f i]
@[simp] theorem raise_resetLow (f : Fld) (i : Nat) : (s.raise f i).resetLow = s.resetLow := by rw [FldsOut.raise s f i]
@[simp] theorem raise_clkMode (f : Fld) (i : Nat) : (s.raise f i).clkMode = s.clkMode := by rw [FldsOut.raise s f i]
@[simp] theorem raise_powerHold (f : Fld) (i : Nat) : (s.raise f i).powerHold = s.powerHold := by rw [FldsOut.raise s f i]
@[simp] theorem raise_tripped (f : Fld) (i : Nat) : (s.raise f i).tripped = s.tripped := by rw [FldsOut.raise s f i]
@[simp] theorem raise_powerQueue (f : Fld) (i : Nat) : (s.raise f i).powerQueue = s.powerQueue := by rw [FldsOut.raise s f i]
@[simp] theorem raise_sleepKa (f : Fld) (i : Nat) : (s.raise f i).sleepKa = s.sleepKa := by rw [FldsOut.raise s f i]
@[simp] theorem raise_owed (f : Fld) (i : Nat) : (s.raise f i).owed = s.owed := by rw [FldsOut.raise s f i]
@[simp] theorem raise_obsCmd (f : Fld) (i : Nat) : (s.raise f i).obsCmd = s.obsCmd := by rw [FldsOut.raise s f i]
@[simp] theorem raise_bist (f : Fld) (i : Nat) : (s.raise f i).bist = s.bist := by rw [FldsOut.raise s f i]
@[simp] theorem raise_obsRefuses (f : Fld) (i : Nat) : (s.raise f i).obsRefuses = s.obsRefuses := by rw [FldsOut.raise s f i]
@[simp] theorem raise_fatal (f : Fld) (i : Nat) : (s.raise f i).fatal = s.fatal := by rw [FldsOut.raise s f i]
@[simp] theorem raise_softSram (f : Fld) (i : Nat) : (s.raise f i).softSram = s.softSram := by rw [FldsOut.raise s f i]
@[simp] theorem raise_softHbm (f : Fld) (i : Nat) : (s.raise f i).softHbm = s.softHbm := by rw [FldsOut.raise s f i]
@[simp] theorem raise_hostRx (f : Fld) (i : Nat) : (s.raise f i).hostRx = s.hostRx := by rw [FldsOut.raise s f i]
@[simp] theorem raise_hostTx (f : Fld) (i : Nat) : (s.raise f i).hostTx = s.hostTx := by rw [FldsOut.raise s f i]
@[simp] theorem raise_mbxReqs (f : Fld) (i : Nat) : (s.raise f i).mbxReqs = s.mbxReqs := by rw [FldsOut.raise s f i]
@[simp] theorem raise_mbxEvents (f : Fld) (i : Nat) : (s.raise f i).mbxEvents = s.mbxEvents := by rw [FldsOut.raise s f i]
@[simp] theorem raise_uart (f : Fld) (i : Nat) : (s.raise f i).uart = s.uart := by rw [FldsOut.raise s f i]
@[simp] theorem raise_timeCfg (f : Fld) (i : Nat) : (s.raise f i).timeCfg = s.timeCfg := by rw [FldsOut.raise s f i]
@[simp] theorem raise_msixTab (f : Fld) (i : Nat) : (s.raise f i).msixTab = s.msixTab := by rw [FldsOut.raise s f i]
@[simp] theorem raise_i2c (f : Fld) (i : Nat) : (s.raise f i).i2c = s.i2c := by rw [FldsOut.raise s f i]
@[simp] theorem raise_pinSwitches (f : Fld) (i : Nat) : (s.raise f i).pinSwitches = s.pinSwitches := by rw [FldsOut.raise s f i]
@[simp] theorem raise_boundary (f : Fld) (i : Nat) : (s.raise f i).boundary = s.boundary := by rw [FldsOut.raise s f i]
@[simp] theorem raise_jtagIr (f : Fld) (i : Nat) : (s.raise f i).jtagIr = s.jtagIr := by rw [FldsOut.raise s f i]
@[simp] theorem raise_hiLatch (f : Fld) (i : Nat) : (s.raise f i).hiLatch = s.hiLatch := by rw [FldsOut.raise s f i]
@[simp] theorem raise_loHeld (f : Fld) (i : Nat) : (s.raise f i).loHeld = s.loHeld := by rw [FldsOut.raise s f i]
@[simp] theorem raise_now (f : Fld) (i : Nat) : (s.raise f i).now = s.now := by rw [FldsOut.raise s f i]
@[simp] theorem raise_fresh (f : Fld) (i : Nat) : (s.raise f i).fresh = s.fresh := by rw [FldsOut.raise s f i]
@[simp] theorem count_links (f : Fld) (i n : Nat) : (s.count f i n).links = s.links := by rw [FldsOut.count s f i n]
@[simp] theorem count_tables (f : Fld) (i n : Nat) : (s.count f i n).tables = s.tables := by rw [FldsOut.count s f i n]
@[simp] theorem count_learn (f : Fld) (i n : Nat) : (s.count f i n).learn = s.learn := by rw [FldsOut.count s f i n]
@[simp] theorem count_lockAt (f : Fld) (i n : Nat) : (s.count f i n).lockAt = s.lockAt := by rw [FldsOut.count s f i n]
@[simp] theorem count_placed (f : Fld) (i n : Nat) : (s.count f i n).placed = s.placed := by rw [FldsOut.count s f i n]
@[simp] theorem count_transfers (f : Fld) (i n : Nat) : (s.count f i n).transfers = s.transfers := by rw [FldsOut.count s f i n]
@[simp] theorem count_cmapFrom (f : Fld) (i n : Nat) : (s.count f i n).cmapFrom = s.cmapFrom := by rw [FldsOut.count s f i n]
@[simp] theorem count_ppsFrom (f : Fld) (i n : Nat) : (s.count f i n).ppsFrom = s.ppsFrom := by rw [FldsOut.count s f i n]
@[simp] theorem count_istOver (f : Fld) (i n : Nat) : (s.count f i n).istOver = s.istOver := by rw [FldsOut.count s f i n]
@[simp] theorem count_hot (f : Fld) (i n : Nat) : (s.count f i n).hot = s.hot := by rw [FldsOut.count s f i n]
@[simp] theorem count_mirrorSent (f : Fld) (i n : Nat) : (s.count f i n).mirrorSent = s.mirrorSent := by rw [FldsOut.count s f i n]
@[simp] theorem count_cplHeld (f : Fld) (i n : Nat) : (s.count f i n).cplHeld = s.cplHeld := by rw [FldsOut.count s f i n]
@[simp] theorem count_ppsRose (f : Fld) (i n : Nat) : (s.count f i n).ppsRose = s.ppsRose := by rw [FldsOut.count s f i n]
@[simp] theorem count_loadDue (f : Fld) (i n : Nat) : (s.count f i n).loadDue = s.loadDue := by rw [FldsOut.count s f i n]
@[simp] theorem count_servo (f : Fld) (i n : Nat) : (s.count f i n).servo = s.servo := by rw [FldsOut.count s f i n]
@[simp] theorem count_jobTurn (f : Fld) (i n : Nat) : (s.count f i n).jobTurn = s.jobTurn := by rw [FldsOut.count s f i n]
@[simp] theorem count_sprayPtr (f : Fld) (i n : Nat) : (s.count f i n).sprayPtr = s.sprayPtr := by rw [FldsOut.count s f i n]
@[simp] theorem count_frames (f : Fld) (i n : Nat) : (s.count f i n).frames = s.frames := by rw [FldsOut.count s f i n]
@[simp] theorem count_copies (f : Fld) (i n : Nat) : (s.count f i n).copies = s.copies := by rw [FldsOut.count s f i n]
@[simp] theorem count_nextFrame (f : Fld) (i n : Nat) : (s.count f i n).nextFrame = s.nextFrame := by rw [FldsOut.count s f i n]
@[simp] theorem count_agateLanes (f : Fld) (i n : Nat) : (s.count f i n).agateLanes = s.agateLanes := by rw [FldsOut.count s f i n]
@[simp] theorem count_agateDirs (f : Fld) (i n : Nat) : (s.count f i n).agateDirs = s.agateDirs := by rw [FldsOut.count s f i n]
@[simp] theorem count_basalt (f : Fld) (i n : Nat) : (s.count f i n).basalt = s.basalt := by rw [FldsOut.count s f i n]
@[simp] theorem count_spills (f : Fld) (i n : Nat) : (s.count f i n).spills = s.spills := by rw [FldsOut.count s f i n]
@[simp] theorem count_queues (f : Fld) (i n : Nat) : (s.count f i n).queues = s.queues := by rw [FldsOut.count s f i n]
@[simp] theorem count_buckets (f : Fld) (i n : Nat) : (s.count f i n).buckets = s.buckets := by rw [FldsOut.count s f i n]
@[simp] theorem count_feld (f : Fld) (i n : Nat) : (s.count f i n).feld = s.feld := by rw [FldsOut.count s f i n]
@[simp] theorem count_engines (f : Fld) (i n : Nat) : (s.count f i n).engines = s.engines := by rw [FldsOut.count s f i n]
@[simp] theorem count_groups (f : Fld) (i n : Nat) : (s.count f i n).groups = s.groups := by rw [FldsOut.count s f i n]
@[simp] theorem count_members (f : Fld) (i n : Nat) : (s.count f i n).members = s.members := by rw [FldsOut.count s f i n]
@[simp] theorem count_groupHw (f : Fld) (i n : Nat) : (s.count f i n).groupHw = s.groupHw := by rw [FldsOut.count s f i n]
@[simp] theorem count_fences (f : Fld) (i n : Nat) : (s.count f i n).fences = s.fences := by rw [FldsOut.count s f i n]
@[simp] theorem count_contexts (f : Fld) (i n : Nat) : (s.count f i n).contexts = s.contexts := by rw [FldsOut.count s f i n]
@[simp] theorem count_repl (f : Fld) (i n : Nat) : (s.count f i n).repl = s.repl := by rw [FldsOut.count s f i n]
@[simp] theorem count_journal (f : Fld) (i n : Nat) : (s.count f i n).journal = s.journal := by rw [FldsOut.count s f i n]
@[simp] theorem count_linkBusy (f : Fld) (i n : Nat) : (s.count f i n).linkBusy = s.linkBusy := by rw [FldsOut.count s f i n]
@[simp] theorem count_linkDrops (f : Fld) (i n : Nat) : (s.count f i n).linkDrops = s.linkDrops := by rw [FldsOut.count s f i n]
@[simp] theorem count_imgMaxFrame (f : Fld) (i n : Nat) : (s.count f i n).imgMaxFrame = s.imgMaxFrame := by rw [FldsOut.count s f i n]
@[simp] theorem count_imgLcf (f : Fld) (i n : Nat) : (s.count f i n).imgLcf = s.imgLcf := by rw [FldsOut.count s f i n]
@[simp] theorem count_cmapSeq (f : Fld) (i n : Nat) : (s.count f i n).cmapSeq = s.cmapSeq := by rw [FldsOut.count s f i n]
@[simp] theorem count_cmapFrame (f : Fld) (i n : Nat) : (s.count f i n).cmapFrame = s.cmapFrame := by rw [FldsOut.count s f i n]
@[simp] theorem count_qOffset (f : Fld) (i n : Nat) : (s.count f i n).qOffset = s.qOffset := by rw [FldsOut.count s f i n]
@[simp] theorem count_hbm (f : Fld) (i n : Nat) : (s.count f i n).hbm = s.hbm := by rw [FldsOut.count s f i n]
@[simp] theorem count_lineMeta (f : Fld) (i n : Nat) : (s.count f i n).lineMeta = s.lineMeta := by rw [FldsOut.count s f i n]
@[simp] theorem count_stale (f : Fld) (i n : Nat) : (s.count f i n).stale = s.stale := by rw [FldsOut.count s f i n]
@[simp] theorem count_regions (f : Fld) (i n : Nat) : (s.count f i n).regions = s.regions := by rw [FldsOut.count s f i n]
@[simp] theorem count_sweeps (f : Fld) (i n : Nat) : (s.count f i n).sweeps = s.sweeps := by rw [FldsOut.count s f i n]
@[simp] theorem count_gnsCmd (f : Fld) (i n : Nat) : (s.count f i n).gnsCmd = s.gnsCmd := by rw [FldsOut.count s f i n]
@[simp] theorem count_updates (f : Fld) (i n : Nat) : (s.count f i n).updates = s.updates := by rw [FldsOut.count s f i n]
@[simp] theorem count_requests (f : Fld) (i n : Nat) : (s.count f i n).requests = s.requests := by rw [FldsOut.count s f i n]
@[simp] theorem count_nextReq (f : Fld) (i n : Nat) : (s.count f i n).nextReq = s.nextReq := by rw [FldsOut.count s f i n]
@[simp] theorem count_memWait (f : Fld) (i n : Nat) : (s.count f i n).memWait = s.memWait := by rw [FldsOut.count s f i n]
@[simp] theorem count_ordWait (f : Fld) (i n : Nat) : (s.count f i n).ordWait = s.ordWait := by rw [FldsOut.count s f i n]
@[simp] theorem count_ordTaken (f : Fld) (i n : Nat) : (s.count f i n).ordTaken = s.ordTaken := by rw [FldsOut.count s f i n]
@[simp] theorem count_ordApplied (f : Fld) (i n : Nat) : (s.count f i n).ordApplied = s.ordApplied := by rw [FldsOut.count s f i n]
@[simp] theorem count_gateways (f : Fld) (i n : Nat) : (s.count f i n).gateways = s.gateways := by rw [FldsOut.count s f i n]
@[simp] theorem count_shards (f : Fld) (i n : Nat) : (s.count f i n).shards = s.shards := by rw [FldsOut.count s f i n]
@[simp] theorem count_ownWrites (f : Fld) (i n : Nat) : (s.count f i n).ownWrites = s.ownWrites := by rw [FldsOut.count s f i n]
@[simp] theorem count_nextOwn (f : Fld) (i n : Nat) : (s.count f i n).nextOwn = s.nextOwn := by rw [FldsOut.count s f i n]
@[simp] theorem count_restores (f : Fld) (i n : Nat) : (s.count f i n).restores = s.restores := by rw [FldsOut.count s f i n]
@[simp] theorem count_replays (f : Fld) (i n : Nat) : (s.count f i n).replays = s.replays := by rw [FldsOut.count s f i n]
@[simp] theorem count_nextWork (f : Fld) (i n : Nat) : (s.count f i n).nextWork = s.nextWork := by rw [FldsOut.count s f i n]
@[simp] theorem count_streams (f : Fld) (i n : Nat) : (s.count f i n).streams = s.streams := by rw [FldsOut.count s f i n]
@[simp] theorem count_rings (f : Fld) (i n : Nat) : (s.count f i n).rings = s.rings := by rw [FldsOut.count s f i n]
@[simp] theorem count_cqTail (f : Fld) (i n : Nat) : (s.count f i n).cqTail = s.cqTail := by rw [FldsOut.count s f i n]
@[simp] theorem count_busMaster (f : Fld) (i n : Nat) : (s.count f i n).busMaster = s.busMaster := by rw [FldsOut.count s f i n]
@[simp] theorem count_cplWait (f : Fld) (i n : Nat) : (s.count f i n).cplWait = s.cplWait := by rw [FldsOut.count s f i n]
@[simp] theorem count_recentCe (f : Fld) (i n : Nat) : (s.count f i n).recentCe = s.recentCe := by rw [FldsOut.count s f i n]
@[simp] theorem count_wishes (f : Fld) (i n : Nat) : (s.count f i n).wishes = s.wishes := by rw [FldsOut.count s f i n]
@[simp] theorem count_sweepWait (f : Fld) (i n : Nat) : (s.count f i n).sweepWait = s.sweepWait := by rw [FldsOut.count s f i n]
@[simp] theorem count_foi (f : Fld) (i n : Nat) : (s.count f i n).foi = s.foi := by rw [FldsOut.count s f i n]
@[simp] theorem count_foiCmd (f : Fld) (i n : Nat) : (s.count f i n).foiCmd = s.foiCmd := by rw [FldsOut.count s f i n]
@[simp] theorem count_foiHalves (f : Fld) (i n : Nat) : (s.count f i n).foiHalves = s.foiHalves := by rw [FldsOut.count s f i n]
@[simp] theorem count_foiHold (f : Fld) (i n : Nat) : (s.count f i n).foiHold = s.foiHold := by rw [FldsOut.count s f i n]
@[simp] theorem count_qStep (f : Fld) (i n : Nat) : (s.count f i n).qStep = s.qStep := by rw [FldsOut.count s f i n]
@[simp] theorem count_ppsOut (f : Fld) (i n : Nat) : (s.count f i n).ppsOut = s.ppsOut := by rw [FldsOut.count s f i n]
@[simp] theorem count_txts (f : Fld) (i n : Nat) : (s.count f i n).txts = s.txts := by rw [FldsOut.count s f i n]
@[simp] theorem count_snap (f : Fld) (i n : Nat) : (s.count f i n).snap = s.snap := by rw [FldsOut.count s f i n]
@[simp] theorem count_shadow (f : Fld) (i n : Nat) : (s.count f i n).shadow = s.shadow := by rw [FldsOut.count s f i n]
@[simp] theorem count_trcLfsr (f : Fld) (i n : Nat) : (s.count f i n).trcLfsr = s.trcLfsr := by rw [FldsOut.count s f i n]
@[simp] theorem count_trcNext (f : Fld) (i n : Nat) : (s.count f i n).trcNext = s.trcNext := by rw [FldsOut.count s f i n]
@[simp] theorem count_trcBuf (f : Fld) (i n : Nat) : (s.count f i n).trcBuf = s.trcBuf := by rw [FldsOut.count s f i n]
@[simp] theorem count_trcRate (f : Fld) (i n : Nat) : (s.count f i n).trcRate = s.trcRate := by rw [FldsOut.count s f i n]
@[simp] theorem count_mrgFired (f : Fld) (i n : Nat) : (s.count f i n).mrgFired = s.mrgFired := by rw [FldsOut.count s f i n]
@[simp] theorem count_imgCmd (f : Fld) (i n : Nat) : (s.count f i n).imgCmd = s.imgCmd := by rw [FldsOut.count s f i n]
@[simp] theorem count_window (f : Fld) (i n : Nat) : (s.count f i n).window = s.window := by rw [FldsOut.count s f i n]
@[simp] theorem count_flash (f : Fld) (i n : Nat) : (s.count f i n).flash = s.flash := by rw [FldsOut.count s f i n]
@[simp] theorem count_ramStage (f : Fld) (i n : Nat) : (s.count f i n).ramStage = s.ramStage := by rw [FldsOut.count s f i n]
@[simp] theorem count_dlLength (f : Fld) (i n : Nat) : (s.count f i n).dlLength = s.dlLength := by rw [FldsOut.count s f i n]
@[simp] theorem count_ramParts (f : Fld) (i n : Nat) : (s.count f i n).ramParts = s.ramParts := by rw [FldsOut.count s f i n]
@[simp] theorem count_heldDigests (f : Fld) (i n : Nat) : (s.count f i n).heldDigests = s.heldDigests := by rw [FldsOut.count s f i n]
@[simp] theorem count_roll (f : Fld) (i n : Nat) : (s.count f i n).roll = s.roll := by rw [FldsOut.count s f i n]
@[simp] theorem count_rowsDue (f : Fld) (i n : Nat) : (s.count f i n).rowsDue = s.rowsDue := by rw [FldsOut.count s f i n]
@[simp] theorem count_tblWaits (f : Fld) (i n : Nat) : (s.count f i n).tblWaits = s.tblWaits := by rw [FldsOut.count s f i n]
@[simp] theorem count_tileLoading (f : Fld) (i n : Nat) : (s.count f i n).tileLoading = s.tileLoading := by rw [FldsOut.count s f i n]
@[simp] theorem count_loaded (f : Fld) (i n : Nat) : (s.count f i n).loaded = s.loaded := by rw [FldsOut.count s f i n]
@[simp] theorem count_bootWrite (f : Fld) (i n : Nat) : (s.count f i n).bootWrite = s.bootWrite := by rw [FldsOut.count s f i n]
@[simp] theorem count_resets (f : Fld) (i n : Nat) : (s.count f i n).resets = s.resets := by rw [FldsOut.count s f i n]
@[simp] theorem count_startDue (f : Fld) (i n : Nat) : (s.count f i n).startDue = s.startDue := by rw [FldsOut.count s f i n]
@[simp] theorem count_coldStart (f : Fld) (i n : Nat) : (s.count f i n).coldStart = s.coldStart := by rw [FldsOut.count s f i n]
@[simp] theorem count_tableLoads (f : Fld) (i n : Nat) : (s.count f i n).tableLoads = s.tableLoads := by rw [FldsOut.count s f i n]
@[simp] theorem count_wdtHalf (f : Fld) (i n : Nat) : (s.count f i n).wdtHalf = s.wdtHalf := by rw [FldsOut.count s f i n]
@[simp] theorem count_resetLow (f : Fld) (i n : Nat) : (s.count f i n).resetLow = s.resetLow := by rw [FldsOut.count s f i n]
@[simp] theorem count_clkMode (f : Fld) (i n : Nat) : (s.count f i n).clkMode = s.clkMode := by rw [FldsOut.count s f i n]
@[simp] theorem count_powerHold (f : Fld) (i n : Nat) : (s.count f i n).powerHold = s.powerHold := by rw [FldsOut.count s f i n]
@[simp] theorem count_tripped (f : Fld) (i n : Nat) : (s.count f i n).tripped = s.tripped := by rw [FldsOut.count s f i n]
@[simp] theorem count_powerQueue (f : Fld) (i n : Nat) : (s.count f i n).powerQueue = s.powerQueue := by rw [FldsOut.count s f i n]
@[simp] theorem count_sleepKa (f : Fld) (i n : Nat) : (s.count f i n).sleepKa = s.sleepKa := by rw [FldsOut.count s f i n]
@[simp] theorem count_owed (f : Fld) (i n : Nat) : (s.count f i n).owed = s.owed := by rw [FldsOut.count s f i n]
@[simp] theorem count_obsCmd (f : Fld) (i n : Nat) : (s.count f i n).obsCmd = s.obsCmd := by rw [FldsOut.count s f i n]
@[simp] theorem count_bist (f : Fld) (i n : Nat) : (s.count f i n).bist = s.bist := by rw [FldsOut.count s f i n]
@[simp] theorem count_obsRefuses (f : Fld) (i n : Nat) : (s.count f i n).obsRefuses = s.obsRefuses := by rw [FldsOut.count s f i n]
@[simp] theorem count_fatal (f : Fld) (i n : Nat) : (s.count f i n).fatal = s.fatal := by rw [FldsOut.count s f i n]
@[simp] theorem count_softSram (f : Fld) (i n : Nat) : (s.count f i n).softSram = s.softSram := by rw [FldsOut.count s f i n]
@[simp] theorem count_softHbm (f : Fld) (i n : Nat) : (s.count f i n).softHbm = s.softHbm := by rw [FldsOut.count s f i n]
@[simp] theorem count_hostRx (f : Fld) (i n : Nat) : (s.count f i n).hostRx = s.hostRx := by rw [FldsOut.count s f i n]
@[simp] theorem count_hostTx (f : Fld) (i n : Nat) : (s.count f i n).hostTx = s.hostTx := by rw [FldsOut.count s f i n]
@[simp] theorem count_mbxReqs (f : Fld) (i n : Nat) : (s.count f i n).mbxReqs = s.mbxReqs := by rw [FldsOut.count s f i n]
@[simp] theorem count_mbxEvents (f : Fld) (i n : Nat) : (s.count f i n).mbxEvents = s.mbxEvents := by rw [FldsOut.count s f i n]
@[simp] theorem count_uart (f : Fld) (i n : Nat) : (s.count f i n).uart = s.uart := by rw [FldsOut.count s f i n]
@[simp] theorem count_timeCfg (f : Fld) (i n : Nat) : (s.count f i n).timeCfg = s.timeCfg := by rw [FldsOut.count s f i n]
@[simp] theorem count_msixTab (f : Fld) (i n : Nat) : (s.count f i n).msixTab = s.msixTab := by rw [FldsOut.count s f i n]
@[simp] theorem count_i2c (f : Fld) (i n : Nat) : (s.count f i n).i2c = s.i2c := by rw [FldsOut.count s f i n]
@[simp] theorem count_pinSwitches (f : Fld) (i n : Nat) : (s.count f i n).pinSwitches = s.pinSwitches := by rw [FldsOut.count s f i n]
@[simp] theorem count_boundary (f : Fld) (i n : Nat) : (s.count f i n).boundary = s.boundary := by rw [FldsOut.count s f i n]
@[simp] theorem count_jtagIr (f : Fld) (i n : Nat) : (s.count f i n).jtagIr = s.jtagIr := by rw [FldsOut.count s f i n]
@[simp] theorem count_hiLatch (f : Fld) (i n : Nat) : (s.count f i n).hiLatch = s.hiLatch := by rw [FldsOut.count s f i n]
@[simp] theorem count_loHeld (f : Fld) (i n : Nat) : (s.count f i n).loHeld = s.loHeld := by rw [FldsOut.count s f i n]
@[simp] theorem count_now (f : Fld) (i n : Nat) : (s.count f i n).now = s.now := by rw [FldsOut.count s f i n]
@[simp] theorem count_fresh (f : Fld) (i n : Nat) : (s.count f i n).fresh = s.fresh := by rw [FldsOut.count s f i n]

end Blk

end Sys2Proof.Machine
end

