-- ==== Sys2Proof/Laws/Memory.lean ====
section
/-!
SUPPORT. The store's bytes: what a write of a line leaves at every address, and that each operation on the store (a line
written, a zeroing sweep, the zeroing of a stack, a cold reset) keeps its canonical form; the staging window likewise.
-/

namespace Sys2Proof.Machine.Blk

variable (s : Blk)

/-- The store at reset lists nothing. -/
theorem reset_hbm_wf : Memory.wf 0 State.reset.blk.hbm = true := rfl

/-- Writing a line keeps the canonical form. -/
theorem putBytes_wf (x : Nat) (bs : List Byte) (h : Memory.wf 0 s.hbm = true) : Memory.wf 0 (s.putBytes x bs).hbm = true :=
  Tab.wf_foldl_set (0 : Byte) (fun kb : Nat × Byte => 256 * x + kb.1) (fun kb => kb.2) _ _ h

/-- Writes at keys of a list: an address that none of them names reads as before. -/
theorem get_foldl_set_ne {β : Type} (g : β → Nat) (w : β → Byte) (bs : List β) (t : Tab Byte) (a : Nat)
    (h : ∀ b ∈ bs, a ≠ g b) :
    (bs.foldl (fun (t : Tab Byte) b => t.set 0 (g b) (w b)) t).get 0 a = t.get 0 a := by
  induction bs generalizing t with
  | nil => rfl
  | cons b bs ih =>
    rw [List.foldl_cons, ih _ fun c hc => h c (List.mem_cons_of_mem _ hc), Tab.get_set _ _ _ _ _ _ fun _ => rfl,
      if_neg (h b List.mem_cons_self)]

/-- Writing a line leaves every byte outside it as it was. -/
theorem putBytes_get_ne (x a : Nat) (bs : List Byte) (h : a / 256 ≠ x) : (s.putBytes x bs).hbm.get 0 a = s.hbm.get 0 a := by
  refine get_foldl_set_ne _ _ _ _ _ fun kb hk => ?_
  have := List.of_mem_zip hk
  have := List.mem_range.mp this.1
  omega

/-- A zeroing sweep keeps the canonical form. -/
theorem sweepDone_wf (i : Nat) (h : Memory.wf 0 s.hbm = true) : Memory.wf 0 (s.sweepDone i).hbm = true := by
  unfold Blk.sweepDone
  split
  · exact h
  · rw [raise_hbm]
    exact Tab.wf_filter _ _ _ h

/-- Zeroing stacks keeps the canonical form, and a byte of such a stack then reads 0. -/
theorem zeroHbm_wf (p : Nat → Bool) (h : Memory.wf 0 s.hbm = true) : Memory.wf 0 (s.zeroHbm p).hbm = true :=
  Tab.wf_filter _ _ _ h

/-- The entry at a key of a table of which entries are kept by their keys. -/
theorem find_filter_key (t : Tab Byte) (q : Nat → Bool) (a : Nat) :
    Tab.find (t.filter fun kv : Nat × Byte => q kv.1) a = if q a then t.find a else none := by
  induction t with
  | nil => simp [Tab.find]
  | cons kv t ih =>
    obtain ⟨k, v⟩ := kv
    rw [List.filter_cons]
    by_cases hk : k = a
    · subst hk
      cases hq : q k <;> simp [hq, Tab.find, ih]
    · cases q k <;> simp [Tab.find, ih, hk]

/-- What each byte reads after stacks are zeroed. -/
theorem zeroHbm_get (p : Nat → Bool) (a : Nat) :
    (s.zeroHbm p).hbm.get 0 a = if p (lineStack (a / 256)) then 0 else s.hbm.get 0 a := by
  unfold Tab.get
  rw [show (s.zeroHbm p).hbm = s.hbm.filter fun kv : Nat × Byte => !p (lineStack (kv.1 / 256)) from rfl,
    find_filter_key s.hbm (fun k => !p (lineStack (k / 256))) a]
  cases p (lineStack (a / 256)) <;> simp

/-- Telling changes of pins leaves the store as it is. -/
theorem tellPins_hbm (b t : Blk) : (b.tellPins t).hbm = t.hbm := by
  have key : ∀ (l : List OutPin) (t : Blk), (l.foldl (fun t p => Blk.tellPin b t p) t).hbm = t.hbm := by
    intro l
    induction l with
    | nil => intro t; rfl
    | cons m l ih =>
      intro t
      rw [List.foldl_cons, ih]
      unfold Blk.tellPin
      split
      · rfl
      · split <;> rfl
  exact key _ t

/-- A cold reset leaves the store without contents. -/
theorem resetCold_hbm : (s.resetCold).hbm = [] := by
  unfold Blk.resetCold
  exact tellPins_hbm _ _

/-- A write to the staging window keeps the window's canonical form. -/
theorem bar2Write_window_wf (addr : Nat) (bytes : List Byte) (h : Memory.wf 0 s.window = true) :
    Memory.wf 0 (s.bar2Write addr bytes).window = true := by
  have key : ∀ (l : List (Byte × Nat)) (t : Tab Byte), Memory.wf 0 t = true →
      Memory.wf 0 (l.foldl (fun (w : Tab Byte) (bi : Byte × Nat) =>
        if addr - 0x30000000 + bi.2 < 65536 then w.set 0 (addr - 0x30000000 + bi.2) bi.1 else w) t) = true := by
    intro l
    induction l with
    | nil => intro t h; exact h
    | cons b l ih =>
      intro t h
      rw [List.foldl_cons]
      refine ih _ ?_
      split
      · exact Tab.wf_set (fun _ => 0) t _ _ h
      · exact h
  unfold Blk.bar2Write
  split
  · exact key _ _ h
  · split
    · split
      · unfold Blk.isoAccess
        dsimp only
        rw [raise_window]
        split <;> simpa using h
      · exact h
    · exact h

end Sys2Proof.Machine.Blk
end

