-- ==== Sys2Proof/Laws/Registers.lean ====
section
/-!
SUPPORT. What a register write by access code does (R12), field by field.
-/

namespace Sys2Proof.Machine

set_option maxRecDepth 20000 in
/-- A register names each of its fields once. -/
theorem Reg.fields_nodup (r : Reg) : r.info.fields.Nodup := by cases r <;> decide

namespace Blk

variable (s : Blk)

theorem fld_putField_ne (f g : Fld) (i j v : Nat) (h : ¬ (g = f ∧ j = i)) : (s.putField f i v).fld g j = s.fld g j := by
  unfold putField; split <;> simp [fld_setFld, h]

/-- What a write leaves in a field, by its access code. -/
theorem fld_putField (f : Fld) (i v : Nat) :
    (s.putField f i v).fld f i = accessLeaves (f.accessAt i) f.info.width (s.fld f i) (v % 2 ^ f.info.width) := by
  unfold putField accessLeaves
  split <;> simp_all
  · apply Nat.mod_eq_of_lt
    apply Nat.and_lt_two_pow
    apply Nat.xor_lt_two_pow
    · have := Nat.two_pow_pos f.info.width; omega
    · exact Nat.mod_lt _ (Nat.two_pow_pos _)
  · rw [← Nat.and_two_pow_sub_one_eq_mod, ← Nat.and_two_pow_sub_one_eq_mod, ← Nat.and_two_pow_sub_one_eq_mod]
    apply Nat.eq_of_testBit_eq; intro k; simp
    cases decide (k < f.info.width) <;> simp

theorem Within.putField {p : Fld → Nat → Prop} (f : Fld) (i v : Nat) (h : p f i) : Within s (s.putField f i v) p := by
  unfold Blk.putField; split
  · exact Within.setFld s _ _ _ h
  · exact Within.setFld s _ _ _ h
  · exact Within.setFld s _ _ _ h
  · exact Within.refl s p

/-- A register write by access code changes that register's fields only. -/
theorem Within.putReg {p : Fld → Nat → Prop} (r : Reg) (i v : Nat) (h : ∀ f ∈ r.info.fields, p f i) :
    Within s (s.putReg r i v) p := Within.foldl _ _ (fun t f hf => Within.putField t f i _ (h f hf)) s

theorem fld_putReg_aux (fs : List Fld) (i v : Nat) (f : Fld) (h : f ∉ fs) :
    (fs.foldl (fun s f => s.putField f i (v / 2 ^ f.info.lo)) s).fld f i = s.fld f i := by
  induction fs generalizing s with
  | nil => rfl
  | cons g fs ih =>
    rw [List.foldl_cons, ih _ (by simp_all), fld_putField_ne]
    rintro ⟨rfl, -⟩; simp at h

/-- A register written by its access codes, field by field (R12). -/
theorem fld_putReg (r : Reg) (i v : Nat) (f : Fld) (h : f ∈ r.info.fields) :
    (s.putReg r i v).fld f i =
      accessLeaves (f.accessAt i) f.info.width (s.fld f i) (v / 2 ^ f.info.lo % 2 ^ f.info.width) := by
  have hn := r.fields_nodup
  unfold putReg
  generalize r.info.fields = fs at *
  induction fs generalizing s with
  | nil => simp at h
  | cons g fs ih =>
    rw [List.foldl_cons]
    rw [List.nodup_cons] at hn
    by_cases hg : f = g
    · subst hg; rw [fld_putReg_aux _ _ _ _ _ hn.1, fld_putField]
    · rw [ih _ (by simp_all) hn.2, fld_putField_ne _ _ _ _ _ _ (by tauto)]

/-- A 32-bit access of a register that answers is not isolated (R415). -/
theorem bar0Write_answers {b : Blk} {put : Blk → Reg → Nat → Nat → Blk} {a : Nat} {r : Reg} {i : Nat} {hi : Bool} {v : Nat}
    (h : Answers b a r i hi) : b.bar0Write put a v false = b.wordWrite put a (v % 2 ^ 32) := by
  unfold Blk.bar0Write
  cases hd : addrDomain a with
  | none => simp
  | some n => simp [h.2.1 n hd]

theorem bar0Read_answers {b : Blk} {a : Nat} {r : Reg} {i : Nat} {hi : Bool} (h : Answers b a r i hi) :
    b.bar0Read a false = b.wordRead a := by
  unfold Blk.bar0Read
  cases hd : addrDomain a with
  | none => simp
  | some n => simp [h.2.1 n hd]

end Blk

end Sys2Proof.Machine
end

