-- ==== Sys2Proof/WellFormed.lean ====
section
/-!
DEFINITION. Well-formed commands: what no operand of a command can be, where its type allows more than the spec gives it.
-/

namespace Sys2Proof

/-- A register access is aligned to its width (R9). -/
def wordAligned (address : Nat) (wide : Bool) : Bool := address % (if wide then 8 else 4) = 0

/-- An access: aligned in BAR0 (R9), of at least a byte (R88), a 32-bit value in 32 bits. -/
def accessOk (bar : Bar) (address : Nat) : BusAccess → Bool
  | .read n => 1 ≤ n && (bar ≠ .bar0 || ((n = 4 || n = 8) && address % n = 0))
  | .write v wide => (bar ≠ .bar0 || wordAligned address wide) && (wide || v.toNat < 2 ^ 32)

/-- A CREDIT frame reports eight classes (R51). -/
def reportOk : CreditReport → Bool
  | .word _ _ => true
  | .lcf totals => totals.length = 8

/-- A descriptor or command is of the kind or op that its row names: its byte 0 (R229, R230, R297, R298). -/
def kindIs (k : Nat) (d : Bytes64) : Bool := (d.extractLsb' 504 8).toNat = k

/-- What the host read returns, where it returns, has the length read. -/
def dataOk (n : Nat) : Option (List Byte) → Bool
  | none => true
  | some bs => bs.length = n

/-- A line of an engine's scratch memory is one of 32,768 (R207). -/
def troubleOk : EngineTrouble → Bool
  | .corrected l => l < 32768
  | .lost l => l < 32768
  | .none => true
  | .residueOnce => true
  | .residueTwice => true

/-- The same of what a release finds. -/
def releaseOk : ReleaseTrouble → Bool
  | .corrected l => l < 32768
  | .lost l => l < 32768
  | .none => true
  | .residueOnce => true
  | .residueTwice => true
  | .auditDiffers => true

/-- The same of a scrubbed word. -/
def wordOk : SramWord → Bool
  | .scratch _ l => l < 32768
  | .basalt _ _ _ => true
  | .staging _ => true
  | .table _ _ _ => true
  | .group _ _ => true
  | .member _ _ => true
  | .mgmt => true
  | .alwaysOn => true
  | .other _ _ => true

/-- A staged frame's image names a word that exists, where its lookup meets one. -/
def imageOk (x : ImageClass) : Bool := (x.badWord.map wordOk).getD true

/-- The lines of rows that BIST retires are of the store's 2,415,919,104 (R256, R257). -/
def rowsOk (rows : List (List Nat)) : Bool := rows.all fun r => r.all fun l => l < 2415919104

/-- A transfer reads at most 32 bytes (R489). -/
def endOk : I2cEnd → Bool
  | .good bs => bs.length ≤ 32
  | .nack => true
  | .arbLost => true
  | .sclStuck => true

/-- A command is well formed: lists have the lengths that the spec gives them, numbers name what exists, and accesses are aligned.
A command that is not is no event of the block; its meaning is total all the same. -/
def wellFormed : Instr → Bool
  | .registerWrite _ a v w => wordAligned a.toNat w && (w || v.toNat < 2 ^ 32)
  | .lowWordRead a => wordAligned a.toNat false
  | .lowWordWrite _ a _ => wordAligned a.toNat false
  | .highWordWrite _ a _ => wordAligned a.toNat false
  | .isolatedAccess b a x => accessOk b a.toNat x
  | .cqStatusRead _ => true
  | .marginRead _ => true
  | .frameReceived _ _ _ _ x => imageOk x
  | .learnEvent => true
  | .ageingSweep => true
  | .admissionRequest _ _ => true
  | .admissionRetry _ _ => true
  | .admissionStall _ _ => true
  | .firstCellWritten _ _ => true
  | .lastCellWritten _ _ => true
  | .agateCellSend _ _ => true
  | .agateCellLanded _ _ => true
  | .agateCreditReturn _ _ _ => true
  | .flitCrcFail _ _ => true
  | .agateEnSet _ _ => true
  | .agateEnClear _ _ => true
  | .agateRetrain _ => true
  | .agateTrained _ _ => true
  | .agateTrainingTimeout _ _ => true
  | .agateDrained _ _ => true
  | .agateFailedExpiry _ _ => true
  | .agateLossOfLock _ _ => true
  | .countSnap _ => true
  | .auditSweep _ xs ys => (xs.all fun x => x < 524288) && ys.all fun x => x < 524288
  | .fldSelection _ _ _ => true
  | .egressPipeline _ _ => true
  | .gateBoundary _ => true
  | .gateCommit _ => true
  | .gateBankSwitch _ => true
  | .portSplitWrite _ _ => true
  | .portModeWrite _ _ => true
  | .linkEnable _ => true
  | .linkDisable _ => true
  | .pcsAligned _ => true
  | .capReceived _ x => x.classVal.length = 8
  | .capTimer _ => true
  | .exchangeTimeout _ => true
  | .ethernetCapTimer _ => true
  | .creditReportTimer _ => true
  | .creditReceived _ x => reportOk x
  | .auditTimer _ => true
  | .auditReceived _ x => x.length = 8
  | .resyncReq _ => true
  | .resyncMark _ => true
  | .resyncAck _ x => x.length = 8
  | .resyncTimeout _ => true
  | .uncorrectableCodeword _ => true
  | .burstGapExpiry _ => true
  | .retryClockExpiry _ => true
  | .nakReceived _ _ => true
  | .replayTimeout _ => true
  | .senderAckTimeout _ => true
  | .retrainWrite _ => true
  | .keepaliveRequest _ => true
  | .keepaliveRelease _ => true
  | .kaReq _ => true
  | .kaAck _ => true
  | .kaRetryTimer _ => true
  | .keepaliveWordTimer _ => true
  | .keepaliveWord _ _ => true
  | .keepaliveWordTimeout _ => true
  | .wake _ => true
  | .wakeTimeout _ => true
  | .retrainDone _ => true
  | .retrainTimeout _ => true
  | .holdDownExpiry _ => true
  | .lossOfSignal _ _ => true
  | .pfcReceived _ _ _ => true
  | .pfcRefreshTimer _ => true
  | .lockTake _ _ => true
  | .lockRelease _ _ => true
  | .tblWrite _ _ => true
  | .tblClear _ _ => true
  | .tblInsert _ _ => true
  | .tblDelete _ _ => true
  | .cmapSnapshot => true
  | .replicationTake _ => true
  | .contribAccept _ x => troubleOk x.engine && troubleOk x.copy
  | .spillRequest _ _ => true
  | .contribRetry _ x => troubleOk x.engine && troubleOk x.copy
  | .spillWaitTimeout _ => true
  | .chunkRelease _ _ _ _ x => releaseOk x.engine && troubleOk x.copy
  | .quarantine _ => true
  | .garnetRelease _ => true
  | .evacuationDone _ => true
  | .selftestDone _ _ => true
  | .istTurnExpiry => true
  | .istPassDone _ => true
  | .allReduce _ d => kindIs 1 d
  | .reduceScatter _ d => kindIs 2 d
  | .allGather _ d => kindIs 3 d
  | .broadcast _ d => kindIs 4 d
  | .barrier _ d => kindIs 5 d
  | .abort _ d => kindIs 8 d
  | .rebind _ d => kindIs 9 d
  | .groupSet _ d x => kindIs 0xA d && dataOk 16 x
  | .groupClear _ d => kindIs 0xB d
  | .memberSet _ d x => kindIs 0xC d && dataOk (8 * (d.extractLsb' 144 16).toNat) x
  | .nop _ d => !([1, 2, 3, 4, 5, 8, 9, 0xA, 0xB, 0xC].any fun k => kindIs k d)
  | .tokenWrite _ _ => true
  | .contrib _ => true
  | .gather _ => true
  | .bcast _ => true
  | .barrierArrival _ => true
  | .contextTimeout _ _ => true
  | .contextFinish _ _ => true
  | .contextFailure _ _ => true
  | .rebindCommit _ => true
  | .fenceTimeout _ => true
  | .read _ => true
  | .write _ => true
  | .add _ => true
  | .fetchAdd _ => true
  | .swap _ => true
  | .cas _ => true
  | .fetchOr _ => true
  | .fetchAnd _ => true
  | .updateApply _ _ => true
  | .updateQueueRetry _ => true
  | .orderTimeout _ => true
  | .writeResp _ => true
  | .rgnSet => true
  | .rgnClear => true
  | .rgnRetag => true
  | .gwSet => true
  | .gwClear => true
  | .sweepDone _ => true
  | .gneissJob _ _ => true
  | .roceAck _ _ _ => true
  | .roceNak _ _ _ => true
  | .rnrNak _ _ => true
  | .rnrTimer _ => true
  | .ackTimeout _ => true
  | .cnp _ => true
  | .rateRecovery _ => true
  | .partWrite _ => true
  | .openShard _ c => !([2, 3, 4, 8, 0x10, 0x11, 0x12].any fun k => kindIs k c)
  | .release _ c => kindIs 2 c
  | .mirror _ c => kindIs 3 c
  | .drain _ c => kindIs 4 c
  | .restore _ c => kindIs 8 c
  | .mark _ c => kindIs 0x10 c
  | .trim _ c => kindIs 0x11 c
  | .replay _ c => kindIs 0x12 c
  | .fillTimeout _ => true
  | .mirrorWriteSend _ => true
  | .respTimeout _ => true
  | .restoreFrame _ => true
  | .replayWrite _ => true
  | .journalAppend => true
  | .journalRecordVisible _ => true
  | .streamEnable _ _ => true
  | .streamDisable _ _ => true
  | .groupMapWrite _ _ => true
  | .quench _ _ => true
  | .oeSweep _ => true
  | .elsEnWrite _ _ => true
  | .elsPresenceChange _ _ => true
  | .elsFaultChange _ _ => true
  | .laserLightLost _ _ _ => true
  | .laserLightReturn _ _ _ _ => true
  | .resonanceFound _ _ _ => true
  | .sweepTimeout _ _ => true
  | .heaterRangeEnd _ _ => true
  | .loopUpdate _ _ _ => true
  | .laneDriverChange _ _ _ => true
  | .foiEnable => true
  | .foiDisable => true
  | .ringLight _ => true
  | .ringDark _ => true
  | .ringHeaterEnd _ => true
  | .ringLockUpdate _ _ _ => true
  | .tapSample _ _ => true
  | .rogueLight _ => true
  | .circuitActive _ => true
  | .circuitLoss _ => true
  | .revokeDark _ => true
  | .revokeTimer _ => true
  | .grant => true
  | .revoke => true
  | .block => true
  | .unblock => true
  | .cal _ _ => true
  | .locate => true
  | .directoryPublication => true
  | .rawWrap => true
  | .stepCommit => true
  | .stepApply => true
  | .rateWrite _ => true
  | .invalidate => true
  | .qtzSnap => true
  | .tileCopySync _ => true
  | .txtsPop _ => true
  | .ppsInEdge => true
  | .ppsOutEdge => true
  | .ppsOutFall => true
  | .counterCarry => true
  | .snapGo _ _ => true
  | .snapLatch => true
  | .snapDone => true
  | .prunWrite _ => true
  | .traceRecord _ => true
  | .monitorSample _ _ => true
  | .monitorRearm _ => true
  | .dlBegin => true
  | .dlChunk => true
  | .verify _ => true
  | .activateNext => true
  | .activateRoll => true
  | .activateRun => true
  | .confirm => true
  | .tileLoad _ => true
  | .rollGroup _ _ => true
  | .micaStart _ => true
  | .imageRunning _ => true
  | .powerOn => true
  | .powerGoodHoldEnd _ _ => true
  | .brownOut => true
  | .resetN _ _ _ => true
  | .watchdogKick => true
  | .watchdogHalf => true
  | .watchdogTimeout => true
  | .softwareRequest _ => true
  | .mgmtLockup => true
  | .clockFailure _ => true
  | .clockRecovery _ => true
  | .resetAssertEnd _ => true
  | .resetReload _ x => x.retired.length ≤ 4
  | .tableCopyReload _ => true
  | .failsClear => true
  | .domainPowerUp _ => true
  | .domainPowerDown _ => true
  | .domainOn _ _ => true
  | .tileCellDiscard _ => true
  | .sleepRequest _ => true
  | .sleepDone => true
  | .lcAdvance _ => true
  | .rmaUnlock _ => true
  | .keySet _ => true
  | .keyRevoke _ => true
  | .svnRaise _ => true
  | .rstmapSet _ => true
  | .repairFuse _ => true
  | .attest => true
  | .bist x => rowsOk x.rows
  | .scanEntry => true
  | .sramScrub x _ => wordOk x
  | .patrolScrub _ _ => true
  | .ringDoorbell _ _ => true
  | .cqDoorbell _ _ => true
  | .ringEnable _ _ => true
  | .ringReset _ => true
  | .cqReset _ => true
  | .hostRxFrame _ _ => true
  | .hostTxFrame _ ds bs x => imageOk x && ds ≠ [] && bs.length = (ds.map fun d => d.len.toNat).sum
  | .cplRecord _ => true
  | .hostAccessFault _ => true
  | .functionLevelReset => true
  | .busMasterEnable _ => true
  | .ringIrqDelay _ => true
  | .irqArm _ => true
  | .mailboxDoorbell _ => true
  | .d2hAck _ => true
  | .ping => true
  | .fwInfo => true
  | .ptpCfg => true
  | .todSet => true
  | .timeSrc => true
  | .uartFrame _ => true
  | .regRead => true
  | .regWrite => true
  | .baud => true
  | .stageWrite => true
  | .i2cStart _ _ => true
  | .i2cTransferEnd _ x => endOk x
  | .i2cClear _ _ => true
  | .i2cReset _ _ _ => true
  | .smbusBlockRead _ => true
  | .alertResponse => true
  | .gpioFuncWrite _ _ => true
  | .gpioSwitchEnd _ => true
  | .gpioEdge _ _ => true
  | .bypass _ => true
  | .idcode => true
  | .samplePreload _ _ => true
  | .extest _ => true
  | .debugTransport => true
  | .barAccess two a _ => two || wordAligned a.toNat false
  | .obsidianCommandPath _ _ => true
  | .resetReq _ _ _ => true
  | .thermalTrip => true
  | .pfcPauseExpiry _ _ => true
  | .readResp _ => true
  | .atomicResp _ => true
  | .powerUpTurn => true
  | .staleBlocksCopied _ => true
  | .userViewRead _ _ => true

end Sys2Proof
end

