-- ==== Sys2Proof/Tests/Slice0.lean ====
section
/-!
SUPPORT. Tests: for each statement a state and operands that meet its hypotheses, clause by clause, at the ends of their ranges;
an ill-formed term for each check of WellFormed; and values from the spec's own examples.
-/

open Sys2Proof Sys2Proof.Machine

namespace Sys2Proof.Tests

/-- A state with register fields written, other things as after reset. -/
def sx (fs : List (Fld × Nat × Nat)) (f : Blk → Blk := id) : State :=
  { State.reset with blk := f (fs.foldl (fun b x => b.setFld x.1 x.2.1 x.2.2) Blk.reset) }

/-- Register fields that say that domains are ON. -/
def on (ds : List Nat) : List (Fld × Nat × Nat) := ds.map fun d => (.PWR_DOM_STATUS_state, d, 1)

/-- A small frame. -/
def fr : Frame := ⟨2, 4, none, 0x0800, List.replicate 46 0⟩

/-- A copy of that frame for one link, in a phase. -/
def cp (phase : CopyPhase) (l : Nat) : CopyRec :=
  { frame := fr, cls := 2, node := .image 1, target := .link l, inLink := none, tile := tileOf l, ncells := 1,
    phase := phase, stalled := false, sent := 0, landed := 0, wrote := 0, todo := [], refs := 0, cells := [],
    enqueued := false, first := false, turned := false, ftag := 0, chkFail := false, short := false, tag := none, tx := none, ts := false }

/-- Register fields that say that links are UP. -/
def ups (ls : List Nat) : List (Fld × Nat × Nat) := ls.flatMap fun l => [(.TIL_LNK_STATUS_state, l, 3), (.TIL_LNK_STATUS_up, l, 1)]

/-- Register fields that put Agate directions in a state: link, direction, code. -/
def ag (ls : List (Nat × Nat × Nat)) : List (Fld × Nat × Nat) := ls.map fun l => (.D2D_LNK_STATUS_state, rxEnd l.1 l.2.1, l.2.2)


namespace P01



theorem wit_RegisterWriteByAccessCode :
    (∃ (s : State) (a : BitVec 26) (r : Reg) (i : Nat), Reg.find a.toNat = some (r, i, false) ∧
      (∀ (n : Nat), addrDomain a.toNat = some n → s.blk.isolated n = false) ∧ s.blk.missing r i = true ∧
      a.toNat % 4 = 0 ∧ r.info.wide = false) ∧
    (∃ (s : State) (a : BitVec 26) (r : Reg) (i : Nat), Reg.find a.toNat = some (r, i, false) ∧
      (∀ (n : Nat), addrDomain a.toNat = some n → s.blk.isolated n = false) ∧ s.blk.missing r i = true ∧
      a.toNat % 4 = 0 ∧ r.info.wide = false) ∧
    (∃ (s : State) (path : Path) (a : BitVec 26) (r : Reg) (i : Nat), Answers s.blk a.toNat r i false ∧
      r.info.wide = false ∧ a.toNat % 4 = 0 ∧ actingReg r = false ∧ PathOpen s path) ∧
    (∃ (s : State) (path : Path) (a : BitVec 26) (r : Reg) (i : Nat), Answers s.blk a.toNat r i false ∧
      r.info.wide = false ∧ a.toNat % 4 = 0 ∧ actingReg r = false ∧ PathOpen s path) :=
  ⟨⟨sx [], 0x2000400, .TIL_LNK_CTL, 3, by (repeat' apply And.intro) <;> decide +kernel⟩,
   ⟨sx [], 0x2000400, .TIL_LNK_CTL, 3, by (repeat' apply And.intro) <;> decide +kernel⟩,
   ⟨sx [], .mgmt, 0x1210200, .I2C_TGT_CFG, 0, by (repeat' apply And.intro) <;> decide +kernel⟩,
   ⟨sx [], .host, 0x3F10000, .TIL_FWD_CFG, 31, by (repeat' apply And.intro) <;> decide +kernel⟩⟩

theorem wit_SixtyFourBitHalves :
    (∃ (s : State) (a : BitVec 26) (r : Reg) (i : Nat), Answers s.blk a.toNat r i false ∧ r.info.wide = true ∧
      a.toNat % 4 = 0) ∧
    (∃ (s : State) (a : BitVec 26) (r : Reg) (i v : Nat), Answers s.blk a.toNat r i true ∧ a.toNat % 4 = 0 ∧
      s.blk.hiLatch.find (a.toNat - 4) = some v) ∧
    (∃ (s : State) (a : BitVec 26) (r : Reg) (i : Nat), Answers s.blk a.toNat r i true ∧ a.toNat % 4 = 0 ∧
      s.blk.hiLatch.find (a.toNat - 4) = none) ∧
    (∃ (s : State) (path : Path) (a : BitVec 26) (r : Reg) (i : Nat), Answers s.blk a.toNat r i false ∧
      r.info.wide = true ∧ a.toNat % 4 = 0 ∧ PathOpen s path) ∧
    (∃ (s : State) (path : Path) (a : BitVec 26) (r : Reg) (i lo : Nat), Answers s.blk a.toNat r i true ∧
      a.toNat % 4 = 0 ∧ actingReg r = false ∧ PathOpen s path ∧
      (s.blk.loHeld.find (a.toNat - 4) = some lo ∨ s.blk.loHeld.find (a.toNat - 4) = none ∧ (∀ f ∈ r.info.fields, f.info.access ≠ Access.w1c) ∧ lo = s.blk.regRaw r i % 2 ^ 32)) ∧
    (∃ (s : State) (path : Path) (a : BitVec 26) (r : Reg) (i lo : Nat), Answers s.blk a.toNat r i true ∧
      a.toNat % 4 = 0 ∧ actingReg r = false ∧ PathOpen s path ∧
      (s.blk.loHeld.find (a.toNat - 4) = some lo ∨ s.blk.loHeld.find (a.toNat - 4) = none ∧ (∀ f ∈ r.info.fields, f.info.access ≠ Access.w1c) ∧ lo = s.blk.regRaw r i % 2 ^ 32)) :=
  ⟨⟨sx [], 0x700018, .QTZ_RAW, 0, by (repeat' apply And.intro) <;> decide +kernel⟩,
   ⟨sx [] fun b => { b with hiLatch := [(0x700018, 5)] }, 0x70001C, .QTZ_RAW, 0, 5,
      by (repeat' apply And.intro) <;> decide +kernel⟩,
   ⟨sx [] fun b => { b with now := 2 ^ 40 }, 0x70001C, .QTZ_RAW, 0, by (repeat' apply And.intro) <;> decide +kernel⟩,
   ⟨sx [], .host, 0x2010008, .TIL_FWD_RMAC, 0, by (repeat' apply And.intro) <;> decide +kernel⟩,
   ⟨sx [] fun b => { b with loHeld := [(0x3F10008, 6)] }, .mgmt, 0x3F1000C, .TIL_FWD_RMAC, 31, 6,
      by (repeat' apply And.intro) <;> decide +kernel⟩,
   ⟨sx [], .mgmt, 0x201000C, .TIL_FWD_RMAC, 0, 0, by (repeat' apply And.intro) <;> decide +kernel⟩⟩

theorem wit_WindowAccesses :
    (∃ (s : State), s.blk.flag Fld.RSTC_CLK_STATUS_pcie_ref 0 = true) ∧
    (∃ (s : State) (bar : Bar) (a : BitVec 30) (n : Nat), s.blk.pcieUp = true ∧
      (bar = Bar.bar0 ∧ addrDomain (a.toNat % 2 ^ 26) = some n ∨ bar = Bar.bar2 ∧ windowDomain a.toNat = some n) ∧
      s.blk.domOn n = false) ∧
    (∃ (s : State) (bar : Bar) (a : BitVec 30) (n : Nat), s.blk.pcieUp = true ∧
      (bar = Bar.bar0 ∧ addrDomain (a.toNat % 2 ^ 26) = some n ∨ bar = Bar.bar2 ∧ windowDomain a.toNat = some n) ∧
      s.blk.domOn n = false) ∧
    (∃ (s : State) (bar : Bar) (a : BitVec 30) (n : Nat), s.blk.pcieUp = true ∧
      (bar = Bar.bar0 ∧ addrDomain (a.toNat % 2 ^ 26) = some n ∨ bar = Bar.bar2 ∧ windowDomain a.toNat = some n) ∧
      s.blk.domOn n = false) ∧
    (∃ (s : State) (d : DieId),
      (∀ (n : Nat), addrDomain (Reg.GNS_CQ_STATUS.addrOf ↑d) = some n → s.blk.isolated n = false)) ∧
    (∃ (s : State) (a : BitVec 26) (r : Reg) (i g : Nat), Blk.counterAt a.toNat = some (r, i, g) ∧
      s.blk.pcieUp = true ∧ s.blk.bit Fld.JSP_UPERM_groups 0 g = true ∧
      (∀ (n : Nat), r.domain i = some n → s.blk.isolated n = false)) ∧
    (∃ (s : State) (a : BitVec 26) (r : Reg) (i g : Nat), Blk.counterAt a.toNat = some (r, i, g) ∧
      s.blk.pcieUp = true ∧ s.blk.bit Fld.JSP_UPERM_groups 0 g = true ∧
      (∀ (n : Nat), r.domain i = some n → s.blk.isolated n = false)) :=
  ⟨⟨sx [(.RSTC_CLK_STATUS_pcie_ref, 0, 1)], by decide +kernel⟩,
   ⟨sx [(.PWR_DOM_STATUS_state, 0, 0)], .bar0, 0x2010008, 0, by decide +kernel⟩,
   ⟨sx [(.PWR_DOM_STATUS_state, 31, 0)], .bar0, 0x7F10008, 31, by decide +kernel⟩,
   ⟨sx [(.PWR_DOM_STATUS_state, 156, 0)], .bar2, 0x31FFFF8, 156, by decide +kernel⟩,
   ⟨sx [], 3, by (repeat' apply And.intro) <;> decide +kernel⟩,
   ⟨sx [(.JSP_UPERM_groups, 0, 2047)], 0x2000180, .TIL_LNK_FEC_CORR, 0, 0,
      by (repeat' apply And.intro) <;> decide +kernel⟩,
   ⟨sx [(.JSP_UPERM_groups, 0, 2047)], 0x2000180, .TIL_LNK_FEC_CORR, 0, 0,
      by (repeat' apply And.intro) <;> decide +kernel⟩⟩

theorem wit_WindowAccesses_denied :
    ∃ (s : State) (a : BitVec 26), s.blk.pcieUp = true ∧ ∀ r i g, Blk.counterAt a.toNat = some (r, i, g) → s.blk.bit .JSP_UPERM_groups 0 g = false := by
  refine ⟨sx [], 0x2000180, by decide +kernel, fun r i g h => ?_⟩
  have e : Blk.counterAt (0x2000180 : BitVec 26).toNat = some (.TIL_LNK_FEC_CORR, 0, 0) := by decide +kernel
  rw [e] at h
  obtain ⟨-, -, rfl⟩ : _ ∧ _ ∧ 0 = g := by simpa using h
  decide +kernel

end P01

namespace P02

/-- Records of the management cores' queue: two entries of table 8, two of table 0, one insert. -/
def rec8 : TblRecord := ⟨8, 0, 2, 65534, 9, [128, 0, 128, 1]⟩
def rec0 : TblRecord := ⟨0, 0, 2, 0, 9, [0, 0, 0, 5, 0, 0, 0, 6]⟩
def recIns : TblRecord := ⟨3, 2, 1, 0, 9, beBytes 16 (learnEntry 5 1 7 true 0)⟩

theorem wit_TableLocksAndRecords :
    (∃ (s : State) (n : Fin 9), s.blk.flag Fld.DMA_TBL_LOCK_locked ↑n = false) ∧
    (∃ (s : State) (n : Fin 9) (p : Path), s.blk.flag Fld.DMA_TBL_LOCK_locked ↑n = true ∧ p ≠ Path.host ∧
      s.blk.lockAt.find ↑n = some s.blk.now) ∧
    (∃ (s : State) (n : Fin 9) (p : Path), s.blk.flag Fld.DMA_TBL_LOCK_locked ↑n = true ∧
      (p = Path.host ∨ s.blk.lockAt.find ↑n ≠ some s.blk.now)) ∧
    (∃ (s : State) (n : Fin 9) (p : Path), n ≠ 3 ∧ s.blk.flag Fld.DMA_TBL_LOCK_locked ↑n = true ∧
      (p ≠ Path.host ∨ s.blk.fld Fld.DMA_TBL_LOCK_holder ↑n = 0)) ∧
    (∃ (s : State) (n : Fin 9) (p : Path), n ≠ 3 ∧ s.blk.flag Fld.DMA_TBL_LOCK_locked ↑n = true ∧
      (p ≠ Path.host ∨ s.blk.fld Fld.DMA_TBL_LOCK_holder ↑n = 0)) ∧
    (∃ (s : State) (n : Fin 9), s.blk.flag Fld.DMA_TBL_LOCK_locked ↑n = true ∧ s.blk.fld Fld.DMA_TBL_LOCK_holder ↑n = 1) ∧
    (∃ (s : State) (r : TblRecord) (i : Instr), s.blk.tableLoads ≠ [] ∧
      i ∈ [Instr.tblWrite TblSource.mgmtQueue r, Instr.tblClear TblSource.mgmtQueue r, Instr.tblInsert TblSource.mgmtQueue r, Instr.tblDelete TblSource.mgmtQueue r]) ∧
    (∃ (s : State) (r : TblRecord) (k : Nat), s.blk.tableLoads = [] ∧ r.table.toNat ∈ [0, 2, 4, 6, 7, 8] ∧
      k < r.count.toNat ∧
      s.blk.recordStatus TblSource.mgmtQueue { table := r.table, op := 0, count := r.count, first := r.first, tag := r.tag, body := r.body } = 0 ∧
      (∀ j < r.count.toNat, entryBad r.table.toNat (Blk.bodyEntry { table := r.table, op := 0, count := r.count, first := r.first, tag := r.tag, body := r.body } j) = false)) ∧
    (∃ (s : State) (r : TblRecord) (k : Nat), s.blk.tableLoads = [] ∧ r.table.toNat ∈ [0, 2, 4, 6, 7, 8] ∧
      k < r.count.toNat ∧
      s.blk.recordStatus TblSource.mgmtQueue { table := r.table, op := 0, count := r.count, first := r.first, tag := r.tag, body := r.body } = 0 ∧
      (∀ j < r.count.toNat, entryBad r.table.toNat (Blk.bodyEntry { table := r.table, op := 0, count := r.count, first := r.first, tag := r.tag, body := r.body } j) = false)) ∧
    (∃ (s : State) (r : TblRecord) (k : Nat), s.blk.tableLoads = [] ∧ r.table.toNat ∈ [0, 2, 4, 6, 7, 8] ∧
      k < r.count.toNat ∧
      s.blk.recordStatus TblSource.mgmtQueue { table := r.table, op := 1, count := r.count, first := r.first, tag := r.tag, body := r.body } = 0) :=
  ⟨⟨sx [], 8, by decide +kernel⟩,
   ⟨sx [(.DMA_TBL_LOCK_locked, 0, 1)] fun b => { b with lockAt := [(0, 0)] }, 0, .mgmt, by decide +kernel⟩,
   ⟨sx [(.DMA_TBL_LOCK_locked, 0, 1)], 0, .mgmt, by decide +kernel⟩,
   ⟨sx [(.DMA_TBL_LOCK_locked, 4, 1)], 4, .host, by decide +kernel⟩,
   ⟨sx [(.DMA_TBL_LOCK_locked, 8, 1)], 8, .jtag, by decide +kernel⟩,
   ⟨sx [(.DMA_TBL_LOCK_locked, 8, 1), (.DMA_TBL_LOCK_holder, 8, 1)], 8, by decide +kernel⟩,
   ⟨sx [] fun b => { b with tableLoads := [3] }, rec8, .tblWrite .mgmtQueue { rec8 with op := 0 }, by decide +kernel⟩,
   ⟨sx [(.DMA_TBL_LOCK_locked, 8, 1), (.DMA_TBL_LOCK_holder, 8, 1)], rec8, 1, by decide +kernel⟩,
   ⟨sx [(.DMA_TBL_LOCK_locked, 0, 1), (.DMA_TBL_LOCK_holder, 0, 1)], rec0, 0, by decide +kernel⟩,
   ⟨sx [(.DMA_TBL_LOCK_locked, 0, 1), (.DMA_TBL_LOCK_holder, 0, 1)], rec0, 1, by decide +kernel⟩⟩

theorem wit_LearningTable :
    (∃ (s : State) (r : TblRecord) (i : Nat), s.blk.tableLoads = [] ∧ r.count = 1 ∧ i < 262144 ∧
      s.blk.recordStatus TblSource.mgmtQueue { table := r.table, op := 2, count := r.count, first := r.first, tag := r.tag, body := r.body } = 0 ∧
      entryBad 3 (Blk.bodyEntry { table := r.table, op := 2, count := r.count, first := r.first, tag := r.tag, body := r.body } 0) = false ∧
      s.blk.findLearn 0 (bits (Blk.bodyEntry r 0) 79 68) (bits (Blk.bodyEntry r 0) 127 80) = none ∧
      s.blk.freeLearn (bits (Blk.bodyEntry r 0) 79 68) (bits (Blk.bodyEntry r 0) 127 80) = some i ∧ r.op = 2) ∧
    (∃ (s : State) (r : TblRecord) (i : Nat), s.blk.tableLoads = [] ∧ r.count = 1 ∧ i < 262144 ∧ r.op = 3 ∧
      s.blk.recordStatus TblSource.mgmtQueue r = 0 ∧
      s.blk.findLearn 0 (bits (Blk.bodyEntry r 0) 79 68) (bits (Blk.bodyEntry r 0) 127 80) = some i) ∧
    (∃ (s : State) (e : LearnEvent) (rest : List LearnEvent) (i : Nat), s.blk.flag Fld.DMA_TBL_LOCK_locked 3 = false ∧
      s.blk.learn = e :: rest ∧ i < 262144 ∧ s.blk.findLearn 0 e.vid e.mac = none ∧ s.blk.atLimit e.link = false ∧
      s.blk.freeLearn e.vid e.mac = some i) ∧
    (∃ (s : State) (i : Nat), s.blk.fld Fld.DMA_TBL_AGE_age_s 0 ≠ 0 ∧ s.blk.flag Fld.DMA_TBL_LOCK_locked 3 = false ∧
      i < 262144 ∧ Blk.dynamicEntry (s.blk.tableEntry 0 3 i) = true ∧
      s.blk.fld Fld.DMA_TBL_AGE_age_s 0 < (s.blk.seconds16 + 65536 - bits (s.blk.tableEntry 0 3 i) 55 40) % 65536) :=
  ⟨⟨sx [(.DMA_TBL_LOCK_locked, 3, 1), (.DMA_TBL_LOCK_holder, 3, 1)], recIns, 4 * learnBucket 1 5, by decide +kernel⟩,
   ⟨sx [(.DMA_TBL_LOCK_locked, 3, 1), (.DMA_TBL_LOCK_holder, 3, 1)] fun b => b.putAll 3 (4 * learnBucket 1 5 + 3) (learnEntry 5 1 7 true 0),
      { recIns with op := 3 }, 4 * learnBucket 1 5 + 3, by decide +kernel⟩,
   ⟨sx [] fun b => { b.putAll 5 7 (4 * 65536) with learn := [⟨5, 1, 7⟩] }, ⟨5, 1, 7⟩, [], 4 * learnBucket 1 5,
      by decide +kernel⟩,
   ⟨sx [(.DMA_TBL_AGE_age_s, 0, 1)] fun b => b.putAll 3 262143 (learnEntry 5 1 7 false 65530), 262143,
      by decide +kernel⟩⟩


end P02

namespace P03

/-- A granted copy of two cells that goes cut-through from the link it came by. -/
def cf : CopyRec := { cp .granted 1023 with todo := [(1023, none)], inLink := some 1020, ncells := 2 }

theorem wit_AdmissionDecided :
    (∃ (s : State) (d : DieId) (key : Nat) (t : Fin 32) (c : CopyRec),
      (s.blk.bsl ↑d).requests = [(↑t, Request.copy key)] ∧ (s.blk.bsl ↑d).carried = [] ∧ key % 4 = ↑d ∧
      s.blk.copy? key = some c ∧ c.inLink = none ∧ c.tx = none ∧ s.blk.receivers key c = s.blk.namedLegs (↑d) c.target ∧
      s.blk.namedLegs (↑d) c.target ≠ [] ∧ c.ncells ≤ s.blk.freeCount ↑d ∧
      ↑(s.blk.overCells (↑d) c.cls c.ncells) ≤ s.blk.freeShared ↑d ∧
      (s.blk.overCells (↑d) c.cls c.ncells = 0 ∨ 8 < s.blk.fld Fld.BSL_POOL_TC_alpha (8 * ↑d + c.cls) ∨ ∀ depth ∈ 0 :: List.map (s.blk.queueCells ↑d) (List.filterMap (fun x => s.blk.queueFor x.1 c.cls c.node) (s.blk.namedLegs (↑d) c.target)), (↑depth + ↑c.ncells) * 16 ≤ 2 ^ s.blk.fld Fld.BSL_POOL_TC_alpha (8 * ↑d + c.cls) * s.blk.freeShared ↑d)) ∧
    (∃ (s : State) (d : DieId) (key : Nat) (t : Fin 32) (c : CopyRec),
      (s.blk.bsl ↑d).requests = [(↑t, Request.copy key)] ∧ (s.blk.bsl ↑d).carried = [] ∧ key % 4 = ↑d ∧
      s.blk.copy? key = some c ∧ c.inLink = none ∧ c.tx = none ∧ s.blk.receivers key c = s.blk.namedLegs (↑d) c.target ∧
      s.blk.namedLegs (↑d) c.target ≠ [] ∧ c.ncells ≤ s.blk.freeCount ↑d ∧
      ↑(s.blk.overCells (↑d) c.cls c.ncells) ≤ s.blk.freeShared ↑d ∧
      (s.blk.overCells (↑d) c.cls c.ncells = 0 ∨ 8 < s.blk.fld Fld.BSL_POOL_TC_alpha (8 * ↑d + c.cls) ∨ ∀ depth ∈ 0 :: List.map (s.blk.queueCells ↑d) (List.filterMap (fun x => s.blk.queueFor x.1 c.cls c.node) (s.blk.namedLegs (↑d) c.target)), (↑depth + ↑c.ncells) * 16 ≤ 2 ^ s.blk.fld Fld.BSL_POOL_TC_alpha (8 * ↑d + c.cls) * s.blk.freeShared ↑d)) ∧
    (∃ (s : State) (d : DieId) (key : Nat) (t : Fin 32) (c : CopyRec),
      (s.blk.bsl ↑d).requests = [(↑t, Request.copy key)] ∧ (s.blk.bsl ↑d).carried = [] ∧ key % 4 = ↑d ∧
      s.blk.copy? key = some c ∧ c.inLink = none ∧ c.tx = none ∧ s.blk.receivers key c = s.blk.namedLegs (↑d) c.target ∧
      s.blk.namedLegs (↑d) c.target ≠ [] ∧ s.blk.lossless (↑d) c.cls = false ∧
      (s.blk.freeCount ↑d < c.ncells ∨ s.blk.freeShared ↑d < ↑(s.blk.overCells (↑d) c.cls c.ncells))) ∧
    (∃ (s : State) (fid : Nat) (d : DieId) (c : CopyRec), s.blk.copy? (4 * fid + ↑d) = some c ∧
      c.phase = CopyPhase.refused ∧ dieOfTile c.tile = ↑d) ∧
    (∃ (s : State) (fid : Nat) (d : DieId) (c : CopyRec), s.blk.copy? (4 * fid + ↑d) = some c ∧
      c.phase = CopyPhase.refused ∧ c.turned = true ∧ c.stalled = false ∧ s.blk.lossless (↑d) c.cls = true) :=
  ⟨⟨sx (ups [768] ++ [(.BSL_POOL_TC_min_cells, 26, 8)]) fun b => { b with copies := [(23, cp .asked 768)], basalt := [(3, { BasaltDie.reset with requests := [(24, .copy 23)] })] },
      3, 23, 24, cp .asked 768, by decide +kernel⟩,
   ⟨sx (ups [0] ++ [(.BSL_POOL_TC_alpha, 2, 8)]) fun b => { b with copies := [(4, { cp .asked 0 with ncells := 40 })], basalt := [(0, { BasaltDie.reset with requests := [(0, .copy 4)] })] },
      0, 4, 0, { cp .asked 0 with ncells := 40 }, by decide +kernel⟩,
   ⟨sx (ups [768] ++ [(.BSL_ADM_CFG_lossless, 3, 0)]) fun b => { b with copies := [(23, { cp .asked 768 with ncells := 524289 })], basalt := [(3, { BasaltDie.reset with requests := [(24, .copy 23)] })] },
      3, 23, 24, { cp .asked 768 with ncells := 524289 }, by decide +kernel⟩,
   ⟨sx [] fun b => { b with copies := [(4, (cp .refused 0))] }, 1, 0, cp .refused 0, by decide +kernel⟩,
   ⟨sx [(.BSL_ADM_CFG_lossless, 0, 4)] fun b => { b with copies := [(4, { cp .refused 0 with turned := true })] }, 1,
      0, { cp .refused 0 with turned := true }, by decide +kernel⟩⟩

theorem wit_CopiesEnqueued :
    (∃ (s : State) (fid q : Nat) (d : DieId) (c : CopyRec) (x : Leg), s.blk.copy? (4 * fid + ↑d) = some c ∧
      c.phase = CopyPhase.granted ∧ c.first = false ∧ s.blk.cellAt (4 * fid + ↑d) 0 c = true ∧ c.todo = [x] ∧
      s.blk.behindEarlier (4 * fid + ↑d) c = false ∧ s.blk.cutThrough c x.1 = true ∧ c.cls ≠ 7 ∧
      s.blk.inService x.1 = true ∧ s.blk.queueFor x.1 c.cls c.node = some q) ∧
    (∃ (s : State) (fid q : Nat) (d : DieId) (c : CopyRec) (x : Leg), s.blk.copy? (4 * fid + ↑d) = some c ∧
      c.phase = CopyPhase.granted ∧ dieOfTile c.tile = ↑d ∧ c.todo = [x] ∧ c.cls ≠ 7 ∧ c.chkFail = false ∧
      s.blk.behindEarlier (4 * fid + ↑d) c = false ∧ s.blk.inService x.1 = true ∧
      s.blk.queueFor x.1 c.cls c.node = some q ∧
      (∀ (r : FrameRec), s.blk.frame? fid = some r → r.whole = true ∧ r.chkFail = false)) ∧
    (∃ (s : State) (fid : Nat) (d : DieId) (c : CopyRec), s.blk.copy? (4 * fid + ↑d) = some c ∧ c.first = false ∧
      s.blk.behindEarlier (4 * fid + ↑d) c = true) ∧
    (∃ (s : State) (fid : Nat) (d : DieId) (c : CopyRec), s.blk.copy? (4 * fid + ↑d) = some c ∧ c.first = false ∧
      s.blk.behindEarlier (4 * fid + ↑d) c = true) :=
  ⟨⟨sx (ups [1023] ++ [(.TIL_CT_CFG_ct_en, 31, 2 ^ 58), (.TIL_PORT_MODE_breakout, 255, 2), (.FLD_PORT_SPLIT_nodes, 255, 2 ^ 64 - 1)]) fun b => { b with copies := [(7, cf)] },
      1, 256 * 255 + 64 + 1, 3, cf, (1023, none), by decide +kernel⟩,
   ⟨sx (ups [0]) fun b => { b with copies := [(4, { cp .granted 0 with todo := [(0, none)] })] }, 1, 65, 0,
      { cp .granted 0 with todo := [(0, none)] }, (0, none), by (repeat' apply And.intro) <;> decide +kernel⟩,
   ⟨sx (ups [1023]) fun b => { b with copies := [(7, { cf with ncells := 1 }), (11, cf)] }, 2, 3, cf,
      by decide +kernel⟩,
   ⟨sx (ups [1023]) fun b => { b with copies := [(7, { cf with ncells := 1 }), (11, cf)] }, 2, 3, cf,
      by decide +kernel⟩⟩

theorem wit_AgateLinks :
    (∃ (s : State) (fid : Nat) (d : DieId) (c : CopyRec) (k : Nat), s.blk.copy? (4 * fid + ↑d) = some c ∧
      c.phase = CopyPhase.toCross ∧ c.sent = 0 ∧ dieOfTile c.tile ≠ ↑d ∧ k = dirOf (dieOfTile c.tile) ↑d ∧
      0 < vget (s.blk.dir k).credits c.cls ∧ (∀ j < 8, (s.blk.lane (2 * (8 * (k / 2) + j) + k % 2)).cells = []) ∧
      0 < s.blk.liveLinks k ∧ 0 < c.ncells ∧
      (∀ (r : FrameRec), s.blk.frame? fid = some r → r.link = none ∨ 0 < Blk.cellsHere r)) ∧
    (∃ (s : State) (l : AgateId) (back : Bool) (x : AgateCell) (rest : List AgateCell) (k : Nat),
      k = 2 * (↑l / 8) + dirBit back ∧ (s.blk.lane (2 * ↑l + dirBit back)).cells = x :: rest ∧
      (s.blk.dir k).landing = [] ∧ x.seq = (s.blk.dir k).recvSeq.get 0 x.tile ∧ x.ready = false ∧
      s.blk.copy? x.copy = none ∧ s.blk.transfers.find x.copy = none) ∧
    (∃ (s : State) (p : PairId) (back : Bool) (c : ClassId) (k : Nat), k = 2 * ↑p + dirBit back ∧
      0 < vget (s.blk.dir k).inFlight ↑c) ∧
    (∃ (s : State) (l : AgateId) (back : Bool), (s.blk.lane (2 * ↑l + dirBit back)).badReplays ≠ 3) ∧
    (∃ (s : State) (l : AgateId) (back : Bool), (s.blk.lane (2 * ↑l + dirBit back)).badReplays ≠ 3) ∧
    (∃ (s : State) (l : AgateId) (endJ : Bool), s.blk.flag Fld.D2D_LNK_CTL_en (2 * ↑l + (1 - dirBit endJ)) = true ∧
      s.blk.domOn (108 + ↑l) = true ∧ s.blk.agIn (↑l) 0 AgateCode.off = true ∧ s.blk.agIn (↑l) 1 AgateCode.off = true) ∧
    (∃ (s : State) (l : AgateId),
      (∀ b < 2, s.blk.agIn (↑l) b AgateCode.training = true ∨ s.blk.agIn (↑l) b AgateCode.failed = true)) ∧
    (∃ (s : State) (l : AgateId) (back : Bool), s.blk.agIn (↑l) (dirBit back) AgateCode.training = true ∧
      s.blk.pairAwake (↑l / 8) = true) ∧
    (∃ (s : State) (l : AgateId) (back : Bool), s.blk.agIn (↑l) (dirBit back) AgateCode.training = true) ∧
    (∃ (s : State) (l : AgateId) (back : Bool), s.blk.agIn (↑l) (dirBit back) AgateCode.draining = true ∧
      (s.blk.lane (2 * ↑l + dirBit back)).cells = []) ∧
    (∃ (s : State) (l : AgateId) (back : Bool), s.blk.agIn (↑l) (dirBit back) AgateCode.draining = true ∧
      (s.blk.lane (2 * ↑l + dirBit back)).cells = []) ∧
    (∃ (s : State) (l : AgateId) (back : Bool), s.blk.agIn (↑l) (dirBit back) AgateCode.failed = true ∧
      s.blk.agReady ↑l = true ∧ s.blk.flag Fld.D2D_LNK_CTL_auto_retrain (rxEnd (↑l) (dirBit back)) = true) ∧
    (∃ (s : State) (l : AgateId) (back : Bool) (k : Nat), s.blk.agIn (↑l) (dirBit back) AgateCode.live = true ∧ k < 8 ∧
      8 * (↑l / 8) + k ≠ ↑l ∧ s.blk.agIn (8 * (↑l / 8) + k) (dirBit back) AgateCode.live = true ∧
      s.blk.pairAwake (↑l / 8) = true) ∧
    (∃ (s : State) (l : AgateId) (back : Bool) (k : Nat), s.blk.agIn (↑l) (dirBit back) AgateCode.live = true ∧ k < 8 ∧
      8 * (↑l / 8) + k ≠ ↑l ∧ s.blk.agIn (8 * (↑l / 8) + k) (dirBit back) AgateCode.live = true ∧
      s.blk.pairAwake (↑l / 8) = true ∧ s.blk.agIn (↑l) (1 - dirBit back) AgateCode.live = false) :=
  ⟨⟨sx [(.D2D_PAIR_STATUS_live_ij, 2, 1), (.D2D_LNK_STATUS_state, rxEnd 16 0, 2)] fun b => { b with copies := [(7, { cp .toCross 768 with tile := 0 })] },
      1, 3, { cp .toCross 768 with tile := 0 }, 4, by (repeat' apply And.intro) <;> decide +kernel⟩,
   ⟨sx [] fun b => { b with agateLanes := [(94, ⟨[⟨7, 0, 2, 24, 0, [], false⟩], 0⟩)] }, 47, false,
      ⟨7, 0, 2, 24, 0, [], false⟩, [], 10, by decide +kernel⟩,
   ⟨sx [] fun b => { b with agateDirs := [(11, { AgateDir.reset with inFlight := [0, 0, 0, 0, 0, 0, 0, 1], credits := List.replicate 8 63 })] },
      5, true, 7, 11, by decide +kernel⟩,
   ⟨sx [] fun b => { b with agateLanes := [(0, ⟨[⟨7, 0, 2, 24, 0, [], false⟩], 2⟩)] }, 0, false, by decide +kernel⟩,
   ⟨sx [(.D2D_LNK_CRCERR_count, 94, 2 ^ 64 - 1)], 47, true, by decide +kernel⟩,
   ⟨sx [(.D2D_LNK_CTL_en, 95, 1)], 47, false, by decide +kernel⟩,
   ⟨sx (ag [(47, 0, 1), (47, 1, 4)] ++ [(.D2D_LNK_CTL_en, 95, 1)]), 47, by decide +kernel⟩,
   ⟨sx (ag [(47, 1, 1)]), 47, true, by decide +kernel⟩,
   ⟨sx (ag [(0, 0, 1)]), 0, false, by decide +kernel⟩,
   ⟨sx (ag [(0, 0, 3)]), 0, false, by decide +kernel⟩,
   ⟨sx (ag [(0, 0, 3)] ++ [(.D2D_LNK_CTL_en, 0, 1), (.D2D_LNK_CTL_en, 1, 1)]), 0, false, by decide +kernel⟩,
   ⟨sx (ag [(46, 1, 4)] ++ [(.D2D_LNK_CTL_en, 92, 1), (.D2D_LNK_CTL_en, 93, 1), (.D2D_LNK_CTL_auto_retrain, rxEnd 46 1, 1)]),
      46, true, by decide +kernel⟩,
   ⟨sx (ag [(40, 0, 2), (47, 0, 2)]), 47, false, 0, by decide +kernel⟩,
   ⟨sx (ag [(40, 0, 2), (47, 0, 2)]), 47, false, 0, by decide +kernel⟩⟩

theorem wit_BasaltBooks :
    (∃ (s : State) (d : DieId) (cell : Nat) (u : CellUse), s.blk.flag Fld.BSL_AUDIT_CTL_en ↑d = true ∧
      (s.blk.bsl ↑d).cells = [(cell, u)] ∧ (s.blk.bsl ↑d).astray = []) ∧
    (∃ (s : State) (d : DieId) (cell : Nat) (u : CellUse), s.blk.flag Fld.BSL_AUDIT_CTL_en ↑d = true ∧
      (s.blk.bsl ↑d).cells = [(cell, u)] ∧ (s.blk.bsl ↑d).astray = []) ∧
    (∃ (s : State) (d : DieId) (cell : Nat), s.blk.flag Fld.BSL_AUDIT_CTL_en ↑d = true ∧ (s.blk.bsl ↑d).astray = [] ∧
      cell ∈ s.blk.ownedCells ↑d ∧ (s.blk.bsl ↑d).doubles.contains cell = false) :=
  ⟨⟨sx [(.BSL_AUDIT_CTL_en, 0, 1)] fun b => { b with basalt := [(0, { BasaltDie.reset with cells := [(524287, ⟨true, 2⟩)] })] },
      0, 524287, ⟨true, 2⟩, by decide +kernel⟩,
   ⟨sx [(.BSL_AUDIT_CTL_en, 3, 1)] fun b => { b with basalt := [(3, { BasaltDie.reset with cells := [(0, ⟨false, 0⟩)], suspects := [0] })] },
      3, 0, ⟨false, 0⟩, by decide +kernel⟩,
   ⟨sx [(.BSL_AUDIT_CTL_en, 3, 1)] fun b => { b with basalt := [(3, { BasaltDie.reset with cells := [(7, ⟨false, 2⟩)] })], copies := [(7, { cp .granted 1023 with cells := [7] })] },
      3, 7, by decide +kernel⟩⟩


end P03

namespace P04

/-- A link with the given changes. -/
def lk (l : Nat) (f : LinkRec → LinkRec) (b : Blk) : Blk := { b with links := [(l, f LinkRec.reset)] }

/-- An entry of a queue. -/
def qe : QEntry := ⟨4, 128, 1, none, 0, 0, false⟩

/-- A frame on its way out. -/
def tx1 : TxRec := ⟨4, fr, 2, false, none, false, 0, 0, 0, 0, false, 0, false, 0⟩

/-- Registers of links UP in Staketu mode with retry. -/
def stk (l : Nat) : List (Fld × Nat × Nat) := ups [l] ++ [(.TIL_LNK_STATUS_staketu, l, 1), (.TIL_LNK_STATUS_retry_on, l, 1)]

/-- A capability. -/
def cap : Lcf := ⟨1, 0xF, 0, 0, 0, List.replicate 8 0, 1522, true⟩

/-- Two sent frames. -/
def sf (n : Nat) : SentFrame := ⟨n, 5, 2, fr, false, false, true⟩

/-- A PFC frame for class 7. -/
def pfcFrame : Frame := ⟨0x0180C2000001, 4, none, 0x8808, [1, 1, 0, 0x80, 0,0, 0,0, 0,0, 0,0, 0,0, 0,0, 0,0, 0,9] ++ List.replicate 26 0⟩
/-- The check field of a link word of sequence number 8,191. -/
def wordCrc : Nat := crc8 (beBytes 5 0xFFF8000000)

/-- A Xeirrik frame of 64 bytes with 14 of payload: its first byte, its destination, hop_limit and opcode. -/
def xf (b0 : Byte) (dst : Nat) (hop op : Byte) : Frame :=
  ⟨2, 4, none, 0x88B5, b0 :: beBytes 3 (16 * dst) ++ [0, 0, hop, op, 0, 0, 0, 0, 0, 14] ++ List.replicate 32 0⟩

/-- Entries of forwarding tables, the same in the four dies: table, index, word. -/
def tb (es : List (Nat × Nat × Nat)) (b : Blk) : Blk := es.foldl (fun b e => b.putAll e.1 e.2.1 e.2.2) b

/-- An IPv4 frame with a TTL. -/
def ip (ttl : Byte) : Frame := { fr with data := List.replicate 8 0 ++ ttl :: List.replicate 37 0 }

/-- Every Agate pair has a link live in each direction. -/
def live : List (Fld × Nat × Nat) := (List.range 6).flatMap fun p => [(.D2D_PAIR_STATUS_live_ij, p, 1), (.D2D_PAIR_STATUS_live_ji, p, 8)]

/-- A frame in class 7's queue of node 31; two classes' queues, both weighted. -/
def selTc7 : State := sx (stk 1023 ++ [(.FLD_PORT_SPLIT_nodes, 255, 2 ^ 64 - 1)]) fun b =>
  lk 1023 (fun r => { r with held := List.replicate 8 1 }) { b with copies := [(4, cp .written 1023)], queues := [(256 * 255 + 32 * 7 + 31, [qe])] }
def selTwo : State := sx (ups [0] ++ [(.FLD_CLS_CFG_strict, 0, 0), (.FLD_CLS_CFG_strict, 1, 0)]) fun b =>
  { b with copies := [(4, cp .written 1023)], queues := [(0, [qe, qe]), (32, [qe])] }

/-- A frame that waits to begin. -/
def toBegin : State := sx (stk 0) fun b => lk 0 (fun r => { r with maxFrame := 9216, held := List.replicate 8 1 })
  { b with copies := [(4, cp .written 0)], feld := [(0, { FeldLink.reset with tx := [tx1, tx1] })] }

/-- Forwarding is enabled in tile 0. -/
def fw : List (Fld × Nat × Nat) := [(.TIL_FWD_CFG_fwd_en, 0, 1)]

theorem wit_FeldsparSelects :
    (∃ (s : State) (l : LinkId) (lead : Fin 225) (c : ClassId) (n q tag : Nat) (e : QEntry) (cp : CopyRec)
      (k : SchedNode), s.blk.Picks (↑l) (↑lead) (↑c) n e ∧ q = 256 * portOf ↑l + 32 * ↑c + n ∧
      s.blk.copy? e.copy = some cp ∧ (s.blk.feldOf ↑l).linkNode.Sorted ∧
      ((s.blk.feldOf ↑l).classNodes.get { vtime := 0, kids := [] } ↑c).Sorted ∧ k = s.blk.judgedClass ↑l ↑c ↑lead ∧
      tag = (k.kids.get { start := 0, finish := 0, lag := 0, on := false, head := 0 } n).finish) ∧
    (∃ (s : State) (l : LinkId) (lead : Fin 225) (c : ClassId) (n q tag : Nat) (e : QEntry) (cp : CopyRec)
      (k : SchedNode), s.blk.Picks (↑l) (↑lead) (↑c) n e ∧ q = 256 * portOf ↑l + 32 * ↑c + n ∧
      s.blk.copy? e.copy = some cp ∧ (s.blk.feldOf ↑l).linkNode.Sorted ∧
      ((s.blk.feldOf ↑l).classNodes.get { vtime := 0, kids := [] } ↑c).Sorted ∧ k = s.blk.judgedClass ↑l ↑c ↑lead ∧
      tag = (k.kids.get { start := 0, finish := 0, lag := 0, on := false, head := 0 } n).finish) :=
  ⟨⟨selTc7, 1023, 224, 7, 31, 256 * 255 + 32 * 7 + 31,
      ((selTc7.blk.judgedClass 1023 7 224).kids.get ⟨0, 0, 0, false, 0⟩ 31).finish, qe, cp .written 1023,
      selTc7.blk.judgedClass 1023 7 224, by (repeat' apply And.intro) <;> decide +kernel⟩,
   ⟨selTwo, 0, 0, 0, 0, 0, ((selTwo.blk.judgedClass 0 0 0).kids.get ⟨0, 0, 0, false, 0⟩ 0).finish, qe,
      cp .written 1023, selTwo.blk.judgedClass 0 0 0, by (repeat' apply And.intro) <;> decide +kernel⟩⟩

theorem wit_EgressAndGates :
    (∃ (s : State) (l : LinkId) (x : TxRec) (xs : List TxRec) (c : CopyRec) (n : Nat) (w : BitVec 48),
      (s.blk.feldOf ↑l).tx = x :: xs ∧ (∀ y ∈ xs, y.begun = false) ∧ (∀ u ∈ (s.blk.link ↑l).unacked, u.due = false) ∧
      (∀ (r : FrameRec), s.blk.frame? (x.copy / 4) = some r → r.whole = true ∧ r.chkFail = false) ∧
      s.blk.copy? x.copy = some c ∧ c.chkFail = false ∧ c.short = false ∧ c.lost = false ∧
      s.blk.checkFails (↑l) x (some c) false = false ∧ s.blk.staketu ↑l = true ∧
      s.blk.flag Fld.TIL_LNK_STATUS_retry_on ↑l = true ∧
      (x.begun = true ∧ x.word = some (n, w) ∨ x.begun = false ∧ frameLen x.frame ≤ s.blk.linkMax ↑l ∧ s.blk.mayBegin (↑l) x.cls (cellsOf (frameLen x.frame)) = true ∧ n = ((s.blk.link ↑l).lsn + 1) % 8192 ∧ w = s.blk.linkWord (↑l) n false)) ∧
    (∃ (s : State) (l : LinkId) (x : TxRec) (xs : List TxRec) (c : CopyRec) (n : Nat) (w : BitVec 48),
      (s.blk.feldOf ↑l).tx = x :: xs ∧ (∀ y ∈ xs, y.begun = false) ∧ (∀ u ∈ (s.blk.link ↑l).unacked, u.due = false) ∧
      (∀ (r : FrameRec), s.blk.frame? (x.copy / 4) = some r → r.whole = true ∧ r.chkFail = false) ∧
      s.blk.copy? x.copy = some c ∧ c.chkFail = false ∧ c.short = false ∧ c.lost = false ∧
      s.blk.checkFails (↑l) x (some c) false = false ∧ s.blk.staketu ↑l = true ∧
      s.blk.flag Fld.TIL_LNK_STATUS_retry_on ↑l = true ∧
      (x.begun = true ∧ x.word = some (n, w) ∨ x.begun = false ∧ frameLen x.frame ≤ s.blk.linkMax ↑l ∧ s.blk.mayBegin (↑l) x.cls (cellsOf (frameLen x.frame)) = true ∧ n = ((s.blk.link ↑l).lsn + 1) % 8192 ∧ w = s.blk.linkWord (↑l) n false)) ∧
    (∃ (s : State) (l : LinkId) (x : TxRec) (xs : List TxRec) (c : CopyRec) (n : Nat) (w : BitVec 48),
      (s.blk.feldOf ↑l).tx = x :: xs ∧ (∀ y ∈ xs, y.begun = false) ∧ (∀ u ∈ (s.blk.link ↑l).unacked, u.due = false) ∧
      (∀ (r : FrameRec), s.blk.frame? (x.copy / 4) = some r → r.whole = true ∧ r.chkFail = false) ∧
      s.blk.copy? x.copy = some c ∧ c.chkFail = false ∧ c.short = false ∧ c.lost = false ∧
      s.blk.checkFails (↑l) x (some c) false = false ∧ s.blk.staketu ↑l = true ∧
      s.blk.flag Fld.TIL_LNK_STATUS_retry_on ↑l = true ∧
      (x.begun = true ∧ x.word = some (n, w) ∨ x.begun = false ∧ frameLen x.frame ≤ s.blk.linkMax ↑l ∧ s.blk.mayBegin (↑l) x.cls (cellsOf (frameLen x.frame)) = true ∧ n = ((s.blk.link ↑l).lsn + 1) % 8192 ∧ w = s.blk.linkWord (↑l) n false)) ∧
    (∃ (s : State) (l : LinkId) (x : TxRec) (xs : List TxRec) (c : CopyRec), (s.blk.feldOf ↑l).tx = x :: xs ∧
      (∀ y ∈ x :: xs, y.begun = false) ∧ (∀ (r : FrameRec), s.blk.frame? (x.copy / 4) = some r → r.whole = true) ∧
      s.blk.copy? x.copy = some c ∧ s.blk.linkMax ↑l < frameLen x.frame) ∧
    (∃ (s : State) (l : LinkId), s.blk.gated ↑l = true ∧ s.blk.queues = []) ∧
    (∃ (s : State) (l : LinkId), s.blk.linkExists ↑l = false) ∧
    (∃ (s : State) (l : LinkId), s.blk.linkExists ↑l = true ∧ s.blk.flag Fld.FLD_GATE_STATUS_pending ↑l = false ∧
      s.blk.flag Fld.FLD_GATE_CTL_gate_en ↑l = true) ∧
    (∃ (s : State) (l : LinkId), s.blk.linkExists ↑l = true ∧ s.blk.flag Fld.FLD_GATE_STATUS_pending ↑l = false ∧
      s.blk.flag Fld.FLD_GATE_CTL_gate_en ↑l = false) ∧
    (∃ (s : State) (l : LinkId), s.blk.linkExists ↑l = true ∧ s.blk.flag Fld.FLD_GATE_STATUS_pending ↑l = true) ∧
    (∃ (s : State) (l : LinkId), s.blk.linkExists ↑l = true ∧ s.blk.flag Fld.FLD_GATE_STATUS_pending ↑l = true) :=
  ⟨⟨toBegin, 0, tx1, [tx1], cp .written 0, 0, toBegin.blk.linkWord 0 0 false,
      by (repeat' apply And.intro) <;> decide +kernel⟩,
   ⟨sx (stk 0) fun b => lk 0 (fun r => { r with maxFrame := 9216, lsn := 5 }) { b with copies := [(4, cp .written 0)], feld := [(0, { FeldLink.reset with tx := [{ tx1 with begun := true, word := some (5, 7) }] })] },
      0, { tx1 with begun := true, word := some (5, 7) }, [], cp .written 0, 5, 7,
      by (repeat' apply And.intro) <;> decide +kernel⟩,
   ⟨sx (stk 0) fun b => lk 0 (fun r => { r with maxFrame := 9216, markDue := true, txReinit := true, lsn := 5 }) { b with copies := [(4, cp .written 0)], feld := [(0, { FeldLink.reset with tx := [{ tx1 with begun := true, word := some (5, 7) }] })] },
      0, { tx1 with begun := true, word := some (5, 7) }, [], cp .written 0, 5, 7,
      by (repeat' apply And.intro) <;> decide +kernel⟩,
   ⟨sx (stk 1023) fun b => lk 1023 (fun r => { r with maxFrame := 63 }) { b with copies := [(4, cp .written 1023)], feld := [(1023, { FeldLink.reset with tx := [tx1] })] },
      1023, tx1, [], cp .written 1023, by (repeat' apply And.intro) <;> decide +kernel⟩,
   ⟨sx [(.FLD_GATE_CTL_gate_en, 1023, 1), (.QTZ_STATUS_valid, 0, 1), (.QTZ_TILE_SYNC_sync, 0, 2 ^ 32 - 1), (.FLD_GATE_ENT_interval, 2 * 1023 * 64, 1000)],
      1023, by decide +kernel⟩,
   ⟨sx [(.FLD_GATE_CTL_gate_en, 1023, 1)], 1023, by decide +kernel⟩,
   ⟨sx [(.FLD_GATE_CTL_gate_en, 0, 1), (.FLD_GATE_STATUS_active, 0, 1)], 0, by decide +kernel⟩,
   ⟨sx [(.FLD_GATE_STATUS_active, 1020, 1)], 1020, by decide +kernel⟩,
   ⟨sx [(.FLD_GATE_STATUS_pending, 1020, 1), (.FLD_INT_EN_bits, 31, 255)], 1020, by decide +kernel⟩,
   ⟨sx [(.FLD_GATE_STATUS_pending, 1020, 1)], 1020, by decide +kernel⟩⟩

theorem wit_PortsAndLinkStates :
    (∃ (s : State) (p : PortId), (∀ k < 4, s.blk.flag Fld.TIL_LNK_CTL_lnk_en (4 * ↑p + k) = false)) ∧
    (∃ (s : State) (p : PortId) (k : Nat), k < 4 ∧ s.blk.flag Fld.TIL_LNK_CTL_lnk_en (4 * ↑p + k) = true) ∧
    (∃ (s : State) (p : PortId) (v : BitVec 32), (∀ k < 4, s.blk.flag Fld.TIL_LNK_CTL_lnk_en (4 * ↑p + k) = false) ∧
      v.toNat % 4 ≠ 3 ∧ v.toNat.testBit 8 = false) ∧
    (∃ (s : State) (p : PortId) (v : BitVec 32), (∀ k < 4, s.blk.flag Fld.TIL_LNK_CTL_lnk_en (4 * ↑p + k) = false) ∧
      v.toNat % 4 ≠ 3 ∧ v.toNat.testBit 8 = false) ∧
    (∃ (s : State) (p : PortId) (v : BitVec 32),
      ((∃ k < 4, s.blk.flag Fld.TIL_LNK_CTL_lnk_en (4 * ↑p + k) = true) ∨ v.toNat % 4 = 3) ∧
      v.toNat % 4 ≠ s.blk.fld Fld.TIL_PORT_MODE_breakout ↑p ∧ v.toNat.testBit 8 = false) ∧
    (∃ (s : State) (p : PortId) (v : BitVec 32),
      ((∃ k < 4, s.blk.flag Fld.TIL_LNK_CTL_lnk_en (4 * ↑p + k) = true) ∨ v.toNat % 4 = 3) ∧
      v.toNat % 4 ≠ s.blk.fld Fld.TIL_PORT_MODE_breakout ↑p ∧ v.toNat.testBit 8 = false) ∧
    (∃ (s : State) (l : LinkId), s.blk.linkExists ↑l = true ∧ s.blk.linkState ↑l = 0) ∧
    (∃ (s : State) (l : LinkId), s.blk.linkExists ↑l = true) ∧
    (∃ (s : State) (l : LinkId), s.blk.portDark ↑l = true) ∧
    (∃ (s : State) (l : LinkId), s.blk.portDark ↑l = true) ∧
    (∃ (s : State) (l : LinkId), s.blk.portDark ↑l = false ∧ s.blk.linkState ↑l = 1 ∧ (s.blk.link ↑l).mode ≠ 2) ∧
    (∃ (s : State) (l : LinkId), s.blk.portDark ↑l = false ∧ s.blk.linkState ↑l = 1 ∧ (s.blk.link ↑l).mode = 2) ∧
    (∃ (s : State) (l : LinkId), s.blk.linkState ↑l = 2 ∧ (s.blk.link ↑l).mode ≠ 1) ∧
    (∃ (s : State) (l : LinkId), s.blk.linkState ↑l = 2 ∧ (s.blk.link ↑l).mode = 1) ∧
    (∃ (s : State) (l : LinkId), (s.blk.linkState ↑l = 3 ∨ s.blk.linkState ↑l = 4)) ∧
    (∃ (s : State) (l : LinkId), (s.blk.linkState ↑l = 3 ∨ s.blk.linkState ↑l = 4)) ∧
    (∃ (s : State) (l : LinkId), (s.blk.linkState ↑l = 3 ∨ s.blk.linkState ↑l = 4)) ∧
    (∃ (s : State) (l : LinkId), s.blk.linkState ↑l = 7 ∧ s.blk.portDark ↑l = false) ∧
    (∃ (s : State) (l : LinkId), s.blk.linkState ↑l = 7) ∧
    (∃ (s : State) (l : LinkId), s.blk.linkState ↑l = 8) :=
  ⟨⟨sx [(.TIL_LNK_CTL_lnk_en, 1019, 1)], 255, by decide +kernel⟩,
   ⟨sx [(.TIL_LNK_CTL_lnk_en, 1023, 1)], 255, 3, by decide +kernel⟩,
   ⟨sx [], 255, 0x12, by decide +kernel⟩,
   ⟨sx [], 0, 0x10, by decide +kernel⟩,
   ⟨sx [(.TIL_LNK_CTL_lnk_en, 3, 1)], 0, 2, by decide +kernel⟩,
   ⟨sx [], 255, 0x33, by decide +kernel⟩,
   ⟨sx [(.TIL_PORT_MODE_breakout, 255, 2)], 1023, by decide +kernel⟩,
   ⟨sx (stk 0), 0, by decide +kernel⟩,
   ⟨sx [(.TIL_LNK_STATUS_state, 1020, 1), (.PWR_DOM_STATUS_state, 63, 0)], 1020, by decide +kernel⟩,
   ⟨sx [(.TIL_LNK_STATUS_state, 4, 7)] fun b => { b with tripped := true }, 4, by decide +kernel⟩,
   ⟨sx [(.TIL_LNK_STATUS_state, 4, 1)], 4, by decide +kernel⟩,
   ⟨sx [(.TIL_LNK_STATUS_state, 4, 1)] (lk 4 fun r => { r with mode := 2 }), 4, by decide +kernel⟩,
   ⟨sx [(.TIL_LNK_STATUS_state, 4, 2)], 4, by decide +kernel⟩,
   ⟨sx [(.TIL_LNK_STATUS_state, 4, 2)] (lk 4 fun r => { r with mode := 1 }), 4, by decide +kernel⟩,
   ⟨sx (stk 4), 4, by decide +kernel⟩,
   ⟨sx [(.TIL_LNK_STATUS_state, 4, 4)], 4, by decide +kernel⟩,
   ⟨sx (stk 4), 4, by decide +kernel⟩,
   ⟨sx [(.TIL_LNK_STATUS_state, 4, 7)], 4, by decide +kernel⟩,
   ⟨sx [(.TIL_LNK_STATUS_state, 4, 7)], 4, by decide +kernel⟩,
   ⟨sx [(.TIL_LNK_STATUS_state, 4, 8), (.TIL_LNK_CTL_link_mode, 4, 3)], 4, by decide +kernel⟩⟩

theorem wit_KeepaliveAndCapability :
    (∃ (s : State) (l : LinkId), s.blk.linkExists ↑l = true ∧ s.blk.linkState ↑l = 3 ∧
      s.blk.flag Fld.TIL_LNK_STATUS_ka_cap ↑l = true) ∧
    (∃ (s : State) (l : LinkId), s.blk.linkState ↑l = 3 ∧ s.blk.flag Fld.TIL_LNK_STATUS_ka_cap ↑l = true ∧
      s.blk.flag Fld.TIL_LNK_CTL_ka_req ↑l = true ∧ (s.blk.link ↑l).kaAsked = true) ∧
    (∃ (s : State) (l : LinkId), s.blk.linkState ↑l = 3 ∧ s.blk.flag Fld.TIL_LNK_STATUS_ka_cap ↑l = true ∧
      s.blk.queues = [] ∧ (s.blk.feldOf ↑l).tx = [] ∧ (s.blk.link ↑l).unacked = [] ∧
      s.blk.flag Fld.TIL_LNK_CTL_ka_accept ↑l = true) ∧
    (∃ (s : State) (l : LinkId), s.blk.linkState ↑l = 3 ∧ (s.blk.link ↑l).kaAsked = true) ∧
    (∃ (s : State) (l : LinkId), s.blk.linkState ↑l = 5) ∧
    (∃ (s : State) (l : LinkId), s.blk.linkState ↑l = 5) ∧
    (∃ (s : State) (l : LinkId), s.blk.linkState ↑l = 5) ∧
    (∃ (s : State) (l : LinkId), s.blk.linkState ↑l = 5) ∧
    (∃ (s : State) (l : LinkId), s.blk.linkState ↑l = 5) ∧
    (∃ (s : State) (l : LinkId), s.blk.linkState ↑l = 5 ∧ s.blk.linkExists ↑l = true) ∧
    (∃ (s : State) (l : LinkId), s.blk.linkState ↑l = 6) ∧
    (∃ (s : State) (l : LinkId), s.blk.linkState ↑l = 6 ∧ s.blk.portDark ↑l = false) ∧
    (∃ (s : State) (l : LinkId), s.blk.linkState ↑l = 2) ∧
    (∃ (s : State) (l : LinkId), s.blk.linkState ↑l = 3 ∧ s.blk.staketu ↑l = false ∧ (s.blk.link ↑l).mode = 0) ∧
    (∃ (s : State) (l : LinkId) (c : Lcf), s.blk.linkState ↑l = 3 ∧ s.blk.staketu ↑l = true ∧ c.llv ≠ 0 ∧ c.conf = true) ∧
    (∃ (s : State) (l : LinkId) (c : Lcf), s.blk.linkState ↑l = 2 ∧ (s.blk.link ↑l).ownConf = true ∧ c.llv ≠ 0 ∧
      c.conf = true) :=
  ⟨⟨sx (ups [4] ++ [(.TIL_LNK_STATUS_ka_cap, 4, 1)]), 4, by decide +kernel⟩,
   ⟨sx (ups [4] ++ [(.TIL_LNK_STATUS_ka_cap, 4, 1), (.TIL_LNK_CTL_ka_req, 4, 1)]) (lk 4 fun r => { r with kaAsked := true }),
      4, by decide +kernel⟩,
   ⟨sx (ups [4] ++ [(.TIL_LNK_STATUS_ka_cap, 4, 1), (.TIL_LNK_CTL_ka_accept, 4, 1)]), 4, by decide +kernel⟩,
   ⟨sx (ups [4]) (lk 4 fun r => { r with kaAsked := true }), 4, by decide +kernel⟩,
   ⟨sx [(.TIL_LNK_STATUS_state, 4, 5)], 4, by decide +kernel⟩,
   ⟨sx [(.TIL_LNK_STATUS_state, 4, 5)], 4, by decide +kernel⟩,
   ⟨sx [(.TIL_LNK_STATUS_state, 4, 5)], 4, by decide +kernel⟩,
   ⟨sx [(.TIL_LNK_STATUS_state, 4, 5)], 4, by decide +kernel⟩,
   ⟨sx [(.TIL_LNK_STATUS_state, 4, 5)], 4, by decide +kernel⟩,
   ⟨sx [(.TIL_LNK_STATUS_state, 4, 5)], 4, by decide +kernel⟩,
   ⟨sx [(.TIL_LNK_STATUS_state, 4, 6)], 4, by decide +kernel⟩,
   ⟨sx [(.TIL_LNK_STATUS_state, 4, 6)], 4, by decide +kernel⟩,
   ⟨sx [(.TIL_LNK_STATUS_state, 4, 2)], 4, by decide +kernel⟩,
   ⟨sx (ups [4]), 4, by decide +kernel⟩,
   ⟨sx (stk 4), 4, cap, by decide +kernel⟩,
   ⟨sx [(.TIL_LNK_STATUS_state, 4, 2)] (lk 4 fun r => { r with ownConf := true }), 4, cap, by decide +kernel⟩⟩

theorem wit_CreditsAndErrors :
    (∃ (s : State) (l : LinkId), s.blk.flows ↑l = true) ∧
    (∃ (s : State) (l : LinkId) (c : ClassId) (total : BitVec 10) (d : Nat), s.blk.flows ↑l = true ∧
      d = (total.toNat + 1024 - vget (s.blk.link ↑l).returnsSeen ↑c % 1024) % 1024 ∧
      (∀ u ∈ (s.blk.link ↑l).unacked, u.due = false)) ∧
    (∃ (s : State) (l : LinkId), s.blk.linkState ↑l = 3 ∧ s.blk.staketu ↑l = true ∧
      (s.blk.link ↑l).features.testBit 3 = true) ∧
    (∃ (s : State) (l : LinkId) (sent : List (BitVec 16)), s.blk.linkState ↑l = 3 ∧ s.blk.staketu ↑l = true ∧
      (s.blk.link ↑l).features.testBit 3 = true ∧ (s.blk.link ↑l).retryClock = false ∧
      (s.blk.link ↑l).rxReinit = false ∧
      (∀ c < 8, (sent.getD c 0).toNat = (vget (s.blk.link ↑l).cellsRcvd c + vget (s.blk.link ↑l).lostCells c) % 65536)) ∧
    (∃ (s : State) (l : LinkId) (sent : List (BitVec 16)) (c : Nat), s.blk.linkState ↑l = 3 ∧ s.blk.staketu ↑l = true ∧
      (s.blk.link ↑l).features.testBit 3 = true ∧ (s.blk.link ↑l).retryClock = false ∧
      (s.blk.link ↑l).rxReinit = false ∧ c < 8 ∧
      (sent.getD c 0).toNat ≠ (vget (s.blk.link ↑l).cellsRcvd c + vget (s.blk.link ↑l).lostCells c) % 65536) ∧
    (∃ (s : State) (l : LinkId), s.blk.flows ↑l = true ∧ (s.blk.link ↑l).txReinit = false) ∧
    (∃ (s : State) (l : LinkId), s.blk.flows ↑l = true ∧ s.blk.linkState ↑l = 3) ∧
    (∃ (s : State) (l : LinkId), s.blk.flows ↑l = true ∧ (s.blk.link ↑l).txReinit = true ∧ s.blk.linkState ↑l = 3 ∧
      (s.blk.link ↑l).noGrant = false ∧ (s.blk.link ↑l).markDue = false ∧ (∀ u ∈ (s.blk.link ↑l).unacked, u.due = false)) ∧
    (∃ (s : State) (l : LinkId), s.blk.flows ↑l = true ∧ (s.blk.link ↑l).txReinit = true) ∧
    (∃ (s : State) (l : LinkId), s.blk.linkState ↑l ≠ 0 ∧ (s.blk.link ↑l).burst = false ∧
      s.blk.fld Fld.TIL_LNK_BURST_CFG_retrain_count ↑l = 0) ∧
    (∃ (s : State) (l : LinkId), s.blk.flows ↑l = true ∧ (s.blk.link ↑l).retryClock = true) ∧
    (∃ (s : State) (l : LinkId) (ack : BitVec 13) (x y : SentFrame), s.blk.flows ↑l = true ∧
      s.blk.flag Fld.TIL_LNK_STATUS_retry_on ↑l = true ∧ (s.blk.link ↑l).unacked = [x, y] ∧ x.lsn = ack.toNat ∧
      y.lsn ≠ ack.toNat ∧ s.blk.copy? x.copy = none ∧ y.paid = true) ∧
    (∃ (s : State) (l : LinkId) (ack : BitVec 13) (x y : SentFrame), s.blk.flows ↑l = true ∧
      s.blk.flag Fld.TIL_LNK_STATUS_retry_on ↑l = true ∧ (s.blk.link ↑l).unacked = [x, y] ∧ x.lsn = ack.toNat ∧
      y.lsn ≠ ack.toNat ∧ s.blk.copy? x.copy = none ∧ y.paid = true) ∧
    (∃ (s : State) (l : LinkId), s.blk.flows ↑l = true ∧ s.blk.flag Fld.TIL_LNK_STATUS_retry_on ↑l = true ∧
      (s.blk.link ↑l).txReinit = false ∧ (s.blk.feldOf ↑l).tx = [] ∧
      (∀ u ∈ (s.blk.link ↑l).unacked, u.due = false ∧ u.paid = true)) ∧
    (∃ (s : State) (l : LinkId), s.blk.flows ↑l = true ∧ (s.blk.link ↑l).unacked ≠ []) :=
  ⟨⟨sx (stk 4), 4, by decide +kernel⟩,
   ⟨sx (stk 4) (lk 4 fun r => { r with returnsSeen := List.replicate 8 1023 }), 4, 7, 2, 3, by decide +kernel⟩,
   ⟨sx (stk 4) (lk 4 fun r => { r with features := 8 }), 4, by decide +kernel⟩,
   ⟨sx (stk 4) (lk 4 fun r => { r with features := 8, cellsRcvd := List.replicate 8 65535 }), 4,
      List.replicate 8 0xFFFF, by decide +kernel⟩,
   ⟨sx (stk 4) (lk 4 fun r => { r with features := 8 }), 4, [0, 0, 0, 0, 0, 0, 0, 1], 7, by decide +kernel⟩,
   ⟨sx (stk 4), 4, by decide +kernel⟩,
   ⟨sx (stk 4), 4, by decide +kernel⟩,
   ⟨sx (stk 4 ++ [(.TIL_LNK_GRANT_TC_partner_grant, 39, 9)]) (lk 4 fun r => { r with txReinit := true }), 4,
      by decide +kernel⟩,
   ⟨sx (stk 4) (lk 4 fun r => { r with txReinit := true }), 4, by decide +kernel⟩,
   ⟨sx (stk 4 ++ [(.TIL_LNK_BURST_CFG_retrain_count, 4, 0)]), 4, by decide +kernel⟩,
   ⟨sx (stk 4) (lk 4 fun r => { r with retryClock := true }), 4, by decide +kernel⟩,
   ⟨sx (stk 4) (lk 4 fun r => { r with unacked := [sf 8191, sf 0] }), 4, 8191, sf 8191, sf 0, by decide +kernel⟩,
   ⟨sx (stk 4) (lk 4 fun r => { r with unacked := [sf 8191, sf 0], txReinit := true }), 4, 8191, sf 8191, sf 0,
      by decide +kernel⟩,
   ⟨sx (stk 4) (lk 4 fun r => { r with unacked := [sf 8191, sf 0] }), 4, by decide +kernel⟩,
   ⟨sx (stk 4) (lk 4 fun r => { r with unacked := [sf 8191, sf 0] }), 4, by decide +kernel⟩⟩

theorem wit_PauseAndFrames :
    (∃ (s : State) (l : LinkId) (c : ClassId), s.blk.linkState ↑l = 3 ∧ s.blk.staketu ↑l = false ∧
      s.blk.bit Fld.TIL_LNK_PFC_CFG_pfc_rx_en ↑l ↑c = true) ∧
    (∃ (s : State) (l : LinkId) (c : ClassId), s.blk.linkState ↑l = 3 ∧ s.blk.staketu ↑l = false ∧
      s.blk.bit Fld.TIL_LNK_PFC_CFG_pfc_rx_en ↑l ↑c = true) ∧
    (∃ (s : State) (l : LinkId), s.blk.ethernetMode ↑l = true) ∧
    (∃ (s : State) (l : LinkId), s.blk.ethernetMode ↑l = false) ∧
    (∃ (s : State) (l : LinkId) (w : BitVec 48) (f : Frame) (a : Arrival), s.blk.linkExists ↑l = true ∧
      s.blk.linkState ↑l = 3 ∧ s.blk.staketu ↑l = true ∧ s.blk.flag Fld.TIL_LNK_STATUS_retry_on ↑l = true ∧
      f.etype.toNat ≠ s.blk.imgLcf ∧ Blk.goodWord (some w) = some w.toNat ∧ w.toNat.testBit 21 = false ∧
      (s.blk.link ↑l).unacked = [] ∧ (s.blk.link ↑l).ahead = [] ∧ (s.blk.link ↑l).partialFrame = none ∧
      (s.blk.link ↑l).nextLsn < 8192 ∧ a.part = Part.whole ∧ bits w.toNat 47 35 = (s.blk.link ↑l).nextLsn ∧
      a.errored = false ∧ a.fcs = Fcs.good) ∧
    (∃ (s : State) (l : LinkId) (w : BitVec 48) (f : Frame) (a : Arrival), s.blk.linkExists ↑l = true ∧
      s.blk.linkState ↑l = 3 ∧ s.blk.staketu ↑l = true ∧ s.blk.flag Fld.TIL_LNK_STATUS_retry_on ↑l = true ∧
      f.etype.toNat ≠ s.blk.imgLcf ∧ Blk.goodWord (some w) = some w.toNat ∧ w.toNat.testBit 21 = false ∧
      (s.blk.link ↑l).unacked = [] ∧ (s.blk.link ↑l).ahead = [] ∧ (s.blk.link ↑l).partialFrame = none ∧
      (s.blk.link ↑l).nextLsn < 8192 ∧ a.part = Part.whole ∧ bits w.toNat 47 35 = (s.blk.link ↑l).nextLsn ∧
      a.errored = false ∧ a.fcs = Fcs.stomped) ∧
    (∃ (s : State) (l : LinkId) (w : BitVec 48) (f : Frame) (a : Arrival), s.blk.linkExists ↑l = true ∧
      s.blk.linkState ↑l = 3 ∧ s.blk.staketu ↑l = true ∧ s.blk.flag Fld.TIL_LNK_STATUS_retry_on ↑l = true ∧
      f.etype.toNat ≠ s.blk.imgLcf ∧ Blk.goodWord (some w) = some w.toNat ∧ w.toNat.testBit 21 = false ∧
      (s.blk.link ↑l).unacked = [] ∧ (s.blk.link ↑l).ahead = [] ∧ (s.blk.link ↑l).partialFrame = none ∧
      (s.blk.link ↑l).nextLsn < 8192 ∧ a.part = Part.whole ∧ bits w.toNat 47 35 = (s.blk.link ↑l).nextLsn ∧
      (a.errored = true ∨ a.fcs = Fcs.bad)) ∧
    (∃ (s : State) (l : LinkId) (w : BitVec 48) (f : Frame) (a : Arrival), s.blk.linkExists ↑l = true ∧
      s.blk.linkState ↑l = 3 ∧ s.blk.staketu ↑l = true ∧ s.blk.flag Fld.TIL_LNK_STATUS_retry_on ↑l = true ∧
      f.etype.toNat ≠ s.blk.imgLcf ∧ Blk.goodWord (some w) = some w.toNat ∧ w.toNat.testBit 21 = false ∧
      (s.blk.link ↑l).unacked = [] ∧ (s.blk.link ↑l).ahead = [] ∧ (s.blk.link ↑l).partialFrame = none ∧
      (s.blk.link ↑l).nextLsn < 8192 ∧ a.part = Part.whole ∧
      4096 ≤ (bits w.toNat 47 35 + 8192 - (s.blk.link ↑l).nextLsn) % 8192) ∧
    (∃ (s : State) (l : LinkId) (f : Frame), s.blk.linkExists ↑l = true ∧ s.blk.linkState ↑l = 2 ∧
      s.blk.staketu ↑l = false ∧ f.etype.toNat = s.blk.imgLcf ∧ (s.blk.link ↑l).mode ≠ 2 ∧ beAt f.data 0 1 = 1 ∧
      (s.blk.link ↑l).ownConf = true ∧ (lcfBody f.data).llv ≠ 0 ∧ (lcfBody f.data).conf = true) ∧
    (∃ (s : State) (l : LinkId) (f : Frame) (c : ClassId), s.blk.linkExists ↑l = true ∧ s.blk.linkState ↑l = 3 ∧
      s.blk.staketu ↑l = false ∧ f.tci = none ∧ f.etype = 34824 ∧ s.blk.imgLcf ≠ 34824 ∧ beAt f.data 0 2 = 257 ∧
      (beAt f.data 2 2).testBit ↑c = true ∧ beAt f.data (4 + 2 * ↑c) 2 ≠ 0 ∧
      s.blk.bit Fld.TIL_LNK_PFC_CFG_pfc_rx_en ↑l ↑c = true) ∧
    (∃ (s : State) (l : LinkId) (w : Option (BitVec 48)) (f : Frame) (img : ImageClass) (h : XHeader) (e m : Nat),
      Comes s l w f img ∧ s.blk.isXeirrik (tileOf ↑l) f = true ∧ h = xHeader f.data ∧
      e = s.blk.tableEntry (dieOf ↑l) 0 h.dst ∧ m = (if f.tci.isSome = true then 54 else 50) ∧ h.ver ≠ 1) ∧
    (∃ (s : State) (l : LinkId) (w : Option (BitVec 48)) (f : Frame) (img : ImageClass) (h : XHeader) (e m : Nat),
      Comes s l w f img ∧ s.blk.isXeirrik (tileOf ↑l) f = true ∧ h = xHeader f.data ∧
      e = s.blk.tableEntry (dieOf ↑l) 0 h.dst ∧ m = (if f.tci.isSome = true then 54 else 50) ∧ h.ver = 1 ∧
      (frameLen f < m ∨ frameLen f - m < h.len ∨ frameLen f ≠ 64 ∧ h.len ≠ frameLen f - m)) ∧
    (∃ (s : State) (l : LinkId) (w : Option (BitVec 48)) (f : Frame) (img : ImageClass) (h : XHeader) (e m : Nat),
      Comes s l w f img ∧ s.blk.isXeirrik (tileOf ↑l) f = true ∧ h = xHeader f.data ∧
      e = s.blk.tableEntry (dieOf ↑l) 0 h.dst ∧ m = (if f.tci.isSome = true then 54 else 50) ∧ h.ver = 1 ∧
      (frameLen f < m ∨ frameLen f - m < h.len ∨ frameLen f ≠ 64 ∧ h.len ≠ frameLen f - m)) ∧
    (∃ (s : State) (l : LinkId) (w : Option (BitVec 48)) (f : Frame) (img : ImageClass) (h : XHeader) (e m : Nat),
      Comes s l w f img ∧ s.blk.isXeirrik (tileOf ↑l) f = true ∧ h = xHeader f.data ∧
      e = s.blk.tableEntry (dieOf ↑l) 0 h.dst ∧ m = (if f.tci.isSome = true then 54 else 50) ∧ h.ver = 1 ∧
      m ≤ frameLen f ∧ (h.len = frameLen f - m ∨ frameLen f = 64 ∧ h.len ≤ frameLen f - m) ∧ s.blk.staketu ↑l = false ∧
      Blk.tagClass f h.tc ≠ h.tc) ∧
    (∃ (s : State) (l : LinkId) (w : Option (BitVec 48)) (f : Frame) (img : ImageClass) (h : XHeader) (e m : Nat),
      Comes s l w f img ∧ s.blk.isXeirrik (tileOf ↑l) f = true ∧ h = xHeader f.data ∧
      e = s.blk.tableEntry (dieOf ↑l) 0 h.dst ∧ m = (if f.tci.isSome = true then 54 else 50) ∧ h.ver = 1 ∧
      m ≤ frameLen f ∧ (h.len = frameLen f - m ∨ frameLen f = 64 ∧ h.len ≤ frameLen f - m) ∧
      (s.blk.staketu ↑l = true ∨ Blk.tagClass f h.tc = h.tc) ∧ h.mcast = true ∧
      s.blk.mcastTarget (dieOf ↑l) h.dst = none) ∧
    (∃ (s : State) (l : LinkId) (w : Option (BitVec 48)) (f : Frame) (img : ImageClass) (h : XHeader) (e m : Nat)
      (g : Target), Comes s l w f img ∧ s.blk.isXeirrik (tileOf ↑l) f = true ∧ h = xHeader f.data ∧
      e = s.blk.tableEntry (dieOf ↑l) 0 h.dst ∧ m = (if f.tci.isSome = true then 54 else 50) ∧ h.ver = 1 ∧
      m ≤ frameLen f ∧ (h.len = frameLen f - m ∨ frameLen f = 64 ∧ h.len ≤ frameLen f - m) ∧
      (s.blk.staketu ↑l = true ∨ Blk.tagClass f h.tc = h.tc) ∧ h.mcast = true ∧
      s.blk.mcastTarget (dieOf ↑l) h.dst = some g ∧ h.hop = 0) ∧
    (∃ (s : State) (l : LinkId) (w : Option (BitVec 48)) (f : Frame) (img : ImageClass) (h : XHeader) (e m : Nat)
      (g : Target), Comes s l w f img ∧ s.blk.isXeirrik (tileOf ↑l) f = true ∧ h = xHeader f.data ∧
      e = s.blk.tableEntry (dieOf ↑l) 0 h.dst ∧ m = (if f.tci.isSome = true then 54 else 50) ∧ h.ver = 1 ∧
      m ≤ frameLen f ∧ (h.len = frameLen f - m ∨ frameLen f = 64 ∧ h.len ≤ frameLen f - m) ∧
      (s.blk.staketu ↑l = true ∨ Blk.tagClass f h.tc = h.tc) ∧ h.mcast = true ∧
      s.blk.mcastTarget (dieOf ↑l) h.dst = some g ∧ h.hop ≠ 0 ∧ AllLive s) ∧
    (∃ (s : State) (l : LinkId) (w : Option (BitVec 48)) (f : Frame) (img : ImageClass) (h : XHeader) (e m : Nat),
      Comes s l w f img ∧ s.blk.isXeirrik (tileOf ↑l) f = true ∧ h = xHeader f.data ∧
      e = s.blk.tableEntry (dieOf ↑l) 0 h.dst ∧ m = (if f.tci.isSome = true then 54 else 50) ∧ h.ver = 1 ∧
      m ≤ frameLen f ∧ (h.len = frameLen f - m ∨ frameLen f = 64 ∧ h.len ≤ frameLen f - m) ∧
      (s.blk.staketu ↑l = true ∨ Blk.tagClass f h.tc = h.tc) ∧ h.mcast = false ∧ e.testBit 31 = false) ∧
    (∃ (s : State) (l : LinkId) (w : Option (BitVec 48)) (f : Frame) (img : ImageClass) (h : XHeader) (e m : Nat),
      Comes s l w f img ∧ s.blk.isXeirrik (tileOf ↑l) f = true ∧ h = xHeader f.data ∧
      e = s.blk.tableEntry (dieOf ↑l) 0 h.dst ∧ m = (if f.tci.isSome = true then 54 else 50) ∧ h.ver = 1 ∧
      m ≤ frameLen f ∧ (h.len = frameLen f - m ∨ frameLen f = 64 ∧ h.len ≤ frameLen f - m) ∧
      (s.blk.staketu ↑l = true ∨ Blk.tagClass f h.tc = h.tc) ∧ h.mcast = false ∧ e.testBit 31 = true ∧
      bits e 30 28 = 1 ∧ h.hop = 0) ∧
    (∃ (s : State) (l : LinkId) (w : Option (BitVec 48)) (f : Frame) (img : ImageClass) (h : XHeader) (e m : Nat),
      Comes s l w f img ∧ s.blk.isXeirrik (tileOf ↑l) f = true ∧ h = xHeader f.data ∧
      e = s.blk.tableEntry (dieOf ↑l) 0 h.dst ∧ m = (if f.tci.isSome = true then 54 else 50) ∧ h.ver = 1 ∧
      m ≤ frameLen f ∧ (h.len = frameLen f - m ∨ frameLen f = 64 ∧ h.len ≤ frameLen f - m) ∧
      (s.blk.staketu ↑l = true ∨ Blk.tagClass f h.tc = h.tc) ∧ h.mcast = false ∧ e.testBit 31 = true ∧
      bits e 30 28 = 1 ∧ h.hop ≠ 0) ∧
    (∃ (s : State) (l : LinkId) (w : Option (BitVec 48)) (f : Frame) (img : ImageClass) (h : XHeader) (e m : Nat),
      Comes s l w f img ∧ s.blk.isXeirrik (tileOf ↑l) f = true ∧ h = xHeader f.data ∧
      e = s.blk.tableEntry (dieOf ↑l) 0 h.dst ∧ m = (if f.tci.isSome = true then 54 else 50) ∧ h.ver = 1 ∧
      m ≤ frameLen f ∧ (h.len = frameLen f - m ∨ frameLen f = 64 ∧ h.len ≤ frameLen f - m) ∧
      (s.blk.staketu ↑l = true ∨ Blk.tagClass f h.tc = h.tc) ∧ h.mcast = false ∧ e.testBit 31 = true ∧
      bits e 30 28 = 1 ∧ h.hop ≠ 0) ∧
    (∃ (s : State) (l : LinkId) (w : Option (BitVec 48)) (f : Frame) (img : ImageClass) (h : XHeader) (e m : Nat),
      Comes s l w f img ∧ s.blk.isXeirrik (tileOf ↑l) f = true ∧ h = xHeader f.data ∧
      e = s.blk.tableEntry (dieOf ↑l) 0 h.dst ∧ m = (if f.tci.isSome = true then 54 else 50) ∧ h.ver = 1 ∧
      m ≤ frameLen f ∧ (h.len = frameLen f - m ∨ frameLen f = 64 ∧ h.len ≤ frameLen f - m) ∧
      (s.blk.staketu ↑l = true ∨ Blk.tagClass f h.tc = h.tc) ∧ h.mcast = false ∧ e.testBit 31 = true ∧
      bits e 30 28 = 2 ∧ h.hop ≠ 0 ∧ s.blk.sprayLive (dieOf ↑l) (bits e 15 0 % 4096) = []) ∧
    (∃ (s : State) (l : LinkId) (w : Option (BitVec 48)) (f : Frame) (img : ImageClass) (h : XHeader) (e m : Nat),
      Comes s l w f img ∧ s.blk.isXeirrik (tileOf ↑l) f = true ∧ h = xHeader f.data ∧
      e = s.blk.tableEntry (dieOf ↑l) 0 h.dst ∧ m = (if f.tci.isSome = true then 54 else 50) ∧ h.ver = 1 ∧
      m ≤ frameLen f ∧ (h.len = frameLen f - m ∨ frameLen f = 64 ∧ h.len ≤ frameLen f - m) ∧
      (s.blk.staketu ↑l = true ∨ Blk.tagClass f h.tc = h.tc) ∧ h.mcast = false ∧ e.testBit 31 = true ∧
      bits e 30 28 = 2 ∧ h.hop ≠ 0 ∧ s.blk.sprayLive (dieOf ↑l) (bits e 15 0 % 4096) ≠ []) ∧
    (∃ (s : State) (l : LinkId) (w : Option (BitVec 48)) (f : Frame) (img : ImageClass) (h : XHeader) (e m : Nat),
      Comes s l w f img ∧ s.blk.isXeirrik (tileOf ↑l) f = true ∧ h = xHeader f.data ∧
      e = s.blk.tableEntry (dieOf ↑l) 0 h.dst ∧ m = (if f.tci.isSome = true then 54 else 50) ∧ h.ver = 1 ∧
      m ≤ frameLen f ∧ (h.len = frameLen f - m ∨ frameLen f = 64 ∧ h.len ≤ frameLen f - m) ∧
      (s.blk.staketu ↑l = true ∨ Blk.tagClass f h.tc = h.tc) ∧ h.mcast = false ∧ e.testBit 31 = true ∧
      bits e 30 28 = 3 ∧ bits e 15 0 % 4 = 1 ∧ (h.opcode < 16 ∨ 63 < h.opcode)) ∧
    (∃ (s : State) (l : LinkId) (w : Option (BitVec 48)) (f : Frame) (img : ImageClass) (h : XHeader) (e m : Nat),
      Comes s l w f img ∧ s.blk.isXeirrik (tileOf ↑l) f = true ∧ h = xHeader f.data ∧
      e = s.blk.tableEntry (dieOf ↑l) 0 h.dst ∧ m = (if f.tci.isSome = true then 54 else 50) ∧ h.ver = 1 ∧
      m ≤ frameLen f ∧ (h.len = frameLen f - m ∨ frameLen f = 64 ∧ h.len ≤ frameLen f - m) ∧
      (s.blk.staketu ↑l = true ∨ Blk.tagClass f h.tc = h.tc) ∧ h.mcast = false ∧ e.testBit 31 = true ∧
      bits e 30 28 = 3 ∧ bits e 15 0 % 4 = 1 ∧ 16 ≤ h.opcode ∧ h.opcode ≤ 19) ∧
    (∃ (s : State) (l : LinkId) (w : Option (BitVec 48)) (f : Frame) (img : ImageClass) (h : XHeader) (e m : Nat),
      Comes s l w f img ∧ s.blk.isXeirrik (tileOf ↑l) f = true ∧ h = xHeader f.data ∧
      e = s.blk.tableEntry (dieOf ↑l) 0 h.dst ∧ m = (if f.tci.isSome = true then 54 else 50) ∧ h.ver ≠ 1) ∧
    (∃ (s : State) (l : LinkId) (w : Option (BitVec 48)) (f : Frame) (img : ImageClass) (v6 : Bool),
      Comes s l w f img ∧ s.blk.isXeirrik (tileOf ↑l) f = false ∧ s.blk.fld Fld.TIL_FWD_RMAC_rmac (tileOf ↑l) ≠ 0 ∧
      f.dmac.toNat = s.blk.fld Fld.TIL_FWD_RMAC_rmac (tileOf ↑l) ∧ ipKind f = some v6 ∧
      s.blk.flag Fld.TIL_FWD_CFG_route_en (tileOf ↑l) = true ∧ s.blk.prefixLookup (dieOf ↑l) v6 (ipDst v6 f.data) = none) ∧
    (∃ (s : State) (l : LinkId) (w : Option (BitVec 48)) (f : Frame) (img : ImageClass) (v6 : Bool) (nh e : Nat),
      Comes s l w f img ∧ s.blk.isXeirrik (tileOf ↑l) f = false ∧ s.blk.fld Fld.TIL_FWD_RMAC_rmac (tileOf ↑l) ≠ 0 ∧
      f.dmac.toNat = s.blk.fld Fld.TIL_FWD_RMAC_rmac (tileOf ↑l) ∧ ipKind f = some v6 ∧
      s.blk.flag Fld.TIL_FWD_CFG_route_en (tileOf ↑l) = true ∧
      s.blk.prefixLookup (dieOf ↑l) v6 (ipDst v6 f.data) = some nh ∧ e = s.blk.tableEntry (dieOf ↑l) 2 nh ∧
      e.testBit 63 = true ∧ bits e 62 60 = 1 ∧ ipTtl v6 f.data ≤ 1) ∧
    (∃ (s : State) (l : LinkId) (w : Option (BitVec 48)) (f : Frame) (img : ImageClass) (v6 : Bool) (nh e : Nat),
      Comes s l w f img ∧ s.blk.isXeirrik (tileOf ↑l) f = false ∧ s.blk.fld Fld.TIL_FWD_RMAC_rmac (tileOf ↑l) ≠ 0 ∧
      f.dmac.toNat = s.blk.fld Fld.TIL_FWD_RMAC_rmac (tileOf ↑l) ∧ ipKind f = some v6 ∧
      s.blk.flag Fld.TIL_FWD_CFG_route_en (tileOf ↑l) = true ∧
      s.blk.prefixLookup (dieOf ↑l) v6 (ipDst v6 f.data) = some nh ∧ e = s.blk.tableEntry (dieOf ↑l) 2 nh ∧
      e.testBit 63 = true ∧ bits e 62 60 = 1 ∧ 1 < ipTtl v6 f.data ∧ bits e 79 68 = 0) ∧
    (∃ (s : State) (l : LinkId) (w : Option (BitVec 48)) (f : Frame) (img : ImageClass) (vid v : Nat),
      Comes s l w f img ∧ s.blk.isXeirrik (tileOf ↑l) f = false ∧ s.blk.fld Fld.TIL_FWD_RMAC_rmac (tileOf ↑l) = 0 ∧
      vid = s.blk.vlanOf (dieOf ↑l) (↑l) f ∧ v = s.blk.tableEntry (dieOf ↑l) 4 vid ∧ v.testBit 63 = false) ∧
    (∃ (s : State) (l : LinkId) (w : Option (BitVec 48)) (f : Frame) (img : ImageClass) (vid v i : Nat),
      Comes s l w f img ∧ s.blk.isXeirrik (tileOf ↑l) f = false ∧ s.blk.fld Fld.TIL_FWD_RMAC_rmac (tileOf ↑l) = 0 ∧
      vid = s.blk.vlanOf (dieOf ↑l) (↑l) f ∧ v = s.blk.tableEntry (dieOf ↑l) 4 vid ∧ v.testBit 63 = true ∧
      s.blk.flag Fld.TIL_FWD_CFG_learn_en (tileOf ↑l) = false ∧ f.dmac.toNat.testBit 40 = false ∧
      s.blk.findLearn (dieOf ↑l) vid f.dmac.toNat = some i ∧ bits (s.blk.tableEntry (dieOf ↑l) 3 i) 67 58 ≠ ↑l) :=
  ⟨⟨sx (ups [4] ++ [(.TIL_LNK_PFC_CFG_pfc_rx_en, 4, 255)]), 4, 7, by decide +kernel⟩,
   ⟨sx (ups [4] ++ [(.TIL_LNK_PFC_CFG_pfc_rx_en, 4, 255)]) (lk 4 fun r => { r with paused := 255 }), 4, 0,
      by decide +kernel⟩,
   ⟨sx (ups [4]) (lk 4 fun r => { r with xoff := 129 }), 4, by decide +kernel⟩,
   ⟨sx (stk 4) (lk 4 fun r => { r with xoff := 129 }), 4, by decide +kernel⟩,
   ⟨sx (stk 4) (lk 4 fun r => { r with nextLsn := 8191 }), 4, 0xFFF800000000 ||| BitVec.ofNat 48 wordCrc, fr,
      ⟨.whole, .good, false, 0, 1⟩, by decide +kernel⟩,
   ⟨sx (stk 4) (lk 4 fun r => { r with nextLsn := 8191 }), 4, 0xFFF800000000 ||| BitVec.ofNat 48 wordCrc, fr,
      ⟨.whole, .stomped, false, 0, 1⟩, by decide +kernel⟩,
   ⟨sx (stk 4) (lk 4 fun r => { r with nextLsn := 8191 }), 4, 0xFFF800000000 ||| BitVec.ofNat 48 wordCrc, fr,
      ⟨.whole, .good, true, 0, 1⟩, by decide +kernel⟩,
   ⟨sx (stk 4) (lk 4 fun r => { r with nextLsn := 4095 }), 4, 0xFFF800000000 ||| BitVec.ofNat 48 wordCrc, fr,
      ⟨.whole, .good, false, 0, 1⟩, by decide +kernel⟩,
   ⟨sx [(.TIL_LNK_STATUS_state, 4, 2)] fun b => lk 4 (fun r => { r with ownConf := true }) { b with imgLcf := 0x88B5 },
      4, { fr with etype := 0x88B5, data := lcfBytes .cap cap }, by decide +kernel⟩,
   ⟨sx (ups [4] ++ [(.TIL_LNK_PFC_CFG_pfc_rx_en, 4, 255)]), 4, pfcFrame, 7, by decide +kernel⟩,
   ⟨sx (ups [0, 4, 1020] ++ fw) (tb []), 0, none, xf 0 1 3 0, ⟨0, 0, none⟩, xHeader (xf 0 1 3 0).data, 0, 50,
      by (repeat' apply And.intro) <;> decide +kernel⟩,
   ⟨sx (ups [0, 4, 1020] ++ fw) (tb []), 0, none, { xf 16 1 3 0 with data := (xf 16 1 3 0).data.take 30 },
      ⟨0, 0, none⟩, xHeader ({ xf 16 1 3 0 with data := (xf 16 1 3 0).data.take 30 }).data, 0, 50,
      by (repeat' apply And.intro) <;> decide +kernel⟩,
   ⟨sx (ups [0, 4, 1020] ++ fw) (tb []), 0, none, { xf 16 1 3 0 with data := (xf 16 1 3 0).data ++ [0] },
      ⟨0, 0, none⟩, xHeader ({ xf 16 1 3 0 with data := (xf 16 1 3 0).data ++ [0] }).data, 0, 50,
      by (repeat' apply And.intro) <;> decide +kernel⟩,
   ⟨sx (ups [0, 4, 1020] ++ fw) (tb []), 0, none, { xf 16 1 3 0 with tci := some 0xA000 }, ⟨0, 0, none⟩,
      xHeader ({ xf 16 1 3 0 with tci := some 0xA000 }).data, 0, 54, by (repeat' apply And.intro) <;> decide +kernel⟩,
   ⟨sx (ups [0, 4, 1020] ++ fw) (tb []), 0, none, xf 20 1 3 0, ⟨0, 0, none⟩, xHeader (xf 20 1 3 0).data, 0, 50,
      by (repeat' apply And.intro) <;> decide +kernel⟩,
   ⟨sx (ups [0, 4, 1020] ++ fw) (tb [(7, 0, 9223372036854906880), (8, 0, 32772), (8, 1, 33788)]), 0, none,
      xf 20 0 0 0, ⟨0, 0, none⟩, xHeader (xf 20 0 0 0).data, 0, 50, .list 0,
      by (repeat' apply And.intro) <;> decide +kernel⟩,
   ⟨sx (ups [0, 4, 1020] ++ fw ++ live) (tb [(7, 0, 9223372036854906880), (8, 0, 32772), (8, 1, 33788)]), 0, none,
      xf 20 0 1 0, ⟨0, 0, none⟩, xHeader (xf 20 0 1 0).data, 0, 50, .list 0,
      by (repeat' apply And.intro) <;> decide +kernel⟩,
   ⟨sx (ups [0, 4, 1020] ++ fw) (tb []), 0, none, xf 16 1 3 0, ⟨0, 0, none⟩, xHeader (xf 16 1 3 0).data, 0, 50,
      by (repeat' apply And.intro) <;> decide +kernel⟩,
   ⟨sx (ups [0, 4, 1020] ++ fw) (tb [(0, 1, 2415920124)]), 0, none, xf 16 1 0 0, ⟨0, 0, none⟩,
      xHeader (xf 16 1 0 0).data, 2415920124, 50, by (repeat' apply And.intro) <;> decide +kernel⟩,
   ⟨sx (ups [0, 4, 1020] ++ fw) (tb [(0, 1, 2415920124)]), 0, none, xf 16 1 1 0, ⟨0, 0, none⟩,
      xHeader (xf 16 1 1 0).data, 2415920124, 50, by (repeat' apply And.intro) <;> decide +kernel⟩,
   ⟨sx (ups [0, 4, 1020] ++ fw) (tb [(0, 1, 2415919108)]), 0, none, xf 16 1 15 0, ⟨0, 0, none⟩,
      xHeader (xf 16 1 15 0).data, 2415919108, 50, by (repeat' apply And.intro) <;> decide +kernel⟩,
   ⟨sx (ups [0, 4, 1020] ++ fw) (tb [(0, 1, 2684358655), (6, 4095, 32769)]), 0, none, xf 24 1 1 0, ⟨0, 0, none⟩,
      xHeader (xf 24 1 1 0).data, 2684358655, 50, by (repeat' apply And.intro) <;> decide +kernel⟩,
   ⟨sx (ups [0, 4, 1020] ++ fw) (tb [(0, 1, 2684358655), (6, 4095, 59698228624732049727960455955101730812779025907633413357012830329275037024260)]),
      0, none, xf 24 1 1 0, ⟨0, 0, none⟩, xHeader (xf 24 1 1 0).data, 2684358655, 50,
      by (repeat' apply And.intro) <;> decide +kernel⟩,
   ⟨sx (ups [0, 4, 1020] ++ fw) (tb [(0, 1, 2952790017)]), 0, none, xf 16 1 0 64, ⟨0, 0, none⟩,
      xHeader (xf 16 1 0 64).data, 2952790017, 50, by (repeat' apply And.intro) <;> decide +kernel⟩,
   ⟨sx (ups [0, 4, 1020] ++ fw) (tb [(0, 1, 2952790017)]), 0, none, xf 16 1 0 0x13, ⟨0, 0, none⟩,
      xHeader (xf 16 1 0 0x13).data, 2952790017, 50, by (repeat' apply And.intro) <;> decide +kernel⟩,
   ⟨sx (stk 4 ++ fw) (lk 4 fun r => { r with nextLsn := 8191 }), 4, some (0xFFF800000000 ||| BitVec.ofNat 48 wordCrc),
      xf 0 1 3 0, ⟨0, 0, none⟩, xHeader (xf 0 1 3 0).data, 0, 50, by (repeat' apply And.intro) <;> decide +kernel⟩,
   ⟨sx (ups [0] ++ fw ++ [(.TIL_FWD_RMAC_rmac, 0, 2), (.TIL_FWD_CFG_route_en, 0, 1)]) (tb []), 0, none, ip 2,
      ⟨0, 0, none⟩, false, by (repeat' apply And.intro) <;> decide +kernel⟩,
   ⟨sx (ups [0] ++ fw ++ [(.TIL_FWD_RMAC_rmac, 0, 2), (.TIL_FWD_CFG_route_en, 0, 1)]) (tb [(1, 0, 9223372036854775813), (2, 5, 7253565293985697376501760)]),
      0, none, ip 1, ⟨0, 0, none⟩, false, 5, 7253565293985697376501760, by (repeat' apply And.intro) <;> decide +kernel⟩,
   ⟨sx (ups [0] ++ fw ++ [(.TIL_FWD_RMAC_rmac, 0, 2), (.TIL_FWD_CFG_route_en, 0, 1)]) (tb [(1, 0, 9223372036854775813), (2, 5, 7253565293985697376501760)]),
      0, none, ip 2, ⟨0, 0, none⟩, false, 5, 7253565293985697376501760, by (repeat' apply And.intro) <;> decide +kernel⟩,
   ⟨sx (ups [0] ++ fw), 0, none, fr, ⟨0, 0, none⟩, 0, 0, by (repeat' apply And.intro) <;> decide +kernel⟩,
   ⟨sx (ups [0] ++ fw ++ [(.TIL_FWD_CFG_learn_en, 0, 0)]) (tb [(4, 0, 9223372036854775808), (3, 4 * learnBucket 0 2, learnEntry 2 0 1020 false 0)]),
      0, none, fr, ⟨0, 0, none⟩, 0, 9223372036854775808, 4 * learnBucket 0 2,
      by (repeat' apply And.intro) <;> decide +kernel⟩⟩


end P04

namespace P05

/-- The entry of group 4,095: two members at 65,534, its one home tile 31. -/
def gE : Nat := 2 ^ 127 + 2 * 2 ^ 96 + 65534 * 2 ^ 80 + 31 * 2 ^ 64 + 2 ^ 56

/-- A descriptor for that group. -/
def cd : ColDesc := ⟨true, false, 4095, 65535, 1, 0, 1, 1, 100, 0xFFFF, 4095, 0, 7, 1023, 4096, List.replicate 24 0⟩

/-- A context of that group, its members behind links 1,020 and 1,023. -/
def cx (kind : Nat) (state : CtxState) : CtxRec :=
  { kind := kind, desc := cd, epoch := 3, members := [(1020, 16), (1023, 17)], entry := gE, chunks := 1, state := state,
    status := 0, marked := false, run := 4, recorded := false, taken := [], openedAt := 0, chunksOk := 0, flags := 0, badStatus := 0, badChunk := 0,
    lostCopy := false, stream := none }

/-- A collective frame of member 1 for chunk 0 of that context: opcode, and a payload of 4 bytes; its format is
BF16 in a contribution. -/
def colFrame (op : Nat) : Frame :=
  xFrame 2 4 ⟨0, false, false, 0, 5, 17, 9, op, 0, (ColArea.mk 4095 65535 3 1 0 (if op = 0x10 then 1 else 0) 0 2 0).bytes, [0x3F, 0x80, 0x40, 0]⟩

/-- That frame in staging, for the collective controller or on its way to an engine. -/
def colRec (op : Nat) (dest : Dest) : FrameRec :=
  { frame := colFrame op, link := some 1023, tile := 31, cls := 5, cells := 1, freed := 0, whole := true, got := 46,
    chkFail := false, dest := dest, void := false, why := 0, arrived := 0,
    stampOk := false, tag := none }

/-- An open chunk of that context to which member 0 has contributed. -/
def ck (arrived status : Nat) : ChunkRec :=
  { id := ⟨ctxNum 4095 65535, 0, 3⟩, fmt := 1, op := 0, elems := 2, n := 2, mxSat := false, e4m3Sat := false, arrived := arrived,
    status := status, blocks := [⟨false, none, 0, [Lane.zero, Lane.zero]⟩], spilled := false, lines := 1, cells := [], moved := false,
    audit := none }

/-- Collective state about a context: its group valid, the context open, its engine, its frame 5. -/
def col (c : CtxRec) (e : Engine) (r : FrameRec) (b : Blk) : Blk :=
  { b with groups := [(4095, gE), (4096 * 3 + 4095, gE)], members := [(65534, 2 ^ 63 + 1020 * 2 ^ 30 + 16), (65535, 2 ^ 63 + 1023 * 2 ^ 30 + 17)],
           groupHw := [(4095, ⟨false, 3, 1⟩)], contexts := [(ctxNum 4095 65535, c)], engines := [(31, e)], frames := [(5, r)] }

/-- A piece that waits in staging under frame 5, for both members. -/
def pieceItem : ReplItem := ⟨some 5, .members (ctxNum 4095 65535) 4 [(1020, 16, 0), (0, 17, 1)], fr, 5, .group 1⟩
def garnetItem : ReplItem := ⟨none, .members (ctxNum 4095 65535) 4 [(1020, 16, 0)], fr, 5, .group 1⟩
def restoreItem : ReplItem := ⟨none, .link 300, fr, 3, .restore 2⟩

/-- Every Agate pair has a link live in each direction. -/
def live : List (Fld × Nat × Nat) := (List.range 6).flatMap fun p => [(.D2D_PAIR_STATUS_live_ij, p, 1), (.D2D_PAIR_STATUS_live_ji, p, 8)]

theorem wit_ContributionsAndSpill :
    (∃ (s : State) (fid : Nat) (t : TileId) (r : FrameRec) (x : Contribution) (c : CtxRec) (k : ChunkRec) (i : Instr),
      s.blk.frame? fid = some r ∧ r.dest = Dest.engine ∧ x = contributionOf r.frame ∧ s.blk.ctx? x.id.ctx = some c ∧
      c.epoch = x.id.epoch ∧ s.blk.engineFor c x.id = some ↑t ∧ s.blk.active ↑t = true ∧
      s.blk.crossed fid r (dieOfTile ↑t) = true ∧ s.blk.heldBack fid r = false ∧
      (s.blk.engine ↑t).log.contains x.id = false ∧ s.blk.chunkAt (↑t) x.id = some k ∧
      k.arrived.testBit x.member = false ∧ k.status = 0 ∧ k.audit = none ∧ x.fmt = k.fmt ∧ x.op = k.op ∧
      x.elems = k.elems ∧ x.payload.length = payloadLen k.fmt k.elems ∧ k.lines ≠ 0 ∧ (Blk.accumulate k x).2 = 0 ∧
      i = (if (s.blk.refuser fid).isSome = true then Instr.contribRetry fid { engine := EngineTrouble.none, copy := EngineTrouble.none } else Instr.contribAccept fid { engine := EngineTrouble.none, copy := EngineTrouble.none })) ∧
    (∃ (s : State) (fid : Nat) (t : TileId) (r : FrameRec) (x : Contribution) (c : CtxRec) (k : ChunkRec) (i : Instr),
      s.blk.frame? fid = some r ∧ r.dest = Dest.engine ∧ x = contributionOf r.frame ∧ s.blk.ctx? x.id.ctx = some c ∧
      c.epoch = x.id.epoch ∧ s.blk.engineFor c x.id = some ↑t ∧ s.blk.active ↑t = true ∧
      s.blk.crossed fid r (dieOfTile ↑t) = true ∧ s.blk.heldBack fid r = false ∧
      (s.blk.engine ↑t).log.contains x.id = false ∧ s.blk.chunkAt (↑t) x.id = some k ∧
      k.arrived.testBit x.member = false ∧ k.status = 0 ∧ k.audit = none ∧ x.fmt = k.fmt ∧ x.op = k.op ∧
      x.elems = k.elems ∧ x.payload.length = payloadLen k.fmt k.elems ∧ k.lines ≠ 0 ∧ (Blk.accumulate k x).2 = 0 ∧
      i = (if (s.blk.refuser fid).isSome = true then Instr.contribRetry fid { engine := EngineTrouble.none, copy := EngineTrouble.none } else Instr.contribAccept fid { engine := EngineTrouble.none, copy := EngineTrouble.none })) ∧
    (∃ (s : State) (fid : Nat) (t : TileId) (r : FrameRec) (x : Contribution) (c : CtxRec) (k : ChunkRec) (i : Instr),
      s.blk.frame? fid = some r ∧ r.dest = Dest.engine ∧ x = contributionOf r.frame ∧ s.blk.ctx? x.id.ctx = some c ∧
      c.epoch = x.id.epoch ∧ s.blk.engineFor c x.id = some ↑t ∧ s.blk.active ↑t = true ∧
      s.blk.crossed fid r (dieOfTile ↑t) = true ∧ s.blk.heldBack fid r = false ∧
      (s.blk.engine ↑t).log.contains x.id = false ∧ s.blk.chunkAt (↑t) x.id = none ∧ s.blk.tableFull ↑t = false ∧
      s.blk.openStatus x = 0 ∧ s.blk.fld Fld.GRN_AUDIT_CFG_audit_log2 0 = 15 ∧ k = s.blk.newChunk x c.count ∧
      Blk.linesFor k (Blk.accumulate k x).2 ≤ s.blk.freeScratch ↑t ∧
      i = (if (s.blk.refuser fid).isSome = true then Instr.contribRetry fid { engine := EngineTrouble.none, copy := EngineTrouble.none } else Instr.contribAccept fid { engine := EngineTrouble.none, copy := EngineTrouble.none })) ∧
    (∃ (s : State) (t : TileId) (a : SpillAsk), List.find? (fun a => decide (a.want ≠ 0)) (s.blk.spill ↑t) = some a ∧
      List.find? (fun b => decide (b.frame = a.frame)) (s.blk.spill ↑t) = some a ∧
      (s.blk.bsl (dieOfTile ↑t)).requests = [] ∧ (s.blk.bsl (dieOfTile ↑t)).carried = [] ∧
      s.blk.spillFits (↑t) a.want = true) ∧
    (∃ (s : State) (t : TileId) (a : SpillAsk), List.find? (fun a => decide (a.want ≠ 0)) (s.blk.spill ↑t) = some a ∧
      List.find? (fun b => decide (b.frame = a.frame)) (s.blk.spill ↑t) = some a ∧
      (s.blk.bsl (dieOfTile ↑t)).requests = [] ∧ (s.blk.bsl (dieOfTile ↑t)).carried = [] ∧
      s.blk.spillFits (↑t) a.want = false) ∧
    (∃ (s : State) (fid : Nat) (t : TileId) (r : FrameRec) (x : Contribution) (k : ChunkRec),
      s.blk.refuser fid = some ↑t ∧ s.blk.frame? fid = some r ∧ x = contributionOf r.frame ∧
      (s.blk.engine ↑t).log.contains x.id = false ∧ s.blk.chunkAt (↑t) x.id = some k ∧ k.status = 0 ∧
      k.arrived.testBit x.member = false) ∧
    (∃ (s : State) (fid : Nat) (t : TileId) (r : FrameRec) (x : Contribution), s.blk.refuser fid = some ↑t ∧
      s.blk.frame? fid = some r ∧ x = contributionOf r.frame ∧ (s.blk.engine ↑t).log.contains x.id = false ∧
      s.blk.chunkAt (↑t) x.id = none) :=
  ⟨⟨sx [(.GRN_STATUS_state, 31, 1)] (col (cx 1 .opened) { Engine.reset with chunks := [ck 1 0] } (colRec 0x10 .engine)),
      5, 31, colRec 0x10 .engine, contributionOf (colFrame 0x10), cx 1 .opened, ck 1 0, .contribAccept 5 ⟨.none, .none⟩,
      by decide +kernel⟩,
   ⟨sx [(.GRN_STATUS_state, 31, 1)] (col (cx 1 .opened) { Engine.reset with chunks := [ck 1 0], refused := [5] } (colRec 0x10 .engine)),
      5, 31, colRec 0x10 .engine, contributionOf (colFrame 0x10), cx 1 .opened, ck 1 0, .contribRetry 5 ⟨.none, .none⟩,
      by decide +kernel⟩,
   ⟨sx [(.GRN_STATUS_state, 31, 1), (.GRN_AUDIT_CFG_audit_log2, 0, 15)] (col (cx 1 .opened) Engine.reset (colRec 0x10 .engine)),
      5, 31, colRec 0x10 .engine, contributionOf (colFrame 0x10), cx 1 .opened,
      (Blk.reset.newChunk (contributionOf (colFrame 0x10)) 2), .contribAccept 5 ⟨.none, .none⟩, by decide +kernel⟩,
   ⟨sx [] fun b => { b with spills := [(31, [⟨9, 0, 2, false, [3]⟩, ⟨5, 4, 1, true, [0]⟩])], basalt := [(3, { BasaltDie.reset with cells := [(0, ⟨true, 5⟩)], bytes := [(1, [7])] })] },
      31, ⟨5, 4, 1, true, [0]⟩, by decide +kernel⟩,
   ⟨sx [(.GRN_SPILL_CFG_quota, 31, 3)] fun b => { b with spills := [(31, [⟨5, 4, 0, false, []⟩])] }, 31,
      ⟨5, 4, 0, false, []⟩, by decide +kernel⟩,
   ⟨sx [(.GRN_STATUS_state, 31, 1)] (col (cx 1 .opened) { Engine.reset with chunks := [ck 1 0], refused := [5] } (colRec 0x10 .engine)),
      5, 31, colRec 0x10 .engine, contributionOf (colFrame 0x10), ck 1 0, by decide +kernel⟩,
   ⟨sx [(.GRN_STATUS_state, 31, 1)] (col (cx 1 .opened) { Engine.reset with refused := [5] } (colRec 0x10 .engine)),
      5, 31, colRec 0x10 .engine, contributionOf (colFrame 0x10), by decide +kernel⟩⟩

theorem wit_ChunksReleased :
    (∃ (s : State) (t : TileId) (g : BitVec 12) (q : BitVec 16) (n : BitVec 18) (c : ChunkRec) (k : CtxRec),
      List.find? (fun c => decide (c.id.ctx = ctxNum g.toNat q.toNat) && decide (c.id.chunk = n.toNat) && c.full) (s.blk.engine ↑t).chunks = some c ∧
      c.status = 0 ∧ s.blk.active ↑t = true ∧ c.audit = none ∧ s.blk.ctx? c.id.ctx = some k ∧
      k.state ≠ CtxState.failing ∧ k.epoch = c.id.epoch) ∧
    (∃ (s : State) (t : TileId) (g : BitVec 12) (q : BitVec 16) (n : BitVec 18) (c : ChunkRec),
      List.find? (fun c => decide (c.id.ctx = ctxNum g.toNat q.toNat) && decide (c.id.chunk = n.toNat) && c.full) (s.blk.engine ↑t).chunks = some c ∧
      c.status ≠ 0) :=
  ⟨⟨sx [(.GRN_STATUS_state, 31, 1)] (col (cx 1 .opened) { Engine.reset with chunks := [ck 3 0] } (colRec 0x10 .engine)),
      31, 4095, 65535, 0, ck 3 0, cx 1 .opened, by decide +kernel⟩,
   ⟨sx [(.GRN_STATUS_state, 31, 1)] (col (cx 1 .failing) { Engine.reset with chunks := [ck 3 5] } (colRec 0x10 .engine)),
      31, 4095, 65535, 0, ck 3 5, by decide +kernel⟩⟩

theorem wit_EnginesAndReplication :
    (∃ (s : State) (t : TileId), s.blk.active ↑t = true) ∧
    (∃ (s : State) (t : TileId), s.blk.active ↑t = false) ∧
    (∃ (s : State) (t : TileId), s.blk.fld Fld.GRN_STATUS_state ↑t = 4) ∧
    (∃ (s : State) (t : TileId), s.blk.fld Fld.GRN_STATUS_state ↑t = 2 ∧ (s.blk.engine ↑t).chunks = []) ∧
    (∃ (s : State) (t : TileId), s.blk.fld Fld.GRN_STATUS_state ↑t = 2 ∧ (s.blk.engine ↑t).chunks = []) ∧
    (∃ (s : State) (t : TileId), s.blk.fld Fld.GRN_STATUS_state ↑t = 3 ∧ s.blk.openElsewhere ↑t = false) ∧
    (∃ (s : State) (t : TileId), s.blk.fld Fld.GRN_STATUS_state ↑t = 3) ∧
    (∃ (s : State) (e : Nat), s.blk.flag Fld.GRN_IST_CTL_en 0 = true ∧ e = s.blk.fld Fld.GRN_IST_STATUS_engine 0) ∧
    (∃ (s : State) (e : Nat), s.blk.flag Fld.GRN_IST_CTL_en 0 = true ∧ e = s.blk.fld Fld.GRN_IST_STATUS_engine 0) ∧
    (∃ (s : State) (e : Nat), s.blk.flag Fld.GRN_IST_CTL_en 0 = true ∧ e = s.blk.fld Fld.GRN_IST_STATUS_engine 0 ∧
      s.blk.istOver = false ∧ s.blk.active e = true) ∧
    (∃ (s : State) (e : Nat), s.blk.flag Fld.GRN_IST_CTL_en 0 = true ∧ e = s.blk.fld Fld.GRN_IST_STATUS_engine 0 ∧
      s.blk.istOver = false ∧ s.blk.active e = true ∧ e < 32) ∧
    (∃ (s : State) (t : TileId) (r : ReplTile) (i : ReplItem) (rest : List ReplItem) (m j : Nat),
      r = s.blk.repl.get ReplTile.reset ↑t ∧ m < 3 ∧ j = (r.last + 1 + m) % 3 ∧ r.source j = i :: rest ∧
      (∀ m' < m, r.source ((r.last + 1 + m') % 3) = []) ∧ AllLive s ∧ i.piece = none ∧
      (∀ d < 4, s.blk.copy? (4 * s.blk.nextFrame + d) = none)) ∧
    (∃ (s : State) (t : TileId) (r : ReplTile) (i : ReplItem) (rest : List ReplItem) (m j : Nat),
      r = s.blk.repl.get ReplTile.reset ↑t ∧ m < 3 ∧ j = (r.last + 1 + m) % 3 ∧ r.source j = i :: rest ∧
      (∀ m' < m, r.source ((r.last + 1 + m') % 3) = []) ∧ AllLive s ∧ i.piece = none ∧
      (∀ d < 4, s.blk.copy? (4 * s.blk.nextFrame + d) = none)) ∧
    (∃ (s : State) (t : TileId) (r : ReplTile) (i : ReplItem) (rest : List ReplItem) (m j fid : Nat) (fr : FrameRec),
      r = s.blk.repl.get ReplTile.reset ↑t ∧ m < 3 ∧ j = (r.last + 1 + m) % 3 ∧ r.source j = i :: rest ∧
      (∀ m' < m, r.source ((r.last + 1 + m') % 3) = []) ∧ AllLive s ∧ i.piece = some fid ∧ s.blk.frame? fid = some fr ∧
      s.blk.mayReflect (dieOfTile fr.tile) i.target = true ∧ (∀ d < 4, s.blk.copy? (4 * fid + d) = none)) :=
  ⟨⟨sx [(.GRN_STATUS_state, 31, 1)], 31, by decide +kernel⟩,
   ⟨sx [(.GRN_STATUS_state, 31, 4)], 31, by decide +kernel⟩,
   ⟨sx [(.GRN_STATUS_state, 31, 4)], 31, by decide +kernel⟩,
   ⟨sx [(.GRN_STATUS_state, 31, 2)], 31, by decide +kernel⟩,
   ⟨sx [(.GRN_STATUS_state, 0, 2)] fun b => { b with engines := [(0, { Engine.reset with retest := true })] }, 0,
      by decide +kernel⟩,
   ⟨sx [(.GRN_STATUS_state, 31, 3)], 31, by decide +kernel⟩,
   ⟨sx [(.GRN_STATUS_state, 31, 3)], 31, by decide +kernel⟩,
   ⟨sx [(.GRN_IST_CTL_en, 0, 1), (.GRN_IST_STATUS_engine, 0, 31), (.GRN_STATUS_state, 0, 1)], 31, by decide +kernel⟩,
   ⟨sx [(.GRN_IST_CTL_en, 0, 1), (.GRN_STATUS_state, 0, 1)], 0, by decide +kernel⟩,
   ⟨sx [(.GRN_IST_CTL_en, 0, 1), (.GRN_IST_STATUS_engine, 0, 31), (.GRN_IST_STATUS_busy, 0, 1), (.GRN_STATUS_state, 31, 1)],
      31, by decide +kernel⟩,
   ⟨sx [(.GRN_IST_CTL_en, 0, 1), (.GRN_IST_STATUS_engine, 0, 31), (.GRN_IST_STATUS_busy, 0, 1), (.GRN_STATUS_state, 31, 1)],
      31, by decide +kernel⟩,
   ⟨sx live fun b => { b with repl := [(31, ⟨[garnetItem], [restoreItem], [], 2⟩)] }, 31,
      ⟨[garnetItem], [restoreItem], [], 2⟩, garnetItem, [], 0, 0, by (repeat' apply And.intro) <;> decide +kernel⟩,
   ⟨sx live fun b => { b with repl := [(31, ⟨[], [restoreItem, restoreItem], [], 1⟩)] }, 31,
      ⟨[], [restoreItem, restoreItem], [], 1⟩, restoreItem, [restoreItem], 2, 1,
      by (repeat' apply And.intro) <;> decide +kernel⟩,
   ⟨sx live fun b => { b with repl := [(31, ⟨[garnetItem], [], [pieceItem], 0⟩)], frames := [(5, colRec 0x13 .pieces)] },
      31, ⟨[garnetItem], [], [pieceItem], 0⟩, pieceItem, [], 1, 2, 5, colRec 0x13 .pieces,
      by (repeat' apply And.intro) <;> decide +kernel⟩⟩


end P05

namespace P06

/-- The entry of group 4,095: two members at 65,534, its one home tile 31. -/
def gE : Nat := 2 ^ 127 + 2 * 2 ^ 96 + 65534 * 2 ^ 80 + 31 * 2 ^ 64 + 2 ^ 56

/-- A descriptor for that group. -/
def cd : ColDesc := ⟨true, false, 4095, 65535, 1, 0, 1, 1, 100, 0xFFFF, 4095, 0, 7, 1023, 4096, List.replicate 24 0⟩

/-- A context of that group, its members behind links 1,020 and 1,023. -/
def cx (kind : Nat) (state : CtxState) : CtxRec :=
  { kind := kind, desc := cd, epoch := 3, members := [(1020, 16), (1023, 17)], entry := gE, chunks := 1, state := state,
    status := 0, marked := false, run := 4, recorded := false, taken := [], openedAt := 0, chunksOk := 0, flags := 0, badStatus := 0, badChunk := 0,
    lostCopy := false, stream := none }

/-- A collective frame of member 1 for chunk 0 of that context: opcode, and a payload of 4 bytes; its format is
BF16 in a contribution. -/
def colFrame (op : Nat) : Frame :=
  xFrame 2 4 ⟨0, false, false, 0, 5, 17, 9, op, 0, (ColArea.mk 4095 65535 3 1 0 (if op = 0x10 then 1 else 0) 0 2 0).bytes, [0x3F, 0x80, 0x40, 0]⟩

/-- That frame in staging, for the collective controller or on its way to an engine. -/
def colRec (op : Nat) (dest : Dest) : FrameRec :=
  { frame := colFrame op, link := some 1023, tile := 31, cls := 5, cells := 1, freed := 0, whole := true, got := 46,
    chkFail := false, dest := dest, void := false, why := 0, arrived := 0,
    stampOk := false, tag := none }

/-- An open chunk of that context to which member 0 has contributed. -/
def ck (arrived status : Nat) : ChunkRec :=
  { id := ⟨ctxNum 4095 65535, 0, 3⟩, fmt := 1, op := 0, elems := 2, n := 2, mxSat := false, e4m3Sat := false, arrived := arrived,
    status := status, blocks := [⟨false, none, 0, [Lane.zero, Lane.zero]⟩], spilled := false, lines := 1, cells := [], moved := false,
    audit := none }

/-- Collective state about a context: its group valid, the context open, its engine, its frame 5. -/
def col (c : CtxRec) (e : Engine) (r : FrameRec) (b : Blk) : Blk :=
  { b with groups := [(4095, gE), (4096 * 3 + 4095, gE)], members := [(65534, 2 ^ 63 + 1020 * 2 ^ 30 + 16), (65535, 2 ^ 63 + 1023 * 2 ^ 30 + 17)],
           groupHw := [(4095, ⟨false, 3, 1⟩)], contexts := [(ctxNum 4095 65535, c)], engines := [(31, e)], frames := [(5, r)] }

/-- The collective controller enabled, and queue 4,095, a management-side one, enabled. -/
def cqOn : List (Fld × Nat × Nat) := [(.COL_CTL_en, 0, 1), (.DMA_CQ_CFG_en, 4095, 1), (.DMA_CQ_CFG_side, 4095, 1)]

/-- Group state, and a descriptor waiting on queue 4,095. -/
def grp (hw : GroupHw) (b : Blk) : Blk :=
  { b with groups := [(4095, gE)], members := [(65534, 2 ^ 63 + 1020 * 2 ^ 30 + 16), (65535, 2 ^ 63 + 1023 * 2 ^ 30 + 17)],
           groupHw := [(4095, hw)], cqTail := [(4095, 1)] }

/-- A context with its group, a descriptor waiting. -/
def ctxd (c : CtxRec) (b : Blk) : Blk := { grp ⟨false, 3, 1⟩ b with contexts := [(ctxNum 4095 65535, c)] }

/-- The description of member 0 anew, as a REBIND gives it. -/
def reb : ColDesc := { cd with member := 1, args := beBytes 8 (2 ^ 63 + 1019 * 2 ^ 30 + 18) ++ List.replicate 16 0 }

/-- The 64 bytes of a descriptor of a kind, laid out by R229. -/
def dw (kind : Nat) (d : ColDesc) : Bytes64 :=
  BitVec.ofNat 512 (beAt (beBytes 1 kind ++ beBytes 1 ((if d.sigFail then 128 else 0) + if d.notify then 64 else 0) ++
    beBytes 2 d.group.toNat ++ beBytes 2 d.seq.toNat ++ beBytes 1 (16 * d.fmt.toNat + d.op.toNat) ++ [0] ++ beBytes 4 d.chunks.toNat ++
    beBytes 2 d.member.toNat ++ beBytes 2 d.timeout.toNat ++ beBytes 2 d.waitTok.toNat ++ beBytes 2 d.sigTok.toNat ++
    beBytes 4 d.waitVal.toNat ++ beBytes 4 d.tag.toNat ++ beBytes 2 d.cring.toNat ++ [0, 0] ++ beBytes 8 d.addr.toNat ++ d.args) 0 64)

/-- A description of two members at index 5. -/
def mem : ColDesc := { cd with args := [0, 0, 0, 5, 0, 2] ++ List.replicate 18 0 }

/-- The pending buffer is full: a record is held. -/
def full (b : Blk) : Blk := { b with cplHeld := [⟨7, ⟨2, []⟩, .none⟩] }

theorem wit_ContextsStart :
    (∃ (s : State) (q : QueueId) (w : Bytes64) (d : ColDesc) (kind : Nat) (i : Instr),
      (kind, i) ∈ [(1, Instr.allReduce q w), (2, Instr.reduceScatter q w), (3, Instr.allGather q w), (4, Instr.broadcast q w), (5, Instr.barrier q w)] ∧
      d = Blk.colDesc w ∧ Blk.descKind w = kind ∧ s.blk.mayStart (↑q) d = true ∧ s.blk.roomFor d.group.toNat = true ∧
      s.blk.fieldsOk kind d = true ∧ s.blk.groupValid d.group.toNat = true ∧
      s.blk.ctx? (ctxNum d.group.toNat d.seq.toNat) = none ∧ s.blk.pathDown (s.blk.newCtx kind d) = false) ∧
    (∃ (s : State) (q : QueueId) (w : Bytes64) (d : ColDesc) (kind : Nat) (i : Instr),
      (kind, i) ∈ [(1, Instr.allReduce q w), (2, Instr.reduceScatter q w), (3, Instr.allGather q w), (4, Instr.broadcast q w), (5, Instr.barrier q w)] ∧
      d = Blk.colDesc w ∧ Blk.descKind w = kind ∧ s.blk.mayStart (↑q) d = true ∧ s.blk.roomFor d.group.toNat = true ∧
      s.blk.fieldsOk kind d = true ∧ s.blk.groupValid d.group.toNat = true ∧
      s.blk.ctx? (ctxNum d.group.toNat d.seq.toNat) = none ∧ s.blk.pathDown (s.blk.newCtx kind d) = false) ∧
    (∃ (s : State) (q : QueueId) (w : Bytes64) (d : ColDesc) (kind : Nat) (i : Instr),
      (kind, i) ∈ [(1, Instr.allReduce q w), (2, Instr.reduceScatter q w), (3, Instr.allGather q w), (4, Instr.broadcast q w), (5, Instr.barrier q w)] ∧
      d = Blk.colDesc w ∧ Blk.descKind w = kind ∧ s.blk.mayStart (↑q) d = true ∧ s.blk.roomFor d.group.toNat = true ∧
      s.blk.fieldsOk kind d = true ∧ s.blk.groupValid d.group.toNat = true ∧
      s.blk.ctx? (ctxNum d.group.toNat d.seq.toNat) = none ∧ s.blk.pathDown (s.blk.newCtx kind d) = false) ∧
    (∃ (s : State) (q : QueueId) (w : Bytes64) (d : ColDesc) (kind : Nat) (i : Instr),
      (kind, i) ∈ [(1, Instr.allReduce q w), (2, Instr.reduceScatter q w), (3, Instr.allGather q w), (4, Instr.broadcast q w), (5, Instr.barrier q w)] ∧
      d = Blk.colDesc w ∧ Blk.descKind w = kind ∧ s.blk.mayStart (↑q) d = true ∧ s.blk.roomFor d.group.toNat = true ∧
      s.blk.fieldsOk kind d = true ∧ s.blk.groupValid d.group.toNat = true ∧
      s.blk.ctx? (ctxNum d.group.toNat d.seq.toNat) = none ∧ s.blk.pathDown (s.blk.newCtx kind d) = false) ∧
    (∃ (s : State) (q : QueueId) (w : Bytes64) (d : ColDesc) (kind : Nat) (i : Instr),
      (kind, i) ∈ [(1, Instr.allReduce q w), (2, Instr.reduceScatter q w), (3, Instr.allGather q w), (4, Instr.broadcast q w), (5, Instr.barrier q w)] ∧
      d = Blk.colDesc w ∧ Blk.descKind w = kind ∧ s.blk.mayStart (↑q) d = true ∧ s.blk.roomFor d.group.toNat = true ∧
      s.blk.fieldsOk kind d = true ∧ s.blk.groupValid d.group.toNat = true ∧
      s.blk.ctx? (ctxNum d.group.toNat d.seq.toNat) = none ∧ s.blk.pathDown (s.blk.newCtx kind d) = false) ∧
    (∃ (s : State) (q : QueueId) (w : Bytes64) (d : ColDesc) (kind : Nat) (i : Instr),
      (kind, i) ∈ [(1, Instr.allReduce q w), (2, Instr.reduceScatter q w), (3, Instr.allGather q w), (4, Instr.broadcast q w), (5, Instr.barrier q w)] ∧
      d = Blk.colDesc w ∧ Blk.descKind w = kind ∧ s.blk.mayStart (↑q) d = false) ∧
    (∃ (s : State) (q : QueueId) (w : Bytes64) (d : ColDesc) (kind : Nat) (i : Instr),
      (kind, i) ∈ [(1, Instr.allReduce q w), (2, Instr.reduceScatter q w), (3, Instr.allGather q w), (4, Instr.broadcast q w), (5, Instr.barrier q w)] ∧
      d = Blk.colDesc w ∧ Blk.descKind w = kind ∧ s.blk.mayStart (↑q) d = true ∧ s.blk.roomFor d.group.toNat = true ∧
      s.blk.cplFull = false ∧ s.blk.fieldsOk kind d = false) ∧
    (∃ (s : State) (q : QueueId) (w : Bytes64) (d : ColDesc) (kind : Nat) (i : Instr),
      (kind, i) ∈ [(1, Instr.allReduce q w), (2, Instr.reduceScatter q w), (3, Instr.allGather q w), (4, Instr.broadcast q w), (5, Instr.barrier q w)] ∧
      d = Blk.colDesc w ∧ Blk.descKind w = kind ∧ s.blk.mayStart (↑q) d = true ∧ s.blk.roomFor d.group.toNat = true ∧
      s.blk.cplFull = false ∧ s.blk.fieldsOk kind d = true ∧ s.blk.groupValid d.group.toNat = false) ∧
    (∃ (s : State) (q : QueueId) (w : Bytes64) (d : ColDesc) (kind : Nat) (i : Instr),
      (kind, i) ∈ [(1, Instr.allReduce q w), (2, Instr.reduceScatter q w), (3, Instr.allGather q w), (4, Instr.broadcast q w), (5, Instr.barrier q w)] ∧
      d = Blk.colDesc w ∧ Blk.descKind w = kind ∧ s.blk.mayStart (↑q) d = true ∧ s.blk.roomFor d.group.toNat = true ∧
      s.blk.cplFull = false ∧ s.blk.fieldsOk kind d = true ∧ s.blk.groupValid d.group.toNat = true ∧
      (s.blk.ctx? (ctxNum d.group.toNat d.seq.toNat)).isSome = true) ∧
    (∃ (s : State) (q : QueueId) (w : Bytes64) (d : ColDesc) (kind : Nat) (i : Instr),
      (kind, i) ∈ [(1, Instr.allReduce q w), (2, Instr.reduceScatter q w), (3, Instr.allGather q w), (4, Instr.broadcast q w), (5, Instr.barrier q w)] ∧
      d = Blk.colDesc w ∧ Blk.descKind w = kind ∧ s.blk.mayStart (↑q) d = true ∧ s.blk.roomFor d.group.toNat = true ∧
      s.blk.cplFull = false ∧ s.blk.fieldsOk kind d = true ∧ s.blk.groupValid d.group.toNat = true ∧
      s.blk.ctx? (ctxNum d.group.toNat d.seq.toNat) = none ∧ s.blk.pathDown (s.blk.newCtx kind d) = true) :=
  ⟨⟨sx cqOn (grp ⟨false, 3, 0⟩), 4095, dw 1 cd, cd, 1, .allReduce 4095 (dw 1 cd), by decide +kernel⟩,
   ⟨sx cqOn (grp ⟨false, 3, 0⟩), 4095, dw 2 cd, cd, 2, .reduceScatter 4095 (dw 2 cd), by decide +kernel⟩,
   ⟨sx cqOn (grp ⟨false, 3, 0⟩), 4095, dw 3 cd, cd, 3, .allGather 4095 (dw 3 cd), by decide +kernel⟩,
   ⟨sx cqOn (grp ⟨false, 3, 0⟩), 4095, dw 4 cd, cd, 4, .broadcast 4095 (dw 4 cd), by decide +kernel⟩,
   ⟨sx cqOn (grp ⟨false, 3, 0⟩), 4095, dw 5 cd, cd, 5, .barrier 4095 (dw 5 cd), by decide +kernel⟩,
   ⟨sx [], 4095, dw 1 cd, cd, 1, .allReduce 4095 (dw 1 cd), by decide +kernel⟩,
   ⟨sx cqOn (grp ⟨false, 3, 0⟩), 4095, dw 2 { cd with chunks := 262145 }, { cd with chunks := 262145 }, 2,
      .reduceScatter 4095 (dw 2 { cd with chunks := 262145 }), by decide +kernel⟩,
   ⟨sx cqOn (grp ⟨false, 3, 0⟩), 4095, dw 3 { cd with group := 0 }, { cd with group := 0 }, 3,
      .allGather 4095 (dw 3 { cd with group := 0 }), by decide +kernel⟩,
   ⟨sx cqOn (ctxd (cx 4 .opened)), 4095, dw 4 cd, cd, 4, .broadcast 4095 (dw 4 cd), by decide +kernel⟩,
   ⟨sx cqOn fun b => { grp ⟨false, 3, 0⟩ b with groups := [(4095, gE - 31 * 2 ^ 64)] }, 4095, dw 5 cd, cd, 5,
      .barrier 4095 (dw 5 cd), by decide +kernel⟩⟩

theorem wit_AbortsAndTokens :
    (∃ (s : State) (q : QueueId) (w : Bytes64) (d : ColDesc) (c : CtxRec), d = Blk.colDesc w ∧ Blk.descKind w = 8 ∧
      s.blk.mayStart (↑q) d = true ∧ s.blk.cplFull = false ∧ s.blk.ctx? (ctxNum d.group.toNat d.seq.toNat) = some c ∧
      c.state ≠ CtxState.failing ∧ c.recorded = false) ∧
    (∃ (s : State) (q : QueueId) (w : Bytes64) (d : ColDesc) (c : CtxRec), d = Blk.colDesc w ∧ Blk.descKind w = 8 ∧
      s.blk.mayStart (↑q) d = true ∧ s.blk.cplFull = false ∧
      (s.blk.ctx? (ctxNum d.group.toNat d.seq.toNat) = none ∨ s.blk.ctx? (ctxNum d.group.toNat d.seq.toNat) = some c ∧ (c.state = CtxState.failing ∨ c.recorded = true))) ∧
    (∃ (s : State) (q : QueueId) (w : Bytes64) (d : ColDesc) (c : CtxRec), d = Blk.colDesc w ∧ Blk.descKind w = 8 ∧
      s.blk.mayStart (↑q) d = true ∧ s.blk.cplFull = false ∧
      (s.blk.ctx? (ctxNum d.group.toNat d.seq.toNat) = none ∨ s.blk.ctx? (ctxNum d.group.toNat d.seq.toNat) = some c ∧ (c.state = CtxState.failing ∨ c.recorded = true))) ∧
    (∃ (s : State) (q : QueueId) (w : Bytes64) (d : ColDesc), d = Blk.colDesc w ∧ s.blk.mayStart (↑q) d = true ∧
      Blk.descKind w = 15 ∧ s.blk.cplFull = true) ∧
    (∃ (s : State) (q : QueueId) (w : Bytes64) (d : ColDesc), d = Blk.colDesc w ∧ s.blk.mayStart (↑q) d = true ∧
      Blk.descKind w = 15 ∧ s.blk.cplFull = false) ∧
    (∃ (s : State) (q : QueueId) (w : Bytes64) (d : ColDesc), d = Blk.colDesc w ∧ s.blk.mayStart (↑q) d = true ∧
      Blk.descKind w ∉ [1, 2, 3, 4, 5, 8, 9, 10, 11, 12, 15] ∧ s.blk.cplFull = false) ∧
    (∃ (s : State) (q : QueueId) (w : Bytes64) (d : ColDesc), d = Blk.colDesc w ∧ s.blk.mayStart (↑q) d = true ∧
      Blk.descKind w ∉ [1, 2, 3, 4, 5, 8, 9, 10, 11, 12, 15] ∧ s.blk.cplFull = false) :=
  ⟨⟨sx cqOn (ctxd (cx 4 .closing)), 4095, dw 8 cd, cd, cx 4 .closing, by decide +kernel⟩,
   ⟨sx cqOn (grp ⟨false, 3, 0⟩), 4095, dw 8 cd, cd, cx 4 .closing, by decide +kernel⟩,
   ⟨sx cqOn (ctxd (cx 4 .failing)), 4095, dw 8 cd, cd, cx 4 .failing, by decide +kernel⟩,
   ⟨sx cqOn fun b => grp ⟨false, 3, 0⟩ (full b), 4095, dw 15 cd, cd, by decide +kernel⟩,
   ⟨sx (cqOn ++ [(.COL_TOKEN_value, 4095, 2 ^ 32 - 1)]) (grp ⟨false, 3, 0⟩), 4095, dw 15 cd, cd, by decide +kernel⟩,
   ⟨sx cqOn (grp ⟨false, 3, 0⟩), 4095, dw 6 cd, cd, by decide +kernel⟩,
   ⟨sx cqOn (grp ⟨false, 3, 0⟩), 4095, dw 255 cd, cd, by decide +kernel⟩⟩

theorem wit_GroupsWritten :
    (∃ (s : State) (q : QueueId) (w : Bytes64) (d : ColDesc), d = Blk.colDesc w ∧ Blk.descKind w = 9 ∧
      s.blk.mayStart (↑q) d = true ∧ (s.blk.groupState d.group.toNat).fenced = false ∧
      s.blk.groupValid d.group.toNat = true ∧ d.member.toNat % 1024 < (Blk.groupRun (s.blk.group d.group.toNat)).1 ∧
      (beAt d.args 0 8).testBit 63 = true) ∧
    (∃ (s : State) (g : BitVec 12) (f : Fence), s.blk.fences.find g.toNat = some f ∧
      (s.blk.groupState g.toNat).open_ = 0) ∧
    (∃ (s : State) (g : BitVec 12) (f : Fence), s.blk.fences.find g.toNat = some f ∧
      (s.blk.groupState g.toNat).open_ ≠ 0) ∧
    (∃ (s : State) (q : QueueId) (w : Bytes64) (d : ColDesc), d = Blk.colDesc w ∧ s.blk.mayStart (↑q) d = true ∧
      s.blk.cplFull = false ∧ s.blk.groupBusy d.group.toNat = false ∧ Blk.descKind w = 11) ∧
    (∃ (s : State) (q : QueueId) (w : Bytes64) (d : ColDesc) (bs : List Byte) (e n first : Nat), d = Blk.colDesc w ∧
      s.blk.mayStart (↑q) d = true ∧ s.blk.cplFull = false ∧ s.blk.groupBusy d.group.toNat = false ∧
      Blk.descKind w = 10 ∧ e = beAt bs 0 16 ∧ (n, first) = Blk.groupRun e ∧ d.addr ≠ 0 ∧ 1 ≤ n ∧ n ≤ 1024 ∧
      first + n ≤ 65536 ∧ 1 ≤ bits e 61 56 ∧ bits e 61 56 ≤ 32 ∧
      (∀ m < n, (s.blk.memberEntry s.blk.liveDie (first + m)).testBit 63 = true)) ∧
    (∃ (s : State) (q : QueueId) (w : Bytes64) (d : ColDesc) (first n k : Nat), d = Blk.colDesc w ∧
      Blk.descKind w = 12 ∧ s.blk.mayStart (↑q) d = true ∧ s.blk.cplFull = false ∧ d.addr ≠ 0 ∧
      first = beAt d.args 0 4 ∧ n = beAt d.args 4 2 ∧ n ≤ 1024 ∧ first + n ≤ 65536 ∧ s.blk.inRun first n = false ∧ k < n) :=
  ⟨⟨sx cqOn (grp ⟨false, 3, 1⟩), 4095, dw 9 reb, reb, by decide +kernel⟩,
   ⟨sx [] fun b => { grp ⟨true, 255, 0⟩ b with fences := [(4095, ⟨reb, 1, 2 ^ 63⟩)] }, 4095, ⟨reb, 1, 2 ^ 63⟩,
      by decide +kernel⟩,
   ⟨sx [] fun b => { grp ⟨true, 255, 1⟩ b with fences := [(4095, ⟨reb, 1, 2 ^ 63⟩)] }, 4095, ⟨reb, 1, 2 ^ 63⟩,
      by decide +kernel⟩,
   ⟨sx cqOn (grp ⟨false, 255, 0⟩), 4095, dw 11 cd, cd, by decide +kernel⟩,
   ⟨sx cqOn (grp ⟨false, 255, 0⟩), 4095, dw 10 cd, cd, beBytes 16 (gE + 2 ^ 125 + 2 ^ 79), gE + 2 ^ 125 + 2 ^ 79, 2,
      65534, by decide +kernel⟩,
   ⟨sx cqOn (grp ⟨false, 255, 0⟩), 4095, dw 12 mem, mem, 5, 2, 1, by decide +kernel⟩⟩

theorem wit_ContextsRunAndEnd :
    (∃ (s : State) (fid : Nat) (r : FrameRec) (op : Nat) (i : Instr) (reason : Nat),
      (op, i) ∈ [(16, Instr.contrib fid), (17, Instr.gather fid), (18, Instr.bcast fid), (19, Instr.barrierArrival fid)] ∧
      s.blk.frame? fid = some r ∧ r.dest = Dest.garnet ∧ r.whole = true ∧ r.chkFail = false ∧
      (xHeader r.frame.data).opcode = op ∧ s.blk.colCheck r = some reason) ∧
    (∃ (s : State) (fid : Nat) (r : FrameRec) (op : Nat) (i : Instr) (c : CtxRec) (a : ColArea) (k e : Nat),
      (op, i) ∈ [(16, Instr.contrib fid), (17, Instr.gather fid), (18, Instr.bcast fid), (19, Instr.barrierArrival fid)] ∧
      s.blk.frame? fid = some r ∧ r.dest = Dest.garnet ∧ r.whole = true ∧ r.chkFail = false ∧
      (xHeader r.frame.data).opcode = op ∧ s.blk.colCheck r = none ∧ a = colArea r.frame.data ∧
      k = ctxNum a.group a.seq ∧ s.blk.ctx? k = some c ∧ c.reducing = true ∧
      s.blk.engineFor c { ctx := k, chunk := a.chunk, epoch := a.epoch } = some e ∧
      (dieOfTile r.tile ≠ dieOfTile e → 0 < s.blk.liveLinks (dirOf (dieOfTile r.tile) (dieOfTile e)))) ∧
    (∃ (s : State) (fid : Nat) (r : FrameRec) (op : Nat) (i : Instr) (c : CtxRec) (a : ColArea) (k e : Nat),
      (op, i) ∈ [(16, Instr.contrib fid), (17, Instr.gather fid), (18, Instr.bcast fid), (19, Instr.barrierArrival fid)] ∧
      s.blk.frame? fid = some r ∧ r.dest = Dest.garnet ∧ r.whole = true ∧ r.chkFail = false ∧
      (xHeader r.frame.data).opcode = op ∧ s.blk.colCheck r = none ∧ a = colArea r.frame.data ∧
      k = ctxNum a.group a.seq ∧ s.blk.ctx? k = some c ∧ c.reducing = true ∧
      s.blk.engineFor c { ctx := k, chunk := a.chunk, epoch := a.epoch } = some e ∧
      (dieOfTile r.tile ≠ dieOfTile e → 0 < s.blk.liveLinks (dirOf (dieOfTile r.tile) (dieOfTile e)))) ∧
    (∃ (s : State) (fid : Nat) (r : FrameRec) (op : Nat) (i : Instr) (c : CtxRec) (a : ColArea) (k : Nat),
      (op, i) ∈ [(16, Instr.contrib fid), (17, Instr.gather fid), (18, Instr.bcast fid), (19, Instr.barrierArrival fid)] ∧
      s.blk.frame? fid = some r ∧ r.dest = Dest.garnet ∧ r.whole = true ∧ r.chkFail = false ∧
      (xHeader r.frame.data).opcode = op ∧ s.blk.colCheck r = none ∧ a = colArea r.frame.data ∧
      k = ctxNum a.group a.seq ∧ s.blk.ctx? k = some c ∧ (c.kind = 3 ∨ c.kind = 4)) ∧
    (∃ (s : State) (fid : Nat) (r : FrameRec) (op : Nat) (i : Instr) (c : CtxRec) (a : ColArea) (k : Nat),
      (op, i) ∈ [(16, Instr.contrib fid), (17, Instr.gather fid), (18, Instr.bcast fid), (19, Instr.barrierArrival fid)] ∧
      s.blk.frame? fid = some r ∧ r.dest = Dest.garnet ∧ r.whole = true ∧ r.chkFail = false ∧
      (xHeader r.frame.data).opcode = op ∧ s.blk.colCheck r = none ∧ a = colArea r.frame.data ∧
      k = ctxNum a.group a.seq ∧ s.blk.ctx? k = some c ∧ (c.kind = 3 ∨ c.kind = 4)) ∧
    (∃ (s : State) (fid : Nat) (r : FrameRec) (op : Nat) (i : Instr) (c : CtxRec) (a : ColArea) (k : Nat),
      (op, i) ∈ [(16, Instr.contrib fid), (17, Instr.gather fid), (18, Instr.bcast fid), (19, Instr.barrierArrival fid)] ∧
      s.blk.frame? fid = some r ∧ r.dest = Dest.garnet ∧ r.whole = true ∧ r.chkFail = false ∧
      (xHeader r.frame.data).opcode = op ∧ s.blk.colCheck r = none ∧ a = colArea r.frame.data ∧
      k = ctxNum a.group a.seq ∧ s.blk.ctx? k = some c ∧ c.kind = 5 ∧ s.blk.crossed fid r (dieOfTile (c.home 0)) = true) ∧
    (∃ (s : State) (fid : Nat) (r : FrameRec) (op : Nat) (i : Instr) (c : CtxRec) (a : ColArea) (k hd : Nat),
      (op, i) ∈ [(16, Instr.contrib fid), (17, Instr.gather fid), (18, Instr.bcast fid), (19, Instr.barrierArrival fid)] ∧
      s.blk.frame? fid = some r ∧ r.dest = Dest.garnet ∧ r.whole = true ∧ r.chkFail = false ∧
      (xHeader r.frame.data).opcode = op ∧ s.blk.colCheck r = none ∧ a = colArea r.frame.data ∧
      k = ctxNum a.group a.seq ∧ s.blk.ctx? k = some c ∧ c.kind = 5 ∧ hd = dieOfTile (c.home 0) ∧
      s.blk.crossed fid r hd = false ∧ s.blk.transfers.find (4 * fid + hd) = none ∧
      0 < s.blk.liveLinks (dirOf (dieOfTile r.tile) hd)) ∧
    (∃ (s : State) (g : BitVec 12) (q : BitVec 16) (k : Nat) (c : CtxRec), k = ctxNum g.toNat q.toNat ∧
      s.blk.ctx? k = some c ∧ c.recorded = false ∧
      (c.state = CtxState.opened ∨ c.state = CtxState.closing ∧ c.marked = true)) ∧
    (∃ (s : State) (g : BitVec 12) (q : BitVec 16) (k : Nat) (c : CtxRec), k = ctxNum g.toNat q.toNat ∧
      s.blk.ctx? k = some c ∧ c.state = CtxState.closing ∧ c.marked = false ∧ c.recorded = false ∧
      (c.reducing = true → c.chunksOk = c.chunks) ∧ s.blk.ctxPending c.run = false ∧ s.blk.cplFull = false) ∧
    (∃ (s : State) (g : BitVec 12) (q : BitVec 16) (k : Nat) (c : CtxRec), k = ctxNum g.toNat q.toNat ∧
      s.blk.ctx? k = some c ∧ c.state = CtxState.failing ∧ c.recorded = false ∧ s.blk.cplFull = false) ∧
    (∃ (s : State) (g : BitVec 12) (q : BitVec 16) (k : Nat) (c : CtxRec), k = ctxNum g.toNat q.toNat ∧
      s.blk.ctx? k = some c ∧ c.state = CtxState.failing ∧ c.recorded = false ∧ s.blk.cplFull = true) ∧
    (∃ (s : State) (g : BitVec 12) (q : BitVec 16) (k : Nat) (c : CtxRec), k = ctxNum g.toNat q.toNat ∧
      s.blk.ctx? k = some c ∧ c.recorded = false ∧
      (c.state = CtxState.opened ∨ c.state = CtxState.closing ∧ c.marked = true)) :=
  ⟨⟨sx [] (col (cx 3 .opened) .reset (colRec 0x10 .garnet)), 5, colRec 0x10 .garnet, 0x10, .contrib 5, 6,
      by decide +kernel⟩,
   ⟨sx [(.GRN_STATUS_state, 31, 1)] (col (cx 1 .opened) .reset (colRec 0x10 .garnet)), 5, colRec 0x10 .garnet, 0x10,
      .contrib 5, cx 1 .opened, colArea (colFrame 0x10).data, ctxNum 4095 65535, 31, by decide +kernel⟩,
   ⟨sx ((.GRN_STATUS_state, 0, 1) :: (.D2D_PAIR_STATUS_live_ji, 2, 1) :: ag [(16, 1, 2)]) fun b => { col (cx 1 .opened) .reset (colRec 0x10 .garnet) b with contexts := [(ctxNum 4095 65535, { cx 1 .opened with entry := gE - 31 * 2 ^ 64 })] },
      5, colRec 0x10 .garnet, 0x10, .contrib 5, { cx 1 .opened with entry := gE - 31 * 2 ^ 64 },
      colArea (colFrame 0x10).data, ctxNum 4095 65535, 0, by decide +kernel⟩,
   ⟨sx [] (col (cx 3 .opened) .reset (colRec 0x11 .garnet)), 5, colRec 0x11 .garnet, 0x11, .gather 5, cx 3 .opened,
      colArea (colFrame 0x11).data, ctxNum 4095 65535, by decide +kernel⟩,
   ⟨sx [] (col (cx 4 .opened) .reset (colRec 0x12 .garnet)), 5, colRec 0x12 .garnet, 0x12, .bcast 5, cx 4 .opened,
      colArea (colFrame 0x12).data, ctxNum 4095 65535, by decide +kernel⟩,
   ⟨sx [] (col { cx 5 .opened with taken := [(0, 1)] } .reset (colRec 0x13 .garnet)), 5, colRec 0x13 .garnet, 0x13,
      .barrierArrival 5, { cx 5 .opened with taken := [(0, 1)] }, colArea (colFrame 0x13).data, ctxNum 4095 65535,
      by decide +kernel⟩,
   ⟨sx ((.D2D_PAIR_STATUS_live_ji, 2, 1) :: ag [(16, 1, 2)]) fun b => { col (cx 5 .opened) .reset (colRec 0x13 .garnet) b with contexts := [(ctxNum 4095 65535, { cx 5 .opened with entry := gE - 31 * 2 ^ 64 })] },
      5, colRec 0x13 .garnet, 0x13, .barrierArrival 5, { cx 5 .opened with entry := gE - 31 * 2 ^ 64 },
      colArea (colFrame 0x13).data, ctxNum 4095 65535, 0, by decide +kernel⟩,
   ⟨sx [] (ctxd { cx 1 .opened with marked := true }), 4095, 65535, ctxNum 4095 65535,
      { cx 1 .opened with marked := true }, by decide +kernel⟩,
   ⟨sx [] (ctxd { cx 1 .closing with chunksOk := 1, taken := [(0, 3)] }), 4095, 65535, ctxNum 4095 65535,
      { cx 1 .closing with chunksOk := 1, taken := [(0, 3)] }, by decide +kernel⟩,
   ⟨sx [] fun b => { ctxd { cx 1 .failing with status := 4 } b with engines := [(31, { Engine.reset with chunks := [ck 1 0] })] },
      4095, 65535, ctxNum 4095 65535, { cx 1 .failing with status := 4 }, by decide +kernel⟩,
   ⟨sx [] fun b => full { ctxd { cx 1 .failing with status := 4 } b with engines := [(31, { Engine.reset with chunks := [ck 1 0] })] },
      4095, 65535, ctxNum 4095 65535, { cx 1 .failing with status := 4 }, by decide +kernel⟩,
   ⟨sx [] (ctxd { cx 1 .closing with marked := true }), 4095, 65535, ctxNum 4095 65535,
      { cx 1 .closing with marked := true }, by decide +kernel⟩⟩


end P06

namespace P07

/-- A region of a size and mode, its endpoint 77, its owner 9. -/
def rg (mode base blocks : Nat) (dup : Bool) : RegionRec :=
  { RegionRec.reset with valid := true, mode := mode, dup := dup, rd := true, wr := true, at_ := true, gen := 255, owner := 9, eid := 77,
                         base := base, blocks := blocks, gw := 255 }

/-- A memory request of region 65,535: opcode, offset, length less one, ordered, payload; it is in staging for Gneiss. -/
def mf (opcode off len1 ord : Nat) (payload : List Byte) : FrameRec :=
  { frame := xFrame 2 4 ⟨0, false, false, 77, 3, 17, 9, opcode, 0,
      beBytes 12 (65535 * 2 ^ 80 + off * 2 ^ 48 + 9 * 2 ^ 32 + 3 * 2 ^ 16 + len1 * 8 + ord * 4), payload⟩,
    link := some 1023, tile := 31, cls := 3, cells := 1, freed := 0, whole := true, got := 46, chkFail := false, dest := .gneiss,
    void := false, why := 0, arrived := 0, stampOk := false, tag := none }

/-- That request waits as frame 5, its cell has crossed to die 0; region 65,535 is as given. -/
def mem (g : RegionRec) (r : FrameRec) (b : Blk) : Blk :=
  { b with regions := [(65535, g)], frames := [(5, r)], transfers := [(20, ⟨31, 3, 1, 1, 1, 0⟩)], nextFrame := 6 }

/-- The engine enabled. -/
def gOn : List (Fld × Nat × Nat) := [(.GNS_CTL_en, 0, 1)]

/-- An update of line 0 of region 65,535: 8 bytes at byte 8. -/
def upd : UpdEntry := ⟨1, 31, 65535, 255, 0, 0x41, 8, List.replicate 8 0xFF, 0⟩

/-- A response in staging. -/
def resp (opcode : Nat) : FrameRec :=
  { mf opcode 0 0 0 [] with frame := xFrame 2 4 ⟨0, false, false, 77, 3, 17, 9, opcode, 0, beBytes 12 (3 * 2 ^ 16), []⟩ }

/-- A gateway that works: a running job, one packet sent, PSN 2²⁴ − 1. -/
def gw : GwRec :=
  { GwRec.reset with valid := true, retryCnt := 1, rate := 100, cur := 100, rnrRetry := 1,
                     running := some ⟨⟨1, 0, 256, 0, .ring 1023 5⟩, 0, 2 ^ 24 - 1, 0⟩, sent := [⟨2 ^ 24 - 1, fr, 256, true, 31⟩] }

/-- The bytes of GNS_CMD_DATA as registers. -/
def gData (l : List (Nat × Nat)) : List (Fld × Nat × Nat) := l.map fun kv => (.GNS_CMD_DATA_data, kv.1, kv.2)

/-- A JOB ring enabled on the management side, one descriptor in it. -/
def ring7 : List (Fld × Nat × Nat) :=
  [(.DMA_RING_CFG_en, 0, 1), (.DMA_RING_CFG_func, 0, 7), (.DMA_RING_CFG_side, 0, 1), (.DMA_RING_TAIL_tail, 0, 1)]

/-- A job: gateway 255, region 1, bytes 0 to 255, tag 7, ring 1,023. -/
def job : Bytes32 := BitVec.ofNat 256 (255 * 2 ^ 248 + 2 ^ 224 + 256 * 2 ^ 128 + 7 * 2 ^ 32 + 1023 * 2 ^ 16)

theorem wit_MemoryRequests :
    (∃ (s : State) (fid op st : Nat) (r : FrameRec) (i : Instr) (q : MemReq) (h : XHeader),
      (op, i) ∈ [(64, Instr.read fid), (65, Instr.write fid), (72, Instr.add fid), (73, Instr.fetchAdd fid), (74, Instr.swap fid), (75, Instr.cas fid), (76, Instr.fetchOr fid), (77, Instr.fetchAnd fid)] ∧
      s.blk.frame? fid = some r ∧ fid < s.blk.nextFrame ∧ r.dest = Dest.gneiss ∧ r.whole = true ∧ r.chkFail = false ∧
      h = xHeader r.frame.data ∧ h.opcode = op ∧ s.blk.heldBack fid r = false ∧ q = s.blk.memReqOf r ∧
      (s.blk.reqDies q h.dst).all (s.blk.crossed fid r) = true ∧ st = s.blk.memStatus q h.dst h.len ∧ st ≠ 0) ∧
    (∃ (s : State) (fid op st : Nat) (r : FrameRec) (i : Instr) (q : MemReq) (h : XHeader) (rn off len : Nat)
      (bs : List Byte) (a b c : Bool) (never : Nat),
      (op, i) ∈ [(64, Instr.read fid), (65, Instr.write fid), (72, Instr.add fid), (73, Instr.fetchAdd fid), (74, Instr.swap fid), (75, Instr.cas fid), (76, Instr.fetchOr fid), (77, Instr.fetchAnd fid)] ∧
      s.blk.frame? fid = some r ∧ fid < s.blk.nextFrame ∧ r.dest = Dest.gneiss ∧ r.whole = true ∧ r.chkFail = false ∧
      h = xHeader r.frame.data ∧ h.opcode = op ∧ s.blk.heldBack fid r = false ∧ q = s.blk.memReqOf r ∧
      (s.blk.reqDies q h.dst).all (s.blk.crossed fid r) = true ∧ st = s.blk.memStatus q h.dst h.len ∧ st = 0 ∧ op = 64 ∧
      (rn, off, len) = Blk.reqRange q ∧ (s.blk.region rn).mode ≠ 3 ∧
      s.blk.readRange rn off len = Blk.RangeRead.ok bs a b c never ∧
      (∀ n ∈ Blk.linesOf off len, ∀ x ∈ (s.blk.region rn).copies n, (s.blk.meta_ x).poison = false)) ∧
    (∃ (s : State) (fid : Nat) (r : FrameRec) (id k : Nat) (w : OwnWrite), s.blk.frame? fid = some r ∧
      r.dest = Dest.gneiss ∧ r.whole = true ∧ r.chkFail = false ∧ (xHeader r.frame.data).opcode = 97 ∧
      id = bits (beAt r.frame.data 16 12) 31 16 ∧ bits (beAt r.frame.data 16 12) 47 40 = 0 ∧
      s.blk.ownWrites.find id = some w ∧ w.kind = OwnKind.notify k) ∧
    (∃ (s : State) (fid : Nat) (r : FrameRec) (i : Instr), s.blk.frame? fid = some r ∧ r.dest = Dest.gneiss ∧
      r.whole = true ∧ r.chkFail = false ∧
      ((xHeader r.frame.data).opcode = 97 ∧ i = Instr.writeResp fid ∧ s.blk.ownWrites.find (bits (beAt r.frame.data 16 12) 31 16) = none ∨ (xHeader r.frame.data).opcode = 96 ∧ i = Instr.readResp fid ∨ (xHeader r.frame.data).opcode = 104 ∧ i = Instr.atomicResp fid)) ∧
    (∃ (s : State) (fid : Nat) (r : FrameRec) (i : Instr), s.blk.frame? fid = some r ∧ r.dest = Dest.gneiss ∧
      r.whole = true ∧ r.chkFail = false ∧
      ((xHeader r.frame.data).opcode = 97 ∧ i = Instr.writeResp fid ∧ s.blk.ownWrites.find (bits (beAt r.frame.data 16 12) 31 16) = none ∨ (xHeader r.frame.data).opcode = 96 ∧ i = Instr.readResp fid ∨ (xHeader r.frame.data).opcode = 104 ∧ i = Instr.atomicResp fid)) ∧
    (∃ (s : State) (fid : Nat) (r : FrameRec) (i : Instr), s.blk.frame? fid = some r ∧ r.dest = Dest.gneiss ∧
      r.whole = true ∧ r.chkFail = false ∧
      ((xHeader r.frame.data).opcode = 97 ∧ i = Instr.writeResp fid ∧ s.blk.ownWrites.find (bits (beAt r.frame.data 16 12) 31 16) = none ∨ (xHeader r.frame.data).opcode = 96 ∧ i = Instr.readResp fid ∨ (xHeader r.frame.data).opcode = 104 ∧ i = Instr.atomicResp fid)) ∧
    (∃ (s : State) (id : BitVec 16) (w : OwnWrite), s.blk.ownWrites.find id.toNat = some w ∧
      w.tries < s.blk.fld Fld.GNS_CKP_CFG_retries 0) ∧
    (∃ (s : State) (stack : Fin 12) (b o : Nat) (kv : Nat × RegionRec), s.blk.stackUp ↑stack = true ∧
      List.filter (fun (b : Nat) => decide (b % 12 = ↑stack)) s.blk.stale.keys = [b] ∧
      List.find? (fun kv => kv.2.valid && kv.2.dup && decide (kv.2.base ≤ b) && decide (b < kv.2.base + kv.2.blocks)) s.blk.regions = some kv ∧
      o = (if (b - kv.2.base) % 12 < 6 then b + 6 else b - 6) ∧ o ≠ b ∧ s.blk.liveLine (16 * o) = true) :=
  ⟨⟨sx gOn (mem (rg 0 0 1 false) (mf 0x48 8 7 0 [])), 5, 0x48, 8, mf 0x48 8 7 0 [], .add 5,
      Blk.memReqOf (sx gOn (mem (rg 0 0 1 false) (mf 0x48 8 7 0 []))).blk (mf 0x48 8 7 0 []),
      xHeader (mf 0x48 8 7 0 []).frame.data, by decide +kernel⟩,
   ⟨sx gOn (mem (rg 0 0 1 false) (mf 0x40 4080 15 0 [])), 5, 0x40, 0, mf 0x40 4080 15 0 [], .read 5,
      Blk.memReqOf (sx gOn (mem (rg 0 0 1 false) (mf 0x40 4080 15 0 []))).blk (mf 0x40 4080 15 0 []),
      xHeader (mf 0x40 4080 15 0 []).frame.data, 65535, 4080, 16, List.replicate 16 0, true, true, false, 1,
      by decide +kernel⟩,
   ⟨sx [] fun b => { b with frames := [(5, resp 0x61)], ownWrites := [(3, ⟨.notify 1, 31, 77, fr, 0⟩)] }, 5,
      resp 0x61, 3, 1, ⟨.notify 1, 31, 77, fr, 0⟩, by decide +kernel⟩,
   ⟨sx [] fun b => { b with frames := [(5, resp 0x61)] }, 5, resp 0x61, .writeResp 5, by decide +kernel⟩,
   ⟨sx [] fun b => { b with frames := [(5, resp 0x60)] }, 5, resp 0x60, .readResp 5, by decide +kernel⟩,
   ⟨sx [] fun b => { b with frames := [(5, resp 0x68)] }, 5, resp 0x68, .atomicResp 5, by decide +kernel⟩,
   ⟨sx [(.GNS_CKP_CFG_retries, 0, 1)] fun b => { b with ownWrites := [(65535, ⟨.notify 1, 31, 77, fr, 0⟩)] }, 65535,
      ⟨.notify 1, 31, 77, fr, 0⟩, by decide +kernel⟩,
   ⟨sx [] fun b => { b with regions := [(65535, rg 0 0 12 true)], stale := [(11, true)], hbm := [(4096 * 5 + 4095, 7)] },
      11, 11, 5, (65535, rg 0 0 12 true), by decide +kernel⟩⟩

theorem wit_MemoryUpdates :
    (∃ (s : State) (fid op : Nat) (r : FrameRec) (i : Instr) (q : MemReq) (h : XHeader) (rn off len : Nat)
      (payload : List Byte) (j : Instr),
      (op, i) ∈ [(65, Instr.write fid), (72, Instr.add fid), (73, Instr.fetchAdd fid), (74, Instr.swap fid), (75, Instr.cas fid), (76, Instr.fetchOr fid), (77, Instr.fetchAnd fid)] ∧
      s.blk.frame? fid = some r ∧ fid < s.blk.nextFrame ∧ r.dest = Dest.gneiss ∧ r.whole = true ∧ r.chkFail = false ∧
      h = xHeader r.frame.data ∧ h.opcode = op ∧ s.blk.heldBack fid r = false ∧ q = s.blk.memReqOf r ∧
      (s.blk.reqDies q h.dst).all (s.blk.crossed fid r) = true ∧ s.blk.memStatus q h.dst h.len = 0 ∧
      (rn, off, len) = Blk.reqRange q ∧ payload = List.take h.len (List.drop 32 r.frame.data) ∧
      (s.blk.region rn).mode ≠ 3 ∧ (s.blk.noteOrder fid q).mustWait fid = false ∧
      (∀ n ∈ Blk.linesOf off len, ∃ x ∈ (s.blk.region rn).copies n, s.blk.liveLine x = true) ∧
      (∀ k < 4, List.filter (fun e => decide (e.1 = k)) (s.blk.entriesOf q s.blk.nextReq payload) ≠ [] → s.blk.entriesFree k q.tile (List.filter (fun e => decide (e.1 = k)) (s.blk.entriesOf q s.blk.nextReq payload)).length = true) ∧
      (j = i ∨ j = Instr.updateQueueRetry fid ∧ s.blk.memWait.contains fid = true)) ∧
    (∃ (s : State) (fid op : Nat) (r : FrameRec) (i : Instr) (q : MemReq) (h : XHeader) (rn off len : Nat)
      (payload : List Byte) (j : Instr),
      (op, i) ∈ [(65, Instr.write fid), (72, Instr.add fid), (73, Instr.fetchAdd fid), (74, Instr.swap fid), (75, Instr.cas fid), (76, Instr.fetchOr fid), (77, Instr.fetchAnd fid)] ∧
      s.blk.frame? fid = some r ∧ fid < s.blk.nextFrame ∧ r.dest = Dest.gneiss ∧ r.whole = true ∧ r.chkFail = false ∧
      h = xHeader r.frame.data ∧ h.opcode = op ∧ s.blk.heldBack fid r = false ∧ q = s.blk.memReqOf r ∧
      (s.blk.reqDies q h.dst).all (s.blk.crossed fid r) = true ∧ s.blk.memStatus q h.dst h.len = 0 ∧
      (rn, off, len) = Blk.reqRange q ∧ payload = List.take h.len (List.drop 32 r.frame.data) ∧
      (s.blk.region rn).mode ≠ 3 ∧ (s.blk.noteOrder fid q).mustWait fid = false ∧
      (∀ n ∈ Blk.linesOf off len, ∃ x ∈ (s.blk.region rn).copies n, s.blk.liveLine x = true) ∧
      (∀ k < 4, List.filter (fun e => decide (e.1 = k)) (s.blk.entriesOf q s.blk.nextReq payload) ≠ [] → s.blk.entriesFree k q.tile (List.filter (fun e => decide (e.1 = k)) (s.blk.entriesOf q s.blk.nextReq payload)).length = true) ∧
      (j = i ∨ j = Instr.updateQueueRetry fid ∧ s.blk.memWait.contains fid = true)) ∧
    (∃ (s : State) (fid op : Nat) (r : FrameRec) (i : Instr) (q : MemReq) (h : XHeader) (rn off len : Nat)
      (payload : List Byte),
      (op, i) ∈ [(65, Instr.write fid), (72, Instr.add fid), (73, Instr.fetchAdd fid), (74, Instr.swap fid), (75, Instr.cas fid), (76, Instr.fetchOr fid), (77, Instr.fetchAnd fid)] ∧
      s.blk.frame? fid = some r ∧ fid < s.blk.nextFrame ∧ r.dest = Dest.gneiss ∧ r.whole = true ∧ r.chkFail = false ∧
      h = xHeader r.frame.data ∧ h.opcode = op ∧ s.blk.heldBack fid r = false ∧ q = s.blk.memReqOf r ∧
      (s.blk.reqDies q h.dst).all (s.blk.crossed fid r) = true ∧ s.blk.memStatus q h.dst h.len = 0 ∧
      (rn, off, len) = Blk.reqRange q ∧ payload = List.take h.len (List.drop 32 r.frame.data) ∧
      s.blk.ordWait.find fid = none ∧ op = 65 ∧ q.area.testBit 2 = true ∧
      s.blk.ordApplied.get 0 q.bucket < s.blk.ordTaken.get 0 q.bucket) ∧
    (∃ (s : State) (fid op : Nat) (r : FrameRec) (i : Instr) (q : MemReq) (h : XHeader) (rn off len : Nat)
      (payload : List Byte) (b goal : Nat),
      (op, i) ∈ [(65, Instr.write fid), (72, Instr.add fid), (73, Instr.fetchAdd fid), (74, Instr.swap fid), (75, Instr.cas fid), (76, Instr.fetchOr fid), (77, Instr.fetchAnd fid)] ∧
      s.blk.frame? fid = some r ∧ fid < s.blk.nextFrame ∧ r.dest = Dest.gneiss ∧ r.whole = true ∧ r.chkFail = false ∧
      h = xHeader r.frame.data ∧ h.opcode = op ∧ s.blk.heldBack fid r = false ∧ q = s.blk.memReqOf r ∧
      (s.blk.reqDies q h.dst).all (s.blk.crossed fid r) = true ∧ s.blk.memStatus q h.dst h.len = 0 ∧
      (rn, off, len) = Blk.reqRange q ∧ payload = List.take h.len (List.drop 32 r.frame.data) ∧
      s.blk.ordWait.find fid = some (b, goal) ∧ s.blk.ordApplied.get 0 b < goal) ∧
    (∃ (s : State) (fid op : Nat) (r : FrameRec) (i : Instr) (q : MemReq) (h : XHeader) (rn off len : Nat)
      (payload : List Byte),
      (op, i) ∈ [(65, Instr.write fid), (72, Instr.add fid), (73, Instr.fetchAdd fid), (74, Instr.swap fid), (75, Instr.cas fid), (76, Instr.fetchOr fid), (77, Instr.fetchAnd fid)] ∧
      s.blk.frame? fid = some r ∧ fid < s.blk.nextFrame ∧ r.dest = Dest.gneiss ∧ r.whole = true ∧ r.chkFail = false ∧
      h = xHeader r.frame.data ∧ h.opcode = op ∧ s.blk.heldBack fid r = false ∧ q = s.blk.memReqOf r ∧
      (s.blk.reqDies q h.dst).all (s.blk.crossed fid r) = true ∧ s.blk.memStatus q h.dst h.len = 0 ∧
      (rn, off, len) = Blk.reqRange q ∧ payload = List.take h.len (List.drop 32 r.frame.data) ∧
      s.blk.mustWait fid = true) ∧
    (∃ (s : State) (fid op : Nat) (r : FrameRec) (i : Instr) (q : MemReq) (h : XHeader) (rn off len : Nat)
      (payload : List Byte),
      (op, i) ∈ [(65, Instr.write fid), (72, Instr.add fid), (73, Instr.fetchAdd fid), (74, Instr.swap fid), (75, Instr.cas fid), (76, Instr.fetchOr fid), (77, Instr.fetchAnd fid)] ∧
      s.blk.frame? fid = some r ∧ fid < s.blk.nextFrame ∧ r.dest = Dest.gneiss ∧ r.whole = true ∧ r.chkFail = false ∧
      h = xHeader r.frame.data ∧ h.opcode = op ∧ s.blk.heldBack fid r = false ∧ q = s.blk.memReqOf r ∧
      (s.blk.reqDies q h.dst).all (s.blk.crossed fid r) = true ∧ s.blk.memStatus q h.dst h.len = 0 ∧
      (rn, off, len) = Blk.reqRange q ∧ payload = List.take h.len (List.drop 32 r.frame.data) ∧
      (s.blk.region rn).mode = 3 ∧ (s.blk.noteOrder fid q).mustWait fid = false ∧
      s.blk.gwLive (s.blk.region rn).gw = true) ∧
    (∃ (s : State) (d : DieId) (pos : Nat) (e : UpdEntry) (bs : List Byte) (never c2 : Bool),
      (s.blk.updQueue ↑d)[pos]? = some e ∧ (∀ x ∈ List.take pos (s.blk.updQueue ↑d), ¬x.store = e.store) ∧
      (s.blk.region e.region).valid = true ∧ (s.blk.region e.region).gen = e.gen ∧ (s.blk.region e.region).mode ≠ 1 ∧
      s.blk.readStored e.region e.line = LineRead.ok bs never c2 ∧ (e.onto bs).length = 256 ∧
      (∃ x ∈ (s.blk.region e.region).copies e.line, s.blk.liveLine x = true ∧ (s.blk.meta_ x).retired = false) ∧
      e.store = s.blk.storeLine e.region e.line) ∧
    (∃ (s : State) (d : DieId) (pos : Nat) (e : UpdEntry) (bs : List Byte) (never c2 : Bool),
      (s.blk.updQueue ↑d)[pos]? = some e ∧ (∀ x ∈ List.take pos (s.blk.updQueue ↑d), ¬x.store = e.store) ∧
      (s.blk.region e.region).valid = true ∧ (s.blk.region e.region).gen = e.gen ∧ (s.blk.region e.region).mode ≠ 1 ∧
      s.blk.readStored e.region e.line = LineRead.ok bs never c2 ∧ (e.onto bs).length = 256 ∧
      (∃ x ∈ (s.blk.region e.region).copies e.line, s.blk.liveLine x = true ∧ (s.blk.meta_ x).retired = false) ∧
      e.store = s.blk.storeLine e.region e.line) ∧
    (∃ (s : State) (d : DieId) (pos : Nat) (e : UpdEntry), (s.blk.updQueue ↑d)[pos]? = some e ∧
      (∀ x ∈ List.take pos (s.blk.updQueue ↑d), ¬x.store = e.store) ∧
      ((s.blk.region e.region).valid = false ∨ (s.blk.region e.region).gen ≠ e.gen) ∧ s.blk.hot.find e.store = none) :=
  ⟨⟨sx gOn (mem (rg 0 0 1 false) (mf 0x41 4088 7 0 (List.replicate 8 1))), 5, 0x41,
      mf 0x41 4088 7 0 (List.replicate 8 1), .write 5,
      Blk.memReqOf (sx gOn (mem (rg 0 0 1 false) (mf 0x41 4088 7 0 (List.replicate 8 1)))).blk (mf 0x41 4088 7 0 (List.replicate 8 1)),
      xHeader (mf 0x41 4088 7 0 (List.replicate 8 1)).frame.data, 65535, 4088, 8, List.replicate 8 1, .write 5,
      by decide +kernel⟩,
   ⟨sx gOn (fun b => { mem (rg 0 0 1 false) (mf 0x4B 0 3 0 (List.replicate 8 1)) b with memWait := [5] }), 5, 0x4B,
      mf 0x4B 0 3 0 (List.replicate 8 1), .cas 5,
      Blk.memReqOf (sx gOn (mem (rg 0 0 1 false) (mf 0x4B 0 3 0 (List.replicate 8 1)))).blk (mf 0x4B 0 3 0 (List.replicate 8 1)),
      xHeader (mf 0x4B 0 3 0 (List.replicate 8 1)).frame.data, 65535, 0, 4, List.replicate 8 1, .updateQueueRetry 5,
      by decide +kernel⟩,
   ⟨sx gOn (fun b => { mem (rg 0 0 1 false) (mf 0x41 0 0 1 [1]) b with ordTaken := [((b.memReqOf (mf 0x41 0 0 1 [1])).bucket, 1)] }),
      5, 0x41, mf 0x41 0 0 1 [1], .write 5,
      Blk.memReqOf (sx gOn (mem (rg 0 0 1 false) (mf 0x41 0 0 1 [1]))).blk (mf 0x41 0 0 1 [1]),
      xHeader (mf 0x41 0 0 1 [1]).frame.data, 65535, 0, 1, [1], by decide +kernel⟩,
   ⟨sx gOn (fun b => { mem (rg 0 0 1 false) (mf 0x41 0 0 1 [1]) b with ordWait := [(5, (7, 1))] }), 5, 0x41,
      mf 0x41 0 0 1 [1], .write 5,
      Blk.memReqOf (sx gOn (mem (rg 0 0 1 false) (mf 0x41 0 0 1 [1]))).blk (mf 0x41 0 0 1 [1]),
      xHeader (mf 0x41 0 0 1 [1]).frame.data, 65535, 0, 1, [1], 7, 1, by decide +kernel⟩,
   ⟨sx gOn (fun b => { mem (rg 0 0 1 false) (mf 0x41 0 0 1 [1]) b with ordWait := [(5, (7, 1))] }), 5, 0x41,
      mf 0x41 0 0 1 [1], .write 5,
      Blk.memReqOf (sx gOn (mem (rg 0 0 1 false) (mf 0x41 0 0 1 [1]))).blk (mf 0x41 0 0 1 [1]),
      xHeader (mf 0x41 0 0 1 [1]).frame.data, 65535, 0, 1, [1], by decide +kernel⟩,
   ⟨sx gOn (fun b => { mem (rg 3 0 1 false) (mf 0x41 0 0 0 [1]) b with gateways := [(255, { gw with running := none, sent := [] })] }),
      5, 0x41, mf 0x41 0 0 0 [1], .write 5,
      Blk.memReqOf (sx gOn (mem (rg 0 0 1 false) (mf 0x41 0 0 0 [1]))).blk (mf 0x41 0 0 0 [1]),
      xHeader (mf 0x41 0 0 0 [1]).frame.data, 65535, 0, 1, [1], by decide +kernel⟩,
   ⟨sx [] fun b => { b with regions := [(65535, rg 0 0 12 true)], updates := [(0, [upd])], hbm := [(8, 7), (256, 1), (4096 * 6 + 8, 7)] },
      0, 0, upd, (Blk.lineBytes (sx [] fun b => { b with hbm := [(8, 7)] }).blk 0).map (fun _ => 0), true, false,
      by decide +kernel⟩,
   ⟨sx [] fun b => { b with regions := [(65535, rg 0 0 12 true)], updates := [(0, [upd, upd])] }, 0, 0, upd,
      (Blk.lineBytes (sx []).blk 0).map (fun _ => 0), true, false, by decide +kernel⟩,
   ⟨sx [] fun b => { b with regions := [(65535, { rg 0 0 12 true with gen := 0 })], updates := [(0, [upd])] }, 0, 0,
      upd, by decide +kernel⟩⟩

theorem wit_RegionsManaged :
    (∃ (s : State) (i : Nat), s.blk.gnsCmd = some (1, i) ∧ (s.blk.rgnSet i).1 = 0) ∧
    (∃ (s : State) (i : Nat), s.blk.gnsCmd = some (1, i) ∧ (s.blk.region i).valid = true) ∧
    (∃ (s : State) (i op : Nat) (c : Instr), (op, c) ∈ [(2, Instr.rgnClear), (3, Instr.rgnRetag)] ∧
      s.blk.gnsCmd = some (op, i) ∧ (s.blk.region i).valid = true) ∧
    (∃ (s : State) (i op : Nat) (c : Instr), (op, c) ∈ [(2, Instr.rgnClear), (3, Instr.rgnRetag)] ∧
      s.blk.gnsCmd = some (op, i) ∧ (s.blk.region i).valid = false) ∧
    (∃ (s : State) (i : BitVec 16) (w : Sweep) (x : Nat) (old : Bool), s.blk.sweeps.find i.toNat = some w ∧
      Tab.wf (fun _ => LineMeta.reset) s.blk.lineMeta = true ∧
      old = ((s.blk.meta_ x).written && decide ((s.blk.meta_ x).region = i.toNat) && decide ((s.blk.meta_ x).gen = w.gen) && decide (w.base ≤ x / 16) && decide (x / 16 < w.base + w.blocks) && s.blk.stackUp (lineStack x))) ∧
    (∃ (s : State) (i : BitVec 16) (w : Sweep) (x : Nat) (old : Bool), s.blk.sweeps.find i.toNat = some w ∧
      Tab.wf (fun _ => LineMeta.reset) s.blk.lineMeta = true ∧
      old = ((s.blk.meta_ x).written && decide ((s.blk.meta_ x).region = i.toNat) && decide ((s.blk.meta_ x).gen = w.gen) && decide (w.base ≤ x / 16) && decide (x / 16 < w.base + w.blocks) && s.blk.stackUp (lineStack x))) :=
  ⟨⟨sx (gData [(0, 0x870000FF), (1, 0x00001000), (2, 0), (3, 1048576)] ++ [(.GNS_PART_mem_gib, 0, 576)]) fun b => { b with gnsCmd := some (1, 65535) },
      65535, by decide +kernel⟩,
   ⟨sx [] fun b => { b with gnsCmd := some (1, 65535), regions := [(65535, rg 0 0 1 false)] }, 65535,
      by decide +kernel⟩,
   ⟨sx (gData [(0, 8)]) fun b => { b with gnsCmd := some (3, 65535), regions := [(65535, rg 0 0 1 false)] }, 65535, 3,
      .rgnRetag, by decide +kernel⟩,
   ⟨sx [] fun b => { b with gnsCmd := some (2, 0) }, 0, 2, .rgnClear, by decide +kernel⟩,
   ⟨sx [] fun b => { b with sweeps := [(65535, ⟨254, 0, 1⟩)], lineMeta := [(15, ⟨true, 65535, 254, 0, true, false⟩)], hbm := [(4095, 7), (4096, 8)] },
      65535, ⟨254, 0, 1⟩, 15, true, by decide +kernel⟩,
   ⟨sx [] fun b => { b with sweeps := [(65535, ⟨254, 0, 1⟩)], lineMeta := [(15, ⟨true, 65535, 255, 0, false, false⟩)], hbm := [(4095, 7), (4096, 8)] },
      65535, ⟨254, 0, 1⟩, 15, false, by decide +kernel⟩⟩

theorem wit_Gateways :
    (∃ (s : State) (g : Nat), s.blk.gnsCmd = some (4, g) ∧ (s.blk.gwSet g).1 = 0) ∧
    (∃ (s : State) (g : Nat), s.blk.gnsCmd = some (4, g) ∧ 255 < g) ∧
    (∃ (s : State) (g : Nat), s.blk.gnsCmd = some (5, g) ∧ g ≤ 255 ∧ s.blk.gwWorks g = false ∧
      (∀ kv ∈ s.blk.regions, ¬(kv.2.valid = true ∧ kv.2.mode = 3 ∧ kv.2.gw = g))) ∧
    (∃ (s : State) (g : Nat), s.blk.gnsCmd = some (5, g) ∧ g ≤ 255 ∧ s.blk.gwWorks g = true) ∧
    (∃ (s : State) (v : BitVec 32) (m a : Nat), m = v.toNat % 1024 ∧ a = v.toNat / 1024 % 1024 ∧ m + a ≤ 576 ∧
      (∀ kv ∈ s.blk.regions, kv.2.valid = false)) ∧
    (∃ (v : BitVec 32) (m a : Nat), m = v.toNat % 1024 ∧ a = v.toNat / 1024 % 1024 ∧ 576 < m + a) ∧
    (∃ (s : State) (ring : RingId) (w : Bytes32) (j g : Nat), j = BitVec.toNat w ∧ g = bits j 255 248 ∧
      s.blk.jobRing = some ↑ring ∧ (s.blk.gateway g).valid = true ∧ (s.blk.gateway g).running.isSome = true ∧
      (s.blk.gateway g).jobs.length + s.blk.jobsHeld g < 15 ∧ (s.blk.gateway g).state ≠ 2) ∧
    (∃ (s : State) (ring : RingId) (w : Bytes32) (j g : Nat), j = BitVec.toNat w ∧ g = bits j 255 248 ∧
      s.blk.jobRing = some ↑ring ∧ (s.blk.gateway g).valid = false ∧ s.blk.cplFull = false) ∧
    (∃ (s : State) (ring : RingId), s.blk.jobRing ≠ some ↑ring) ∧
    (∃ (s : State) (g : GatewayId) (psn : BitVec 24) (k : Nat) (x : GwRun), s.blk.gwLive ↑g = true ∧
      covered (s.blk.gateway ↑g).sent psn.toNat = some k ∧ (s.blk.gateway ↑g).running = some x ∧
      (s.blk.gateway ↑g).jobs = [] ∧ (s.blk.gateway ↑g).stores = [] ∧
      (∃ p ∈ List.drop k (s.blk.gateway ↑g).sent, p.psn = x.last)) ∧
    (∃ (s : State) (g : GatewayId) (psn : BitVec 24) (k : Nat) (x : GwRun) (cring tag : Nat), s.blk.gwLive ↑g = true ∧
      covered (s.blk.gateway ↑g).sent psn.toNat = some k ∧ (s.blk.gateway ↑g).running = some x ∧
      (s.blk.gateway ↑g).jobs = [] ∧ (s.blk.gateway ↑g).stores = [] ∧
      (∀ p ∈ List.drop k (s.blk.gateway ↑g).sent, p.psn ≠ x.last) ∧ x.job.owner = JobOwner.ring cring tag ∧
      s.blk.cplFull = false) ∧
    (∃ (s : State) (g : GatewayId) (psn : BitVec 24) (p : GwPacket) (ps : List GwPacket), s.blk.gwLive ↑g = true ∧
      (s.blk.gateway ↑g).sent = p :: ps ∧ p.psn = psn.toNat ∧
      covered (s.blk.gateway ↑g).sent (psnAdd psn.toNat (2 ^ 24 - 1)) = none ∧
      (s.blk.gateway ↑g).tries < (s.blk.gateway ↑g).retryCnt) ∧
    (∃ (s : State) (g : GatewayId) (psn : BitVec 24) (p : GwPacket) (ps : List GwPacket), s.blk.gwLive ↑g = true ∧
      (s.blk.gateway ↑g).sent = p :: ps ∧ p.psn = psn.toNat ∧
      covered (s.blk.gateway ↑g).sent (psnAdd psn.toNat (2 ^ 24 - 1)) = none ∧
      (s.blk.gateway ↑g).tries < (s.blk.gateway ↑g).retryCnt) ∧
    (∃ (s : State) (g : GatewayId) (psn : BitVec 24) (p : GwPacket) (ps : List GwPacket), s.blk.gwLive ↑g = true ∧
      (s.blk.gateway ↑g).sent = p :: ps ∧ p.psn = psn.toNat ∧
      covered (s.blk.gateway ↑g).sent (psnAdd psn.toNat (2 ^ 24 - 1)) = none ∧
      (s.blk.gateway ↑g).retryCnt ≤ (s.blk.gateway ↑g).tries) ∧
    (∃ (s : State) (g : GatewayId) (psn : BitVec 24) (p : GwPacket) (ps : List GwPacket), s.blk.gwLive ↑g = true ∧
      (s.blk.gateway ↑g).sent = p :: ps ∧ p.psn = psn.toNat ∧
      covered (s.blk.gateway ↑g).sent (psnAdd psn.toNat (2 ^ 24 - 1)) = none) ∧
    (∃ (s : State) (g : GatewayId) (psn : BitVec 24) (p : GwPacket) (ps : List GwPacket), s.blk.gwLive ↑g = true ∧
      (s.blk.gateway ↑g).sent = p :: ps ∧ p.psn = psn.toNat ∧
      covered (s.blk.gateway ↑g).sent (psnAdd psn.toNat (2 ^ 24 - 1)) = none) ∧
    (∃ (s : State) (g : GatewayId) (psn : Nat), (s.blk.gateway ↑g).rnrFrom = some psn ∧
      ((s.blk.gateway ↑g).rnrRetry = 7 ∨ (s.blk.gateway ↑g).rnrTries < (s.blk.gateway ↑g).rnrRetry)) ∧
    (∃ (s : State) (g : GatewayId) (psn : Nat), (s.blk.gateway ↑g).rnrFrom = some psn ∧
      (s.blk.gateway ↑g).rnrRetry ≠ 7 ∧ (s.blk.gateway ↑g).rnrRetry ≤ (s.blk.gateway ↑g).rnrTries) ∧
    (∃ (s : State) (g : GatewayId), s.blk.gwLive ↑g = true) ∧
    (∃ (s : State) (g : GatewayId), s.blk.gwLive ↑g = true) :=
  ⟨⟨sx (gData [(0, 0x80000000), (1, 0x00FFFFFF), (14, 0x05011F00), (15, 0x06400000)]) fun b => { b with gnsCmd := some (4, 255) },
      255, by decide +kernel⟩,
   ⟨sx [] fun b => { b with gnsCmd := some (4, 256) }, 256, by decide +kernel⟩,
   ⟨sx [] fun b => { b with gnsCmd := some (5, 255), gateways := [(255, { gw with running := none })] }, 255,
      by decide +kernel⟩,
   ⟨sx [] fun b => { b with gnsCmd := some (5, 0), gateways := [(0, gw)] }, 0, by decide +kernel⟩,
   ⟨sx [], 575 + 1024, 575, 1, by decide +kernel⟩,
   ⟨576 + 1024, 576, 1, by decide +kernel⟩,
   ⟨sx ring7 fun b => { b with gateways := [(255, gw)] }, 0, job, job.toNat, 255, by decide +kernel⟩,
   ⟨sx ring7, 0, job, job.toNat, 255, by decide +kernel⟩,
   ⟨sx [], 7, by decide +kernel⟩,
   ⟨sx [] fun b => { b with gateways := [(255, { gw with sent := [⟨2 ^ 24 - 2, fr, 256, true, 31⟩, ⟨2 ^ 24 - 1, fr, 256, true, 31⟩] })] },
      255, 2 ^ 24 - 2, 1, ⟨⟨1, 0, 256, 0, .ring 1023 5⟩, 0, 2 ^ 24 - 1, 0⟩, by decide +kernel⟩,
   ⟨sx [] fun b => { b with gateways := [(255, gw)] }, 255, 2 ^ 24 - 1, 1,
      ⟨⟨1, 0, 256, 0, .ring 1023 5⟩, 0, 2 ^ 24 - 1, 0⟩, 1023, 5, by decide +kernel⟩,
   ⟨sx [] fun b => { b with gateways := [(255, gw)] }, 255, 2 ^ 24 - 1, ⟨2 ^ 24 - 1, fr, 256, true, 31⟩, [],
      by decide +kernel⟩,
   ⟨sx [] fun b => { b with gateways := [(255, gw)] }, 255, 2 ^ 24 - 1, ⟨2 ^ 24 - 1, fr, 256, true, 31⟩, [],
      by decide +kernel⟩,
   ⟨sx [] fun b => { b with gateways := [(255, { gw with tries := 1 })] }, 255, 2 ^ 24 - 1,
      ⟨2 ^ 24 - 1, fr, 256, true, 31⟩, [], by decide +kernel⟩,
   ⟨sx [] fun b => { b with gateways := [(255, gw)] }, 255, 2 ^ 24 - 1, ⟨2 ^ 24 - 1, fr, 256, true, 31⟩, [],
      by decide +kernel⟩,
   ⟨sx [] fun b => { b with gateways := [(255, gw)] }, 255, 2 ^ 24 - 1, ⟨2 ^ 24 - 1, fr, 256, true, 31⟩, [],
      by decide +kernel⟩,
   ⟨sx [] fun b => { b with gateways := [(255, { gw with rnrFrom := some 0 })] }, 255, 0, by decide +kernel⟩,
   ⟨sx [] fun b => { b with gateways := [(255, { gw with rnrFrom := some 0, rnrTries := 1 })] }, 255, 0,
      by decide +kernel⟩,
   ⟨sx [] fun b => { b with gateways := [(255, gw)] }, 255, by decide +kernel⟩,
   ⟨sx [] fun b => { b with gateways := [(255, gw)] }, 255, by decide +kernel⟩⟩


end P07

namespace P08

/-- A region of a mode: 64 KiB on stacks 0 and up, its endpoint 77. -/
def rg (mode : Nat) : RegionRec :=
  { RegionRec.reset with valid := true, mode := mode, rd := true, wr := true, at_ := true, gen := 255, owner := 9, eid := 77, base := 0,
                         blocks := 16, gw := 255 }

/-- A CKP ring enabled on the management side, one command in it. -/
def ring6 : List (Fld × Nat × Nat) :=
  [(.DMA_RING_CFG_en, 1023, 1), (.DMA_RING_CFG_func, 1023, 6), (.DMA_RING_CFG_side, 1023, 1), (.DMA_RING_TAIL_tail, 1023, 1)]

/-- The 64 bytes of a command for an index with arguments, laid out by R298: its ring 1,023, its tag 7. -/
def ckw (op index : Nat) (args : List Byte) : Bytes64 :=
  BitVec.ofNat 512 (beAt (beBytes 1 op ++ [0] ++ beBytes 2 index ++ beBytes 2 1023 ++ beBytes 2 7 ++ (args ++ List.replicate 56 0).take 56) 0 64)

/-- A shard of 256 bytes of region 65,535 in a state. -/
def sh (state : Nat) : ShardRec := { ShardRec.reset with state := state, region := 65535, length := 256, gw := 255, sepoch := 1 }

/-- OPEN arguments for that shard. -/
def openArgs : List Byte := [0, 0, 0xFF, 0xFF, 0, 0, 0, 0] ++ beBytes 8 256

/-- A gateway that runs a job. -/
def gwr : GwRec := { GwRec.reset with valid := true, running := some ⟨⟨1, 0, 256, 0, .ring 1023 5⟩, 0, 9, 0⟩ }

/-- Shard 16,383 and region 65,535, in an absorb region. -/
def shb (r : ShardRec) (b : Blk) : Blk := { b with shards := [(16383, r)], regions := [(65535, rg 1)], gateways := [(255, gwr)] }

/-- A journal stream 255 enabled over region 65,535. -/
def str255 : List (Fld × Nat × Nat) := ring6 ++ [(.SHL_CTL_en, 0, 1), (.SHL_STR_CTL_en, 255, 1), (.SHL_STR_CTL_region, 255, 65535)]

/-- The stream's own state, and its region. -/
def strm (r : StreamRec) (b : Blk) : Blk := { b with streams := [(255, r)], regions := [(65535, rg 2)] }

/-- A result for a stream. -/
def ji (stream : Option Nat) : JournalItem := ⟨0, 4, stream, 1, 0, 1, 4095, 1, 3, 0, 0, 2, 1, 2, [1, 2, 3, 4]⟩

/-- A restore and a replay that run. -/
def rst (pos : Nat) : RestoreRec := ⟨1023, 7, 65535, 255, false, 4096, 0, 256, 77, 0, 0, pos, 0, 0, false⟩
def rpl (buf : List Byte) (ended : Option Nat) : ReplayRec := ⟨1023, 7, 255, 65535, 255, 0, 32, 0, 0, 77, 0, 0, 65536, buf, 0, ended⟩

theorem wit_Shards :
    (∃ (s : State) (ring : RingId) (w : Bytes64) (c : CkpCmd) (op i : Nat) (x : Instr),
      s.blk.ringHas (↑ring) 6 = true ∧ s.blk.cplFull = false ∧ c = ckpCmd w ∧ op = (BitVec.extractLsb' 504 8 w).toNat ∧
      i = c.index.toNat ∧
      (op, x) ∈ [(1, Instr.openShard ring w), (2, Instr.release ring w), (3, Instr.mirror ring w), (4, Instr.drain ring w)] ∧
      16383 < i) ∧
    (∃ (s : State) (ring : RingId) (w : Bytes64) (c : CkpCmd) (op i : Nat) (x : Instr),
      s.blk.ringHas (↑ring) 6 = true ∧ s.blk.cplFull = false ∧ c = ckpCmd w ∧ op = (BitVec.extractLsb' 504 8 w).toNat ∧
      i = c.index.toNat ∧
      (op, x) ∈ [(1, Instr.openShard ring w), (2, Instr.release ring w), (3, Instr.mirror ring w), (4, Instr.drain ring w)] ∧
      16383 < i) ∧
    (∃ (s : State) (ring : RingId) (w : Bytes64) (c : CkpCmd) (op i : Nat) (x : Instr),
      s.blk.ringHas (↑ring) 6 = true ∧ s.blk.cplFull = false ∧ c = ckpCmd w ∧ op = (BitVec.extractLsb' 504 8 w).toNat ∧
      i = c.index.toNat ∧
      (op, x) ∈ [(1, Instr.openShard ring w), (2, Instr.release ring w), (3, Instr.mirror ring w), (4, Instr.drain ring w)] ∧
      16383 < i) ∧
    (∃ (s : State) (ring : RingId) (w : Bytes64) (c : CkpCmd) (op i : Nat) (x : Instr),
      s.blk.ringHas (↑ring) 6 = true ∧ s.blk.cplFull = false ∧ c = ckpCmd w ∧ op = (BitVec.extractLsb' 504 8 w).toNat ∧
      i = c.index.toNat ∧
      (op, x) ∈ [(1, Instr.openShard ring w), (2, Instr.release ring w), (3, Instr.mirror ring w), (4, Instr.drain ring w)] ∧
      16383 < i) ∧
    (∃ (s : State) (ring : RingId) (w : Bytes64) (c : CkpCmd) (op i : Nat), s.blk.ringHas (↑ring) 6 = true ∧
      s.blk.cplFull = false ∧ c = ckpCmd w ∧ op = (BitVec.extractLsb' 504 8 w).toNat ∧ i = c.index.toNat ∧ op = 1 ∧
      i ≤ 16383 ∧ (s.blk.openCmd c i).1 = 0) ∧
    (∃ (s : State) (ring : RingId) (w : Bytes64) (c : CkpCmd) (op i : Nat), s.blk.ringHas (↑ring) 6 = true ∧
      s.blk.cplFull = false ∧ c = ckpCmd w ∧ op = (BitVec.extractLsb' 504 8 w).toNat ∧ i = c.index.toNat ∧ i ≤ 16383 ∧
      (s.blk.shard i).state ≠ 0 ∧ op = 1) ∧
    (∃ (s : State) (ring : RingId) (w : Bytes64) (c : CkpCmd) (op i : Nat), s.blk.ringHas (↑ring) 6 = true ∧
      s.blk.cplFull = false ∧ c = ckpCmd w ∧ op = (BitVec.extractLsb' 504 8 w).toNat ∧ i = c.index.toNat ∧ i ≤ 16383 ∧
      (s.blk.shard i).state ≠ 0 ∧ op = 2 ∧ (s.blk.shard i).mpos = none ∧ (s.blk.shard i).drainRuns = false) ∧
    (∃ (s : State) (ring : RingId) (w : Bytes64) (c : CkpCmd) (op i : Nat), s.blk.ringHas (↑ring) 6 = true ∧
      s.blk.cplFull = false ∧ c = ckpCmd w ∧ op = (BitVec.extractLsb' 504 8 w).toNat ∧ i = c.index.toNat ∧ op = 3 ∧
      i ≤ 16383 ∧ ((s.blk.shard i).state = 2 ∨ (s.blk.shard i).state = 3) ∧ (s.blk.shard i).mpos = none) ∧
    (∃ (s : State) (ring : RingId) (w : Bytes64) (c : CkpCmd) (op i : Nat) (r : ShardRec) (g : GwRec),
      s.blk.ringHas (↑ring) 6 = true ∧ s.blk.cplFull = false ∧ c = ckpCmd w ∧ op = (BitVec.extractLsb' 504 8 w).toNat ∧
      i = c.index.toNat ∧ op = 4 ∧ i ≤ 16383 ∧ r = s.blk.shard i ∧ g = s.blk.gateway r.gw ∧
      (r.state = 2 ∨ r.state = 3 ∨ r.state = 4) ∧ r.drainRuns = false ∧ g.valid = true ∧ g.running.isSome = true ∧
      g.state ≠ 2) ∧
    (∃ (s : State) (ring : RingId) (w : Bytes64) (c : CkpCmd) (op i : Nat), s.blk.ringHas (↑ring) 6 = true ∧
      s.blk.cplFull = false ∧ c = ckpCmd w ∧ op = (BitVec.extractLsb' 504 8 w).toNat ∧ i = c.index.toNat ∧
      op ∉ [1, 2, 3, 4, 8, 16, 17, 18]) ∧
    (∃ (s : State) (ring : RingId) (w : Bytes64) (c : CkpCmd) (op i : Nat), s.blk.ringHas (↑ring) 6 = true ∧
      s.blk.cplFull = false ∧ c = ckpCmd w ∧ op = (BitVec.extractLsb' 504 8 w).toNat ∧ i = c.index.toNat ∧
      op ∉ [1, 2, 3, 4, 8, 16, 17, 18]) ∧
    (∃ (s : State) (ring : RingId) (w : Bytes64) (c : CkpCmd) (op i n off len : Nat), s.blk.ringHas (↑ring) 6 = true ∧
      s.blk.cplFull = false ∧ c = ckpCmd w ∧ op = (BitVec.extractLsb' 504 8 w).toNat ∧ i = c.index.toNat ∧ op = 8 ∧
      n = beAt c.args 0 2 ∧ off = beAt c.args 4 4 ∧ len = beAt c.args 8 8 ∧ (beAt c.args 2 1).testBit 7 = false ∧
      (s.blk.region n).valid = true ∧ (s.blk.region n).mode < 2 ∧ off + len ≤ (s.blk.region n).size ∧ off % 256 = 0 ∧
      len % 256 = 0 ∧ len ≠ 0 ∧ len ≤ 2 ^ 32) ∧
    (∃ (s : State) (d : DieId) (pos k : Nat) (e : UpdEntry) (bs : List Byte) (never c2 : Bool),
      (s.blk.updQueue ↑d)[pos]? = some e ∧ (∀ x ∈ List.take pos (s.blk.updQueue ↑d), x.store ≠ e.store) ∧
      (s.blk.region e.region).valid = true ∧ (s.blk.region e.region).gen = e.gen ∧
      s.blk.readStored e.region e.line = LineRead.ok bs never c2 ∧ (s.blk.absorbEpoch e.region e.line).2 = some k ∧
      (∀ x ∈ (s.blk.region e.region).copies e.line, (s.blk.meta_ x).retired = false) ∧ (s.blk.shard k).mirror = false ∧
      (s.blk.shard k).drain = false) ∧
    (∃ (s : State) (i : ShardId), (s.blk.shard ↑i).state = 1 ∧ s.blk.fld Fld.GNS_CKP_FILL_fill_ms 0 ≠ 0) ∧
    (∃ (s : State) (i : ShardId) (r : ShardRec) (p n : Nat) (bs : List Byte) (a b c : Bool) (k : Nat),
      r = s.blk.shard ↑i ∧ r.mpos = some p ∧ p < r.length ∧ n = min 8192 (r.length - p) ∧ s.blk.ownWrites = [] ∧
      s.blk.mirrorTurn ↑i = true ∧ s.blk.readRange r.region (r.offset + p) n = Blk.RangeRead.ok bs a b c k) ∧
    (∃ (s : State) (i : ShardId) (r : ShardRec) (p n : Nat), r = s.blk.shard ↑i ∧ r.mpos = some p ∧ p < r.length ∧
      n = min 8192 (r.length - p) ∧ s.blk.ownWrites = [] ∧ s.blk.mirrorTurn ↑i = true ∧
      s.blk.readRange r.region (r.offset + p) n = Blk.RangeRead.memErr ∧ r.drain = false) ∧
    (∃ (s : State) (i : ShardId), s.blk.mirrorTurn ↑i = false) ∧
    (∃ (s : State) (id : Nat) (r : RestoreRec) (n : Nat) (bs : List Byte) (a b c : Bool) (k : Nat),
      s.blk.restores.find id = some r ∧ r.pos < r.length ∧ r.changed = false ∧ n = min r.piece (r.length - r.pos) ∧
      s.blk.readRange r.region (r.offset + r.pos) n = Blk.RangeRead.ok bs a b c k) ∧
    (∃ (s : State) (id : Nat) (r : RestoreRec), s.blk.restores.find id = some r ∧ r.changed = false ∧
      r.length ≤ r.pos ∧ s.blk.restorePending id = false ∧ s.blk.cplFull = false) ∧
    (∃ (s : State) (id : Nat) (r : RestoreRec), s.blk.restores.find id = some r ∧ r.changed = true ∧
      s.blk.cplFull = false) :=
  ⟨⟨sx ring6, 1023, ckw 1 16384 openArgs, ckpCmd (ckw 1 16384 openArgs), 1, 16384,
      .openShard 1023 (ckw 1 16384 openArgs), by decide +kernel⟩,
   ⟨sx ring6, 1023, ckw 4 65535 [], ckpCmd (ckw 4 65535 []), 4, 65535, .drain 1023 (ckw 4 65535 []), by decide +kernel⟩,
   ⟨sx ring6, 1023, ckw 2 16384 [], ckpCmd (ckw 2 16384 []), 2, 16384, .release 1023 (ckw 2 16384 []),
      by decide +kernel⟩,
   ⟨sx ring6, 1023, ckw 3 16384 [], ckpCmd (ckw 3 16384 []), 3, 16384, .mirror 1023 (ckw 3 16384 []),
      by decide +kernel⟩,
   ⟨sx ring6 fun b => { b with regions := [(65535, rg 1)] }, 1023, ckw 1 16383 openArgs,
      ckpCmd (ckw 1 16383 openArgs), 1, 16383, by decide +kernel⟩,
   ⟨sx ring6 (shb (sh 5)), 1023, ckw 1 16383 openArgs, ckpCmd (ckw 1 16383 openArgs), 1, 16383, by decide +kernel⟩,
   ⟨sx ring6 (shb (sh 1)), 1023, ckw 2 16383 [], ckpCmd (ckw 2 16383 []), 2, 16383, by decide +kernel⟩,
   ⟨sx ring6 (shb (sh 3)), 1023, ckw 3 16383 [], ckpCmd (ckw 3 16383 []), 3, 16383, by decide +kernel⟩,
   ⟨sx ring6 (shb (sh 4)), 1023, ckw 4 16383 [], ckpCmd (ckw 4 16383 []), 4, 16383, sh 4, gwr, by decide +kernel⟩,
   ⟨sx ring6 (shb (sh 4)), 1023, ckw 0 16383 [], ckpCmd (ckw 0 16383 []), 0, 16383, by decide +kernel⟩,
   ⟨sx ring6 (shb (sh 4)), 1023, ckw 255 65535 [], ckpCmd (ckw 255 65535 []), 255, 65535, by decide +kernel⟩,
   ⟨sx ring6 (shb (sh 4)), 1023, ckw 8 0 ([0xFF, 0xFF, 0, 0, 0, 0, 0xFF, 0] ++ beBytes 8 256),
      ckpCmd (ckw 8 0 ([0xFF, 0xFF, 0, 0, 0, 0, 0xFF, 0] ++ beBytes 8 256)), 8, 0, 65535, 65280, 256, by decide +kernel⟩,
   ⟨sx [] fun b => { shb (sh 1) b with updates := [(0, [⟨1, 31, 65535, 255, 0, 0x41, 0, List.replicate 8 1, 0⟩])] },
      0, 0, 16383, ⟨1, 31, 65535, 255, 0, 0x41, 0, List.replicate 8 1, 0⟩, List.replicate 256 0, true, false,
      by decide +kernel⟩,
   ⟨sx [(.GNS_CKP_FILL_fill_ms, 0, 1)] (shb (sh 1)), 16383, by decide +kernel⟩,
   ⟨sx [] (shb { sh 2 with mpos := some 0 }), 16383, { sh 2 with mpos := some 0 }, 0, 256, List.replicate 256 0, true,
      true, false, 1, by decide +kernel⟩,
   ⟨sx [] fun b => { shb { sh 2 with mpos := some 0 } b with lineMeta := [(0, ⟨true, 65535, 255, 0, true, false⟩)] },
      16383, { sh 2 with mpos := some 0 }, 0, 256, by decide +kernel⟩,
   ⟨sx [] fun b => { shb (sh 2) b with shards := [(0, { sh 2 with mpos := some 0 }), (16383, { sh 2 with mpos := some 0 })], mirrorSent := [16383] },
      16383, by decide +kernel⟩,
   ⟨sx [] fun b => { shb (sh 2) b with restores := [(5, rst 0)] }, 5, rst 0, 256, List.replicate 256 0, true, true,
      false, 1, by decide +kernel⟩,
   ⟨sx [] fun b => { shb (sh 2) b with restores := [(5, rst 256)] }, 5, rst 256, by decide +kernel⟩,
   ⟨sx [] fun b => { shb (sh 2) b with restores := [(5, { rst 256 with changed := true })] }, 5,
      { rst 256 with changed := true }, by decide +kernel⟩⟩

theorem wit_JournalRecords :
    (∃ (s : State) (j : JournalItem) (js : List JournalItem) (k : Nat), s.blk.journal = j :: js ∧
      s.blk.flag Fld.SHL_CTL_en 0 = true ∧ j.stream = some k ∧ s.blk.flag Fld.SHL_STR_CTL_en k = true ∧
      s.blk.streamRoom k (resultRecord j 0).length = true ∧ (s.blk.stream k).lost = none) ∧
    (∃ (s : State) (j : JournalItem) (js : List JournalItem) (k : Nat), s.blk.journal = j :: js ∧
      s.blk.flag Fld.SHL_CTL_en 0 = true ∧ j.stream = some k ∧ s.blk.flag Fld.SHL_STR_CTL_en k = true ∧
      s.blk.streamRoom k (resultRecord j 0).length = false) ∧
    (∃ (s : State) (j : JournalItem) (js : List JournalItem), s.blk.journal = j :: js ∧ j.stream = none) ∧
    (∃ (s : State) (k : StreamId) (bs : List Byte) (more : List (List Byte)) (i p : Nat) (line : List Byte)
      (a b : Bool), (s.blk.stream ↑k).waiting = bs :: more ∧ bs.length = 32 ∧ i = s.blk.fld Fld.SHL_STR_CTL_region ↑k ∧
      p = s.blk.fld Fld.SHL_STR_WPOS_pos ↑k % s.blk.streamSize ↑k ∧ p % 256 + 32 ≤ 256 ∧
      s.blk.readStored i (p / 256) = LineRead.ok line a b ∧
      (∀ x ∈ (s.blk.region i).copies (p / 256), (s.blk.meta_ x).retired = true → (s.blk.meta_ x).poison = true)) :=
  ⟨⟨sx str255 fun b => { strm ⟨[], [], none⟩ b with journal := [ji (some 255)] }, ji (some 255), [], 255,
      by decide +kernel⟩,
   ⟨sx (str255 ++ [(.SHL_STR_WPOS_pos, 255, 65472)]) fun b => { strm ⟨[], [], some (1, 2, 3)⟩ b with journal := [ji (some 255)] },
      ji (some 255), [], 255, by decide +kernel⟩,
   ⟨sx str255 fun b => { strm ⟨[], [], none⟩ b with journal := [ji none] }, ji none, [], by decide +kernel⟩,
   ⟨sx (str255 ++ [(.SHL_STR_WPOS_pos, 255, 65536 + 224)]) (strm ⟨[List.replicate 32 1], [], none⟩), 255,
      List.replicate 32 1, [], 65535, 224, List.replicate 256 0, true, false, by decide +kernel⟩⟩

theorem wit_Streams :
    (∃ (s : State) (ring : RingId) (w : Bytes64) (c : CkpCmd) (op k : Nat), s.blk.ringHas (↑ring) 6 = true ∧
      s.blk.cplFull = false ∧ c = ckpCmd w ∧ op = (BitVec.extractLsb' 504 8 w).toNat ∧ k = c.index.toNat ∧ k ≤ 255 ∧
      s.blk.flag Fld.SHL_STR_CTL_en k = true ∧ op = 16 ∧ s.blk.streamRoom k 32 = true ∧ (s.blk.stream k).lost = none) ∧
    (∃ (s : State) (ring : RingId) (w : Bytes64) (c : CkpCmd) (op k : Nat), s.blk.ringHas (↑ring) 6 = true ∧
      s.blk.cplFull = false ∧ c = ckpCmd w ∧ op = (BitVec.extractLsb' 504 8 w).toNat ∧ k = c.index.toNat ∧ k ≤ 255 ∧
      s.blk.flag Fld.SHL_STR_CTL_en k = true ∧ op = 16 ∧ s.blk.streamRoom k 32 = false) ∧
    (∃ (s : State) (ring : RingId) (w : Bytes64) (c : CkpCmd) (op k : Nat), s.blk.ringHas (↑ring) 6 = true ∧
      s.blk.cplFull = false ∧ c = ckpCmd w ∧ op = (BitVec.extractLsb' 504 8 w).toNat ∧ k = c.index.toNat ∧ k ≤ 255 ∧
      s.blk.flag Fld.SHL_STR_CTL_en k = true ∧ op = 17 ∧ beAt c.args 0 8 ∈ (s.blk.stream k).marks ∧
      s.blk.fld Fld.SHL_STR_TPOS_pos k ≤ beAt c.args 0 8 ∧ s.blk.replays = []) ∧
    (∃ (s : State) (ring : RingId) (w : Bytes64) (c : CkpCmd) (op k : Nat), s.blk.ringHas (↑ring) 6 = true ∧
      s.blk.cplFull = false ∧ c = ckpCmd w ∧ op = (BitVec.extractLsb' 504 8 w).toNat ∧ k = c.index.toNat ∧ k ≤ 255 ∧
      s.blk.flag Fld.SHL_STR_CTL_en k = true ∧ op = 17 ∧ beAt c.args 0 8 ∉ (s.blk.stream k).marks) ∧
    (∃ (s : State) (ring : RingId) (w : Bytes64) (c : CkpCmd) (op k : Nat), s.blk.ringHas (↑ring) 6 = true ∧
      s.blk.cplFull = false ∧ c = ckpCmd w ∧ op = (BitVec.extractLsb' 504 8 w).toNat ∧ k = c.index.toNat ∧ k ≤ 255 ∧
      s.blk.flag Fld.SHL_STR_CTL_en k = true ∧ op = 18 ∧ beAt c.args 8 8 = 0 ∧
      s.blk.fld Fld.SHL_STR_TPOS_pos k ≤ s.blk.fld Fld.SHL_STR_WPOS_pos k ∧
      (beAt c.args 0 8 = s.blk.fld Fld.SHL_STR_TPOS_pos k ∨ beAt c.args 0 8 ∈ (s.blk.stream k).marks)) ∧
    (∃ (s : State) (id : Nat) (r : ReplayRec), s.blk.replays.find id = some r ∧ r.ended = none ∧
      (s.blk.region r.region).valid = true ∧ (s.blk.region r.region).gen = r.gen ∧ 8192 ≤ r.buf.length ∧
      s.blk.ownWrites = []) ∧
    (∃ (s : State) (id : Nat) (r : ReplayRec) (st : Nat), s.blk.replays.find id = some r ∧ r.ended = some st ∧
      r.buf = [] ∧ s.blk.ownWrites = [] ∧ s.blk.cplFull = false) ∧
    (∃ (s : State) (k : StreamId) (n : BitVec 16) (r : RegionRec), r = s.blk.region n.toNat ∧
      s.blk.flag Fld.SHL_STR_CTL_en ↑k = false ∧ r.valid = true ∧ r.mode = 2 ∧ 65536 ≤ r.size) ∧
    (∃ (s : State) (k : StreamId) (n : BitVec 16) (r : RegionRec), r = s.blk.region n.toNat ∧
      s.blk.flag Fld.SHL_STR_CTL_en ↑k = false ∧ (r.valid = false ∨ r.mode ≠ 2 ∨ r.size < 65536)) ∧
    (∃ (s : State) (k : StreamId) (n : BitVec 16) (r : RegionRec), r = s.blk.region n.toNat ∧
      s.blk.flag Fld.SHL_STR_CTL_en ↑k = false) ∧
    (∃ (s : State) (k : StreamId) (n : BitVec 16), s.blk.flag Fld.SHL_STR_CTL_en ↑k = true ∧
      s.blk.fld Fld.SHL_STR_CTL_region ↑k = n.toNat) ∧
    (∃ (s : State) (k : StreamId) (n : BitVec 16), s.blk.flag Fld.SHL_STR_CTL_en ↑k = true ∧
      s.blk.fld Fld.SHL_STR_CTL_region ↑k = n.toNat) :=
  ⟨⟨sx (str255 ++ [(.SHL_STR_WPOS_pos, 255, 65472)]) (strm ⟨[], List.replicate 64 0, none⟩), 1023,
      ckw 16 255 [0, 0, 0, 9], ckpCmd (ckw 16 255 [0, 0, 0, 9]), 16, 255, by decide +kernel⟩,
   ⟨sx (str255 ++ [(.SHL_STR_WPOS_pos, 255, 65504)]) (strm ⟨[], [], none⟩), 1023, ckw 16 255 [0, 0, 0, 9],
      ckpCmd (ckw 16 255 [0, 0, 0, 9]), 16, 255, by decide +kernel⟩,
   ⟨sx (str255 ++ [(.SHL_STR_WPOS_pos, 255, 65504)]) (strm ⟨[], [0, 64], none⟩), 1023, ckw 17 255 (beBytes 8 64),
      ckpCmd (ckw 17 255 (beBytes 8 64)), 17, 255, by decide +kernel⟩,
   ⟨sx str255 (strm ⟨[], [0, 64], none⟩), 1023, ckw 17 255 (beBytes 8 32), ckpCmd (ckw 17 255 (beBytes 8 32)), 17,
      255, by decide +kernel⟩,
   ⟨sx str255 (strm ⟨[], [0, 64], none⟩), 1023, ckw 18 255 (beBytes 8 0), ckpCmd (ckw 18 255 (beBytes 8 0)), 18, 255,
      by decide +kernel⟩,
   ⟨sx str255 fun b => { strm ⟨[], [], none⟩ b with replays := [(5, rpl (List.replicate 8192 1) none)] }, 5,
      rpl (List.replicate 8192 1) none,
      rfl, rfl, by decide +kernel, by decide +kernel,
      (List.length_replicate (n := 8192) (a := (1 : Byte))).ge, rfl⟩,
   ⟨sx str255 fun b => { strm ⟨[], [], none⟩ b with replays := [(5, rpl [] (some 0x12))] }, 5, rpl [] (some 0x12),
      0x12, by decide +kernel⟩,
   ⟨sx [] (strm ⟨[[1]], [5], none⟩), 255, 65535, rg 2, by decide +kernel⟩,
   ⟨sx [(.SHL_INT_EN_bits, 0, 255)], 255, 65535, .reset, by decide +kernel⟩,
   ⟨sx [], 255, 65535, .reset, by decide +kernel⟩,
   ⟨sx str255, 255, 65535, by decide +kernel⟩,
   ⟨sx str255, 255, 65535, by decide +kernel⟩⟩


end P08

namespace P09

/-- A ring of the router: its loop, its reading, its entry. -/
def fr0 (rstate drop dstate : Nat) : FoiRing := ⟨0, 0, rstate, drop, dstate, 9, 65535⟩

/-- Ring 4,095 of the router, and the command running. -/
def foi1 (x : FoiRing) (cmd : Option (Nat × Nat)) (b : Blk) : Blk := { b with foi := [(4095, x)], foiCmd := cmd }

/-- The sixteen held entries of an input. -/
def held16 : Tab FoiRing := (List.range 16).map fun k => (4032 + k, fr0 1 0x8000 1)

theorem wit_LoopsAndLasers :
    (∃ (s : State) (t : TileId) (n : LaneNo) (k : Nat), k = laneKey t n ∧ k ∉ s.blk.sweepWait ∧
      s.blk.loopIn k LoopCode.sweep = true) ∧
    (∃ (s : State) (t : TileId) (n : LaneNo) (k : Nat), k = laneKey t n ∧ k ∉ s.blk.sweepWait ∧
      s.blk.loopIn k LoopCode.sweep = true) ∧
    (∃ (s : State) (t : TileId) (n : LaneNo) (k : Nat), k = laneKey t n ∧ k ∉ s.blk.sweepWait ∧
      (s.blk.loopIn k LoopCode.sweep = true ∨ s.blk.loopIn k LoopCode.live = true ∨ s.blk.loopIn k LoopCode.pilot = true)) ∧
    (∃ (s : State) (t : TileId) (n : LaneNo) (k : Nat), k = laneKey t n ∧ k ∉ s.blk.sweepWait ∧
      s.blk.domOn (32 + ↑t) = true ∧ (s.blk.loopIn k LoopCode.live = true ∨ s.blk.loopIn k LoopCode.pilot = true)) ∧
    (∃ (s : State) (t : TileId) (n : LaneNo) (k : Nat), k = laneKey t n ∧ k ∉ s.blk.sweepWait ∧
      s.blk.domOn (32 + ↑t) = true ∧ s.blk.loopIn k LoopCode.live = false ∧ s.blk.loopIn k LoopCode.pilot = false) ∧
    (∃ (s : State) (t : TileId) (n : LaneNo) (k : Nat), k = laneKey t n ∧ k ∉ s.blk.sweepWait ∧
      s.blk.loopIn k LoopCode.pilot = true) ∧
    (∃ (s : State) (t : TileId) (n : LaneNo) (k : Nat), k = laneKey t n ∧ k ∉ s.blk.sweepWait ∧
      s.blk.loopIn k LoopCode.live = true) ∧
    (∃ (s : State) (t : TileId) (n : LaneNo) (k : Nat), k = laneKey t n ∧ k ∉ s.blk.sweepWait ∧
      s.blk.loopIn k LoopCode.fault = true ∧ s.blk.isIn (s.blk.laneLink k) LinkCode.disabled = true ∧
      s.blk.micaRuns (micaOf ↑t) = true ∧ s.blk.sweepWait = [] ∧
      (∀ j ∈ micaLanes (micaOf ↑t), s.blk.loopIn j LoopCode.sweep = false) ∧
      (∀ (m : LaneNo), m ≠ n → s.blk.loopIn (laneKey t m) LoopCode.fault = false)) ∧
    (∃ (s : State) (m : ElsId) (x : Bool), s.blk.flag Fld.MICA_ELS_STATUS_present ↑m ≠ x) ∧
    (∃ (s : State) (m : ElsId) (x : Bool), s.blk.flag Fld.MICA_ELS_STATUS_fault ↑m ≠ x) ∧
    (∃ (s : State) (m : ElsId) (j : Fin 8) (p : BitVec 16), s.blk.bit Fld.MICA_ELS_STATUS_on ↑m ↑j = true ∧
      signed16 p.toNat < 1400) ∧
    (∃ (s : State) (m : ElsId) (j : Fin 8) (p : BitVec 16), s.blk.bit Fld.MICA_ELS_STATUS_on ↑m ↑j = false ∧
      1500 ≤ signed16 p.toNat) :=
  ⟨⟨sx [(.MICA_LANE_STATUS_state, 2047, 1)], 31, 63, 2047, by decide +kernel⟩,
   ⟨sx [(.MICA_LANE_STATUS_state, 0, 1)], 0, 0, 0, by decide +kernel⟩,
   ⟨sx [(.MICA_LANE_STATUS_state, 2047, 3)], 31, 63, 2047, by decide +kernel⟩,
   ⟨sx [(.MICA_LANE_STATUS_state, 2047, 2)], 31, 63, 2047, by decide +kernel⟩,
   ⟨sx [], 31, 63, 2047, by decide +kernel⟩,
   ⟨sx [(.MICA_LANE_STATUS_state, 2047, 3)], 31, 63, 2047, by decide +kernel⟩,
   ⟨sx [(.MICA_LANE_STATUS_state, 2047, 2)], 31, 63, 2047, by decide +kernel⟩,
   ⟨sx [(.MICA_LANE_STATUS_state, 2047, 5), (.MICA_CTRL_STATUS_run, 0, 128)], 31, 63, 2047, by decide +kernel⟩,
   ⟨sx [(.MICA_ELS_STATUS_present, 15, 1), (.MICA_ELS_CTL_en, 15, 1)], 15, false, by decide +kernel⟩,
   ⟨sx [], 15, true, by decide +kernel⟩,
   ⟨sx [(.MICA_ELS_STATUS_on, 15, 128), (.MICA_LANE_STATUS_state, 2047, 2), (.MICA_LANE_STATUS_state, 2032, 3)], 15,
      7, 1399, by decide +kernel⟩,
   ⟨sx [(.MICA_CTRL_STATUS_run, 0, 255), (.MICA_LANE_STATUS_state, 2047, 4), (.MICA_LANE_STATUS_state, 2032, 4)], 15,
      7, 1500, by decide +kernel⟩⟩

theorem wit_RouterRings :
    (∃ (s : State) (r : WaveId), s.blk.foiHalves = [0, 0] ∧ s.blk.micaRuns (↑r / 2048) = true ∧
      s.blk.ringIn (↑r) RingCode.off = true) ∧
    (∃ (s : State) (r : WaveId), s.blk.foiHalves = [1, 1] ∧
      (s.blk.ringIn (↑r) RingCode.track = true ∨ s.blk.ringIn (↑r) RingCode.lock = true)) ∧
    (∃ (s : State) (r : WaveId), s.blk.ringIn (↑r) RingCode.track = true ∧ -2000 ≤ s.blk.dropTap ↑r) ∧
    (∃ (s : State) (r : WaveId), s.blk.ringIn (↑r) RingCode.lock = true ∧ s.blk.dropTap ↑r < -2500) ∧
    (∃ (s : State) (r : WaveId), 1 ≤ (s.blk.foiRing ↑r).rstate ∧ (s.blk.foiRing ↑r).rstate ≤ 4) ∧
    (∃ (s : State) (r : WaveId), s.blk.ringIn (↑r) RingCode.lock = true) ∧
    (∃ (s : State) (r : WaveId), s.blk.ringIn (↑r) RingCode.track = true) ∧
    (∃ (p : BitVec 16) (v : Nat), v = (if signed16 p.toNat < -3000 then 32768 else p.toNat)) ∧
    (∃ (p : BitVec 16) (v : Nat), v = (if signed16 p.toNat < -3000 then 32768 else p.toNat)) ∧
    (∃ (p : BitVec 16) (v : Nat), v = (if signed16 p.toNat < -3000 then 32768 else p.toNat)) :=
  ⟨⟨sx [(.MICA_CTRL_STATUS_run, 0, 2)] (foi1 (fr0 0 0x8000 4) none), 4095, by decide +kernel⟩,
   ⟨sx [(.FOI_CTL_en, 0, 1)] fun b => { foi1 (fr0 2 0 4) none b with foiHalves := [1, 1] }, 4095, by decide +kernel⟩,
   ⟨sx [] (foi1 (fr0 1 (65536 - 2000) 0) none), 4095, by decide +kernel⟩,
   ⟨sx [] (foi1 (fr0 2 (65536 - 2501) 0) none), 4095, by decide +kernel⟩,
   ⟨sx [] (foi1 (fr0 4 0 4) none), 4095, by decide +kernel⟩,
   ⟨sx [] (foi1 (fr0 2 0 2) none), 4095, by decide +kernel⟩,
   ⟨sx [] (foi1 (fr0 1 0 0) none), 4095, by decide +kernel⟩,
   ⟨65536 - 3000, 65536 - 3000, by decide +kernel⟩,
   ⟨65536 - 3001, 0x8000, by decide +kernel⟩,
   ⟨5, 5, by decide +kernel⟩⟩

theorem wit_ColourDirectory :
    (∃ (s : State) (r : WaveId), s.blk.entryIn (↑r) DirCode.free = true ∧ s.blk.rogueDbm ≤ s.blk.dropTap ↑r) ∧
    (∃ (s : State) (r : WaveId), s.blk.entryIn (↑r) DirCode.granted = true ∧ s.blk.actDbm ≤ s.blk.dropTap ↑r) ∧
    (∃ (s : State) (r : WaveId), s.blk.entryIn (↑r) DirCode.active = true ∧ s.blk.dropTap ↑r < s.blk.actDbm) ∧
    (∃ (s : State) (r : WaveId), s.blk.entryIn (↑r) DirCode.revoking = true ∧ s.blk.dropTap ↑r < s.blk.rogueDbm) ∧
    (∃ (s : State) (r : WaveId), s.blk.entryIn (↑r) DirCode.revoking = true ∧ s.blk.rogueDbm ≤ s.blk.dropTap ↑r) ∧
    (∃ (s : State) (r : Nat), s.blk.foiCmd = some (1, r) ∧ s.blk.entryIn r DirCode.free = true ∧
      s.blk.fld Fld.FOI_CMD_DATA_eid 0 ≠ 0 ∧ s.blk.heldEntries (r / 64) < 16) ∧
    (∃ (s : State) (r : Nat), s.blk.foiCmd = some (1, r) ∧ s.blk.entryIn r DirCode.free = true ∧
      s.blk.fld Fld.FOI_CMD_DATA_eid 0 ≠ 0 ∧ 16 ≤ s.blk.heldEntries (r / 64)) ∧
    (∃ (s : State) (r : Nat), s.blk.foiCmd = some (2, r) ∧
      (s.blk.entryIn r DirCode.granted = true ∨ s.blk.entryIn r DirCode.active = true)) ∧
    (∃ (s : State) (r : Nat), s.blk.foiCmd = some (2, r) ∧ s.blk.entryIn r DirCode.free = true) ∧
    (∃ (s : State) (r : Nat), s.blk.foiCmd = some (3, r) ∧ s.blk.entryIn r DirCode.fault = false) ∧
    (∃ (s : State) (r : Nat), s.blk.foiCmd = some (4, r) ∧ s.blk.entryIn r DirCode.blocked = true) ∧
    (∃ (s : State) (r : Nat), s.blk.foiCmd = some (5, r) ∧ -2000 ≤ s.blk.dropTap r ∧
      s.blk.ringIn r RingCode.lock = true) ∧
    (∃ (s : State) (r : Nat), s.blk.foiCmd = some (5, r) ∧ -2000 ≤ s.blk.dropTap r ∧
      s.blk.ringIn r RingCode.fault = true ∧ s.blk.entryIn r DirCode.fault = true) ∧
    (∃ (s : State) (r : Nat), s.blk.foiCmd = some (6, r) ∧
      (s.blk.entryIn r DirCode.granted = true ∨ s.blk.entryIn r DirCode.active = true)) ∧
    (∃ (s : State) (i off : Nat) (g : RegionRec), s.blk.flag Fld.FOI_PUB_CTL_en 0 = true ∧
      s.blk.fld Fld.IMG_BOOT_phase 0 = 2 ∧ i = s.blk.fld Fld.FOI_PUB_CTL_region 0 ∧ g = s.blk.region i ∧
      off = s.blk.fld Fld.FOI_PUB_OFF_offset 0 ∧ g.valid = true ∧ g.mode = 0 ∧ g.rd = true ∧
      256 * off + 32832 ≤ g.size ∧
      (∀ k < 129, s.blk.readStored i (off + k) ≠ LineRead.memErr ∧ s.blk.readStored i (off + k) ≠ LineRead.stackDown)) ∧
    (∃ (s : State) (i off : Nat) (g : RegionRec), s.blk.flag Fld.FOI_PUB_CTL_en 0 = true ∧
      s.blk.fld Fld.IMG_BOOT_phase 0 = 2 ∧ i = s.blk.fld Fld.FOI_PUB_CTL_region 0 ∧ g = s.blk.region i ∧
      off = s.blk.fld Fld.FOI_PUB_OFF_offset 0 ∧ (g.valid = false ∨ g.mode ≠ 0)) :=
  ⟨⟨sx [(.FOI_CTL_block_rogue, 0, 1)] (foi1 (fr0 1 0 0) none), 4095, by decide +kernel⟩,
   ⟨sx [] (foi1 (fr0 1 0 1) none), 4095, by decide +kernel⟩,
   ⟨sx [] (foi1 (fr0 1 0x8000 2) none), 4095, by decide +kernel⟩,
   ⟨sx [] (foi1 (fr0 1 0x8000 3) none), 4095, by decide +kernel⟩,
   ⟨sx [] (foi1 (fr0 2 0 3) none), 4095, by decide +kernel⟩,
   ⟨sx [(.FOI_CMD_DATA_eid, 0, 5)] (foi1 (fr0 2 0 0) (some (1, 4095))), 4095, by decide +kernel⟩,
   ⟨sx [(.FOI_CMD_DATA_eid, 0, 5)] fun b => { b with foi := held16, foiCmd := some (1, 4095) }, 4095,
      by decide +kernel⟩,
   ⟨sx [] (foi1 (fr0 2 0 2) (some (2, 4095))), 4095, by decide +kernel⟩,
   ⟨sx [] (foi1 (fr0 2 0 0) (some (2, 4095))), 4095, by decide +kernel⟩,
   ⟨sx [] (foi1 (fr0 2 0 2) (some (3, 4095))), 4095, by decide +kernel⟩,
   ⟨sx [] (foi1 (fr0 4 0 4) (some (4, 4095))), 4095, by decide +kernel⟩,
   ⟨sx [] (foi1 (fr0 2 (65536 - 2000) 2) (some (5, 4095))), 4095, by decide +kernel⟩,
   ⟨sx [] (foi1 (fr0 5 0 5) (some (5, 4095))), 4095, by decide +kernel⟩,
   ⟨sx [] (foi1 (fr0 2 0 2) (some (6, 4095))), 4095, by decide +kernel⟩,
   ⟨sx [(.FOI_PUB_CTL_en, 0, 1), (.IMG_BOOT_phase, 0, 2), (.FOI_PUB_CTL_region, 0, 5)] fun b => { b with regions := [(5, { RegionRec.reset with valid := true, rd := true, blocks := 9 })] },
      5, 0, { RegionRec.reset with valid := true, rd := true, blocks := 9 }, by decide +kernel⟩,
   ⟨sx [(.FOI_PUB_CTL_en, 0, 1), (.IMG_BOOT_phase, 0, 2)], 0, 0, .reset, by decide +kernel⟩⟩


end P09

namespace P10

/-- A trace record, and tile 31's buffer holding it. -/
def tr1 : List Byte := List.replicate 64 5
def trb (b : Blk) : Blk := { b with trcBuf := [(31, [tr1])] }

theorem wit_TimeCounts :
    (∃ (s : State), s.blk.fld Fld.QTZ_RAW_raw 0 = 2 ^ 64 - 65536) ∧
    (∃ (s : State), s.blk.flag Fld.QTZ_STATUS_step_pending 0 = true ∧
      (s.blk.hallValid = false ∨ s.blk.flag Fld.QTZ_CTL_step_arm 0 = true)) ∧
    (∃ (s : State), s.blk.flag Fld.QTZ_STATUS_step_pending 0 = true ∧
      (s.blk.hallValid = false ∨ s.blk.flag Fld.QTZ_CTL_step_arm 0 = true)) ∧
    (∃ (s : State), s.blk.flag Fld.QTZ_STATUS_step_pending 0 = true ∧ s.blk.hallValid = true ∧
      s.blk.flag Fld.QTZ_CTL_step_arm 0 = false) :=
  ⟨⟨sx [(.QTZ_RAW_raw, 0, 2 ^ 64 - 65536), (.QTZ_RATE_rate, 0, 2 ^ 32 - 5)] fun b => { b with qOffset := 2 ^ 95 },
      by decide +kernel⟩,
   ⟨sx [(.QTZ_STATUS_step_pending, 0, 1)] fun b => { b with qStep := 2 ^ 96 - 1 }, by decide +kernel⟩,
   ⟨sx [(.QTZ_STATUS_step_pending, 0, 1), (.QTZ_STATUS_valid, 0, 1), (.QTZ_CTL_step_arm, 0, 1)] fun b => { b with qStep := 2 ^ 96 - 1 },
      by decide +kernel⟩,
   ⟨sx [(.QTZ_STATUS_step_pending, 0, 1), (.QTZ_STATUS_valid, 0, 1)], by decide +kernel⟩⟩

theorem wit_TimeLatches :
    (∃ (s : State) (tile : TileId), s.blk.domOn ↑tile = true ∧ s.blk.queues = []) ∧
    (∃ (s : State) (tile : TileId) (r : List Byte) (rest : List (List Byte)), s.blk.txts.get [] ↑tile = r :: rest) ∧
    (∃ (s : State) (tile : TileId), s.blk.txts.get [] ↑tile = []) ∧
    (∃ (s : State), s.blk.hallValid = true ∧ s.blk.flag Fld.QTZ_CTL_pps_out_en 0 = true ∧
      s.blk.ppsFrom ≤ s.blk.ppsSecond) ∧
    (∃ (s : State), s.blk.ppsSecond < s.blk.ppsFrom) ∧
    (∃ (s : State), s.blk.ppsRose + max 1 (s.blk.fld Fld.QTZ_CTL_pps_width_ms 0) * 10 ^ 6 ≤ s.blk.now) ∧
    (∃ (s : State), s.blk.now < s.blk.ppsRose + max 1 (s.blk.fld Fld.QTZ_CTL_pps_width_ms 0) * 10 ^ 6) :=
  ⟨⟨sx [], 31, by decide +kernel⟩,
   ⟨sx [] fun b => { b with txts := [(31, [List.replicate 16 9])] }, 31, List.replicate 16 9, [], by decide +kernel⟩,
   ⟨sx [], 31, by decide +kernel⟩,
   ⟨sx [(.QTZ_STATUS_valid, 0, 1), (.QTZ_CTL_pps_out_en, 0, 1)], by decide +kernel⟩,
   ⟨sx [(.QTZ_STATUS_valid, 0, 1), (.QTZ_CTL_pps_out_en, 0, 1)] fun b => { b with ppsFrom := 1 }, by decide +kernel⟩,
   ⟨sx [(.QTZ_CTL_pps_width_ms, 0, 1)] fun b => { b with ppsOut := true, now := 10 ^ 6 }, by decide +kernel⟩,
   ⟨sx [(.QTZ_CTL_pps_width_ms, 0, 2)] fun b => { b with ppsOut := true, now := 2 * 10 ^ 6 - 1 }, by decide +kernel⟩⟩

theorem wit_CountersLatched :
    (∃ (s : State) (atTime : Bool), s.blk.flag Fld.JSP_SNAP_STATUS_busy 0 = false ∧
      (atTime = false ∨ s.blk.snapPassed = true)) ∧
    (∃ (s : State) (atTime : Bool), s.blk.flag Fld.JSP_SNAP_STATUS_busy 0 = false ∧
      (atTime = false ∨ s.blk.snapPassed = true)) ∧
    (∃ (s : State) (atTime : Bool), s.blk.flag Fld.JSP_SNAP_STATUS_busy 0 = false ∧ atTime = true ∧
      s.blk.snapPassed = false) ∧
    (∃ (s : State) (groups : Nat), s.blk.snap = some (groups, false) ∧ s.blk.snapPassed = true) ∧
    (∃ (s : State) (groups : Nat), s.blk.snap = some (groups, false) ∧ s.blk.snapPassed = false) ∧
    (∃ (s : State) (groups : Nat), s.blk.snap = some (groups, true)) :=
  ⟨⟨sx [(.COL_COMPLETED_count, 0, 9)], false, by decide +kernel⟩,
   ⟨sx [(.COL_COMPLETED_count, 0, 9)], true, by decide +kernel⟩,
   ⟨sx [(.JSP_SNAP_SEC_sec, 0, 9)], true, by decide +kernel⟩,
   ⟨sx [(.COL_COMPLETED_count, 0, 9)] fun b => { b with snap := some (32, false) }, 32, by decide +kernel⟩,
   ⟨sx [(.JSP_SNAP_NSEC_nsec, 0, 1)] fun b => { b with snap := some (32, false) }, 32, by decide +kernel⟩,
   ⟨sx [(.JSP_SNAP_STATUS_busy, 0, 1), (.JSP_SNAP_STATUS_seq, 0, 65535)] fun b => { b with snap := some (32, true) },
      32, by decide +kernel⟩⟩

theorem wit_TraceAndMap :
    (∃ (s : State) (tile : TileId) (bs : List Byte) (rest : List (List Byte)) (ring : Nat),
      s.blk.trcBuf.get [] ↑tile = bs :: rest ∧ ring = s.blk.fld Fld.JSP_TRC_CTL_ring ↑tile ∧
      s.blk.fld Fld.JSP_TRC_LIMIT_limit ↑tile = 0 ∧ s.blk.fld Fld.DMA_RING_CFG_func ring = 4 ∧
      s.blk.ringHas ring 4 = true) ∧
    (∃ (s : State) (tile : TileId) (bs : List Byte) (rest : List (List Byte)) (ring : Nat),
      s.blk.trcBuf.get [] ↑tile = bs :: rest ∧ ring = s.blk.fld Fld.JSP_TRC_CTL_ring ↑tile ∧
      s.blk.fld Fld.JSP_TRC_LIMIT_limit ↑tile ≠ 0 ∧ (s.blk.trcRate.get (0, 0) ↑tile).1 = s.blk.now / 10 ^ 6 ∧
      s.blk.fld Fld.JSP_TRC_LIMIT_limit ↑tile ≤ (s.blk.trcRate.get (0, 0) ↑tile).2) ∧
    (∃ (s : State) (tile : TileId) (bs : List Byte) (rest : List (List Byte)) (ring : Nat),
      s.blk.trcBuf.get [] ↑tile = bs :: rest ∧ ring = s.blk.fld Fld.JSP_TRC_CTL_ring ↑tile ∧
      s.blk.fld Fld.JSP_TRC_LIMIT_limit ↑tile = 0 ∧
      (s.blk.flag Fld.DMA_RING_CFG_en ring = false ∨ s.blk.fld Fld.DMA_RING_CFG_func ring ≠ 4)) ∧
    (∃ (s : State), (s.blk.flag Fld.JSP_CMAP_CTL_en 0 = false ∨ s.blk.cmapInstant < s.blk.cmapFrom)) ∧
    (∃ (s : State), (s.blk.flag Fld.JSP_CMAP_CTL_en 0 = false ∨ s.blk.cmapInstant < s.blk.cmapFrom)) ∧
    (∃ (s : State), s.blk.flag Fld.JSP_CMAP_CTL_en 0 = true ∧ s.blk.cmapFrom ≤ s.blk.cmapInstant) ∧
    (∃ (s : State) (fid : Nat), s.blk.flag Fld.JSP_CMAP_CTL_en 0 = true ∧ s.blk.cmapFrom ≤ s.blk.cmapInstant ∧
      s.blk.cmapFrame = some fid ∧ (s.blk.frame? fid).isSome = true) :=
  ⟨⟨sx [(.JSP_TRC_CTL_ring, 31, 1023), (.JSP_TRC_LIMIT_limit, 31, 0), (.DMA_RING_CFG_en, 1023, 1), (.DMA_RING_CFG_func, 1023, 4), (.DMA_RING_CFG_side, 1023, 1), (.DMA_RING_TAIL_tail, 1023, 1)] trb,
      31, tr1, [], 1023, by decide +kernel⟩,
   ⟨sx [(.JSP_TRC_LIMIT_limit, 31, 1)] fun b => { trb b with trcRate := [(31, (0, 1))] }, 31, tr1, [], 0,
      by decide +kernel⟩,
   ⟨sx [(.JSP_TRC_LIMIT_limit, 31, 0)] trb, 31, tr1, [], 0, by decide +kernel⟩,
   ⟨sx [], by decide +kernel⟩,
   ⟨sx [(.JSP_CMAP_CTL_en, 0, 1)] fun b => { b with cmapFrom := 1 }, by decide +kernel⟩,
   ⟨sx [(.JSP_CMAP_CTL_en, 0, 1)], by decide +kernel⟩,
   ⟨sx [(.JSP_CMAP_CTL_en, 0, 1)] fun b => { b with cmapFrame := some 0, nextFrame := 1, linkBusy := [(5, ⟨0, 9, 0⟩)], frames := [(0, ⟨fr, none, 0, 0, 1, 0, true, 46, false, .copies, false, 0, 0, false, none⟩)] },
      0, by decide +kernel⟩⟩

theorem wit_MarginMonitors :
    (∃ (s : State) (m : MonitorId) (v : BitVec 16), worse (↑m) v.toNat (s.blk.fld Fld.JSP_MRG_THR_warn ↑m) = false ∧
      worse (↑m) v.toNat (s.blk.fld Fld.JSP_MRG_THR_alarm ↑m) = false) ∧
    (∃ (s : State) (m : MonitorId) (v : BitVec 16), worse (↑m) v.toNat (s.blk.fld Fld.JSP_MRG_THR_warn ↑m) = false ∧
      worse (↑m) v.toNat (s.blk.fld Fld.JSP_MRG_THR_alarm ↑m) = false) ∧
    (∃ (s : State) (m : MonitorId) (v : BitVec 16), worse (↑m) v.toNat (s.blk.fld Fld.JSP_MRG_THR_warn ↑m) = true ∧
      worse (↑m) v.toNat (s.blk.fld Fld.JSP_MRG_THR_alarm ↑m) = false ∧ (s.blk.mrgFired.get 0 ↑m).testBit 0 = false) ∧
    (∃ (s : State) (m : MonitorId) (v : BitVec 16), worse (↑m) v.toNat (s.blk.fld Fld.JSP_MRG_THR_alarm ↑m) = true ∧
      (s.blk.mrgFired.get 0 ↑m).testBit 1 = false) ∧
    (∃ (s : State) (m : MonitorId),
      worse (↑m) (s.blk.fld Fld.JSP_MRG_RD_value ↑m) (s.blk.fld Fld.JSP_MRG_THR_warn ↑m) = false) :=
  ⟨⟨sx [(.JSP_MRG_THR_warn, 123, 100), (.JSP_MRG_THR_alarm, 123, 150)], 123, 100, by decide +kernel⟩,
   ⟨sx [(.JSP_MRG_THR_warn, 0, 100), (.JSP_MRG_THR_alarm, 0, 150), (.JSP_MRG_RD_peak, 0, 70)], 0, 100,
      by decide +kernel⟩,
   ⟨sx [(.JSP_MRG_THR_warn, 0, 100), (.JSP_MRG_THR_alarm, 0, 150)], 0, 101, by decide +kernel⟩,
   ⟨sx [(.JSP_MRG_THR_warn, 0, 100), (.JSP_MRG_THR_alarm, 0, 150)], 0, 151, by decide +kernel⟩,
   ⟨sx [(.JSP_MRG_THR_warn, 0, 100), (.JSP_MRG_RD_value, 0, 99)] fun b => { b with mrgFired := [(0, 3)] }, 0,
      by decide +kernel⟩⟩


end P10

namespace P11

/-- Byte `i` of a big-endian number of `w` bytes. -/
def beB (n w i : Nat) : Byte := BitVec.ofNat 8 (n / 256 ^ (w - 1 - i) % 256)

/-- Byte `i` of a container's header (R376): of one whose epochs with the silicon are 1 to 1. -/
def hdrB (kind n len shared i : Nat) : Byte :=
  if i < 4 then beB 0x5758494D 4 i else if i = 4 then 1 else if i = 5 then BitVec.ofNat 8 kind else if i < 8 then beB n 2 (i - 6)
  else if i < 12 then beB len 4 (i - 8) else if i < 40 then 0 else if i < 44 then beB 0x10001 4 (i - 40) else if i = 44 then 0xFF
  else if i < 48 then 0 else if i < 96 then beB shared 48 (i - 48) else 0

/-- Byte `j` of a section table entry (R377). -/
def secB (type target off size dig j : Nat) : Byte :=
  if j = 0 then BitVec.ofNat 8 type else if j = 1 then BitVec.ofNat 8 target else if j < 8 then 0 else if j < 12 then beB off 4 (j - 8)
  else if j < 16 then beB size 4 (j - 12) else beB dig 48 (j - 16)

/-- SHA-384 of no bytes. -/
def sha0 : Nat := 8725231785142640510958974801449281668044511174527971820957835005137448197712608590715499503138764434364488379578715

/-- An image of kind 1 or 2 with one empty code section. -/
def codeB (kind type i : Nat) : Byte :=
  if i < 128 then hdrB kind 1 512 0 i else if i < 192 then secB type 0xFF 256 0 sha0 (i - 128) else 0

/-- A Plaper image of empty sections. -/
def plaperB (i : Nat) : Byte :=
  if i < 128 then hdrB 3 34 2560 sha0 i
  else if i < 2304 then
    let k := (i - 128) / 64
    secB (if k < 2 then k + 1 else 3) (if k < 2 then 0xFF else k - 2) 2304 0 sha0 ((i - 128) % 64)
  else 0

/-- A bundle of the three. -/
def bundleB (i : Nat) : Byte :=
  if i < 128 then hdrB 16 3 4352 0 i
  else if i < 192 then secB 16 0xFF 512 512 39172110944360319919469871164019389441478517705839175004365116052299686215940659538129614489269122867681810238767409 (i - 128)
  else if i < 256 then secB 16 0xFF 1024 512 4927034146530526190763464263380818344602692500138859687124070513876122896848448763617333893747382896677470962341679 (i - 192)
  else if i < 320 then secB 16 0xFF 1536 2560 21474256749638776311787002622482230876829205542750414375124433408833761539791646678780004099935300038163170809087677 (i - 256)
  else if i < 512 then 0 else if i < 1024 then codeB 1 0x20 (i - 512) else if i < 1536 then codeB 2 0x30 (i - 1024)
  else if i < 4096 then plaperB (i - 1536) else 0

/-- A verified download's worth of it in the RAM stage. -/
def ramB : Tab Byte := (List.range 4352).map fun i => (i, bundleB i)

/-- A state whose image command runs. -/
def ic (op a0 a1 : Nat) (fs : List (Fld × Nat × Nat)) (f : Blk → Blk := id) : State :=
  sx ([(.IMG_CMD_STATUS_busy, 0, 1)] ++ fs) fun b => f { b with imgCmd := some (op, a0, a1) }

/-- Epochs of the silicon that erased flash overlaps. -/
def ffSi : List (Fld × Nat × Nat) := [0, 1, 2].flatMap fun j => [(.IMG_SI_RANGE_lo, j, 0xFFFF), (.IMG_SI_RANGE_hi, j, 0xFFFF)]

/-- An activation record: a confirmed start of slot A. -/
def confB : List Byte := [0x57, 0x58, 0x41, 0x52, 0, 0, 0, 1, 1, 0] ++ List.replicate 114 0 ++ [0x1D, 0xDA, 0x73, 0x51]

/-- An activation record: a trial of slot B, A confirmed. -/
def trialB : List Byte := [0x57, 0x58, 0x41, 0x52, 0, 0, 0, 1, 2, 1] ++ List.replicate 114 0 ++ [0xF0, 0xBA, 0x0B, 0xBD]

/-- Its first copy in flash. -/
def flashOf (r : List Byte) (b : Blk) : Blk := { b with flash := (List.range 128).map fun i => (i, r.getD i 0) }

/-- What a reload finds. -/
def rf : ReloadFindings := ⟨true, true, 0, 0, [], [], [], false⟩

/-- A state whose boot ROM is due to start. -/
def due (fs : List (Fld × Nat × Nat)) (f : Blk → Blk := id) : State := sx fs fun b => f { b with coldStart := false }

/-- Slots of erased flash but for a count of no sections. -/
def noSec (b : Blk) : Blk :=
  { b with flash := b.flash ++ [(0x1000006, 0), (0x1000007, 0), (0x4000006, 0), (0x4000007, 0)] }


/-- RUN of that bundle, verified in the RAM stage, in a host-load start. -/
def ramRun : State := ic 4 0 2 [(.IMG_DL_STATUS_target, 0, 1), (.IMG_DL_STATUS_state, 0, 2), (.IMG_BOOT_src, 0, 1)] fun b =>
  { b with startDue := false, ramStage := ramB }

theorem wit_ImageDownloads :
    (∃ (s : State) (a0 a1 : Nat), s.blk.imgCmd = some (1, a0, a1) ∧ s.blk.roll = none ∧ s.blk.tripped = false ∧
      384 ≤ a0 ∧ a0 ≤ 50331648 ∧ a1 % 2 = 0 ∧ s.blk.onTrial = false ∧
      s.blk.runningSlots.contains s.blk.inactiveSlot = false) ∧
    (∃ (s : State) (a0 a1 : Nat), s.blk.imgCmd = some (1, a0, a1) ∧ s.blk.roll = none ∧ s.blk.tripped = false ∧
      384 ≤ a0 ∧ a0 ≤ 50331648 ∧ a1 % 2 = 0 ∧ s.blk.onTrial = false ∧
      s.blk.runningSlots.contains s.blk.inactiveSlot = false) ∧
    (∃ (s : State) (a0 a1 : Nat), s.blk.imgCmd = some (1, a0, a1) ∧ s.blk.roll = none ∧ s.blk.tripped = false ∧
      (a0 < 384 ∨ 50331648 < a0)) ∧
    (∃ (s : State) (a0 a1 : Nat), s.blk.imgCmd = some (1, a0, a1) ∧ s.blk.roll = none ∧ s.blk.tripped = false ∧
      (a0 < 384 ∨ 50331648 < a0)) ∧
    (∃ (s : State) (a0 a1 i : Nat), s.blk.imgCmd = some (2, a0, a1) ∧ s.blk.roll = none ∧ s.blk.tripped = false ∧
      s.blk.fld Fld.IMG_DL_STATUS_state 0 = 1 ∧ a0 = s.blk.fld Fld.IMG_DL_STATUS_bytes 0 ∧ 1 ≤ a1 ∧ a1 ≤ 65536 ∧
      a0 + a1 ≤ s.blk.dlLength ∧ (a1 % 256 = 0 ∨ a0 + a1 = s.blk.dlLength) ∧ i < a1 ∧
      s.blk.flag Fld.IMG_DL_STATUS_target 0 = true) ∧
    (∃ (s : State) (a0 a1 : Nat), s.blk.imgCmd = some (2, a0, a1) ∧ s.blk.roll = none ∧ s.blk.tripped = false ∧
      s.blk.fld Fld.IMG_DL_STATUS_state 0 ≠ 1) ∧
    (∃ (s : State) (a0 a1 c : Nat), s.blk.imgCmd = some (3, a0, a1) ∧ s.blk.roll = none ∧ s.blk.tripped = false ∧
      bundleCheck s.fuses s.blk.dlReader 50331648 = c ∧ c ≠ 0) :=
  ⟨⟨ic 1 384 2 [], 384, 2, by decide +kernel⟩,
   ⟨ic 1 50331648 0 [], 50331648, 0, by decide +kernel⟩,
   ⟨ic 1 383 0 [], 383, 0, by decide +kernel⟩,
   ⟨ic 1 50331649 0 [], 50331649, 0, by decide +kernel⟩,
   ⟨ic 2 256 3 [(.IMG_DL_STATUS_state, 0, 1), (.IMG_DL_STATUS_bytes, 0, 256), (.IMG_DL_STATUS_target, 0, 1)] fun b => { b with dlLength := 259, window := [(2, 0x5A)] },
      256, 3, 2, by decide +kernel⟩,
   ⟨ic 2 0 256 [], 0, 256, by decide +kernel⟩,
   ⟨ic 3 0 0 [(.IMG_DL_STATUS_target, 0, 1)], 0, 0, 5, by decide +kernel⟩⟩

theorem wit_ActivationAndStarts :
    (∃ (s : State) (a0 a1 : Nat) (b : List Byte), s.blk.imgCmd = some (4, a0, a1) ∧ s.blk.roll = none ∧
      s.blk.tripped = false ∧ a1 % 4 = 0 ∧ s.blk.verified 0 = true ∧ s.blk.recordInForce = some b ∧
      s.blk.onTrial = false ∧ epochFail (s.blk.bundleRanges (s.blk.slotReader s.blk.inactiveSlot)) = 0) ∧
    (∃ (s : State) (a0 a1 : Nat), s.blk.imgCmd = some (4, a0, a1) ∧ s.blk.roll = none ∧ s.blk.tripped = false ∧
      a1 % 4 = 0 ∧ s.blk.verified 0 = false) ∧
    (∃ (s : State) (a0 a1 : Nat), s.blk.imgCmd = some (4, a0, a1) ∧ s.blk.roll = none ∧ s.blk.tripped = false ∧
      a1 % 4 = 2 ∧ s.blk.verified 1 = true ∧ s.blk.hostLoads = true ∧
      (bundleCheck s.fuses s.blk.ramReader 50331648 ≠ 0 ∨ epochFail (s.blk.bundleRanges s.blk.ramReader) ≠ 0)) ∧
    (∃ (s : State) (a0 a1 : Nat), s.blk.imgCmd = some (4, a0, a1) ∧ s.blk.roll = none ∧ s.blk.tripped = false ∧
      a1 % 4 = 1 ∧ s.blk.rollCheck.1 = 0) ∧
    (∃ (s : State) (a0 a1 c pair : Nat), s.blk.imgCmd = some (4, a0, a1) ∧ s.blk.roll = none ∧ s.blk.tripped = false ∧
      a1 % 4 = 1 ∧ s.blk.rollCheck = (c, pair) ∧ c ≠ 0) ∧
    (∃ (s : State) (a0 a1 : Nat) (b : List Byte), s.blk.imgCmd = some (5, a0, a1) ∧ s.blk.roll = none ∧
      s.blk.tripped = false ∧ s.blk.recordInForce = some b ∧ s.blk.onTrial = true ∧ s.blk.imageRuns = true ∧
      s.blk.ramParts = [] ∧ s.blk.runningSlots = [Blk.recSlot b]) ∧
    (∃ (s : State) (a0 a1 c pair : Nat), s.blk.imgCmd = some (6, a0, a1) ∧ s.blk.roll = none ∧ s.blk.tripped = false ∧
      s.blk.tileLoading = none ∧ s.blk.tileLoadCheck a0 a1 = (c, pair) ∧ c ≠ 0) ∧
    (∃ (s : State) (a0 a1 : Nat), s.blk.imgCmd = some (6, a0, a1) ∧ s.blk.roll = none ∧ s.blk.tripped = false ∧
      s.blk.tileLoading = none ∧ s.blk.imageRuns = false) ∧
    (∃ (s : State) (a0 a1 : Nat), s.blk.imgCmd = some (6, a0, a1) ∧ s.blk.roll = none ∧ s.blk.tripped = false ∧
      s.blk.imageRuns = true ∧ a1 % 2 = 1 ∧ s.blk.verified 0 = false) ∧
    (∃ (s : State) (a0 a1 : Nat), s.blk.imgCmd = some (6, a0, a1) ∧ s.blk.roll = none ∧ s.blk.tripped = false ∧
      s.blk.tileLoading = none ∧ s.blk.tileLoadCheck a0 a1 = (0, 0) ∧ s.blk.domState (a0 % 32) = 3) ∧
    (∃ (s : State) (a0 a1 : Nat) (r : TileLoadRec), s.blk.imgCmd = some (6, a0, a1) ∧ s.blk.roll = none ∧
      s.blk.tripped = false ∧ s.blk.tileLoading = some r ∧
      (s.blk.domState r.tile = 0 ∨ r.filled = true ∧ s.blk.domOn r.tile = true ∧ s.blk.tableLoads.contains (r.tile / 8) = false)) ∧
    (∃ (s : State) (a0 a1 : Nat) (r : TileLoadRec), s.blk.imgCmd = some (6, a0, a1) ∧ s.blk.roll = none ∧
      s.blk.tripped = false ∧ s.blk.tileLoading = some r ∧
      (s.blk.domState r.tile = 0 ∨ r.filled = true ∧ s.blk.domOn r.tile = true ∧ s.blk.tableLoads.contains (r.tile / 8) = false)) ∧
    (∃ (s : State) (a0 a1 : Nat) (r : TileLoadRec), s.blk.imgCmd = some (6, a0, a1) ∧ s.blk.roll = none ∧
      s.blk.tripped = false ∧ s.blk.tileLoading = some r ∧ s.blk.domState r.tile = 3) ∧
    (∃ (s : State) (r : RollRec), s.blk.roll = some r ∧ s.blk.tripped = false ∧
      (∀ g ∈ r.groups, s.blk.groupOn r.slot g = true)) ∧
    (∃ (s : State), s.blk.startDue = true ∧ s.blk.tripped = false ∧ s.blk.powerHold = false ∧ s.blk.coldStart = false ∧
      s.blk.flag Fld.RSTC_FAILS_locked 0 = true) ∧
    (∃ (s : State), s.blk.startDue = true ∧ s.blk.tripped = false ∧ s.blk.powerHold = false ∧ s.blk.coldStart = false ∧
      s.blk.flag Fld.RSTC_FAILS_locked 0 = false ∧ s.blk.fld Fld.IMG_BOOT_src 0 = 1) ∧
    (∃ (s : State), s.blk.startDue = true ∧ s.blk.tripped = false ∧ s.blk.powerHold = false ∧ s.blk.coldStart = false ∧
      s.blk.flag Fld.RSTC_FAILS_locked 0 = false ∧ 2 ≤ s.blk.fld Fld.IMG_BOOT_src 0) ∧
    (∃ (s : State), s.blk.startDue = true ∧ s.blk.tripped = false ∧ s.blk.powerHold = false ∧ s.blk.coldStart = false ∧
      s.blk.flag Fld.RSTC_FAILS_locked 0 = false ∧ s.blk.fld Fld.IMG_BOOT_src 0 = 0 ∧ s.blk.recordInForce = none) ∧
    (∃ (s : State) (k : Nat) (r : ResetRun), s.blk.startDue = false ∧ s.blk.tripped = false ∧
      s.blk.resets[k]? = some r ∧ r.released = true ∧ r.level = 3 ∧ r.takesCores = false ∧
      s.blk.tableLoads.contains (r.tile / 8) = false ∧ s.blk.imageRuns = false) ∧
    (∃ (s : State) (k : Nat) (r : ResetRun), s.blk.startDue = false ∧ s.blk.tripped = false ∧
      s.blk.resets[k]? = some r ∧ r.released = true ∧
      (r.level = 4 ∨ r.cores = true ∧ r.level = 3 ∧ s.blk.tableLoads.contains (r.tile / 8) = false) ∧
      s.blk.fld Fld.IMG_BOOT_phase 0 = 3) ∧
    (∃ (s : State) (k : Nat) (r : ResetRun), s.blk.startDue = false ∧ s.blk.tripped = false ∧
      s.blk.resets[k]? = some r ∧ r.released = true ∧
      (r.level = 4 ∨ r.cores = true ∧ r.level = 3 ∧ s.blk.tableLoads.contains (r.tile / 8) = false) ∧
      s.blk.fld Fld.IMG_BOOT_phase 0 = 3) ∧
    (∃ (s : State), s.blk.tripped = true) ∧
    (∃ (s : State), s.blk.fld Fld.IMG_BOOT_phase 0 = 1 ∧ s.blk.micaRuns 0 = false) ∧
    (∃ (s : State), s.blk.fld Fld.IMG_BOOT_phase 0 = 1 ∧ s.blk.micaRuns 0 = true) :=
  ⟨⟨ic 4 0 0 (ffSi ++ [(.IMG_DL_STATUS_state, 0, 2)]) (fun b => noSec (flashOf confB b)), 0, 0, confB,
      by decide +kernel⟩,
   ⟨ic 4 0 0 [], 0, 0, by decide +kernel⟩,
   ⟨ic 4 0 2 ([0, 1, 2].flatMap (fun j => [(.IMG_SI_RANGE_lo, j, 0), (.IMG_SI_RANGE_hi, j, 0)]) ++ [(.IMG_DL_STATUS_state, 0, 2), (.IMG_DL_STATUS_target, 0, 1), (.IMG_BOOT_src, 0, 1)]) fun b => { b with startDue := false },
      0, 2, by decide +kernel⟩,
   ⟨ic 4 0 1 (ffSi ++ [(.IMG_DL_STATUS_state, 0, 2), (.IMG_BOOT_phase, 0, 2)]) noSec, 0, 1, by decide +kernel⟩,
   ⟨ic 4 0 1 [], 0, 1, 0x0C, 0, by decide +kernel⟩,
   ⟨ic 5 0 0 [(.IMG_BOOT_phase, 0, 2), (.IMG_BOOT_mgmt_slot, 0, 1), (.IMG_BOOT_mica_src, 0, 255), (.IMG_TILE_SRC_src, 0, 2 ^ 32 - 1)] fun b => { flashOf trialB b with heldDigests := [(0, [1])] },
      0, 0, trialB, by decide +kernel⟩,
   ⟨ic 6 31 0 [], 31, 0, 3, 0, by decide +kernel⟩,
   ⟨ic 6 31 0 [], 31, 0, by decide +kernel⟩,
   ⟨ic 6 31 1 [(.IMG_BOOT_phase, 0, 2)], 31, 1, by decide +kernel⟩,
   ⟨ic 6 31 0 (ffSi ++ [(.IMG_BOOT_phase, 0, 2), (.PWR_DOM_STATUS_state, 31, 3)]) noSec, 31, 0, by decide +kernel⟩,
   ⟨ic 6 31 0 [(.PWR_DOM_STATUS_state, 31, 0)] fun b => { b with tileLoading := some ⟨31, [1020], false⟩ }, 31, 0,
      ⟨31, [1020], false⟩, by decide +kernel⟩,
   ⟨ic 6 31 0 [(.IMG_BOOT_phase, 0, 2)] fun b => { b with tileLoading := some ⟨31, [1020], true⟩ }, 31, 0,
      ⟨31, [1020], true⟩, by decide +kernel⟩,
   ⟨ic 6 31 0 [(.PWR_DOM_STATUS_state, 31, 3)] fun b => { b with tileLoading := some ⟨31, [1020], true⟩ }, 31, 0,
      ⟨31, [1020], true⟩, by decide +kernel⟩,
   ⟨ic 4 0 1 [] fun b => { b with roll := some ⟨0, [[3]], [5]⟩ }, ⟨0, [[3]], [5]⟩, by decide +kernel⟩,
   ⟨due [(.RSTC_FAILS_locked, 0, 1)], by decide +kernel⟩,
   ⟨due [(.IMG_BOOT_src, 0, 1)], by decide +kernel⟩,
   ⟨due [(.IMG_BOOT_src, 0, 3)], by decide +kernel⟩,
   ⟨due [(.RSTC_FAILS_count, 0, 2)], by decide +kernel⟩,
   ⟨sx [] fun b => { b with startDue := false, resets := [⟨3, 0, 31, true, 0, false⟩] }, 0,
      ⟨3, 0, 31, true, 0, false⟩, by decide +kernel⟩,
   ⟨sx [(.IMG_BOOT_phase, 0, 3)] fun b => { b with startDue := false, resets := [⟨4, 0, 0, true, 0, false⟩] }, 0,
      ⟨4, 0, 0, true, 0, false⟩, by decide +kernel⟩,
   ⟨sx [(.IMG_BOOT_phase, 0, 3)] fun b => { b with startDue := false, resets := [⟨3, 0, 31, true, 0, true⟩] }, 0,
      ⟨3, 0, 31, true, 0, true⟩, by decide +kernel⟩,
   ⟨sx [] fun b => { b with tripped := true }, by decide +kernel⟩,
   ⟨sx [(.IMG_BOOT_phase, 0, 1)], by decide +kernel⟩,
   ⟨sx [(.IMG_BOOT_phase, 0, 1), (.MICA_CTRL_STATUS_run, 0, 3)] noSec, by decide +kernel⟩⟩

/-- The sections of the Plaper image in the bundle. -/
def plaperS : List Section :=
  ⟨1, 0xFF, 2304, 0, sha0⟩ :: ⟨2, 0xFF, 2304, 0, sha0⟩ :: (List.range 32).map fun t => ⟨3, t, 2304, 0, sha0⟩

theorem plaper_sections : sectionsOf (rdAt bundleB 1536) = plaperS := by decide +kernel

theorem sha384_nil : sha384 [] = sha0 := by decide +kernel

theorem plaper_shared : sharedDigest (rdAt bundleB 1536) = sha0 := by
  unfold sharedDigest findSection
  rw [plaper_sections]
  decide +kernel

theorem plaper_wellFormed : Machine.wellFormed (rdAt bundleB 1536) 2560 = true := by
  unfold Machine.wellFormed
  rw [plaper_sections, plaper_shared]
  decide +kernel

theorem plaper_digests :
    ((sectionsOf (rdAt bundleB 1536)).all fun x => sha384 (sectionBytes (rdAt bundleB 1536) x) = x.digest) = true := by
  have h : ∀ x ∈ plaperS, x.size = 0 ∧ x.digest = sha0 := by decide +kernel
  rw [plaper_sections, List.all_eq_true]
  intro x hx
  simp [sectionBytes, rdList, (h x hx).1, (h x hx).2, sha384_nil]

theorem plaper_check : containerCheck Fuses.blank (rdAt bundleB 1536) 2560 = 0 := by
  unfold containerCheck
  rw [plaper_wellFormed, plaper_digests]
  decide +kernel

theorem mgmt_check : containerCheck Fuses.blank (rdAt bundleB 512) 512 = 0 := by decide +kernel
theorem mica_check : containerCheck Fuses.blank (rdAt bundleB 1024) 512 = 0 := by decide +kernel
theorem outer_check : containerCheck Fuses.blank bundleB 50331648 = 0 := by decide +kernel

theorem bundleB_check : bundleCheck Fuses.blank bundleB 50331648 = 0 := by
  have h : (sectionsOf bundleB).map (fun x => (x.offset, x.size)) = [(512, 512), (1024, 512), (1536, 2560)] := by decide +kernel
  have h2 : ((sectionsOf bundleB).map fun x => containerCheck Fuses.blank (rdAt bundleB x.offset) x.size) = [0, 0, 0] := by
    have e : ((sectionsOf bundleB).map fun x => containerCheck Fuses.blank (rdAt bundleB x.offset) x.size) =
        ((sectionsOf bundleB).map (fun x => (x.offset, x.size))).map fun x => containerCheck Fuses.blank (rdAt bundleB x.1) x.2 := by
      rw [List.map_map]
      rfl
    rw [e, h]
    simp only [List.map, mgmt_check, mica_check, plaper_check]
  unfold bundleCheck
  rw [outer_check, h2]
  decide +kernel

theorem find_range {α : Type} (f : Nat → α) (n a i : Nat) :
    Tab.find ((List.range' a n).map fun i => (i, f i)) i = if a ≤ i ∧ i < a + n then some (f i) else none := by
  induction n generalizing a with
  | zero => simp only [List.range'_zero, List.map_nil, Tab.find]; rw [if_neg (by omega)]
  | succ n ih =>
    rw [List.range'_succ, List.map_cons, Tab.find, ih]
    by_cases h : a = i
    · subst h; rw [if_pos rfl, if_pos (by omega)]
    · rw [if_neg h]
      by_cases h' : a + 1 ≤ i ∧ i < a + 1 + n
      · rw [if_pos h', if_pos (by omega)]
      · rw [if_neg h', if_neg (by omega)]

theorem bundleB_end {i : Nat} (h : ¬ i < 4352) : bundleB i = 0 := by
  unfold bundleB
  repeat rw [if_neg (by omega)]

/-- The state with the bundle downloaded to the RAM stage. -/
def loaded : State := ic 3 0 1 [(.IMG_DL_STATUS_target, 0, 1), (.IMG_DL_STATUS_state, 0, 1)] fun b => { b with ramStage := ramB }

theorem ramB_reader (s : State) (h : s.blk.ramStage = ramB) : s.blk.ramReader = bundleB := by
  funext i
  have e : s.blk.ramStage = (List.range' 0 4352).map fun i => (i, bundleB i) := by rw [h, ramB, List.range_eq_range']
  unfold Blk.ramReader
  rw [e, Tab.get, find_range]
  by_cases hi : i < 4352
  · rw [if_pos (by omega)]; rfl
  · rw [if_neg (by omega), bundleB_end hi]; rfl

theorem loaded_reader : loaded.blk.dlReader = bundleB := by
  have h : loaded.blk.flag .IMG_DL_STATUS_target 0 = true := by decide +kernel
  unfold Blk.dlReader
  rw [if_pos h, ramB_reader loaded (by simp only [loaded, ic, sx])]

theorem wit_ImageDownloads_verified :
    ∃ (s : State) (a0 a1 : Nat), s.blk.imgCmd = some (3, a0, a1) ∧ s.blk.roll = none ∧ s.blk.tripped = false ∧
      bundleCheck s.fuses s.blk.dlReader 50331648 = 0 ∧ epochFail (s.blk.bundleRanges s.blk.dlReader) = 0 := by
  refine ⟨loaded, 0, 1, by decide +kernel, by decide +kernel, by decide +kernel, ?_, ?_⟩
  · rw [loaded_reader]; exact bundleB_check
  · rw [loaded_reader]; decide +kernel

theorem wit_ActivationAndStarts_run :
    ∃ (s : State) (a0 a1 : Nat), s.blk.imgCmd = some (4, a0, a1) ∧ s.blk.roll = none ∧ s.blk.tripped = false ∧ a1 % 4 = 2 ∧
      s.blk.verified 1 = true ∧ s.blk.hostLoads = true ∧ bundleCheck s.fuses s.blk.ramReader 50331648 = 0 ∧
      epochFail (s.blk.bundleRanges s.blk.ramReader) = 0 := by
  refine ⟨ramRun, 0, 2, by decide +kernel, by decide +kernel, by decide +kernel, by decide +kernel, by decide +kernel,
    by decide +kernel, ?_, ?_⟩
  · rw [ramB_reader ramRun (by simp only [ramRun, ic, sx])]; exact bundleB_check
  · rw [ramB_reader ramRun (by simp only [ramRun, ic, sx])]; decide +kernel

end P11

namespace P12



theorem wit_ResetSources :
    (∃ (s : State) (src : Nat) (i : Instr) (bs cm : BitVec 2),
      (src = 0 ∧ i = Instr.powerOn ∨ src = 1 ∧ i = Instr.brownOut ∧ s.blk.resets = [] ∨ src = 2 ∧ i = Instr.resetN true bs cm ∧ s.blk.resetLow = false ∧ s.blk.resets = [] ∨ src = 3 ∧ i = Instr.watchdogTimeout ∧ s.blk.flag Fld.RSTC_WDT_CTL_en 0 = true ∧ s.blk.wdtHalf = true ∧ s.blk.resets = [] ∨ src = 7 ∧ i = Instr.mgmtLockup ∧ s.blk.resets = []) ∧
      s.blk.levelOf src ≠ 3 ∧ (s.blk.levelOf src = 2 → s.blk.domState 156 ≠ 0)) ∧
    (∃ (s : State) (src : Nat) (i : Instr) (bs cm : BitVec 2),
      (src = 0 ∧ i = Instr.powerOn ∨ src = 1 ∧ i = Instr.brownOut ∧ s.blk.resets = [] ∨ src = 2 ∧ i = Instr.resetN true bs cm ∧ s.blk.resetLow = false ∧ s.blk.resets = [] ∨ src = 3 ∧ i = Instr.watchdogTimeout ∧ s.blk.flag Fld.RSTC_WDT_CTL_en 0 = true ∧ s.blk.wdtHalf = true ∧ s.blk.resets = [] ∨ src = 7 ∧ i = Instr.mgmtLockup ∧ s.blk.resets = []) ∧
      s.blk.levelOf src ≠ 3 ∧ (s.blk.levelOf src = 2 → s.blk.domState 156 ≠ 0)) ∧
    (∃ (s : State) (src : Nat) (i : Instr) (bs cm : BitVec 2),
      (src = 0 ∧ i = Instr.powerOn ∨ src = 1 ∧ i = Instr.brownOut ∧ s.blk.resets = [] ∨ src = 2 ∧ i = Instr.resetN true bs cm ∧ s.blk.resetLow = false ∧ s.blk.resets = [] ∨ src = 3 ∧ i = Instr.watchdogTimeout ∧ s.blk.flag Fld.RSTC_WDT_CTL_en 0 = true ∧ s.blk.wdtHalf = true ∧ s.blk.resets = [] ∨ src = 7 ∧ i = Instr.mgmtLockup ∧ s.blk.resets = []) ∧
      s.blk.levelOf src ≠ 3 ∧ (s.blk.levelOf src = 2 → s.blk.domState 156 ≠ 0)) ∧
    (∃ (s : State) (src : Nat) (i : Instr) (bs cm : BitVec 2),
      (src = 0 ∧ i = Instr.powerOn ∨ src = 1 ∧ i = Instr.brownOut ∧ s.blk.resets = [] ∨ src = 2 ∧ i = Instr.resetN true bs cm ∧ s.blk.resetLow = false ∧ s.blk.resets = [] ∨ src = 3 ∧ i = Instr.watchdogTimeout ∧ s.blk.flag Fld.RSTC_WDT_CTL_en 0 = true ∧ s.blk.wdtHalf = true ∧ s.blk.resets = [] ∨ src = 7 ∧ i = Instr.mgmtLockup ∧ s.blk.resets = []) ∧
      s.blk.levelOf src ≠ 3 ∧ (s.blk.levelOf src = 2 → s.blk.domState 156 ≠ 0)) ∧
    (∃ (s : State) (src : Nat) (i : Instr) (bs cm : BitVec 2),
      (src = 0 ∧ i = Instr.powerOn ∨ src = 1 ∧ i = Instr.brownOut ∧ s.blk.resets = [] ∨ src = 2 ∧ i = Instr.resetN true bs cm ∧ s.blk.resetLow = false ∧ s.blk.resets = [] ∨ src = 3 ∧ i = Instr.watchdogTimeout ∧ s.blk.flag Fld.RSTC_WDT_CTL_en 0 = true ∧ s.blk.wdtHalf = true ∧ s.blk.resets = [] ∨ src = 7 ∧ i = Instr.mgmtLockup ∧ s.blk.resets = []) ∧
      s.blk.levelOf src ≠ 3 ∧ (s.blk.levelOf src = 2 → s.blk.domState 156 ≠ 0)) ∧
    (∃ (v : BitVec 32) (level : Nat), level = v.toNat / 2 ^ 16 % 8 ∧ v.toNat / 2 ^ 24 ≠ 165) ∧
    (∃ (s : State) (v : BitVec 32) (level : Nat), level = v.toNat / 2 ^ 16 % 8 ∧ v.toNat / 2 ^ 24 = 165 ∧
      (4 < level ∨ level < s.blk.levelOf 4)) ∧
    (∃ (s : State) (v : BitVec 32) (level : Nat), level = v.toNat / 2 ^ 16 % 8 ∧ v.toNat / 2 ^ 24 = 165 ∧
      (4 < level ∨ level < s.blk.levelOf 4)) ∧
    (∃ (s : State) (v : BitVec 32) (level : Nat), level = v.toNat / 2 ^ 16 % 8 ∧ v.toNat / 2 ^ 24 = 165 ∧ level ≤ 4 ∧
      s.blk.levelOf 4 ≤ level ∧ s.blk.resets = [] ∧ s.blk.bist = none ∧
      (level = 2 → s.blk.domState (156 + Blk.part Fld.RSTC_SWRST_die v.toNat) ≠ 0) ∧
      (level = 3 → s.blk.domState (Blk.part Fld.RSTC_SWRST_tile v.toNat) ≠ 0)) ∧
    (∃ (s : State) (v : BitVec 32) (level : Nat), level = v.toNat / 2 ^ 16 % 8 ∧ v.toNat / 2 ^ 24 = 165 ∧ level ≤ 4 ∧
      s.blk.levelOf 4 ≤ level ∧ s.blk.resets = [] ∧ s.blk.bist = none ∧
      (level = 2 → s.blk.domState (156 + Blk.part Fld.RSTC_SWRST_die v.toNat) ≠ 0) ∧
      (level = 3 → s.blk.domState (Blk.part Fld.RSTC_SWRST_tile v.toNat) ≠ 0)) ∧
    (∃ (s : State) (v : BitVec 32) (level : Nat), level = v.toNat / 2 ^ 16 % 8 ∧ v.toNat / 2 ^ 24 = 165 ∧ level ≤ 4 ∧
      s.blk.levelOf 4 ≤ level ∧ s.blk.resets = [] ∧ s.blk.bist = none ∧
      (level = 2 → s.blk.domState (156 + Blk.part Fld.RSTC_SWRST_die v.toNat) ≠ 0) ∧
      (level = 3 → s.blk.domState (Blk.part Fld.RSTC_SWRST_tile v.toNat) ≠ 0)) ∧
    (∃ (s : State) (v : BitVec 32) (level : Nat), level = v.toNat / 2 ^ 16 % 8 ∧ v.toNat / 2 ^ 24 = 165 ∧ level ≤ 4 ∧
      s.blk.levelOf 4 ≤ level ∧ s.blk.resets = [] ∧ s.blk.bist = none ∧
      (level = 2 → s.blk.domState (156 + Blk.part Fld.RSTC_SWRST_die v.toNat) ≠ 0) ∧
      (level = 3 → s.blk.domState (Blk.part Fld.RSTC_SWRST_tile v.toNat) ≠ 0)) ∧
    (∃ (s : State) (v : BitVec 32) (level : Nat), level = v.toNat / 2 ^ 16 % 8 ∧ v.toNat / 2 ^ 24 = 165 ∧ level ≤ 4 ∧
      s.blk.levelOf 4 ≤ level ∧
      (s.blk.resets.any fun r => decide (r.level = 0) || decide (level = 4) && decide (r.level ≤ 4)) = true ∧
      (∀ a ∈ s.blk.resets, s.blk.sameClock a = false)) ∧
    (∃ (s : State) (v : BitVec 32) (level : Nat) (a : ResetRun), level = v.toNat / 2 ^ 16 % 8 ∧
      v.toNat / 2 ^ 24 = 165 ∧ (level = 2 ∨ level = 3) ∧ s.blk.levelOf 4 ≤ level ∧ s.blk.resets = [a] ∧ a.level = 4 ∧
      s.blk.bist = none ∧ (level = 2 → s.blk.domState (156 + Blk.part Fld.RSTC_SWRST_die v.toNat) ≠ 0) ∧
      (level = 3 → s.blk.domState (Blk.part Fld.RSTC_SWRST_tile v.toNat) ≠ 0)) ∧
    (∃ (s : State) (v : BitVec 32) (level : Nat) (a : ResetRun), level = v.toNat / 2 ^ 16 % 8 ∧
      v.toNat / 2 ^ 24 = 165 ∧ (level = 2 ∨ level = 3) ∧ s.blk.levelOf 4 ≤ level ∧ s.blk.resets = [a] ∧ a.level = 4 ∧
      s.blk.bist = none ∧ (level = 2 → s.blk.domState (156 + Blk.part Fld.RSTC_SWRST_die v.toNat) ≠ 0) ∧
      (level = 3 → s.blk.domState (Blk.part Fld.RSTC_SWRST_tile v.toNat) ≠ 0)) ∧
    (∃ (s : State) (v : BitVec 32) (level : Nat), level = v.toNat / 2 ^ 16 % 8 ∧ v.toNat / 2 ^ 24 = 165 ∧
      s.blk.levelOf 4 ≤ level ∧ s.blk.resets = [] ∧
      (level = 2 ∧ s.blk.domState (156 + Blk.part Fld.RSTC_SWRST_die v.toNat) = 0 ∨ level = 3 ∧ s.blk.domState (Blk.part Fld.RSTC_SWRST_tile v.toNat) = 0)) ∧
    (∃ (s : State) (v : BitVec 32) (level : Nat), level = v.toNat / 2 ^ 16 % 8 ∧ v.toNat / 2 ^ 24 = 165 ∧
      s.blk.levelOf 4 ≤ level ∧ s.blk.resets = [] ∧
      (level = 2 ∧ s.blk.domState (156 + Blk.part Fld.RSTC_SWRST_die v.toNat) = 0 ∨ level = 3 ∧ s.blk.domState (Blk.part Fld.RSTC_SWRST_tile v.toNat) = 0)) ∧
    (∃ (s : State) (v : BitVec 32) (level : Nat) (a : ResetRun), level = v.toNat / 2 ^ 16 % 8 ∧
      v.toNat / 2 ^ 24 = 165 ∧ level ≤ 1 ∧ s.blk.levelOf 4 ≤ level ∧ s.blk.resets = [a] ∧ s.blk.sameClock a = true ∧
      a.level = level ∧ a.die = 0 ∧ a.tile = 0 ∧ s.blk.fld Fld.RSTC_CAUSE_level 0 = level) ∧
    (∃ (s : State), s.blk.resetLow = true) ∧
    (∃ (s : State), s.blk.powerHold = true) :=
  ⟨⟨sx [(.RSTC_CAUSE_resets, 0, 9)] fun b => { b with hbm := [(5, 1)] }, 0, .powerOn, 0, 0, by decide +kernel⟩,
   ⟨sx [] fun b => { b with hbm := [(5, 1)] }, 1, .brownOut, 0, 0, by decide +kernel⟩,
   ⟨sx [(.RSTC_CAUSE_resets, 0, 255)] fun b => { b with hbm := [(5, 1)] }, 2, .resetN true 3 1, 3, 1,
      by decide +kernel⟩,
   ⟨sx [(.RSTC_WDT_CTL_en, 0, 1), (.RSTC_CAUSE_resets, 0, 7)] fun b => { b with wdtHalf := true, hbm := [(5, 1)] }, 3,
      .watchdogTimeout, 0, 0, by decide +kernel⟩,
   ⟨sx [], 7, .mgmtLockup, 0, 0, by decide +kernel⟩,
   ⟨0xA4000000, 0, by decide +kernel⟩,
   ⟨sx [], 0xA5050000, 5, by decide +kernel⟩,
   ⟨sx [(.RSTC_MAP_levels, 0, 3 * 8 ^ 4)], 0xA5020000, 2, by decide +kernel⟩,
   ⟨sx [(.RSTC_MAP_levels, 0, 0)], 0xA5000000, 0, by decide +kernel⟩,
   ⟨sx [] fun b => { b with hbm := [(5, 1)] }, 0xA5020060, 2, by decide +kernel⟩,
   ⟨sx [], 0xA503001F, 3, by decide +kernel⟩,
   ⟨sx [], 0xA5040000, 4, by decide +kernel⟩,
   ⟨sx [] fun b => { b with resets := [⟨0, 0, 0, false, 0, false⟩], now := 1 }, 0xA5040000, 4, by decide +kernel⟩,
   ⟨sx [] fun b => { b with resets := [⟨4, 0, 0, false, 0, false⟩] }, 0xA5020060, 2, ⟨4, 0, 0, false, 0, false⟩,
      by decide +kernel⟩,
   ⟨sx [] fun b => { b with resets := [⟨4, 0, 0, true, 0, false⟩] }, 0xA503001F, 3, ⟨4, 0, 0, true, 0, false⟩,
      by decide +kernel⟩,
   ⟨sx [(.PWR_DOM_STATUS_state, 159, 0)], 0xA5020060, 2, by decide +kernel⟩,
   ⟨sx [(.PWR_DOM_STATUS_state, 31, 0)], 0xA503001F, 3, by decide +kernel⟩,
   ⟨sx [(.RSTC_CAUSE_level, 0, 1), (.RSTC_CAUSE_src, 0, 6)] fun b => { b with resets := [⟨1, 0, 0, false, 5, false⟩], now := 5 },
      0xA5010000, 1, ⟨1, 0, 0, false, 5, false⟩, by decide +kernel⟩,
   ⟨sx [] fun b => { b with resetLow := true }, by decide +kernel⟩,
   ⟨sx [] fun b => { b with powerHold := true }, by decide +kernel⟩⟩

theorem wit_ResetRelease :
    (∃ (s : State), s.blk.flag Fld.RSTC_WDT_CTL_en 0 = true) ∧
    (∃ (s : State), s.blk.tripped = false ∧ s.blk.jtagActs ≠ JtagInstr.extest) ∧
    (∃ (s : State), s.blk.tripped = false ∧ s.blk.clockBad ClockId.pcie = false) ∧
    (∃ (s : State) (c : ClockId), (c = ClockId.ref ∨ c = ClockId.mref ∨ c = ClockId.time ∨ c = ClockId.mgmt) ∧
      s.blk.tripped = false ∧ s.blk.clockBad c = false ∧ s.blk.resets = []) ∧
    (∃ (s : State) (c : ClockId), (c = ClockId.ref ∨ c = ClockId.mref ∨ c = ClockId.time ∨ c = ClockId.mgmt) ∧
      s.blk.tripped = false ∧ s.blk.clockBad c = false ∧ s.blk.resets = []) ∧
    (∃ (s : State) (c : ClockId), (c = ClockId.ref ∨ c = ClockId.mref ∨ c = ClockId.time ∨ c = ClockId.mgmt) ∧
      s.blk.tripped = false ∧ s.blk.clockBad c = false ∧ s.blk.resets = []) ∧
    (∃ (s : State) (c : ClockId), (c = ClockId.ref ∨ c = ClockId.mref ∨ c = ClockId.time ∨ c = ClockId.mgmt) ∧
      s.blk.tripped = false ∧ s.blk.clockBad c = false ∧ s.blk.resets = []) ∧
    (∃ (s : State), s.blk.tripped = false) ∧
    (∃ (s : State) (r : ResetRun), s.blk.resets = [r] ∧ r.released = false ∧ s.blk.mayRelease r = true ∧ r.level ≤ 1) ∧
    (∃ (s : State) (r : ResetRun) (t : TileId), s.blk.resets = [r] ∧ r.released = false ∧ s.blk.mayRelease r = true ∧
      r.level = 3 ∧ r.tile = ↑t ∧ s.blk.domState ↑t = 3) ∧
    (∃ (s : State) (d : DieId) (e k : Nat), ↑d ∈ s.blk.tableLoads ∧ s.blk.domOn (156 + ↑d) = true ∧
      s.blk.tblWaits = [] ∧ (∀ x ∈ s.blk.loadDue, Blk.loadDie x.1 ≠ ↑d) ∧ s.blk.tableSource ↑d = some e ∧
      Tab.wf (fun _ => 0) s.blk.tables = true ∧ k < 9437184) :=
  ⟨⟨sx [(.RSTC_WDT_CTL_en, 0, 1)], by decide +kernel⟩,
   ⟨sx [], by decide +kernel⟩,
   ⟨sx [], by decide +kernel⟩,
   ⟨sx [], .ref, by decide +kernel⟩,
   ⟨sx [], .mref, by decide +kernel⟩,
   ⟨sx [], .time, by decide +kernel⟩,
   ⟨sx [], .mgmt, by decide +kernel⟩,
   ⟨sx [(.RSTC_CLK_STATUS_hbm_pll, 0, 15)], by decide +kernel⟩,
   ⟨sx [] fun b => { b with resets := [⟨1, 0, 0, false, 0, false⟩], startDue := false }, ⟨1, 0, 0, false, 0, false⟩,
      by decide +kernel⟩,
   ⟨sx [(.PWR_DOM_STATUS_state, 31, 3), (.RSTC_TILE_RST_tile, 0, 2 ^ 31)] fun b => { b with resets := [⟨3, 0, 31, false, 0, false⟩] },
      ⟨3, 0, 31, false, 0, false⟩, 31, by decide +kernel⟩,
   ⟨sx [] fun b => { b with tableLoads := [3], tables := [(9437183, 5)] }, 3, 0, 9437183, by decide +kernel⟩⟩

theorem wit_PowerAndSleep :
    (∃ (s : State) (n : DomainId), n < 160 ∧ s.blk.bist = none ∧ s.blk.needsOn ↑n = true ∧
      s.blk.fld Fld.PWR_SLEEP_target 0 = 0 ∧ s.blk.domState ↑n = 0) ∧
    (∃ (s : State) (n : DomainId), n < 160 ∧ s.blk.bist = none ∧ s.blk.needsOn ↑n = false) ∧
    (∃ (s : State) (n : DomainId) (m : Nat), n < 160 ∧ s.blk.bist = none ∧ m < 160 ∧ ↑n ∈ domNeeds m ∧
      s.blk.domState m ≠ 0) ∧
    (∃ (s : State) (n : DomainId), n < 160 ∧ s.blk.bist = none ∧ (∀ m < 160, ↑n ∈ domNeeds m → s.blk.domState m = 0) ∧
      (↑n < 64 ∨ 96 ≤ ↑n ∧ ↑n < 108)) ∧
    (∃ (s : State) (n : DomainId), n < 160 ∧ s.blk.bist = none ∧ (∀ m < 160, ↑n ∈ domNeeds m → s.blk.domState m = 0) ∧
      (↑n < 64 ∨ 96 ≤ ↑n ∧ ↑n < 108)) ∧
    (∃ (s : State) (n : Nat), (∀ m < 160, s.blk.domState m ≠ 2) ∧
      List.find? (fun n => s.blk.needsOn n) s.blk.powerQueue = some n) ∧
    (∃ (s : State) (n : DomainId), s.blk.domState ↑n = 2 ∧ 96 ≤ ↑n ∧ ↑n < 108) ∧
    (∃ (s : State) (n : DomainId), s.blk.domState ↑n = 2 ∧ 64 ≤ ↑n ∧ ↑n < 96) ∧
    (∃ (s : State) (t : TileId), s.blk.domState ↑t = 0 ∧ List.filter (inSlice t) s.blk.copies = []) ∧
    (∃ (s : State) (t : TileId) (key : Nat) (c : CopyRec), s.blk.domState ↑t = 0 ∧
      List.filter (inSlice t) s.blk.copies = [(key, c)] ∧ s.blk.copy? key = some c ∧
      (List.any s.blk.feld fun kv => kv.2.tx.any fun x => decide (x.copy = key)) = false) ∧
    (∃ (s : State) (t : TileId), s.blk.domState ↑t ≠ 0) ∧
    (∃ (s : State) (v : BitVec 2), s.blk.sleepRefused v.toNat = true) ∧
    (∃ (s : State) (v : BitVec 2), s.blk.sleepRefused v.toNat = true) ∧
    (∃ (s : State) (v : BitVec 2), s.blk.sleepRefused v.toNat = false ∧ v.toNat ≠ s.blk.fld Fld.PWR_SLEEP_state 0) ∧
    (∃ (s : State) (v : BitVec 2), s.blk.sleepRefused v.toNat = false ∧ v.toNat ≠ s.blk.fld Fld.PWR_SLEEP_state 0) ∧
    (∃ (s : State) (v : BitVec 2), s.blk.sleepRefused v.toNat = false ∧ v.toNat = s.blk.fld Fld.PWR_SLEEP_state 0) ∧
    (∃ (s : State), s.blk.flag Fld.PWR_SLEEP_busy 0 = true ∧ s.blk.powerQueue = [] ∧
      (∀ n < 160, s.blk.domState n ≠ 2) ∧ s.blk.fld Fld.PWR_SLEEP_target 0 ≠ 1) :=
  ⟨⟨sx [(.PWR_DOM_STATUS_state, 31, 0), (.PWR_DOM_CTL_on, 31, 0)], 31, by decide +kernel⟩,
   ⟨sx [(.PWR_DOM_STATUS_state, 159, 0)], 31, by decide +kernel⟩,
   ⟨sx [], 159, 31, by decide +kernel⟩,
   ⟨sx [(.PWR_DOM_STATUS_state, 95, 0), (.PWR_DOM_STATUS_state, 63, 0)], 31, by decide +kernel⟩,
   ⟨sx [], 107, by decide +kernel⟩,
   ⟨sx [(.PWR_DOM_STATUS_state, 31, 0), (.PWR_DOM_STATUS_state, 40, 0), (.PWR_DOM_STATUS_state, 8, 0)] fun b => { b with powerQueue := [40, 31] },
      31, by decide +kernel⟩,
   ⟨sx [(.PWR_DOM_STATUS_state, 107, 2)], 107, by decide +kernel⟩,
   ⟨sx [(.PWR_DOM_STATUS_state, 95, 2)], 95, by decide +kernel⟩,
   ⟨sx [(.PWR_DOM_STATUS_state, 31, 0)] fun b => { b with copies := [(2, cp .held 4)] }, 31, by decide +kernel⟩,
   ⟨sx [(.PWR_DOM_STATUS_state, 31, 0)] fun b => { b with copies := [(7, { cp .written 768 with cells := [458752], refs := 1, enqueued := true })], basalt := [(3, { BasaltDie.reset with cells := [(458752, ⟨true, 2⟩)] })], queues := [(49216, [⟨7, 64, 1, none, 0, 0, false⟩])] },
      31, 7, { cp .written 768 with cells := [458752], refs := 1, enqueued := true }, by decide +kernel⟩,
   ⟨sx [] fun b => { b with copies := [(7, { cp .written 1020 with cells := [458752] })] }, 31, by decide +kernel⟩,
   ⟨sx [(.PWR_SLEEP_busy, 0, 1)], 0, by decide +kernel⟩,
   ⟨sx [(.COL_STATUS_open, 0, 1)], 1, by decide +kernel⟩,
   ⟨sx [], 3, by decide +kernel⟩,
   ⟨sx [], 1, by decide +kernel⟩,
   ⟨sx [(.PWR_SLEEP_state, 0, 2)], 2, by decide +kernel⟩,
   ⟨sx [(.PWR_SLEEP_busy, 0, 1), (.PWR_SLEEP_target, 0, 3)], by decide +kernel⟩⟩


end P12

namespace P13

/-- A state whose Obsidian command runs, with fuses. -/
def oc (op index : Nat) (path : Path) (fz : Fuses) (fs : List (Fld × Nat × Nat)) (f : Blk → Blk := id) : State :=
  let s := sx ([(.OBS_CMD_STATUS_busy, 0, 1)] ++ fs) fun b => f { b with obsCmd := some (op, index, path) }
  { s with fuses := fz }

/-- Fuses in a state of the life cycle. -/
def lc (n : Nat) : Fuses := { Fuses.blank with lc := n }

/-- The first word of the command data. -/
def dat (v : Nat) : List (Fld × Nat × Nat) := [(.OBS_CMD_DATA_data, 0, v)]

/-- An image has loaded from flash whose containers have key 1 and no sections. -/
def key1 (b : Blk) : Blk :=
  { b with heldDigests := [(0, [1])], flash := [(0x1000006, 0), (0x1000007, 0), (0x100002C, 1)] }

/-- A key and a signature of it that unlocks RMA. -/
def rmaData : List (Fld × Nat × Nat) := (List.range 64).map fun w => (.OBS_CMD_DATA_data, w, 0x4a39a8b3b71eca85faf322d61aee4464c9cb02cfbcc85e645c309c225a2d92ae1383d5861ff8d65b09d4c1a4be9acb47871eed26b093430b77ef138f18e7d77257ad45430952e3e57fb2f34be4c878d4e26f0afbca6e130fd543d3b01e8983feb00000000000000d5a6d7ea7e045cb4e441b3c40949223cd73ef0e564a5330121469e5f395940e31657bf0180687045f18facea35e20183d5a6d7ea7e045cb4e441b3c40949223cd73ef0e564a5330121469e5f395940e31657bf0180687045f18facea35e201830000000000000000000000000000000000000000000000000000000000000000000000000000000000000000000000000000000000000000 / 2 ^ (32 * (63 - w)) % 2 ^ 32)

/-- The key without the signature. -/
def keyData : List (Fld × Nat × Nat) := rmaData.take 26

/-- Fuses whose slot 4 has the hash of that key. -/
def rmaFuses : Fuses := { lc 3 with keys := [(4, 0xa240025735837e80f5ef770c4009943fa8d2da1bd7c34860378d8ecb0fcbbc229d51bb4ab0a8fb62811291c5fa168a75)], secret := some 5 }

theorem wit_ObsidianChecks :
    (∃ (s : State) (op index : Nat) (path : Path) (fa : Option Nat) (i : Instr),
      (op, i) ∈ [(1, Instr.lcAdvance fa), (2, Instr.rmaUnlock fa), (3, Instr.keySet fa), (4, Instr.keyRevoke fa), (5, Instr.svnRaise fa), (6, Instr.rstmapSet fa), (7, Instr.repairFuse fa), (8, Instr.attest)] ∧
      s.blk.obsCmd = some (op, index, path) ∧ s.blk.tripped = false ∧ s.fuses.lc ∉ Blk.obsStates op) ∧
    (∃ (s : State) (op index : Nat) (path : Path) (fa : Option Nat) (i : Instr),
      (op, i) ∈ [(1, Instr.lcAdvance fa), (2, Instr.rmaUnlock fa), (3, Instr.keySet fa), (4, Instr.keyRevoke fa), (5, Instr.svnRaise fa), (6, Instr.rstmapSet fa), (7, Instr.repairFuse fa), (8, Instr.attest)] ∧
      s.blk.obsCmd = some (op, index, path) ∧ s.blk.tripped = false ∧ s.fuses.lc ∉ Blk.obsStates op) ∧
    (∃ (s : State) (op index : Nat) (path : Path) (fa : Option Nat) (i : Instr),
      (op, i) ∈ [(1, Instr.lcAdvance fa), (2, Instr.rmaUnlock fa), (3, Instr.keySet fa), (4, Instr.keyRevoke fa), (5, Instr.svnRaise fa), (6, Instr.rstmapSet fa), (7, Instr.repairFuse fa), (8, Instr.attest)] ∧
      s.blk.obsCmd = some (op, index, path) ∧ s.blk.tripped = false ∧ s.fuses.lc ∉ Blk.obsStates op) ∧
    (∃ (s : State) (op index : Nat) (path : Path) (fa : Option Nat) (i : Instr),
      (op, i) ∈ [(1, Instr.lcAdvance fa), (2, Instr.rmaUnlock fa), (3, Instr.keySet fa), (4, Instr.keyRevoke fa), (5, Instr.svnRaise fa), (6, Instr.rstmapSet fa), (7, Instr.repairFuse fa), (8, Instr.attest)] ∧
      s.blk.obsCmd = some (op, index, path) ∧ s.blk.tripped = false ∧ s.fuses.lc ∉ Blk.obsStates op) ∧
    (∃ (s : State) (op index : Nat) (path : Path) (fa : Option Nat) (i : Instr),
      (op, i) ∈ [(1, Instr.lcAdvance fa), (2, Instr.rmaUnlock fa), (3, Instr.keySet fa), (4, Instr.keyRevoke fa), (5, Instr.svnRaise fa), (6, Instr.rstmapSet fa), (7, Instr.repairFuse fa), (8, Instr.attest)] ∧
      s.blk.obsCmd = some (op, index, path) ∧ s.blk.tripped = false ∧ s.fuses.lc ∈ Blk.obsStates op ∧
      (s.fuses.lc = 2 ∨ s.fuses.lc = 3) ∧ op ≤ 7 ∧ path ≠ Path.mgmt) ∧
    (∃ (s : State) (op index : Nat) (path : Path) (fa : Option Nat) (i : Instr),
      (op, i) ∈ [(1, Instr.lcAdvance fa), (2, Instr.rmaUnlock fa), (3, Instr.keySet fa), (4, Instr.keyRevoke fa), (5, Instr.svnRaise fa), (6, Instr.rstmapSet fa), (7, Instr.repairFuse fa), (8, Instr.attest)] ∧
      s.blk.obsCmd = some (op, index, path) ∧ s.blk.tripped = false ∧ s.fuses.lc ∈ Blk.obsStates op ∧
      (s.fuses.lc = 2 ∨ s.fuses.lc = 3) ∧ op ≤ 7 ∧ path ≠ Path.mgmt) ∧
    (∃ (s : State) (op index : Nat) (path : Path) (fa : Option Nat) (i : Instr),
      (op, i) ∈ [(1, Instr.lcAdvance fa), (2, Instr.rmaUnlock fa), (3, Instr.keySet fa), (4, Instr.keyRevoke fa), (5, Instr.svnRaise fa), (6, Instr.rstmapSet fa), (7, Instr.repairFuse fa), (8, Instr.attest)] ∧
      s.blk.obsCmd = some (op, index, path) ∧ s.blk.tripped = false ∧ s.fuses.lc ∈ Blk.obsStates op ∧
      (op = 8 ∨ path = Path.mgmt) ∧ s.blk.obsRefuses = true) ∧
    (∃ (s : State) (op index : Nat) (path : Path) (fa : Option Nat) (i : Instr),
      (op, i) ∈ [(1, Instr.lcAdvance fa), (2, Instr.rmaUnlock fa), (3, Instr.keySet fa), (4, Instr.keyRevoke fa), (5, Instr.svnRaise fa), (6, Instr.rstmapSet fa), (7, Instr.repairFuse fa), (8, Instr.attest)] ∧
      s.blk.obsCmd = some (op, index, path) ∧ s.blk.tripped = false ∧ s.fuses.lc ∈ Blk.obsStates op ∧
      (op = 8 ∨ path = Path.mgmt) ∧ s.blk.obsRefuses = true) :=
  ⟨⟨oc 1 0 .mgmt (lc 3) [], 1, 0, .mgmt, none, .lcAdvance none, by decide +kernel⟩,
   ⟨oc 2 0 .mgmt (lc 2) [], 2, 0, .mgmt, none, .rmaUnlock none, by decide +kernel⟩,
   ⟨oc 3 0 .mgmt (lc 3) [], 3, 0, .mgmt, none, .keySet none, by decide +kernel⟩,
   ⟨oc 4 0 .mgmt (lc 0) [], 4, 0, .mgmt, none, .keyRevoke none, by decide +kernel⟩,
   ⟨oc 5 0 .host (lc 3) [], 5, 0, .host, none, .svnRaise none, by decide +kernel⟩,
   ⟨oc 6 0 .jtag (lc 2) [], 6, 0, .jtag, none, .rstmapSet none, by decide +kernel⟩,
   ⟨oc 7 0 .mgmt (lc 3) [] fun b => { b with obsRefuses := true }, 7, 0, .mgmt, none, .repairFuse none,
      by decide +kernel⟩,
   ⟨oc 8 0 .host (lc 3) [] fun b => { b with obsRefuses := true }, 8, 0, .host, none, .attest, by decide +kernel⟩⟩

theorem wit_LifeCycleAndKeys :
    (∃ (s : State) (index : Nat) (path : Path), s.blk.obsCmd = some (1, index, path) ∧ s.blk.tripped = false ∧
      s.blk.obsCheck s.fuses 1 path = 0 ∧ beAt s.blk.obsData 0 1 ≠ s.fuses.lc + 1) ∧
    (∃ (s : State) (index : Nat) (path : Path), s.blk.obsCmd = some (1, index, path) ∧ s.blk.tripped = false ∧
      s.blk.obsCheck s.fuses 1 path = 0 ∧ beAt s.blk.obsData 0 1 = s.fuses.lc + 1 ∧ s.fuses.lc = 1 ∧
      s.fuses.slots % 16 = 0) ∧
    (∃ (s : State) (index : Nat) (path : Path), s.blk.obsCmd = some (1, index, path) ∧ s.blk.tripped = false ∧
      s.blk.obsCheck s.fuses 1 path = 0 ∧ beAt s.blk.obsData 0 1 = s.fuses.lc + 1 ∧ s.fuses.lc < 4 ∧
      (s.fuses.lc = 1 → s.fuses.slots % 16 ≠ 0) ∧ s.fuses.hasBank (16 + s.fuses.lc) = true) ∧
    (∃ (s : State) (index : Nat) (path : Path), s.blk.obsCmd = some (1, index, path) ∧ s.blk.tripped = false ∧
      s.blk.obsCheck s.fuses 1 path = 0 ∧ beAt s.blk.obsData 0 1 = s.fuses.lc + 1 ∧ s.fuses.lc < 4 ∧
      (s.fuses.lc = 1 → s.fuses.slots % 16 ≠ 0) ∧ s.fuses.hasBank (16 + s.fuses.lc) = true) ∧
    (∃ (s : State) (index : Nat) (path : Path), s.blk.obsCmd = some (1, index, path) ∧ s.blk.tripped = false ∧
      s.blk.obsCheck s.fuses 1 path = 0 ∧ beAt s.blk.obsData 0 1 = s.fuses.lc + 1 ∧ s.fuses.lc < 4 ∧
      (s.fuses.lc = 1 → s.fuses.slots % 16 ≠ 0) ∧ s.fuses.lc ≠ 1) ∧
    (∃ (s : State) (index : Nat) (path : Path), s.blk.obsCmd = some (3, index, path) ∧ s.blk.tripped = false ∧
      s.blk.obsCheck s.fuses 3 path = 0 ∧ 4 < index) ∧
    (∃ (s : State) (index : Nat) (path : Path), s.blk.obsCmd = some (3, index, path) ∧ s.blk.tripped = false ∧
      s.blk.obsCheck s.fuses 3 path = 0 ∧ index ≤ 4 ∧ s.fuses.programmed index = true) ∧
    (∃ (s : State) (index : Nat) (path : Path), s.blk.obsCmd = some (3, index, path) ∧ s.blk.tripped = false ∧
      s.blk.obsCheck s.fuses 3 path = 0 ∧ index ≤ 4 ∧ s.fuses.programmed index = false ∧ s.fuses.hasBank index = true) ∧
    (∃ (s : State) (index : Nat) (path : Path), s.blk.obsCmd = some (3, index, path) ∧ s.blk.tripped = false ∧
      s.blk.obsCheck s.fuses 3 path = 0 ∧ index ≤ 4 ∧ s.fuses.programmed index = false) ∧
    (∃ (s : State) (index : Nat) (path : Path), s.blk.obsCmd = some (4, index, path) ∧ s.blk.tripped = false ∧
      s.blk.obsCheck s.fuses 4 path = 0 ∧
      (3 < index ∨ s.fuses.programmed index = false ∨ s.fuses.revoked.testBit index = true)) ∧
    (∃ (s : State) (index : Nat) (path : Path), s.blk.obsCmd = some (4, index, path) ∧ s.blk.tripped = false ∧
      s.blk.obsCheck s.fuses 4 path = 0 ∧
      (3 < index ∨ s.fuses.programmed index = false ∨ s.fuses.revoked.testBit index = true)) ∧
    (∃ (s : State) (index : Nat) (path : Path), s.blk.obsCmd = some (4, index, path) ∧ s.blk.tripped = false ∧
      s.blk.obsCheck s.fuses 4 path = 0 ∧
      (3 < index ∨ s.fuses.programmed index = false ∨ s.fuses.revoked.testBit index = true)) ∧
    (∃ (s : State) (index : Nat) (path : Path), s.blk.obsCmd = some (4, index, path) ∧ s.blk.tripped = false ∧
      s.blk.obsCheck s.fuses 4 path = 0 ∧ index ≤ 3 ∧ s.fuses.programmed index = true ∧
      s.fuses.revoked.testBit index = false ∧
      (∀ k < 4, k ≠ index → s.fuses.programmed k = true → s.fuses.revoked.testBit k = true)) ∧
    (∃ (s : State) (index : Nat) (path : Path) (k : Nat), s.blk.obsCmd = some (4, index, path) ∧
      s.blk.tripped = false ∧ s.blk.obsCheck s.fuses 4 path = 0 ∧ index ≤ 3 ∧ s.fuses.programmed index = true ∧
      s.fuses.revoked.testBit index = false ∧ k < 4 ∧ k ≠ index ∧ s.fuses.programmed k = true ∧
      s.fuses.revoked.testBit k = false ∧
      ((s.blk.keptContainers true).any fun rd => decide (rdNat rd 44 1 = index)) = true) ∧
    (∃ (s : State) (index : Nat) (path : Path) (k : Nat), s.blk.obsCmd = some (4, index, path) ∧
      s.blk.tripped = false ∧ s.blk.obsCheck s.fuses 4 path = 0 ∧ index ≤ 3 ∧ s.fuses.programmed index = true ∧
      s.fuses.revoked.testBit index = false ∧ k < 4 ∧ k ≠ index ∧ s.fuses.programmed k = true ∧
      s.fuses.revoked.testBit k = false ∧ (∀ rd ∈ s.blk.keptContainers true, rdNat rd 44 1 ≠ index)) :=
  ⟨⟨oc 1 0 .mgmt (lc 0) (dat 0x02000000), 0, .mgmt, by decide +kernel⟩,
   ⟨oc 1 0 .host (lc 1) (dat 0x02000000), 0, .host, by decide +kernel⟩,
   ⟨oc 1 0 .host { lc 1 with keys := [(3, 9)] } (dat 0x02000000), 0, .host, by decide +kernel⟩,
   ⟨oc 1 0 .mgmt (lc 2) (dat 0x03000000), 0, .mgmt, by decide +kernel⟩,
   ⟨oc 1 0 .mgmt (lc 2) (dat 0x03000000), 0, .mgmt, by decide +kernel⟩,
   ⟨oc 3 5 .mgmt (lc 2) [], 5, .mgmt, by decide +kernel⟩,
   ⟨oc 3 4 .mgmt { lc 2 with keys := [(4, 9)] } [], 4, .mgmt, by decide +kernel⟩,
   ⟨oc 3 4 .mgmt (lc 2) (dat 0x55), 4, .mgmt, by decide +kernel⟩,
   ⟨oc 3 0 .mgmt (lc 2) (dat 0x55), 0, .mgmt, by decide +kernel⟩,
   ⟨oc 4 4 .mgmt { lc 2 with keys := [(4, 9)] } [], 4, .mgmt, by decide +kernel⟩,
   ⟨oc 4 3 .mgmt (lc 2) [], 3, .mgmt, by decide +kernel⟩,
   ⟨oc 4 3 .mgmt { lc 2 with keys := [(3, 9)], revoked := 8 } [], 3, .mgmt, by decide +kernel⟩,
   ⟨oc 4 3 .mgmt { lc 2 with keys := [(2, 8), (3, 9)], revoked := 4 } [], 3, .mgmt, by decide +kernel⟩,
   ⟨oc 4 1 .mgmt { lc 2 with keys := [(1, 8), (3, 9)] } [] key1, 1, .mgmt, 3, by decide +kernel⟩,
   ⟨oc 4 3 .mgmt { lc 2 with keys := [(1, 8), (3, 9)] } [] key1, 3, .mgmt, 1, by decide +kernel⟩⟩

theorem wit_FusesRaised :
    (∃ (s : State) (index : Nat) (path : Path), s.blk.obsCmd = some (5, index, path) ∧ s.blk.tripped = false ∧
      s.blk.obsCheck s.fuses 5 path = 0 ∧ s.fuses.svn.length = 3 ∧
      (2 < index ∨ beAt s.blk.obsData 0 4 ≤ s.fuses.svn.getD index 0 ∨ 64 < beAt s.blk.obsData 0 4)) ∧
    (∃ (s : State) (index : Nat) (path : Path), s.blk.obsCmd = some (5, index, path) ∧ s.blk.tripped = false ∧
      s.blk.obsCheck s.fuses 5 path = 0 ∧ s.fuses.svn.length = 3 ∧
      (2 < index ∨ beAt s.blk.obsData 0 4 ≤ s.fuses.svn.getD index 0 ∨ 64 < beAt s.blk.obsData 0 4)) ∧
    (∃ (s : State) (index : Nat) (path : Path), s.blk.obsCmd = some (5, index, path) ∧ s.blk.tripped = false ∧
      s.blk.obsCheck s.fuses 5 path = 0 ∧ s.fuses.svn.length = 3 ∧
      (2 < index ∨ beAt s.blk.obsData 0 4 ≤ s.fuses.svn.getD index 0 ∨ 64 < beAt s.blk.obsData 0 4)) ∧
    (∃ (s : State) (index : Nat) (path : Path), s.blk.obsCmd = some (5, index, path) ∧ s.blk.tripped = false ∧
      s.blk.obsCheck s.fuses 5 path = 0 ∧ s.fuses.svn.length = 3 ∧ index ≤ 2 ∧
      s.fuses.svn.getD index 0 < beAt s.blk.obsData 0 4 ∧ beAt s.blk.obsData 0 4 ≤ 64 ∧
      (∀ rd ∈ s.blk.keptContainers false, kindOf rd = index + 1 → beAt s.blk.obsData 0 4 ≤ rdNat rd 20 4)) ∧
    (∃ (s : State) (index : Nat) (path : Path) (k : Nat), s.blk.obsCmd = some (5, index, path) ∧
      s.blk.tripped = false ∧ s.blk.obsCheck s.fuses 5 path = 0 ∧ s.fuses.svn.length = 3 ∧ index ≤ 2 ∧
      s.fuses.svn.getD index 0 < beAt s.blk.obsData 0 4 ∧ beAt s.blk.obsData 0 4 ≤ 64 ∧
      (∀ rd ∈ s.blk.keptContainers false, kindOf rd = index + 1 → beAt s.blk.obsData 0 4 ≤ rdNat rd 20 4) ∧
      s.fuses.svn.getD index 0 + k < beAt s.blk.obsData 0 4) ∧
    (∃ (s : State) (index : Nat) (path : Path), s.blk.obsCmd = some (6, index, path) ∧ s.blk.tripped = false ∧
      s.blk.obsCheck s.fuses 6 path = 0 ∧
      (7 < index ∨ (s.fuses.levels.find index).isSome = true ∨ 4 < beAt s.blk.obsData 0 1 % 8)) ∧
    (∃ (s : State) (index : Nat) (path : Path), s.blk.obsCmd = some (6, index, path) ∧ s.blk.tripped = false ∧
      s.blk.obsCheck s.fuses 6 path = 0 ∧
      (7 < index ∨ (s.fuses.levels.find index).isSome = true ∨ 4 < beAt s.blk.obsData 0 1 % 8)) ∧
    (∃ (s : State) (index : Nat) (path : Path), s.blk.obsCmd = some (6, index, path) ∧ s.blk.tripped = false ∧
      s.blk.obsCheck s.fuses 6 path = 0 ∧
      (7 < index ∨ (s.fuses.levels.find index).isSome = true ∨ 4 < beAt s.blk.obsData 0 1 % 8)) ∧
    (∃ (s : State) (index : Nat) (path : Path), s.blk.obsCmd = some (6, index, path) ∧ s.blk.tripped = false ∧
      s.blk.obsCheck s.fuses 6 path = 0 ∧ index ≤ 7 ∧ s.fuses.levels.find index = none ∧
      beAt s.blk.obsData 0 1 % 8 ≤ 4 ∧ s.fuses.hasBank (32 + index) = true) ∧
    (∃ (s : State) (index : Nat) (path : Path), s.blk.obsCmd = some (7, index, path) ∧ s.blk.tripped = false ∧
      s.blk.obsCheck s.fuses 7 path = 0) ∧
    (∃ (s : State) (index : Nat) (path : Path), s.blk.obsCmd = some (7, index, path) ∧ s.blk.tripped = false ∧
      s.blk.obsCheck s.fuses 7 path = 0) ∧
    (∃ (s : State) (index : Nat) (path : Path), s.blk.obsCmd = some (8, index, path) ∧ s.blk.tripped = false ∧
      s.blk.obsCheck s.fuses 8 path = 0 ∧ (s.fuses.secret = none ∨ s.fuses.destroyed = true)) ∧
    (∃ (s : State) (index : Nat) (path : Path), s.blk.obsCmd = some (8, index, path) ∧ s.blk.tripped = false ∧
      s.blk.obsCheck s.fuses 8 path = 0 ∧ s.blk.flag Fld.OBS_LC_scan 0 = true) ∧
    (∃ (s : State) (index : Nat) (path : Path) (k : Nat), s.blk.obsCmd = some (8, index, path) ∧
      s.blk.tripped = false ∧ s.blk.obsCheck s.fuses 8 path = 0 ∧ s.fuses.secret = some k ∧ s.fuses.destroyed = false ∧
      s.blk.flag Fld.OBS_LC_scan 0 = false) ∧
    (∃ (s : State) (index : Nat) (path : Path), s.blk.obsCmd = some (2, index, path) ∧ s.blk.tripped = false ∧
      s.blk.obsCheck s.fuses 2 path = 0 ∧ s.blk.fld Fld.IMG_BOOT_phase 0 ≠ 3) ∧
    (∃ (s : State) (index : Nat) (path : Path), s.blk.obsCmd = some (2, index, path) ∧ s.blk.tripped = false ∧
      s.blk.obsCheck s.fuses 2 path = 0 ∧ s.blk.fld Fld.IMG_BOOT_phase 0 = 3 ∧
      s.fuses.keys.find 4 ≠ some (sha384 (List.take 97 s.blk.obsData))) ∧
    (∃ (s : State) (index : Nat) (path : Path), s.blk.obsCmd = some (2, index, path) ∧ s.blk.tripped = false ∧
      s.blk.obsCheck s.fuses 2 path = 0 ∧ s.blk.fld Fld.IMG_BOOT_phase 0 = 3 ∧
      s.fuses.keys.find 4 = some (sha384 (List.take 97 s.blk.obsData)) ∧ beAt s.blk.obsData 0 1 ≠ 4) ∧
    (∃ (s : State) (index : Nat) (path : Path) (digest : Nat), s.blk.obsCmd = some (2, index, path) ∧
      s.blk.tripped = false ∧ s.blk.obsCheck s.fuses 2 path = 0 ∧ s.blk.fld Fld.IMG_BOOT_phase 0 = 3 ∧
      digest = sha384 (List.flatMap (fun w => beBytes 4 (s.blk.fld Fld.OBS_NONCE_nonce w)) (List.range 12) ++ beBytes 8 (s.blk.fld Fld.OBS_DEV_ID_id 0) ++ [82, 77, 65]) ∧
      s.fuses.keys.find 4 = some (sha384 (List.take 97 s.blk.obsData)) ∧ beAt s.blk.obsData 0 1 = 4 ∧
      ecdsaOk (beAt s.blk.obsData 1 48, beAt s.blk.obsData 49 48) digest (beAt s.blk.obsData 104 48) (beAt s.blk.obsData 152 48) = false) ∧
    (∃ (s : State) (index : Nat) (path : Path) (digest : Nat), s.blk.obsCmd = some (2, index, path) ∧
      s.blk.tripped = false ∧ s.blk.obsCheck s.fuses 2 path = 0 ∧ s.blk.fld Fld.IMG_BOOT_phase 0 = 3 ∧
      digest = sha384 (List.flatMap (fun w => beBytes 4 (s.blk.fld Fld.OBS_NONCE_nonce w)) (List.range 12) ++ beBytes 8 (s.blk.fld Fld.OBS_DEV_ID_id 0) ++ [82, 77, 65]) ∧
      s.fuses.keys.find 4 = some (sha384 (List.take 97 s.blk.obsData)) ∧ beAt s.blk.obsData 0 1 = 4 ∧
      ecdsaOk (beAt s.blk.obsData 1 48, beAt s.blk.obsData 49 48) digest (beAt s.blk.obsData 104 48) (beAt s.blk.obsData 152 48) = true ∧
      s.fuses.hasBank (16 + s.fuses.lc) = true) :=
  ⟨⟨oc 5 3 .mgmt (lc 2) (dat 1), 3, .mgmt, by decide +kernel⟩,
   ⟨oc 5 2 .mgmt { lc 2 with svn := [0, 0, 7] } (dat 7), 2, .mgmt, by decide +kernel⟩,
   ⟨oc 5 2 .mgmt (lc 2) (dat 65), 2, .mgmt, by decide +kernel⟩,
   ⟨oc 5 2 .mgmt { lc 2 with svn := [0, 0, 7] } (dat 64) key1, 2, .mgmt, by decide +kernel⟩,
   ⟨oc 5 0 .mgmt { lc 2 with svn := [1, 0, 7] } (dat 5), 0, .mgmt, 3, by decide +kernel⟩,
   ⟨oc 6 8 .mgmt (lc 2) [], 8, .mgmt, by decide +kernel⟩,
   ⟨oc 6 7 .mgmt { lc 2 with levels := [(7, 1)] } [], 7, .mgmt, by decide +kernel⟩,
   ⟨oc 6 7 .mgmt (lc 2) (dat 0x05000000), 7, .mgmt, by decide +kernel⟩,
   ⟨oc 6 7 .mgmt (lc 2) (dat 0x04000000), 7, .mgmt, by decide +kernel⟩,
   ⟨oc 7 0 .mgmt (lc 3) [(.OBS_REPAIR_pending, 0, 5)] fun b => { b with softSram := 5, softHbm := 2 }, 0, .mgmt,
      by decide +kernel⟩,
   ⟨oc 7 0 .mgmt { lc 3 with repairs := 2047 } [(.OBS_REPAIR_pending, 0, 5)] fun b => { b with softSram := 5, softHbm := 2 },
      0, .mgmt, by decide +kernel⟩,
   ⟨oc 8 0 .host (lc 3) [], 0, .host, by decide +kernel⟩,
   ⟨oc 8 0 .host { lc 3 with secret := some 9 } [(.OBS_LC_scan, 0, 1)], 0, .host, by decide +kernel⟩,
   ⟨oc 8 0 .host { lc 3 with secret := some 9 } [], 0, .host, 9, by decide +kernel⟩,
   ⟨oc 2 0 .mgmt (lc 3) [], 0, .mgmt, by decide +kernel⟩,
   ⟨oc 2 0 .mgmt (lc 3) [(.IMG_BOOT_phase, 0, 3)], 0, .mgmt, by decide +kernel⟩,
   ⟨oc 2 0 .mgmt { rmaFuses with keys := [(4, sha384 (List.replicate 97 0))] } [(.IMG_BOOT_phase, 0, 3)], 0, .mgmt,
      by decide +kernel⟩,
   ⟨oc 2 0 .mgmt rmaFuses ([(.IMG_BOOT_phase, 0, 3), (.OBS_NONCE_nonce, 0, 1)] ++ keyData), 0, .mgmt,
      sha384 (((List.range 12).flatMap fun w => beBytes 4 (if w = 0 then 1 else 0)) ++ beBytes 8 0 ++ [0x52, 0x4D, 0x41]),
      by decide +kernel⟩,
   ⟨oc 2 0 .mgmt rmaFuses ([(.IMG_BOOT_phase, 0, 3), (.OBS_NONCE_nonce, 11, 0)] ++ rmaData) (fun b => { b with hbm := [(5, 1)], tables := [(3, 3)] }),
      0, .mgmt,
      sha384 (((List.range 12).flatMap fun w => beBytes 4 (if w = 11 then 0 else 0)) ++ beBytes 8 0 ++ [0x52, 0x4D, 0x41]),
      by decide +kernel⟩⟩

theorem wit_TestAndScrub :
    (∃ (s : State) (n : Nat) (path : Path) (c : Nat), s.blk.obsCmd = some (9, n, path) ∧ s.blk.tripped = false ∧
      s.fuses.lc ≤ 4 ∧ s.blk.bist ≠ some n ∧ s.blk.bistCheck n = c ∧ c ≠ 0) ∧
    (∃ (s : State) (n : Nat) (path : Path) (c : Nat), s.blk.obsCmd = some (9, n, path) ∧ s.blk.tripped = false ∧
      s.fuses.lc ≤ 4 ∧ s.blk.bist ≠ some n ∧ s.blk.bistCheck n = c ∧ c ≠ 0) ∧
    (∃ (s : State) (n : Nat) (path : Path) (x : BistFindings), s.blk.obsCmd = some (9, n, path) ∧
      s.blk.tripped = false ∧ s.fuses.lc ≤ 4 ∧ s.blk.bist = some n ∧ 96 ≤ n ∧ n < 108 ∧ x.pass = true ∧
      s.blk.domState n = 3) ∧
    (∃ (s : State) (n : Nat) (path : Path) (x : BistFindings), s.blk.obsCmd = some (9, n, path) ∧
      s.blk.tripped = false ∧ s.fuses.lc ≤ 4 ∧ s.blk.bist = some n ∧ 96 ≤ n ∧ n < 108 ∧ x.pass = false) ∧
    (∃ (s : State), s.blk.debugOpen = true) ∧
    (∃ (s : State) (d : DieId) (f : Nat) (c : CopyRec), s.blk.copy? (4 * f + ↑d) = some c) ∧
    (∃ (s : State) (d : DieId), (s.blk.tableSource ↑d).isSome = true) ∧
    (∃ (s : State) (x : Fin 2415919104),
      (s.blk.flag Fld.GNS_SCRUB_CTL_en 0 = false ∨ s.blk.stackUp (lineStack ↑x) = false ∨ s.blk.hotLine ↑x = true)) ∧
    (∃ (s : State) (x : Fin 2415919104), s.blk.flag Fld.GNS_SCRUB_CTL_en 0 = true ∧
      s.blk.stackUp (lineStack ↑x) = true ∧ s.blk.hotLine ↑x = false) ∧
    (∃ (s : State) (x : Fin 2415919104), s.blk.flag Fld.GNS_SCRUB_CTL_en 0 = true ∧
      s.blk.stackUp (lineStack ↑x) = true ∧ s.blk.hotLine ↑x = false ∧ s.blk.dupPartner ↑x = none) ∧
    (∃ (s : State) (x : Fin 2415919104), s.blk.flag Fld.GNS_SCRUB_CTL_en 0 = true ∧
      s.blk.stackUp (lineStack ↑x) = true ∧ s.blk.hotLine ↑x = false) ∧
    (∃ (s : State) (x : Fin 2415919104),
      (s.blk.flag Fld.GNS_SCRUB_CTL_en 0 = false ∨ s.blk.stackUp (lineStack ↑x) = false ∨ s.blk.hotLine ↑x = true)) :=
  ⟨⟨oc 9 95 .host (lc 0) [], 95, .host, 0x0D, by decide +kernel⟩,
   ⟨oc 9 160 .host (lc 0) [], 160, .host, 4, by decide +kernel⟩,
   ⟨oc 9 107 .host (lc 0) [(.PWR_DOM_STATUS_state, 107, 3)] fun b => { b with bist := some 107, hbm := [(5, 1)] },
      107, .host, ⟨true, 0, 1, 0, [], true⟩, by decide +kernel⟩,
   ⟨oc 9 107 .host (lc 0) [(.PWR_DOM_STATUS_state, 107, 3)] fun b => { b with bist := some 107, hbm := [(5, 1)] },
      107, .host, ⟨false, 0, 1, 0, [], true⟩, by decide +kernel⟩,
   ⟨sx [(.OBS_LC_dbg_open, 0, 1)] fun b => { b with hbm := [(5, 1)], tables := [(3, 3)], window := [(1, 1)] },
      by decide +kernel⟩,
   ⟨sx [] fun b => { b with copies := [(23, cp .written 768)] }, 3, 5, cp .written 768, by decide +kernel⟩,
   ⟨sx [] fun b => { b with tables := [(3, 3)] }, 3, by decide +kernel⟩,
   ⟨sx [(.GNS_SCRUB_CTL_en, 0, 0)], 2415919103, by decide +kernel⟩,
   ⟨sx [(.GNS_SCRUB_CTL_en, 0, 1)], 2415919103, by decide +kernel⟩,
   ⟨sx [(.GNS_SCRUB_CTL_en, 0, 1)], 2415919103, by decide +kernel⟩,
   ⟨sx [(.GNS_SCRUB_CTL_en, 0, 1), (.GNS_HBM_CE_count, 0, 2 ^ 64 - 1), (.GNS_POISONED_count, 0, 2 ^ 64 - 1)], 0,
      by decide +kernel⟩,
   ⟨sx [(.GNS_SCRUB_CTL_en, 0, 1)] fun b => { b with hot := [(2415919103, ⟨3, [2415919103], 65535, 255, 0, List.replicate 256 9⟩)] },
      2415919103, by decide +kernel⟩⟩


end P13

namespace P14

/-- Ring 1023 enabled with a function, in host memory, three entries given. -/
def ring (func : Nat) : List (Fld × Nat × Nat) :=
  [(.DMA_RING_CFG_en, 1023, 1), (.DMA_RING_CFG_func, 1023, func), (.DMA_RING_HEAD_head, 1023, 2 ^ 32 - 1),
   (.DMA_RING_TAIL_tail, 1023, 2), (.DMA_RING_BASE_base, 1023, 0x1000)]

/-- With Bus Master Enable. -/
def bm (b : Blk) : Blk := { b with busMaster := true }

/-- A frame waits for ring 1023. -/
def hf : HostFrame := ⟨1023, List.replicate 65 7, 2, 1, 5, none⟩
def hfW (b : Blk) : Blk := { bm b with hostRx := [hf] }


/-- 60 bytes of a Xeirrik frame to endpoint 1, its first header byte given: its MAC addresses, its EtherType, 14 bytes of payload. -/
def xb (b0 : Byte) : List Byte :=
  List.replicate 12 2 ++ [0x88, 0xB5, b0, 0, 0, 16, 0, 0, 3, 0, 0, 0, 0, 0, 0, 14] ++ List.replicate 32 0

theorem wit_RingsAndQueues :
    (∃ (s : State) (r : RingId), s.blk.pcieUp = false ∧ s.blk.flag Fld.DMA_RING_CFG_side ↑r = false) ∧
    (∃ (s : State) (q : QueueId), s.blk.pcieUp = false ∧ s.blk.flag Fld.DMA_CQ_CFG_side ↑q = false) ∧
    (∃ (s : State), s.blk.pcieUp = false) ∧
    (∃ (s : State), s.blk.pcieUp = false) ∧
    (∃ (s : State) (r : RingId) (t : BitVec 32), (s.blk.flag Fld.DMA_RING_CFG_side ↑r = true ∨ s.blk.pcieUp = true) ∧
      s.blk.flag Fld.DMA_RING_CFG_en ↑r = true ∧
      (t.toNat + 2 ^ 32 - s.blk.fld Fld.DMA_RING_HEAD_head ↑r) % 2 ^ 32 ≤ s.blk.ringSize ↑r ∧
      (t.toNat + 2 ^ 32 - s.blk.fld Fld.DMA_RING_TAIL_tail ↑r) % 2 ^ 32 < 2 ^ 31) ∧
    (∃ (s : State) (r : RingId) (t : BitVec 32), (s.blk.flag Fld.DMA_RING_CFG_side ↑r = true ∨ s.blk.pcieUp = true) ∧
      (s.blk.flag Fld.DMA_RING_CFG_en ↑r = false ∨ s.blk.ringSize ↑r < (t.toNat + 2 ^ 32 - s.blk.fld Fld.DMA_RING_HEAD_head ↑r) % 2 ^ 32 ∨ 2 ^ 31 ≤ (t.toNat + 2 ^ 32 - s.blk.fld Fld.DMA_RING_TAIL_tail ↑r) % 2 ^ 32)) ∧
    (∃ (s : State) (r : RingId) (t : BitVec 32), (s.blk.flag Fld.DMA_RING_CFG_side ↑r = true ∨ s.blk.pcieUp = true) ∧
      (s.blk.flag Fld.DMA_RING_CFG_en ↑r = false ∨ s.blk.ringSize ↑r < (t.toNat + 2 ^ 32 - s.blk.fld Fld.DMA_RING_HEAD_head ↑r) % 2 ^ 32 ∨ 2 ^ 31 ≤ (t.toNat + 2 ^ 32 - s.blk.fld Fld.DMA_RING_TAIL_tail ↑r) % 2 ^ 32)) ∧
    (∃ (s : State) (r : RingId) (t : BitVec 32), (s.blk.flag Fld.DMA_RING_CFG_side ↑r = true ∨ s.blk.pcieUp = true) ∧
      (s.blk.flag Fld.DMA_RING_CFG_en ↑r = false ∨ s.blk.ringSize ↑r < (t.toNat + 2 ^ 32 - s.blk.fld Fld.DMA_RING_HEAD_head ↑r) % 2 ^ 32 ∨ 2 ^ 31 ≤ (t.toNat + 2 ^ 32 - s.blk.fld Fld.DMA_RING_TAIL_tail ↑r) % 2 ^ 32)) ∧
    (∃ (s : State) (q : QueueId) (t : BitVec 32), (s.blk.flag Fld.DMA_CQ_CFG_side ↑q = true ∨ s.blk.pcieUp = true) ∧
      s.blk.flag Fld.DMA_CQ_CFG_en ↑q = true ∧
      (t.toNat + 2 ^ 32 - s.blk.fld Fld.DMA_CQ_HEAD_head ↑q) % 2 ^ 32 ≤ s.blk.cqSize ↑q ∧
      (t.toNat + 2 ^ 32 - s.blk.cqTail.get 0 ↑q) % 2 ^ 32 < 2 ^ 31) ∧
    (∃ (s : State) (q : QueueId), (s.blk.flag Fld.DMA_CQ_CFG_side ↑q = true ∨ s.blk.pcieUp = true) ∧
      s.blk.flag Fld.DMA_CQ_CFG_en ↑q = false) ∧
    (∃ (s : State) (r : RingId) (v : BitVec 32) (func : Nat), func = v.toNat / 2 ^ 27 % 8 ∧
      s.blk.flag Fld.DMA_RING_CFG_en ↑r = true) ∧
    (∃ (s : State) (r : RingId) (v : BitVec 32) (func : Nat), func = v.toNat / 2 ^ 27 % 8 ∧
      s.blk.flag Fld.DMA_RING_CFG_en ↑r = false ∧ v.toNat.testBit 31 = true ∧ func ≠ 0 ∧
      (func = 5 ∨ func = 6 → ∀ k < 1024, k ≠ ↑r → s.blk.flag Fld.DMA_RING_CFG_en k = true → s.blk.fld Fld.DMA_RING_CFG_func k ≠ func)) ∧
    (∃ (s : State) (r : RingId) (v : BitVec 32) (func : Nat), func = v.toNat / 2 ^ 27 % 8 ∧
      s.blk.flag Fld.DMA_RING_CFG_en ↑r = false ∧ v.toNat.testBit 31 = true ∧
      (func = 0 ∨ (func = 5 ∨ func = 6) ∧ ∃ k < 1024, k ≠ ↑r ∧ s.blk.flag Fld.DMA_RING_CFG_en k = true ∧ s.blk.fld Fld.DMA_RING_CFG_func k = func)) ∧
    (∃ (s : State) (r : RingId) (v : BitVec 32) (func : Nat), func = v.toNat / 2 ^ 27 % 8 ∧
      s.blk.flag Fld.DMA_RING_CFG_en ↑r = false ∧ v.toNat.testBit 31 = true ∧
      (func = 0 ∨ (func = 5 ∨ func = 6) ∧ ∃ k < 1024, k ≠ ↑r ∧ s.blk.flag Fld.DMA_RING_CFG_en k = true ∧ s.blk.fld Fld.DMA_RING_CFG_func k = func)) ∧
    (∃ (s : State) (place : HostPlace) (p : Fld × Fld × Nat),
      ((∃ r, place = HostPlace.ring r ∧ p = (Fld.DMA_RING_CFG_en, Fld.DMA_RING_STATUS_fault, ↑r)) ∨ ∃ q, place = HostPlace.queue q ∧ p = (Fld.DMA_CQ_CFG_en, Fld.DMA_CQ_STATUS_fault, ↑q)) ∧
      s.blk.flag p.1 p.2.2 = true) ∧
    (∃ (s : State) (place : HostPlace) (p : Fld × Fld × Nat),
      ((∃ r, place = HostPlace.ring r ∧ p = (Fld.DMA_RING_CFG_en, Fld.DMA_RING_STATUS_fault, ↑r)) ∨ ∃ q, place = HostPlace.queue q ∧ p = (Fld.DMA_CQ_CFG_en, Fld.DMA_CQ_STATUS_fault, ↑q)) ∧
      s.blk.flag p.1 p.2.2 = true) ∧
    (∃ (s : State) (place : HostPlace) (p : Fld × Fld × Nat),
      ((∃ r, place = HostPlace.ring r ∧ p = (Fld.DMA_RING_CFG_en, Fld.DMA_RING_STATUS_fault, ↑r)) ∨ ∃ q, place = HostPlace.queue q ∧ p = (Fld.DMA_CQ_CFG_en, Fld.DMA_CQ_STATUS_fault, ↑q)) ∧
      s.blk.flag p.1 p.2.2 = false) ∧
    (∃ (s : State), s.blk.pcieUp = true) ∧
    (∃ (s : State), s.blk.pcieUp = true) :=
  ⟨⟨sx [(.RSTC_CLK_STATUS_pcie_ref, 0, 1)], 1023, by decide +kernel⟩,
   ⟨sx [(.RSTC_CLK_STATUS_pcie_ref, 0, 1)], 4095, by decide +kernel⟩,
   ⟨sx [(.RSTC_CLK_STATUS_pcie_ref, 0, 1)], by decide +kernel⟩,
   ⟨sx [(.RSTC_CLK_STATUS_pcie_ref, 0, 1)], by decide +kernel⟩,
   ⟨sx (ring 1) fun b => { b with rings := [(1023, ⟨3, true⟩)] }, 1023, 63, by decide +kernel⟩,
   ⟨sx [], 1023, 0, by decide +kernel⟩,
   ⟨sx (ring 1), 1023, 64, by decide +kernel⟩,
   ⟨sx (ring 1), 1023, 1, by decide +kernel⟩,
   ⟨sx [(.DMA_CQ_CFG_en, 4095, 1)], 4095, 64, by decide +kernel⟩,
   ⟨sx [], 4095, by decide +kernel⟩,
   ⟨sx (ring 1), 1023, 0x10000000, 2, by decide +kernel⟩,
   ⟨sx (ring 1), 0, 0x89600000, 1, by decide +kernel⟩,
   ⟨sx [], 0, 0x80000000, 0, by decide +kernel⟩,
   ⟨sx (ring 6), 0, 0xB0000000, 6,
      by decide +kernel, by decide +kernel, by decide +kernel,
      Or.inr ⟨by decide +kernel, 1023, by decide +kernel⟩⟩,
   ⟨sx (ring 1), .ring 1023, (.DMA_RING_CFG_en, .DMA_RING_STATUS_fault, 1023),
      Or.inl ⟨1023, rfl, rfl⟩, by decide +kernel⟩,
   ⟨sx [(.DMA_CQ_CFG_en, 4095, 1)], .queue 4095, (.DMA_CQ_CFG_en, .DMA_CQ_STATUS_fault, 4095),
      Or.inr ⟨4095, rfl, rfl⟩, by decide +kernel⟩,
   ⟨sx [], .queue 4095, (.DMA_CQ_CFG_en, .DMA_CQ_STATUS_fault, 4095), Or.inr ⟨4095, rfl, rfl⟩, by decide +kernel⟩,
   ⟨sx (ring 1 ++ [(.DMA_RING_STATUS_fault, 1023, 1)]) bm, by decide +kernel⟩,
   ⟨sx (ring 1) bm, by decide +kernel⟩⟩

theorem wit_HostFramesAndRecords :
    (∃ (s : State) (r : RingId), (∀ h ∈ s.blk.hostRx, h.ring ≠ ↑r)) ∧
    (∃ (s : State) (r : RingId) (h : HostFrame), List.find? (fun h => decide (h.ring = ↑r)) s.blk.hostRx = some h ∧
      (s.blk.flag Fld.DMA_RING_CFG_en ↑r = false ∨ s.blk.fld Fld.DMA_RING_CFG_func ↑r ≠ 1)) ∧
    (∃ (s : State) (r : RingId) (h : HostFrame), List.find? (fun h => decide (h.ring = ↑r)) s.blk.hostRx = some h ∧
      (s.blk.flag Fld.DMA_RING_CFG_en ↑r = false ∨ s.blk.fld Fld.DMA_RING_CFG_func ↑r ≠ 1)) ∧
    (∃ (s : State) (r : RingId) (h : HostFrame), List.find? (fun h => decide (h.ring = ↑r)) s.blk.hostRx = some h ∧
      s.blk.flag Fld.DMA_RING_CFG_en ↑r = true ∧ s.blk.fld Fld.DMA_RING_CFG_func ↑r = 1 ∧ s.blk.ringHas (↑r) 1 = false) ∧
    (∃ (s : State) (r : RingId) (descs : List RxDesc) (h : HostFrame) (d : RxDesc) (rest : List RxDesc),
      List.find? (fun h => decide (h.ring = ↑r)) s.blk.hostRx = some h ∧ descs = d :: rest ∧
      s.blk.ringHas (↑r) 1 = true ∧ h.bytes ≠ [] ∧ h.bytes.length ≤ rxLen d) ∧
    (∃ (s : State) (r : RingId) (d : TxDesc) (rest : List TxDesc), s.blk.ringHas (↑r) 2 = true ∧
      s.blk.hostTx.find ↑r = none ∧ (d :: rest).length ≤ s.blk.ringFilled ↑r ∧ s.blk.txDescsOk (d :: rest) = false) ∧
    (∃ (s : State) (r : RingId) (d : TxDesc) (rest : List TxDesc) (bytes : List Byte) (f : Frame) (l : Nat),
      s.blk.ringHas (↑r) 2 = true ∧ s.blk.hostTx.find ↑r = none ∧ (d :: rest).length ≤ s.blk.ringFilled ↑r ∧
      s.blk.txDescsOk (d :: rest) = true ∧ l = d.link.toNat ∧
      f = frameOf (padTo (max 14 (List.map (fun d => d.len.toNat) (d :: rest)).sum) bytes) ∧
      d.flags.toNat.testBit 5 = false) ∧
    (∃ (s : State) (r : RingId) (d : TxDesc) (rest : List TxDesc) (bytes : List Byte) (f : Frame) (l : Nat),
      s.blk.ringHas (↑r) 2 = true ∧ s.blk.hostTx.find ↑r = none ∧ (d :: rest).length ≤ s.blk.ringFilled ↑r ∧
      s.blk.txDescsOk (d :: rest) = true ∧ l = d.link.toNat ∧
      f = frameOf (padTo (max 14 (List.map (fun d => d.len.toNat) (d :: rest)).sum) bytes) ∧
      d.flags.toNat.testBit 5 = true) ∧
    (∃ (s : State) (r : RingId) (d : TxDesc) (rest : List TxDesc) (bytes : List Byte) (img : ImageClass) (f : Frame)
      (l : Nat) (h : XHeader) (e m : Nat), s.blk.ringHas (↑r) 2 = true ∧ s.blk.hostTx.find ↑r = none ∧
      (d :: rest).length ≤ s.blk.ringFilled ↑r ∧ s.blk.txDescsOk (d :: rest) = true ∧ l = d.link.toNat ∧
      f = frameOf (padTo (max 14 (List.map (fun d => d.len.toNat) (d :: rest)).sum) bytes) ∧
      d.flags.toNat.testBit 5 = true ∧ isPtp f = false ∧ s.blk.flag Fld.TIL_FWD_CFG_fwd_en (tileOf l) = true ∧
      img.badWord = none ∧ (∀ c < 4, s.blk.copy? (4 * s.blk.nextFrame + c) = none) ∧
      (∀ kv ∈ s.blk.frames, kv.2.link ≠ some l) ∧ s.blk.isXeirrik (tileOf l) f = true ∧ h = xHeader f.data ∧
      e = s.blk.tableEntry (dieOf l) 0 h.dst ∧ m = (if f.tci.isSome = true then 54 else 50) ∧ h.ver ≠ 1) ∧
    (∃ (s : State) (r : RingId) (d : TxDesc) (rest : List TxDesc) (bytes : List Byte) (img : ImageClass) (f : Frame)
      (l : Nat) (h : XHeader) (e m : Nat), s.blk.ringHas (↑r) 2 = true ∧ s.blk.hostTx.find ↑r = none ∧
      (d :: rest).length ≤ s.blk.ringFilled ↑r ∧ s.blk.txDescsOk (d :: rest) = true ∧ l = d.link.toNat ∧
      f = frameOf (padTo (max 14 (List.map (fun d => d.len.toNat) (d :: rest)).sum) bytes) ∧
      d.flags.toNat.testBit 5 = true ∧ isPtp f = false ∧ s.blk.flag Fld.TIL_FWD_CFG_fwd_en (tileOf l) = true ∧
      img.badWord = none ∧ (∀ c < 4, s.blk.copy? (4 * s.blk.nextFrame + c) = none) ∧
      (∀ kv ∈ s.blk.frames, kv.2.link ≠ some l) ∧ s.blk.isXeirrik (tileOf l) f = true ∧ h = xHeader f.data ∧
      e = s.blk.tableEntry (dieOf l) 0 h.dst ∧ m = (if f.tci.isSome = true then 54 else 50) ∧ h.ver = 1 ∧
      m ≤ frameLen f ∧ (h.len = frameLen f - m ∨ frameLen f = 64 ∧ h.len ≤ frameLen f - m) ∧
      (s.blk.staketu l = true ∨ Blk.tagClass f h.tc = h.tc) ∧ h.mcast = false ∧ e.testBit 31 = true ∧ bits e 30 28 = 1 ∧
      h.hop ≠ 0) ∧
    (∃ (s : State) (r : RingId), s.blk.ringHas (↑r) 2 = false) ∧
    (∃ (s : State) (r : RingId), s.blk.cplWait.get [] ↑r = []) ∧
    (∃ (s : State) (r : RingId) (x : CplRec) (rest : List CplRec), s.blk.cplWait.get [] ↑r = x :: rest ∧
      (s.blk.flag Fld.DMA_RING_CFG_en ↑r = false ∨ s.blk.fld Fld.DMA_RING_CFG_func ↑r ≠ 3) ∧ s.blk.cplHeld = []) ∧
    (∃ (s : State) (r : RingId) (x : CplRec) (rest : List CplRec), s.blk.cplWait.get [] ↑r = x :: rest ∧
      s.blk.flag Fld.DMA_RING_CFG_en ↑r = true ∧ s.blk.fld Fld.DMA_RING_CFG_func ↑r = 3 ∧ s.blk.ringHas (↑r) 3 = true ∧
      s.blk.cplHeld = []) ∧
    (∃ (s : State) (r : RingId) (x : CplRec) (rest : List CplRec), s.blk.cplWait.get [] ↑r = x :: rest ∧
      s.blk.flag Fld.DMA_RING_CFG_en ↑r = true ∧ s.blk.fld Fld.DMA_RING_CFG_func ↑r = 3 ∧ s.blk.ringHas (↑r) 3 = false) :=
  ⟨⟨sx (ring 1) bm, 1023, by decide +kernel⟩,
   ⟨sx [] hfW, 1023, hf, by decide +kernel⟩,
   ⟨sx (ring 2) hfW, 1023, hf, by decide +kernel⟩,
   ⟨sx (ring 1 ++ [(.DMA_RING_TAIL_tail, 1023, 2 ^ 32 - 1)]) hfW, 1023, hf, by decide +kernel⟩,
   ⟨sx (ring 1) hfW, 1023, [⟨0x4000, 128⟩, ⟨0x8000, 64⟩], hf, ⟨0x4000, 128⟩, [⟨0x8000, 64⟩], by decide +kernel⟩,
   ⟨sx (ring 2) bm, 1023, ⟨0, 0xC0, 5⟩, [], by decide +kernel⟩,
   ⟨sx (ring 2) bm, 1023, ⟨64, 0xD2, 4⟩, [], List.replicate 60 3, frameOf (List.replicate 60 3 ++ List.replicate 4 0),
      4, by decide +kernel⟩,
   ⟨sx (ring 2) bm, 1023, ⟨60, 0xE0, 0⟩, [], xb 0, frameOf (xb 0), 0, by decide +kernel⟩,
   ⟨sx (ring 2 ++ [(.TIL_FWD_CFG_fwd_en, 0, 1)]) bm, 1023, ⟨60, 0xE0, 0⟩, [], xb 0, ⟨2, 0, none⟩, frameOf (xb 0), 0,
      xHeader (frameOf (xb 0)).data, 0, 50, by decide +kernel⟩,
   ⟨sx (ring 2 ++ [(.TIL_FWD_CFG_fwd_en, 0, 1)]) fun b => { bm b with tables := [(1, 2 ^ 31 + 2 ^ 28 + 4)] }, 1023,
      ⟨60, 0xE0, 0⟩, [], xb 16, ⟨2, 0, none⟩, frameOf (xb 16), 0, xHeader (frameOf (xb 16)).data, 2 ^ 31 + 2 ^ 28 + 4,
      50, by decide +kernel⟩,
   ⟨sx (ring 2), 1023, by decide +kernel⟩,
   ⟨sx (ring 3) bm, 1023, by decide +kernel⟩,
   ⟨sx (ring 1) fun b => { bm b with cplWait := [(1023, [⟨1, []⟩, ⟨2, []⟩])] }, 1023, ⟨1, []⟩, [⟨2, []⟩],
      by decide +kernel⟩,
   ⟨sx (ring 3) fun b => { bm b with cplWait := [(1023, [⟨1, []⟩, ⟨2, []⟩])] }, 1023, ⟨1, []⟩, [⟨2, []⟩],
      by decide +kernel⟩,
   ⟨sx (ring 3 ++ [(.DMA_RING_TAIL_tail, 1023, 2 ^ 32 - 1)]) fun b => { bm b with cplWait := [(1023, [⟨1, []⟩, ⟨5, []⟩])] },
      1023, ⟨1, []⟩, [⟨5, []⟩], by decide +kernel⟩⟩

theorem wit_VectorsArmed :
    (∃ (s : State) (v : Fin 64), (s.blk.setBit Fld.MGT_IRQ_ARMED_armed 0 (↑v) true).vectorPending ↑v = false) ∧
    (∃ (s : State) (v : Fin 64), (s.blk.setBit Fld.MGT_IRQ_ARMED_armed 0 (↑v) true).vectorPending ↑v = true ∧
      s.blk.pcieUp = true ∧ s.blk.msixMasked ↑v = true) ∧
    (∃ (s : State) (v : Fin 64), (s.blk.setBit Fld.MGT_IRQ_ARMED_armed 0 (↑v) true).vectorPending ↑v = true ∧
      s.blk.pcieUp = false) ∧
    (∃ (s : State) (v : Fin 64), (s.blk.setBit Fld.MGT_IRQ_ARMED_armed 0 (↑v) true).vectorPending ↑v = true ∧
      s.blk.pcieUp = true ∧ s.blk.msixMasked ↑v = false) ∧
    (∃ (s : State) (r : RingId), s.blk.flag Fld.DMA_RING_CFG_irq_en ↑r = true ∧ (s.blk.ring ↑r).adv ≠ 0 ∧
      (s.blk.ring ↑r).pend = false) ∧
    (∃ (s : State) (r : RingId), s.blk.flag Fld.DMA_RING_CFG_irq_en ↑r = true ∧ (s.blk.ring ↑r).adv ≠ 0 ∧
      (s.blk.ring ↑r).pend = false) ∧
    (∃ (s : State) (r : RingId),
      (s.blk.flag Fld.DMA_RING_CFG_irq_en ↑r = false ∨ (s.blk.ring ↑r).adv = 0 ∨ (s.blk.ring ↑r).pend = true)) :=
  ⟨⟨sx [(.MGT_IRQ_ARMED_armed, 0, 0)], 63, by decide +kernel⟩,
   ⟨sx [(.MGT_IRQ_ARMED_armed, 0, 0), (.DMA_RING_CFG_vector, 1023, 63)] fun b => { b with rings := [(1023, ⟨1, true⟩)] },
      63, by decide +kernel⟩,
   ⟨sx [(.MGT_IRQ_ARMED_armed, 0, 0), (.DMA_RING_CFG_vector, 1023, 63), (.RSTC_CLK_STATUS_pcie_ref, 0, 1)] fun b => { b with rings := [(1023, ⟨1, true⟩)] },
      63, by decide +kernel⟩,
   ⟨sx [(.MGT_IRQ_ARMED_armed, 0, 0), (.DMA_RING_CFG_vector, 1023, 63)] fun b => { b with rings := [(1023, ⟨1, true⟩)], msixTab := [(0x3000C + 16 * 63, 0)] },
      63, by decide +kernel⟩,
   ⟨sx (ring 1 ++ [(.DMA_RING_CFG_irq_en, 1023, 1)]) fun b => { b with rings := [(1023, ⟨1, false⟩)] }, 1023,
      by decide +kernel⟩,
   ⟨sx (ring 1 ++ [(.DMA_RING_CFG_irq_en, 1023, 1), (.DMA_RING_CFG_side, 1023, 1)]) fun b => { b with rings := [(1023, ⟨1, false⟩)] },
      1023, by decide +kernel⟩,
   ⟨sx (ring 1 ++ [(.DMA_RING_CFG_irq_en, 1023, 1)]), 1023, by decide +kernel⟩⟩


end P14

namespace P15

/-- The firmware answers. -/
def fw : List (Fld × Nat × Nat) := [(.MGT_MBX_STATUS_fw_ready, 0, 1)]

/-- A mailbox request of a code. -/
def mq (cmd n : Nat) : MbxReq := ⟨3, cmd, List.replicate n 1, false⟩
def mqs (cmd n : Nat) : State := sx fw fun b => { b with mbxReqs := [mq cmd n] }

/-- A request of the recovery UART. -/
def uq (cmd : Nat) (payload : List Byte) : MbxReq := ⟨3, cmd, payload, false⟩
def uqs (cmd : Nat) (payload : List Byte) : State :=
  sx fw fun b => { b with uart := ⟨3, 2, 2 ^ 32 - 1, [uq cmd payload], none⟩ }

/-- The first words of H2D slot 0: a request of a code, with no payload. -/
def slot0 (cmd : Nat) : List (Fld × Nat × Nat) := [(.MGT_MBX_H2D_word, 2, cmd * 65536)]

/-- States with a message in slot 0. -/
def mbA : State := sx ([(.MGT_MBX_H2D_TAKEN_seq, 0, 2 ^ 32 - 1), (.MGT_MBX_H2D_DONE_seq, 0, 2 ^ 32 - 15)] ++ slot0 5)
def mbB (cmd : Nat) : State := sx (fw ++ [(.MGT_MBX_H2D_TAKEN_seq, 0, 15), (.MGT_MBX_H2D_DONE_seq, 0, 15)] ++ slot0 cmd)

/-- A request of the mailbox read from slot 0. -/
def mbQ (x : State) (n : Nat) : MbxReq := { Blk.requestOf (x.blk.h2dSlot 0) with seq := n }

theorem wit_MailboxSequence :
    (∃ (s : State), s.blk.pcieUp = false) ∧
    (∃ (s : State), s.blk.pcieUp = false) ∧
    (∃ (s : State) (seq : BitVec 32) (taken : Nat), s.blk.pcieUp = true ∧
      taken = s.blk.fld Fld.MGT_MBX_H2D_TAKEN_seq 0 ∧
      (seq.toNat ≠ (taken + 1) % 2 ^ 32 ∨ 16 ≤ Blk.seqAhead (s.blk.fld Fld.MGT_MBX_H2D_DONE_seq 0) taken)) ∧
    (∃ (s : State) (seq : BitVec 32) (taken : Nat), s.blk.pcieUp = true ∧
      taken = s.blk.fld Fld.MGT_MBX_H2D_TAKEN_seq 0 ∧
      (seq.toNat ≠ (taken + 1) % 2 ^ 32 ∨ 16 ≤ Blk.seqAhead (s.blk.fld Fld.MGT_MBX_H2D_DONE_seq 0) taken)) ∧
    (∃ (s : State) (seq : BitVec 32) (taken : Nat) (q : MbxReq), s.blk.pcieUp = true ∧
      taken = s.blk.fld Fld.MGT_MBX_H2D_TAKEN_seq 0 ∧ seq.toNat = (taken + 1) % 2 ^ 32 ∧
      Blk.seqAhead (s.blk.fld Fld.MGT_MBX_H2D_DONE_seq 0) taken < 16 ∧
      q = { Blk.requestOf (s.blk.h2dSlot (seq.toNat % 16)) with seq := seq.toNat } ∧
      (s.blk.fwReady = false ∨ s.blk.mbxReqs = [] ∧ s.blk.mbxEvents = [] ∧ s.blk.uart.reqs = [] ∧ (q.cmd = 1 ∨ q.cmd = 2))) ∧
    (∃ (s : State) (seq : BitVec 32) (taken : Nat) (q : MbxReq), s.blk.pcieUp = true ∧
      taken = s.blk.fld Fld.MGT_MBX_H2D_TAKEN_seq 0 ∧ seq.toNat = (taken + 1) % 2 ^ 32 ∧
      Blk.seqAhead (s.blk.fld Fld.MGT_MBX_H2D_DONE_seq 0) taken < 16 ∧
      q = { Blk.requestOf (s.blk.h2dSlot (seq.toNat % 16)) with seq := seq.toNat } ∧
      (s.blk.fwReady = false ∨ s.blk.mbxReqs = [] ∧ s.blk.mbxEvents = [] ∧ s.blk.uart.reqs = [] ∧ (q.cmd = 1 ∨ q.cmd = 2))) ∧
    (∃ (s : State) (seq : BitVec 32) (taken : Nat) (q : MbxReq), s.blk.pcieUp = true ∧
      taken = s.blk.fld Fld.MGT_MBX_H2D_TAKEN_seq 0 ∧ seq.toNat = (taken + 1) % 2 ^ 32 ∧
      Blk.seqAhead (s.blk.fld Fld.MGT_MBX_H2D_DONE_seq 0) taken < 16 ∧
      q = { Blk.requestOf (s.blk.h2dSlot (seq.toNat % 16)) with seq := seq.toNat } ∧ s.blk.fwReady = true ∧
      s.blk.mbxRoom = true ∧ s.blk.mbxReqs = [] ∧ s.blk.mbxEvents = [] ∧ s.blk.uart.reqs = [] ∧
      q.cmd ∉ [1, 2, 16, 17, 18]) ∧
    (∃ (s : State) (v : BitVec 32) (ack : Nat), s.blk.pcieUp = true ∧ ack = s.blk.fld Fld.MGT_MBX_D2H_ACK_seq 0 ∧
      Blk.seqAhead ack (s.blk.fld Fld.MGT_MBX_D2H_SENT_seq 0) < Blk.seqAhead ack v.toNat) ∧
    (∃ (s : State) (v : BitVec 32) (ack : Nat), s.blk.pcieUp = true ∧ ack = s.blk.fld Fld.MGT_MBX_D2H_ACK_seq 0 ∧
      Blk.seqAhead ack v.toNat ≤ Blk.seqAhead ack (s.blk.fld Fld.MGT_MBX_D2H_SENT_seq 0) ∧ s.blk.mbxReqs = [] ∧
      s.blk.mbxEvents = [] ∧ s.blk.uart.reqs = []) :=
  ⟨⟨sx [(.RSTC_CLK_STATUS_pcie_ref, 0, 1)], by decide +kernel⟩,
   ⟨sx [(.RSTC_CLK_STATUS_pcie_ref, 0, 1)], by decide +kernel⟩,
   ⟨sx [(.MGT_MBX_H2D_TAKEN_seq, 0, 2 ^ 32 - 1)], 1, 2 ^ 32 - 1, by decide +kernel⟩,
   ⟨sx [(.MGT_MBX_H2D_TAKEN_seq, 0, 15), (.MGT_MBX_H2D_DONE_seq, 0, 2 ^ 32 - 1)], 16, 15, by decide +kernel⟩,
   ⟨mbA, 0, 2 ^ 32 - 1, mbQ mbA 0, by decide +kernel⟩,
   ⟨mbB 1, 16, 15, mbQ (mbB 1) 16, by decide +kernel⟩,
   ⟨mbB 9, 16, 15, mbQ (mbB 9) 16, by decide +kernel⟩,
   ⟨sx [(.MGT_MBX_D2H_SENT_seq, 0, 2)], 3, 0, by decide +kernel⟩,
   ⟨sx [(.MGT_MBX_D2H_SENT_seq, 0, 2), (.MGT_MBX_D2H_ACK_seq, 0, 2 ^ 32 - 3)], 0xFFFFFFFF, 2 ^ 32 - 3,
      by decide +kernel⟩⟩

theorem wit_MessagesAnswered :
    (∃ (s : State) (q : MbxReq), AsksMailbox s q 1 ∧ q.payload.length ≤ 240) ∧
    (∃ (s : State) (q : MbxReq), AsksMailbox s q 2 ∧ q.payload = []) ∧
    (∃ (s : State) (q : MbxReq), AsksMailbox s q 2 ∧ q.payload ≠ []) ∧
    (∃ (s : State) (q : MbxReq), AsksMailbox s q 16 ∧ q.payload.length = 16) ∧
    (∃ (s : State) (q : MbxReq), AsksMailbox s q 17 ∧ q.payload.length = 6) ∧
    (∃ (s : State) (q : MbxReq), AsksMailbox s q 18 ∧ q.payload.length = 1 ∧ beAt q.payload 0 1 ≤ 1) ∧
    (∃ (s : State) (q : MbxReq), AsksMailbox s q 18 ∧ q.payload.length = 1 ∧ 1 < beAt q.payload 0 1) ∧
    (∃ (s : State) (q : MbxReq) (c : Nat × Nat × Instr),
      c ∈ [(16, 16, Instr.ptpCfg), (17, 6, Instr.todSet), (18, 1, Instr.timeSrc)] ∧ AsksMailbox s q c.1 ∧
      q.payload.length ≠ c.2.1) ∧
    (∃ (s : State) (q : MbxReq) (c : Nat × Nat × Instr),
      c ∈ [(16, 16, Instr.ptpCfg), (17, 6, Instr.todSet), (18, 1, Instr.timeSrc)] ∧ AsksMailbox s q c.1 ∧
      q.payload.length ≠ c.2.1) ∧
    (∃ (s : State) (q : MbxReq) (c : Nat × Nat × Instr),
      c ∈ [(16, 16, Instr.ptpCfg), (17, 6, Instr.todSet), (18, 1, Instr.timeSrc)] ∧ AsksMailbox s q c.1 ∧
      q.payload.length ≠ c.2.1) :=
  ⟨⟨mqs 1 240, mq 1 240, by (repeat' apply And.intro) <;> decide +kernel⟩,
   ⟨mqs 2 0, mq 2 0, by (repeat' apply And.intro) <;> decide +kernel⟩,
   ⟨mqs 2 1, mq 2 1, by (repeat' apply And.intro) <;> decide +kernel⟩,
   ⟨mqs 0x10 16, mq 0x10 16, by (repeat' apply And.intro) <;> decide +kernel⟩,
   ⟨mqs 0x11 6, mq 0x11 6, by (repeat' apply And.intro) <;> decide +kernel⟩,
   ⟨mqs 0x12 1, mq 0x12 1, by (repeat' apply And.intro) <;> decide +kernel⟩,
   ⟨sx fw fun b => { b with mbxReqs := [uq 0x12 [2]] }, uq 0x12 [2], by (repeat' apply And.intro) <;> decide +kernel⟩,
   ⟨mqs 0x10 17, mq 0x10 17, (0x10, 16, Instr.ptpCfg), by (repeat' apply And.intro) <;> decide +kernel⟩,
   ⟨mqs 0x11 5, mq 0x11 5, (0x11, 6, Instr.todSet), by (repeat' apply And.intro) <;> decide +kernel⟩,
   ⟨mqs 0x12 0, mq 0x12 0, (0x12, 1, Instr.timeSrc), by (repeat' apply And.intro) <;> decide +kernel⟩⟩

theorem wit_RecoveryUart :
    (∃ (s : State) (msg : List Byte) (q : MbxReq), s.blk.uartFraming = true ∧ s.blk.fwReady = true ∧ 16 ≤ msg.length ∧
      q = Blk.requestOf msg ∧ q.seq = (s.blk.uart.taken + 1) % 2 ^ 32 ∧
      Blk.seqAhead s.blk.uart.done s.blk.uart.taken < 16 ∧ s.blk.mbxReqs = [] ∧ s.blk.mbxEvents = [] ∧
      s.blk.uart.reqs = [] ∧ 256 ≤ q.cmd ∧ q.cmd ≤ 259) ∧
    (∃ (s : State) (msg : List Byte) (q : MbxReq) (b : List Byte), s.blk.uartFraming = true ∧ s.blk.fwReady = true ∧
      16 ≤ msg.length ∧ q = Blk.requestOf msg ∧ q.seq = s.blk.uart.taken ∧ s.blk.uart.done = s.blk.uart.taken ∧
      s.blk.uart.last = some b ∧ s.blk.uart.taken < 2 ^ 32) ∧
    (∃ (s : State), s.blk.uartFraming = false) ∧
    (∃ (s : State) (q : MbxReq), AsksUart s q 256 ∧ q.payload.length ≠ 5) ∧
    (∃ (s : State) (q : MbxReq) (a : Nat) (r : Reg) (i : Nat), AsksUart s q 256 ∧ q.payload.length = 5 ∧
      beAt q.payload 0 1 = 0 ∧ a = beAt q.payload 1 4 % 2 ^ 26 ∧ a % 4 = 0 ∧ Answers s.blk a r i false ∧
      r.info.wide = false ∧ r ≠ Reg.I2C_DATA) ∧
    (∃ (s : State) (q : MbxReq) (a v : Nat) (r : Reg) (i : Nat), AsksUart s q 257 ∧ q.payload.length = 9 ∧
      beAt q.payload 0 1 = 0 ∧ a = beAt q.payload 1 4 % 2 ^ 26 ∧ a % 4 = 0 ∧ v = beAt q.payload 5 4 ∧
      Answers s.blk a r i false ∧ r.info.wide = false ∧ actingReg r = false) ∧
    (∃ (s : State) (q : MbxReq), AsksUart s q 258 ∧ q.payload.length = 1 ∧ beAt q.payload 0 1 ≤ 3) ∧
    (∃ (s : State) (q : MbxReq) (off n : Nat), AsksUart s q 259 ∧ q.payload.length = n + 4 ∧ 1 ≤ n ∧ n ≤ 232 ∧
      off = beAt q.payload 0 4 ∧ off + n ≤ 65536) :=
  ⟨⟨sx (fw ++ [(.IMG_BOOT_src, 0, 2)]) fun b => { b with uart := ⟨2 ^ 32 - 1, 2 ^ 32 - 1, 0, [], none⟩ },
      Blk.message 0 0 0x103 0 [0x7E, 0x7D], Blk.requestOf (Blk.message 0 0 0x103 0 [0x7E, 0x7D]), by decide +kernel⟩,
   ⟨sx (fw ++ [(.IMG_BOOT_src, 0, 2)]) fun b => { b with uart := ⟨7, 7, 0, [], some [1, 2]⟩ },
      Blk.message 7 0 0x103 0 [0x7E], Blk.requestOf (Blk.message 7 0 0x103 0 [0x7E]), [1, 2], by decide +kernel⟩,
   ⟨sx [(.IMG_BOOT_src, 0, 1)], by decide +kernel⟩,
   ⟨uqs 0x100 [1, 2, 3, 4], uq 0x100 [1, 2, 3, 4], by (repeat' apply And.intro) <;> decide +kernel⟩,
   ⟨uqs 0x100 [0, 1, 0x20, 0, 0x40], uq 0x100 [0, 1, 0x20, 0, 0x40], 0x1200040, .GPIO_OUT, 0,
      by (repeat' apply And.intro) <;> decide +kernel⟩,
   ⟨uqs 0x101 [0, 0, 0x83, 0, 0, 0, 0, 0xFF, 0xFF], uq 0x101 [0, 0, 0x83, 0, 0, 0, 0, 0xFF, 0xFF], 0x830000, 0xFFFF,
      .BSL_ADM_CFG, 3, by (repeat' apply And.intro) <;> decide +kernel⟩,
   ⟨uqs 0x102 [3], uq 0x102 [3], by (repeat' apply And.intro) <;> decide +kernel⟩,
   ⟨uqs 0x103 [0, 0, 0xFF, 0xFE, 8, 9], uq 0x103 [0, 0, 0xFF, 0xFE, 8, 9], 65534, 2,
      by (repeat' apply And.intro) <;> decide +kernel⟩⟩


end P15

namespace P16

/-- Controller 1 enabled. -/
def ie : List (Fld × Nat × Nat) := [(.I2C_CTL_en, 1, 1)]

/-- Controller 1 with bytes to send. -/
def itx (n : Nat) (b : Blk) : Blk := { b with i2c := [(1, { I2cRec.reset with tx := List.replicate n 5, rx := [1] })] }

/-- Pin 15 in a switch. -/
def sw (p : PinSwitch) (b : Blk) : Blk := { b with pinSwitches := [(15, p)] }


/-- Its two pins have its function. -/
def wired : List (Fld × Nat × Nat) := [(.GPIO_FUNC_func, 0, 1), (.GPIO_FUNC_func, 1, 1)]

theorem wit_I2cAndSmbus :
    (∃ (v : BitVec 32) (rd wr : Nat), rd = v.toNat / 2 ^ 8 % 256 ∧ wr = v.toNat % 256 ∧ v.toNat.testBit 31 = false) ∧
    (∃ (s : State) (c : Fin 2) (v : BitVec 32) (rd wr : Nat), rd = v.toNat / 2 ^ 8 % 256 ∧ wr = v.toNat % 256 ∧
      v.toNat.testBit 31 = true ∧
      (s.blk.flag Fld.I2C_STATUS_busy ↑c = true ∨ (s.blk.i2cOf ↑c).refuses = true ∨ s.blk.flag Fld.I2C_CTL_en ↑c = false ∨ 32 < rd ∨ 32 < wr)) ∧
    (∃ (s : State) (c : Fin 2) (v : BitVec 32) (rd wr : Nat), rd = v.toNat / 2 ^ 8 % 256 ∧ wr = v.toNat % 256 ∧
      v.toNat.testBit 31 = true ∧
      (s.blk.flag Fld.I2C_STATUS_busy ↑c = true ∨ (s.blk.i2cOf ↑c).refuses = true ∨ s.blk.flag Fld.I2C_CTL_en ↑c = false ∨ 32 < rd ∨ 32 < wr)) ∧
    (∃ (s : State) (c : Fin 2) (v : BitVec 32) (rd wr : Nat), rd = v.toNat / 2 ^ 8 % 256 ∧ wr = v.toNat % 256 ∧
      v.toNat.testBit 31 = true ∧
      (s.blk.flag Fld.I2C_STATUS_busy ↑c = true ∨ (s.blk.i2cOf ↑c).refuses = true ∨ s.blk.flag Fld.I2C_CTL_en ↑c = false ∨ 32 < rd ∨ 32 < wr)) ∧
    (∃ (s : State) (c : Fin 2) (v : BitVec 32) (rd wr : Nat), rd = v.toNat / 2 ^ 8 % 256 ∧ wr = v.toNat % 256 ∧
      v.toNat.testBit 31 = true ∧
      (s.blk.flag Fld.I2C_STATUS_busy ↑c = true ∨ (s.blk.i2cOf ↑c).refuses = true ∨ s.blk.flag Fld.I2C_CTL_en ↑c = false ∨ 32 < rd ∨ 32 < wr)) ∧
    (∃ (s : State) (c : Fin 2) (v : BitVec 32) (rd wr : Nat), rd = v.toNat / 2 ^ 8 % 256 ∧ wr = v.toNat % 256 ∧
      v.toNat.testBit 31 = true ∧
      (s.blk.flag Fld.I2C_STATUS_busy ↑c = true ∨ (s.blk.i2cOf ↑c).refuses = true ∨ s.blk.flag Fld.I2C_CTL_en ↑c = false ∨ 32 < rd ∨ 32 < wr)) ∧
    (∃ (s : State) (c : Fin 2) (v : BitVec 32) (rd wr : Nat), rd = v.toNat / 2 ^ 8 % 256 ∧ wr = v.toNat % 256 ∧
      v.toNat.testBit 31 = true ∧ s.blk.flag Fld.I2C_STATUS_busy ↑c = false ∧ (s.blk.i2cOf ↑c).refuses = false ∧
      s.blk.flag Fld.I2C_CTL_en ↑c = true ∧ rd ≤ 32 ∧ wr ≤ 32 ∧ wr ≤ (s.blk.i2cOf ↑c).tx.length) ∧
    (∃ (s : State) (c : Fin 2) (v : BitVec 32) (rd wr : Nat), rd = v.toNat / 2 ^ 8 % 256 ∧ wr = v.toNat % 256 ∧
      v.toNat.testBit 31 = true ∧ s.blk.flag Fld.I2C_STATUS_busy ↑c = false ∧ (s.blk.i2cOf ↑c).refuses = false ∧
      s.blk.flag Fld.I2C_CTL_en ↑c = true ∧ rd ≤ 32 ∧ wr ≤ 32 ∧ wr ≤ (s.blk.i2cOf ↑c).tx.length) ∧
    (∃ (s : State) (c : Fin 2), s.blk.flag Fld.I2C_STATUS_busy ↑c = false) ∧
    (∃ (s : State) (c : Fin 2), s.blk.flag Fld.I2C_STATUS_busy ↑c = true) ∧
    (∃ (s : State) (c : Fin 2), s.blk.flag Fld.I2C_STATUS_busy ↑c = true) ∧
    (∃ (s : State) (c : Fin 2), s.blk.flag Fld.I2C_STATUS_busy ↑c = true) ∧
    (∃ (s : State) (c : Fin 2), s.blk.flag Fld.I2C_STATUS_busy ↑c = true) ∧
    (∃ (s : State) (c : Fin 2), s.blk.flag Fld.I2C_STATUS_busy ↑c = true) ∧
    (∃ (s : State) (c : Fin 2), s.blk.flag Fld.I2C_STATUS_busy ↑c = true) ∧
    (∃ (s : State) (c : Fin 2), s.blk.flag Fld.I2C_STATUS_busy ↑c = false) ∧
    (∃ (s : State) (c : Fin 2), s.blk.flag Fld.I2C_STATUS_busy ↑c = false) ∧
    (∃ (s : State) (c : Fin 2), s.blk.flag Fld.I2C_STATUS_busy ↑c = false) ∧
    (∃ (s : State) (c : Fin 2), s.blk.i2cWired ↑c = false) ∧
    (∃ (s : State) (c : Fin 2), s.blk.i2cWired ↑c = true) ∧
    (∃ (s : State) (k : BitVec 8) (v : Nat), (∀ r ∈ s.blk.resets, r.level = 0 → r.released = true) ∧
      (v = (if k = 0 then s.blk.regRaw Reg.MGT_DEVICE_ID 0 else if k = 1 then s.blk.regRaw Reg.RSTC_CAUSE 0 else if k = 2 then s.blk.regRaw Reg.RSTC_FAILS 0 else if k = 3 then s.blk.regRaw Reg.IMG_BOOT 0 else if k = 4 then s.blk.regRaw Reg.OBS_LC 0 else if k = 5 then s.blk.regRaw Reg.MGT_MBX_STATUS 0 else if 16 ≤ k.toNat ∧ k.toNat < 140 then s.blk.fld Fld.JSP_MRG_RD_value (k.toNat - 16) else 0)) ∧
      s.blk.flag Fld.I2C_TGT_CFG_pec_en 0 = false) ∧
    (∃ (s : State) (k : BitVec 8) (v : Nat), (∀ r ∈ s.blk.resets, r.level = 0 → r.released = true) ∧
      (v = (if k = 0 then s.blk.regRaw Reg.MGT_DEVICE_ID 0 else if k = 1 then s.blk.regRaw Reg.RSTC_CAUSE 0 else if k = 2 then s.blk.regRaw Reg.RSTC_FAILS 0 else if k = 3 then s.blk.regRaw Reg.IMG_BOOT 0 else if k = 4 then s.blk.regRaw Reg.OBS_LC 0 else if k = 5 then s.blk.regRaw Reg.MGT_MBX_STATUS 0 else if 16 ≤ k.toNat ∧ k.toNat < 140 then s.blk.fld Fld.JSP_MRG_RD_value (k.toNat - 16) else 0)) ∧
      s.blk.flag Fld.I2C_TGT_CFG_pec_en 0 = false) ∧
    (∃ (s : State) (k : BitVec 8) (v : Nat), (∀ r ∈ s.blk.resets, r.level = 0 → r.released = true) ∧
      (v = (if k = 0 then s.blk.regRaw Reg.MGT_DEVICE_ID 0 else if k = 1 then s.blk.regRaw Reg.RSTC_CAUSE 0 else if k = 2 then s.blk.regRaw Reg.RSTC_FAILS 0 else if k = 3 then s.blk.regRaw Reg.IMG_BOOT 0 else if k = 4 then s.blk.regRaw Reg.OBS_LC 0 else if k = 5 then s.blk.regRaw Reg.MGT_MBX_STATUS 0 else if 16 ≤ k.toNat ∧ k.toNat < 140 then s.blk.fld Fld.JSP_MRG_RD_value (k.toNat - 16) else 0)) ∧
      s.blk.flag Fld.I2C_TGT_CFG_pec_en 0 = true) ∧
    (∃ (s : State), (∃ r ∈ s.blk.resets, r.level = 0 ∧ r.released = false)) ∧
    (∃ (s : State), (∃ r ∈ s.blk.resets, r.level = 0 ∧ r.released = false)) ∧
    (∃ (s : State), (∀ r ∈ s.blk.resets, r.level = 0 → r.released = true) ∧
      s.blk.flag Fld.I2C_TGT_CFG_alert_en 0 = true ∧
      (s.blk.flag Fld.JSP_INT_mrg_warn 0 = true ∨ s.blk.flag Fld.JSP_INT_mrg_alarm 0 = true)) ∧
    (∃ (s : State), (∀ r ∈ s.blk.resets, r.level = 0 → r.released = true) ∧
      (s.blk.flag Fld.I2C_TGT_CFG_alert_en 0 = false ∨ s.blk.flag Fld.JSP_INT_mrg_warn 0 = false ∧ s.blk.flag Fld.JSP_INT_mrg_alarm 0 = false)) ∧
    (∃ (s : State), (∀ r ∈ s.blk.resets, r.level = 0 → r.released = true) ∧
      (s.blk.flag Fld.I2C_TGT_CFG_alert_en 0 = false ∨ s.blk.flag Fld.JSP_INT_mrg_warn 0 = false ∧ s.blk.flag Fld.JSP_INT_mrg_alarm 0 = false)) :=
  ⟨⟨0x00551F20, 0x1F, 0x20, by decide +kernel⟩,
   ⟨sx (ie ++ [(.I2C_STATUS_busy, 1, 1)]), 1, 0x80000000, 0, 0, by decide +kernel⟩,
   ⟨sx ie fun b => { b with i2c := [(1, ⟨[], [], true, false⟩)] }, 1, 0x80000000, 0, 0, by decide +kernel⟩,
   ⟨sx [], 1, 0x80000000, 0, 0, by decide +kernel⟩,
   ⟨sx ie, 1, 0x80002100, 0x21, 0, by decide +kernel⟩,
   ⟨sx ie, 1, 0x80000021, 0, 0x21, by decide +kernel⟩,
   ⟨sx (ie ++ wired) (itx 33), 1, 0x807F2020, 32, 32, by decide +kernel⟩,
   ⟨sx ie (itx 33), 1, 0x807F2020, 32, 32, by decide +kernel⟩,
   ⟨sx ie, 1, by decide +kernel⟩,
   ⟨sx (wired ++ [(.I2C_STATUS_busy, 1, 1)]), 1, by decide +kernel⟩,
   ⟨sx (wired ++ [(.I2C_STATUS_busy, 1, 1)]), 1, by decide +kernel⟩,
   ⟨sx (wired ++ [(.I2C_STATUS_busy, 1, 1)]), 1, by decide +kernel⟩,
   ⟨sx [(.I2C_STATUS_busy, 1, 1), (.I2C_CMD_rd_count, 1, 32)] (itx 0), 1, by decide +kernel⟩,
   ⟨sx (wired ++ [(.I2C_STATUS_busy, 1, 1), (.I2C_CMD_rd_count, 1, 32)]) (itx 0), 1, by decide +kernel⟩,
   ⟨sx [(.I2C_STATUS_busy, 1, 1)], 1, by decide +kernel⟩,
   ⟨sx [] fun b => { b with i2c := [(1, ⟨[], [], true, false⟩)] }, 1, by decide +kernel⟩,
   ⟨sx wired, 1, by decide +kernel⟩,
   ⟨sx wired, 1, by decide +kernel⟩,
   ⟨sx ([(.I2C_STATUS_busy, 1, 1), (.I2C_CTL_en, 1, 1)]) (itx 4), 1, by decide +kernel⟩,
   ⟨sx (wired ++ [(.I2C_STATUS_busy, 1, 1), (.I2C_CTL_en, 1, 1)]) (itx 4), 1, by decide +kernel⟩,
   ⟨sx [(.I2C_TGT_CFG_pec_en, 0, 0), (.JSP_MRG_RD_value, 123, 77)], 139, 77, by decide +kernel⟩,
   ⟨sx [(.I2C_TGT_CFG_pec_en, 0, 0)], 0, Blk.reset.regRaw .MGT_DEVICE_ID 0, by decide +kernel⟩,
   ⟨sx [(.I2C_TGT_CFG_pec_en, 0, 1)], 140, 0, by decide +kernel⟩,
   ⟨sx [] fun b => { b with resets := [⟨0, 0, 0, false, 0, false⟩] }, by decide +kernel⟩,
   ⟨sx [] fun b => { b with resets := [⟨0, 0, 0, false, 0, false⟩] }, by decide +kernel⟩,
   ⟨sx [(.I2C_TGT_CFG_alert_en, 0, 1), (.JSP_INT_mrg_alarm, 0, 1), (.I2C_TGT_CFG_addr, 0, 127)], by decide +kernel⟩,
   ⟨sx [(.JSP_INT_mrg_alarm, 0, 1)], by decide +kernel⟩,
   ⟨sx [(.I2C_TGT_CFG_alert_en, 0, 1)], by decide +kernel⟩⟩

theorem wit_GpioPins :
    (∃ (s : State) (pin : Fin 16) (v : BitVec 2), s.blk.pinSwitches.find ↑pin = none ∧
      s.blk.fld Fld.GPIO_FUNC_func ↑pin ≠ v.toNat) ∧
    (∃ (s : State) (pin : Fin 16) (v : BitVec 2), s.blk.pinSwitches.find ↑pin = none ∧
      s.blk.fld Fld.GPIO_FUNC_func ↑pin = v.toNat) ∧
    (∃ (s : State) (pin : Fin 16) (p : PinSwitch), s.blk.pinSwitches.find ↑pin = some p) ∧
    (∃ (s : State) (pin : Fin 16), s.blk.pinSwitches.find ↑pin = none) ∧
    (∃ (s : State) (pin : Fin 16) (p : PinSwitch), s.blk.pinSwitches.find ↑pin = some p ∧ p.next = none) ∧
    (∃ (s : State) (pin : Fin 16) (p : PinSwitch) (v : BitVec 2), s.blk.pinSwitches.find ↑pin = some p ∧
      p.next = some v.toNat ∧ v.toNat ≠ s.blk.fld Fld.GPIO_FUNC_func ↑pin) ∧
    (∃ (s : State) (pin : Fin 16) (up : Bool), s.blk.pinSwitches.find ↑pin = none ∧
      s.blk.bit Fld.GPIO_IN_in 0 ↑pin ≠ up) ∧
    (∃ (s : State) (pin : Fin 16) (up : Bool), s.blk.pinSwitches.find ↑pin = none ∧
      s.blk.bit Fld.GPIO_IN_in 0 ↑pin ≠ up) ∧
    (∃ (s : State) (pin : Fin 16) (up : Bool), s.blk.pinSwitches.find ↑pin = none ∧
      s.blk.bit Fld.GPIO_IN_in 0 ↑pin = up) ∧
    (∃ (s : State) (pin : Fin 16) (p : PinSwitch), s.blk.pinSwitches.find ↑pin = some p ∧ p.old = 0) ∧
    (∃ (s : State) (pin : Fin 16), s.blk.pinSwitches.find ↑pin = none ∧ s.blk.powerHold = false ∧
      s.blk.jtagActs ≠ JtagInstr.extest ∧ s.blk.fld Fld.GPIO_FUNC_func ↑pin = 0) ∧
    (∃ (s : State) (pin : Fin 16) (up : Bool), s.blk.pinSwitches.find ↑pin = none ∧
      s.blk.bit Fld.GPIO_IN_in 0 ↑pin ≠ up) :=
  ⟨⟨sx [], 15, 3, by decide +kernel⟩,
   ⟨sx [(.GPIO_FUNC_func, 15, 2)], 15, 2, by decide +kernel⟩,
   ⟨sx [] (sw ⟨some true, 0, none, some 1⟩), 15, ⟨some true, 0, none, some 1⟩, by decide +kernel⟩,
   ⟨sx [], 15, by decide +kernel⟩,
   ⟨sx [(.GPIO_STATUS_switching, 0, 0x8000)] (sw ⟨none, 0, some true, none⟩), 15, ⟨none, 0, some true, none⟩,
      by decide +kernel⟩,
   ⟨sx [(.GPIO_STATUS_switching, 0, 0x8000)] (sw ⟨none, 0, some true, some 3⟩), 15, ⟨none, 0, some true, some 3⟩, 3,
      by decide +kernel⟩,
   ⟨sx [(.GPIO_EDGE_sel, 0, 2 ^ 30)], 15, true, by decide +kernel⟩,
   ⟨sx [(.GPIO_EDGE_sel, 0, 2 ^ 30), (.GPIO_IN_in, 0, 0x8000)], 15, false, by decide +kernel⟩,
   ⟨sx [(.GPIO_IN_in, 0, 0x8000)], 15, true, by decide +kernel⟩,
   ⟨sx [] (sw ⟨none, 0, none, none⟩), 15, ⟨none, 0, none, none⟩, by decide +kernel⟩,
   ⟨sx [(.GPIO_OE_oe, 0, 0x8000), (.GPIO_OUT_out, 0, 0x8000)], 15, by decide +kernel⟩,
   ⟨sx [(.GPIO_OE_oe, 0, 0x8000), (.GPIO_EDGE_sel, 0, 2 ^ 30)], 15, true, by decide +kernel⟩⟩


end P16

namespace P17



theorem wit_JtagInstructions :
    (∃ (s : State), s.blk.jtagActs ≠ JtagInstr.extest ∧ s.blk.powerHold = false) ∧
    (∃ (s : State), s.blk.jtagActs ≠ JtagInstr.extest ∧ s.blk.powerHold = false) ∧
    (∃ (s : State), s.blk.jtagActs ≠ JtagInstr.extest ∧ s.blk.powerHold = false) ∧
    (∃ (s : State), s.blk.jtagActs ≠ JtagInstr.extest ∧ s.blk.powerHold = true) ∧
    (∃ (s : State), s.blk.jtagActs ≠ JtagInstr.extest ∧ s.blk.powerHold = true) ∧
    (∃ (s : State), s.blk.jtagActs = JtagInstr.extest) ∧
    (∃ (s : State) (i : Instr) (code data : Nat) (two : Bool) (a : BitVec 30) (w : Option (BitVec 32)) (op : BitVec 4)
      (index : BitVec 8) (level : BitVec 3) (die : BitVec 2) (tile : BitVec 5),
      (code, i) ∈ [(0, Instr.extest data), (16, Instr.debugTransport), (17, Instr.barAccess two a w), (18, Instr.obsidianCommandPath op index), (32, Instr.resetReq level die tile), (48, Instr.scanEntry)] ∧
      s.blk.debugOpen = false ∧ s.blk.powerHold = false) ∧
    (∃ (s : State) (i : Instr) (code data : Nat) (two : Bool) (a : BitVec 30) (w : Option (BitVec 32)) (op : BitVec 4)
      (index : BitVec 8) (level : BitVec 3) (die : BitVec 2) (tile : BitVec 5),
      (code, i) ∈ [(0, Instr.extest data), (16, Instr.debugTransport), (17, Instr.barAccess two a w), (18, Instr.obsidianCommandPath op index), (32, Instr.resetReq level die tile), (48, Instr.scanEntry)] ∧
      s.blk.debugOpen = false ∧ s.blk.powerHold = false) ∧
    (∃ (s : State) (i : Instr) (code data : Nat) (two : Bool) (a : BitVec 30) (w : Option (BitVec 32)) (op : BitVec 4)
      (index : BitVec 8) (level : BitVec 3) (die : BitVec 2) (tile : BitVec 5),
      (code, i) ∈ [(0, Instr.extest data), (16, Instr.debugTransport), (17, Instr.barAccess two a w), (18, Instr.obsidianCommandPath op index), (32, Instr.resetReq level die tile), (48, Instr.scanEntry)] ∧
      s.blk.debugOpen = false ∧ s.blk.powerHold = false) ∧
    (∃ (s : State), s.blk.debugOpen = true) ∧
    (∃ (s : State) (a : BitVec 30) (r : Reg) (i : Nat), s.blk.debugOpen = true ∧ a.toNat % 4 = 0 ∧
      Answers s.blk (a.toNat % 2 ^ 26) r i false ∧ r.info.wide = false ∧ r ≠ Reg.I2C_DATA ∧
      s.blk.jtagActs ≠ JtagInstr.extest ∧ s.blk.powerHold = false) ∧
    (∃ (s : State) (a : BitVec 30) (r : Reg) (i : Nat), s.blk.debugOpen = true ∧ a.toNat % 4 = 0 ∧
      Answers s.blk (a.toNat % 2 ^ 26) r i false ∧ r.info.wide = false ∧ actingReg r = false) ∧
    (∃ (s : State) (a : BitVec 30), s.blk.debugOpen = true ∧ a.toNat % 4 ≠ 0 ∧
      Option.any s.blk.isolated (addrDomain (a.toNat % 2 ^ 26)) = false) ∧
    (∃ (s : State), s.blk.debugOpen = true ∧ s.blk.flag Fld.OBS_CMD_STATUS_busy 0 = true) ∧
    (∃ (s : State) (op : BitVec 4), s.blk.debugOpen = true ∧ s.blk.flag Fld.OBS_CMD_STATUS_busy 0 = false ∧
      1 ≤ op.toNat ∧ op.toNat ≤ 8) ∧
    (∃ (s : State) (level : BitVec 3), s.blk.debugOpen = true ∧ (4 < level.toNat ∨ level.toNat < s.blk.levelOf 5)) ∧
    (∃ (s : State) (level : BitVec 3), s.blk.debugOpen = true ∧ (4 < level.toNat ∨ level.toNat < s.blk.levelOf 5)) ∧
    (∃ (s : State) (level : BitVec 3) (die : BitVec 2) (tile : BitVec 5), s.blk.debugOpen = true ∧ level.toNat ≤ 4 ∧
      s.blk.levelOf 5 ≤ level.toNat ∧ s.blk.resets = [] ∧ s.blk.bist = none ∧
      (level = 2 → s.blk.domState (156 + die.toNat) ≠ 0) ∧ (level = 3 → s.blk.domState tile.toNat ≠ 0)) ∧
    (∃ (s : State), s.blk.debugOpen = true) :=
  ⟨⟨sx [], by decide +kernel⟩,
   ⟨sx [] fun b => { b with jtagIr := 0xFF }, by decide +kernel⟩,
   ⟨sx [], by decide +kernel⟩,
   ⟨sx [] fun b => { b with powerHold := true }, by decide +kernel⟩,
   ⟨sx [] fun b => { b with powerHold := true }, by decide +kernel⟩,
   ⟨sx [(.OBS_LC_dbg_open, 0, 1)] fun b => { b with jtagIr := 0 }, by decide +kernel⟩,
   ⟨sx [(.OBS_LC_dbg_open, 0, 0)], .extest 5, 0, 5, false, 0, none, 0, 0, 0, 0, 0, by decide +kernel⟩,
   ⟨sx [(.OBS_LC_dbg_open, 0, 0)] fun b => { b with jtagIr := 0 }, .scanEntry, 0x30, 5, false, 0, none, 0, 0, 1, 2, 3,
      by decide +kernel⟩,
   ⟨sx [(.OBS_LC_dbg_open, 0, 0)], .resetReq 1 2 3, 0x20, 5, false, 0, none, 0, 0, 1, 2, 3, by decide +kernel⟩,
   ⟨sx [(.OBS_LC_dbg_open, 0, 1)], by decide +kernel⟩,
   ⟨sx [(.OBS_LC_dbg_open, 0, 1)], 0x1200040, .GPIO_OUT, 0, by (repeat' apply And.intro) <;> decide +kernel⟩,
   ⟨sx [(.OBS_LC_dbg_open, 0, 1)], 0x830000, .BSL_ADM_CFG, 3, by (repeat' apply And.intro) <;> decide +kernel⟩,
   ⟨sx [(.OBS_LC_dbg_open, 0, 1)], 0x1200042, by decide +kernel⟩,
   ⟨sx [(.OBS_LC_dbg_open, 0, 1), (.OBS_CMD_STATUS_busy, 0, 1)], by decide +kernel⟩,
   ⟨sx [(.OBS_LC_dbg_open, 0, 1)], 8, by decide +kernel⟩,
   ⟨sx [(.OBS_LC_dbg_open, 0, 1), (.RSTC_MAP_levels, 0, 3 * 8 ^ 5)], 2, by decide +kernel⟩,
   ⟨sx [(.OBS_LC_dbg_open, 0, 1)], 5, by decide +kernel⟩,
   ⟨sx [(.OBS_LC_dbg_open, 0, 1)], 3, 0, 31, by decide +kernel⟩,
   ⟨sx [(.OBS_LC_dbg_open, 0, 1)], by decide +kernel⟩⟩


end P17

namespace P18



/-- The fuses of a part in TEST with a key in slot 0. -/
def keyed : Fuses := { Fuses.blank with lc := 1, keys := [(0, 9)] }

theorem wit_StepTakesFrontCommand :
    (∃ (s : State) (c : Instr) (rest : List Instr), s.pending = c :: rest) ∧
    (∃ (s t : State) (c : Instr), exec c s = .next t) ∧ (∃ s : State, s.pending = [] ∧ s.blk.wishes = []) :=
  ⟨⟨{ State.reset with pending := [.ping, .fwInfo] }, .ping, [.fwInfo], rfl⟩, ⟨State.reset, _, .watchdogKick, rfl⟩,
    ⟨State.reset, rfl, by decide +kernel⟩⟩

theorem keyed_sound : FusesSound keyed := by
  refine ⟨by decide, by decide, fun k h => ?_, by decide, by decide, by decide, rfl, by decide, by decide, fun k v h => ?_⟩
  · simp [keyed, Fuses.blank] at h
  · simp [keyed, Fuses.blank, Tab.find] at h

theorem wit_FusesOnlyProgrammed : ∃ s t : State, FusesSound s.fuses ∧ step s = .next t :=
  ⟨{ State.reset with fuses := keyed, pending := [.watchdogKick] }, _, keyed_sound, rfl⟩

theorem wit_CommandsComplete : ∃ (c : Instr) (s : State), Completes c s ∧ programsFuses c = false :=
  ⟨.debugTransport, sx [(.OBS_LC_dbg_open, 0, 0)], show Blk.debugOpen _ = false by decide +kernel, rfl⟩

end P18

/-! ### Ill-formed commands, one for each check -/

/-- A descriptor or command of 64 zeros but for its first byte. -/
def zeros (k : Nat) : Bytes64 := BitVec.ofNat 512 (k * 2 ^ 504)

theorem test_wf_alignment :
    [Instr.registerWrite .host 0x2010002 0 false, .registerWrite .host 0x2010004 0 true, .lowWordRead 0x2010001,
      .lowWordWrite .host 0x2010002 0, .highWordWrite .host 0x2010003 0, .barAccess false 0x2010001 none,
      .isolatedAccess .bar0 0x2010004 (.read 8), .isolatedAccess .bar0 0x2010004 (.write 0 true)].all
      (fun i => !wellFormed i) = true := by decide
theorem test_wf_size :
    [Instr.isolatedAccess .bar0 0x2010004 (.read 2), .isolatedAccess .bar2 0 (.read 0)].all (fun i => !wellFormed i) = true := by
  decide
theorem test_wf_width :
    [Instr.registerWrite .host 0x2010000 (2 ^ 32) false, .isolatedAccess .bar2 0 (.write (2 ^ 32) false)].all
      (fun i => !wellFormed i) = true := by decide
theorem test_wf_classes :
    [Instr.capReceived 0 ⟨1, 0, 0, 0, 0, List.replicate 7 0, 1522, true⟩, .creditReceived 0 (.lcf (List.replicate 9 0)),
      .auditReceived 0 (List.replicate 7 0), .resyncAck 0 []].all (fun i => !wellFormed i) = true := by decide
theorem test_wf_cells :
    [Instr.auditSweep 0 [524288] [], .auditSweep 0 [] [524288]].all (fun i => !wellFormed i) = true := by decide
theorem test_wf_kinds :
    [Instr.allReduce 0 (zeros 2), .reduceScatter 0 (zeros 1), .allGather 0 (zeros 4), .broadcast 0 (zeros 3),
      .barrier 0 (zeros 6), .abort 0 (zeros 9), .rebind 0 (zeros 8), .groupClear 0 (zeros 0xA), .nop 0 (zeros 0xC),
      .groupSet 0 (zeros 0xB) none, .memberSet 0 (zeros 0xF) none].all (fun i => !wellFormed i) = true := by decide +kernel
theorem test_wf_descriptor_data :
    [Instr.groupSet 0 (zeros 0xA) (some (List.replicate 15 0)), .memberSet 0 (zeros 0xC) (some [1])].all
      (fun i => !wellFormed i) = true := by decide +kernel
theorem test_wf_ops :
    [Instr.openShard 0 (zeros 2), .release 0 (zeros 1), .mirror 0 (zeros 4), .drain 0 (zeros 3), .restore 0 (zeros 9),
      .mark 0 (zeros 0x11), .trim 0 (zeros 0x12), .replay 0 (zeros 0x10)].all (fun i => !wellFormed i) = true := by
  decide +kernel
theorem test_wf_lines :
    [Instr.contribAccept 0 ⟨.corrected 32768, .none⟩, .contribRetry 0 ⟨.none, .lost 32768⟩,
      .chunkRelease 0 0 0 0 ⟨.lost 32768, .none⟩, .sramScrub (.scratch 0 32768) .clean,
      .frameReceived 0 none fr ⟨.whole, .good, false, 0, 0⟩ ⟨0, 0, some (.scratch 0 32768)⟩].all
      (fun i => !wellFormed i) = true := by decide
theorem test_wf_lists :
    [Instr.resetReload 0 ⟨true, true, 0, 0, [0, 0, 0, 0, 0], [], [], false⟩, .hostTxFrame 0 [] [] ⟨0, 0, none⟩,
      .hostTxFrame 0 [⟨64, 0xC0, 0⟩] [] ⟨0, 0, none⟩, .bist ⟨true, 0, 0, 0, [[2415919104]], true⟩,
      .i2cTransferEnd 0 (.good (List.replicate 33 0))].all (fun i => !wellFormed i) = true := by decide

/-! ### Values of the spec's own examples -/

/-- R73: TIL_LNK_RTT of sub-port 137.1. The example's sum is misprinted; the address is that of its own formula. -/
theorem test_address_rtt : Reg.find 0x3101218 = some (.TIL_LNK_RTT, 4 * 137 + 1, false) := by decide +kernel
/-- Chapter 5: FLD_CBS_CFG5 of sub-port 137.1; chapter 4: D2D_LNK_REPLAY at the die 3 end of A13.5. -/
theorem test_address_cbs : Reg.find 0x3149574 = some (.FLD_CBS_CFG, 8 * 549 + 5, false) := by decide +kernel
theorem test_address_replay : Reg.find 0x904B88 = some (.D2D_LNK_REPLAY, 2 * 37 + 1, false) := by decide +kernel
/-- R96: the CRC-16 of "123456789". -/
theorem test_crc16 : crc16 ((List.range 9).map fun k => BitVec.ofNat 8 (0x31 + k)) = 0x29B1 := by decide +kernel
/-- R84: the first header bytes of a TC0 plain-data frame. -/
theorem test_header :
    xHeader [0x18, 0, 0xA7, 0xC0, 0x12, 0x34, 0x53, 0, 0, 0, 1, 2, 0x10, 0, 0, 0] =
      ⟨1, true, false, 0x00A7C, 0, 0x12345, 3, 0, 0x102, 4096⟩ := by decide +kernel
/-- R259: store block 1,004 lies on HBM8, at 0x5_3A00 for line 10. -/
theorem test_line : lineStack (16 * 1004 + 10) = 8 ∧ lineAddr (16 * 1004 + 10) = 0x53A00 := by decide +kernel

/-- A chunk of one element of a format, its contributions taken in order. -/
def oneChunk (fmt n : Nat) (xs : List BlockIn) : ChunkRec :=
  { id := ⟨0, 0, 0⟩, fmt := fmt, op := 0, elems := 1, n := n, mxSat := false, e4m3Sat := false, arrived := 0, status := 0,
    blocks := [(xs.zipIdx.foldl (fun b x => applyBlock fmt 0 (x.2 = 0) b x.1) (LaneBlock.zero 1))],
    spilled := false, lines := 0, cells := [], moved := false, audit := none }

/-- R204: 256, 1 and −256 in BF16 give 1 in both orders, with no flag. -/
theorem test_bf16 :
    roundChunk (oneChunk 1 3 [⟨0, [0x4380]⟩, ⟨0, [0x3F80]⟩, ⟨0, [0xC380]⟩]) = ([0x3F, 0x80], 0) ∧
    roundChunk (oneChunk 1 3 [⟨0, [0xC380]⟩, ⟨0, [0x4380]⟩, ⟨0, [0x3F80]⟩]) = ([0x3F, 0x80], 0) := by decide +kernel
/-- R204: 1 and 0.25 in MXFP8 give scale 0x77 and element 0x7A in both orders, with no flag. -/
theorem test_mxfp8 :
    roundChunk (oneChunk 5 2 [⟨0x7F, [0x38]⟩, ⟨0x7D, [0x38]⟩]) = ([0x77, 0x7A], 0) ∧
    roundChunk (oneChunk 5 2 [⟨0x7D, [0x38]⟩, ⟨0x7F, [0x38]⟩]) = ([0x77, 0x7A], 0) := by decide +kernel
/-- R349: hall time after 1,000 s at QTZ_RATE +4,295, in units of 1/65,536 ns. -/
theorem test_hall_time :
    (sx [(.QTZ_RAW_raw, 0, 0x00E8D4A510000000), (.QTZ_RATE_rate, 0, 4295)] fun b =>
      { b with qOffset := 1799998999 * 10 ^ 9 * 65536 }).blk.quartzT =
      (1799999999 * 10 ^ 9 + 1000007) * 65536 + 40271 := by decide +kernel
/-- R381: the management firmware and the Plaper image of the example share no epoch. -/
theorem test_epochs :
    epochFail (fun i j => (([[(0, 0), (3, 5), (7, 9), (1, 2)], [(2, 4), (0, 0), (1, 6), (1, 1)], [(10, 12), (2, 3), (0, 0), (1, 3)],
      [(1, 1), (1, 1), (1, 1), (0, 0)]].getD i []).getD j (0, 0))) = 2 := by decide +kernel

/-- The router of the example of R339: colours 3, 10 and 40 of BPI5. -/
def router : Blk :=
  (sx [(.FOI_BPI_PWR_pwr, 5, 327), (.FOI_BPO_PWR_pwr, 8, 0x10000 - 260), (.FOI_BPO_PWR_pwr, 15, 0x10000 - 890)] fun b =>
    { b with foi := [(323, ⟨0, 4, 2, 0x10000 - 210, 2, 0, 0⟩), (330, ⟨0, 256 - 8, 2, 0x10000 - 230, 2, 0, 0⟩),
                     (360, ⟨0, 3, 2, 0x10000 - 980, 2, 0, 0⟩)] }).blk

theorem test_locate_downstream : router.locate 323 = 4 := by decide +kernel
theorem test_locate_output : router.locate 330 = 3 := by decide +kernel
theorem test_locate_upstream : router.locate 360 = 1 := by decide +kernel

end Sys2Proof.Tests
end

section
/-!
PROOF. Accesses of registers by 32-bit words (R9 to R12, R73, R183, R371, R415): what a word read and a word write do at the low
word and at the high word of a register, which registers are written by their access codes alone, and what becomes of a register
of a sub-port that does not exist. They settle O1 and O2.
-/

namespace Sys2Proof.Machine

/-! ### Facts about the registers -/

/-- Only a 64-bit register has a high word. -/
theorem Reg.wide_of_find_high {a i : Nat} {r : Reg} (h : Reg.find a = some (r, i, true)) : r.info.wide = true := by
  obtain ⟨q, -, hq⟩ := List.exists_of_findSome?_eq_some h
  obtain ⟨⟨j, up⟩, hat, he⟩ := Option.map_eq_some_iff.mp hq
  obtain ⟨rfl, rfl, rfl⟩ : q = r ∧ j = i ∧ up = true := by simpa using he
  unfold Reg.at? at hat
  split at hat
  · cases hat
  · split at hat
    · simp at hat
    · split at hat
      · assumption
      · cases hat
    · cases hat

/-- I2C_DATA, whose read pops a FIFO, is a 32-bit register. -/
theorem Reg.ne_i2cData_of_wide {r : Reg} (h : r.info.wide = true) : r ≠ .I2C_DATA := by
  rintro rfl; exact absurd h (by decide)

/-- A read clears no field of a register of a sub-port. -/
theorem Reg.access_ne_rc_of_link {r : Reg} {i l : Nat} (h : r.link? i = some l) :
    ∀ f ∈ r.info.fields, (f.info.access == .rc) = false := by
  unfold Reg.link? at h
  split at h
  rotate_right
  · cases h
  all_goals decide

theorem Reg.ne_i2cData_of_link {r : Reg} {i l : Nat} (h : r.link? i = some l) : r ≠ .I2C_DATA := by
  rintro rfl; cases h

/-- The interrupt enable registers are among those whose write does more than their fields' access codes say (R486). -/
theorem isEnable_of_not_acting {r : Reg} : actingReg r = false → isEnable r = false := by
  cases r <;> decide

namespace Blk

variable {s : Blk} {path : Path} {r : Reg} {a i v : Nat}

/-- A register that is missing is one of a sub-port (R73). -/
theorem link_of_missing (h : s.missing r i = true) : ∃ l, r.link? i = some l := by
  unfold missing at h
  split at h
  · exact ⟨_, ‹_›⟩
  · cases h

/-! ### Reads of a register -/

/-- A fold whose steps change register fields only changes register fields only. -/
theorem foldl_changes_fields {β : Type} (g : Blk → β → Blk) (h : ∀ t b, ∃ x, g t b = { t with fields := x }) (l : List β)
    (t : Blk) : ∃ x, l.foldl g t = { t with fields := x } := by
  induction l generalizing t with
  | nil => exact ⟨t.fields, rfl⟩
  | cons b l ih =>
    obtain ⟨x, hx⟩ := h t b
    obtain ⟨y, hy⟩ := ih (g t b)
    exact ⟨y, by rw [List.foldl_cons, hy, hx]⟩

/-- The step of a read at a field: one that a read clears is cleared (R12). -/
def clearRead (i : Nat) (s : Blk) (f : Fld) : Blk := if f.info.access == .rc then s.setFld f i (s.clearedTo f i) else s

theorem takeReg_of_ne_i2cData (h : r ≠ .I2C_DATA) :
    s.takeReg r i = (s.readReg r i, r.info.fields.foldl (clearRead i) s) := by
  rw [takeReg, if_neg h]; rfl

theorem clearRead_changes_fields (t : Blk) (f : Fld) : ∃ x, clearRead i t f = { t with fields := x } := by
  unfold clearRead
  split
  · exact ⟨_, rfl⟩
  · exact ⟨t.fields, rfl⟩

/-- A read of a register returns its value, and changes register fields only. -/
theorem takeReg_eq (h : r ≠ .I2C_DATA) : ∃ x, s.takeReg r i = (s.readReg r i, { s with fields := x }) := by
  obtain ⟨x, hx⟩ := foldl_changes_fields (clearRead i) clearRead_changes_fields r.info.fields s
  exact ⟨x, by rw [takeReg_of_ne_i2cData h, hx]⟩

/-- A register of a sub-port that does not exist reads as 0, and the read changes nothing (R73, R183, R371). -/
theorem takeReg_missing (h : s.missing r i = true) : s.takeReg r i = (0, s) := by
  obtain ⟨l, hl⟩ := link_of_missing h
  have hstep : ∀ t, ∀ f ∈ r.info.fields, clearRead i t f = t := fun t f hf => by
    simp [clearRead, Reg.access_ne_rc_of_link hl f hf]
  rw [takeReg_of_ne_i2cData (Reg.ne_i2cData_of_link hl), readReg, if_pos h,
    List.foldl_ext _ (fun t _ => t) s hstep, List.foldl_fixed]

/-! ### Reads of a word -/

/-- The low word of a 64-bit register is returned, and the high word latched (R11). -/
theorem wordRead_low (hf : Reg.find a = some (r, i, false)) (hw : r.info.wide = true) :
    ∃ x, s.wordRead a =
      (s.readReg r i % 2 ^ 32, { s with fields := x, hiLatch := s.hiLatch.put a (s.readReg r i / 2 ^ 32) }) := by
  obtain ⟨x, hx⟩ := takeReg_eq (s := s) (i := i) (Reg.ne_i2cData_of_wide hw)
  exact ⟨x, by simp [wordRead, hf, hw, hx]⟩

/-- A latched high word is returned, and latched no longer. -/
theorem wordRead_high_latched (hf : Reg.find a = some (r, i, true)) (hl : s.hiLatch.find (a - 4) = some v) :
    s.wordRead a = (v, { s with hiLatch := s.hiLatch.del (a - 4) }) := by
  simp [wordRead, hf, hl]

/-- Where no high word is latched, the live one is returned (log entry 14). -/
theorem wordRead_high_live (hf : Reg.find a = some (r, i, true)) (hl : s.hiLatch.find (a - 4) = none) :
    ∃ x, s.wordRead a = (s.readReg r i / 2 ^ 32, { s with fields := x }) := by
  obtain ⟨x, hx⟩ := takeReg_eq (s := s) (i := i) (Reg.ne_i2cData_of_wide (Reg.wide_of_find_high hf))
  exact ⟨x, by simp [wordRead, hf, hl, hx]⟩

/-- No register of a sub-port is one of a chained pair of counters. -/
theorem not_chain_of_link {l : Nat} (h : r.link? i = some l) : s.chainLow r i = false ∧ s.chainHigh r i = false := by
  have hne : r ≠ .JSP_PCNT := by rintro rfl; cases h
  simp [chainLow, chainHigh, hne]

/-- A missing 32-bit register reads as 0. -/
theorem wordRead_missing (hf : Reg.find a = some (r, i, false)) (hw : r.info.wide = false) (hm : s.missing r i = true) :
    s.wordRead a = (0, s) := by
  obtain ⟨l, hl⟩ := link_of_missing hm
  obtain ⟨hlow, hhigh⟩ := not_chain_of_link (s := s) hl
  simp [wordRead, hf, hw, takeReg_missing hm, hlow, hhigh]

/-! ### Writes of a register -/

/-- A register whose write does nothing more is written by its fields' access codes. -/
theorem busPut_eq_putReg (ha : actingReg r = false) (hm : s.missing r i = false) : busPut path s r i v = s.putReg r i v := by
  -- Every case but the last of either match is of a register that acts.
  unfold busPut
  split
  rotate_right
  · unfold regWrite
    rw [if_neg (by simp [hm])]
    split
    rotate_right
    · rw [if_neg (by simp [isEnable_of_not_acting ha])]
    all_goals cases ha
  all_goals cases ha

/-- A register of a sub-port that does not exist ignores writes (R73, R183, R371). -/
theorem busPut_missing (h : s.missing r i = true) : busPut path s r i v = s := by
  obtain ⟨l, hl⟩ := link_of_missing h
  unfold busPut
  -- No register of a sub-port is one of those that the bus itself handles.
  split
  rotate_right
  · unfold regWrite
    rw [if_pos h]
  all_goals cases hl

/-- A write by access code leaves the held low words as they were. -/
theorem putReg_loHeld : (s.putReg r i v).loHeld = s.loHeld := by
  rw [(Within.putReg (p := fun _ _ => True) s r i v fun _ _ => trivial).1]

/-! ### Writes of a word -/

/-- A 32-bit register is written whole. -/
theorem wordWrite_narrow {put : Blk → Reg → Nat → Nat → Blk} (hf : Reg.find a = some (r, i, false))
    (hw : r.info.wide = false) :
    s.wordWrite put a v = put s r i v := by
  simp [wordWrite, hf, hw]

/-- The low word of a 64-bit register is held (R11). -/
theorem wordWrite_low {put : Blk → Reg → Nat → Nat → Blk} (hf : Reg.find a = some (r, i, false))
    (hw : r.info.wide = true) :
    s.wordWrite put a v = { s with loHeld := s.loHeld.put a v } := by
  simp [wordWrite, hf, hw]

/-- The low word that the write of a high word commits with it (R11): the one held, or, where none is and no write clears bits
of the register, the register's own. -/
def CommitsLow (s : Blk) (r : Reg) (i a lo : Nat) : Prop :=
  s.loHeld.find (a - 4) = some lo ∨
    s.loHeld.find (a - 4) = none ∧ (∀ f ∈ r.info.fields, f.info.access ≠ .w1c) ∧ lo = s.regRaw r i % 2 ^ 32

theorem loHeld_getD_of_commitsLow {lo : Nat} (h : s.CommitsLow r i a lo) :
    (s.loHeld.find (a - 4)).getD (s.lowKept r i) = lo := by
  rcases h with hh | ⟨hn, hw1c, rfl⟩
  · simp [hh]
  · have hany : (r.info.fields.any fun f => f.info.access == .w1c) = false := by simpa using hw1c
    simp [hn, lowKept, hany]

/-- A high word written commits the register whole, and no low word is held then (R11). -/
theorem wordWrite_high {put : Blk → Reg → Nat → Nat → Blk} {lo : Nat} (hf : Reg.find a = some (r, i, true))
    (hlo : s.CommitsLow r i a lo) :
    s.wordWrite put a v = put { s with loHeld := s.loHeld.del (a - 4) } r i (v * 2 ^ 32 + lo) := by
  simp [wordWrite, hf, loHeld_getD_of_commitsLow hlo]

/-! ### From the bus to the word -/

theorem accessFits_word (h4 : a % 4 = 0) : accessFits a 4 = true := by simp [accessFits, h4]

/-- An aligned read of 32 bits reads a word, its domain not being isolated. -/
theorem busRead_word (h4 : a % 4 = 0) (hiso : ∀ n, addrDomain a = some n → s.isolated n = false) :
    s.busRead a 4 = s.wordRead a := by
  rw [busRead, accessFits_word h4, Bool.true_or, if_pos rfl, bar0Read]
  cases hd : addrDomain a with
  | none => simp
  | some n => simp [hiso n hd]

/-- An aligned write of 32 bits writes a word, its domain not being isolated. -/
theorem busWrite_word (h4 : a % 4 = 0) (hiso : ∀ n, addrDomain a = some n → s.isolated n = false) :
    s.busWrite path a v false = s.wordWrite (busPut path) a (v % 2 ^ 32) := by
  have hfit : accessFits a (if false = true then 8 else 4) = true := accessFits_word h4
  rw [busWrite, hfit, Bool.true_or, if_pos rfl, bar0Write]
  cases hd : addrDomain a with
  | none => simp
  | some n => simp [hiso n hd]

/-- What an open path writes arrives (R429). -/
theorem pathWrite_word (h4 : a % 4 = 0) (hiso : ∀ n, addrDomain a = some n → s.isolated n = false)
    (hp : path = .host → s.pcieUp = true) : pathWrite path a v false s = s.wordWrite (busPut path) a (v % 2 ^ 32) := by
  unfold pathWrite
  rw [if_neg (by simpa using hp), busWrite_word h4 hiso]

/-- No write on any path changes anything of a missing 32-bit register. -/
theorem pathWrite_missing (hf : Reg.find a = some (r, i, false)) (hw : r.info.wide = false) (hm : s.missing r i = true)
    (h4 : a % 4 = 0) (hiso : ∀ n, addrDomain a = some n → s.isolated n = false) : pathWrite path a v false s = s := by
  unfold pathWrite
  split
  · rfl
  · rw [busWrite_word h4 hiso, wordWrite_narrow hf hw, busPut_missing hm]

end Blk

/-! ### The commands -/

/-- LOW_WORD_READ sends the word that it reads. -/
theorem runs_lowWordRead {s : State} {a : BitVec 26} {P : State → Prop} {v : Nat} {b : Blk} (h4 : a.toNat % 4 = 0)
    (hiso : ∀ n, addrDomain a.toNat = some n → s.blk.isolated n = false) (hr : s.blk.wordRead a.toNat = (v, b))
    (h : P { s with blk := b.emit (.data v) }) :
    Runs (.lowWordRead a) s P := by
  refine ⟨_, rfl, ?_⟩
  simpa only [readOut, Blk.busRead_word h4 hiso, hr] using h

/-- A register that is missing reads as 0 and ignores writes: the first half of O1. -/
theorem runs_missing {s : State} {path : Path} {a : BitVec 26} {v : BitVec 64} {r : Reg} {i : Nat}
    (hf : Reg.find a.toNat = some (r, i, false)) (hiso : ∀ n, addrDomain a.toNat = some n → s.blk.isolated n = false)
    (hm : s.blk.missing r i = true) (h4 : a.toNat % 4 = 0) (hw : r.info.wide = false) :
    Runs (.registerWrite path a v false) s (fun t => t = s) ∧
    Runs (.lowWordRead a) s fun t => t = { s with blk := s.blk.emit (.data 0) } := by
  constructor
  · exact ⟨_, rfl, by rw [Blk.pathWrite_missing hf hw hm h4 hiso]⟩
  · exact runs_lowWordRead h4 hiso (Blk.wordRead_missing hf hw hm) rfl

/-- A 32-bit register is written by its access codes, and nothing else changes: the second half of O1. -/
theorem runs_registerWrite {s : State} {path : Path} {a : BitVec 26} {v : BitVec 64} {r : Reg} {i : Nat}
    (hans : Answers s.blk a.toNat r i false) (hw : r.info.wide = false) (h4 : a.toNat % 4 = 0) (ha : actingReg r = false)
    (hp : PathOpen s path) :
    Runs (.registerWrite path a v false) s fun t =>
      (∀ f ∈ r.info.fields, t.blk.fld f i = accessLeaves (f.accessAt i) f.info.width (s.blk.fld f i)
        (v.toNat % 2 ^ 32 / 2 ^ f.info.lo % 2 ^ f.info.width)) ∧
      OnlyFields s t (r.info.fields.map fun f => (f, i)) := by
  obtain ⟨hf, hiso, hm⟩ := hans
  have hput : Blk.pathWrite path a.toNat v.toNat false s.blk = s.blk.putReg r i (v.toNat % 2 ^ 32) := by
    rw [Blk.pathWrite_word h4 hiso hp, Blk.wordWrite_narrow hf hw, Blk.busPut_eq_putReg ha hm]
  refine ⟨_, rfl, ?_⟩
  rw [hput]
  refine ⟨fun f hmem => Blk.fld_putReg _ _ _ _ f hmem, rfl, rfl, Blk.Within.putReg _ _ _ _ fun f hmem => ?_⟩
  exact List.mem_map_of_mem hmem

/-- Settles O1: a word written to a register that does not act reaches `putReg`, whose fields follow their access codes. -/
theorem registerWriteByAccessCode : Obligations.RegisterWriteByAccessCode := by
  unfold Obligations.RegisterWriteByAccessCode
  exact ⟨fun _ _ _ _ _ _ => runs_missing, fun _ _ _ _ _ _ => runs_registerWrite⟩

/-- A high word written commits the register with its low word, by the access codes of its fields. -/
theorem runs_highWordWrite {s : State} {path : Path} {a : BitVec 26} {v : BitVec 32} {r : Reg} {i lo : Nat}
    (hans : Answers s.blk a.toNat r i true) (h4 : a.toNat % 4 = 0) (ha : actingReg r = false) (hp : PathOpen s path)
    (hlo : s.blk.CommitsLow r i a.toNat lo) :
    Runs (.highWordWrite path a v) s fun t =>
      (∀ f ∈ r.info.fields, t.blk.fld f i = accessLeaves (f.accessAt i) f.info.width (s.blk.fld f i)
        ((v.toNat * 2 ^ 32 + lo) / 2 ^ f.info.lo % 2 ^ f.info.width)) ∧
      t.blk.loHeld.find (a.toNat - 4) = none := by
  obtain ⟨hf, hiso, hm⟩ := hans
  have hput : Blk.pathWrite path a.toNat v.toNat false s.blk =
      { s.blk with loHeld := s.blk.loHeld.del (a.toNat - 4) }.putReg r i (v.toNat * 2 ^ 32 + lo) := by
    rw [Blk.pathWrite_word h4 hiso hp, Blk.wordWrite_high hf hlo, Nat.mod_eq_of_lt v.isLt]
    exact Blk.busPut_eq_putReg ha hm
  refine ⟨_, rfl, ?_⟩
  rw [hput]
  refine ⟨fun f hmem => Blk.fld_putReg _ _ _ _ f hmem, ?_⟩
  rw [Blk.putReg_loHeld, Tab.find_del_self]

/-- A low word written is held, and nothing else changes. -/
theorem runs_lowWordWrite {s : State} {path : Path} {a : BitVec 26} {v : BitVec 32} {r : Reg} {i : Nat}
    (hans : Answers s.blk a.toNat r i false) (hw : r.info.wide = true) (h4 : a.toNat % 4 = 0) (hp : PathOpen s path) :
    Runs (.lowWordWrite path a v) s fun t => t.blk.loHeld.find a.toNat = some v.toNat ∧
      t = { s with blk := { s.blk with loHeld := t.blk.loHeld } } := by
  obtain ⟨hf, hiso, -⟩ := hans
  have hput : Blk.pathWrite path a.toNat v.toNat false s.blk =
      { s.blk with loHeld := s.blk.loHeld.put a.toNat v.toNat } := by
    rw [Blk.pathWrite_word h4 hiso hp, Blk.wordWrite_low hf hw, Nat.mod_eq_of_lt v.isLt]
  refine ⟨_, rfl, ?_⟩
  rw [hput]
  exact ⟨Tab.find_put_self _ _ _, rfl⟩

/-- Settles O2, one lemma for each kind of access of a half: `wordRead` and `wordWrite` at a low and at a high word. -/
theorem sixtyFourBitHalves : Obligations.SixtyFourBitHalves := by
  unfold Obligations.SixtyFourBitHalves
  refine ⟨?_, ?_, ?_, fun _ _ _ _ _ _ => runs_lowWordWrite, fun _ _ _ _ _ _ _ => runs_highWordWrite⟩
  · rintro s a r i ⟨hf, hiso, -⟩ hw h4
    obtain ⟨x, hx⟩ := Blk.wordRead_low (s := s.blk) hf hw
    exact runs_lowWordRead h4 hiso hx ⟨rfl, Tab.find_put_self _ _ _⟩
  · rintro s a r i v ⟨hf, hiso, -⟩ h4 hl
    exact runs_lowWordRead h4 hiso (Blk.wordRead_high_latched hf hl) ⟨rfl, Tab.find_del_self _ _⟩
  · rintro s a r i ⟨hf, hiso, -⟩ h4 hl
    obtain ⟨x, hx⟩ := Blk.wordRead_high_live (s := s.blk) hf hl
    exact runs_lowWordRead h4 hiso hx rfl

end Sys2Proof.Machine
end

section
/-!
PROOF. What the handling of frames and copies leaves as it was: whatever becomes of a frame in staging, of its copies, its cells and
its trace records, Feldspar, Garnet, the collective contexts and the records for CPL rings are untouched, and of the register fields
only a few counts change.
-/

namespace Sys2Proof.Machine.Blk

/-- The register fields that the handling of frames may change: those that counting may, and its own counts. -/
def handling (g : Fld) : Prop :=
  counts g ∨ g = .JSP_TRC_LOST_count ∨ g = .JSP_INT_trc_lost ∨ g = .QTZ_TXTS_LOST_count ∨ g = .TIL_STG_STATUS_used ∨
    g = .BSL_DROP_PAIRDOWN_count ∨ g = .DMA_RING_HEAD_head

/-- `t` is `s` but for frames and copies, the cells, links and rings that serve them, what is recorded of them and what has been
sent; of the register fields only those of `handling` may differ. -/
def Handled (s t : Blk) : Prop :=
  t = { s with fields := t.fields, out := t.out, links := t.links, frames := t.frames, copies := t.copies, transfers := t.transfers,
               nextFrame := t.nextFrame, basalt := t.basalt, agateDirs := t.agateDirs, linkBusy := t.linkBusy,
               linkDrops := t.linkDrops, hostTx := t.hostTx, rings := t.rings, trcBuf := t.trcBuf, fresh := t.fresh, txts := t.txts,
               servo := t.servo } ∧
  ∀ f i, ¬ handling f → t.fld f i = s.fld f i

namespace Handled

variable {s t u : Blk}

theorem refl (s : Blk) : Handled s s := ⟨rfl, fun _ _ _ => rfl⟩

theorem trans (h : Handled s t) (k : Handled t u) : Handled s u := by
  refine ⟨?_, fun f i hf => (k.2 f i hf).trans (h.2 f i hf)⟩
  have hu := k.1
  rw [h.1] at hu
  exact hu

theorem ite {c : Prop} [Decidable c] (h : Handled s t) (k : Handled s u) : Handled s (if c then t else u) := by
  split
  exacts [h, k]

/-- What each step of a fold keeps, the fold keeps. -/
theorem foldl {β : Type} (g : Blk → β → Blk) (h : ∀ t b, Handled t (g t b)) (l : List β) (t : Blk) : Handled t (l.foldl g t) := by
  induction l generalizing t with
  | nil => exact refl t
  | cons b l ih => exact (h t b).trans (ih _)

/-- A change of the fields of `handling` and of what has been sent. -/
theorem of_within (h : Within s t fun f _ => handling f) : Handled s t := by
  refine ⟨?_, h.2⟩
  have ht := h.1
  unfold FldsOut at ht
  rw [ht]

theorem fld_eq (h : Handled s t) {f : Fld} (hf : ¬ handling f) (i : Nat) : t.fld f i = s.fld f i := h.2 f i hf
theorem flag_eq (h : Handled s t) {f : Fld} (hf : ¬ handling f) (i : Nat) : t.flag f i = s.flag f i := by simp [flag, h.fld_eq hf]
theorem feldOf (h : Handled s t) (l : Nat) : t.feldOf l = s.feldOf l := by rw [h.1]; rfl
theorem contexts (h : Handled s t) : t.contexts = s.contexts := by rw [h.1]
theorem engine (h : Handled s t) (n : Nat) : t.engine n = s.engine n := by rw [h.1]; rfl
theorem cplHeld (h : Handled s t) : t.cplHeld = s.cplHeld := by rw [h.1]
theorem cplWait (h : Handled s t) : t.cplWait = s.cplWait := by rw [h.1]

/-! ### Counts, events and what is sent -/

theorem setFld {f : Fld} (hf : handling f) (i v : Nat) : Handled s (s.setFld f i v) := of_within (Within.setFld s f i v hf)

theorem emit (o : Output) : Handled s (s.emit o) := of_within (Within.emit s o)

theorem count {f : Fld} (hf : handling f) (i n : Nat) : Handled s (s.count f i n) :=
  of_within (Within.count s f i n (fun _ _ h => .inl h) hf)

theorem handling_messages {g : Fld} (h : messages g) : handling g := by rcases h with rfl | rfl <;> simp [handling, counts]

theorem raise {f : Fld} (hf : handling f) (i : Nat) : Handled s (s.raise f i) :=
  of_within (Within.raise s f i (fun _ h => handling_messages h) hf)

theorem fireVector (v : Nat) : Handled s (s.fireVector v) := of_within (Within.fireVector s v fun _ h => handling_messages h)

theorem updLink (l : Nat) (g : LinkRec → LinkRec) : Handled s (s.updLink l g) := ⟨rfl, fun _ _ _ => rfl⟩

theorem onWire (l : Nat) (o : Output) : Handled s (s.onWire l o) := by
  have h : Handled s (s.transmitted l (mediumBytes o)) := ⟨rfl, fun _ _ _ => rfl⟩
  unfold Blk.onWire
  dsimp only
  split
  · exact h.trans (emit _)
  · exact h
  · split
    · exact h
    · exact h.trans (emit _)

/-! ### Traces and timestamps -/

theorem traceTimes (g : TraceTag) (enq sel out : Option Nat) : Handled s (s.traceTimes g enq sel out).2 := by
  unfold Blk.traceTimes
  split
  · exact refl s
  · exact ⟨rfl, fun _ _ _ => rfl⟩

theorem traceOut (tag : Option TraceTag) (kind point reason out : Nat) (enq : Option (Nat × Nat)) (sel sent : Option Nat) :
    Handled s (s.traceOut tag kind point reason out enq sel sent) := by
  unfold Blk.traceOut
  split
  · exact refl s
  · dsimp only
    split
    · exact (count (by simp [handling]) _ _).trans (raise (by simp [handling]) _)
    · exact (traceTimes _ _ _ _).trans ⟨rfl, fun _ _ _ => rfl⟩

theorem traceQueued (l : Nat) (e : QEntry) (reason : Nat) : Handled s (s.traceQueued l e reason) := traceOut _ _ _ _ _ _ _ _

theorem txStamp (l : Nat) (f : Frame) (start : Nat) (ok : Bool) : Handled s (s.txStamp l f start ok) := by
  unfold Blk.txStamp
  dsimp only
  split
  · exact count (by simp [handling]) _ _
  · unfold noteRequest
    dsimp only
    split <;> exact ⟨rfl, fun _ _ _ => rfl⟩

theorem ptpSent (l : Nat) (c : Option CopyRec) (f : Frame) (start : Nat) (ok : Bool) : Handled s (s.ptpSent l c f start ok).2 := by
  unfold Blk.ptpSent
  split
  · exact refl s
  · split_ifs
    · exact refl s
    · exact txStamp _ _ _ _
    · exact refl s
    · exact refl s

/-! ### Staging -/

theorem pfcUpdate (l c : Nat) : Handled s (s.pfcUpdate l c) := by
  unfold Blk.pfcUpdate
  dsimp only
  split_ifs
  · exact (updLink _ _).trans (onWire _ _)
  · exact (updLink _ _).trans (onWire _ _)
  · exact updLink _ _
  · exact refl s
  · exact refl s

theorem releaseStaging (tile : Nat) (link : Option Nat) (c n : Nat) : Handled s (s.releaseStaging tile link c n) := by
  unfold Blk.releaseStaging
  split
  · exact refl s
  · exact ((setFld (by simp [handling]) _ _).trans (updLink _ _)).trans (pfcUpdate _ _)

theorem putFrame (k : Nat) (r : FrameRec) : Handled s (s.putFrame k r) := ⟨rfl, fun _ _ _ => rfl⟩
theorem delFrame (k : Nat) : Handled s (s.delFrame k) := ⟨rfl, fun _ _ _ => rfl⟩
theorem putCopy (k : Nat) (c : CopyRec) : Handled s (s.putCopy k c) := ⟨rfl, fun _ _ _ => rfl⟩
theorem delCopy (k : Nat) : Handled s (s.delCopy k) := ⟨rfl, fun _ _ _ => rfl⟩
theorem updBsl (d : Nat) (g : BasaltDie → BasaltDie) : Handled s (s.updBsl d g) := ⟨rfl, fun _ _ _ => rfl⟩
theorem unland (k : Nat) : Handled s (s.unland k) := ⟨rfl, fun _ _ _ => rfl⟩
theorem freeCells (d : Nat) (cells : List Nat) : Handled s (s.freeCells d cells) := updBsl _ _
theorem dropOnLink (l : Nat) : Handled s (s.dropOnLink l) := ⟨rfl, fun _ _ _ => rfl⟩

theorem dropFrame (fid : Nat) : Handled s (s.dropFrame fid) := by
  unfold Blk.dropFrame
  split
  · exact refl s
  · dsimp only
    split
    · exact (releaseStaging _ _ _ _).trans (delFrame _)
    · exact ((traceOut _ _ _ _ _ _ _ _).trans (releaseStaging _ _ _ _)).trans (delFrame _)

theorem settle (fid : Nat) : Handled s (s.settle fid) := by
  unfold Blk.settle
  split
  · exact refl s
  · dsimp only
    split
    · exact ite (((releaseStaging _ _ _ _).trans (putFrame _ _)).trans (delFrame _)) ((releaseStaging _ _ _ _).trans (putFrame _ _))
    · exact refl s

theorem dropRef (key : Nat) : Handled s (s.dropRef key) := by
  unfold Blk.dropRef
  split
  · exact refl s
  · split
    · exact ((freeCells _ _).trans (delCopy _)).trans (settle _)
    · exact putCopy _ _

/-! ### Copies before an allocator -/

theorem traceDrop (key point reason : Nat) : Handled s (s.traceDrop key point reason) := by
  unfold Blk.traceDrop
  split
  · exact refl s
  · exact traceOut _ _ _ _ _ _ _ _

theorem putRing (r : Nat) (b : RingBook) : Handled s (s.putRing r b) := ⟨rfl, fun _ _ _ => rfl⟩

theorem ringPending (r : Nat) : Handled s (s.ringPending r) := by
  unfold Blk.ringPending
  dsimp only
  split
  · exact (putRing _ _).trans (emit _)
  · exact (putRing _ _).trans (fireVector _)

theorem advanceRing (r n : Nat) : Handled s (s.advanceRing r n) := by
  have hh : Handled s (s.setFld .DMA_RING_HEAD_head r (s.fld .DMA_RING_HEAD_head r + n)) := setFld (by simp [handling]) _ _
  have hw := fun (c : Bool) o => ite (c := c = true) (hh.trans (emit o)) hh
  exact ite (((hw _ _).trans (putRing _ _)).trans (ringPending _)) ((hw _ _).trans (putRing _ _))

theorem txDone (r status : Nat) : Handled s (s.txDone r status) := by
  unfold Blk.txDone
  split
  · exact refl s
  · refine trans (t := Blk.emit _ _) ?_ (advanceRing _ _)
    exact trans ⟨rfl, fun _ _ _ => rfl⟩ (emit _)

theorem discardCopy (key : Nat) : Handled s (s.discardCopy key) := by
  unfold Blk.discardCopy
  split
  · exact refl s
  · have hc := fun g cells => ((unland (s := s) key).trans (updBsl (key % 4) g)).trans (freeCells (key % 4) cells)
    dsimp only
    split
    · exact ((ite ((hc _ _).trans (txDone _ _)) (hc _ _)).trans (delCopy _)).trans (settle _)
    · exact ((hc _ _).trans (delCopy _)).trans (settle _)

theorem ask (key : Nat) : Handled s (s.ask key) := by
  unfold Blk.ask
  split
  · exact refl s
  · dsimp only
    split_ifs
    · exact (putCopy _ _).trans (updBsl _ _)
    · exact ((traceDrop _ _ _).trans (discardCopy _)).trans (count (by simp [handling]) _ _)
    · exact putCopy _ _

/-- A frame of the block's own is put before the allocators of its dies. -/
theorem makeCopies (fid : Nat) (target : Target) (f : Frame) (cls : Nat) (node : NodeSrc) (tile : Nat) (chkFail : Bool) :
    Handled s (s.makeCopies fid target f cls node none tile chkFail) :=
  (foldl _ (fun _ _ => putCopy _ _) _ s).trans (foldl _ (fun _ _ => ask _) _ _)

theorem emitFrame (tile : Nat) (target : Target) (f : Frame) (cls : Nat) (node : NodeSrc) :
    Handled s (s.emitFrame tile target f cls node) := by
  have hn : Handled s { s with nextFrame := s.nextFrame + 1 } := ⟨rfl, fun _ _ _ => rfl⟩
  exact ((hn.trans (putFrame _ _)).trans (makeCopies _ _ _ _ _ _ _)).trans (Handled.settle _)

/-- A frame of the block's own takes free values for its addresses. -/
theorem ownFrame (x : XOwn) : Handled s (s.ownFrame x).2 := ⟨rfl, fun _ _ _ => rfl⟩

theorem ctxFrame (t k : Nat) (c : CtxRec) (opcode chunk info : Nat) (payload : List Byte) :
    Handled s (s.ctxFrame t k c opcode chunk info payload).2 := ownFrame _

end Handled

end Sys2Proof.Machine.Blk
end

section
/-!
PROOF. The egress pipeline (R26, R55, R57, R60, R62, R64, R83): what the transmitter does as it goes on, what a frame's end leaves,
and how the frame selected first passes or is dropped. The first two clauses of O11.
-/

namespace Sys2Proof.Machine

/-! ### The link word (R55) -/

theorem crcBit_lt {w poly : Nat} (h : poly < 2 ^ w) (r : Nat) (b : Bool) : crcBit w poly r b < 2 ^ w := by
  have hr : r * 2 % 2 ^ w < 2 ^ w := Nat.mod_lt _ (Nat.two_pow_pos w)
  unfold crcBit
  dsimp only
  split
  · exact Nat.xor_lt_two_pow hr h
  · exact hr

/-- A CRC-8 is a byte. -/
theorem crc8_lt (bs : List Byte) : crc8 bs < 2 ^ 8 :=
  List.foldlRecOn bs _ (motive := (· < 2 ^ 8)) (by decide) fun _ hr _ _ =>
    List.foldlRecOn _ _ (motive := (· < 2 ^ 8)) hr fun _ _ _ _ => crcBit_lt (by decide) _ _

/-- A link word carries its sequence number in its top 13 bits. -/
theorem bits_makeWord (lsn ack : Nat) (nak : Bool) (cls total : Nat) :
    bits (makeWord lsn ack nak cls total).toNat 47 35 = lsn % 8192 := by
  have hnak : (if nak then 2 ^ 13 else 0) ≤ 2 ^ 13 := by split <;> decide
  unfold makeWord bits
  generalize (if nak then 2 ^ 13 else 0) = k at *
  have hcrc := crc8_lt (beBytes 5 (lsn % 8192 * 2 ^ 27 + ack % 8192 * 2 ^ 14 + k + cls % 8 * 2 ^ 10 + total % 1024))
  simp only [BitVec.toNat_ofNat]
  omega

namespace Blk

variable {s : Blk} {l : Nat} {x : TxRec} {xs : List TxRec} {c : CopyRec} {n : Nat} {w : BitVec 48}
  {f : Frame}

/-! ### The transmitter -/

theorem midFrame_of_none_begun (h : ∀ y ∈ (s.feldOf l).tx, y.begun = false) : s.midFrame l = false := by
  simpa [midFrame] using h

/-- With nothing due, nothing is sent again. -/
theorem sendDue_of_none_due {us : List SentFrame} (h : ∀ u ∈ us, u.due = false) : s.sendDue l us = s := by
  induction us with
  | nil => rfl
  | cons u us ih =>
    obtain ⟨hu, hus⟩ := List.forall_mem_cons.mp h
    rw [sendDue, if_pos (by simp [hu]), ih hus]

@[simp] theorem link_updLink_self (g : LinkRec → LinkRec) : (s.updLink l g).link l = g (s.link l) := by simp [link_updLink]
@[simp] theorem feldOf_updFeld_self (g : FeldLink → FeldLink) : (s.updFeld l g).feldOf l = g (s.feldOf l) := by
  simp [feldOf_updFeld]
@[simp] theorem link_updFeld (m : Nat) (g : FeldLink → FeldLink) : (s.updFeld l g).link m = s.link m := rfl
@[simp] theorem feldOf_updLink (m : Nat) (g : LinkRec → LinkRec) : (s.updLink l g).feldOf m = s.feldOf m := rfl

/-- A frame as it begins on a link, its timestamp being of now where its planned start has passed (R354). -/
def stamped (s : Blk) (l : Nat) (x : TxRec) : TxRec :=
  if x.startAt < s.now then { x with start := s.stampT l true 0, startOk := s.stampOk (tileOf l), startAt := s.now } else x

@[simp] theorem stamped_copy : (s.stamped l x).copy = x.copy := by unfold stamped; split <;> rfl
@[simp] theorem stamped_cls : (s.stamped l x).cls = x.cls := by unfold stamped; split <;> rfl
@[simp] theorem stamped_frame : (s.stamped l x).frame = x.frame := by unfold stamped; split <;> rfl

/-- The sequence number that the next frame to begin on a link has (R55). -/
def nextToSend (s : Blk) (l : Nat) : Nat := ((s.link l).lsn + 1) % 8192

/-- A frame that has begun on a link in Staketu mode, under the next sequence number (R55). -/
def numbered (s : Blk) (l : Nat) (x : TxRec) : TxRec :=
  { s.stamped l x with begun := true, word := some (s.nextToSend l, s.linkWord l (s.nextToSend l) false) }

theorem beginHead_staketu (h : s.staketu l = true) : s.beginHead l x xs =
    (s.updLink l fun r => { r with lsn := s.nextToSend l }).updFeld l fun f => { f with tx := s.numbered l x :: xs } := by
  unfold beginHead
  exact if_pos h

theorem beginHead_ethernet (h : s.staketu l = false) : s.beginHead l x xs =
    s.updFeld l fun f => { f with tx := { s.stamped l x with begun := true } :: xs } := by
  unfold beginHead
  exact if_neg (by simp [h])

/-- `t` is `s` after the transmitter has gone on: the next of the frames selected may have begun. -/
structure Resumed (s t : Blk) (l : Nat) : Prop where
  eq : t = { s with links := t.links, feld := t.feld }
  tx : (t.feldOf l).tx.map TxRec.copy = (s.feldOf l).tx.map TxRec.copy
  link : t.link l = { s.link l with lsn := (t.link l).lsn }
  idle : (s.feldOf l).tx = [] → t = s

theorem Resumed.refl (s : Blk) (l : Nat) : Resumed s s l := ⟨rfl, rfl, rfl, fun _ => rfl⟩

theorem resumed_beginHead (h : (s.feldOf l).tx = x :: xs) : Resumed s (s.beginHead l x xs) l := by
  cases hs : s.staketu l with
  | true =>
    rw [beginHead_staketu hs]
    exact ⟨rfl, by simp [h, numbered], by simp, by simp [h]⟩
  | false =>
    rw [beginHead_ethernet hs]
    exact ⟨rfl, by simp [h], by simp, by simp [h]⟩

/-- With no frame in progress and none due, the frame selected first begins where it fits the link and has its credits. -/
theorem pump_begins (hb : ∀ y ∈ (s.feldOf l).tx, y.begun = false) (hd : ∀ u ∈ (s.link l).unacked, u.due = false)
    (htx : (s.feldOf l).tx = x :: xs) (hlen : frameLen x.frame ≤ s.linkMax l)
    (hmay : s.mayBegin l x.cls (cellsOf (frameLen x.frame)) = true) : s.pump l = s.beginHead l x xs := by
  have hany : (s.link l).unacked.any SentFrame.due = false := by simpa using hd
  unfold pump
  simp [midFrame_of_none_begun hb, sendDue_of_none_due hd, hany, htx, hlen, hmay]

theorem resumed_pump (hd : ∀ u ∈ (s.link l).unacked, u.due = false) : Resumed s (s.pump l) l := by
  unfold pump
  simp only [sendDue_of_none_due hd, ite_self]
  split
  · exact .refl s l
  · split
    · exact .refl s l
    · split
      · exact .refl s l
      · split
        · exact resumed_beginHead ‹_›
        · exact .refl s l

/-! ### The end of a frame -/

theorem sendMark_eq : s.sendMark l =
    (s.lcf l .resyncMark { lcfBlank with classVal := classVals (s.link l).cellsSent }).updLink l fun r => { r with markDue := false } :=
  rfl

theorem links_onWire (m : Nat) (o : Output) : (s.onWire m o).links = s.links := by
  unfold onWire
  dsimp only
  split
  · rfl
  · rfl
  · split <;> rfl

@[simp] theorem link_onWire (m k : Nat) (o : Output) : (s.onWire m o).link k = s.link k := by simp [link, links_onWire]
@[simp] theorem feldOf_onWire (m k : Nat) (o : Output) : (s.onWire m o).feldOf k = s.feldOf k := (Handled.onWire m o).feldOf k

/-- What the mark of a re-initialisation leaves of its link: it is due no longer. -/
@[simp] theorem link_sendMark : (s.sendMark l).link l = { s.link l with markDue := false } := by
  simp [sendMark_eq, lcf, lcfNak]

@[simp] theorem feldOf_sendMark : (s.sendMark l).feldOf l = s.feldOf l := by simp [sendMark_eq, lcf, lcfNak]

/-- After the end of a frame, with none in progress and none due: the mark that was due is sent (R60), and the transmitter goes on. -/
theorem resumed_frameEnded (hb : ∀ y ∈ (s.feldOf l).tx, y.begun = false) (hd : ∀ u ∈ (s.link l).unacked, u.due = false) :
    ∃ s', Resumed s' (s.frameEnded l) l ∧ s'.feldOf l = s.feldOf l ∧ s'.link l = { s.link l with markDue := false } ∧
      ((s.link l).markDue = false → s' = s) := by
  cases hm : (s.link l).markDue with
  | true =>
    refine ⟨s.sendMark l, ?_, feldOf_sendMark, link_sendMark, by simp⟩
    rw [frameEnded, if_pos (by simp [hm, midFrame_of_none_begun hb])]
    exact resumed_pump (by simpa using hd)
  | false =>
    refine ⟨s, ?_, rfl, by rw [← hm], fun _ => rfl⟩
    rw [frameEnded, if_neg (by simp [hm])]
    exact resumed_pump hd

theorem portDark_onWire (m : Nat) (o : Output) : (s.onWire l o).portDark m = s.portDark m := by
  unfold onWire
  dsimp only
  split
  · rfl
  · rfl
  · split <;> rfl

theorem fld_onWire (m : Nat) (o : Output) (g : Fld) (i : Nat) : (s.onWire m o).fld g i = s.fld g i := by
  unfold onWire
  dsimp only
  split
  · rfl
  · rfl
  · split <;> rfl

theorem onWire_nearEnd {o : Output} (h : s.fld .TIL_PORT_MODE_loopback (portOf l) = 1) :
    s.onWire l o = (s.transmitted l (mediumBytes o)).emit (.nearEnd o) := by
  have h' : (s.transmitted l (mediumBytes o)).fld .TIL_PORT_MODE_loopback (portOf l) = 1 := h
  simp [onWire, h']

theorem onWire_medium {o : Output} (h1 : s.fld .TIL_PORT_MODE_loopback (portOf l) ≠ 1)
    (h2 : s.fld .TIL_PORT_MODE_loopback (portOf l) ≠ 2) (hd : s.portDark l = false) :
    s.onWire l o = (s.transmitted l (mediumBytes o)).emit o := by
  unfold onWire
  dsimp only
  split
  · exact absurd ‹_› h1
  · exact absurd ‹_› h2
  · exact if_neg (by rw [show (s.transmitted l (mediumBytes o)).portDark l = false from hd]; decide)

/-- What goes on a link's medium is the newest that the block has sent there (R74). -/
theorem sent_onWire (S : State) (o : Output) : Sent { S with blk := s.onWire l o } l o := by
  unfold Sent
  dsimp only
  rw [fld_onWire, portDark_onWire]
  split
  · rw [onWire_nearEnd ‹_›]; rfl
  · trivial
  · intro hd
    rw [onWire_medium ‹_› ‹_› hd]; rfl

/-- From `s`, whose link `l` has the frames `xs` selected behind it, frame `x` has left as `f` under number `n` and link word `w`. -/
structure Departed (s t : Blk) (l : Nat) (x : TxRec) (xs : List TxRec) (n : Nat) (w : BitVec 48) (f : Frame) : Prop where
  tx : (t.feldOf l).tx.map TxRec.copy = xs.map TxRec.copy
  lsn : xs = [] → (t.link l).lsn = (s.link l).lsn
  sent : (s.link l).markDue = false → ∀ S : State, Sent { S with blk := t } l (.frame l (some w) f false)
  unacked : (t.link l).unacked = keepSent (s.link l).unacked ⟨n, x.copy, x.cls, f, false, false, true⟩
  held : (t.link l).held = vsub (s.link l).held x.cls (cellsOf (frameLen f))
  cellsSent : (t.link l).cellsSent = vadd (s.link l).cellsSent x.cls (cellsOf (frameLen f))
  markDue : (t.link l).markDue = false

theorem mem_keepSent {us : List SentFrame} {u v : SentFrame} : v ∈ keepSent us u → v = u ∨ v ∈ us := by
  simp only [keepSent, List.mem_append, List.mem_cons, List.mem_filter]
  tauto

/-- A frame that ends on the medium with retry on: its credits are taken, and it is held until it is acknowledged. -/
theorem departed_transmit (hw : x.word = some (n, w)) (hr : s.flag .TIL_LNK_STATUS_retry_on l = true)
    (hb : ∀ y ∈ (s.feldOf l).tx, y.begun = false) (hd : ∀ u ∈ (s.link l).unacked, u.due = false) :
    Departed s (s.transmit l x f false) l x (s.feldOf l).tx n w f := by
  let s₁ := ((s.payCells l x.cls (cellsOf (frameLen f))).onWire l (.frame l (some w) f false)).updLink l fun r =>
    { r with unacked := keepSent r.unacked ⟨n, x.copy, x.cls, f, false, false, true⟩ }
  have hr₁ : ((s.payCells l x.cls (cellsOf (frameLen f))).onWire l (.frame l (some w) f false)).flag .TIL_LNK_STATUS_retry_on l = true := by
    simpa [flag, fld_onWire, payCells] using hr
  have ht : s.transmit l x f false = s₁.frameEnded l := by
    unfold transmit
    rw [hw]
    simp only [hr₁, if_true]
    rfl
  have hfeld : s₁.feldOf l = s.feldOf l := by simp [s₁, payCells]
  have hlink : s₁.link l = { s.link l with
      unacked := keepSent (s.link l).unacked ⟨n, x.copy, x.cls, f, false, false, true⟩,
      held := vsub (s.link l).held x.cls (cellsOf (frameLen f)),
      cellsSent := vadd (s.link l).cellsSent x.cls (cellsOf (frameLen f)) } := by simp [s₁, payCells]
  have hd₁ : ∀ u ∈ (s₁.link l).unacked, u.due = false := by
    intro u hu
    rw [hlink] at hu
    rcases mem_keepSent hu with rfl | hu
    · rfl
    · exact hd u hu
  obtain ⟨s', hres, hf', hl', hs'⟩ := resumed_frameEnded (hfeld ▸ hb) hd₁
  rw [← ht] at hres
  have hlt := hres.link
  rw [hl', hlink] at hlt
  refine ⟨?_, ?_, ?_, ?_, ?_, ?_, ?_⟩
  · rw [hres.tx, hf', hfeld]
  · intro hxs
    rw [hres.idle (by rw [hf', hfeld, hxs]), hl', hlink]
  · intro hm S
    have heq := hres.eq
    rw [hs' (by rw [hlink]; exact hm)] at heq
    have hsent : Sent { S with blk := s₁ } l (.frame l (some w) f false) := sent_onWire S _
    rw [heq]
    exact hsent
  all_goals rw [hlt]

/-! ### The frame selected first -/

/-- Counting a class's shaper up to now leaves the frames selected and the bank switch planned as they are. -/
theorem settleClass_leaves (s : Blk) (l k : Nat) : ∃ fd, s.settleClass l k = { s with feld := fd } ∧
    ∀ m, ((s.settleClass l k).feldOf m).tx = (s.feldOf m).tx ∧
      ((s.settleClass l k).feldOf m).switchAt = (s.feldOf m).switchAt := by
  unfold settleClass
  split
  · refine ⟨_, rfl, fun m => ?_⟩
    unfold putCbs
    rw [feldOf_updFeld]
    split
    · subst m; exact ⟨rfl, rfl⟩
    · exact ⟨rfl, rfl⟩
  · exact ⟨s.feld, rfl, fun _ => ⟨rfl, rfl⟩⟩

theorem pump_of_begun (htx : (s.feldOf l).tx = x :: xs) (hb : x.begun = true) : s.pump l = s := by
  unfold pump
  rw [if_pos (by simp [midFrame, htx, hb])]

/-- The frame at the head of those selected leaves them, its class's shaper counted up to now. -/
def unselect (s : Blk) (l : Nat) (x : TxRec) (xs : List TxRec) : Blk :=
  (s.settleClass l x.cls).updFeld l fun f => { f with tx := xs }

theorem unselect_eq : ∃ fd, s.unselect l x xs = { s with feld := fd } := by
  obtain ⟨fd, h, -⟩ := settleClass_leaves s l x.cls
  exact ⟨_, by unfold unselect updFeld; rw [h]⟩

@[simp] theorem unselect_tx : ((s.unselect l x xs).feldOf l).tx = xs := by simp [unselect]

theorem traceOut_links (tag : Option TraceTag) (kind point reason out : Nat) (enq : Option (Nat × Nat)) (sel sent : Option Nat) :
    (s.traceOut tag kind point reason out enq sel sent).links = s.links := by
  unfold traceOut
  split
  · rfl
  · dsimp only
    split
    · simp
    · unfold traceTimes
      split <;> rfl

theorem ptpSent_links (start : Nat) (ok : Bool) (k : Option CopyRec) : (s.ptpSent l k f start ok).2.links = s.links := by
  unfold ptpSent
  split
  · rfl
  · split_ifs
    · rfl
    · unfold txStamp
      dsimp only
      split
      · simp
      · unfold noteRequest
        dsimp only
        split <;> rfl
    · rfl
    · rfl

/-- What is found in staging of a frame whose tail has arrived and whose ingress check did not fail. -/
def Arrived (s : Blk) (fid : Nat) : Prop := ∀ r, s.frame? fid = some r → r.whole = true ∧ r.chkFail = false

/-- A good frame in transmission, its tail here, passes the egress pipeline and ends on the medium (R26). -/
theorem egress_of_begun (htx : (s.feldOf l).tx = x :: xs) (hb : x.begun = true) (hr : s.Arrived (x.copy / 4))
    (hc : s.copy? x.copy = some c) (hfail : c.chkFail = false) (hshort : c.short = false) (hlost : c.lost = false)
    (hcheck : s.checkFails l x (some c) false = false) :
    ∃ (s' : Blk) (f : Frame), s.egress l false = s'.transmit l x f false ∧ s'.links = s.links ∧ (s'.feldOf l).tx = xs ∧
      s'.flag .TIL_LNK_STATUS_retry_on l = s.flag .TIL_LNK_STATUS_retry_on l := by
  obtain ⟨fd, hu⟩ := unselect_eq (s := s) (l := l) (x := x) (xs := xs)
  have hwhole : ((s.frame? (x.copy / 4)).map (·.whole)).getD true = true := by
    cases h : s.frame? (x.copy / 4) with
    | none => rfl
    | some r => exact (hr r h).1
  have hgood : ((s.frame? (x.copy / 4)).map (·.chkFail)).getD false = false := by
    cases h : s.frame? (x.copy / 4) with
    | none => rfl
    | some r => exact (hr r h).2
  have hgood' : (((s.unselect l x xs).frame? (x.copy / 4)).map (·.chkFail)).getD false = false := by rw [hu]; exact hgood
  have hcheck' : (s.unselect l x xs).checkFails l x (some c) false = false := by rw [hu]; exact hcheck
  let s₁ := (s.unselect l x xs).traceOut ((CopyRec.tag c).map (TraceTag.marked x.ce)) 1 0 0 l (some (x.enq, x.depth)) (some x.sel)
    (some x.startAt)
  have he : s.egress l false =
      (s₁.ptpSent l (some c) x.frame x.start x.startOk).2.transmit l x (s₁.ptpSent l (some c) x.frame x.start x.startOk).1 false := by
    unfold egress
    rw [pump_of_begun htx hb]
    dsimp only
    rw [htx]
    dsimp only
    rw [← unselect]
    simp [hc, hwhole, hb, hfail, hshort, hlost, hgood', hcheck', s₁]
  have hh : Handled (s.unselect l x xs) (s₁.ptpSent l (some c) x.frame x.start x.startOk).2 :=
    (Handled.traceOut ..).trans (Handled.ptpSent ..)
  refine ⟨_, _, he, ?_, ?_, ?_⟩
  · rw [ptpSent_links, traceOut_links, hu]
  · rw [hh.feldOf, unselect_tx]
  · rw [hh.flag_eq (by simp [handling, counts]), hu]; rfl

theorem departed_egress_of_begun (htx : (s.feldOf l).tx = x :: xs) (hb : x.begun = true) (hw : x.word = some (n, w))
    (hxs : ∀ y ∈ xs, y.begun = false) (hd : ∀ u ∈ (s.link l).unacked, u.due = false) (hr : s.Arrived (x.copy / 4))
    (hc : s.copy? x.copy = some c) (hfail : c.chkFail = false) (hshort : c.short = false) (hlost : c.lost = false)
    (hcheck : s.checkFails l x (some c) false = false) (hretry : s.flag .TIL_LNK_STATUS_retry_on l = true) :
    ∃ f, Departed s (s.egress l false) l x xs n w f := by
  obtain ⟨s', f, he, hl, htx', hr'⟩ := egress_of_begun htx hb hr hc hfail hshort hlost hcheck
  have hlink : s'.link l = s.link l := by unfold link; rw [hl]
  obtain ⟨h1, h2, h3, h4, h5, h6, h7⟩ := departed_transmit (s := s') (f := f) hw (hr'.trans hretry) (by rwa [htx']) (by rwa [hlink])
  rw [hlink] at h2 h3 h4 h5 h6
  rw [htx'] at h1 h2
  rw [he]
  exact ⟨f, h1, h2, h3, h4, h5, h6, h7⟩

@[simp] theorem numbered_copy : (s.numbered l x).copy = x.copy := stamped_copy
@[simp] theorem numbered_cls : (s.numbered l x).cls = x.cls := stamped_cls
@[simp] theorem numbered_frame : (s.numbered l x).frame = x.frame := stamped_frame

/-- Where the transmitter lets the frame selected first begin, that frame passes. -/
theorem egress_of_begins (h : s.pump l = s.beginHead l x xs) (hs : s.staketu l = true) :
    s.egress l false = (s.beginHead l x xs).egress l false := by
  have hp : (s.beginHead l x xs).pump l = s.beginHead l x xs :=
    pump_of_begun (x := s.numbered l x) (xs := xs) (by rw [beginHead_staketu hs]; simp) rfl
  unfold egress
  rw [hp, h]

theorem departed_egress_of_begins (htx : (s.feldOf l).tx = x :: xs) (hb : x.begun = false) (hs : s.staketu l = true)
    (hlen : frameLen x.frame ≤ s.linkMax l) (hmay : s.mayBegin l x.cls (cellsOf (frameLen x.frame)) = true)
    (hxs : ∀ y ∈ xs, y.begun = false) (hd : ∀ u ∈ (s.link l).unacked, u.due = false) (hr : s.Arrived (x.copy / 4))
    (hc : s.copy? x.copy = some c) (hfail : c.chkFail = false) (hshort : c.short = false) (hlost : c.lost = false)
    (hcheck : s.checkFails l x (some c) false = false) (hretry : s.flag .TIL_LNK_STATUS_retry_on l = true) :
    ∃ f, Departed (s.updLink l fun r => { r with lsn := s.nextToSend l }) (s.egress l false) l x xs (s.nextToSend l)
      (s.linkWord l (s.nextToSend l) false) f := by
  have hp : s.pump l = s.beginHead l x xs := pump_begins (by rw [htx]; simpa [hb] using hxs) hd htx hlen hmay
  have hcheck' : (s.beginHead l x xs).checkFails l (s.numbered l x) (some c) false = false := by
    rw [beginHead_staketu hs, checkFails, numbered_frame]
    exact hcheck
  rw [egress_of_begins hp hs]
  rw [beginHead_staketu hs] at *
  obtain ⟨f, h⟩ := departed_egress_of_begun (x := s.numbered l x) (xs := xs) (c := c) (by simp) rfl rfl hxs (by simpa using hd)
    (by rw [numbered_copy]; exact hr) (by rw [numbered_copy]; exact hc) hfail hshort hlost hcheck' hretry
  obtain ⟨h1, h2, h3, h4, h5, h6, h7⟩ := h
  exact ⟨f, h1, h2, h3, by rwa [numbered_copy, numbered_cls] at h4, by rwa [numbered_cls] at h5, by rwa [numbered_cls] at h6, h7⟩

/-! ### A frame too long for its link (R83) -/

theorem onWire_leaves (s : Blk) (l : Nat) (o : Output) : ∃ b p, s.onWire l o = { s with linkBusy := b, out := p } := by
  unfold onWire
  dsimp only
  split
  · exact ⟨_, _, rfl⟩
  · exact ⟨_, s.out, rfl⟩
  · split
    · exact ⟨_, s.out, rfl⟩
    · exact ⟨_, _, rfl⟩

/-- `t` is `s` after frames have been sent again on link `l`. -/
def Resent (s t : Blk) (l : Nat) : Prop :=
  t = { s with links := t.links, linkBusy := t.linkBusy, out := t.out } ∧ (t.link l).maxFrame = (s.link l).maxFrame

theorem Resent.refl (s : Blk) (l : Nat) : Resent s s l := ⟨rfl, rfl⟩

theorem Resent.trans {s t u : Blk} (h : Resent s t l) (k : Resent t u l) : Resent s u l := by
  refine ⟨?_, k.2.trans h.2⟩
  have hu := k.1
  rw [h.1] at hu
  exact hu

theorem resent_updLink {g : LinkRec → LinkRec} (hg : ∀ r, (g r).maxFrame = r.maxFrame) : Resent s (s.updLink l g) l :=
  ⟨rfl, by simp [hg]⟩

theorem resent_onWire (o : Output) : Resent s (s.onWire l o) l := by
  obtain ⟨b, p, h⟩ := onWire_leaves s l o
  rw [h]
  exact ⟨rfl, rfl⟩

theorem resent_sendOnce (u : SentFrame) : Resent s (s.sendOnce l u) l := by
  have hpaid : Resent s (if u.paid then s else s.payCells l u.cls (cellsOf (frameLen u.frame))) l := by
    split
    · exact .refl s l
    · exact resent_updLink fun _ => rfl
  unfold sendOnce
  exact (hpaid.trans (resent_onWire _)).trans (resent_updLink fun _ => rfl)

theorem resent_sendDue (us : List SentFrame) : Resent s (s.sendDue l us) l := by
  induction us generalizing s with
  | nil => exact .refl s l
  | cons u us ih =>
    rw [sendDue]
    split
    · exact ih
    · split
      · exact (resent_sendOnce u).trans ih
      · exact .refl s l

theorem Resent.linkMax {s t : Blk} (h : Resent s t l) : t.linkMax l = s.linkMax l := by
  unfold Blk.linkMax
  rw [h.2]
  rw [h.1]
  rfl

/-- What the transmitter can do as it goes on: frames are sent again, and the frame selected first may begin, where it fits. -/
theorem pump_cases (s : Blk) (l : Nat) : ∃ s', Resent s s' l ∧ (s.pump l = s' ∨
    ∃ x xs, (s.feldOf l).tx = x :: xs ∧ frameLen x.frame ≤ s.linkMax l ∧ s.pump l = s'.beginHead l x xs) := by
  have hsent : Resent s (if s.flows l && !(s.link l).txReinit then s.sendDue l (s.link l).unacked else s) l := by
    split
    · exact resent_sendDue _
    · exact .refl s l
  unfold pump
  split
  · exact ⟨s, .refl s l, .inl rfl⟩
  · refine ⟨_, hsent, ?_⟩
    dsimp only
    generalize (if s.flows l && !(s.link l).txReinit then s.sendDue l (s.link l).unacked else s) = s' at *
    have hfeld : s'.feldOf l = s.feldOf l := by rw [hsent.1]; rfl
    split
    · exact .inl rfl
    · rw [hfeld]
      split
      · exact .inl rfl
      · split
        next h => 
          rw [hsent.linkMax] at h
          exact .inr ⟨_, _, ‹_›, by simp_all, rfl⟩
        · exact .inl rfl

/-- The transmitter writes no register field, and takes no frame off those selected. -/
theorem pump_leaves (s : Blk) (l : Nat) : (s.pump l).fields = s.fields ∧
    ((s.pump l).feldOf l).tx.map TxRec.copy = (s.feldOf l).tx.map TxRec.copy := by
  obtain ⟨s', hr, h⟩ := pump_cases s l
  have hfields : s'.fields = s.fields := by rw [hr.1]
  have hfeld : s'.feldOf l = s.feldOf l := by rw [hr.1]; rfl
  rcases h with h | ⟨x, xs, htx, -, h⟩
  · rw [h, hfields, hfeld]; exact ⟨rfl, rfl⟩
  · have hb := resumed_beginHead (hfeld ▸ htx)
    rw [h]
    exact ⟨by rw [hb.eq]; exact hfields, by rw [hb.tx, hfeld]⟩

theorem fields_sendMark : (s.sendMark l).fields = s.fields := by
  obtain ⟨b, p, h⟩ := onWire_leaves s l (.lcf l (if s.staketu l then some (s.linkWord l (s.link l).lsn false) else none)
    (lcfFrame s.imgLcf l .resyncMark { lcfBlank with classVal := classVals (s.link l).cellsSent, txStamp := BitVec.ofNat 32 (s.stamp l) }))
  rw [sendMark_eq, lcf, lcfNak, h]
  rfl

/-- Neither does the end of a frame. -/
theorem frameEnded_leaves (s : Blk) (l : Nat) : (s.frameEnded l).fields = s.fields ∧
    ((s.frameEnded l).feldOf l).tx.map TxRec.copy = (s.feldOf l).tx.map TxRec.copy := by
  unfold frameEnded
  split
  · obtain ⟨h1, h2⟩ := pump_leaves (s.sendMark l) l
    rw [h1, h2, fields_sendMark, feldOf_sendMark]
    exact ⟨rfl, rfl⟩
  · exact pump_leaves s l

/-- A frame too long for its link does not begin. -/
theorem pump_of_too_long (htx : (s.feldOf l).tx = x :: xs) (hlen : s.linkMax l < frameLen x.frame) : Resent s (s.pump l) l := by
  obtain ⟨s', hr, h | ⟨y, ys, htx', hy, -⟩⟩ := pump_cases s l
  · rwa [h]
  · obtain ⟨rfl, rfl⟩ := List.cons.inj (htx.symm.trans htx')
    omega

/-- A frame too long for its link, the first of those selected, is dropped at egress as OVERSIZE (R83). -/
theorem egress_of_too_long (htx : (s.feldOf l).tx = x :: xs) (hb : x.begun = false)
    (hr : ∀ r, s.frame? (x.copy / 4) = some r → r.whole = true) (hlen : s.linkMax l < frameLen x.frame) :
    ((s.egress l false).feldOf l).tx.map TxRec.copy = xs.map TxRec.copy ∧
      (s.egress l false).fld .TIL_FWD_DROP_count (14 * tileOf l + 0xC) =
        min (s.fld .TIL_FWD_DROP_count (14 * tileOf l + 0xC) + 1) (2 ^ 64 - 1) := by
  have hp := pump_of_too_long htx hlen
  have hmax := hp.linkMax
  set s' := s.pump l with hs'
  have hfeld : s'.feldOf l = s.feldOf l := by rw [hp.1]; rfl
  have hframe : s'.frame? (x.copy / 4) = s.frame? (x.copy / 4) := by rw [hp.1]; rfl
  have hwhole : ((s'.frame? (x.copy / 4)).map (·.whole)).getD true = true := by
    rw [hframe]
    cases h : s.frame? (x.copy / 4) with
    | none => rfl
    | some r => exact hr r h
  obtain ⟨fd, hu⟩ := unselect_eq (s := s') (l := l) (x := x) (xs := xs)
  obtain ⟨g, he⟩ : ∃ g, s.egress l false = ((((((s'.unselect l x xs).traceOut g 2 1 0xC l (some (x.enq, x.depth)) (some x.sel) none).count
      .TIL_FWD_DROP_count (14 * tileOf l + 0xC) 1).dropOnLink l).dropRef x.copy).frameEnded l) := by
    refine ⟨((((s'.unselect l x xs).copy? x.copy).bind CopyRec.tag).map (TraceTag.marked x.ce)), ?_⟩
    have hnot : ¬ frameLen x.frame ≤ s'.linkMax l := by omega
    unfold egress
    rw [← hs']
    dsimp only
    rw [hfeld, htx]
    dsimp only
    rw [← unselect]
    simp [hwhole, hb, hnot]
  let s₁ := (s'.unselect l x xs).traceOut g 2 1 0xC l (some (x.enq, x.depth)) (some x.sel) none
  let s₂ := s₁.count .TIL_FWD_DROP_count (14 * tileOf l + 0xC) 1
  have h₁ : Handled (s'.unselect l x xs) s₁ := .traceOut ..
  have h₃ : Handled s₂ ((s₂.dropOnLink l).dropRef x.copy) := (Handled.dropOnLink l).trans (.dropRef _)
  have hfld : s₁.fld .TIL_FWD_DROP_count (14 * tileOf l + 0xC) = s.fld .TIL_FWD_DROP_count (14 * tileOf l + 0xC) := by
    rw [h₁.fld_eq (by simp [handling, counts]), hu]
    exact fld_congr (by rw [hp.1]) _ _
  obtain ⟨hfields, htx'⟩ := frameEnded_leaves ((s₂.dropOnLink l).dropRef x.copy) l
  rw [he]
  constructor
  · have hf₂ : s₂.feldOf l = s₁.feldOf l := by simp [feldOf, s₂]
    rw [htx', h₃.feldOf, hf₂, h₁.feldOf, unselect_tx]
  · rw [fld_congr hfields, h₃.fld_eq (by simp [handling, counts]), fld_count_self _ _ _ _ (by simp [counts]) rfl, hfld]

end Blk

end Sys2Proof.Machine
end

section
/-!
PROOF. Gate lists (R172, R174, R175, R183): what a move of a link's gates keeps, and what a boundary, a commit and a bank switch do.
The last clauses of O11, and O11 itself.
-/

namespace Sys2Proof.Machine

namespace Blk

variable {s : Blk} {l : Nat}

/-- `t` is `s` but for shapers, queues and frames: no field of the gates has changed, and no bank switch is planned anew. -/
def GateKept (l : Nat) (s t : Blk) : Prop :=
  (∀ f i, f = .FLD_GATE_STATUS_active ∨ f = .FLD_GATE_STATUS_pending → t.fld f i = s.fld f i) ∧
    (t.feldOf l).switchAt = (s.feldOf l).switchAt

theorem GateKept.refl (l : Nat) (s : Blk) : GateKept l s s := ⟨fun _ _ _ => rfl, rfl⟩

theorem GateKept.trans {s t u : Blk} (h : GateKept l s t) (k : GateKept l t u) : GateKept l s u :=
  ⟨fun f i hf => (k.1 f i hf).trans (h.1 f i hf), k.2.trans h.2⟩

theorem GateKept.foldl {β : Type} (g : Blk → β → Blk) (h : ∀ t b, GateKept l t (g t b)) (bs : List β) (t : Blk) :
    GateKept l t (bs.foldl g t) := by
  induction bs generalizing t with
  | nil => exact .refl l t
  | cons b bs ih => exact (h t b).trans (ih _)

theorem gateKept_of_handled {t : Blk} (h : Handled s t) : GateKept l s t := by
  refine ⟨?_, by rw [h.feldOf]⟩
  rintro f i (rfl | rfl) <;> exact h.fld_eq (by simp [handling, counts]) i

/-- A change of other fields and of what has been sent. -/
theorem gateKept_of_within {t : Blk} {p : Fld → Nat → Prop} (h : Within s t p)
    (hp : ∀ i, ¬ p .FLD_GATE_STATUS_active i ∧ ¬ p .FLD_GATE_STATUS_pending i) : GateKept l s t := by
  refine ⟨?_, by rw [h.1]; rfl⟩
  rintro f i (rfl | rfl)
  exacts [h.2 _ _ (hp i).1, h.2 _ _ (hp i).2]

theorem gateKept_settleClass (m k : Nat) : GateKept l s (s.settleClass m k) := by
  obtain ⟨fd, h, hf⟩ := settleClass_leaves s m k
  exact ⟨fun f i _ => by rw [h]; rfl, (hf l).2⟩

theorem gateKept_setQueue (q : Nat) (es : List QEntry) : GateKept l s (s.setQueue q es) :=
  ⟨by rintro f i (rfl | rfl) <;> exact fld_setFld_ne _ _ _ _ _ _ (by decide), rfl⟩

theorem gateKept_discardCount (t : Nat) : GateKept l s (s.count .FLD_GATE_DROP_count t 1) :=
  gateKept_of_within (Within.count (p := fun f _ => counts f ∨ f = .FLD_GATE_DROP_count) _ _ _ _ (fun _ _ h => .inl h) (.inr rfl))
    (by simp [counts])

theorem gateKept_gateErr (t : Nat) : GateKept l s (s.raise .FLD_INT_gate_err t) :=
  gateKept_of_within (Within.raise (p := fun f _ => messages f ∨ f = .FLD_INT_gate_err) _ _ _ (fun _ h => .inl h) (.inr rfl))
    (by simp [messages])

/-- A head frame that its gate can never let pass is discarded (R174), and the gates stay as they are. -/
theorem gateKept_gateDiscard (k q : Nat) : GateKept l s (s.gateDiscard l k q) := by
  unfold gateDiscard
  dsimp only
  split
  next e rest room _ _ =>
    split
    · have hqueue := ((gateKept_of_handled (l := l) (Handled.traceQueued (s := s) l e 1)).trans (gateKept_settleClass l k)).trans
        (gateKept_setQueue q rest)
      have hcount := (hqueue.trans (gateKept_of_handled (.dropRef e.copy))).trans (gateKept_discardCount (tileOf l))
      exact (hcount.trans (gateKept_gateErr (tileOf l))).trans (gateKept_of_handled (.dropOnLink l))
    · exact .refl l s
  · exact .refl l s

/-- The gates of a link that enters its entry in force keep their bank. -/
theorem gateKept_enterGates (was : Nat → Bool) : GateKept l s (s.enterGates l was) := by
  unfold enterGates
  split
  · have he : GateKept l s (s.setFld .FLD_GATE_STATUS_entry l (s.gateEntry l s.quartzNs)) :=
      ⟨by rintro f i (rfl | rfl) <;> exact fld_setFld_ne _ _ _ _ _ _ (by decide), rfl⟩
    refine he.trans (GateKept.foldl _ (fun t k => ?_) _ _)
    split
    · refine GateKept.foldl _ (fun t n => ?_) _ _
      split
      · exact gateKept_gateDiscard _ _
      · exact .refl l t
    · exact .refl l t
  · exact .refl l s

/-- Counting a link's shapers up to now changes Feldspar's state alone. -/
theorem settleCbs_eq (s : Blk) (l : Nat) : ∃ fd, s.settleCbs l = { s with feld := fd } := by
  unfold settleCbs
  generalize List.range 8 = ks
  induction ks generalizing s with
  | nil => exact ⟨s.feld, rfl⟩
  | cons k ks ih =>
    obtain ⟨fd, h, -⟩ := settleClass_leaves s l k
    obtain ⟨fd', h'⟩ := ih (s.settleClass l k)
    exact ⟨fd', by rw [List.foldl_cons, h', h]⟩

theorem moveGates_singleton (g : Blk → Blk) : s.moveGates [l] g = (g (s.settleCbs l)).enterGates l (s.heldOpen l) := by
  simp only [moveGates, List.foldl_cons, List.foldl_nil]

/-- A bank switch toggles the active bank, and none is pending then (R175). -/
theorem switchBank_leaves : (s.switchBank l).fld .FLD_GATE_STATUS_active l = (1 - s.fld .FLD_GATE_STATUS_active l) % 2 ∧
    (s.switchBank l).flag .FLD_GATE_STATUS_pending l = false ∧ ((s.switchBank l).feldOf l).switchAt = none := by
  obtain ⟨fd, hs⟩ := settleCbs_eq s l
  unfold switchBank
  rw [moveGates_singleton, hs]
  obtain ⟨hfld, hat⟩ := gateKept_enterGates (l := l) (s.heldOpen l)
    (s := ((({ s with feld := fd }.setFld .FLD_GATE_STATUS_active l (1 - Blk.gateBank { s with feld := fd } l)).setFld
      .FLD_GATE_STATUS_pending l 0).updFeld l fun f => { f with switchAt := none }))
  refine ⟨?_, ?_, ?_⟩
  · rw [hfld _ _ (.inl rfl), fld_updFeld, fld_setFld_ne _ _ _ _ _ _ (by decide), fld_setFld_self]
    rfl
  · rw [flag, hfld _ _ (.inr rfl), fld_updFeld, fld_setFld_self]
    rfl
  · rw [hat, feldOf_updFeld_self]

/-- With no frame queued, no head frame is discarded as gates open. -/
theorem enterGates_of_no_queues {was : Nat → Bool} (hg : s.gated l = true) (hq : s.queues = []) :
    s.enterGates l was = s.setFld .FLD_GATE_STATUS_entry l (s.gateEntry l s.quartzNs) := by
  have hdiscard : ∀ k q, (s.setFld .FLD_GATE_STATUS_entry l (s.gateEntry l s.quartzNs)).gateDiscard l k q =
      s.setFld .FLD_GATE_STATUS_entry l (s.gateEntry l s.quartzNs) := by
    intro k q
    have hempty : (s.setFld .FLD_GATE_STATUS_entry l (s.gateEntry l s.quartzNs)).queue q = [] := by
      simp [queue, hq, Tab.get, Tab.find]
    simp [gateDiscard, hempty]
  unfold enterGates
  rw [if_pos hg]
  dsimp only
  generalize s.setFld .FLD_GATE_STATUS_entry l (s.gateEntry l s.quartzNs) = t at *
  have hclass : ∀ (ns : List Nat) k, ns.foldl (fun u n =>
      if u.nodeOwner (portOf l) n = subOf l then u.gateDiscard l k (256 * portOf l + 32 * k + n) else u) t = t := by
    intro ns k
    induction ns with
    | nil => rfl
    | cons n ns ih => rw [List.foldl_cons, hdiscard, ite_self, ih]
  generalize List.range 7 = ks
  induction ks with
  | nil => rfl
  | cons k ks ih => rw [List.foldl_cons, hclass, ite_self, ih]

/-! ### A commit, by what it finds (R175, R183) -/

theorem gateCommit_of_missing (h : s.linkExists l = false) : s.gateCommit l = s := by simp [gateCommit, h]

theorem gateCommit_of_pending (h : s.linkExists l = true) (hp : s.flag .FLD_GATE_STATUS_pending l = true) :
    s.gateCommit l = s.raise .FLD_INT_cfg_reject (tileOf l) := by simp [gateCommit, h, hp]

theorem gateCommit_of_disabled (h : s.linkExists l = true) (hp : s.flag .FLD_GATE_STATUS_pending l = false)
    (he : s.flag .FLD_GATE_CTL_gate_en l = false) : s.gateCommit l = s.switchBank l := by simp [gateCommit, h, hp, he]

theorem gateCommit_of_enabled (h : s.linkExists l = true) (hp : s.flag .FLD_GATE_STATUS_pending l = false)
    (he : s.flag .FLD_GATE_CTL_gate_en l = true) : s.gateCommit l =
      (s.setFld .FLD_GATE_STATUS_pending l 1).updFeld l fun f =>
        { f with switchAt := some (s.nextCycle l (1 - s.gateBank l) (s.quartzNs + 1000)) } := by simp [gateCommit, h, hp, he]

/-- A cycle start at or after `t` (R175). -/
theorem le_nextCycle (s : Blk) (l b t : Nat) : t ≤ s.nextCycle l b t := by
  have hc : 0 < (s.gateCycle l b : Int) := by unfold gateCycle; omega
  unfold nextCycle
  dsimp only
  have hdiv := Int.ediv_mul_le ((s.gateBase l b : Int) - t) hc.ne'
  rw [neg_mul]
  omega

end Blk

/-! ### The commands -/

/-- A command that changes the block alone, from the block that it leaves. -/
theorem runs_of_eq {i : Instr} {s : State} {P : State → Prop} {g : Blk → Blk} {b : Blk} (h : exec i s = run g s)
    (hb : g s.blk = b) (hp : P { s with blk := b }) : Runs i s P :=
  ⟨{ s with blk := b }, hb ▸ h, hp⟩

theorem runs_gateBoundary {s : State} {l : LinkId} (hg : s.blk.gated l = true) (hq : s.blk.queues = []) :
    Runs (.gateBoundary l) s fun t => t.blk.fld .FLD_GATE_STATUS_entry l = s.blk.gateEntry l s.blk.quartzNs % 64 ∧
      OnlyFields { s with blk := { s.blk with feld := t.blk.feld } } t [(.FLD_GATE_STATUS_entry, l)] := by
  obtain ⟨fd, hs⟩ := Blk.settleCbs_eq s.blk l
  have ht : s.blk.gateBoundary l =
      Blk.setFld { s.blk with feld := fd } .FLD_GATE_STATUS_entry l (s.blk.gateEntry l s.blk.quartzNs) := by
    unfold Blk.gateBoundary
    rw [Blk.moveGates_singleton, hs]
    exact Blk.enterGates_of_no_queues (s := { s.blk with feld := fd }) hg hq
  exact runs_of_eq (g := (·.gateBoundary l)) rfl ht ⟨Blk.fld_setFld_self .., rfl, rfl, Blk.Within.setFld _ _ _ _ (by simp)⟩

theorem runs_gateCommit_missing {s : State} {l : LinkId} (h : s.blk.linkExists l = false) : Runs (.gateCommit l) s (· = s) := by
  exact runs_of_eq (g := (·.gateCommit l)) rfl (Blk.gateCommit_of_missing h) rfl

theorem runs_gateCommit_planned {s : State} {l : LinkId} (h : s.blk.linkExists l = true)
    (hp : s.blk.flag .FLD_GATE_STATUS_pending l = false) (he : s.blk.flag .FLD_GATE_CTL_gate_en l = true) :
    Runs (.gateCommit l) s fun t => t.blk.flag .FLD_GATE_STATUS_pending l = true ∧
      t.blk.fld .FLD_GATE_STATUS_active l = s.blk.fld .FLD_GATE_STATUS_active l ∧
      ∃ at_, (t.blk.feldOf l).switchAt = some at_ ∧ s.blk.quartzNs + 1000 ≤ at_ := by
  refine runs_of_eq (g := (·.gateCommit l)) rfl (Blk.gateCommit_of_enabled h hp he) ?_
  dsimp only
  refine ⟨?_, ?_, s.blk.nextCycle l (1 - s.blk.gateBank l) (s.blk.quartzNs + 1000), ?_, Blk.le_nextCycle ..⟩
  · simp only [Blk.flag, Blk.fld_updFeld, Blk.fld_setFld_self]
    decide
  · simp
  · rw [Blk.feldOf_updFeld_self]

theorem runs_gateCommit_at_once {s : State} {l : LinkId} (h : s.blk.linkExists l = true)
    (hp : s.blk.flag .FLD_GATE_STATUS_pending l = false) (he : s.blk.flag .FLD_GATE_CTL_gate_en l = false) :
    Runs (.gateCommit l) s fun t => t.blk.fld .FLD_GATE_STATUS_active l = (1 - s.blk.fld .FLD_GATE_STATUS_active l) % 2 ∧
      t.blk.flag .FLD_GATE_STATUS_pending l = false := by
  obtain ⟨hactive, hpending, -⟩ := Blk.switchBank_leaves (s := s.blk) (l := l)
  refine runs_of_eq (g := (·.gateCommit l)) rfl (Blk.gateCommit_of_disabled h hp he) ?_
  dsimp only
  exact ⟨hactive, hpending⟩

theorem runs_gateCommit_pending {s : State} {l : LinkId} (h : s.blk.linkExists l = true)
    (hp : s.blk.flag .FLD_GATE_STATUS_pending l = true) :
    Runs (.gateCommit l) s fun t => t.blk.flag .FLD_INT_cfg_reject (tileOf l) = true ∧
      OnlyFieldsIrq s t [(.FLD_INT_cfg_reject, tileOf l)] := by
  refine runs_of_eq (g := (·.gateCommit l)) rfl (Blk.gateCommit_of_pending h hp) ?_
  dsimp only
  have hwithin : s.blk.Within (s.blk.raise .FLD_INT_cfg_reject (tileOf l)) fun f i => (f, i) ∈
      [(Fld.MGT_IRQ_ARMED_armed, 0), (Fld.MSIX_PBA_pend, 0), (Fld.FLD_INT_cfg_reject, tileOf l)] := by
    refine Blk.Within.raise _ _ _ (fun g hg => ?_) (by simp)
    rcases hg with rfl | rfl <;> simp
  exact ⟨Blk.flag_raise _ _ _ (by simp [Blk.messages]), rfl, rfl, hwithin⟩

theorem runs_gateBankSwitch {s : State} {l : LinkId} (hp : s.blk.flag .FLD_GATE_STATUS_pending l = true) :
    Runs (.gateBankSwitch l) s fun t => t.blk.fld .FLD_GATE_STATUS_active l = (1 - s.blk.fld .FLD_GATE_STATUS_active l) % 2 ∧
      t.blk.flag .FLD_GATE_STATUS_pending l = false ∧ (t.blk.feldOf l).switchAt = none := by
  refine runs_of_eq (g := fun b => if b.flag .FLD_GATE_STATUS_pending l then b.switchBank l else b) rfl (if_pos hp) ?_
  dsimp only
  exact Blk.switchBank_leaves

theorem runs_egressPipeline_sent {s : State} {l : LinkId} {x : TxRec} {xs : List TxRec} {c : CopyRec} {n : Nat} {w : BitVec 48}
    (htx : (s.blk.feldOf l).tx = x :: xs) (hxs : ∀ y ∈ xs, y.begun = false) (hd : ∀ u ∈ (s.blk.link l).unacked, u.due = false)
    (hr : s.blk.Arrived (x.copy / 4)) (hc : s.blk.copy? x.copy = some c) (hfail : c.chkFail = false) (hshort : c.short = false)
    (hlost : c.lost = false) (hcheck : s.blk.checkFails l x (some c) false = false) (hs : s.blk.staketu l = true)
    (hretry : s.blk.flag .TIL_LNK_STATUS_retry_on l = true)
    (h : (x.begun = true ∧ x.word = some (n, w)) ∨ (x.begun = false ∧ frameLen x.frame ≤ s.blk.linkMax l ∧
      s.blk.mayBegin l x.cls (cellsOf (frameLen x.frame)) = true ∧ n = ((s.blk.link l).lsn + 1) % 8192 ∧
      w = s.blk.linkWord l n false)) :
    Runs (.egressPipeline l false) s fun t => (t.blk.feldOf l).tx.map TxRec.copy = xs.map TxRec.copy ∧
      (x.begun = false → bits w.toNat 47 35 = n ∧ (xs = [] → (t.blk.link l).lsn = n)) ∧
      (∃ f, ((s.blk.link l).markDue = false → Sent t l (.frame l (some w) f false)) ∧
        (t.blk.link l).unacked = Blk.keepSent (s.blk.link l).unacked ⟨n, x.copy, x.cls, f, false, false, true⟩ ∧
        (t.blk.link l).held = vsub (s.blk.link l).held x.cls (cellsOf (frameLen f)) ∧
        (t.blk.link l).cellsSent = vadd (s.blk.link l).cellsSent x.cls (cellsOf (frameLen f))) ∧
      (t.blk.link l).markDue = false := by
  refine runs_of_eq (g := (·.egress l false)) rfl rfl ?_
  dsimp only
  rcases h with ⟨hb, hw⟩ | ⟨hb, hlen, hmay, rfl, rfl⟩
  · obtain ⟨f, hdep⟩ := Blk.departed_egress_of_begun htx hb hw hxs hd hr hc hfail hshort hlost hcheck hretry
    exact ⟨hdep.tx, by simp [hb], ⟨f, fun hm => hdep.sent hm s, hdep.unacked, hdep.held, hdep.cellsSent⟩, hdep.markDue⟩
  · obtain ⟨f, hdep⟩ := Blk.departed_egress_of_begins htx hb hs hlen hmay hxs hd hr hc hfail hshort hlost hcheck hretry
    have hword : bits (s.blk.linkWord l (((s.blk.link l).lsn + 1) % 8192) false).toNat 47 35 = ((s.blk.link l).lsn + 1) % 8192 :=
      (bits_makeWord ..).trans (Nat.mod_mod _ _)
    obtain ⟨h1, h2, h3, h4, h5, h6, h7⟩ := hdep
    rw [Blk.link_updLink_self] at h2 h3 h4 h5 h6
    exact ⟨h1, fun _ => ⟨hword, h2⟩, ⟨f, fun hm => h3 hm s, h4, h5, h6⟩, h7⟩

theorem runs_egressPipeline_oversize {s : State} {l : LinkId} {x : TxRec} {xs : List TxRec} (htx : (s.blk.feldOf l).tx = x :: xs)
    (hb : x.begun = false) (hr : ∀ r, s.blk.frame? (x.copy / 4) = some r → r.whole = true)
    (hlen : s.blk.linkMax l < frameLen x.frame) :
    Runs (.egressPipeline l false) s fun t => (t.blk.feldOf l).tx.map TxRec.copy = xs.map TxRec.copy ∧
      t.blk.fld .TIL_FWD_DROP_count (14 * tileOf l + 0xC) =
        min (s.blk.fld .TIL_FWD_DROP_count (14 * tileOf l + 0xC) + 1) (2 ^ 64 - 1) := by
  refine runs_of_eq (g := (·.egress l false)) rfl rfl ?_
  dsimp only
  exact Blk.egress_of_too_long htx hb hr hlen

/-- Settles O11: a frame that has begun passes (`departed_egress_of_begun`), one that may begin does so first; one too long is dropped;
and a lemma for each command of the gates. -/
theorem egressAndGates : Obligations.EgressAndGates := by
  unfold Obligations.EgressAndGates
  refine ⟨⟨?_, ?_⟩, ?_, ?_, ?_, ?_, ?_⟩
  · intro s l x xs c n w htx hxs hd hr hc hfail hshort hlost hcheck hs hretry h
    exact runs_egressPipeline_sent htx hxs hd hr hc hfail hshort hlost hcheck hs hretry h
  · intro s l x xs c htx hb hr _ hlen
    exact runs_egressPipeline_oversize htx (hb x List.mem_cons_self) hr hlen
  · exact fun _ _ => runs_gateBoundary
  · exact fun _ _ => runs_gateCommit_missing
  · exact fun _ _ => runs_gateCommit_planned
  · exact fun _ _ => runs_gateCommit_at_once
  · exact fun _ _ h hp => ⟨runs_gateCommit_pending h hp, runs_gateBankSwitch hp⟩

end Sys2Proof.Machine
end

section
/-!
PROOF. Collective frames that are received (R24, R27, R235, R237): one that fails a check is discarded and counted, and one that passes
is taken by its context. The first half of O22.
-/

namespace Sys2Proof.Machine

namespace Blk

variable {s : Blk} {fid op k : Nat} {r : FrameRec} {c : CtxRec}

@[simp] theorem ctx_putCtx_self : (s.putCtx k c).ctx? k = some c := Tab.find_put_self _ _ _
@[simp] theorem frame_putFrame_self : (s.putFrame fid r).frame? fid = some r := Tab.find_put_self _ _ _
@[simp] theorem ctx_putFrame (f : Nat) : (s.putFrame f r).ctx? k = s.ctx? k := rfl

/-- A frame that leaves staging is in the block no longer. -/
theorem frame_dropFrame (fid : Nat) : (s.dropFrame fid).frame? fid = none := by
  unfold dropFrame
  split
  · assumption
  · exact Tab.find_del_self _ _

/-! ### The first check that a frame fails (R235) -/

/-- A received frame of a collective in staging, its tail here and its end-to-end check right, of an opcode that members send. -/
structure Collective (s : Blk) (fid op : Nat) (r : FrameRec) : Prop where
  frame : s.frame? fid = some r
  dest : r.dest = .garnet
  whole : r.whole = true
  chkFail : r.chkFail = false
  opcode : (xHeader r.frame.data).opcode = op
  sent : 0x10 ≤ op ∧ op ≤ 0x13

theorem colReceive_of_check_some (h : s.Collective fid op r) {reason : Nat} (hc : s.colCheck r = some reason) :
    s.colReceive fid op = s.colDiscard fid r.tile reason := by
  obtain ⟨hf, hd, hw, hk, ho, hs⟩ := h
  simp [colReceive, hf, hd, hw, hk, ho, hs, hc]

theorem colReceive_of_check_none (h : s.Collective fid op r) (hc : s.colCheck r = none)
    (hk : k = ctxNum (colArea r.frame.data).group (colArea r.frame.data).seq) (hctx : s.ctx? k = some c) :
    s.colReceive fid op = if c.reducing then s.takeContrib fid r k c
      else if c.kind = 5 then s.takeArrival fid r k c else s.takePiece fid r k c := by
  obtain ⟨hf, hd, hw, hfail, ho, hs⟩ := h
  rw [hk] at hctx ⊢
  simp [colReceive, hf, hd, hw, hfail, ho, hs, hc, hctx]

theorem colDiscard_leaves (fid tile reason : Nat) : (s.colDiscard fid tile reason).frame? fid = none ∧
    (s.colDiscard fid tile reason).contexts = s.contexts ∧
    (s.colDiscard fid tile reason).fld .COL_DISCARD_count (9 * tile + reason) =
      min (s.fld .COL_DISCARD_count (9 * tile + reason) + 1) (2 ^ 64 - 1) := by
  have h := Handled.dropFrame (s := s.count .COL_DISCARD_count (9 * tile + reason) 1) fid
  refine ⟨frame_dropFrame fid, ?_, ?_⟩
  · rw [colDiscard, h.contexts, count_contexts]
  · rw [colDiscard, h.fld_eq (by simp [handling, counts]), fld_count_self _ _ _ _ (by simp [counts]) rfl]

/-! ### A frame that passes -/

/-- Closing a context that has taken everything changes its state alone. -/
theorem closeIfTaken_eq (c : CtxRec) : ∃ st, closeIfTaken c = { c with state := st } := by
  unfold closeIfTaken
  split
  · exact ⟨_, rfl⟩
  · exact ⟨c.state, rfl⟩

/-- A whole frame for another die, over a pair that is up, crosses: its crossing is under way, and nothing else has changed. -/
theorem startCross_leaves {d : Nat} (hf : s.frame? fid = some r)
    (hlive : dieOfTile r.tile ≠ d → 0 < s.liveLinks (dirOf (dieOfTile r.tile) d)) :
    ∃ tr, s.startCross fid d = { s with transfers := tr } ∧
      (dieOfTile r.tile ≠ d → (tr.find (4 * fid + d)).isSome = true) := by
  unfold startCross
  simp only [hf]
  split
  next h =>
    refine ⟨s.transfers, rfl, fun hne => ?_⟩
    simpa [hne] using h
  next h =>
    have hne : dieOfTile r.tile ≠ d := fun h' => h (by simp [h'])
    rw [if_neg (Nat.ne_of_gt (hlive hne))]
    exact ⟨_, rfl, fun _ => by rw [Tab.find_put_self]; rfl⟩

/-- A context that has taken a contribution (R196). -/
def withContrib (c : CtxRec) (a : ColArea) : CtxRec :=
  { c with taken := c.taken.put a.chunk (c.taken.get 0 a.chunk ||| 2 ^ a.member) }

/-- A context that has taken a piece (R237). -/
def withPiece (c : CtxRec) (a : ColArea) : CtxRec :=
  { c with taken := c.taken.put a.member (c.taken.get 0 a.member + 1), chunksOk := c.chunksOk + 1 }

/-- A context that has taken an arrival (R237). -/
def withArrival (c : CtxRec) (a : ColArea) : CtxRec := { c with taken := c.taken.put a.member 1 }

@[simp] theorem taken_closeIfTaken : (closeIfTaken c).taken = c.taken := by
  obtain ⟨st, h⟩ := closeIfTaken_eq c
  rw [h]

@[simp] theorem chunksOk_closeIfTaken : (closeIfTaken c).chunksOk = c.chunksOk := by
  obtain ⟨st, h⟩ := closeIfTaken_eq c
  rw [h]

theorem get_put_self {α : Type} (t : Tab α) (d : α) (key : Nat) (v : α) : (t.put key v).get d key = v := by
  simp [Tab.get, Tab.find_put_self]

/-- An arrival crosses to the die of the barrier's home tile first (R24). -/
theorem takeArrival_of_not_crossed (hcross : s.crossed fid r (dieOfTile (c.home 0)) = false) :
    s.takeArrival fid r k c = s.startCross fid (dieOfTile (c.home 0)) := by
  simp [takeArrival, hcross]

theorem pieces_addPiece (t : Nat) (i : ReplItem) :
    ((s.addPiece t i).repl.get .reset t).pieces = (s.repl.get .reset t).pieces ++ [i] := by
  simp [addPiece, Tab.get_set]

theorem ctx_addPiece (t : Nat) (i : ReplItem) : (s.addPiece t i).ctx? k = s.ctx? k := rfl

section
variable {a : ColArea} (ha : a = colArea r.frame.data)
include ha

/-- A contribution is taken, and goes to the engine of its chunk (R27). -/
theorem takeContrib_leaves {e : Nat} (he : s.engineFor c ⟨k, a.chunk, a.epoch⟩ = some e)
    (hlive : dieOfTile r.tile ≠ dieOfTile e → 0 < s.liveLinks (dirOf (dieOfTile r.tile) (dieOfTile e))) :
    (s.takeContrib fid r k c).frame? fid = some { r with dest := .engine } ∧
      (dieOfTile r.tile ≠ dieOfTile e → ((s.takeContrib fid r k c).transfers.find (4 * fid + dieOfTile e)).isSome = true) ∧
      ((s.takeContrib fid r k c).ctx? k).map (fun x => x.taken.get 0 a.chunk) = some (c.taken.get 0 a.chunk ||| 2 ^ a.member) := by
  let s₁ := (s.putCtx k (closeIfTaken (withContrib c a))).putFrame fid { r with dest := .engine }
  have heq : s.takeContrib fid r k c = s₁.startCross fid (dieOfTile e) := by
    subst ha
    unfold takeContrib
    simp only [he]
    rfl
  obtain ⟨tr, ht, hsome⟩ := startCross_leaves (s := s₁) (d := dieOfTile e) frame_putFrame_self hlive
  rw [heq, ht]
  refine ⟨frame_putFrame_self, hsome, ?_⟩
  have hctx : s₁.ctx? k = some (closeIfTaken (withContrib c a)) := ctx_putCtx_self
  rw [show ({ s₁ with transfers := tr } : Blk).ctx? k = s₁.ctx? k from rfl, hctx]
  simp [withContrib, get_put_self]

theorem takePiece_eq : ∃ (fr : Nat) (target : Target) (f : Frame) (node : NodeSrc), s.takePiece fid r k c =
    (((({ s with fresh := fr } : Blk).putCtx k (closeIfTaken (withPiece c a))).putFrame fid { r with dest := .pieces }).addPiece r.tile
      ⟨some fid, target, f, 5, node⟩) := by
  subst ha
  exact ⟨_, _, _, _, rfl⟩

/-- A piece is taken, and handed to replication (R237). -/
theorem takePiece_leaves : (s.takePiece fid r k c).frame? fid = some { r with dest := .pieces } ∧
    ((s.takePiece fid r k c).ctx? k).map (fun x => (x.taken.get 0 a.member, x.chunksOk)) =
      some (c.taken.get 0 a.member + 1, c.chunksOk + 1) ∧
    ∃ x, ((s.takePiece fid r k c).repl.get .reset r.tile).pieces = (s.repl.get .reset r.tile).pieces ++ [x] ∧
      x.piece = some fid := by
  obtain ⟨fr, target, f, node, heq⟩ := takePiece_eq (s := s) (fid := fid) (k := k) (c := c) ha
  rw [heq]
  refine ⟨frame_putFrame_self, ?_, _, pieces_addPiece _ _, rfl⟩
  rw [ctx_addPiece, ctx_putFrame, ctx_putCtx_self]
  simp [withPiece, get_put_self]

/-- There it is taken; the last one has BARRIER_DONE sent. -/
theorem takeArrival_cases (hcross : s.crossed fid r (dieOfTile (c.home 0)) = true) :
    ∃ s₁, s₁ = (s.putCtx k (closeIfTaken (withArrival c a))).dropFrame fid ∧ (s.takeArrival fid r k c = s₁ ∨
      ∃ (fr t : Nat) (i : ReplItem), s.takeArrival fid r k c = ({ s₁ with fresh := fr } : Blk).addPiece t i) := by
  subst ha
  refine ⟨_, rfl, ?_⟩
  unfold takeArrival
  rw [if_neg (by simp [hcross])]
  dsimp only
  split
  · exact .inr ⟨_, _, _, rfl⟩
  · exact .inl rfl

/-- An arrival at the die of the barrier's home tile is counted (R237). -/
theorem takeArrival_leaves (hcross : s.crossed fid r (dieOfTile (c.home 0)) = true) :
    (s.takeArrival fid r k c).frame? fid = none ∧
      ((s.takeArrival fid r k c).ctx? k).map (fun x => x.taken.get 0 a.member) = some 1 := by
  obtain ⟨s₁, hs₁, h⟩ := takeArrival_cases (k := k) ha hcross
  have hframe : s₁.frame? fid = none := by rw [hs₁, frame_dropFrame]
  have hctx : s₁.ctx? k = some (closeIfTaken (withArrival c a)) := by
    rw [hs₁, ctx?, (Handled.dropFrame fid).contexts]
    exact ctx_putCtx_self
  have hcount : (s₁.ctx? k).map (fun x => x.taken.get 0 a.member) = some 1 := by
    rw [hctx]
    simp [withArrival, get_put_self]
  rcases h with h | ⟨fr, t, i, h⟩
  · rw [h]; exact ⟨hframe, hcount⟩
  · rw [h, ctx_addPiece]; exact ⟨hframe, hcount⟩

end

end Blk
end Sys2Proof.Machine
end

section
/-!
PROOF. How a context ends (R238, R243, R249, R252, R413, R477): its timer, its record, and the abort of its chunks. The second half of
O22, and O22 itself.
-/

namespace Sys2Proof.Machine

theorem length_beBytes (n v : Nat) : (beBytes n v).length = n := by simp [beBytes]

namespace Blk

variable {s : Blk} {k : Nat} {c : CtxRec}

/-! ### The record of a context (R252) -/

theorem length_ctxRecord (mapped : Bool) : (s.ctxRecord c mapped).length = 32 := by
  simp only [ctxRecord, List.length_append, length_beBytes]

/-- Its first byte is the context's status. -/
theorem take_one_ctxRecord (mapped : Bool) : (s.ctxRecord c mapped).take 1 = beBytes 1 c.status := by
  simp only [ctxRecord, List.append_assoc]
  exact List.take_left' (length_beBytes 1 c.status)

/-- The counts and the token of a descriptor's end are register fields. -/
theorem fldsOut_descEnds (d : ColDesc) (status : Nat) : FldsOut s (s.descEnds d status) := by
  have hite : ∀ {t u v : Blk} (p : Prop) [Decidable p], FldsOut t u → FldsOut t v → FldsOut t (if p then u else v) := by
    intro t u v p _ h h'
    split
    exacts [h, h']
  have hsignal : ∀ (t : Blk) ok, FldsOut t (t.signal d ok) := fun t ok => hite _ (FldsOut.rfl' t) (FldsOut.setFld ..)
  have hraise : ∀ (t : Blk) f (p : Prop) [Decidable p], FldsOut t (if p then t.raise f 0 else t) := fun t f p _ =>
    hite p (FldsOut.raise ..) (FldsOut.rfl' t)
  have hcount := hite (status = 0) (FldsOut.count s .COL_COMPLETED_count 0 1)
    ((FldsOut.count s .COL_FAILED_count 0 1).trans (FldsOut.raise _ .COL_INT_ctx_fail 0))
  exact (((hcount.trans (hraise _ _ _)).trans (hraise _ _ _)).trans (hsignal _ _))

/-- A record is placed where the pending buffer has room, and the work that owes it ends (R477). -/
theorem postWork_of_room {ring kind : Nat} {bytes : List Byte} {w : HeldWork} {f : Blk → Blk} (h : s.cplFull = false) :
    s.postWork ring kind bytes w f = f (s.placeRecord ring ⟨kind, bytes⟩) := by simp [postWork, h]

theorem postWork_of_full {ring kind : Nat} {bytes : List Byte} {w : HeldWork} {f : Blk → Blk} (hk : kind ≠ 5)
    (h : s.cplFull = true) : s.postWork ring kind bytes w f =
      ({ s with cplHeld := s.cplHeld ++ [HeldRec.mk ring ⟨kind, bytes⟩ w] } : Blk).raise .DMA_INT_cpl_full 0 := by
  simp [postWork, h, hk]

theorem FldsOut.ctx {t : Blk} (h : FldsOut s t) (k : Nat) : t.ctx? k = s.ctx? k := by unfold FldsOut at h; rw [h]; rfl
theorem FldsOut.engine {t : Blk} (h : FldsOut s t) (m : Nat) : t.engine m = s.engine m := by unfold FldsOut at h; rw [h]; rfl
theorem FldsOut.cplWait {t : Blk} (h : FldsOut s t) : t.cplWait = s.cplWait := by unfold FldsOut at h; rw [h]

/-- Context `c` at number `k` has its record placed, and has left its slot. -/
def released (s : Blk) (k : Nat) (c : CtxRec) (mapped : Bool) : Blk :=
  ((s.putCtx k { c with recorded := true }).placeRecord c.desc.cring.toNat ⟨1, s.ctxRecord c mapped⟩).freeCtx k

theorem ctx_released (mapped : Bool) : (s.released k c mapped).ctx? k = none := Tab.find_del_self _ _

theorem engine_released (mapped : Bool) (m : Nat) : (s.released k c mapped).engine m = s.engine m := rfl

theorem cplWait_released (mapped : Bool) : (s.released k c mapped).cplWait.get [] c.desc.cring.toNat =
    s.cplWait.get [] c.desc.cring.toNat ++ [⟨1, s.ctxRecord c mapped⟩] :=
  (Tab.get_set _ _ _ _ _ _ fun _ => rfl).trans (if_pos rfl)

theorem fld_open_released (mapped : Bool) : (s.released k c mapped).fld .COL_STATUS_open 0 =
    (s.fld .COL_STATUS_open 0 - 1) % 2 ^ 15 := by
  rw [released, freeCtx, fld_setFld_self]
  rfl

theorem fld_released_ne (mapped : Bool) {f : Fld} (hf : f ≠ .COL_STATUS_open) (i : Nat) :
    (s.released k c mapped).fld f i = s.fld f i := by
  rw [released, freeCtx, fld_setFld_ne _ _ _ _ _ _ hf]
  rfl

/-- With room in the pending buffer, the last step of a context releases it, and its descriptor ends with its status. -/
theorem recordCtx_of_room {mapped : Bool} (h : s.cplFull = false) :
    s.recordCtx k c mapped = (s.released k c mapped).descEnds c.desc (if c.state = .failing then c.status else 0) := by
  have hfull : (s.putCtx k { c with recorded := true }).cplFull = false := h
  have hctx : ((s.putCtx k { c with recorded := true }).placeRecord c.desc.cring.toNat ⟨1, s.ctxRecord c mapped⟩).ctx? k =
      some { c with recorded := true } := ctx_putCtx_self
  rw [recordCtx, postWork_of_room hfull]
  simp only [ctxEnds, hctx]
  rfl

/-- From `s`, context `c` at number `k` has left its slot, and a record of its status waits for its CPL ring. -/
structure CtxEnded (s t : Blk) (k : Nat) (c : CtxRec) : Prop where
  ctx : t.ctx? k = none
  engine : ∀ m, t.engine m = s.engine m
  record : ∃ bs, t.cplWait.get [] c.desc.cring.toNat = s.cplWait.get [] c.desc.cring.toNat ++ [⟨1, bs⟩] ∧
    bs.take 1 = beBytes 1 c.status ∧ bs.length = 32

theorem ctxEnded_recordCtx {mapped : Bool} (h : s.cplFull = false) : CtxEnded s (s.recordCtx k c mapped) k c := by
  have hends := fldsOut_descEnds (s := s.released k c mapped) c.desc (if c.state = .failing then c.status else 0)
  rw [recordCtx_of_room h]
  refine ⟨?_, fun m => ?_, s.ctxRecord c mapped, ?_, take_one_ctxRecord _, length_ctxRecord _⟩
  · rw [hends.ctx, ctx_released]
  · rw [hends.engine, engine_released]
  · rw [hends.cplWait, cplWait_released]

theorem fld_signal {d : ColDesc} {ok : Bool} {g : Fld} (hg : g ≠ .COL_TOKEN_value) (i : Nat) :
    (s.signal d ok).fld g i = s.fld g i := by
  unfold signal
  split
  · rfl
  · exact fld_setFld_ne _ _ _ _ _ _ hg

theorem descEnds_zero (d : ColDesc) : s.descEnds d 0 = (s.count .COL_COMPLETED_count 0 1).signal d true := by simp [descEnds]

/-- A context that finishes gives its place back, and is counted (R243, R252). -/
theorem fld_recordCtx_of_finished {mapped : Bool} (h : s.cplFull = false) (hc : c.state ≠ .failing) :
    (s.recordCtx k c mapped).fld .COL_STATUS_open 0 = (s.fld .COL_STATUS_open 0 - 1) % 2 ^ 15 ∧
      (s.recordCtx k c mapped).fld .COL_COMPLETED_count 0 = min (s.fld .COL_COMPLETED_count 0 + 1) (2 ^ 64 - 1) := by
  rw [recordCtx_of_room h, if_neg hc, descEnds_zero]
  constructor
  · rw [fld_signal (by decide), fld_count_ne _ _ _ _ _ _ (by simp [counts]) (by decide), fld_open_released]
  · rw [fld_signal (by decide), fld_count_self _ _ _ _ (by simp [counts]) rfl, fld_released_ne _ (by decide)]

/-- With the pending buffer full, its record is held, and the context waits in its slot (R477). -/
theorem recordCtx_of_full {mapped : Bool} (h : s.cplFull = true) :
    (s.recordCtx k c mapped).ctx? k = some { c with recorded := true } ∧
      (∀ m, (s.recordCtx k c mapped).engine m = s.engine m) ∧
      ((s.recordCtx k c mapped).cplHeld.map fun x => (x.ring, x.work)) =
        (s.cplHeld.map fun x => (x.ring, x.work)) ++ [(c.desc.cring.toNat, .ctx k)] := by
  have hfull : (s.putCtx k { c with recorded := true }).cplFull = true := h
  have hraise := fun t : Blk => FldsOut.raise t .DMA_INT_cpl_full 0
  rw [recordCtx, postWork_of_full (by decide) hfull]
  refine ⟨?_, fun m => ?_, ?_⟩
  · rw [(hraise _).ctx]; exact ctx_putCtx_self
  · rw [(hraise _).engine]; rfl
  · rw [raise_cplHeld, List.map_append]; rfl

/-! ### A timer that expires, and a context that finishes -/

theorem ctxTimeout_of_open (hc : s.ctx? k = some c) (hr : c.recorded = false)
    (hs : c.state = .opened ∨ (c.state = .closing ∧ c.marked = true)) :
    (s.ctxTimeout k).ctx? k = some { c with state := .failing, status := if c.marked then 6 else 1 } := by
  have hfail : c.fail 1 = { c with state := .failing, status := if c.marked then 6 else 1 } := by
    unfold CtxRec.fail
    rw [if_neg]
    rcases hs with h | ⟨h, -⟩ <;> simp [h, hr]
  have heq : s.ctxTimeout k = s.putCtx k (c.fail 1) := by
    simp only [ctxTimeout, hc]
    rw [if_pos]
    rcases hs with h | ⟨h, hm⟩
    · simp [h]
    · simp [h, hm]
  rw [heq, hfail, ctx_putCtx_self]

theorem finishCtx_of_ready (hc : s.ctx? k = some c) (hs : c.state = .closing) (hm : c.marked = false) (hr : c.recorded = false)
    (hok : c.reducing = true → c.chunksOk = c.chunks) (hp : s.ctxPending c.run = false) :
    s.finishCtx k = s.recordCtx k c false := by
  have hok' : (!c.reducing || c.chunksOk = c.chunks) = true := by
    cases h : c.reducing with
    | true => simp [hok h]
    | false => rfl
  simp only [finishCtx, hc]
  rw [if_pos (by simp only [hs, hm, hr, hok', hp]; decide)]

end Blk
end Sys2Proof.Machine
end

section
/-!
PROOF. A context that fails (R249): every chunk of it is aborted, its members may be told, and its record is written. The rest of O22,
and O22 itself.
-/

namespace Sys2Proof.Machine

namespace Blk

variable {s : Blk} {k : Nat} {c : CtxRec}

/-! ### The chunks of a failing context (R249) -/

/-- The context at a number is `c`, but for the chunk that failed first. -/
def FailsAs (s : Blk) (k : Nat) (c : CtxRec) : Prop := ∃ a b, s.ctx? k = some { c with badStatus := a, badChunk := b }

/-- `t` is `s` after work on chunks of identity `id` at engine `n`, which no other chunk and no record has been touched by: a context
that was failing is as it was, but for the chunk that failed first. -/
structure ChunkWork (n : Nat) (id : ChunkId) (s t : Blk) : Prop where
  cplHeld : t.cplHeld = s.cplHeld
  cplWait : t.cplWait = s.cplWait
  fails : ∀ k c, c.state = .failing → FailsAs s k c → FailsAs t k c
  chunks : ∀ m, ∀ x ∈ (t.engine m).chunks, x ∈ (s.engine m).chunks ∨ (m = n ∧ x.id = id)

namespace ChunkWork

variable {t u : Blk} {n : Nat} {id : ChunkId}

theorem refl (n : Nat) (id : ChunkId) (s : Blk) : ChunkWork n id s s := ⟨rfl, rfl, fun _ _ _ h => h, fun _ _ h => .inl h⟩

theorem trans (h : ChunkWork n id s t) (h' : ChunkWork n id t u) : ChunkWork n id s u := by
  refine ⟨h'.cplHeld.trans h.cplHeld, h'.cplWait.trans h.cplWait, fun k c hc hf => h'.fails k c hc (h.fails k c hc hf), ?_⟩
  intro m x hx
  rcases h'.chunks m x hx with h₁ | h₁
  · exact h.chunks m x h₁
  · exact .inr h₁

/-- Work that leaves the contexts, the records and every engine's chunks as they are. -/
theorem of_same (hx : t.contexts = s.contexts) (hh : t.cplHeld = s.cplHeld) (hw : t.cplWait = s.cplWait)
    (hc : ∀ m, (t.engine m).chunks = (s.engine m).chunks) : ChunkWork n id s t :=
  ⟨hh, hw, fun k c _ h => by unfold FailsAs ctx? at *; rwa [hx], fun m x h => .inl (hc m ▸ h)⟩

end ChunkWork

theorem engine_updEngine (n m : Nat) (g : Engine → Engine) :
    (s.updEngine n g).engine m = if m = n then g (s.engine n) else s.engine m := Tab.get_set _ _ _ _ _ _ fun _ => rfl

theorem chunkWork_freeSpace (n : Nat) (id : ChunkId) (m : Nat) (x : ChunkRec) : ChunkWork n id s (s.freeSpace m x) := by
  unfold freeSpace
  split
  · exact .of_same rfl rfl rfl fun _ => rfl
  · exact .of_same rfl rfl rfl fun _ => rfl

theorem chunkWork_dropCopyOf (n : Nat) (id : ChunkId) (u : Nat) (id' : ChunkId) : ChunkWork n id s (s.dropCopyOf u id') := by
  unfold dropCopyOf
  split
  · exact .refl n id s
  · refine (chunkWork_freeSpace n id u _).trans (.of_same rfl rfl rfl fun m => ?_)
    rw [engine_updEngine]
    split
    · subst m; rfl
    · rfl

theorem chunkWork_putChunk (n : Nat) {id : ChunkId} {x : ChunkRec} (hid : x.id = id) : ChunkWork n id s (s.putChunk n x) := by
  subst hid
  refine ⟨rfl, rfl, fun _ _ _ h => h, fun m y hy => ?_⟩
  rw [putChunk, engine_updEngine] at hy
  split at hy
  next hm =>
    subst hm
    dsimp only at hy
    split at hy
    · obtain ⟨z, hz, rfl⟩ := List.mem_map.mp hy
      split
      · exact .inr ⟨rfl, rfl⟩
      · exact .inl hz
    · rcases List.mem_append.mp hy with h | h
      · exact .inl h
      · exact .inr ⟨rfl, by rw [List.mem_singleton.mp h]⟩
  next => exact .inl hy

/-- A failing context hears of a chunk that failed: it notes the first one. -/
theorem chunkWork_chunkFailed (n : Nat) (id id' : ChunkId) (status : Nat) : ChunkWork n id s (s.chunkFailed id' status) := by
  unfold chunkFailed
  split
  · exact .refl n id s
  next d hd =>
    split
    · refine ⟨rfl, rfl, fun k c hc hf => ?_, fun _ _ h => .inl h⟩
      obtain ⟨a, b, hab⟩ := hf
      by_cases hk : k = id'.ctx
      · subst hk
        obtain rfl : d = { c with badStatus := a, badChunk := b } := Option.some.inj (hd.symm.trans hab)
        have hfail : CtxRec.fail { c with badStatus := a, badChunk := b } 3 = { c with badStatus := a, badChunk := b } := by
          simp [CtxRec.fail, hc]
        unfold FailsAs
        rw [ctx_putCtx_self, hfail]
        split
        · exact ⟨_, _, rfl⟩
        · exact ⟨_, _, rfl⟩
      · refine ⟨a, b, ?_⟩
        rw [← hab]
        exact (Tab.find_put _ _ _ _).trans (if_neg hk)
    · exact .refl n id s

/-- A chunk that fails is put back with its status; its lanes, its audit copy and its context are settled. -/
theorem chunkWork_failChunk (n : Nat) (x : ChunkRec) (status : Nat) : ChunkWork n x.id s (s.failChunk n x status) := by
  unfold failChunk
  extract_lets s₁ s₂
  have h₁ : ChunkWork n x.id s s₁ := by
    unfold s₁
    split
    · exact .refl n x.id s
    · exact chunkWork_dropCopyOf n x.id _ x.id
  have h₂ : ChunkWork n x.id s s₂ := (h₁.trans (chunkWork_freeSpace n x.id n x)).trans (chunkWork_putChunk n rfl)
  have hcount : ChunkWork n x.id s₂ (s₂.count .GRN_FAILED_count n 1) :=
    .of_same (count_contexts ..) (count_cplHeld ..) (count_cplWait ..) fun m => by rw [engine, engine, count_engines]
  exact (h₂.trans hcount).trans (chunkWork_chunkFailed n x.id x.id status)

/-- From `s` to `t`, chunks of the identities `gone` have been taken from the engines, which no record has been touched by: a context
that was failing is as it was, but for the chunk that failed first. -/
structure Retired (gone : Nat → ChunkId → Prop) (s t : Blk) : Prop where
  cplHeld : t.cplHeld = s.cplHeld
  cplWait : t.cplWait = s.cplWait
  fails : ∀ k c, c.state = .failing → FailsAs s k c → FailsAs t k c
  chunks : ∀ m, ∀ x ∈ (t.engine m).chunks, x ∈ (s.engine m).chunks ∧ ¬ gone m x.id

namespace Retired

variable {t u : Blk} {p q : Nat → ChunkId → Prop}

theorem weaken (h : Retired p s t) (hpq : ∀ m, ∀ x ∈ (s.engine m).chunks, q m x.id → p m x.id) : Retired q s t :=
  ⟨h.cplHeld, h.cplWait, h.fails, fun m x hx =>
    have ⟨hs, hp⟩ := h.chunks m x hx
    ⟨hs, fun hq => hp (hpq m x hs hq)⟩⟩

theorem trans (h : Retired p s t) (h' : Retired q t u) : Retired (fun m id => p m id ∨ q m id) s u := by
  refine ⟨h'.cplHeld.trans h.cplHeld, h'.cplWait.trans h.cplWait, fun k c hc hf => h'.fails k c hc (h.fails k c hc hf), ?_⟩
  intro m x hx
  obtain ⟨ht, hq⟩ := h'.chunks m x hx
  obtain ⟨hs, hp⟩ := h.chunks m x ht
  exact ⟨hs, not_or.mpr ⟨hp, hq⟩⟩

/-- A fold takes away what its steps take away. -/
theorem foldl {β : Type} {p : β → Nat → ChunkId → Prop} (g : Blk → β → Blk) (h : ∀ t b, Retired (p b) t (g t b)) (l : List β)
    (t : Blk) : Retired (fun m id => ∃ b ∈ l, p b m id) t (l.foldl g t) := by
  induction l generalizing t with
  | nil => exact ⟨rfl, rfl, fun _ _ _ hf => hf, fun _ _ hx => ⟨hx, by simp⟩⟩
  | cons b l ih => exact ((h t b).trans (ih _)).weaken fun m x _ hx => by simpa using hx

end Retired

/-- Work on a chunk that takes it out of the table in the end. -/
theorem ChunkWork.retired {t : Blk} {n : Nat} {id : ChunkId} (h : ChunkWork n id s t) :
    Retired (fun m id' => m = n ∧ id' = id) s (t.retireChunk n id) := by
  refine ⟨h.cplHeld, h.cplWait, h.fails, fun m x hx => ?_⟩
  rw [retireChunk, engine_updEngine] at hx
  split at hx
  next hm =>
    subst hm
    obtain ⟨hx, hid⟩ := List.mem_filter.mp hx
    have hid : x.id ≠ id := by simpa using hid
    exact ⟨(h.chunks _ x hx).resolve_right fun h => hid h.2, fun h => hid h.2⟩
  next hm => exact ⟨(h.chunks m x hx).resolve_right fun h => hm h.1, fun h => hm h.1⟩

/-- No chunk of an aborted context is left at any engine (R249). -/
theorem retired_abortChunks (k : Nat) : Retired (fun m id => m < 32 ∧ id.ctx = k) s (s.abortChunks k) := by
  have hchunk : ∀ (t : Blk) (n : Nat) (x : ChunkRec), Retired (fun m id => m = n ∧ id = x.id) t
      ((if x.status = 0 then t.failChunk n x 8 else t).retireChunk n x.id) := by
    intro t n x
    split
    · exact (chunkWork_failChunk n x 8).retired
    · exact (ChunkWork.refl n x.id t).retired
  have hengine : ∀ (t : Blk) (n : Nat), Retired (fun m id => m = n ∧ id.ctx = k) t
      (((t.engine n).chunks.filter fun x => x.id.ctx = k).foldl (fun u x =>
        (if x.status = 0 then u.failChunk n x 8 else u).retireChunk n x.id) t) := by
    intro t n
    refine (Retired.foldl _ (fun u x => hchunk u n x) _ t).weaken fun m x hx ⟨hm, hk⟩ => ?_
    subst hm
    exact ⟨x, List.mem_filter.mpr ⟨hx, by simpa using hk⟩, rfl, rfl⟩
  exact (Retired.foldl _ hengine (List.range 32) s).weaken fun m x _ ⟨hm, hk⟩ => ⟨m, List.mem_range.mpr hm, rfl, hk⟩

/-! ### The last step of a failing context -/

theorem handled_sendStatus : Handled s (s.sendStatus k c) := by
  unfold sendStatus
  extract_lets t to_
  split
  · exact .refl s
  · have hframe := Handled.ctxFrame (s := s) t k c 0x1C 0 c.status []
    exact hframe.trans (.emitFrame ..)

theorem cplFull_congr {t : Blk} (hh : t.cplHeld = s.cplHeld) (hw : t.cplWait = s.cplWait) : t.cplFull = s.cplFull := by
  rw [cplFull, cplFull, cplCount, cplCount, hh, hw]

/-- A failing context writes its record once every chunk of it is aborted. -/
theorem failCtx_eq (hc : s.ctx? k = some c) (hs : c.state = .failing) (hr : c.recorded = false) :
    ∃ (t : Blk) (a b : Nat) (mapped : Bool), s.failCtx k = t.recordCtx k { c with badStatus := a, badChunk := b } mapped ∧
      t.cplHeld = s.cplHeld ∧ t.cplWait = s.cplWait ∧ ∀ m < 32, ∀ x ∈ (t.engine m).chunks, x.id.ctx ≠ k := by
  have habort := retired_abortChunks (s := s) k
  obtain ⟨a, b, hab⟩ := habort.fails k c hs ⟨c.badStatus, c.badChunk, hc⟩
  let d : CtxRec := { c with badStatus := a, badChunk := b }
  let mapped : Bool := d.desc.addr ≠ 0 && (d.status = 1 || d.status = 2)
  let s₁ := if mapped then (s.abortChunks k).emit (.dmaWrite false d.desc.addr.toNat (missingMap d)) else s.abortChunks k
  let t := if d.desc.notify then s₁.sendStatus k d else s₁
  have heq : s.failCtx k = t.recordCtx k d mapped := by
    simp only [failCtx, hc]
    rw [if_pos (by simp [hs, hr]), hab]
    rfl
  have ht : Handled (s.abortChunks k) t :=
    (Handled.ite (.emit _) (.refl _)).trans (.ite handled_sendStatus (.refl _))
  refine ⟨t, a, b, mapped, heq, ht.cplHeld.trans habort.cplHeld, ht.cplWait.trans habort.cplWait, fun m hm x hx hk => ?_⟩
  rw [ht.engine] at hx
  exact (habort.chunks m x hx).2 ⟨hm, hk⟩

/-- A failing context with room for its record leaves its slot with its status, and no chunk of it is left (R249). -/
theorem failCtx_of_room (hc : s.ctx? k = some c) (hs : c.state = .failing) (hr : c.recorded = false) (hfull : s.cplFull = false) :
    (s.failCtx k).ctx? k = none ∧ (∀ m < 32, ∀ x ∈ ((s.failCtx k).engine m).chunks, x.id.ctx ≠ k) ∧
      ∃ bs, (s.failCtx k).cplWait.get [] c.desc.cring.toNat = s.cplWait.get [] c.desc.cring.toNat ++ [⟨1, bs⟩] ∧
        bs.take 1 = beBytes 1 c.status ∧ bs.length = 32 := by
  obtain ⟨t, a, b, mapped, heq, hheld, hwait, hchunks⟩ := failCtx_eq hc hs hr
  obtain ⟨hctx, hengine, hrecord⟩ := ctxEnded_recordCtx (k := k) (c := { c with badStatus := a, badChunk := b }) (mapped := mapped)
    ((cplFull_congr hheld hwait).trans hfull)
  rw [heq]
  exact ⟨hctx, fun m hm => by rw [hengine]; exact hchunks m hm, by rw [← hwait]; exact hrecord⟩

/-- Without room its record alone waits, and the context with it (R477). -/
theorem failCtx_of_full (hc : s.ctx? k = some c) (hs : c.state = .failing) (hr : c.recorded = false) (hfull : s.cplFull = true) :
    ((s.failCtx k).ctx? k).map (fun x => (x.state, x.status, x.recorded)) = some (.failing, c.status, true) ∧
      (∀ m < 32, ∀ x ∈ ((s.failCtx k).engine m).chunks, x.id.ctx ≠ k) ∧
      ((s.failCtx k).cplHeld.map fun x => (x.ring, x.work)) =
        (s.cplHeld.map fun x => (x.ring, x.work)) ++ [(c.desc.cring.toNat, .ctx k)] := by
  obtain ⟨t, a, b, mapped, heq, hheld, hwait, hchunks⟩ := failCtx_eq hc hs hr
  obtain ⟨hctx, hengine, hwork⟩ := recordCtx_of_full (k := k) (c := { c with badStatus := a, badChunk := b }) (mapped := mapped)
    ((cplFull_congr hheld hwait).trans hfull)
  rw [heq]
  refine ⟨?_, fun m hm => by rw [hengine]; exact hchunks m hm, by rw [← hheld]; exact hwork⟩
  rw [hctx, Option.map_some, hs]

end Blk

/-! ### The commands -/

/-- The commands on a received frame of a collective differ in the opcode that they take alone. -/
theorem exec_of_collective {fid op : Nat} {i : Instr} (h : (op, i) ∈ [(0x10, Instr.contrib fid), (0x11, Instr.gather fid),
    (0x12, Instr.bcast fid), (0x13, Instr.barrierArrival fid)]) :
    (0x10 ≤ op ∧ op ≤ 0x13) ∧ ∀ s, exec i s = run (·.colReceive fid op) s := by
  simp only [List.mem_cons, List.not_mem_nil, or_false, Prod.mk.injEq] at h
  rcases h with ⟨rfl, rfl⟩ | ⟨rfl, rfl⟩ | ⟨rfl, rfl⟩ | ⟨rfl, rfl⟩
  · exact ⟨by decide, fun _ => rfl⟩
  · exact ⟨by decide, fun _ => rfl⟩
  · exact ⟨by decide, fun _ => rfl⟩
  · exact ⟨by decide, fun _ => rfl⟩

section
variable {s : State} {fid op k : Nat} {i : Instr} {r : FrameRec} {c : CtxRec} {a : ColArea}

theorem runs_collective_discarded (hi : ∀ s, exec i s = run (·.colReceive fid op) s) (h : s.blk.Collective fid op r) {reason : Nat}
    (hc : s.blk.colCheck r = some reason) :
    Runs i s fun t => t.blk.frame? fid = none ∧ t.blk.contexts = s.blk.contexts ∧
      t.blk.fld .COL_DISCARD_count (9 * r.tile + reason) =
        min (s.blk.fld .COL_DISCARD_count (9 * r.tile + reason) + 1) (2 ^ 64 - 1) := by
  refine runs_of_eq (hi s) (Blk.colReceive_of_check_some h hc) ?_
  dsimp only
  exact Blk.colDiscard_leaves fid r.tile reason

theorem runs_collective_contrib (hi : ∀ s, exec i s = run (·.colReceive fid op) s) (h : s.blk.Collective fid op r)
    (hc : s.blk.colCheck r = none) (ha : a = colArea r.frame.data) (hk : k = ctxNum a.group a.seq) (hctx : s.blk.ctx? k = some c)
    {e : Nat} (hred : c.reducing = true) (he : s.blk.engineFor c ⟨k, a.chunk, a.epoch⟩ = some e)
    (hlive : dieOfTile r.tile ≠ dieOfTile e → 0 < s.blk.liveLinks (dirOf (dieOfTile r.tile) (dieOfTile e))) :
    Runs i s fun t => t.blk.frame? fid = some { r with dest := .engine } ∧
      (dieOfTile r.tile ≠ dieOfTile e → (t.blk.transfers.find (4 * fid + dieOfTile e)).isSome = true) ∧
      (t.blk.ctx? k).map (fun x => x.taken.get 0 a.chunk) = some (c.taken.get 0 a.chunk ||| 2 ^ a.member) := by
  have heq := Blk.colReceive_of_check_none h hc (ha ▸ hk) hctx
  rw [if_pos hred] at heq
  refine runs_of_eq (hi s) heq ?_
  dsimp only
  exact Blk.takeContrib_leaves ha he hlive

theorem runs_collective_piece (hi : ∀ s, exec i s = run (·.colReceive fid op) s) (h : s.blk.Collective fid op r)
    (hc : s.blk.colCheck r = none) (ha : a = colArea r.frame.data) (hk : k = ctxNum a.group a.seq) (hctx : s.blk.ctx? k = some c)
    (hkind : c.kind = 3 ∨ c.kind = 4) :
    Runs i s fun t => t.blk.frame? fid = some { r with dest := .pieces } ∧
      (t.blk.ctx? k).map (fun x => (x.taken.get 0 a.member, x.chunksOk)) = some (c.taken.get 0 a.member + 1, c.chunksOk + 1) ∧
      ∃ x, (t.blk.repl.get .reset r.tile).pieces = (s.blk.repl.get .reset r.tile).pieces ++ [x] ∧ x.piece = some fid := by
  have hred : c.reducing = false := by rcases hkind with h | h <;> simp [CtxRec.reducing, h]
  have heq := Blk.colReceive_of_check_none h hc (ha ▸ hk) hctx
  rw [if_neg (by simp [hred]), if_neg (by omega)] at heq
  refine runs_of_eq (hi s) heq ?_
  dsimp only
  exact Blk.takePiece_leaves ha

/-- An arrival that passes is its barrier's. -/
theorem colReceive_of_barrier (h : s.blk.Collective fid op r) (hc : s.blk.colCheck r = none) (ha : a = colArea r.frame.data)
    (hk : k = ctxNum a.group a.seq) (hctx : s.blk.ctx? k = some c) (hkind : c.kind = 5) :
    s.blk.colReceive fid op = s.blk.takeArrival fid r k c := by
  have hred : c.reducing = false := by simp [CtxRec.reducing, hkind]
  have heq := Blk.colReceive_of_check_none h hc (ha ▸ hk) hctx
  rwa [if_neg (by simp [hred]), if_pos hkind] at heq

theorem runs_collective_crossing (hi : ∀ s, exec i s = run (·.colReceive fid op) s) (h : s.blk.Collective fid op r)
    (hc : s.blk.colCheck r = none) (ha : a = colArea r.frame.data) (hk : k = ctxNum a.group a.seq) (hctx : s.blk.ctx? k = some c)
    {hd : Nat} (hkind : c.kind = 5) (hhd : hd = dieOfTile (c.home 0)) (hcross : s.blk.crossed fid r hd = false)
    (hlive : 0 < s.blk.liveLinks (dirOf (dieOfTile r.tile) hd)) :
    Runs i s fun t => t.blk.frame? fid = some r ∧ (t.blk.transfers.find (4 * fid + hd)).isSome = true ∧
      t.blk.contexts = s.blk.contexts := by
  subst hhd
  have hne : dieOfTile r.tile ≠ dieOfTile (c.home 0) := fun heq => by simp [Blk.crossed, heq] at hcross
  obtain ⟨tr, htr, hsome⟩ := Blk.startCross_leaves h.frame fun _ => hlive
  have heq := (colReceive_of_barrier h hc ha hk hctx hkind).trans ((Blk.takeArrival_of_not_crossed hcross).trans htr)
  refine runs_of_eq (hi s) heq ?_
  dsimp only
  exact ⟨h.frame, hsome hne, rfl⟩

theorem runs_collective_arrival (hi : ∀ s, exec i s = run (·.colReceive fid op) s) (h : s.blk.Collective fid op r)
    (hc : s.blk.colCheck r = none) (ha : a = colArea r.frame.data) (hk : k = ctxNum a.group a.seq) (hctx : s.blk.ctx? k = some c)
    (hkind : c.kind = 5) (hcross : s.blk.crossed fid r (dieOfTile (c.home 0)) = true) :
    Runs i s fun t => t.blk.frame? fid = none ∧ (t.blk.ctx? k).map (fun x => x.taken.get 0 a.member) = some 1 := by
  refine runs_of_eq (hi s) (colReceive_of_barrier h hc ha hk hctx hkind) ?_
  dsimp only
  exact Blk.takeArrival_leaves ha hcross

end

section
variable {s : State} {g : BitVec 12} {q : BitVec 16} {k : Nat} {c : CtxRec} (hk : k = ctxNum g.toNat q.toNat)
  (hc : s.blk.ctx? k = some c)
include hk hc

theorem runs_contextTimeout (hr : c.recorded = false) (hs : c.state = .opened ∨ (c.state = .closing ∧ c.marked = true)) :
    Runs (.contextTimeout g q) s fun t =>
      t.blk.ctx? k = some { c with state := .failing, status := if c.marked then 6 else 1 } := by
  subst hk
  refine runs_of_eq (g := (·.ctxTimeout (ctxNum g.toNat q.toNat))) rfl rfl ?_
  dsimp only
  exact Blk.ctxTimeout_of_open hc hr hs

theorem runs_contextFinish (hs : c.state = .closing) (hm : c.marked = false) (hr : c.recorded = false)
    (hok : c.reducing = true → c.chunksOk = c.chunks) (hp : s.blk.ctxPending c.run = false) (hfull : s.blk.cplFull = false) :
    Runs (.contextFinish g q) s fun t => t.blk.ctx? k = none ∧
      t.blk.fld .COL_STATUS_open 0 = (s.blk.fld .COL_STATUS_open 0 - 1) % 2 ^ 15 ∧
      t.blk.fld .COL_COMPLETED_count 0 = min (s.blk.fld .COL_COMPLETED_count 0 + 1) (2 ^ 64 - 1) ∧
      ∃ bs, t.blk.cplWait.get [] c.desc.cring.toNat = s.blk.cplWait.get [] c.desc.cring.toNat ++ [⟨1, bs⟩] ∧
        bs.take 1 = beBytes 1 c.status ∧ bs.length = 32 := by
  subst hk
  have hended := Blk.ctxEnded_recordCtx (k := ctxNum g.toNat q.toNat) (c := c) (mapped := false) hfull
  obtain ⟨hopen, hcount⟩ := Blk.fld_recordCtx_of_finished (k := ctxNum g.toNat q.toNat) (c := c) (mapped := false) hfull
    (by simp [hs])
  refine runs_of_eq (g := (·.finishCtx (ctxNum g.toNat q.toNat))) rfl (Blk.finishCtx_of_ready hc hs hm hr hok hp) ?_
  dsimp only
  exact ⟨hended.ctx, hopen, hcount, hended.record⟩

theorem runs_contextFailure_of_full (hs : c.state = .failing) (hr : c.recorded = false) (hfull : s.blk.cplFull = true) :
    Runs (.contextFailure g q) s fun t => (t.blk.ctx? k).map (fun x => (x.state, x.status, x.recorded)) =
        some (.failing, c.status, true) ∧
      (∀ (tile : TileId) (x : ChunkRec), x ∈ (t.blk.engine tile).chunks → x.id.ctx ≠ k) ∧
      (t.blk.cplHeld.map fun x => (x.ring, x.work)) =
        (s.blk.cplHeld.map fun x => (x.ring, x.work)) ++ [(c.desc.cring.toNat, .ctx k)] := by
  subst hk
  obtain ⟨hctx, hchunks, hheld⟩ := Blk.failCtx_of_full hc hs hr hfull
  refine runs_of_eq (g := (·.failCtx (ctxNum g.toNat q.toNat))) rfl rfl ?_
  dsimp only
  exact ⟨hctx, fun tile => hchunks tile tile.isLt, hheld⟩

theorem runs_contextFailure_of_room (hs : c.state = .failing) (hr : c.recorded = false) (hfull : s.blk.cplFull = false) :
    Runs (.contextFailure g q) s fun t => t.blk.ctx? k = none ∧
      (∀ (tile : TileId) (x : ChunkRec), x ∈ (t.blk.engine tile).chunks → x.id.ctx ≠ k) ∧
      ∃ bs, t.blk.cplWait.get [] c.desc.cring.toNat = s.blk.cplWait.get [] c.desc.cring.toNat ++ [⟨1, bs⟩] ∧
        bs.take 1 = beBytes 1 c.status ∧ bs.length = 32 := by
  subst hk
  obtain ⟨hctx, hchunks, hrecord⟩ := Blk.failCtx_of_room hc hs hr hfull
  refine runs_of_eq (g := (·.failCtx (ctxNum g.toNat q.toNat))) rfl rfl ?_
  dsimp only
  exact ⟨hctx, fun tile => hchunks tile tile.isLt, hrecord⟩

end

/-- Settles O22: a frame that fails a check, a lemma for each kind of context that takes one that passes, and a lemma for each way in
which a context ends. -/
theorem contextsRunAndEnd : Obligations.ContextsRunAndEnd := by
  unfold Obligations.ContextsRunAndEnd
  refine ⟨fun s fid r op i hmem hf hdest hwhole hchk hop => ?_, fun s g q k c hk hc => ⟨?_, ?_, ?_, ?_⟩⟩
  · obtain ⟨hsent, hi⟩ := exec_of_collective hmem
    have h : s.blk.Collective fid op r := ⟨hf, hdest, hwhole, hchk, hop, hsent⟩
    refine ⟨fun reason => runs_collective_discarded hi h, fun c a k hcheck ha hk hctx => ⟨?_, ?_, ?_, ?_⟩⟩
    · exact fun e => runs_collective_contrib hi h hcheck ha hk hctx
    · exact runs_collective_piece hi h hcheck ha hk hctx
    · exact fun hd hkind hhd hcross _ => runs_collective_crossing hi h hcheck ha hk hctx hkind hhd hcross
    · exact runs_collective_arrival hi h hcheck ha hk hctx
  · exact runs_contextTimeout hk hc
  · exact runs_contextFinish hk hc
  · exact runs_contextFailure_of_full hk hc
  · exact runs_contextFailure_of_room hk hc

end Sys2Proof.Machine
end

section
/-!
PROOF. What a link's own operations leave of the register fields, and the link control frames that they send (R50 to R60, R66, R77):
the rules from which the statements on ports and links follow.
-/

namespace Sys2Proof.Machine

namespace Blk

variable {s t : Blk} {l m : Nat} {f : Fld} {i : Nat}

/-! ### What has been sent -/

theorem lcfNak_eq (s : Blk) (l : Nat) (ty : LcfType) (b : Lcf) (nak : Bool) : ∃ y p, s.lcfNak l ty b nak = { s with linkBusy := y, out := p } :=
  onWire_leaves _ _ _

theorem lcf_eq (s : Blk) (l : Nat) (ty : LcfType) (b : Lcf) : ∃ y p, s.lcf l ty b = { s with linkBusy := y, out := p } :=
  onWire_leaves _ _ _

@[simp] theorem fld_lcfNak (ty : LcfType) (b : Lcf) (nak : Bool) : (s.lcfNak l ty b nak).fld f i = s.fld f i := fld_onWire _ _ _ _
@[simp] theorem fld_lcf (ty : LcfType) (b : Lcf) : (s.lcf l ty b).fld f i = s.fld f i := fld_onWire _ _ _ _
@[simp] theorem link_lcfNak (ty : LcfType) (b : Lcf) (nak : Bool) : (s.lcfNak l ty b nak).link m = s.link m := link_onWire _ _ _
@[simp] theorem link_lcf (ty : LcfType) (b : Lcf) : (s.lcf l ty b).link m = s.link m := link_onWire _ _ _
@[simp] theorem fld_sendMark : (s.sendMark l).fld f i = s.fld f i := fld_congr fields_sendMark f i
@[simp] theorem fld_pump : (s.pump l).fld f i = s.fld f i := fld_congr (pump_leaves s l).1 f i
@[simp] theorem fld_sendKeepalive (w : Bool) : (s.sendKeepalive l w).fld f i = s.fld f i := fld_onWire _ _ _ _

/-! ### States of a link -/

theorem isIn_iff {c : LinkCode} : s.isIn l c = true ↔ s.linkState l = c.code := by simp [isIn]

/-- A link is in one state. -/
theorem isIn_eq {c d : LinkCode} (h : s.linkState l = c.code) : s.isIn l d = (c == d) := by
  unfold isIn
  rw [h]
  cases c <;> cases d <;> rfl

@[simp] theorem fld_setState_ne {c : LinkCode} (h : f ≠ .TIL_LNK_STATUS_state) (h' : f ≠ .TIL_LNK_STATUS_up) :
    (s.setState l c).fld f i = s.fld f i := by simp [setState, h, h']

@[simp] theorem linkState_setState (s : Blk) (l : Nat) (c : LinkCode) : (s.setState l c).linkState l = c.code := by
  unfold linkState setState
  rw [fld_setFld_ne _ _ _ _ _ _ (by decide), fld_setFld_self]
  cases c <;> rfl

@[simp] theorem setState_link (s : Blk) (l m : Nat) (c : LinkCode) : (s.setState l c).link m = s.link m := rfl
@[simp] theorem setFld_link (s : Blk) (g : Fld) (j v m : Nat) : (s.setFld g j v).link m = s.link m := rfl
@[simp] theorem setFld_feldOf (s : Blk) (g : Fld) (j v m : Nat) : (s.setFld g j v).feldOf m = s.feldOf m := rfl
@[simp] theorem raise_link (s : Blk) (g : Fld) (j m : Nat) : (s.raise g j).link m = s.link m := by simp [link]
@[simp] theorem count_link (s : Blk) (g : Fld) (j n m : Nat) : (s.count g j n).link m = s.link m := by simp [link]

/-- Entering a state writes two fields of the link's status, and nothing else. -/
theorem within_setState (c : LinkCode) {p : Fld → Nat → Prop} (h : p .TIL_LNK_STATUS_state l) (h' : p .TIL_LNK_STATUS_up l) :
    Within s (s.setState l c) p := (Within.setFld _ _ _ _ h).trans (Within.setFld _ _ _ _ h')

/-! ### The capability exchange and the entries to UP -/

/-- The fields that the check of the grants may change (R125), and interrupts with it. -/
def grantCheck (g : Fld) : Prop := messages g ∨ g = .TIL_STG_STATUS_grant_over

theorem within_checkGrants (s : Blk) (l : Nat) : Within s (s.checkGrants l) fun g _ => grantCheck g := by
  unfold checkGrants
  split
  · exact Within.raise _ _ _ (fun _ h => .inl h) (.inr rfl)
  · exact Within.refl _ _

@[simp] theorem fld_checkGrants (h : ¬ grantCheck f) : (s.checkGrants l).fld f i = s.fld f i := (within_checkGrants s l).2 f i h
@[simp] theorem checkGrants_link : (s.checkGrants l).link m = s.link m := by
  unfold link; rw [(within_checkGrants s l).1]
@[simp] theorem checkGrants_feldOf : (s.checkGrants l).feldOf m = s.feldOf m := by
  unfold feldOf; rw [(within_checkGrants s l).1]
@[simp] theorem checkGrants_imgLcf : (s.checkGrants l).imgLcf = s.imgLcf := by rw [(within_checkGrants s l).1]

/-- The body of the CAP that a link sends (R51, R52). -/
def capBody (s : Blk) (l : Nat) : Lcf :=
  { lcfBlank with
    rxHold := BitVec.ofNat 16 (match (s.link l).lastCap with
      | none => 0
      | some (_, at_) => min ((s.checkGrants l).tileNs (tileOf l) - at_) 0xFFFF),
    echoStamp := BitVec.ofNat 32 (match (s.link l).lastCap with
      | none => 0
      | some (st, _) => st),
    classVal := classVals ((s.checkGrants l).advertised l), maxFrame := BitVec.ofNat 16 (s.checkGrants l).imgMaxFrame,
    conf := (s.link l).ownConf }

theorem sendCap_eq : s.sendCap l =
    ((s.checkGrants l).lcf l .cap (s.capBody l)).updLink l fun r =>
      { r with stamps := (s.checkGrants l).stamp l :: r.stamps } := by
  rcases h : (s.link l).lastCap with _ | ⟨st, at_⟩ <;> simp only [sendCap, capBody, h]

@[simp] theorem fld_sendCap (h : ¬ grantCheck f) : (s.sendCap l).fld f i = s.fld f i := by
  rw [sendCap_eq, fld_updLink, fld_lcf, fld_checkGrants h]

theorem sendCap_link : (s.sendCap l).link l = { s.link l with stamps := (s.checkGrants l).stamp l :: (s.link l).stamps } := by
  simp [sendCap_eq]

theorem fld_reinit (h : ¬ grantCheck f) : (s.reinit l).fld f i = s.fld f i := by
  unfold reinit
  dsimp only
  split_ifs <;> simp [h]

theorem fld_startReinit (h : ¬ grantCheck f) : (s.startReinit l).fld f i = s.fld f i := by
  unfold startReinit
  rw [fld_reinit h]
  split <;> simp

theorem fld_askKeepalive : (s.askKeepalive l).fld f i = s.fld f i := by
  unfold askKeepalive
  split <;> simp

theorem fld_toExchange (b : Bool) (h : ¬ grantCheck f) (h₁ : f ≠ .TIL_LNK_STATUS_state) (h₂ : f ≠ .TIL_LNK_STATUS_up) :
    (s.toExchange l b).fld f i = s.fld f i := by
  simp [toExchange, h, h₁, h₂]

@[simp] theorem linkState_toExchange (b : Bool) : (s.toExchange l b).linkState l = 2 := by
  unfold linkState toExchange
  rw [fld_sendCap (by simp [grantCheck, messages])]
  exact linkState_setState s l .exchange

/-- What an entry to UP in Staketu mode leaves of the fields: the state and its event change, and with them what the check of the
grants changes. -/
theorem fld_upStaketu (h : ¬ grantCheck f) (h₁ : f ≠ .TIL_LNK_STATUS_state) (h₂ : f ≠ .TIL_LNK_STATUS_up) (h₃ : f ≠ .TIL_LNK_INT_up) :
    (s.upStaketu l).fld f i = s.fld f i := by
  unfold upStaketu
  rw [fld_askKeepalive, fld_startReinit h]
  simp [show ¬ messages f from fun k => h (.inl k), h₁, h₂, h₃]

@[simp] theorem linkState_upStaketu : (s.upStaketu l).linkState l = 3 := by
  unfold linkState upStaketu
  rw [fld_askKeepalive, fld_startReinit (by simp [grantCheck, messages]), fld_updLink, fld_raise_ne _ _ _ _ _ (by simp [messages]) (by decide)]
  exact linkState_setState s l .up

theorem flag_up_upStaketu : (s.upStaketu l).flag .TIL_LNK_INT_up l = true := by
  unfold flag upStaketu
  rw [fld_askKeepalive, fld_startReinit (by simp [grantCheck, messages]), fld_updLink]
  exact flag_raise _ _ _ (by simp [messages])

/-- An entry to UP in Ethernet mode (R69). -/
theorem upEthernet_leaves : (s.upEthernet l).linkState l = 3 ∧ (s.upEthernet l).staketu l = false ∧
    (s.upEthernet l).flag .TIL_LNK_INT_up l = true := by
  unfold upEthernet linkState staketu flag
  simp only [fld_pump]
  refine ⟨?_, ?_, flag_raise _ _ _ (by simp [messages])⟩
  · rw [fld_raise_ne _ _ _ _ _ (by simp [messages]) (by decide)]
    exact linkState_setState _ l .up
  · simp [messages]

/-! ### Leaving service -/

@[simp] theorem linkState_toHoldDown : (s.toHoldDown l).linkState l = 8 := linkState_setState _ l .holdDown

@[simp] theorem linkState_toRetrain : (s.toRetrain l).linkState l = 7 := by
  unfold linkState toRetrain
  rw [fld_count_ne _ _ _ _ _ _ (by simp [counts]) (by decide), fld_raise_ne _ _ _ _ _ (by simp [messages]) (by decide)]
  exact linkState_setState _ l .retrain

@[simp] theorem linkState_toAcquire : (s.toAcquire l).linkState l = 1 := linkState_setState s l .acquire

theorem fld_toAcquire (h : f ≠ .TIL_LNK_STATUS_state) (h' : f ≠ .TIL_LNK_STATUS_up) : (s.toAcquire l).fld f i = s.fld f i := by
  simp [toAcquire, h, h']

end Blk
end Sys2Proof.Machine
end

section
/-!
PROOF. Port writes and the states of a link (R43, R44, R76, R81, R160): O12.
-/

namespace Sys2Proof.Machine

namespace Blk

variable {s : Blk} {l p v : Nat}

/-! ### Port writes -/

/-- A sub-port of a port is enabled (R43, R160). -/
def portBusy (s : Blk) (p : Nat) : Bool := (List.range 4).any fun k => s.flag .TIL_LNK_CTL_lnk_en (4 * p + k)

theorem portBusy_eq_false (h : ∀ k < 4, s.flag .TIL_LNK_CTL_lnk_en (4 * p + k) = false) : s.portBusy p = false := by
  simpa [portBusy] using h

theorem portBusy_eq_true {k : Nat} (hk : k < 4) (h : s.flag .TIL_LNK_CTL_lnk_en (4 * p + k) = true) : s.portBusy p = true :=
  List.any_eq_true.mpr ⟨k, List.mem_range.mpr hk, h⟩

theorem portSplitWrite_free (h : s.portBusy p = false) : s.portSplitWrite p v = s.setFld .FLD_PORT_SPLIT_nodes p v :=
  if_neg (by rw [← portBusy, h]; decide)

theorem portSplitWrite_busy (h : s.portBusy p = true) : s.portSplitWrite p v = s.raise .FLD_INT_cfg_reject (p / 8) := if_pos h

/-- Without bit 8 a write of a port's mode sets the loopback, and then the breakout mode, where that is another one and the port may
take it (R43, R74). -/
theorem portModeWrite_eq (h8 : v.testBit 8 = false) : s.portModeWrite p v =
    if bits v 1 0 = s.breakout p then s.setFld .TIL_PORT_MODE_loopback p (bits v 5 4)
    else if bits v 1 0 = 3 || s.portBusy p then (s.setFld .TIL_PORT_MODE_loopback p (bits v 5 4)).raise .TIL_PORT_MODE_bo_reject p
    else (s.setFld .TIL_PORT_MODE_loopback p (bits v 5 4)).setFld .TIL_PORT_MODE_breakout p (bits v 1 0) := by
  have hb : (s.setFld .TIL_PORT_MODE_loopback p (bits v 5 4)).breakout p = s.breakout p := fld_setFld_ne _ _ _ _ _ _ (by decide)
  have hp : (s.setFld .TIL_PORT_MODE_loopback p (bits v 5 4)).portBusy p = s.portBusy p := by simp [portBusy, flag]
  unfold portModeWrite
  rw [h8]
  simp only [Bool.false_eq_true, if_false, hb]
  rw [← portBusy, hp]

/-! ### How a link comes up -/

theorem linkEnable_disabled (he : s.linkExists l = true) (h : s.linkState l = 0) :
    s.linkEnable l = ((s.setFld .TIL_LNK_CTL_lnk_en l 1).clearLinkCounters l).toAcquire l :=
  if_pos (by rw [he, isIn_eq (c := .disabled) h]; rfl)

theorem fld_clearLinkCounters {f : Fld} (h : f = .TIL_LNK_LOST_count ∨ f = .TIL_LNK_FEC_CORR_count) :
    (s.clearLinkCounters l).fld f l = 0 := by
  rcases h with rfl | rfl <;> simp [clearLinkCounters, fld_clrFld] <;> rfl

theorem fld_clearLinkCounters_en : (s.clearLinkCounters l).fld .TIL_LNK_CTL_lnk_en l = s.fld .TIL_LNK_CTL_lnk_en l := by
  simp [clearLinkCounters, fld_clrFld]

/-- A link that is disabled ends in DISABLED, whatever its state was (R44). -/
theorem linkState_linkDisable (he : s.linkExists l = true) : (s.linkDisable l).linkState l = 0 := by
  unfold linkDisable
  rw [if_pos he]
  dsimp only
  split
  next h => exact isIn_iff.mp h
  · exact linkState_setState _ l .disabled

theorem pcsAligned_acquire (hd : s.portDark l = false) (h : s.linkState l = 1) : s.pcsAligned l =
    if (s.link l).mode = 2 then (s.setFld .TIL_LNK_STATUS_signal l 1).upEthernet l
    else (s.setFld .TIL_LNK_STATUS_signal l 1).toExchange l false := by
  unfold pcsAligned
  rw [hd, isIn_eq (c := .acquire) h]
  rfl

theorem pcsAligned_wake (hd : s.portDark l = false) (h : s.linkState l = 6) :
    s.pcsAligned l = (s.setFld .TIL_LNK_STATUS_signal l 1).upStaketu l := by
  unfold pcsAligned
  rw [hd, isIn_eq (c := .wake) h, isIn_eq (c := .wake) h]
  rfl

theorem flag_signal_aligned : ((s.setFld .TIL_LNK_STATUS_signal l 1).toExchange l false).flag .TIL_LNK_STATUS_signal l = true := by
  unfold flag
  rw [fld_toExchange _ (by simp [grantCheck, messages]) (by decide) (by decide), fld_setFld_self]
  rfl

/-! ### How it goes -/

/-- A link that is UP or in RESYNC. -/
theorem isIn_up_or_resync (h : s.linkState l = 3 ∨ s.linkState l = 4) : (s.isIn l .up || s.isIn l .resync) = true := by
  rcases h with h | h
  · rw [isIn_eq (c := .up) h]; rfl
  · rw [isIn_eq (c := .resync) h, isIn_eq (c := .resync) h]; rfl

theorem lossOfSignal_serving (h : s.linkState l = 3 ∨ s.linkState l = 4) (light : Bool) :
    (s.lossOfSignal l light).linkState l = 8 := by
  have h' : (s.setFld .TIL_LNK_STATUS_signal l (if light then 1 else 0)).linkState l = s.linkState l :=
    fld_setFld_ne _ _ _ _ _ _ (by decide)
  unfold lossOfSignal
  dsimp only
  rw [if_pos (isIn_up_or_resync (by rwa [h']))]
  exact linkState_toHoldDown

end Blk

open Blk

/-! ### The commands -/

/-- A command that raises an event last. -/
theorem onlyFieldsIrq_raise {s : State} {b : Blk} {f : Fld} {i : Nat} {fs : List (Fld × Nat)} (hf : (f, i) ∈ fs)
    (h : s.blk.Within b fun g j => (g, j) ∈ fs) : OnlyFieldsIrq s { s with blk := b.raise f i } fs := by
  refine ⟨rfl, rfl, (h.mono fun g j hg => by simp [hg]).trans (Within.raise _ _ _ (fun g hg => ?_) (by simp [hf]))⟩
  rcases hg with rfl | rfl <;> simp

theorem runs_portSplitWrite_free {s : State} {p : PortId} {v : BitVec 64}
    (h : ∀ k < 4, s.blk.flag .TIL_LNK_CTL_lnk_en (4 * p + k) = false) :
    Runs (.portSplitWrite p v) s fun t => t.blk.fld .FLD_PORT_SPLIT_nodes p = v.toNat ∧
      OnlyFields s t [(.FLD_PORT_SPLIT_nodes, p)] := by
  refine runs_of_eq (g := (·.portSplitWrite p v.toNat)) rfl (portSplitWrite_free (portBusy_eq_false h)) ?_
  refine ⟨?_, rfl, rfl, Within.setFld _ _ _ _ (by simp)⟩
  rw [fld_setFld_self]
  exact Nat.mod_eq_of_lt v.isLt

theorem runs_portSplitWrite_busy {s : State} {p : PortId} {v : BitVec 64} {k : Nat} (hk : k < 4)
    (h : s.blk.flag .TIL_LNK_CTL_lnk_en (4 * p + k) = true) :
    Runs (.portSplitWrite p v) s fun t => t.blk.flag .FLD_INT_cfg_reject (p / 8) = true ∧
      OnlyFieldsIrq s t [(.FLD_INT_cfg_reject, p / 8)] := by
  refine runs_of_eq (g := (·.portSplitWrite p v.toNat)) rfl (portSplitWrite_busy (portBusy_eq_true hk h)) ?_
  exact ⟨flag_raise _ _ _ (by simp [messages]), onlyFieldsIrq_raise (by simp) (Within.refl _ _)⟩

theorem runs_portModeWrite_free {s : State} {p : PortId} {v : BitVec 32}
    (h : ∀ k < 4, s.blk.flag .TIL_LNK_CTL_lnk_en (4 * p + k) = false) (h3 : v.toNat % 4 ≠ 3) (h8 : v.toNat.testBit 8 = false) :
    Runs (.portModeWrite p v) s fun t => t.blk.fld .TIL_PORT_MODE_breakout p % 4 = (if s.blk.fld .TIL_PORT_MODE_breakout p = v.toNat % 4
        then s.blk.fld .TIL_PORT_MODE_breakout p % 4 else v.toNat % 4) ∧
      t.blk.fld .TIL_PORT_MODE_loopback p = v.toNat / 16 % 4 ∧
      OnlyFields s t [(.TIL_PORT_MODE_breakout, p), (.TIL_PORT_MODE_loopback, p)] := by
  have hb : bits v.toNat 1 0 = v.toNat % 4 := by simp [bits]
  have hl : bits v.toNat 5 4 % 4 = v.toNat / 16 % 4 := by simp [bits]
  refine runs_of_eq (g := (·.portModeWrite p v.toNat)) rfl (portModeWrite_eq h8) ?_
  rw [hb, portBusy_eq_false h]
  simp only [h3, decide_false, Bool.or_self, Bool.false_eq_true, if_false, breakout]
  by_cases he : v.toNat % 4 = s.blk.fld .TIL_PORT_MODE_breakout p
  · rw [if_pos he, if_pos he.symm]
    refine ⟨by simp, ?_, rfl, rfl, Within.setFld _ _ _ _ (by simp)⟩
    rw [fld_setFld_self]
    exact hl
  · rw [if_neg he, if_neg (Ne.symm he)]
    refine ⟨?_, ?_, rfl, rfl, (Within.setFld _ _ _ _ (by simp)).trans (Within.setFld _ _ _ _ (by simp))⟩
    · rw [fld_setFld_self]
      exact (Nat.mod_mod _ _).trans (Nat.mod_mod _ _)
    · rw [fld_setFld_ne _ _ _ _ _ _ (by decide), fld_setFld_self]
      exact hl

theorem runs_portModeWrite_refused {s : State} {p : PortId} {v : BitVec 32}
    (h : (∃ k < 4, s.blk.flag .TIL_LNK_CTL_lnk_en (4 * p + k) = true) ∨ v.toNat % 4 = 3)
    (hne : v.toNat % 4 ≠ s.blk.fld .TIL_PORT_MODE_breakout p) (h8 : v.toNat.testBit 8 = false) :
    Runs (.portModeWrite p v) s fun t => t.blk.flag .TIL_PORT_MODE_bo_reject p = true ∧
      OnlyFieldsIrq s t [(.TIL_PORT_MODE_bo_reject, p), (.TIL_PORT_MODE_loopback, p)] := by
  have hb : bits v.toNat 1 0 = v.toNat % 4 := by simp [bits]
  have hbusy : (decide (v.toNat % 4 = 3) || s.blk.portBusy p) = true := by
    rcases h with ⟨k, hk, h⟩ | h
    · simp [portBusy_eq_true hk h]
    · simp [h]
  refine runs_of_eq (g := (·.portModeWrite p v.toNat)) rfl (portModeWrite_eq h8) ?_
  rw [hb, if_neg (show ¬ v.toNat % 4 = s.blk.breakout p from hne), if_pos hbusy]
  exact ⟨flag_raise _ _ _ (by simp [messages]), onlyFieldsIrq_raise (by simp) (Within.setFld _ _ _ _ (by simp))⟩

theorem runs_linkEnable {s : State} {l : LinkId} (he : s.blk.linkExists l = true) (h : s.blk.linkState l = 0) :
    Runs (.linkEnable l) s fun t => t.blk.linkState l = 1 ∧ t.blk.flag .TIL_LNK_CTL_lnk_en l = true ∧
      t.blk.fld .TIL_LNK_LOST_count l = 0 ∧ t.blk.fld .TIL_LNK_FEC_CORR_count l = 0 := by
  refine runs_of_eq (g := (·.linkEnable l)) rfl (linkEnable_disabled he h) ⟨linkState_toAcquire, ?_, ?_, ?_⟩
  · unfold flag
    rw [fld_toAcquire (by decide) (by decide), fld_clearLinkCounters_en, fld_setFld_self]
    rfl
  · rw [fld_toAcquire (by decide) (by decide), fld_clearLinkCounters (.inl rfl)]
  · rw [fld_toAcquire (by decide) (by decide), fld_clearLinkCounters (.inr rfl)]

theorem runs_on_dark_port {s : State} {l : LinkId} (h : s.blk.portDark l = true) :
    Runs (.pcsAligned l) s (· = s) ∧ Runs (.retrainDone l) s (· = s) :=
  ⟨runs_of_eq (g := (·.pcsAligned l)) rfl (if_pos h) rfl, runs_of_eq (g := (·.retrainDone l)) rfl (if_neg (by simp [h])) rfl⟩

theorem runs_exchangeTimeout {s : State} {l : LinkId} (h : s.blk.linkState l = 2) :
    ((s.blk.link l).mode ≠ 1 → Runs (.exchangeTimeout l) s fun t => t.blk.linkState l = 3 ∧ t.blk.staketu l = false) ∧
    ((s.blk.link l).mode = 1 → Runs (.exchangeTimeout l) s fun t => t.blk.linkState l = 8) := by
  have hin : s.blk.isIn l .exchange = true := isIn_iff.mpr h
  constructor <;> intro hm
  · refine runs_of_eq (g := (·.exchangeTimeout l)) rfl ((if_pos hin).trans (if_neg hm)) ?_
    exact ⟨upEthernet_leaves.1, upEthernet_leaves.2.1⟩
  · exact runs_of_eq (g := (·.exchangeTimeout l)) rfl ((if_pos hin).trans (if_pos hm)) linkState_toHoldDown

theorem runs_retrainWrite {s : State} {l : LinkId} (h : s.blk.linkState l = 3 ∨ s.blk.linkState l = 4) :
    Runs (.retrainWrite l) s fun t => t.blk.linkState l = 7 :=
  runs_of_eq (g := fun b => if b.isIn l .up || b.isIn l .resync then b.toRetrain l else b) rfl (if_pos (isIn_up_or_resync h))
    linkState_toRetrain

theorem runs_retrainDone {s : State} {l : LinkId} (h : s.blk.linkState l = 7) (hd : s.blk.portDark l = false) :
    Runs (.retrainDone l) s fun t => t.blk.linkState l = 2 :=
  runs_of_eq (g := (·.retrainDone l)) rfl (if_pos (by rw [hd, isIn_eq (c := .retrain) h]; rfl)) (linkState_toExchange false)

theorem runs_retrainTimeout {s : State} {l : LinkId} (h : s.blk.linkState l = 7) :
    Runs (.retrainTimeout l) s fun t => t.blk.linkState l = 8 ∧
      OnlyFields s t [(.TIL_LNK_STATUS_state, l), (.TIL_LNK_STATUS_up, l)] := by
  refine runs_of_eq (g := fun b => if b.isIn l .retrain then b.setState l .holdDown else b) rfl (if_pos (isIn_iff.mpr h)) ?_
  exact ⟨linkState_setState _ _ .holdDown, rfl, rfl, within_setState _ (by simp) (by simp)⟩

theorem runs_holdDownExpiry {s : State} {l : LinkId} (h : s.blk.linkState l = 8) :
    Runs (.holdDownExpiry l) s fun t => t.blk.linkState l = 1 ∧
      (t.blk.link l).mode = (if s.blk.fld .TIL_LNK_CTL_link_mode l = 3 then 0 else s.blk.fld .TIL_LNK_CTL_link_mode l) := by
  refine runs_of_eq (g := fun b => if b.isIn l .holdDown then b.toAcquire l else b) rfl (if_pos (isIn_iff.mpr h)) ?_
  exact ⟨linkState_toAcquire, by simp [toAcquire]⟩

/-- Settles O12: the port writes by what `portBusy` says, and each command of the state machine by the state that it enters last. -/
theorem portsAndLinkStates : Obligations.PortsAndLinkStates := by
  unfold Obligations.PortsAndLinkStates
  refine ⟨⟨fun _ _ _ => runs_portSplitWrite_free, fun _ _ _ _ => runs_portSplitWrite_busy, fun _ _ _ => runs_portModeWrite_free,
    fun _ _ _ => runs_portModeWrite_refused⟩, fun _ _ => runs_linkEnable, ?_, fun _ _ => runs_on_dark_port, ?_, ?_,
    fun _ _ h => (runs_exchangeTimeout h).1, fun _ _ h => (runs_exchangeTimeout h).2, ?_, ?_, fun _ _ => runs_holdDownExpiry⟩
  · intro s l he
    exact runs_of_eq (g := (·.linkDisable l)) rfl rfl (linkState_linkDisable he)
  · intro s l hd h hm
    refine runs_of_eq (g := (·.pcsAligned l)) rfl ((pcsAligned_acquire hd h).trans (if_neg hm)) ?_
    exact ⟨linkState_toExchange false, flag_signal_aligned⟩
  · intro s l hd h hm
    exact runs_of_eq (g := (·.pcsAligned l)) rfl ((pcsAligned_acquire hd h).trans (if_pos hm)) upEthernet_leaves
  · intro s l h
    exact ⟨runs_retrainWrite h, runs_of_eq (g := (·.lossOfSignal l true)) rfl rfl (lossOfSignal_serving h true),
      runs_of_eq (g := (·.lossOfSignal l false)) rfl rfl (lossOfSignal_serving h false)⟩
  · intro s l h
    exact ⟨runs_retrainDone h, runs_retrainTimeout h⟩

end Sys2Proof.Machine
end

section
/-!
PROOF. Keepalive and the capability exchange (R51, R52, R54, R60, R66, R67): when a link control frame has been sent, and O13.
-/

namespace Sys2Proof.Machine

namespace Blk

variable {s t : Blk} {l m : Nat}

/-! ### What has been sent on a link -/

/-- The stamp of a link is read from the registers of time alone (R347). -/
theorem stamp_congr (hf : ∀ f, f = .QTZ_RAW_raw ∨ f = .QTZ_RATE_rate ∨ f = .QTZ_TILE_SYNC_sync → t.fld f 0 = s.fld f 0)
    (ho : t.qOffset = s.qOffset) : t.stamp l = s.stamp l := by
  have hraw := hf _ (.inl rfl)
  have hrate := hf _ (.inr (.inl rfl))
  have hsync := hf _ (.inr (.inr rfl))
  have hT : t.quartzT = s.quartzT := by
    have hr : t.qRate = s.qRate := by unfold qRate; rw [hrate]
    unfold quartzT
    rw [hraw, hr, ho]
  unfold stamp tileNs tileT bit
  rw [hsync, hT]

/-- A change of register fields that are none of time, of the link's mode or of the fields `p`. -/
theorem stamp_of_within {p : Fld → Nat → Prop} (h : Within s t p)
    (hp : ∀ f, f = .QTZ_RAW_raw ∨ f = .QTZ_RATE_rate ∨ f = .QTZ_TILE_SYNC_sync → ¬ p f 0) : t.stamp l = s.stamp l :=
  stamp_congr (fun f hf => h.2 f 0 (hp f hf)) (by rw [h.1])

@[simp] theorem stamp_checkGrants : (s.checkGrants m).stamp l = s.stamp l :=
  stamp_of_within (within_checkGrants s m) (by rintro f (rfl | rfl | rfl) <;> simp [grantCheck, messages])

theorem stamp_setFld {f : Fld} (i v : Nat) (h : f ≠ .QTZ_RAW_raw ∧ f ≠ .QTZ_RATE_rate ∧ f ≠ .QTZ_TILE_SYNC_sync) :
    (s.setFld f i v).stamp l = s.stamp l :=
  stamp_congr (by rintro g (rfl | rfl | rfl) <;> exact fld_setFld_ne _ _ _ _ _ _ (Ne.symm (by simp [h]))) rfl

/-- From `s` to `t` neither the mode of a link, nor its stamp, nor the EtherType of its control frames has changed. -/
structure SameVoice (s t : Blk) (l : Nat) : Prop where
  staketu : t.staketu l = s.staketu l
  stamp : t.stamp l = s.stamp l
  imgLcf : t.imgLcf = s.imgLcf

theorem SameVoice.refl (s : Blk) (l : Nat) : SameVoice s s l := ⟨rfl, rfl, rfl⟩

theorem SameVoice.updLink (g : LinkRec → LinkRec) (h : SameVoice s t l) : SameVoice s (t.updLink m g) l :=
  ⟨h.staketu, h.stamp, h.imgLcf⟩

theorem SameVoice.checkGrants (h : SameVoice s t l) : SameVoice s (t.checkGrants m) l := by
  refine ⟨?_, stamp_checkGrants.trans h.stamp, checkGrants_imgLcf.trans h.imgLcf⟩
  rw [← h.staketu]
  simp [Blk.staketu, flag, grantCheck, messages]

end Blk

open Blk

/-- A link control frame that has just been sent. -/
theorem lcfSent_lcf {S : State} {u : Blk} {l : Nat} {ty : LcfType} {b : Lcf} {p : Lcf → Prop} (hu : SameVoice S.blk u l)
    (hp : ∀ st, p { b with txStamp := st }) : LcfSent S { S with blk := u.lcf l ty b } l ty p := by
  refine ⟨if u.staketu l then some (u.linkWord l (u.link l).lsn false) else none, { b with txStamp := BitVec.ofNat 32 (u.stamp l) },
    ?_, ?_, hp _, ?_⟩
  · rw [← hu.staketu]
    cases u.staketu l <;> rfl
  · rw [← hu.stamp]
  · have h := sent_onWire (s := u) (l := l) S (.lcf l (if u.staketu l then some (u.linkWord l (u.link l).lsn false) else none)
      (lcfFrame u.imgLcf l ty { b with txStamp := BitVec.ofNat 32 (u.stamp l) }))
    rw [hu.imgLcf] at h
    rw [lcf, lcfNak, hu.imgLcf]
    exact h

/-- What a link holds beside its registers does not bear on what has been sent. -/
theorem lcfSent_updLink {S : State} {u : Blk} {l m : Nat} {ty : LcfType} {p : Lcf → Prop} {g : LinkRec → LinkRec}
    (h : LcfSent S { S with blk := u } l ty p) : LcfSent S { S with blk := u.updLink m g } l ty p := h

theorem lcfSent_sendCap {S : State} {u : Blk} {l : Nat} {p : Lcf → Prop} (hu : SameVoice S.blk u l)
    (hp : ∀ st, p { u.capBody l with txStamp := st }) : LcfSent S { S with blk := u.sendCap l } l .cap p := by
  rw [sendCap_eq]
  refine lcfSent_updLink (u := (u.checkGrants l).lcf l .cap (u.capBody l)) ?_
  exact lcfSent_lcf (u := u.checkGrants l) (b := u.capBody l) hu.checkGrants hp

namespace Blk

variable {s : Blk} {l m : Nat} {c : Lcf}

/-! ### Entries to UP in Staketu mode -/

/-- What a re-initialisation of credits leaves of its link: both directions re-initialise, under the grant now advertised (R60, R80). -/
theorem reinit_link : (s.reinit l).link l = { s.link l with
    txReinit := true, rxReinit := true, grant := ((s.reinit l).link l).grant, noGrant := ((s.reinit l).link l).noGrant,
    markDue := ((s.reinit l).link l).markDue } := by
  unfold reinit
  dsimp only
  split_ifs <;> simp

theorem startReinit_link : (s.startReinit l).link l = { s.link l with
    txReinit := true, rxReinit := true, grant := ((s.startReinit l).link l).grant, noGrant := ((s.startReinit l).link l).noGrant,
    markDue := ((s.startReinit l).link l).markDue } := by
  unfold startReinit
  split
  · exact reinit_link
  · have h := reinit_link (s := s.lcf l .resyncReq lcfBlank) (l := l)
    rwa [link_lcf] at h

theorem askKeepalive_link : (s.askKeepalive l).link l = { s.link l with kaAsked := ((s.askKeepalive l).link l).kaAsked } := by
  unfold askKeepalive
  split <;> simp

theorem upStaketu_link : (s.upStaketu l).link l = { s.link l with
    fromUp := false, paused := 0, xoff := 0, txReinit := true, rxReinit := true, grant := ((s.upStaketu l).link l).grant,
    noGrant := ((s.upStaketu l).link l).noGrant, markDue := ((s.upStaketu l).link l).markDue,
    kaAsked := ((s.upStaketu l).link l).kaAsked } := by
  unfold upStaketu
  rw [askKeepalive_link, startReinit_link]
  simp

/-! ### A CAP that settles the link (R52) -/

/-- What settles in the registers as a CAP settles a link: the mode, retry, keepalive and the partner's grants (R52, R53, R77, R80). -/
theorem settleCap_eq (s : Blk) (l : Nat) (c : Lcf) (rtt : Nat) : ∃ (u : Blk) (g : LinkRec → LinkRec),
    s.settleCap l c rtt = (u.updLink l g).upStaketu l ∧ u.staketu l = true ∧ ∀ r, (g r).maxFrame = min (min s.imgMaxFrame c.maxFrame.toNat) 9216 ∧
      (g r).features = 0xF &&& c.features.toNat ∧ (g r).nextLsn = 0 ∧ (g r).lsn = 8191 := by
  have hgrants : ∀ u : Blk, Within u ((List.range 8).foldl (fun s k =>
      s.setFld .TIL_LNK_GRANT_TC_partner_grant (8 * l + k) ((c.classVal.getD k 0).toNat)) u)
      fun f _ => f = .TIL_LNK_GRANT_TC_partner_grant :=
    Within.foldl _ _ fun u k _ => Within.setFld _ _ _ _ rfl
  refine ⟨_, _, rfl, ?_, fun r => ⟨?_, rfl, rfl, rfl⟩⟩
  · unfold staketu flag
    rw [(hgrants _).2 _ _ (show Fld.TIL_LNK_STATUS_staketu ≠ .TIL_LNK_GRANT_TC_partner_grant by decide),
      fld_setFld_ne _ _ _ _ _ _ (by decide), fld_setFld_ne _ _ _ _ _ _ (by decide), fld_setFld_self]
    rfl
  · dsimp only
    rw [(hgrants _).1]
    rfl

theorem settleCap_leaves {rtt : Nat} : (s.settleCap l c rtt).linkState l = 3 ∧ (s.settleCap l c rtt).staketu l = true ∧
    ((s.settleCap l c rtt).link l).maxFrame = min (min s.imgMaxFrame c.maxFrame.toNat) 9216 ∧
    ((s.settleCap l c rtt).link l).features = 0xF &&& c.features.toNat ∧ ((s.settleCap l c rtt).link l).nextLsn = 0 ∧
    ((s.settleCap l c rtt).link l).lsn = 8191 := by
  obtain ⟨u, g, h, hu, hg⟩ := settleCap_eq s l c rtt
  rw [h]
  refine ⟨linkState_upStaketu, ?_, ?_⟩
  · have hs := fld_upStaketu (s := u.updLink l g) (l := l) (f := .TIL_LNK_STATUS_staketu) (i := l) (by simp [grantCheck, messages])
      (by decide) (by decide) (by decide)
    unfold staketu flag
    rw [hs]
    exact hu
  · rw [upStaketu_link, link_updLink_self]
    exact hg _

/-- In EXCHANGE, its own direction confirmed, a link settles by a CAP that confirms the other. -/
theorem capReceived_settles (hs : s.linkState l = 2) (ho : (s.link l).ownConf = true) (hv : c.llv ≠ 0) (hc : c.conf = true) :
    ∃ (u : Blk) (p : Lcf) (rtt : Nat), s.capReceived l c = u.settleCap l p rtt ∧ u.imgMaxFrame = s.imgMaxFrame ∧
      p.maxFrame = c.maxFrame ∧ p.features = c.features := by
  have hup : s.isIn l .up = false := isIn_eq (c := .exchange) hs
  have hin : s.isIn l .exchange = true := isIn_iff.mpr hs
  have hin' : ∀ g, (s.updLink l g).isIn l .exchange = true := fun _ => hin
  unfold capReceived
  rw [if_neg (by simpa [capValid] using hv)]
  simp only [hup, hin, hin', link_updLink_self, ho, hc, Bool.false_and, Bool.false_or, Bool.false_eq_true, Bool.not_true,
    Bool.and_false, Bool.true_or, Bool.true_and, if_false, if_true]
  exact ⟨_, _, _, rfl, rfl, rfl, rfl⟩

/-- A CAP that confirms is answered in UP in Staketu mode (R52). -/
theorem capReceived_answered (hs : s.linkState l = 3) (hm : s.staketu l = true) (hv : c.llv ≠ 0) (hc : c.conf = true) :
    s.capReceived l c =
      (s.updLink l fun r => { r with lastCap := some (c.txStamp.toNat, s.tileNs (tileOf l)), ownConf := true }).sendCap l := by
  have hin : (s.isIn l .up && s.staketu l) = true := by rw [isIn_eq (c := .up) hs, hm]; rfl
  unfold capReceived
  rw [if_neg (by simpa [capValid] using hv), if_pos hin, if_pos hc]

/-! ### Keepalive -/

theorem askKeepalive_wanted (hs : s.linkState l = 3) (hc : s.flag .TIL_LNK_STATUS_ka_cap l = true)
    (hr : s.flag .TIL_LNK_CTL_ka_req l = true) :
    s.askKeepalive l = (s.lcf l .kaReq lcfBlank).updLink l fun r => { r with kaAsked := true } :=
  if_pos (by rw [isIn_eq (c := .up) hs, hc, hr]; rfl)

theorem toKeepalive_leaves : (s.toKeepalive l).linkState l = 5 ∧ (s.toKeepalive l).flag .TIL_LNK_INT_ka_change l = true ∧
    ((s.toKeepalive l).link l).txReinit = false ∧ ((s.toKeepalive l).link l).rxReinit = false := by
  refine ⟨?_, flag_raise _ _ _ (by simp [messages]), by simp [toKeepalive], by simp [toKeepalive]⟩
  unfold linkState toKeepalive
  rw [fld_updLink, fld_raise_ne _ _ _ _ _ (by simp [messages]) (by decide)]
  exact linkState_setState s l .keepalive

/-- KA_REQ is answered on a link that is idle and accepts it (R66). -/
theorem kaReqReceived_idle (hs : s.linkState l = 3) (hc : s.flag .TIL_LNK_STATUS_ka_cap l = true) (hq : s.queues = [])
    (htx : (s.feldOf l).tx = []) (hu : (s.link l).unacked = []) (ha : s.flag .TIL_LNK_CTL_ka_accept l = true) :
    s.kaReqReceived l = (s.lcf l .kaAck lcfBlank).toKeepalive l := by
  have hidle : ((s.queuesOf l).all fun q => decide (s.queue q = [])) = true := by simp [queue, hq, Tab.get, Tab.find]
  unfold kaReqReceived
  dsimp only
  rw [if_pos (by simp [isIn_eq (c := .up) hs, hc, hidle, htx, hu, ha])]

theorem wakeLink_eq (hs : s.linkState l = 5) :
    s.wakeLink l = ((s.setState l .wake).raise .TIL_LNK_INT_ka_change l).sendKeepalive l true :=
  if_pos (isIn_iff.mpr hs)

theorem linkState_wakeLink (hs : s.linkState l = 5) : (s.wakeLink l).linkState l = 6 := by
  unfold linkState
  rw [wakeLink_eq hs, fld_sendKeepalive, fld_raise_ne _ _ _ _ _ (by simp [messages]) (by decide)]
  exact linkState_setState s l .wake

end Blk

/-! ### The commands -/

/-- A link in KEEPALIVE wakes, and says so by a word on its lowest lane (R67). -/
theorem wakes {s : State} {l : LinkId} (h : s.blk.linkState l = 5) :
    (s.blk.wakeLink l).linkState l = 6 ∧ Sent { s with blk := s.blk.wakeLink l } l (.keepalive l true (keepaliveCheck true)) := by
  refine ⟨linkState_wakeLink h, ?_⟩
  rw [wakeLink_eq h]
  exact sent_onWire s _

theorem runs_keepaliveRequest {s : State} {l : LinkId} (he : s.blk.linkExists l = true) (h : s.blk.linkState l = 3)
    (hc : s.blk.flag .TIL_LNK_STATUS_ka_cap l = true) :
    Runs (.keepaliveRequest l) s fun t => t.blk.flag .TIL_LNK_CTL_ka_req l = true ∧ (t.blk.link l).kaAsked = true ∧
      LcfSent s t l .kaReq fun _ => True := by
  have hreq : (s.blk.setFld .TIL_LNK_CTL_ka_req l 1).flag .TIL_LNK_CTL_ka_req l = true := by
    unfold flag
    rw [fld_setFld_self]
    rfl
  have hask := askKeepalive_wanted (s := s.blk.setFld .TIL_LNK_CTL_ka_req l 1) (l := l)
    ((fld_setFld_ne _ _ _ _ _ _ (by decide)).trans h) (by simpa [flag] using hc) hreq
  refine runs_of_eq (g := fun b => if b.linkExists l then (b.setFld .TIL_LNK_CTL_ka_req l 1).askKeepalive l else b) rfl
    ((if_pos he).trans hask) ⟨?_, by simp, ?_⟩
  · unfold flag
    rw [fld_updLink, fld_lcf]
    exact hreq
  · refine lcfSent_updLink (u := (s.blk.setFld .TIL_LNK_CTL_ka_req l 1).lcf l .kaReq lcfBlank) ?_
    refine lcfSent_lcf ⟨?_, stamp_setFld _ _ (by decide), rfl⟩ fun _ => trivial
    simp [staketu, flag]

theorem runs_kaRetryTimer {s : State} {l : LinkId} (h : s.blk.linkState l = 3) (hc : s.blk.flag .TIL_LNK_STATUS_ka_cap l = true)
    (hr : s.blk.flag .TIL_LNK_CTL_ka_req l = true) (ha : (s.blk.link l).kaAsked = true) :
    Runs (.kaRetryTimer l) s fun t => LcfSent s t l .kaReq fun _ => True := by
  refine runs_of_eq (g := fun b => if (b.link l).kaAsked then b.askKeepalive l else b) rfl
    ((if_pos ha).trans (askKeepalive_wanted h hc hr)) ?_
  refine lcfSent_updLink (u := s.blk.lcf l .kaReq lcfBlank) ?_
  exact lcfSent_lcf (.refl _ _) fun _ => trivial

theorem runs_kaReq {s : State} {l : LinkId} (h : s.blk.linkState l = 3) (hc : s.blk.flag .TIL_LNK_STATUS_ka_cap l = true)
    (hq : s.blk.queues = []) (htx : (s.blk.feldOf l).tx = []) (hu : (s.blk.link l).unacked = [])
    (ha : s.blk.flag .TIL_LNK_CTL_ka_accept l = true) :
    Runs (.kaReq l) s fun t => t.blk.linkState l = 5 ∧ t.blk.flag .TIL_LNK_INT_ka_change l = true := by
  refine runs_of_eq (g := (·.kaReqReceived l)) rfl (kaReqReceived_idle h hc hq htx hu ha) ?_
  exact ⟨toKeepalive_leaves.1, toKeepalive_leaves.2.1⟩

theorem runs_kaAck {s : State} {l : LinkId} (h : s.blk.linkState l = 3) (ha : (s.blk.link l).kaAsked = true) :
    Runs (.kaAck l) s fun t => t.blk.linkState l = 5 ∧ t.blk.flag .TIL_LNK_INT_ka_change l = true ∧
      (t.blk.link l).txReinit = false ∧ (t.blk.link l).rxReinit = false := by
  refine runs_of_eq (g := fun b => if b.isIn l .up && (b.link l).kaAsked then b.toKeepalive l else b) rfl
    (if_pos (by rw [isIn_eq (c := .up) h, ha]; rfl)) toKeepalive_leaves

theorem runs_in_keepalive {s : State} {l : LinkId} (h : s.blk.linkState l = 5) :
    Runs (.keepaliveWordTimer l) s (fun t =>
      t = { s with blk := s.blk.onWire l (.keepalive l false (keepaliveCheck false)) }) ∧
    Runs (.keepaliveWord l true) s (fun t => t.blk.linkState l = 6 ∧ Sent t l (.keepalive l true (keepaliveCheck true))) ∧
    Runs (.keepaliveWord l false) s (fun t => t = s) ∧
    Runs (.wake l) s (fun t => t.blk.linkState l = 6 ∧ Sent t l (.keepalive l true (keepaliveCheck true))) ∧
    Runs (.keepaliveWordTimeout l) s (fun t => t.blk.linkState l = 8) ∧
    (s.blk.linkExists l = true → Runs (.keepaliveRelease l) s fun t => t.blk.linkState l = 6 ∧
      t.blk.flag .TIL_LNK_CTL_ka_req l = false) := by
  have hin : s.blk.isIn l .keepalive = true := isIn_iff.mpr h
  refine ⟨?_, runs_of_eq (g := (·.wakeLink l)) rfl rfl (wakes h), ⟨s, rfl, rfl⟩, runs_of_eq (g := (·.wakeLink l)) rfl rfl (wakes h),
    ?_, fun he => ?_⟩
  · exact runs_of_eq (g := fun b => if b.isIn l .keepalive then b.sendKeepalive l false else b) rfl (if_pos hin) rfl
  · exact runs_of_eq (g := fun b => if b.isIn l .keepalive then b.toHoldDown l else b) rfl (if_pos hin) linkState_toHoldDown
  · have h' : (s.blk.setFld .TIL_LNK_CTL_ka_req l 0).linkState l = 5 := (fld_setFld_ne _ _ _ _ _ _ (by decide)).trans h
    refine runs_of_eq (g := fun b => if b.linkExists l then (b.setFld .TIL_LNK_CTL_ka_req l 0).wakeLink l else b) rfl (if_pos he)
      ⟨linkState_wakeLink h', ?_⟩
    unfold flag
    rw [wakeLink_eq h', fld_sendKeepalive, fld_raise_ne _ _ _ _ _ (by simp [messages]) (by decide),
      fld_setState_ne (by decide) (by decide), fld_setFld_self]
    rfl

theorem runs_in_wake {s : State} {l : LinkId} (h : s.blk.linkState l = 6) :
    Runs (.wakeTimeout l) s (fun t => t.blk.linkState l = 8) ∧
    (s.blk.portDark l = false →
      Runs (.pcsAligned l) s fun t => t.blk.linkState l = 3 ∧ t.blk.flag .TIL_LNK_INT_up l = true ∧
        (t.blk.link l).txReinit = true ∧ (t.blk.link l).rxReinit = true) := by
  refine ⟨?_, fun hd => ?_⟩
  · exact runs_of_eq (g := fun b => if b.isIn l .wake then b.toHoldDown l else b) rfl (if_pos (isIn_iff.mpr h)) linkState_toHoldDown
  · refine runs_of_eq (g := (·.pcsAligned l)) rfl (pcsAligned_wake hd h) ?_
    dsimp only
    exact ⟨linkState_upStaketu, flag_up_upStaketu, by rw [upStaketu_link], by rw [upStaketu_link]⟩

theorem runs_capTimer {s : State} {l : LinkId} (h : s.blk.linkState l = 2) :
    Runs (.capTimer l) s fun t => LcfSent s t l .cap (fun b => b.features = 0xF ∧ b.conf = (s.blk.link l).ownConf) ∧
      (t.blk.link l).stamps = s.blk.stamp l :: (s.blk.link l).stamps := by
  refine runs_of_eq (g := fun b => if b.isIn l .exchange then b.sendCap l else b) rfl (if_pos (isIn_iff.mpr h)) ⟨?_, ?_⟩
  · exact lcfSent_sendCap (.refl _ _) fun _ => ⟨rfl, rfl⟩
  · rw [sendCap_link, stamp_checkGrants]

theorem runs_ethernetCapTimer {s : State} {l : LinkId} (h : s.blk.linkState l = 3) (hs : s.blk.staketu l = false)
    (hm : (s.blk.link l).mode = 0) : Runs (.ethernetCapTimer l) s fun t => LcfSent s t l .cap fun b => b.features = 0xF := by
  refine runs_of_eq (g := fun b => if b.isIn l .up && !b.staketu l && (b.link l).mode = 0 then b.sendCap l else b) rfl
    (if_pos (by rw [isIn_eq (c := .up) h, hs, hm]; rfl)) ?_
  exact lcfSent_sendCap (.refl _ _) fun _ => rfl

theorem runs_capReceived_answered {s : State} {l : LinkId} {c : Lcf} (h : s.blk.linkState l = 3) (hs : s.blk.staketu l = true)
    (hv : c.llv ≠ 0) (hc : c.conf = true) :
    Runs (.capReceived l c) s fun t => LcfSent s t l .cap (fun b => b.echoStamp = c.txStamp ∧ b.conf = true) ∧
      t.blk.linkState l = 3 := by
  refine runs_of_eq (g := (·.capReceived l c)) rfl (capReceived_answered h hs hv hc) ⟨?_, ?_⟩
  · refine lcfSent_sendCap ((SameVoice.refl _ _).updLink _) fun _ => ?_
    simp [capBody]
  · exact (fld_sendCap (by simp [grantCheck, messages])).trans h

/-- Settles O13: a lemma for each command of keepalive; `lcfSent_sendCap` for the CAPs that go out, and `settleCap_leaves` for the
one that settles. -/
theorem keepaliveAndCapability : Obligations.KeepaliveAndCapability := by
  unfold Obligations.KeepaliveAndCapability
  refine ⟨⟨fun _ _ => runs_keepaliveRequest, fun _ _ => runs_kaRetryTimer, fun _ _ => runs_kaReq, fun _ _ => runs_kaAck,
    fun _ _ => runs_in_keepalive, fun _ _ => runs_in_wake⟩, fun _ _ => runs_capTimer, fun _ _ => runs_ethernetCapTimer,
    fun _ _ _ => runs_capReceived_answered, ?_⟩
  intro s l c h ho hv hc
  obtain ⟨u, p, rtt, he, hmax, hframe, hfeat⟩ := capReceived_settles h ho hv hc
  refine runs_of_eq (g := (·.capReceived l c)) rfl he ?_
  rw [← hmax, ← hframe, ← hfeat]
  dsimp only
  exact settleCap_leaves

end Sys2Proof.Machine
end

section
/-!
PROOF. What cutting a frame short leaves of the register fields (R527): those that the handling of frames may change, and the depths of
the queues that it is taken off.
-/

namespace Sys2Proof.Machine.Blk

variable {s t u : Blk}

namespace Handled

theorem offerUpTo (n l cls : Nat) : Handled s (Blk.offerUpTo n s l cls) := by
  induction n generalizing s with
  | zero => exact refl s
  | succ n ih =>
    unfold Blk.offerUpTo
    dsimp only
    split
    · exact refl s
    next fid r _ =>
      have hask : Handled s ((s.copiesOf fid).foldl (fun s kc => if kc.2.phase = .held then s.ask kc.1 else s) s) :=
        foldl _ (fun t kc => ite (ask _) (refl t)) _ _
      exact ite (hask.trans (ite (refl _) ih)) (refl s)

theorem offerAfter (link : Option Nat) : Handled s (s.offerAfter link) := by
  unfold Blk.offerAfter
  split
  · exact refl s
  · exact foldl _ (fun t c => offerUpTo _ _ _) _ _

theorem discardAndOffer (key : Nat) : Handled s (s.discardAndOffer key) := by
  unfold Blk.discardAndOffer
  split
  · exact refl s
  · exact (discardCopy _).trans (offerAfter _)

theorem cutCodes (why : Option (Nat × Nat)) : Handled s (s.cutCodes why).2 := by
  unfold Blk.cutCodes
  split
  · exact refl s
  · exact ⟨rfl, fun _ _ _ => rfl⟩

theorem traceFrame (fid point reason : Nat) : Handled s (s.traceFrame fid point reason) := by
  unfold Blk.traceFrame
  split
  · exact refl s
  · exact (traceOut _ _ _ _ _ _ _ _).trans (putFrame _ _)

end Handled

/-- The register fields that cutting a frame short may change. -/
def cutting (g : Fld) : Prop := handling g ∨ g = .FLD_SUB_DEPTH_cells

/-- From `s` to `t` no other register field has changed. -/
def CutFields (s t : Blk) : Prop := ∀ f i, ¬ cutting f → t.fld f i = s.fld f i

namespace CutFields

theorem refl (s : Blk) : CutFields s s := fun _ _ _ => rfl

theorem trans (h : CutFields s t) (k : CutFields t u) : CutFields s u := fun f i hf => (k f i hf).trans (h f i hf)

theorem of_handled (h : Handled s t) : CutFields s t := fun f i hf => h.2 f i fun k => hf (.inl k)

theorem ite {c : Prop} [Decidable c] (h : CutFields s t) (k : CutFields s u) : CutFields s (if c then t else u) := by
  split
  exacts [h, k]

theorem foldl {β : Type} (g : Blk → β → Blk) (h : ∀ t b, CutFields t (g t b)) (l : List β) (t : Blk) : CutFields t (l.foldl g t) := by
  induction l generalizing t with
  | nil => exact refl t
  | cons b l ih => exact (h t b).trans (ih _)

theorem settleClass (l k : Nat) : CutFields s (s.settleClass l k) := by
  obtain ⟨fd, h, -⟩ := settleClass_leaves s l k
  rw [h]
  exact fun _ _ _ => rfl

theorem setQueue (q : Nat) (es : List QEntry) : CutFields s (s.setQueue q es) := fun _ _ hf =>
  fld_setFld_ne _ _ _ _ _ _ fun h => hf (.inr h)

/-- A queue from which a copy is taken, its trace records written with a drop point and a reason. -/
def offQueue (s : Blk) (key : Nat) (codes : Nat × Nat) (kv : Nat × List QEntry) : Blk :=
  if kv.2.any (·.copy = key) then
    let s := (kv.2.filter (·.copy = key)).foldl (fun s e => s.traceEntry (s.queueLink kv.1) e none codes.1 codes.2) s
    (s.settleClass (s.queueLink kv.1) (kv.1 / 32 % 8)).setQueue kv.1 (kv.2.filter (·.copy ≠ key))
  else s

theorem offQueue_fields (key : Nat) (codes : Nat × Nat) (kv : Nat × List QEntry) : CutFields s (offQueue s key codes kv) := by
  unfold offQueue
  refine ite ?_ (refl s)
  exact ((foldl _ (fun t e => of_handled (.traceOut ..)) _ _).trans (settleClass _ _)).trans (setQueue _ _)

/-- A copy is taken off the queues, and goes or is ended by a stomp. -/
theorem cutCopy (key : Nat) (why : Option (Nat × Nat)) : CutFields s (s.cutCopy key why) := by
  unfold Blk.cutCopy
  split
  · exact refl s
  next c _ =>
    have hcodes : CutFields s (if c.tag.isSome then s.cutCodes why else ((0, 0), s)).2 := by
      split
      · exact of_handled (.cutCodes why)
      · exact refl s
    dsimp only
    generalize (if c.tag.isSome then s.cutCodes why else ((0, 0), s)) = codes at *
    have hoff : CutFields s (codes.2.queues.foldl (fun s kv => offQueue s key codes.1 kv) codes.2) :=
      hcodes.trans (foldl _ (fun t kv => offQueue_fields _ _ _) _ _)
    refine hoff.trans (ite (of_handled ?_) (of_handled ?_))
    · exact ((Handled.unland _).trans (.putCopy _ _)).trans (.settle _)
    · exact (Handled.ite (.traceDrop _ _ _) (.refl _)).trans (.discardAndOffer _)

theorem cutShortFrame (fid : Nat) (why : Option (Nat × Nat)) : CutFields s (s.cutShortFrame fid why) := by
  have hcut : ∀ t : Blk, CutFields t (((List.range 4).foldl (fun s d => s.cutShort (4 * fid + d) why) t).dropFrame fid) := fun t =>
    (foldl _ (fun t d => ite (refl t) (cutCopy _ _)) _ _).trans (of_handled (.dropFrame _))
  unfold Blk.cutShortFrame
  dsimp only
  split
  · split
    · exact hcut s
    · exact (of_handled ((Handled.cutCodes why).trans (.traceFrame _ _ _))).trans (hcut _)
  · exact hcut s

end CutFields

end Sys2Proof.Machine.Blk
end

section
/-!
PROOF. Credits of a link, their audit and re-initialisation (R55 to R60), errors and retry (R46, R48, R62 to R64): O14.
-/

namespace Sys2Proof.Machine

namespace Blk

variable {s t : Blk} {l m : Nat}

/-- A link that carries Staketu traffic is UP or in RESYNC, in Staketu mode. -/
theorem flows_iff : s.flows l = true ↔ (s.linkState l = 3 ∨ s.linkState l = 4) ∧ s.staketu l = true := by
  simp [flows, isIn_iff, LinkCode.code]

/-! ### Credits and their audit -/

/-- What a report of `total` returns of class `c`, modulo 1,024, makes of a link's credits (R56). -/
def credited (r : LinkRec) (c total : Nat) : LinkRec :=
  let d := (total + 1024 - vget r.returnsSeen c % 1024) % 1024
  { r with held := vadd r.held c d, returnsSeen := vadd r.returnsSeen c d }

theorem creditReceived_word (hf : s.flows l = true) (c : ClassId) (total : BitVec 10) :
    s.creditReceived l (.word c total) = (s.updLink l fun r => credited r c total.toNat).pump l := if_pos hf

/-- An audit compares the partner's cells sent with those received or declared lost, where no retry and no re-initialisation is in
progress (R59). -/
theorem auditReceived_eq (hs : s.linkState l = 3) (hm : s.staketu l = true) (ha : (s.link l).features.testBit 3 = true)
    (hr : (s.link l).retryClock = false) (hx : (s.link l).rxReinit = false) (sent : List (BitVec 16)) :
    s.auditReceived l sent =
      if (List.range 8).all fun c => (sent.getD c 0).toNat = (vget (s.link l).cellsRcvd c + vget (s.link l).lostCells c) % 65536 then s
      else (s.raise .TIL_LNK_INT_credit_mismatch l).enterResync l :=
  if_pos (by simp [isIn_eq (c := .up) hs, hm, ha, hr, hx])

/-! ### Re-initialisation (R60) -/

theorem enterResync_up (hs : s.linkState l = 3) (hm : s.staketu l = true) :
    s.enterResync l = ((s.setState l .resync).count .TIL_LNK_RESYNCS_count l 1).startReinit l :=
  if_pos (by rw [isIn_eq (c := .up) hs, hm]; rfl)

/-- A loss takes a link into RESYNC, or joins the RESYNC in progress. -/
theorem linkState_enterResync (hf : s.flows l = true) : (s.enterResync l).linkState l = 4 := by
  obtain ⟨hs | hs, hm⟩ := flows_iff.mp hf
  · unfold linkState
    rw [enterResync_up hs hm, fld_startReinit (by simp [grantCheck, messages]), fld_count_ne _ _ _ _ _ _ (by simp [counts]) (by decide)]
    exact linkState_setState s l .resync
  · rw [enterResync, if_neg (by rw [isIn_eq (c := .resync) hs]; exact Bool.false_ne_true), hs]

theorem fld_enterResync {f : Fld} {i : Nat} (h : ¬ grantCheck f) (hc : ¬ counts f) (h₁ : f ≠ .TIL_LNK_STATUS_state)
    (h₂ : f ≠ .TIL_LNK_STATUS_up) (h₃ : f ≠ .TIL_LNK_RESYNCS_count) : (s.enterResync l).fld f i = s.fld f i := by
  unfold enterResync
  split
  · rw [fld_startReinit h]
    simp [hc, h₁, h₂, h₃]
  · rfl

/-- Entering RESYNC leaves the retry clock of a link as it is. -/
theorem retryClock_enterResync : ((s.enterResync l).link l).retryClock = (s.link l).retryClock := by
  unfold enterResync
  split
  · rw [startReinit_link]
    simp
  · rfl

/-- Out of RESYNC nothing returns to UP. -/
theorem endResync_up (hs : s.linkState l = 3) : s.endResync l = s := by
  unfold endResync
  dsimp only
  rw [isIn_eq (c := .up) hs]
  rfl

/-- A link takes the grant now advertised into force, where it has not as yet (R80). -/
def takeGrant (s : Blk) (l : Nat) : Blk :=
  if (s.link l).rxReinit then s
  else (s.checkGrants l).updLink l fun r => { r with grant := s.advertised l, noGrant := s.grantOver l }

/-- Both directions of a link re-initialise, the mark still to be sent. -/
def reinitOpened (s : Blk) (l : Nat) : Blk :=
  (s.takeGrant l).updLink l fun r => { r with txReinit := true, rxReinit := true, markDue := r.markDue || !r.txReinit }

theorem takeGrant_link : (s.takeGrant l).link l = { s.link l with
    grant := ((s.takeGrant l).link l).grant, noGrant := ((s.takeGrant l).link l).noGrant } := by
  unfold takeGrant
  split <;> simp

theorem takeGrant_feldOf : (s.takeGrant l).feldOf l = s.feldOf l := by
  unfold takeGrant
  split <;> simp

theorem sameVoice_reinitOpened : SameVoice s (s.reinitOpened l) l := by
  refine SameVoice.updLink _ ?_
  unfold takeGrant
  split
  · exact .refl s l
  · exact (SameVoice.refl s l).checkGrants.updLink _

/-- A re-initialisation that begins: its mark goes out, or waits for the end of the frame in progress (R60). -/
theorem reinit_begins (ht : (s.link l).txReinit = false) :
    s.reinit l = if s.midFrame l then s.reinitOpened l else (s.reinitOpened l).sendMark l := by
  have hmid : (s.reinitOpened l).midFrame l = s.midFrame l := by simp [midFrame, reinitOpened, takeGrant_feldOf]
  have h : s.reinit l = if !(s.link l).txReinit && !(s.reinitOpened l).midFrame l then (s.reinitOpened l).sendMark l
      else s.reinitOpened l := rfl
  rw [h, ht, hmid]
  cases s.midFrame l <;> rfl

/-- What a re-initialisation that begins leaves of its link. -/
theorem reinitOpened_link (ht : (s.link l).txReinit = false) : (s.reinitOpened l).link l = { s.link l with
    txReinit := true, rxReinit := true, markDue := true, grant := ((s.takeGrant l).link l).grant,
    noGrant := ((s.takeGrant l).link l).noGrant } := by
  unfold reinitOpened
  rw [link_updLink_self, takeGrant_link]
  simp [ht]

/-- RESYNC_MARK is answered with the cells charged, and the receiver's counts restart; the link being UP, nothing else follows. -/
theorem resyncMark_up (hf : s.flows l = true) (hs : s.linkState l = 3) : s.resyncMarkReceived l =
    (s.lcf l .resyncAck { lcfBlank with classVal := classVals (s.link l).charged }).updLink l fun r =>
      { r with rxReinit := false, cellsRcvd := vzero, lostCells := vzero, returned := vzero } := by
  have hend := endResync_up (l := l) (s := (s.lcf l .resyncAck { lcfBlank with classVal := classVals (s.link l).charged }).updLink l
    fun r => { r with rxReinit := false, cellsRcvd := vzero, lostCells := vzero, returned := vzero }) ((fld_lcf _ _).trans hs)
  exact (if_pos hf).trans hend

/-- What RESYNC_ACK makes of a link: the credits held are the partner's grant less the cells charged (R60). -/
def resumed (s : Blk) (l : Nat) (charged : List (BitVec 16)) (r : LinkRec) : LinkRec :=
  { r with held := if r.noGrant then vzero else (List.range 8).map fun c =>
             s.fld .TIL_LNK_GRANT_TC_partner_grant (8 * l + c) - (charged.getD c 0).toNat,
           cellsSent := vzero, returnsSeen := vzero, txReinit := false,
           unacked := r.unacked.map fun u => { u with paid := false } }

theorem resyncAck_up (hf : s.flows l = true) (hs : s.linkState l = 3) (ht : (s.link l).txReinit = true)
    (hd : (s.link l).markDue = false) (ch : List (BitVec 16)) :
    s.resyncAckReceived l ch = (s.updLink l (s.resumed l ch)).pump l := by
  have hend : (s.updLink l (s.resumed l ch)).endResync l = s.updLink l (s.resumed l ch) := endResync_up hs
  have h : s.resyncAckReceived l ch = ((s.updLink l (s.resumed l ch)).endResync l).pump l :=
    if_pos (by rw [hf, ht, hd]; rfl)
  rw [h, hend]

/-! ### Errors (R46, R48, R63) -/

/-- An uncorrectable codeword opens a burst event; where no count of them takes the link into RETRAIN, nothing more follows. -/
theorem uncorrectable_opens (hs : s.linkState l ≠ 0) (hb : (s.link l).burst = false)
    (hn : s.fld .TIL_LNK_BURST_CFG_retrain_count l = 0) : ∃ recent, s.uncorrectable l =
      ((((s.count .TIL_LNK_FEC_UNCORR_count l 1).updLink l fun r => { r with burst := true, bursts := recent }).count
        .TIL_LNK_BURSTS_count l 1).raise .TIL_LNK_INT_burst l) := by
  have hin : ¬ s.isIn l .disabled = true := fun h => hs (isIn_iff.mp h)
  unfold uncorrectable
  rw [if_neg hin]
  simp [hb, hn, counts, messages]
  exact ⟨_, rfl⟩

/-- Frame nextLsn is passed: nothing else of the link changes but what has overtaken it. -/
theorem lsnDone_link : (s.lsnDone l).link l = { s.link l with
    nextLsn := ((s.lsnDone l).link l).nextLsn, ahead := ((s.lsnDone l).link l).ahead } := by
  unfold lsnDone
  simp

/-- The frame being received gives its cells back: of the fields only those change that cutting a frame short may change. -/
theorem cutFields_takeBack (fid : Nat) : CutFields s (s.takeBack l fid) := by
  unfold takeBack
  split
  · exact .refl s
  · refine CutFields.trans (.of_handled ?_) (.cutShortFrame _ _)
    exact ((Handled.updLink _ _).trans (.setFld (by simp [handling]) _ _)).trans (.putFrame _ _)

/-- The retry clock runs out (R63): what of a replay has arrived is cut short, the first undelivered frame is counted as lost, and the
link's credits re-initialise. -/
theorem retryExpired_eq (hf : s.flows l = true) (hr : (s.link l).retryClock = true) : ∃ (u : Blk) (g : LinkRec → LinkRec),
    CutFields s u ∧ (∀ r, (g r).retryClock = false) ∧ s.retryExpired l =
      (((((u.count .TIL_LNK_LOST_count l 1).raise .TIL_LNK_INT_frame_lost l).updLink l g).lsnDone l).enterResync l) := by
  unfold retryExpired
  dsimp only
  rw [if_pos (by rw [hf, hr]; rfl)]
  refine ⟨_, _, ?_, fun r => ?_, rfl⟩
  · split
    · exact (CutFields.of_handled (.updLink _ _)).trans (cutFields_takeBack _)
    · exact .refl s
  · rfl

theorem retryExpired_leaves (hf : s.flows l = true) (hr : (s.link l).retryClock = true) :
    (s.retryExpired l).fld .TIL_LNK_LOST_count l = min (s.fld .TIL_LNK_LOST_count l + 1) (2 ^ 64 - 1) ∧
      (s.retryExpired l).flag .TIL_LNK_INT_frame_lost l = true ∧ ((s.retryExpired l).link l).retryClock = false ∧
      (s.retryExpired l).linkState l = 4 := by
  obtain ⟨u, g, hu, hg, h⟩ := retryExpired_eq hf hr
  have hfld : ∀ v : Blk, ∀ f i, (v.lsnDone l).fld f i = v.fld f i := fun v f i => rfl
  have hlost : u.fld .TIL_LNK_LOST_count l = s.fld .TIL_LNK_LOST_count l := hu _ _ (by simp [cutting, handling, counts])
  have hflows : (((((u.count .TIL_LNK_LOST_count l 1).raise .TIL_LNK_INT_frame_lost l).updLink l g).lsnDone l)).flows l = true := by
    rw [flows_iff] at hf ⊢
    unfold linkState staketu flag at *
    simpa [hfld, messages, counts, hu _ _ (show ¬ cutting .TIL_LNK_STATUS_state by simp [cutting, handling, counts]),
      hu _ _ (show ¬ cutting .TIL_LNK_STATUS_staketu by simp [cutting, handling, counts])] using hf
  rw [h]
  refine ⟨?_, ?_, ?_, linkState_enterResync hflows⟩
  · rw [fld_enterResync (by simp [grantCheck, messages]) (by simp [counts]) (by decide) (by decide) (by decide), hfld, fld_updLink,
      fld_raise_ne _ _ _ _ _ (by simp [messages]) (by decide), fld_count_self _ _ _ _ (by simp [counts]) rfl, hlost]
  · unfold flag
    rw [fld_enterResync (by simp [grantCheck, messages]) (by simp [counts]) (by decide) (by decide) (by decide), hfld, fld_updLink]
    exact flag_raise _ _ _ (by simp [messages])
  · rw [retryClock_enterResync, lsnDone_link, link_updLink_self]
    exact hg _

/-! ### Replay (R64) -/

/-- A frame as it goes on the medium again: its link word is made anew. -/
def resend (s : Blk) (l : Nat) (u : SentFrame) : Output := .frame l (some (s.linkWord l u.lsn false)) u.frame u.stomp

/-- It depends on what the link has received alone. -/
theorem resend_congr (hn : (t.link l).nextLsn = (s.link l).nextLsn) (hr : (t.link l).returned = (s.link l).returned)
    (u : SentFrame) : t.resend l u = s.resend l u := by
  unfold resend linkWord
  dsimp only
  rw [hn, hr]

/-- A frame after it has been sent again. -/
def sentAgain (x : SentFrame) : SentFrame := { x with due := false, paid := true }

/-- A frame whose credits are taken, sent again. -/
theorem sendOnce_paid {u : SentFrame} (hp : u.paid = true) : s.sendOnce l u = (s.onWire l (s.resend l u)).updLink l fun r =>
    { r with unacked := r.unacked.map fun x => if x.lsn = u.lsn then sentAgain x else x } := by
  unfold sendOnce resend sentAgain
  rw [if_pos hp]

/-- Frames that are due and whose credits are taken are all sent again, in order. -/
theorem sendDue_paid {us : List SentFrame} (h : ∀ u ∈ us, u.due = true ∧ u.paid = true) :
    s.sendDue l us = us.foldl (fun b u => b.sendOnce l u) s := by
  induction us generalizing s with
  | nil => rfl
  | cons u us ih =>
    obtain ⟨⟨hdue, hpaid⟩, hus⟩ := List.forall_mem_cons.mp h
    rw [sendDue, if_neg (by simp [hdue]), if_pos (by simp [hpaid]), ih hus, List.foldl_cons]

/-- What frames sent again leave of their link. -/
theorem sendAgain_link {us : List SentFrame} (h : ∀ u ∈ us, u.paid = true) :
    (us.foldl (fun b u => b.sendOnce l u) s).link l = { s.link l with
      unacked := (s.link l).unacked.map fun x => if x.lsn ∈ us.map SentFrame.lsn then sentAgain x else x } := by
  induction us generalizing s with
  | nil => simp
  | cons u us ih =>
    obtain ⟨hpaid, hus⟩ := List.forall_mem_cons.mp h
    rw [List.foldl_cons, ih hus, sendOnce_paid hpaid]
    simp only [link_updLink_self, link_onWire, List.map_map, List.map_cons, List.mem_cons]
    congr 1
    refine List.map_congr_left fun x _ => ?_
    by_cases hx : x.lsn = u.lsn
    · simp [hx, sentAgain]
    · simp [hx]

/-- Where what a link sends goes (R74). -/
theorem onWire_eq (s : Blk) (l : Nat) (o : Output) : s.onWire l o =
    if s.fld .TIL_PORT_MODE_loopback (portOf l) = 1 then (s.transmitted l (mediumBytes o)).emit (.nearEnd o)
    else if s.fld .TIL_PORT_MODE_loopback (portOf l) = 2 ∨ s.portDark l = true then s.transmitted l (mediumBytes o)
    else (s.transmitted l (mediumBytes o)).emit o := by
  by_cases h1 : s.fld .TIL_PORT_MODE_loopback (portOf l) = 1
  · rw [onWire_nearEnd h1, if_pos h1]
  rw [if_neg h1]
  unfold onWire
  dsimp only
  split
  next h => exact absurd h h1
  next h => rw [if_pos (.inl h)]
  next h2 =>
    have h2' : s.fld .TIL_PORT_MODE_loopback (portOf l) ≠ 2 := h2
    have hd : (s.transmitted l (mediumBytes o)).portDark l = s.portDark l := rfl
    simp only [hd, h2', false_or]

/-- What a link sends does not depend on what the links hold beside their registers. -/
theorem onWire_of_links (h : t = { s with links := t.links }) (o : Output) :
    t.onWire l o = { s.onWire l o with links := t.links } := by
  have hfld : t.fld .TIL_PORT_MODE_loopback (portOf l) = s.fld .TIL_PORT_MODE_loopback (portOf l) := by rw [h]; rfl
  have hdark : t.portDark l = s.portDark l := by rw [h]; rfl
  have hsent : t.transmitted l (mediumBytes o) = { s.transmitted l (mediumBytes o) with links := t.links } := by rw [h]; rfl
  rw [onWire_eq, onWire_eq, hfld, hdark, hsent]
  split_ifs <;> rfl

/-- What frames sent again leave besides: they go on the medium, one after the other. -/
theorem sendAgain_wire {us : List SentFrame} (hp : ∀ u ∈ us, u.paid = true) {f : SentFrame → Output}
    (hf : ∀ u, t.resend l u = f u) (h : t = { s with links := t.links }) :
    us.foldl (fun b u => b.sendOnce l u) t =
      { us.foldl (fun b u => b.onWire l (f u)) s with links := (us.foldl (fun b u => b.sendOnce l u) t).links } := by
  induction us generalizing s t with
  | nil => exact h
  | cons u us ih =>
    obtain ⟨hpaid, hus⟩ := List.forall_mem_cons.mp hp
    rw [List.foldl_cons, List.foldl_cons]
    refine ih hus (fun v => ?_) ?_
    · rw [← hf v, sendOnce_paid hpaid]
      exact resend_congr (by simp) (by simp) v
    · rw [sendOnce_paid hpaid, hf u, onWire_of_links h]
      rfl

theorem feldOf_sendAgain {us : List SentFrame} : (us.foldl (fun b u => b.sendOnce l u) s).feldOf l = s.feldOf l := by
  have h : Resent s (us.foldl (fun b u => b.sendOnce l u) s) l :=
    List.foldlRecOn us _ (motive := fun t => Resent s t l) (.refl s l) fun t ht u _ => ht.trans (resent_sendOnce u)
  unfold feldOf
  rw [h.1]

/-- Nothing is sent again while a frame is in progress, nor while the direction re-initialises (R60, R64). -/
theorem pump_waits (h : (s.link l).txReinit = true ∧ (s.link l).unacked.any SentFrame.due = true ∨ s.midFrame l = true) :
    s.pump l = s := by
  unfold pump
  by_cases hm : s.midFrame l = true
  · rw [if_pos hm]
  · obtain ⟨ht, hd⟩ := h.resolve_right hm
    rw [if_neg hm]
    simp only [ht, Bool.not_true, Bool.and_false, Bool.false_eq_true, if_false, hd, if_true]

/-- With no frame in progress and no re-initialisation, what is due and paid for is sent again, and the transmitter goes on. -/
theorem pump_replays (hf : s.flows l = true) (ht : (s.link l).txReinit = false) (hm : s.midFrame l = false)
    (hu : ∀ u ∈ (s.link l).unacked, u.due = true ∧ u.paid = true) :
    Resumed ((s.link l).unacked.foldl (fun b u => b.sendOnce l u) s) (s.pump l) l := by
  have hlink := sendAgain_link (s := s) (l := l) fun u h => (hu u h).2
  set s' := (s.link l).unacked.foldl (fun b u => b.sendOnce l u) s with hs'
  have hnone : ∀ u ∈ (s'.link l).unacked, u.due = false := by
    rw [hlink]
    intro u hmem
    obtain ⟨x, hx, rfl⟩ := List.mem_map.mp hmem
    rw [if_pos (List.mem_map_of_mem hx)]
    rfl
  have hmid : s'.midFrame l = false := by
    rw [midFrame, hs', feldOf_sendAgain]
    exact hm
  have hpump : s.pump l = s'.pump l := by
    unfold pump
    rw [hm, hmid, if_pos (c := (s.flows l && !(s.link l).txReinit) = true) (by rw [hf, ht]; rfl), sendDue_paid hu, ← hs',
      sendDue_of_none_due hnone, ite_self]
    rfl
  rw [hpump]
  exact resumed_pump hnone

end Blk
end Sys2Proof.Machine
end

section
/-!
PROOF. What a NAK acknowledges (R64), and the commands of credits and of errors: O14.
-/

namespace Sys2Proof.Machine

namespace Blk

variable {s : Blk} {l : Nat}

theorem updLink_congr {g g' : LinkRec → LinkRec} (h : g (s.link l) = g' (s.link l)) : s.updLink l g = s.updLink l g' := by
  unfold updLink
  rw [h]

/-- An acknowledgement of the first frame frees that frame alone. -/
theorem ackUpTo_first {x : SentFrame} {us : List SentFrame} (hu : (s.link l).unacked = x :: us) (hc : s.copy? x.copy = none) :
    s.ackUpTo l x.lsn = s.updLink l fun r => { r with unacked := us } := by
  have hdrop : ∀ g, (s.updLink l g).dropRef x.copy = s.updLink l g := fun g => by
    unfold dropRef
    rw [show (s.updLink l g).copy? x.copy = none from hc]
  unfold ackUpTo
  simp [hu, hdrop]

/-- A replay with one frame unacknowledged. -/
theorem replay_one {y : SentFrame} (hu : (s.link l).unacked = [y]) :
    s.replay l = (s.updLink l fun r => { r with unacked := [{ y with due := true }] }).pump l := by
  unfold replay
  rw [updLink_congr (g' := fun r => { r with unacked := [{ y with due := true }] }) (by rw [hu]; rfl)]

/-- A NAK of the first of two frames unacknowledged: the second is replayed. -/
theorem nakReceived_first {x y : SentFrame} {ack : Nat} (hf : s.flows l = true) (hr : s.flag .TIL_LNK_STATUS_retry_on l = true)
    (hu : (s.link l).unacked = [x, y]) (hx : x.lsn = ack) (hc : s.copy? x.copy = none) :
    s.nakReceived l ack = ((s.updLink l fun r => { r with unacked := [y] }).updLink l fun r =>
      { r with unacked := [{ y with due := true }] }).pump l := by
  subst hx
  unfold nakReceived
  rw [if_pos (by rw [hf, hr]; rfl), ackUpTo_first hu hc, replay_one (y := y) (by simp)]

/-- A replay of frames none of which is due, with no frame selected: they are sent again, and the link is as before. -/
theorem replay_all (hf : s.flows l = true) (ht : (s.link l).txReinit = false) (htx : (s.feldOf l).tx = [])
    (hu : ∀ u ∈ (s.link l).unacked, u.due = false ∧ u.paid = true) : (s.replay l).link l = s.link l ∧
      s.replay l = { (s.link l).unacked.foldl (fun b u => b.onWire l (s.resend l u)) s with links := (s.replay l).links } := by
  set s₁ := s.updLink l fun r => { r with unacked := r.unacked.map fun u => { u with due := true } } with hs₁
  have hun : (s₁.link l).unacked = (s.link l).unacked.map fun u => { u with due := true } := by simp [hs₁]
  have hpaid : ∀ u ∈ (s₁.link l).unacked, u.due = true ∧ u.paid = true := by
    rw [hun]
    intro u hmem
    obtain ⟨x, hx, rfl⟩ := List.mem_map.mp hmem
    exact ⟨rfl, (hu x hx).2⟩
  have hmid : s₁.midFrame l = false := by simp [hs₁, midFrame, htx]
  have hres := pump_replays (s := s₁) (l := l) hf (by simpa [hs₁] using ht) hmid hpaid
  have hidle : s.replay l = (s₁.link l).unacked.foldl (fun b u => b.sendOnce l u) s₁ := 
    hres.idle (by
      rw [feldOf_sendAgain]
      exact htx)
  have hwire := sendAgain_wire (s := s) (t := s₁) (l := l) (f := s.resend l) (fun u h => (hpaid u h).2)
    (resend_congr (by simp [hs₁]) (by simp [hs₁])) rfl
  rw [hidle]
  refine ⟨?_, ?_⟩
  · rw [sendAgain_link fun u h => (hpaid u h).2]
    have hback : (s₁.link l).unacked.map (fun x => if x.lsn ∈ (s₁.link l).unacked.map SentFrame.lsn then sentAgain x else x) =
        (s.link l).unacked := by
      rw [List.map_congr_left (g := sentAgain) fun x hx => if_pos (List.mem_map_of_mem hx), hun, List.map_map]
      refine (List.map_congr_left fun x hx => ?_).trans (List.map_id _)
      obtain ⟨hd, hp⟩ := hu x hx
      cases x
      simp_all [sentAgain]
    rw [hback]
    simp [hs₁]
  · refine hwire.trans ?_
    rw [hun, List.foldl_map]
    rfl

end Blk
/-! ### The commands of credits -/

open Blk

theorem runs_creditReportTimer {s : State} {l : LinkId} (hf : s.blk.flows l = true) :
    Runs (.creditReportTimer l) s fun t => t = { s with blk := { s.blk with out := t.blk.out, linkBusy := t.blk.linkBusy } } ∧
      LcfSent s t l .credit fun b => b.classVal = classVals (s.blk.link l).returned := by
  refine runs_of_eq (g := fun b => if b.flows l then b.lcf l .credit { lcfBlank with classVal := classVals (b.link l).returned } else b)
    rfl (if_pos hf) ⟨?_, lcfSent_lcf (.refl _ _) fun _ => rfl⟩
  obtain ⟨y, p, h⟩ := lcf_eq s.blk l .credit { lcfBlank with classVal := classVals (s.blk.link l).returned }
  dsimp only
  rw [h]

theorem runs_creditReceived {s : State} {l : LinkId} {c : ClassId} {total : BitVec 10} {d : Nat} (hf : s.blk.flows l = true)
    (hd : d = (total.toNat + 1024 - vget (s.blk.link l).returnsSeen c % 1024) % 1024)
    (hu : ∀ u ∈ (s.blk.link l).unacked, u.due = false) :
    Runs (.creditReceived l (.word c total)) s fun t => (t.blk.link l).held = vadd (s.blk.link l).held c d ∧
      (t.blk.link l).returnsSeen = vadd (s.blk.link l).returnsSeen c d ∧ ∀ f i, t.blk.fld f i = s.blk.fld f i := by
  have hres := (resumed_pump (s := s.blk.updLink l fun r => credited r c total.toNat) (l := l) (by simpa [credited] using hu)).link
  refine runs_of_eq (g := (·.creditReceived l (.word c total))) rfl (creditReceived_word hf c total) ⟨?_, ?_, fun f i => ?_⟩
  · dsimp only
    rw [hres, hd]
    simp [credited]
  · dsimp only
    rw [hres, hd]
    simp [credited]
  · simp

theorem runs_audit {s : State} {l : LinkId} (h : s.blk.linkState l = 3) (hm : s.blk.staketu l = true)
    (ha : (s.blk.link l).features.testBit 3 = true) :
    Runs (.auditTimer l) s (fun t => t = { s with blk := { s.blk with out := t.blk.out, linkBusy := t.blk.linkBusy } } ∧
      LcfSent s t l .audit fun b => b.classVal = classVals (s.blk.link l).cellsSent) := by
  refine runs_of_eq (g := fun b => if b.isIn l .up && b.staketu l && (b.link l).features.testBit 3 then
    b.lcf l .audit { lcfBlank with classVal := classVals (b.link l).cellsSent } else b) rfl
    (if_pos (by rw [isIn_eq (c := .up) h, hm, ha]; rfl)) ⟨?_, lcfSent_lcf (.refl _ _) fun _ => rfl⟩
  obtain ⟨y, p, h⟩ := lcf_eq s.blk l .audit { lcfBlank with classVal := classVals (s.blk.link l).cellsSent }
  dsimp only
  rw [h]

/-- An audit of a link in UP, where no retry and no re-initialisation is in progress, that fits (R59). -/
theorem runs_audit_fits {s : State} {l : LinkId} (h : s.blk.linkState l = 3) (hm : s.blk.staketu l = true)
    (ha : (s.blk.link l).features.testBit 3 = true) {sent : List (BitVec 16)} (hr : (s.blk.link l).retryClock = false)
    (hx : (s.blk.link l).rxReinit = false)
    (hall : ∀ c < 8, (sent.getD c 0).toNat = (vget (s.blk.link l).cellsRcvd c + vget (s.blk.link l).lostCells c) % 65536) :
    Runs (.auditReceived l sent) s fun t => t = s := by
  refine runs_of_eq (g := (·.auditReceived l sent)) rfl ((auditReceived_eq h hm ha hr hx sent).trans (if_pos ?_)) rfl
  simpa using hall

/-- One that does not is reported, and takes the link into RESYNC (R59, R60). -/
theorem runs_audit_differs {s : State} {l : LinkId} (h : s.blk.linkState l = 3) (hm : s.blk.staketu l = true)
    (ha : (s.blk.link l).features.testBit 3 = true) {sent : List (BitVec 16)} (hr : (s.blk.link l).retryClock = false)
    (hx : (s.blk.link l).rxReinit = false) {c : Nat} (hc : c < 8)
    (hne : (sent.getD c 0).toNat ≠ (vget (s.blk.link l).cellsRcvd c + vget (s.blk.link l).lostCells c) % 65536) :
    Runs (.auditReceived l sent) s fun t => t.blk.linkState l = 4 ∧ t.blk.flag .TIL_LNK_INT_credit_mismatch l = true ∧
      (t.blk.link l).txReinit = true ∧ (t.blk.link l).rxReinit = true := by
  have h' : (s.blk.raise .TIL_LNK_INT_credit_mismatch l).linkState l = 3 :=
    (fld_raise_ne _ _ _ _ _ (by simp [messages]) (by decide)).trans h
  have hm' : (s.blk.raise .TIL_LNK_INT_credit_mismatch l).staketu l = true := by
    rw [← hm]
    simp [staketu, flag, messages]
  refine runs_of_eq (g := (·.auditReceived l sent)) rfl ((auditReceived_eq h hm ha hr hx sent).trans (if_neg ?_))
    ⟨linkState_enterResync (flows_iff.mpr ⟨.inl h', hm'⟩), ?_, ?_⟩
  · simp only [List.all_eq_true, List.mem_range, decide_eq_true_eq]
    exact fun hall => hne (hall c hc)
  · unfold flag
    dsimp only
    rw [fld_enterResync (by simp [grantCheck, messages]) (by simp [counts]) (by decide) (by decide) (by decide)]
    exact flag_raise _ _ _ (by simp [messages])
  · dsimp only
    rw [enterResync_up h' hm', startReinit_link]
    exact ⟨rfl, rfl⟩

theorem runs_resyncReq {s : State} {l : LinkId} (hf : s.blk.flows l = true) (ht : (s.blk.link l).txReinit = false) :
    Runs (.resyncReq l) s fun t => (t.blk.link l).txReinit = true ∧ (t.blk.link l).rxReinit = true ∧
      (s.blk.midFrame l = false → LcfSent s t l .resyncMark fun b => b.classVal = classVals (s.blk.link l).cellsSent) ∧
      (s.blk.midFrame l = true → (t.blk.link l).markDue = true) := by
  have heq : s.blk.resyncReqReceived l = if s.blk.midFrame l then s.blk.reinitOpened l else (s.blk.reinitOpened l).sendMark l :=
    (if_pos hf).trans (reinit_begins ht)
  have hlink := reinitOpened_link ht
  cases hm : s.blk.midFrame l with
  | true =>
    refine runs_of_eq (g := (·.resyncReqReceived l)) rfl (heq.trans (if_pos hm)) ?_
    dsimp only
    rw [hlink]
    exact ⟨rfl, rfl, fun h => absurd h (by decide), fun _ => rfl⟩
  | false =>
    refine runs_of_eq (g := (·.resyncReqReceived l)) rfl (heq.trans (if_neg (by rw [hm]; decide))) ?_
    dsimp only
    rw [link_sendMark, hlink]
    refine ⟨rfl, rfl, fun _ => ?_, fun h => absurd h (by decide)⟩
    rw [sendMark_eq]
    refine lcfSent_updLink (u := (s.blk.reinitOpened l).lcf l .resyncMark
      { lcfBlank with classVal := classVals ((s.blk.reinitOpened l).link l).cellsSent }) ?_
    exact lcfSent_lcf sameVoice_reinitOpened fun _ => by rw [hlink]

theorem runs_resyncMark {s : State} {l : LinkId} (hf : s.blk.flows l = true) (hs : s.blk.linkState l = 3) :
    Runs (.resyncMark l) s fun t => LcfSent s t l .resyncAck (fun b => b.classVal = classVals (s.blk.link l).charged) ∧
      (t.blk.link l).lostCells = vzero ∧ (t.blk.link l).returned = vzero ∧ (t.blk.link l).rxReinit = false ∧
      (t.blk.link l).cellsRcvd = vzero := by
  refine runs_of_eq (g := (·.resyncMarkReceived l)) rfl (resyncMark_up hf hs) ⟨?_, by simp⟩
  refine lcfSent_updLink (u := s.blk.lcf l .resyncAck { lcfBlank with classVal := classVals (s.blk.link l).charged }) ?_
  exact lcfSent_lcf (.refl _ _) fun _ => rfl

theorem runs_resyncAck {s : State} {l : LinkId} {ch : List (BitVec 16)} (hf : s.blk.flows l = true)
    (ht : (s.blk.link l).txReinit = true) (hs : s.blk.linkState l = 3) (hn : (s.blk.link l).noGrant = false)
    (hm : (s.blk.link l).markDue = false) (hu : ∀ u ∈ (s.blk.link l).unacked, u.due = false) :
    Runs (.resyncAck l ch) s fun t => (t.blk.link l).txReinit = false ∧ (t.blk.link l).cellsSent = vzero ∧
      (t.blk.link l).held = (List.range 8).map fun c =>
        s.blk.fld .TIL_LNK_GRANT_TC_partner_grant (8 * l + c) - (ch.getD c 0).toNat := by
  have hres := (resumed_pump (s := s.blk.updLink l (s.blk.resumed l ch)) (l := l) (by simpa [resumed] using hu)).link
  refine runs_of_eq (g := (·.resyncAckReceived l ch)) rfl (resyncAck_up hf hs ht hm ch) ?_
  dsimp only
  rw [hres]
  simp [resumed, hn]

theorem runs_resyncTimeout {s : State} {l : LinkId} (hf : s.blk.flows l = true) (ht : (s.blk.link l).txReinit = true) :
    Runs (.resyncTimeout l) s fun t => t.blk.linkState l = 7 :=
  runs_of_eq (g := fun b => if b.flows l && ((b.link l).txReinit || (b.link l).rxReinit) then b.toRetrain l else b) rfl
    (if_pos (by rw [hf, ht]; rfl)) linkState_toRetrain

/-! ### The commands of errors and retry -/

theorem runs_uncorrectableCodeword {s : State} {l : LinkId} (hs : s.blk.linkState l ≠ 0) (hb : (s.blk.link l).burst = false)
    (hn : s.blk.fld .TIL_LNK_BURST_CFG_retrain_count l = 0) :
    Runs (.uncorrectableCodeword l) s fun t => (t.blk.link l).burst = true ∧ t.blk.flag .TIL_LNK_INT_burst l = true ∧
      t.blk.fld .TIL_LNK_FEC_UNCORR_count l = min (s.blk.fld .TIL_LNK_FEC_UNCORR_count l + 1) (2 ^ 64 - 1) ∧
      t.blk.fld .TIL_LNK_BURSTS_count l = min (s.blk.fld .TIL_LNK_BURSTS_count l + 1) (2 ^ 64 - 1) := by
  obtain ⟨recent, h⟩ := uncorrectable_opens hs hb hn
  refine runs_of_eq (g := (·.uncorrectable l)) rfl h ⟨?_, flag_raise _ _ _ (by simp [messages]), ?_, ?_⟩
  · simp
  · dsimp only
    rw [fld_raise_ne _ _ _ _ _ (by simp [messages]) (by decide), fld_count_ne _ _ _ _ _ _ (by simp [counts]) (by decide), fld_updLink,
      fld_count_self _ _ _ _ (by simp [counts]) rfl]
  · dsimp only
    rw [fld_raise_ne _ _ _ _ _ (by simp [messages]) (by decide), fld_count_self _ _ _ _ (by simp [counts]) rfl, fld_updLink,
      fld_count_ne _ _ _ _ _ _ (by simp [counts]) (by decide)]

theorem runs_burstGapExpiry (s : State) (l : LinkId) :
    Runs (.burstGapExpiry l) s fun t => (t.blk.link l).burst = false ∧ ∀ f i, t.blk.fld f i = s.blk.fld f i :=
  runs_of_eq (g := (·.updLink l fun r => { r with burst := false })) rfl rfl ⟨by simp, fun _ _ => by simp⟩

theorem runs_retryClockExpiry {s : State} {l : LinkId} (hf : s.blk.flows l = true) (hr : (s.blk.link l).retryClock = true) :
    Runs (.retryClockExpiry l) s fun t =>
      t.blk.fld .TIL_LNK_LOST_count l = min (s.blk.fld .TIL_LNK_LOST_count l + 1) (2 ^ 64 - 1) ∧
      t.blk.flag .TIL_LNK_INT_frame_lost l = true ∧ (t.blk.link l).retryClock = false ∧ t.blk.linkState l = 4 :=
  runs_of_eq (g := (·.retryExpired l)) rfl rfl (retryExpired_leaves hf hr)

theorem runs_nakReceived {s : State} {l : LinkId} {ack : BitVec 13} {x y : SentFrame} (hf : s.blk.flows l = true)
    (hr : s.blk.flag .TIL_LNK_STATUS_retry_on l = true) (hu : (s.blk.link l).unacked = [x, y]) (hx : x.lsn = ack.toNat)
    (hc : s.blk.copy? x.copy = none) (hp : y.paid = true) :
    Runs (.nakReceived l ack) s fun t =>
      ((s.blk.link l).txReinit = false → s.blk.midFrame l = false → (t.blk.link l).unacked = [{ y with due := false }] ∧
        Sent t l (.frame l (some (s.blk.linkWord l y.lsn false)) y.frame y.stomp)) ∧
      ((s.blk.link l).txReinit = true ∨ s.blk.midFrame l = true → (t.blk.link l).unacked = [{ y with due := true }] ∧
        t.blk.out = s.blk.out) := by
  set s₁ := (s.blk.updLink l fun r => { r with unacked := [y] }).updLink l fun r =>
    { r with unacked := [{ y with due := true }] } with hs₁
  have hun : (s₁.link l).unacked = [{ y with due := true }] := by simp [hs₁]
  refine runs_of_eq (g := (·.nakReceived l ack.toNat)) rfl (nakReceived_first hf hr hu hx hc) ⟨fun ht hm => ?_, fun hw => ?_⟩
  · have hres := pump_replays (s := s₁) (l := l) hf (by simpa [hs₁] using ht) (by simpa [hs₁, midFrame] using hm)
      (by rw [hun]; simpa using hp)
    have hsend : (s₁.link l).unacked.foldl (fun b u => b.sendOnce l u) s₁ =
        (s₁.onWire l (s₁.resend l y)).updLink l fun r => { r with unacked := [{ y with due := false }] } := by
      rw [hun]
      refine (sendOnce_paid hp).trans (updLink_congr ?_)
      simp [hun, sentAgain, hp]
    rw [hsend] at hres
    have hword : s.blk.resend l y = s₁.resend l y := (resend_congr (by simp [hs₁]) (by simp [hs₁]) y).symm
    refine ⟨by rw [hres.link]; simp, ?_⟩
    rw [hres.eq]
    change Sent _ l (s.blk.resend l y)
    rw [hword]
    exact sent_onWire (s := s₁) s _
  · dsimp only
    rw [pump_waits (s := s₁) (l := l) (by simpa [hs₁, midFrame] using hw)]
    exact ⟨hun, rfl⟩

theorem runs_replayTimeout {s : State} {l : LinkId} (hf : s.blk.flows l = true)
    (hr : s.blk.flag .TIL_LNK_STATUS_retry_on l = true) (ht : (s.blk.link l).txReinit = false) (htx : (s.blk.feldOf l).tx = [])
    (hu : ∀ u ∈ (s.blk.link l).unacked, u.due = false ∧ u.paid = true) :
    Runs (.replayTimeout l) s fun t => t.blk.link l = s.blk.link l ∧
      t = { s with blk := { (s.blk.link l).unacked.foldl (fun b f =>
        b.onWire l (.frame l (some (s.blk.linkWord l f.lsn false)) f.frame f.stomp)) s.blk with links := t.blk.links } } := by
  obtain ⟨hlink, heq⟩ := replay_all hf ht htx hu
  refine runs_of_eq (g := fun b => if b.flows l && b.flag .TIL_LNK_STATUS_retry_on l then b.replay l else b) rfl
    (if_pos (by rw [hf, hr]; rfl)) ⟨hlink, ?_⟩
  exact congrArg (fun b => { s with blk := b }) heq

theorem runs_senderAckTimeout {s : State} {l : LinkId} (hf : s.blk.flows l = true) (hu : (s.blk.link l).unacked ≠ []) :
    Runs (.senderAckTimeout l) s fun t => t.blk.linkState l = 7 :=
  runs_of_eq (g := fun b => if b.flows l && (b.link l).unacked ≠ [] then b.toRetrain l else b) rfl
    (if_pos (by simp [hf, hu])) linkState_toRetrain

/-- Settles O14: a lemma for each command of credits, of errors and of retry. -/
theorem creditsAndErrors : Obligations.CreditsAndErrors := by
  unfold Obligations.CreditsAndErrors
  refine ⟨⟨fun _ _ => runs_creditReportTimer, fun _ _ _ _ _ => runs_creditReceived, fun s l h hm ha => ⟨runs_audit h hm ha, fun sent hr hx =>
      ⟨runs_audit_fits h hm ha hr hx, fun c hc => runs_audit_differs h hm ha hr hx hc⟩⟩, fun _ _ => runs_resyncReq,
      fun _ _ => runs_resyncMark, fun _ _ _ => runs_resyncAck, fun _ _ => runs_resyncTimeout⟩,
    fun _ _ => runs_uncorrectableCodeword, runs_burstGapExpiry, fun _ _ => runs_retryClockExpiry,
    fun _ _ _ _ _ hf hr hu hx _ hc hp => runs_nakReceived hf hr hu hx hc hp, fun _ _ => runs_replayTimeout, fun _ _ => runs_senderAckTimeout⟩

end Sys2Proof.Machine
end

section
/-!
PROOF. The scheduling nodes of Feldspar (R164, R165): what judging and serving a node leave of its children, and which child has the
least finish tag.
-/

namespace Sys2Proof.Machine

/-! ### Tables in order -/

/-- A listed entry is the one found at its key. -/
theorem Tab.find_eq_some_iff {α : Type} {t : Tab α} (h : (t.map Prod.fst).Pairwise (· < ·)) {k : Nat} {v : α} :
    t.find k = some v ↔ (k, v) ∈ t := by
  induction t with
  | nil => simp [Tab.find]
  | cons a t ih =>
    obtain ⟨j, w⟩ := a
    obtain ⟨hlow, hrest⟩ := List.pairwise_cons.mp h
    rw [Tab.find, List.mem_cons, Prod.mk.injEq]
    split_ifs with hj
    · subst hj
      have hnot : (j, v) ∉ t := fun hm => lt_irrefl j (hlow j (List.mem_map.mpr ⟨_, hm, rfl⟩))
      simp [hnot, eq_comm]
    · simp [ih hrest, Ne.symm hj]

/-- Listing a value keeps the order. -/
theorem Tab.sorted_put {α : Type} {t : Tab α} (h : (t.map Prod.fst).Pairwise (· < ·)) (k : Nat) (v : α) :
    ((t.put k v).map Prod.fst).Pairwise (· < ·) := by
  induction t with
  | nil => simp [Tab.put]
  | cons a t ih =>
    obtain ⟨j, w⟩ := a
    obtain ⟨hlow, hrest⟩ := List.pairwise_cons.mp h
    rw [Tab.put]
    split_ifs with hj hk
    · subst hj
      exact h
    · refine List.pairwise_cons.mpr ⟨fun x hx => ?_, h⟩
      rcases List.mem_cons.mp hx with rfl | hx
      · exact hk
      · exact hk.trans (hlow x hx)
    · refine List.pairwise_cons.mpr ⟨fun x hx => ?_, ih hrest⟩
      obtain ⟨⟨i, u⟩, hm, rfl⟩ := List.mem_map.mp hx
      have hfound := (Tab.find_eq_some_iff (ih hrest)).mpr hm
      rw [Tab.find_put] at hfound
      split_ifs at hfound with hi
      · change j < i
        omega
      · exact hlow i (List.mem_map_of_mem (f := Prod.fst) ((Tab.find_eq_some_iff hrest).mp hfound))

theorem Tab.find_map {α : Type} (t : Tab α) (g : Nat × α → α) (k : Nat) :
    Tab.find (t.map fun kv => (kv.1, g kv)) k = (t.find k).map fun v => g (k, v) := by
  induction t with
  | nil => rfl
  | cons a t ih =>
    obtain ⟨j, w⟩ := a
    rw [List.map_cons, Tab.find, Tab.find]
    split_ifs with hj
    · subst hj
      rfl
    · exact ih

/-! ### Judging a node -/

/-- What a child that no longer is eligible becomes: it keeps its lag (R165). -/
def departed (n : SchedNode) (now : List Contender) (kv : Nat × SchedChild) : SchedChild :=
  if kv.2.on && !(now.any (·.kid = kv.1)) then { kv.2 with on := false, lag := min (kv.2.finish - n.vtime) costMax } else kv.2

/-- What an eligible child becomes: one that comes back starts at V + lag, and its finish tag is that of its head frame (R164, R165). -/
def arrived (n : SchedNode) (afresh : Bool) (k : SchedChild) (c : Contender) : SchedChild :=
  let start := if k.on then k.start else n.vtime + k.lag
  if k.on && k.head = c.head && !afresh then k else ⟨start, start + c.cost, k.lag, true, c.head⟩

/-- A child that is not listed. -/
def noChild : SchedChild := ⟨0, 0, 0, false, 0⟩

/-- An eligible child joins its node's children. -/
def joins (n : SchedNode) (afresh : Bool) (t : Tab SchedChild) (c : Contender) : Tab SchedChild :=
  let k := t.get noChild c.kid
  if k.on && k.head = c.head && !afresh then t else t.put c.kid (arrived n afresh k c)

theorem arrived_on (n : SchedNode) (afresh : Bool) (k : SchedChild) (c : Contender) : (arrived n afresh k c).on = true := by
  unfold arrived
  dsimp only
  by_cases h : (k.on && k.head = c.head && !afresh) = true
  · rw [if_pos h]
    simp_all
  · rw [if_neg h]

theorem find_joins (n : SchedNode) (afresh : Bool) (t : Tab SchedChild) (c : Contender) (i : Nat) : (joins n afresh t c).find i =
    if i = c.kid then some (arrived n afresh (t.get noChild c.kid) c) else t.find i := by
  unfold joins
  dsimp only
  split_ifs with h hi hi
  · have hon : (t.get noChild c.kid).on = true := by simp_all
    rw [arrived, if_pos h, hi]
    cases hf : t.find c.kid with
    | none => simp [Tab.get, hf, noChild] at hon
    | some k => simp [Tab.get, hf]
  · rfl
  · rw [Tab.find_put, if_pos hi]
  · rw [Tab.find_put, if_neg hi]

theorem sorted_joins {t : Tab SchedChild} (h : (t.map Prod.fst).Pairwise (· < ·)) (n : SchedNode) (afresh : Bool) (c : Contender) :
    ((joins n afresh t c).map Prod.fst).Pairwise (· < ·) := by
  unfold joins
  dsimp only
  split_ifs
  · exact h
  · exact Tab.sorted_put h _ _

theorem judge_kids (n : SchedNode) (afresh : Bool) (now : List Contender) : (judge n afresh now).kids =
    now.foldl (joins n afresh) (n.kids.map fun kv => (kv.1, departed n now kv)) := by
  unfold judge joins arrived departed noChild
  dsimp only
  congr 1
  · funext t c
    split_ifs <;> rfl
  · refine List.map_congr_left fun kv _ => ?_
    split_ifs <;> rfl

theorem sorted_judge {n : SchedNode} (h : n.Sorted) (afresh : Bool) (now : List Contender) : (judge n afresh now).Sorted := by
  unfold SchedNode.Sorted
  rw [judge_kids]
  refine List.foldlRecOn now _ (motive := fun t : Tab SchedChild => (t.map Prod.fst).Pairwise (· < ·)) ?_ fun t ht c _ =>
    sorted_joins ht n afresh c
  rw [List.map_map]
  exact h

theorem find_joins_of_notMem {n : SchedNode} {afresh : Bool} {now : List Contender} {t : Tab SchedChild} {i : Nat}
    (h : i ∉ now.map Contender.kid) : (now.foldl (joins n afresh) t).find i = t.find i := by
  induction now generalizing t with
  | nil => rfl
  | cons c now ih =>
    rw [List.map_cons, List.mem_cons, not_or] at h
    rw [List.foldl_cons, ih h.2, find_joins, if_neg h.1]

theorem find_joins_of_mem {n : SchedNode} {afresh : Bool} {now : List Contender} {t : Tab SchedChild} {c : Contender}
    (hd : (now.map Contender.kid).Nodup) (hc : c ∈ now) :
    (now.foldl (joins n afresh) t).find c.kid = some (arrived n afresh (t.get noChild c.kid) c) := by
  induction now generalizing t with
  | nil => exact absurd hc List.not_mem_nil
  | cons x now ih =>
    obtain ⟨hx, hd⟩ := List.nodup_cons.mp hd
    rw [List.foldl_cons]
    rcases List.mem_cons.mp hc with rfl | hc
    · rw [find_joins_of_notMem hx, find_joins, if_pos rfl]
    · have hne : c.kid ≠ x.kid := fun h => hx (h ▸ List.mem_map_of_mem hc)
      rw [ih hd hc, Tab.get, Tab.get, find_joins, if_neg hne]

/-- A child that is not eligible is off its node. -/
theorem judge_off {n : SchedNode} {afresh : Bool} {now : List Contender} {i : Nat} {k : SchedChild}
    (h : i ∉ now.map Contender.kid) (hk : (judge n afresh now).kids.find i = some k) : k.on = false := by
  rw [judge_kids, find_joins_of_notMem h, Tab.find_map] at hk
  obtain ⟨k', -, rfl⟩ := Option.map_eq_some_iff.mp hk
  have hnone : now.any (·.kid = i) = false := by
    rw [List.any_eq_false]
    intro c hc
    simpa using fun hi : c.kid = i => h (hi ▸ List.mem_map_of_mem hc)
  unfold departed
  split_ifs with hif
  · rfl
  · simpa [hnone] using hif

/-- An eligible child has its tags from what it was before. -/
theorem judge_find {n : SchedNode} {afresh : Bool} {now : List Contender} {c : Contender} (hd : (now.map Contender.kid).Nodup)
    (hc : c ∈ now) : (judge n afresh now).kids.find c.kid = some (arrived n afresh (n.kids.get noChild c.kid) c) := by
  have hstays : ∀ k, departed n now (c.kid, k) = k := fun k => by
    have hany : now.any (·.kid = c.kid) = true := List.any_eq_true.mpr ⟨c, hc, by simp⟩
    simp [departed, hany]
  rw [judge_kids, find_joins_of_mem hd hc, Tab.get, Tab.find_map]
  simp only [hstays, Option.map_id', Tab.get]

/-! ### The least finish tag -/

/-- One of two children of a node is served before the other: by its finish tag, and by its number where they are equal (R164). -/
def Precedes (a b : Nat × SchedChild) : Prop := a.2.finish < b.2.finish ∨ a.2.finish = b.2.finish ∧ a.1 ≤ b.1

theorem Precedes.trans {a b c : Nat × SchedChild} (h : Precedes a b) (k : Precedes b c) : Precedes a c := by
  unfold Precedes at *
  omega

/-- Of the child chosen so far and another, the one to choose. -/
def better (best : Option (Nat × SchedChild)) (kv : Nat × SchedChild) : Option (Nat × SchedChild) :=
  if kv.2.on then
    match best with
    | none => some kv
    | some b => if kv.2.finish < b.2.finish then some kv else some b
  else best

theorem leastFinish_append (v : Nat) (kids : Tab SchedChild) (kv : Nat × SchedChild) :
    leastFinish ⟨v, kids ++ [kv]⟩ = better (leastFinish ⟨v, kids⟩) kv :=
  List.foldl_append

theorem leastFinish_none {n : SchedNode} (h : leastFinish n = none) : ∀ kv ∈ n.kids, kv.2.on = false := by
  obtain ⟨v, kids⟩ := n
  induction kids using List.reverseRecOn with
  | nil => simp
  | append_singleton kids kv ih =>
    rw [leastFinish_append] at h
    unfold better at h
    cases hon : kv.2.on with
    | true =>
      rw [if_pos hon] at h
      split at h
      · exact absurd h (by simp)
      · split_ifs at h
    | false =>
      rw [if_neg (by simp [hon])] at h
      intro x hx
      rcases List.mem_append.mp hx with hx | hx
      · exact ih h x hx
      · rw [List.mem_singleton.mp hx, hon]

theorem leastFinish_some {n : SchedNode} (hs : n.Sorted) {a : Nat × SchedChild} (h : leastFinish n = some a) :
    a ∈ n.kids ∧ a.2.on = true ∧ ∀ kv ∈ n.kids, kv.2.on = true → Precedes a kv := by
  obtain ⟨v, kids⟩ := n
  induction kids using List.reverseRecOn generalizing a with
  | nil => exact absurd h (by simp [leastFinish])
  | append_singleton kids kv ih =>
    unfold SchedNode.Sorted at hs
    rw [List.map_append, List.pairwise_append] at hs
    obtain ⟨hs, -, hlow⟩ := hs
    have hlast : ∀ b ∈ kids, b.1 ≤ kv.1 := fun b hb => (hlow _ (List.mem_map_of_mem hb) _ (by simp)).le
    simp only [List.mem_append, List.mem_singleton]
    rw [leastFinish_append] at h
    unfold better at h
    cases hon : kv.2.on with
    | false =>
      rw [if_neg (by simp [hon])] at h
      obtain ⟨hmem, haon, hmin⟩ := ih hs h
      refine ⟨.inl hmem, haon, ?_⟩
      rintro x (hx | rfl) hxon
      · exact hmin x hx hxon
      · exact absurd hxon (by simp [hon])
    | true =>
      rw [if_pos hon] at h
      cases hbest : leastFinish ⟨v, kids⟩ with
      | none =>
        rw [hbest] at h
        obtain rfl : kv = a := Option.some.inj h
        refine ⟨.inr rfl, hon, ?_⟩
        rintro x (hx | rfl) hxon
        · exact absurd hxon (by simp [leastFinish_none hbest x hx])
        · exact .inr ⟨rfl, le_refl _⟩
      | some b =>
        rw [hbest] at h
        obtain ⟨hmem, hbon, hmin⟩ := ih hs hbest
        dsimp only at h
        split_ifs at h with hlt
        · obtain rfl : kv = a := Option.some.inj h
          refine ⟨.inr rfl, hon, ?_⟩
          rintro x (hx | rfl) hxon
          · exact Precedes.trans (.inl hlt) (hmin x hx hxon)
          · exact .inr ⟨rfl, le_refl _⟩
        · obtain rfl : b = a := Option.some.inj h
          refine ⟨.inl hmem, hbon, ?_⟩
          rintro x (hx | rfl) hxon
          · exact hmin x hx hxon
          · have := hlast b hmem
            unfold Precedes
            omega

/-- The least finish tag of a node that has been judged is that of an eligible child. -/
theorem leastFinish_judge {n : SchedNode} (hs : n.Sorted) {afresh : Bool} {now : List Contender}
    (hd : (now.map Contender.kid).Nodup) {i : Nat} {k : SchedChild} (h : leastFinish (judge n afresh now) = some (i, k)) :
    (∃ c ∈ now, c.kid = i) ∧ (judge n afresh now).kids.find i = some k ∧ k.on = true ∧
      ∀ c ∈ now, Precedes (i, k) (c.kid, arrived n afresh (n.kids.get noChild c.kid) c) := by
  have hsj := sorted_judge hs afresh now
  obtain ⟨hmem, hon, hmin⟩ := leastFinish_some hsj h
  have hfind := (Tab.find_eq_some_iff hsj).mpr hmem
  refine ⟨?_, hfind, hon, fun c hc => ?_⟩
  · by_contra hno
    have hoff := judge_off (i := i) (fun hi => hno (by simpa using hi)) hfind
    exact absurd hon (by simp [hoff])
  · exact hmin _ ((Tab.find_eq_some_iff hsj).mp (judge_find hd hc)) (arrived_on _ _ _ _)

/-- A node that has been judged has a least finish tag where a child is eligible. -/
theorem leastFinish_judge_isSome {n : SchedNode} (hs : n.Sorted) {afresh : Bool} {now : List Contender}
    (hd : (now.map Contender.kid).Nodup) {c : Contender} (hc : c ∈ now) : (leastFinish (judge n afresh now)).isSome = true := by
  cases h : leastFinish (judge n afresh now) with
  | some a => rfl
  | none =>
    have hoff := leastFinish_none h _ ((Tab.find_eq_some_iff (sorted_judge hs afresh now)).mp (judge_find hd hc))
    exact absurd (arrived_on n afresh (n.kids.get noChild c.kid) c) (Bool.eq_false_iff.mp hoff)

/-! ### Serving a child -/

theorem find_served (n : SchedNode) (i j : Nat) : (served n i).kids.find j =
    if j = i then some { n.kids.get noChild i with start := (n.kids.get noChild i).finish } else n.kids.find j :=
  Tab.find_put _ _ _ _

/-- What serving a child of a class node leaves of it: its start tag is V; it has the finish tag of its next head frame, or leaves with
a lag of 0 (R164, R165). -/
theorem serve_leaves (n : SchedNode) (i : Nat) (next : Option Contender) :
    (serve n i next).vtime = (n.kids.get noChild i).finish ∧
      (serve n i next).kids.get noChild i = match next with
        | none => { n.kids.get noChild i with start := (n.kids.get noChild i).finish, on := false, lag := 0 }
        | some c => { n.kids.get noChild i with
            start := (n.kids.get noChild i).finish, finish := (n.kids.get noChild i).finish + c.cost, head := c.head } := by
  have hget : (served n i).kids.get noChild i = { n.kids.get noChild i with start := (n.kids.get noChild i).finish } := by
    rw [Tab.get, find_served, if_pos rfl]
    rfl
  refine ⟨rfl, ?_⟩
  unfold serve
  dsimp only
  rw [Tab.get, Tab.find_put_self, Option.getD_some, ← noChild, hget] <;> cases next <;> rfl

end Sys2Proof.Machine
end

section
/-!
PROOF. A selection on a link (R57, R162 to R165): what it takes, and O10.
-/

namespace Sys2Proof.Machine

namespace Blk

variable {s t u : Blk} {l c n lead : Nat} {e : QEntry}

/-! ### The transmitter goes on -/

/-- From `s` to `t` the transmitter of a link has gone on: no register field, no queue and no tag has changed, and every frame selected
is on its way still. -/
structure GoesOn (s t : Blk) (l : Nat) : Prop where
  fields : t.fields = s.fields
  queues : t.queues = s.queues
  linkNode : (t.feldOf l).linkNode = (s.feldOf l).linkNode
  classNodes : (t.feldOf l).classNodes = (s.feldOf l).classNodes
  tx : ∀ x ∈ (s.feldOf l).tx, ∃ y ∈ (t.feldOf l).tx, y.copy = x.copy ∧ y.cls = x.cls

theorem GoesOn.trans (h : GoesOn s t l) (k : GoesOn t u l) : GoesOn s u l where
  fields := k.fields.trans h.fields
  queues := k.queues.trans h.queues
  linkNode := k.linkNode.trans h.linkNode
  classNodes := k.classNodes.trans h.classNodes
  tx x hx := by
    obtain ⟨y, hy, hcopy, hcls⟩ := h.tx x hx
    obtain ⟨z, hz, hcopy', hcls'⟩ := k.tx y hy
    exact ⟨z, hz, hcopy'.trans hcopy, hcls'.trans hcls⟩

theorem GoesOn.of_same (hf : t.fields = s.fields) (hq : t.queues = s.queues) (hl : t.feld = s.feld) : GoesOn s t l := by
  have hfeld : t.feldOf l = s.feldOf l := by unfold feldOf; rw [hl]
  exact ⟨hf, hq, by rw [hfeld], by rw [hfeld], fun x hx => ⟨x, by rwa [hfeld], rfl, rfl⟩⟩

theorem onWire_same (s : Blk) (l : Nat) (o : Output) : (s.onWire l o).fields = s.fields ∧ (s.onWire l o).queues = s.queues := by
  obtain ⟨b, p, h⟩ := onWire_leaves s l o
  rw [h]
  exact ⟨rfl, rfl⟩

/-- The frame that begins stays at the head of those selected. -/
theorem beginHead_feldOf (s : Blk) (l : Nat) (x : TxRec) (xs : List TxRec) :
    ∃ y, (s.beginHead l x xs).feldOf l = { s.feldOf l with tx := y :: xs } ∧ y.copy = x.copy ∧ y.cls = x.cls := by
  cases hs : s.staketu l with
  | true =>
    rw [beginHead_staketu hs]
    exact ⟨s.numbered l x, by simp, by simp, by simp⟩
  | false =>
    rw [beginHead_ethernet hs]
    exact ⟨{ s.stamped l x with begun := true }, by simp, by simp, by simp⟩

theorem beginHead_same (s : Blk) (l : Nat) (x : TxRec) (xs : List TxRec) :
    (s.beginHead l x xs).fields = s.fields ∧ (s.beginHead l x xs).queues = s.queues := by
  cases hs : s.staketu l with
  | true =>
    rw [beginHead_staketu hs]
    exact ⟨rfl, rfl⟩
  | false =>
    rw [beginHead_ethernet hs]
    exact ⟨rfl, rfl⟩

theorem goesOn_beginHead {x : TxRec} {xs : List TxRec} (h : (s.feldOf l).tx = x :: xs) : GoesOn s (s.beginHead l x xs) l := by
  obtain ⟨y, hfeld, hcopy, hcls⟩ := beginHead_feldOf s l x xs
  obtain ⟨hfields, hqueues⟩ := beginHead_same s l x xs
  refine ⟨hfields, hqueues, by rw [hfeld], by rw [hfeld], fun z hz => ?_⟩
  rw [h] at hz
  rw [hfeld]
  rcases List.mem_cons.mp hz with rfl | hz
  · exact ⟨y, List.mem_cons_self, hcopy, hcls⟩
  · exact ⟨z, List.mem_cons_of_mem _ hz, rfl, rfl⟩

theorem goesOn_pump (s : Blk) (l : Nat) : GoesOn s (s.pump l) l := by
  obtain ⟨s', hr, h⟩ := pump_cases s l
  have hres : GoesOn s s' l := by
    rw [hr.1]
    exact .of_same rfl rfl rfl
  rcases h with h | ⟨x, xs, htx, -, h⟩
  · rwa [h]
  · rw [h]
    refine hres.trans (goesOn_beginHead ?_)
    rw [hr.1]
    exact htx

/-- From `s` to `t` a frame has been put on its way: no register field, no queue and no tag has changed. -/
structure PutOnItsWay (s t : Blk) (l : Nat) (r : TxRec) : Prop where
  fields : t.fields = s.fields
  queues : t.queues = s.queues
  linkNode : (t.feldOf l).linkNode = (s.feldOf l).linkNode
  classNodes : (t.feldOf l).classNodes = (s.feldOf l).classNodes
  tx : ∃ x ∈ (t.feldOf l).tx, x.copy = r.copy ∧ x.cls = r.cls

theorem PutOnItsWay.trans {r : TxRec} (h : PutOnItsWay s t l r) (k : GoesOn t u l) : PutOnItsWay s u l r where
  fields := k.fields.trans h.fields
  queues := k.queues.trans h.queues
  linkNode := k.linkNode.trans h.linkNode
  classNodes := k.classNodes.trans h.classNodes
  tx := by
    obtain ⟨y, hy, hcopy, hcls⟩ := h.tx
    obtain ⟨z, hz, hcopy', hcls'⟩ := k.tx y hy
    exact ⟨z, hz, hcopy'.trans hcopy, hcls'.trans hcls⟩

theorem putOnItsWay_put {r : TxRec} {xs : List TxRec} (h : r ∈ xs) : PutOnItsWay s (s.updFeld l fun f => { f with tx := xs }) l r :=
  ⟨rfl, rfl, by simp, by simp, ⟨r, by simpa using h, rfl, rfl⟩⟩

theorem putOnItsWay_beginHead {r : TxRec} {xs : List TxRec} (hf : t.fields = s.fields) (hq : t.queues = s.queues)
    (hl : (t.feldOf l).linkNode = (s.feldOf l).linkNode) (hc : (t.feldOf l).classNodes = (s.feldOf l).classNodes) :
    PutOnItsWay s (t.beginHead l r xs) l r := by
  obtain ⟨y, hfeld, hcopy, hcls⟩ := beginHead_feldOf t l r xs
  obtain ⟨hfields, hqueues⟩ := beginHead_same t l r xs
  refine ⟨hfields.trans hf, hqueues.trans hq, ?_, ?_, ?_⟩
  · rw [hfeld, ← hl]
  · rw [hfeld, ← hc]
  · rw [hfeld]
    exact ⟨y, List.mem_cons_self, hcopy, hcls⟩

/-- A frame selected is put on its way: behind the others, ahead of those that it passes, or, interrupting one, at once (R177, R178). -/
theorem startTx_leaves (s : Blk) (l : Nat) (r : TxRec) (cut : Option Nat) : PutOnItsWay s (s.startTx l r cut) l r := by
  have hpump : ∀ xs : List TxRec, r ∈ xs → PutOnItsWay s ((s.updFeld l fun f => { f with tx := xs }).pump l) l r :=
    fun xs h => (putOnItsWay_put h).trans (goesOn_pump _ l)
  unfold startTx
  dsimp only
  split_ifs with hcls
  · exact hpump _ (by simp)
  · split
    · exact hpump _ (by simp)
    · split_ifs
      · obtain ⟨hfields, hqueues⟩ := onWire_same (s.updFeld l fun f => { f with tx := ‹List TxRec› }) l (.preempt l)
        exact putOnItsWay_beginHead hfields hqueues (by simp) (by simp)
      · exact putOnItsWay_put (by simp)
      · exact hpump _ (by simp)

/-! ### What a selection takes -/

/-- From `s` to `t` the head frame `e` of queue `q` has been taken, and put on its way in class `c`. -/
structure Took (s t : Blk) (l c q : Nat) (e : QEntry) : Prop where
  queue : t.queue q = (s.queue q).drop 1
  fld : ∀ f i, f ≠ .FLD_SUB_DEPTH_cells → t.fld f i = s.fld f i
  linkNode : (t.feldOf l).linkNode = (s.feldOf l).linkNode
  classNodes : (t.feldOf l).classNodes = (s.feldOf l).classNodes
  tx : ∃ x ∈ (t.feldOf l).tx, x.copy = e.copy ∧ x.cls = c

/-- The bucket of the queue and the shaper of the class that give a frame, charged for it (R167, R168). -/
def charged (s : Blk) (l c q : Nat) (e : QEntry) : Blk :=
  let charge : Int := (e.bytes + 20) * 8 * 65536
  let s := if s.fld .FLD_SUB_CFG_rate q = 0 then s else s.putTokens q (s.tokens q - charge)
  if s.flag .FLD_CLS_CFG_cbs_en (8 * l + c) then s.putCbs l c (s.cbsCredit l c - charge) else s

theorem charged_leaves (s : Blk) (l c q : Nat) (e : QEntry) : (s.charged l c q e).fields = s.fields ∧
    (s.charged l c q e).queues = s.queues ∧ (s.charged l c q e).copies = s.copies ∧
    ((s.charged l c q e).feldOf l).linkNode = (s.feldOf l).linkNode ∧
    ((s.charged l c q e).feldOf l).classNodes = (s.feldOf l).classNodes := by
  have hcbs : ∀ (u : Blk) (v : Int), ((u.putCbs l c v).feldOf l).linkNode = (u.feldOf l).linkNode ∧
      ((u.putCbs l c v).feldOf l).classNodes = (u.feldOf l).classNodes := fun u v => by simp [putCbs]
  unfold charged
  dsimp only
  split_ifs
  · exact ⟨rfl, rfl, rfl, hcbs _ _⟩
  · exact ⟨rfl, rfl, rfl, rfl, rfl⟩
  · exact ⟨rfl, rfl, rfl, hcbs _ _⟩
  · exact ⟨rfl, rfl, rfl, rfl, rfl⟩

theorem takeFrame_leaves {q : Nat} (hq : q = 256 * portOf l + 32 * c + n) {cp : CopyRec} (hc : s.copy? e.copy = some cp)
    (cut : Option Nat) : Took s (s.takeFrame l c n e lead cut) l c q e := by
  subst hq
  set q := 256 * portOf l + 32 * c + n with hq
  obtain ⟨hfields, hqueues, hcopies, hlink, hclass⟩ := charged_leaves s l c q e
  have hqueue : (s.charged l c q e).queue q = s.queue q := by unfold queue; rw [hqueues]
  have hcopy : ((s.charged l c q e).setQueue q (((s.charged l c q e).queue q).drop 1)).copy? e.copy = some cp := by
    rw [← hc]
    exact congrArg (·.find e.copy) hcopies
  have heq : ∃ r : TxRec, r.copy = e.copy ∧ r.cls = c ∧ s.takeFrame l c n e lead cut =
      ((s.charged l c q e).setQueue q ((s.queue q).drop 1)).startTx l r cut := by
    rw [hqueue] at hcopy
    have h : s.takeFrame l c n e lead cut = match ((s.charged l c q e).setQueue q (((s.charged l c q e).queue q).drop 1)).copy? e.copy with
      | none => (s.charged l c q e).setQueue q (((s.charged l c q e).queue q).drop 1)
      | some cp => ((s.charged l c q e).setQueue q (((s.charged l c q e).queue q).drop 1)).startTx l _ cut := rfl
    rw [hqueue, hcopy] at h
    exact ⟨_, rfl, rfl, h⟩
  obtain ⟨r, hr, hcls, heq⟩ := heq
  obtain ⟨tfields, tqueues, tlink, tclass, x, hx, hxc, hxcls⟩ := startTx_leaves ((s.charged l c q e).setQueue q ((s.queue q).drop 1)) l r cut
  rw [heq]
  refine ⟨?_, fun f i hf => ?_, tlink.trans hlink, tclass.trans hclass, x, hx, hxc.trans hr, hxcls.trans hcls⟩
  · refine (congrArg (·.get [] q) tqueues).trans ?_
    exact (Tab.get_set _ _ _ _ _ _ fun _ => rfl).trans (if_pos rfl)
  · refine (fld_congr tfields f i).trans ?_
    refine (fld_setFld_ne _ _ _ _ _ _ hf).trans ?_
    exact fld_congr hfields f i

/-! ### What waits, and what is eligible -/

/-- What a list of numbers makes of entries that bear their numbers stands in their order. -/
theorem pairwise_filterMap_range {β : Type} {f : Nat → Option β} {g : β → Nat} (h : ∀ i b, f i = some b → g b = i) (k : Nat) :
    (((List.range k).filterMap f).map g).Pairwise (· < ·) := by
  rw [List.pairwise_map, List.pairwise_filterMap]
  exact List.pairwise_lt_range.imp fun hij b hb b' hb' => by
    rw [h _ _ hb, h _ _ hb']
    exact hij

/-- What a node's queue gives at a selection, where it is eligible. -/
def eligibleAt (s : Blk) (l c lead i : Nat) : Option (Nat × QEntry) :=
  let q := 256 * portOf l + 32 * c + i
  if s.nodeOwner (portOf l) i = subOf l then
    match s.queue q with
    | [] => none
    | e :: _ => if s.bucketAllows q lead then some (i, e) else none
  else none

theorem eligibleQueues_eq : s.eligibleQueues l c lead = (List.range 32).filterMap (s.eligibleAt l c lead) := rfl

theorem eligibleAt_eq_some {i : Nat} {ne : Nat × QEntry} : s.eligibleAt l c lead i = some ne ↔ ne.1 = i ∧
    s.nodeOwner (portOf l) i = subOf l ∧ (s.queue (256 * portOf l + 32 * c + i)).head? = some ne.2 ∧
      s.bucketAllows (256 * portOf l + 32 * c + i) lead = true := by
  obtain ⟨n, e⟩ := ne
  unfold eligibleAt
  dsimp only
  cases s.queue (256 * portOf l + 32 * c + i) with
  | nil => simp
  | cons x xs =>
    by_cases hown : s.nodeOwner (portOf l) i = subOf l <;>
      cases hb : s.bucketAllows (256 * portOf l + 32 * c + i) lead <;> simp [hown, eq_comm]

theorem mem_eligibleQueues {ne : Nat × QEntry} : ne ∈ s.eligibleQueues l c lead ↔
    ne.1 < 32 ∧ s.nodeOwner (portOf l) ne.1 = subOf l ∧ (s.queue (256 * portOf l + 32 * c + ne.1)).head? = some ne.2 ∧
      s.bucketAllows (256 * portOf l + 32 * c + ne.1) lead = true := by
  rw [eligibleQueues_eq, List.mem_filterMap]
  constructor
  · rintro ⟨i, hi, h⟩
    obtain ⟨rfl, h⟩ := eligibleAt_eq_some.mp h
    exact ⟨List.mem_range.mp hi, h⟩
  · rintro ⟨hi, h⟩
    exact ⟨ne.1, List.mem_range.mpr hi, eligibleAt_eq_some.mpr ⟨rfl, h⟩⟩

/-- A queue gives one frame, its first. -/
theorem eligibleQueues_inj {i : Nat} {a b : QEntry} (ha : (i, a) ∈ s.eligibleQueues l c lead) (hb : (i, b) ∈ s.eligibleQueues l c lead) :
    a = b := by
  obtain ⟨-, -, ha, -⟩ := mem_eligibleQueues.mp ha
  obtain ⟨-, -, hb, -⟩ := mem_eligibleQueues.mp hb
  exact Option.some.inj (ha.symm.trans hb)

/-- The eligible queues of a class as contenders at its class node. -/
def contenders (s : Blk) (l c lead : Nat) : List Contender := (s.eligibleQueues l c lead).map (s.contender l c)

theorem nodup_contenders : ((s.contenders l c lead).map Contender.kid).Nodup := by
  have h : (s.contenders l c lead).map Contender.kid = (s.eligibleQueues l c lead).map Prod.fst := by
    simp [contenders, contender, Function.comp_def]
  rw [h]
  exact List.Pairwise.imp (fun hlt => hlt.ne) (pairwise_filterMap_range (fun i ne hi => (eligibleAt_eq_some.mp hi).1) 32)

/-- The frame that an eligible class gives is the head of the queue of least finish tag (R163, R164). -/
theorem eligibleClass_some (h : s.eligibleClass l c lead = some (n, e)) :
    (∃ k, leastFinish (s.judgedClass l c lead) = some (n, k)) ∧ (s.queue (256 * portOf l + 32 * c + n)).head? = some e ∧
      s.linkAllows l c e.cells = true := by
  unfold eligibleClass at h
  dsimp only at h
  split at h
  · exact absurd h (by simp)
  next m x hhead =>
    split_ifs at h with hall
    cases h
    unfold classHead at hhead
    split at hhead
    · exact absurd hhead (by simp)
    next i k hleast =>
      obtain ⟨y, hq, heq⟩ := Option.map_eq_some_iff.mp hhead
      cases heq
      simp only [Bool.and_eq_true] at hall
      exact ⟨⟨k, hleast⟩, hq, hall.2⟩

/-- In Staketu mode the link's credits cover what it allows, beside what it owes (R57). -/
theorem linkAllows_staketu {cells : Nat} (h : s.linkAllows l c cells = true) (hs : s.staketu l = true) :
    s.owedCredits l c + cells ≤ vget (s.link l).held c := by
  unfold linkAllows at h
  simp_all

/-! ### Which frame is selected -/

/-- In a list in order, an entry above which there is none stands last. -/
theorem getLast?_of_max {β : Type} {xs : List (Nat × β)} (h : (xs.map Prod.fst).Pairwise (· < ·)) {x : Nat × β} (hx : x ∈ xs)
    (hmax : ∀ y ∈ xs, y.1 ≤ x.1) : xs.getLast? = some x := by
  induction xs using List.reverseRecOn with
  | nil => exact absurd hx List.not_mem_nil
  | append_singleton xs y _ =>
    rw [List.map_append, List.pairwise_append] at h
    obtain ⟨-, -, hlow⟩ := h
    rw [List.getLast?_append, List.getLast?_singleton]
    rcases List.mem_append.mp hx with hx' | hx'
    · have hlt := hlow _ (List.mem_map_of_mem (f := Prod.fst) hx') y.1 (by simp)
      have hle := hmax y (by simp)
      omega
    · rw [List.mem_singleton.mp hx']
      rfl

/-- The classes that are eligible, each with what it would give. -/
def heads (s : Blk) (l lead : Nat) : List (Nat × Nat × QEntry) :=
  (List.range 8).filterMap fun c => (s.eligibleClass l c lead).map fun ne => (c, ne.1, ne.2)

/-- The weighted ones among them. -/
def weighted (s : Blk) (l lead : Nat) : List (Nat × Nat × QEntry) := (s.heads l lead).filter fun h => !s.strict l h.1

/-- They are contenders at the link's node. -/
def bids (s : Blk) (l lead : Nat) : List Contender := (s.weighted l lead).map fun h =>
  ⟨h.1, h.2.2.copy, schedCost h.2.2.bytes (s.fld .FLD_CLS_CFG_weight (8 * l + h.1))⟩

/-- The link's node judged at this selection. -/
def judgedLink (s : Blk) (l lead : Nat) : SchedNode := judge (s.feldOf l).linkNode true (s.bids l lead)

/-- A link all of whose nodes have been judged. -/
def judged (s : Blk) (l lead : Nat) : Blk := s.updFeld l fun f =>
  { f with linkNode := s.judgedLink l lead,
           classNodes := (List.range 8).foldl (fun m c => m.set ⟨0, []⟩ c (s.judgedClass l c lead)) (s.feldOf l).classNodes }

/-- The highest strict class that is eligible, and what it gives. -/
def strictPick (s : Blk) (l lead : Nat) : Option (Nat × Nat × QEntry) := ((s.heads l lead).filter fun h => s.strict l h.1).getLast?

/-- What a selection takes. -/
def pick (s : Blk) (l lead : Nat) : Option (Nat × Nat × QEntry) :=
  match s.strictPick l lead with
  | some h => some h
  | none => match leastFinish (s.judgedLink l lead) with
    | none => none
    | some (c, _) => (s.weighted l lead).find? fun h => h.1 = c

/-- What becomes of the tags once a frame has been taken (R164, R165). -/
def tagged (s : Blk) (l c n lead : Nat) (isStrict : Bool) : Blk :=
  let next := ((s.eligibleQueues l c lead).find? fun ne => ne.1 = n).map (s.contender l c)
  s.updFeld l fun f =>
    { f with linkNode := if isStrict then f.linkNode else served f.linkNode c,
             classNodes := f.classNodes.set ⟨0, []⟩ c (Machine.serve (f.classNodes.get ⟨0, []⟩ c) n next) }

theorem select_of_pick (h : s.pick l lead = some (c, n, e)) (cut : Option Nat) : s.select l lead cut =
    ((s.judged l lead).takeFrame l c n e lead cut).tagged l c n lead (s.strictPick l lead).isSome := by
  have heq : s.select l lead cut = match s.pick l lead with
    | none => s.judged l lead
    | some (c, n, e) => ((s.judged l lead).takeFrame l c n e lead cut).tagged l c n lead (s.strictPick l lead).isSome := rfl
  rw [heq, h]

theorem mem_heads {h : Nat × Nat × QEntry} : h ∈ s.heads l lead ↔ h.1 < 8 ∧ s.eligibleClass l h.1 lead = some h.2 := by
  obtain ⟨c, n, e⟩ := h
  simp only [heads, List.mem_filterMap, List.mem_range, Option.map_eq_some_iff]
  constructor
  · rintro ⟨c', hc, ne, he, heq⟩
    cases heq
    exact ⟨hc, he⟩
  · rintro ⟨hc, he⟩
    exact ⟨c, hc, (n, e), he, rfl⟩

theorem pairwise_heads : ((s.heads l lead).map Prod.fst).Pairwise (· < ·) := by
  refine pairwise_filterMap_range (fun c h hh => ?_) 8
  obtain ⟨ne, -, rfl⟩ := Option.map_eq_some_iff.mp hh
  rfl

theorem mem_weighted {h : Nat × Nat × QEntry} : h ∈ s.weighted l lead ↔
    (h.1 < 8 ∧ s.eligibleClass l h.1 lead = some h.2) ∧ s.strict l h.1 = false := by
  rw [weighted, List.mem_filter, mem_heads]
  simp

theorem nodup_bids : ((s.bids l lead).map Contender.kid).Nodup := by
  have h : (s.bids l lead).map Contender.kid = (s.weighted l lead).map Prod.fst := by simp [bids, Function.comp_def]
  rw [h]
  refine List.Pairwise.imp (fun hlt => hlt.ne) (List.Pairwise.sublist (List.Sublist.map _ ?_) (pairwise_heads (s := s) (l := l) (lead := lead)))
  exact List.filter_sublist

/-- The finish tag of a weighted class at the link's node (R164, R165). -/
theorem judgedLink_find (h : (c, n, e) ∈ s.weighted l lead) :
    ∃ k, (s.judgedLink l lead).kids.find c = some k ∧ k.finish = s.classTag l c e.bytes := by
  have hmem : (⟨c, e.copy, schedCost e.bytes (s.fld .FLD_CLS_CFG_weight (8 * l + c))⟩ : Contender) ∈ s.bids l lead :=
    List.mem_map.mpr ⟨_, h, rfl⟩
  refine ⟨_, judge_find nodup_bids hmem, ?_⟩
  simp only [arrived, Bool.not_true, Bool.and_false, Bool.false_eq_true, if_false]
  rfl

/-- The highest strict class that is eligible is selected (R163). -/
theorem strictPick_eq (hc : c < 8) (he : s.eligibleClass l c lead = some (n, e)) (hs : s.strict l c = true)
    (hmax : ∀ c' < 8, c < c' → s.strict l c' = false ∨ s.eligibleClass l c' lead = none) : s.strictPick l lead = some (c, n, e) := by
  have hmem : (c, n, e) ∈ (s.heads l lead).filter fun h => s.strict l h.1 := List.mem_filter.mpr ⟨mem_heads.mpr ⟨hc, he⟩, hs⟩
  have hord : (((s.heads l lead).filter fun h => s.strict l h.1).map Prod.fst).Pairwise (· < ·) :=
    pairwise_heads.sublist (List.filter_sublist.map _)
  refine getLast?_of_max hord hmem fun y hy => ?_
  obtain ⟨hyh, hystrict⟩ := List.mem_filter.mp hy
  obtain ⟨hylt, hye⟩ := mem_heads.mp hyh
  by_contra hlt
  rcases hmax y.1 hylt (by omega) with h | h
  · exact absurd hystrict (by simp [h])
  · exact absurd (hye.symm.trans h) (by simp)

theorem all_of_some {α : Type} {p : α → Bool} {o : Option α} {a : α} (h : o.all p = true) (ho : o = some a) : p a = true := by
  rw [ho] at h
  exact h

/-- Of two tags one comes first, the lower number where they are equal. -/
theorem first_excludes {x y i j : Nat} (h : x < y ∨ x = y ∧ i < j) : ¬(y < x ∨ y = x ∧ j ≤ i) := by omega

/-- Where no strict class is eligible, the weighted class with the least finish tag is (R164). -/
theorem leastFinish_judgedLink (hl : (s.feldOf l).linkNode.Sorted) (hmem : (c, n, e) ∈ s.weighted l lead)
    (hmin : ∀ c' < 8, c' ≠ c → (s.eligibleClass l c' lead).all (fun ne => s.classTag l c e.bytes < s.classTag l c' ne.2.bytes ||
      (s.classTag l c e.bytes = s.classTag l c' ne.2.bytes && c < c')) = true) :
    ∃ k, leastFinish (s.judgedLink l lead) = some (c, k) := by
  have hbid : (⟨c, e.copy, schedCost e.bytes (s.fld .FLD_CLS_CFG_weight (8 * l + c))⟩ : Contender) ∈ s.bids l lead :=
    List.mem_map.mpr ⟨_, hmem, rfl⟩
  obtain ⟨⟨c', k'⟩, h⟩ := Option.isSome_iff_exists.mp (leastFinish_judge_isSome (afresh := true) hl nodup_bids hbid)
  obtain ⟨⟨x, hx, rfl⟩, hfind, -, hprec⟩ := leastFinish_judge hl nodup_bids h
  obtain ⟨⟨c', n', e'⟩, hmem', rfl⟩ := List.mem_map.mp hx
  obtain ⟨kc, hkc, hfc⟩ := judgedLink_find hmem
  obtain ⟨k₁, hk₁, hf₁⟩ := judgedLink_find hmem'
  have hkc' : kc = arrived (s.feldOf l).linkNode true ((s.feldOf l).linkNode.kids.get noChild c) ⟨c, e.copy, _⟩ :=
    Option.some.inj (hkc.symm.trans (judge_find nodup_bids hbid))
  have hk₁' : k₁ = k' := Option.some.inj (hk₁.symm.trans hfind)
  by_cases hcc : c' = c
  · subst hcc
    exact ⟨k', h⟩
  · obtain ⟨⟨hlt, he'⟩, -⟩ := mem_weighted.mp hmem'
    have htag := all_of_some (hmin c' hlt hcc) he'
    have hp : Precedes (c', k₁) (c, kc) := by
      rw [hk₁', hkc']
      exact hprec _ hbid
    simp only [Bool.or_eq_true, Bool.and_eq_true, decide_eq_true_eq] at htag
    simp only [Precedes, hfc, hf₁] at hp
    exact (first_excludes htag hp).elim

theorem pick_eq (hc : c < 8) (hl : (s.feldOf l).linkNode.Sorted) (hp : s.Picks l lead c n e) :
    s.pick l lead = some (c, n, e) ∧ (s.strictPick l lead).isSome = s.strict l c := by
  obtain ⟨he, ⟨hs, hmax⟩ | ⟨hs, hnone, hmin⟩⟩ := hp
  · have h := strictPick_eq hc he hs hmax
    unfold pick
    rw [h, hs]
    exact ⟨rfl, rfl⟩
  · have hmem : (c, n, e) ∈ s.weighted l lead := mem_weighted.mpr ⟨⟨hc, he⟩, hs⟩
    obtain ⟨k, hk⟩ := leastFinish_judgedLink hl hmem hmin
    have hno : s.strictPick l lead = none := by
      rw [strictPick, List.getLast?_eq_none_iff, List.filter_eq_nil_iff]
      intro h hh hstrict
      obtain ⟨hlt, hel⟩ := mem_heads.mp hh
      exact absurd (hel.symm.trans (hnone _ hlt hstrict)) (by simp)
    have hfind : (s.weighted l lead).find? (fun h => h.1 = c) = some (c, n, e) := by
      cases hf : (s.weighted l lead).find? (fun h => h.1 = c) with
      | none => exact absurd (List.find?_eq_none.mp hf _ hmem) (by simp)
      | some y =>
        have hyc : y.1 = c := by simpa using List.find?_some hf
        obtain ⟨⟨-, hye⟩, -⟩ := mem_weighted.mp (List.mem_of_find?_eq_some hf)
        rw [hyc, he] at hye
        rw [← hyc, Option.some.inj hye]
    unfold pick
    rw [hno, hk, hs]
    exact ⟨hfind, rfl⟩

/-! ### What a selection leaves of the tags -/

theorem get_foldl_set {α : Type} [DecidableEq α] (d : α) (g : Nat → α) {cs : List Nat} (m : Tab α) (hc : c ∈ cs) :
    (cs.foldl (fun m c => m.set d c (g c)) m).get d c = g c := by
  induction cs using List.reverseRecOn with
  | nil => exact absurd hc List.not_mem_nil
  | append_singleton cs x ih =>
    rw [List.foldl_append, List.foldl_cons, List.foldl_nil, Tab.get_set _ _ _ _ _ _ fun _ => rfl]
    split_ifs with h
    · rw [h]
    · exact ih ((List.mem_append.mp hc).resolve_right (by simpa using h))

theorem judged_classNode (hc : c < 8) : ((s.judged l lead).feldOf l).classNodes.get ⟨0, []⟩ c = s.judgedClass l c lead := by
  unfold judged
  rw [feldOf_updFeld_self]
  exact get_foldl_set _ _ _ (List.mem_range.mpr hc)

theorem judged_linkNode : ((s.judged l lead).feldOf l).linkNode = s.judgedLink l lead := by
  unfold judged
  rw [feldOf_updFeld_self]

end Blk
end Sys2Proof.Machine
end

section
/-!
PROOF. What a selection on a link leaves (R57, R162 to R165): O10.
-/

namespace Sys2Proof.Machine

namespace Blk

variable {s t : Blk} {l c n lead : Nat} {e : QEntry}

/-- The queues of a class judged against its node: the one that is served has the least finish tag, and is eligible (R164). -/
theorem judgedClass_least (hs : ((s.feldOf l).classNodes.get ⟨0, []⟩ c).Sorted) {k : SchedChild}
    (h : leastFinish (s.judgedClass l c lead) = some (n, k)) :
    (s.judgedClass l c lead).kids.get noChild n = k ∧ k.on = true ∧
      ∀ ne ∈ s.eligibleQueues l c lead, k.finish ≤ ((s.judgedClass l c lead).kids.get noChild ne.1).finish := by
  obtain ⟨-, hfind, hon, hprec⟩ := leastFinish_judge (now := s.contenders l c lead) hs nodup_contenders h
  refine ⟨by rw [Tab.get]; exact congrArg (·.getD noChild) hfind, hon, fun ne hne => ?_⟩
  have hmem : s.contender l c ne ∈ s.contenders l c lead := List.mem_map_of_mem hne
  have hk : (s.judgedClass l c lead).kids.get noChild ne.1 = _ :=
    congrArg (·.getD noChild) (judge_find (n := (s.feldOf l).classNodes.get ⟨0, []⟩ c) (afresh := false) nodup_contenders hmem)
  rw [hk]
  have hp := hprec _ hmem
  unfold Precedes at hp
  dsimp only at hp
  exact hp.elim (fun h => h.le) fun h => h.1.le

theorem tagged_linkNode (b : Bool) : ((s.tagged l c n lead b).feldOf l).linkNode =
    if b then (s.feldOf l).linkNode else served (s.feldOf l).linkNode c := by
  unfold tagged
  rw [feldOf_updFeld_self]

theorem tagged_tx (b : Bool) : ((s.tagged l c n lead b).feldOf l).tx = (s.feldOf l).tx := by
  unfold tagged
  rw [feldOf_updFeld_self]

/-- What waits at a node's queue next, as a contender. -/
def nextAt (s : Blk) (l c n lead : Nat) : Option Contender :=
  ((s.eligibleQueues l c lead).find? fun ne => ne.1 = n).map (s.contender l c)

theorem tagged_classNode (b : Bool) : ((s.tagged l c n lead b).feldOf l).classNodes.get ⟨0, []⟩ c =
    Machine.serve ((s.feldOf l).classNodes.get ⟨0, []⟩ c) n (s.nextAt l c n lead) := by
  unfold tagged
  rw [feldOf_updFeld_self]
  exact (Tab.get_set _ _ _ _ _ _ fun _ => rfl).trans (if_pos rfl)

theorem nextAt_of_mem (h : (n, e) ∈ s.eligibleQueues l c lead) : s.nextAt l c n lead = some (s.contender l c (n, e)) := by
  unfold nextAt
  cases hf : (s.eligibleQueues l c lead).find? (fun ne => ne.1 = n) with
  | none => exact absurd (List.find?_eq_none.mp hf _ h) (by simp)
  | some ne =>
    obtain ⟨m, e'⟩ := ne
    have hm : m = n := by simpa using List.find?_some hf
    subst hm
    rw [eligibleQueues_inj h (List.mem_of_find?_eq_some hf)]
    rfl

theorem nextAt_of_notMem (h : ∀ e, (n, e) ∉ s.eligibleQueues l c lead) : s.nextAt l c n lead = none := by
  unfold nextAt
  cases hf : (s.eligibleQueues l c lead).find? (fun ne => ne.1 = n) with
  | none => rfl
  | some ne =>
    obtain ⟨m, e'⟩ := ne
    have hm : m = n := by simpa using List.find?_some hf
    subst hm
    exact absurd (List.mem_of_find?_eq_some hf) (h e')

/-- The child that is served, once it has been (R164, R165). -/
theorem served_child {node : SchedNode} {k : SchedChild} (hk : node.kids.get noChild n = k) (hon : k.on = true) :
    ((Machine.serve node n (s.nextAt l c n lead)).kids.get noChild n).start = k.finish ∧
      (∀ e', (n, e') ∈ s.eligibleQueues l c lead → ((Machine.serve node n (s.nextAt l c n lead)).kids.get noChild n).on = true ∧
        ((Machine.serve node n (s.nextAt l c n lead)).kids.get noChild n).finish = k.finish + (s.contender l c (n, e')).cost) ∧
      ((∀ e', (n, e') ∉ s.eligibleQueues l c lead) →
        ((Machine.serve node n (s.nextAt l c n lead)).kids.get noChild n).on = false ∧
        ((Machine.serve node n (s.nextAt l c n lead)).kids.get noChild n).lag = 0) := by
  rw [(serve_leaves node n _).2, hk]
  refine ⟨by split <;> rfl, fun e' he => ?_, fun hno => ?_⟩
  · rw [nextAt_of_mem he]
    exact ⟨hon, rfl⟩
  · rw [nextAt_of_notMem hno]
    exact ⟨rfl, rfl⟩

end Blk

open Blk

/-- Settles O10: `pick_eq` says what is selected, `takeFrame_leaves` what of it leaves its queue, and `served_child` and
`judgedLink_find` what becomes of the tags. -/
theorem feldsparSelects : Obligations.FeldsparSelects := by
  unfold Obligations.FeldsparSelects
  intro s l lead cut c n q tag e cp k hp hq hcp hlink hclass hk htag
  subst hk
  obtain ⟨hpick, hstrict⟩ := pick_eq c.isLt hlink hp
  obtain ⟨⟨kn, hleast⟩, hhead, hallows⟩ := eligibleClass_some hp.1
  obtain ⟨hkn, hon, hmin⟩ := judgedClass_least hclass hleast
  obtain rfl : tag = kn.finish := by rw [htag, ← hkn]; rfl
  have htook := takeFrame_leaves (s := s.blk.judged l lead) (l := l) (c := c) (lead := lead) hq hcp cut
  have hsel := select_of_pick hpick cut
  rw [hstrict] at hsel
  set T := (s.blk.judged l lead).takeFrame l c n e lead cut with hT
  have hnode : (T.feldOf l).linkNode = s.blk.judgedLink l lead := htook.linkNode.trans judged_linkNode
  have hcn : (T.feldOf l).classNodes.get ⟨0, []⟩ c = s.blk.judgedClass l c lead := by
    rw [htook.classNodes]
    exact judged_classNode c.isLt
  refine runs_of_eq (g := (·.select l lead cut)) rfl hsel ?_
  dsimp only
  rw [tagged_linkNode, tagged_classNode, tagged_tx, hnode, hcn]
  obtain ⟨hstart, hnext, hgone⟩ := served_child (s := T) (l := l) (c := c) (lead := lead) hkn hon
  refine ⟨htook.queue, htook.tx, fun hs => linkAllows_staketu hallows hs, fun hs => ?_, fun hs => ?_, fun c' hc' ne hne hs he => ?_, hmin,
    ?_, ?_⟩
  · rw [if_pos hs]
    rfl
  · obtain ⟨k, hk, hfin⟩ := judgedLink_find (mem_weighted.mpr ⟨⟨c.isLt, hp.1⟩, hs⟩)
    have hget : (s.blk.judgedLink l lead).kids.get noChild c = k := congrArg (·.getD noChild) hk
    rw [if_neg (by simp [hs])]
    refine ⟨(congrArg SchedChild.finish hget).trans hfin, ?_⟩
    rw [find_served, if_pos rfl, hget, ← hfin]
    rfl
  · obtain ⟨k, hk, hfin⟩ := judgedLink_find (mem_weighted.mpr ⟨⟨hc', he⟩, hs⟩)
    rw [← hfin]
    split_ifs
    · rw [hk]
      rfl
    · rw [find_served, if_neg hne, hk]
      rfl
  · rw [(serve_leaves _ _ _).1, hkn]
  · rintro x rfl
    refine ⟨hstart, fun e' he' => ?_, fun hno => hgone hno⟩
    obtain ⟨hxon, hfin⟩ := hnext e' he'
    refine ⟨hxon, hfin.trans ?_⟩
    rw [contender, htook.fld _ _ (by decide), hq]
    rfl

end Sys2Proof.Machine
end

section
/-!
PROOF. What the handling of a frame that has landed leaves of the order of frames on its link (R62): the number awaited next and those
that have overtaken it stay, and no frame's number is used twice.
-/

namespace Sys2Proof.Machine.Blk

variable {s t u : Blk} {l : Nat}

/-- From `s` to `t` the frame awaited next on link `l` and those that overtook it are the same, and no number of a frame has been taken
back. -/
structure InOrder (s t : Blk) (l : Nat) : Prop where
  nextLsn : (t.link l).nextLsn = (s.link l).nextLsn
  ahead : (t.link l).ahead = (s.link l).ahead
  nextFrame : s.nextFrame ≤ t.nextFrame

namespace InOrder

theorem refl (s : Blk) (l : Nat) : InOrder s s l := ⟨rfl, rfl, le_refl _⟩

theorem trans (h : InOrder s t l) (k : InOrder t u l) : InOrder s u l :=
  ⟨k.nextLsn.trans h.nextLsn, k.ahead.trans h.ahead, h.nextFrame.trans k.nextFrame⟩

theorem ite {c : Prop} [Decidable c] (h : InOrder s t l) (k : InOrder s u l) : InOrder s (if c then t else u) l := by
  split
  exacts [h, k]

theorem foldl {β : Type} (g : Blk → β → Blk) (h : ∀ t b, InOrder t (g t b) l) (bs : List β) (t : Blk) :
    InOrder t (bs.foldl g t) l := by
  induction bs generalizing t with
  | nil => exact refl t l
  | cons b bs ih => exact (h t b).trans (ih _)

/-- What touches neither the links nor the numbers of frames. -/
theorem of_same (hl : t.links = s.links) (hn : s.nextFrame ≤ t.nextFrame) : InOrder s t l := by
  have h : t.link l = s.link l := by unfold link; rw [hl]
  exact ⟨by rw [h], by rw [h], hn⟩

theorem of_fldsOut (h : FldsOut s t) : InOrder s t l := by
  unfold FldsOut at h
  exact of_same (by rw [h]) (by rw [h])

theorem updLink (m : Nat) {g : LinkRec → LinkRec} (hn : ∀ r, (g r).nextLsn = r.nextLsn) (ha : ∀ r, (g r).ahead = r.ahead) :
    InOrder s (s.updLink m g) l := by
  refine ⟨?_, ?_, le_refl _⟩
  · rw [link_updLink]
    split_ifs with h
    · rw [hn, h]
    · rfl
  · rw [link_updLink]
    split_ifs with h
    · rw [ha, h]
    · rfl

theorem setFld (f : Fld) (i v : Nat) : InOrder s (s.setFld f i v) l := of_same rfl (le_refl _)
theorem count (f : Fld) (i n : Nat) : InOrder s (s.count f i n) l := of_fldsOut (FldsOut.count s f i n)
theorem raise (f : Fld) (i : Nat) : InOrder s (s.raise f i) l := of_fldsOut (FldsOut.raise s f i)
theorem fireVector (v : Nat) : InOrder s (s.fireVector v) l :=
  of_fldsOut (Within.fireVector (p := fun _ _ => True) s v fun _ _ => trivial).1

theorem onWire (m : Nat) (o : Output) : InOrder s (s.onWire m o) l := by
  obtain ⟨b, p, h⟩ := onWire_leaves s m o
  rw [h]
  exact of_same rfl (le_refl _)

/-! ### Staging -/

theorem pfcUpdate (m c : Nat) : InOrder s (s.pfcUpdate m c) l := by
  have hx : ∀ g : Nat → Nat, InOrder s (s.updLink m fun r => { r with xoff := g r.xoff }) l :=
    fun g => updLink m (fun _ => rfl) fun _ => rfl
  unfold Blk.pfcUpdate
  dsimp only
  split_ifs
  · exact (hx (· ||| 2 ^ c)).trans (onWire _ _)
  · exact (hx (· ^^^ 2 ^ c)).trans (onWire _ _)
  · exact hx (· ^^^ 2 ^ c)
  · exact refl s l
  · exact refl s l

theorem releaseStaging (tile : Nat) (link : Option Nat) (c n : Nat) : InOrder s (s.releaseStaging tile link c n) l := by
  unfold Blk.releaseStaging
  split
  · exact refl s l
  · refine trans ?_ (pfcUpdate _ _)
    exact trans (t := s.setFld _ _ _) (setFld _ _ _) (updLink _ (fun _ => rfl) fun _ => rfl)

theorem chargeStaging (m c n k : Nat) : InOrder s (s.chargeStaging m c n k) l := by
  unfold Blk.chargeStaging
  refine trans ?_ (pfcUpdate _ _)
  exact trans (t := s.setFld _ _ _) (setFld _ _ _) (updLink _ (fun _ => rfl) fun _ => rfl)

theorem putFrame (k : Nat) (r : FrameRec) : InOrder s (s.putFrame k r) l := of_same rfl (le_refl _)
theorem delFrame (k : Nat) : InOrder s (s.delFrame k) l := of_same rfl (le_refl _)
theorem putCopy (k : Nat) (c : CopyRec) : InOrder s (s.putCopy k c) l := of_same rfl (le_refl _)

theorem traceOut (tag : Option TraceTag) (kind point reason out : Nat) (enq : Option (Nat × Nat)) (sel sent : Option Nat) :
    InOrder s (s.traceOut tag kind point reason out enq sel sent) l := by
  have htimes : ∀ g a b c, InOrder s (s.traceTimes g a b c).2 l := fun g a b c => by
    unfold traceTimes
    split
    · exact refl s l
    · exact of_same rfl (le_refl _)
  unfold Blk.traceOut
  split
  · exact refl s l
  · dsimp only
    split
    · exact (count _ _ _).trans (raise _ _)
    · exact (htimes _ _ _ _).trans (of_same rfl (le_refl _))

theorem traceFrame (fid point reason : Nat) : InOrder s (s.traceFrame fid point reason) l := by
  unfold Blk.traceFrame
  split
  · exact refl s l
  · exact (traceOut _ _ _ _ _ _ _ _).trans (putFrame _ _)

theorem traceDrop (key point reason : Nat) : InOrder s (s.traceDrop key point reason) l := by
  unfold Blk.traceDrop
  split
  · exact refl s l
  · exact traceOut _ _ _ _ _ _ _ _

theorem dropFrame (fid : Nat) : InOrder s (s.dropFrame fid) l := by
  unfold Blk.dropFrame
  split
  · exact refl s l
  · dsimp only
    split
    · exact (releaseStaging _ _ _ _).trans (delFrame _)
    · exact ((traceOut _ _ _ _ _ _ _ _).trans (releaseStaging _ _ _ _)).trans (delFrame _)

theorem settle (fid : Nat) : InOrder s (s.settle fid) l := by
  unfold Blk.settle
  split
  · exact refl s l
  · dsimp only
    split
    · exact ite (((releaseStaging _ _ _ _).trans (putFrame _ _)).trans (delFrame _)) ((releaseStaging _ _ _ _).trans (putFrame _ _))
    · exact refl s l

theorem voidFrame (fid : Nat) : InOrder s (s.voidFrame fid) l := by
  unfold Blk.voidFrame
  split
  · exact refl s l
  · exact ((releaseStaging _ _ _ _).trans (putFrame _ _)).trans (settle _)

/-! ### Copies -/

theorem ringPending (r : Nat) : InOrder s (s.ringPending r) l := by
  unfold Blk.ringPending
  dsimp only
  split
  · exact of_same rfl (le_refl _)
  · refine trans ?_ (fireVector _)
    exact of_same rfl (le_refl _)

theorem advanceRing (r n : Nat) : InOrder s (s.advanceRing r n) l := by
  unfold Blk.advanceRing
  dsimp only
  split_ifs
  · refine trans ?_ (ringPending _)
    exact of_same rfl (le_refl _)
  · exact of_same rfl (le_refl _)
  · refine trans ?_ (ringPending _)
    exact of_same rfl (le_refl _)
  · exact of_same rfl (le_refl _)

theorem txDone (r status : Nat) : InOrder s (s.txDone r status) l := by
  unfold Blk.txDone
  split
  · exact refl s l
  · refine trans ?_ (advanceRing _ _)
    exact of_same rfl (le_refl _)

theorem discardCopy (key : Nat) : InOrder s (s.discardCopy key) l := by
  unfold Blk.discardCopy
  split
  · exact refl s l
  · have hfree : ∀ g cells, InOrder s ((((s.unland key).updBsl (key % 4) g).freeCells (key % 4) cells)) l :=
      fun g cells => of_same rfl (le_refl _)
    have hdel : ∀ u : Blk, InOrder u (u.delCopy key) l := fun u => of_same rfl (le_refl _)
    dsimp only
    split
    · exact ((ite ((hfree _ _).trans (txDone _ _)) (hfree _ _)).trans (hdel _)).trans (settle _)
    · exact ((hfree _ _).trans (hdel _)).trans (settle _)

theorem ask (key : Nat) : InOrder s (s.ask key) l := by
  unfold Blk.ask
  split
  · exact refl s l
  · dsimp only
    split_ifs
    · exact of_same rfl (le_refl _)
    · exact ((traceDrop _ _ _).trans (discardCopy _)).trans (count _ _ _)
    · exact putCopy _ _

theorem offerUpTo (n m c : Nat) : InOrder s (s.offerUpTo n m c) l := by
  induction n generalizing s with
  | zero => exact refl s l
  | succ n ih =>
    unfold Blk.offerUpTo
    dsimp only
    split
    · exact refl s l
    · have hask : ∀ fid, InOrder s ((s.copiesOf fid).foldl (fun s kc => if kc.2.phase = .held then s.ask kc.1 else s) s) l :=
        fun fid => foldl _ (fun t kc => ite (ask _) (refl t l)) _ _
      exact ite ((hask _).trans (ite (refl _ l) ih)) (refl s l)

theorem offerAfter (link : Option Nat) : InOrder s (s.offerAfter link) l := by
  unfold Blk.offerAfter
  split
  · exact refl s l
  · exact foldl _ (fun t c => offerUpTo _ _ _) _ _

theorem makeCopies (fid : Nat) (target : Target) (f : Frame) (cls : Nat) (node : NodeSrc) (link : Option Nat) (tile : Nat)
    (chk : Bool) : InOrder s (s.makeCopies fid target f cls node link tile chk) l := by
  unfold Blk.makeCopies
  dsimp only
  split
  · exact ite ((foldl _ (fun t d => putCopy _ _) _ s).trans (settle _)) ((foldl _ (fun t d => putCopy _ _) _ s).trans (offerAfter _))
  · exact (foldl _ (fun t d => putCopy _ _) _ s).trans (foldl _ (fun t d => ask _) _ _)

theorem emitFrame (tile : Nat) (target : Target) (f : Frame) (cls : Nat) (node : NodeSrc) :
    InOrder s (s.emitFrame tile target f cls node) l := by
  have hn : ∀ r, InOrder s (({ s with nextFrame := s.nextFrame + 1 } : Blk).putFrame s.nextFrame r) l :=
    fun r => of_same rfl (Nat.le_succ _)
  exact ((hn _).trans (makeCopies _ _ _ _ _ _ _ _)).trans (settle _)

/-! ### Frames that are lost in crossing -/

theorem endAsks (m : Nat) (p : SpillAsk → Bool) : InOrder s (s.endAsks m p) l := by
  unfold Blk.endAsks
  dsimp only
  have hgive : InOrder s (((s.spill m).filter p).foldl (fun s a => s.spillGive m a.got a.cells) s) l :=
    foldl (fun (s : Blk) (a : SpillAsk) => s.spillGive m a.got a.cells) (fun t a => of_same rfl (le_refl _)) _ _
  refine hgive.trans ?_
  exact of_same rfl (le_refl _)

theorem forget (fid : Nat) : InOrder s (s.forget fid) l := by
  unfold Blk.forget
  have hasks : InOrder s (s.spills.keys.foldl (fun s t => s.endAsks t fun a => a.frame = fid) s) l :=
    foldl _ (fun t m => endAsks _ _) _ _
  refine hasks.trans ?_
  exact of_same rfl (le_refl _)

theorem startCross (fid d : Nat) : InOrder s (s.startCross fid d) l := by
  unfold Blk.startCross
  split
  · exact refl s l
  · split_ifs
    · exact refl s l
    · unfold loseCrossing
      split
      · exact refl s l
      · exact ((((traceFrame _ _ _).trans (count _ _ _)).trans (dropFrame _)).trans (forget _)).trans (offerAfter _)
    · exact of_same rfl (le_refl _)

/-! ### Requests that no function takes -/

theorem place (tile m c n cells : Nat) : InOrder s (s.place tile m c n cells) l := by
  unfold Blk.place
  split
  · exact refl s l
  · exact of_same rfl (le_refl _)

theorem spray (tile set c n : Nat) (free : Bool) (key : List Byte) (cells : Nat) :
    InOrder s (s.spray tile set c n free key cells).2 l := by
  unfold Blk.spray
  dsimp only
  split
  · exact refl s l
  · split
    · split
      · exact refl s l
      · refine trans ?_ (place _ _ _ _ _)
        exact of_same rfl (le_refl _)
    · split
      · exact refl s l
      · exact place _ _ _ _ _

theorem endpointLink (tile dst c : Nat) (f : Frame) : InOrder s (s.endpointLink tile dst c f).2 l := by
  unfold Blk.endpointLink
  dsimp only
  split
  · exact refl s l
  · split
    · exact refl s l
    · exact spray _ _ _ _ _ _ _
    · exact refl s l

theorem sendTo (tile dst tc : Nat) (f : Frame) : InOrder s (s.sendTo tile dst tc f) l := by
  have h := endpointLink (s := s) (l := l) tile dst tc f
  unfold Blk.sendTo
  split
  next heq => rwa [heq] at h
  next heq =>
    rw [heq] at h
    exact h.trans (emitFrame _ _ _ _ _)

theorem free (w : Nat) : InOrder s (s.free w).2 l := of_same rfl (le_refl _)
theorem ownFrame (x : XOwn) : InOrder s (s.ownFrame x).2 l := of_same rfl (le_refl _)

theorem respond (q : MemReq) (status : Nat) (payload : List Byte) : InOrder s (s.respond q status payload) l := by
  have hop : InOrder s (s.respOpcode q.opcode).2 l := by
    unfold respOpcode
    split_ifs
    · exact refl s l
    · exact refl s l
    · exact refl s l
    · exact of_same rfl (le_refl _)
  unfold Blk.respond
  dsimp only
  refine hop.trans ?_
  refine trans ?_ (sendTo _ _ _ _)
  refine trans ?_ (ownFrame _)
  exact free _

theorem endReq (q : MemReq) (payload : List Byte) : InOrder s (s.endReq q payload) l := by
  have hraise : ∀ u : Blk, InOrder u (if q.status = 0xC then u.raise .GNS_INT_mem_err 0 else u) l :=
    fun u => ite (raise _ _) (refl u l)
  have hcount : InOrder s (if q.status = 0 then s.count .GNS_REQ_OK_count 0 1 else s.count .GNS_REQ_ERR_count 0 1) l :=
    ite (count _ _ _) (count _ _ _)
  unfold Blk.endReq
  dsimp only
  exact (hcount.trans (hraise _)).trans (ite (refl _ l) (respond _ _ _))

theorem doneWith (fid : Nat) : InOrder s (s.doneWith fid) l := by
  unfold Blk.doneWith
  split
  · exact refl s l
  · refine trans ?_ (offerAfter _)
    refine trans ?_ (dropFrame _)
    exact of_same rfl (le_refl _)

theorem startReq (fid : Nat) : InOrder s (s.startReq fid) l := by
  unfold Blk.startReq
  split
  · exact refl s l
  · split_ifs
    · exact refl s l
    · exact foldl _ (fun t d => startCross _ _) _ _

end InOrder

/-- An opcode that Gneiss does not define fails the checks. -/
theorem memStatus_undefined {q : MemReq} (h : memRow q.opcode = false) (dst payload : Nat) : s.memStatus q dst payload ≠ 0 := by
  have hop : ¬(q.opcode = 0x40 ∨ q.opcode = 0x41 ∨ 0x48 ≤ q.opcode ∧ q.opcode ≤ 0x4D) := by
    simp only [memRow, List.mem_cons, List.not_mem_nil, or_false, decide_eq_false_iff_not] at h
    omega
  unfold memStatus
  dsimp only
  by_cases hen : (!s.flag .GNS_CTL_en 0) = true
  · rw [if_pos hen]
    decide
  · rw [if_neg hen, if_pos]
    · decide
    · simp only [Bool.not_eq_true', Bool.or_eq_false_iff, Bool.and_eq_false_iff, decide_eq_false_iff_not]
      omega

namespace InOrder

theorem waitBehind (fid op : Nat) : InOrder s (s.waitBehind fid op) l := by
  unfold Blk.waitBehind
  split
  · exact refl s l
  · exact of_same rfl (le_refl _)

/-- A request of an opcode that Gneiss does not define is answered, or waits. -/
theorem memRequest {op : Nat} (h : memRow op = false) (fid : Nat) : InOrder s (s.memRequest fid op) l := by
  have hnote : ∀ u q, InOrder u (Blk.noteOrder u fid q) l := fun u q => by
    unfold Blk.noteOrder
    split_ifs
    · exact of_same rfl (le_refl _)
    · exact refl u l
  unfold Blk.memRequest
  split
  · exact refl s l
  next r _ =>
    dsimp only
    split
    next hreq =>
      have hst : ∀ u dst payload, memStatus u (s.memReqOf r) dst payload ≠ 0 := fun u dst payload => by
        refine memStatus_undefined ?_ _ _
        simp only [Bool.and_eq_true, decide_eq_true_eq] at hreq
        rw [← hreq.2] at h
        exact h
      have hend : ∀ (u : Blk) q, InOrder u ((u.doneWith fid).endReq q []) l := fun u q => (doneWith _).trans (endReq _ _)
      split_ifs
      · exact waitBehind _ _
      · exact doneWith _
      · exact (hnote _ _).trans (startReq _)
      · exact ((hnote _ _).trans (count _ _ _)).trans (hend _ _)
      · exact (hnote _ _).trans (hend _ _)
      · exact absurd ‹_› (not_not.mpr (hst _ _ _))
    · exact refl s l

theorem hostPush (ring : Option Nat) (f : Frame) (tc why m : Nat) (ts : Option (List Byte)) :
    InOrder s (s.hostPush ring f tc why m ts) l := by
  unfold Blk.hostPush
  split
  · exact ite (of_same rfl (le_refl _)) (count _ _ _)
  · exact count _ _ _

theorem hostDeliver (fid : Nat) : InOrder s (s.hostDeliver fid) l := by
  unfold Blk.hostDeliver
  split
  · exact refl s l
  · dsimp only
    exact ite (dropFrame _) ((hostPush _ _ _ _ _ _).trans (dropFrame _))

/-- A collective frame of an opcode that no member sends is discarded. -/
theorem colReceive {op : Nat} (h : ¬(0x10 ≤ op ∧ op ≤ 0x13)) (fid : Nat) : InOrder s (s.colReceive fid op) l := by
  unfold Blk.colReceive
  split
  · exact refl s l
  · rw [if_pos h]
    exact ite (ite (dropFrame _) ((count _ _ _).trans (dropFrame _))) (refl s l)

/-! ### Errors in the tables -/

theorem postMessage (ref cmd status : Nat) (payload : List Byte) : InOrder s (s.postMessage ref cmd status payload) l := by
  unfold Blk.postMessage
  refine trans ?_ (raise _ _)
  refine trans ?_ (setFld _ _ _)
  exact foldl _ (fun t w => setFld _ _ _) _ _

theorem flushEvents (n : Nat) : InOrder s (s.flushEvents n) l := by
  induction n generalizing s with
  | zero => exact refl s l
  | succ n ih =>
    unfold Blk.flushEvents
    split
    · exact refl s l
    · refine ite (trans ?_ ih) (refl s l)
      refine trans ?_ (postMessage _ _ _ _)
      exact of_same rfl (le_refl _)

theorem logRecord (bytes : List Byte) : InOrder s (s.logRecord bytes) l := by
  unfold Blk.logRecord
  exact (foldl _ (fun t w => setFld _ _ _) _ _).trans (setFld _ _ _)

theorem answerRecord (cls inst level : Nat) : InOrder s (s.answerRecord cls inst level) l := by
  unfold Blk.answerRecord
  split
  · exact of_same rfl (le_refl _)
  · split
    · exact of_same rfl (le_refl _)
    · exact refl s l

theorem fatalMarks (cls : Nat) (src : ErrSource) : InOrder s (s.fatalMarks cls src) l := by
  unfold Blk.fatalMarks
  split
  · exact of_same rfl (le_refl _)
  · exact refl s l

theorem postRecord (ring kind : Nat) (bytes : List Byte) : InOrder s (s.postRecord ring kind bytes) l := by
  unfold Blk.postRecord postWork
  split
  · refine trans ?_ (raise _ _)
    exact of_same rfl (le_refl _)
  · exact of_same rfl (le_refl _)

theorem postEvent (bytes : List Byte) : InOrder s (s.postEvent bytes) l := by
  unfold Blk.postEvent
  refine trans ?_ (flushEvents _)
  exact of_same rfl (le_refl _)

theorem mergeCe (slot : Nat) : InOrder s (s.mergeCe slot) l := by
  unfold Blk.mergeCe
  dsimp only
  exact ite (refl s l) (setFld _ _ _)

theorem reportError (src : ErrSource) : InOrder s (s.reportError src) l := by
  have hkeys : ∀ (u : Blk) ks, InOrder u { u with recentCe := ks } l := fun u ks => of_same rfl (le_refl _)
  unfold Blk.reportError
  dsimp only
  split
  · exact ((count _ _ _).trans (raise _ _)).trans ((mergeCe _).trans (hkeys _ _))
  · refine trans ?_ (fatalMarks _ _)
    refine trans ?_ (answerRecord _ _ _)
    refine trans ?_ (postEvent _)
    have hlog : ∀ (u : Blk) bytes ks, InOrder u { u.logRecord bytes with recentCe := ks } l := fun u bytes ks =>
      (logRecord _).trans (hkeys _ _)
    have hpost : ∀ {u w : Blk} (c : Bool) ring bytes, InOrder u w l → InOrder u (if c = true then w.postRecord ring 5 bytes else w) l :=
      fun c ring bytes h => h.trans (ite (postRecord _ _ _) (refl _ l))
    refine hpost _ _ _ ?_
    refine trans ?_ (hlog _ _ _)
    exact (count _ _ _).trans (raise _ _)

theorem tableLost (d entry n : Nat) {put : Nat → Blk → Blk} (hp : ∀ v u, InOrder u (put v u) l) :
    InOrder s (s.tableLost d entry n put) l := by
  unfold Blk.tableLost
  refine ite (reportError _) ?_
  refine trans ?_ (reportError _)
  refine trans ?_ (hp _ _)
  exact of_same rfl (le_refl _)

theorem lookupLost (w : SramWord) : InOrder s (s.lookupLost w) l := by
  unfold Blk.lookupLost
  split
  · exact tableLost _ _ _ fun v u => of_same rfl (le_refl _)
  · exact tableLost _ _ _ fun v u => of_same rfl (le_refl _)
  · exact tableLost _ _ _ fun v u => of_same rfl (le_refl _)
  · exact refl s l

end InOrder

end Sys2Proof.Machine.Blk
end

section
/-!
PROOF. A whole frame lands in staging, and its tile's pipeline decides it (R26, R82, R91, R124): what it comes to, and that it leaves the
order of frames on its link as it was (R62).
-/

namespace Sys2Proof.Machine.Blk

variable {s t u : Blk} {l m : Nat} {f : Frame} {img : ImageClass} {early : Nat}

/-- The class in which a frame of a link queues. -/
def landClass (s : Blk) (l : Nat) (f : Frame) (img : ImageClass) : Nat := s.queueClass (tileOf l) (s.linkClass l f img.cls) f

/-- A frame's end-to-end check fails at ingress (R141). -/
def landFails (s : Blk) (l : Nat) (f : Frame) : Bool := s.isXeirrik (tileOf l) f && !xCheckOk f.data

/-- What staging holds of a whole frame that has come on a link. -/
def landRec (s : Blk) (l : Nat) (f : Frame) (img : ImageClass) (early : Nat) : FrameRec :=
  let u := (s.tagFrame l f (s.landClass l f img)).2
  { frame := f, link := some l, tile := tileOf l, cls := s.linkClass l f img.cls, cells := cellsOf (frameLen f),
    freed := min early (cellsOf (frameLen f)), whole := true, got := min f.data.length f.data.length, chkFail := s.landFails l f,
    dest := .copies, void := false, why := 0, arrived := u.stampT l false 0, stampOk := u.stampOk (tileOf l),
    tag := (s.tagFrame l f (s.landClass l f img)).1 }

/-- A whole frame lies in staging, its pipeline not having decided it. -/
def landed (s : Blk) (l : Nat) (f : Frame) (img : ImageClass) (early : Nat) : Blk :=
  let u := ((({ (s.tagFrame l f (s.landClass l f img)).2 with nextFrame := s.nextFrame + 1 } : Blk).putFrame s.nextFrame
    (s.landRec l f img early)).chargeStaging l (s.linkClass l f img.cls) (cellsOf (frameLen f)) early)
  if s.landFails l f then u.count .TIL_CHK_FAIL_IN_count (tileOf l) 1 else u

theorem landFrame_whole (s : Blk) (l : Nat) (f : Frame) (img : ImageClass) (early : Nat) :
    s.landFrame l f true img true early =
      ((s.landed l f img early).routeFrame s.nextFrame l (s.landClass l f img) img f).finishFrame s.nextFrame := by
  unfold landFrame landed
  rfl

/-- What the tag of a received frame leaves: its tile's generator has stepped, and a tag may have been counted (R364). -/
theorem tagFrame_leaves (s : Blk) (m : Nat) (f : Frame) (c : Nat) : ∃ x n, (s.tagFrame m f c).2 = { s with trcLfsr := x } ∨
    (s.tagFrame m f c).2 = ({ s with trcLfsr := x, trcNext := n } : Blk).count .JSP_TRC_TAGGED_count (tileOf m) 1 := by
  unfold tagFrame
  dsimp only
  generalize (if max 1 (s.fld .JSP_TRC_SEED_seed 0) ^^^ tileOf m = 0 then 0xFFFFFFFF
    else max 1 (s.fld .JSP_TRC_SEED_seed 0) ^^^ tileOf m) = seed
  split
  · exact ⟨_, _, .inr rfl⟩
  · exact ⟨_, s.trcNext, .inl rfl⟩

/-! ### What changes up to the pipeline -/

/-- The register fields that may change before a frame's pipeline decides it. -/
def landing (g : Fld) : Prop :=
  counts g ∨ g = .TIL_STG_STATUS_used ∨ g = .TIL_LNK_FEC_CORR_count ∨ g = .TIL_LNK_FEC_SYMERR_count ∨
    g = .JSP_TRC_TAGGED_count ∨ g = .TIL_CHK_FAIL_IN_count

/-- From `s` to `t` a link has received, its transmitter may have gone on, and a frame may have been tagged; of the register fields
only those of `landing` may differ. -/
def Landing (s t : Blk) : Prop :=
  t = { s with fields := t.fields, out := t.out, links := t.links, feld := t.feld, linkBusy := t.linkBusy, trcLfsr := t.trcLfsr,
               trcNext := t.trcNext } ∧ ∀ f i, ¬ landing f → t.fld f i = s.fld f i

namespace Landing

theorem refl (s : Blk) : Landing s s := ⟨rfl, fun _ _ _ => rfl⟩

theorem trans (h : Landing s t) (k : Landing t u) : Landing s u := by
  refine ⟨?_, fun f i hf => (k.2 f i hf).trans (h.2 f i hf)⟩
  have hu := k.1
  rw [h.1] at hu
  exact hu

theorem of_within (h : Within s t fun f _ => landing f) : Landing s t := by
  refine ⟨?_, h.2⟩
  have ht := h.1
  unfold FldsOut at ht
  rw [ht]

theorem flag (h : Landing s t) {f : Fld} (hf : ¬ landing f) (i : Nat) : t.flag f i = s.flag f i := by
  unfold Blk.flag
  rw [h.2 f i hf]

theorem frames (h : Landing s t) : t.frames = s.frames := by rw [h.1]

theorem setFld {f : Fld} (hf : landing f) (i v : Nat) : Landing s (s.setFld f i v) := of_within (Within.setFld s f i v hf)

theorem count {f : Fld} (hf : landing f) (i n : Nat) : Landing s (s.count f i n) :=
  of_within (Within.count s f i n (fun _ _ h => .inl h) hf)

theorem updLink (m : Nat) (g : LinkRec → LinkRec) : Landing s (s.updLink m g) := ⟨rfl, fun _ _ _ => rfl⟩

theorem onWire (m : Nat) (o : Output) : Landing s (s.onWire m o) := by
  obtain ⟨b, p, h⟩ := onWire_leaves s m o
  rw [h]
  exact ⟨rfl, fun _ _ _ => rfl⟩

theorem pfcUpdate (m c : Nat) : Landing s (s.pfcUpdate m c) := by
  unfold Blk.pfcUpdate
  dsimp only
  split_ifs
  · exact (updLink _ _).trans (onWire _ _)
  · exact (updLink _ _).trans (onWire _ _)
  · exact updLink _ _
  · exact refl s
  · exact refl s

theorem chargeStaging (m c n k : Nat) : Landing s (s.chargeStaging m c n k) := by
  unfold Blk.chargeStaging
  exact ((setFld (by simp [landing]) _ _).trans (updLink _ _)).trans (pfcUpdate _ _)

theorem tagFrame (m : Nat) (f : Frame) (c : Nat) : Landing s (s.tagFrame m f c).2 := by
  obtain ⟨x, n, h | h⟩ := tagFrame_leaves s m f c
  · rw [h]
    exact ⟨rfl, fun _ _ _ => rfl⟩
  · rw [h]
    exact trans (t := { s with trcLfsr := x, trcNext := n }) ⟨rfl, fun _ _ _ => rfl⟩ (count (by simp [landing]) _ _)

theorem resumed (h : Resumed s t m) : Landing s t := by
  have heq := h.eq
  refine ⟨by rw [heq], fun f i _ => ?_⟩
  rw [heq]
  rfl

end Landing

/-- A whole frame of a link, `r` in staging, has landed from `s`: it is the newest, and no frame nor copy has changed. -/
structure Staged (s v : Blk) (l : Nat) (r : FrameRec) : Prop where
  eq : v = { s with fields := v.fields, out := v.out, links := v.links, feld := v.feld, linkBusy := v.linkBusy,
                    trcLfsr := v.trcLfsr, trcNext := v.trcNext, nextFrame := s.nextFrame + 1,
                    frames := s.frames.put s.nextFrame r }
  fld : ∀ f i, ¬ landing f → v.fld f i = s.fld f i
  link : r.link = some l
  tile : r.tile = tileOf l
  whole : r.whole = true
  dest : r.dest = .copies

theorem staged_landed (s : Blk) (l : Nat) (f : Frame) (img : ImageClass) (early : Nat) :
    Staged s (s.landed l f img early) l (s.landRec l f img early) := by
  have htag : Landing s (s.tagFrame l f (s.landClass l f img)).2 := .tagFrame _ _ _
  set A := (s.tagFrame l f (s.landClass l f img)).2 with hA
  set B : Blk := ({ A with nextFrame := s.nextFrame + 1 } : Blk).putFrame s.nextFrame (s.landRec l f img early) with hB
  have hv : Landing B (s.landed l f img early) := by
    unfold landed
    dsimp only
    split
    · exact (Landing.chargeStaging _ _ _ _).trans (.count (by simp [landing]) _ _)
    · exact .chargeStaging _ _ _ _
  refine ⟨?_, fun g i hg => (hv.2 g i hg).trans (htag.2 g i hg), rfl, rfl, rfl, rfl⟩
  have heq := hv.1
  rw [hB, htag.1] at heq
  exact heq

theorem Landing.staged {v : Blk} {r : FrameRec} (h : Landing s u) (k : Staged u v l r) : Staged s v l r := by
  obtain ⟨heq, hfld, hlink, htile, hwhole, hdest⟩ := k
  refine ⟨?_, fun g i hg => (hfld g i hg).trans (h.2 g i hg), hlink, htile, hwhole, hdest⟩
  rw [h.1] at heq
  exact heq

namespace InOrder

theorem tagFrame (m : Nat) (f : Frame) (c : Nat) : InOrder s (s.tagFrame m f c).2 l := by
  obtain ⟨x, n, h | h⟩ := tagFrame_leaves s m f c
  · rw [h]
    exact of_same rfl (le_refl _)
  · rw [h]
    refine trans ?_ (count _ _ _)
    exact of_same rfl (le_refl _)

theorem queueLearn (e : LearnEvent) : InOrder s (s.queueLearn e) l := by
  unfold Blk.queueLearn
  exact ite (of_same rfl (le_refl _)) (count _ _ _)

theorem landed (f : Frame) (img : ImageClass) (early : Nat) : InOrder s (s.landed m f img early) l := by
  have htag : InOrder s (s.tagFrame m f (s.landClass m f img)).2 l := tagFrame _ _ _
  have hn : s.nextFrame = (s.tagFrame m f (s.landClass m f img)).2.nextFrame := by
    rw [(Landing.tagFrame (s := s) m f (s.landClass m f img)).1]
  unfold Blk.landed
  dsimp only
  have hput : InOrder s ((({ (s.tagFrame m f (s.landClass m f img)).2 with nextFrame := s.nextFrame + 1 } : Blk).putFrame s.nextFrame
      (s.landRec m f img early))) l := ⟨htag.nextLsn, htag.ahead, Nat.le_succ _⟩
  exact ite ((hput.trans (chargeStaging _ _ _ _)).trans (count _ _ _)) (hput.trans (chargeStaging _ _ _ _))

end InOrder

end Sys2Proof.Machine.Blk
end

section
/-!
PROOF. The pipeline's decision and what follows on it leave the order of frames on a link as it was (R62, R82, R87).
-/

namespace Sys2Proof.Machine.Blk

variable {s t u : Blk} {l m : Nat} {f : Frame} {img : ImageClass} {early : Nat}

/-! ### The parts of a Xeirrik frame's decision -/

/-- The length that a Xeirrik frame's header gives is not its own (R85). -/
def badLength (f : Frame) : Bool :=
  let room := frameLen f - (if f.tci.isSome then 18 else 14) - 36
  frameLen f < (if f.tci.isSome then 18 else 14) + 36 ||
    !((xHeader f.data).len = room || (frameLen f = 64 && (xHeader f.data).len ≤ room))

/-- A Xeirrik frame's tag, on a link in Ethernet mode, is of another class than its header (R85). -/
def badTag (s : Blk) (l : Nat) (f : Frame) : Bool :=
  !s.staketu l && match f.tci with | some c => c.toNat / 8192 ≠ (xHeader f.data).tc | none => false

/-- Where a multicast frame goes (R110). -/
def xMulticast (s : Blk) (l : Nat) (f : Frame) : Verdict :=
  match s.mcastTarget (dieOf l) (xHeader f.data).dst with
  | none => .drop 6
  | some g => if (xHeader f.data).hop = 0 then .drop 4 else .send g (decHop f)

/-- Where a frame for a spray set goes (R107). -/
def xSpray (s : Blk) (l n : Nat) (f : Frame) (set : Nat) : Verdict × Blk :=
  let h := xHeader f.data
  match s.spray (tileOf l) set h.tc n h.sprayOk (crcKey [(20, h.src), (20, h.dst), (3, h.tc)]) (cellsOf (frameLen f)) with
  | (none, s) => (.drop 5, s)
  | (some o, s) => (.send (.link o) (decHop f), s)

/-- Where a frame for a local function goes (R91). -/
def xLocal (f : Frame) (target : Nat) : Verdict :=
  let op := (xHeader f.data).opcode
  match target % 4 with
  | 0 => if 0x40 ≤ op && op ≤ 0x7F then .gneiss else .drop 7
  | 1 => if 0x10 ≤ op && op ≤ 0x3F then .garnet else .drop 7
  | _ => if op ≤ 1 || (0x10 ≤ op && op ≤ 0x3F) || (0x40 ≤ op && op ≤ 0x7F) then .host 1 else .drop 7

/-- Where a frame for one endpoint goes (R92). -/
def xUnicast (s : Blk) (l n : Nat) (f : Frame) : Verdict × Blk :=
  let h := xHeader f.data
  let e := s.tableEntry (dieOf l) 0 h.dst
  if !e.testBit 31 then (.drop 5, s)
  else match bits e 30 28 with
    | 1 => if h.hop = 0 then (.drop 4, s) else (.send (.link (bits e 15 0 % 1024)) (decHop f), s)
    | 2 => if h.hop = 0 then (.drop 4, s) else s.xSpray l n f (bits e 15 0 % 4096)
    | 3 => (xLocal f (bits e 15 0), s)
    | 4 => (.host 0, s)
    | _ => (.drop 5, s)

theorem xForward_eq (s : Blk) (l n : Nat) (f : Frame) : s.xForward l n f =
    if (xHeader f.data).ver ≠ 1 then (.drop 1, s)
    else if badLength f then (.drop 2, s)
    else if s.badTag l f then (.drop 3, s)
    else if (xHeader f.data).mcast then (s.xMulticast l f, s)
    else s.xUnicast l n f := by
  unfold xForward
  dsimp only
  refine if_congr Iff.rfl rfl (if_congr Iff.rfl rfl (if_congr Iff.rfl rfl (if_congr Iff.rfl ?_ ?_)))
  · unfold xMulticast
    cases s.mcastTarget (dieOf l) (xHeader f.data).dst with
    | none => rfl
    | some g => exact (apply_ite (fun v : Verdict => (v, s)) _ _ _).symm
  · unfold xUnicast
    refine if_congr Iff.rfl rfl ?_
    generalize bits (s.tableEntry (dieOf l) 0 (xHeader f.data).dst) 30 28 = action
    match action with
    | 0 | 1 | 2 | 4 | n + 5 => rfl
    | 3 =>
      unfold xLocal
      generalize bits (s.tableEntry (dieOf l) 0 (xHeader f.data).dst) 15 0 % 4 = target
      match target with
      | 0 | 1 | n + 2 => rfl

/-- A frame's source is to be learnt (R97). -/
def learning (s : Blk) (l : Nat) (f : Frame) : Bool :=
  s.flag .TIL_FWD_CFG_learn_en (tileOf l) && (s.tableEntry (dieOf l) 4 (s.vlanOf (dieOf l) l f)).testBit 62

/-- It has been queued for the table engine (R98). -/
def sourceNoted (s : Blk) (l : Nat) (f : Frame) : Blk :=
  if s.learning l f then s.queueLearn ⟨f.smac.toNat, s.vlanOf (dieOf l) l f, l⟩ else s

/-- Where a frame of a VLAN goes (R97). -/
def bridged (s u : Blk) (l : Nat) (f : Frame) : Verdict :=
  let vid := s.vlanOf (dieOf l) l f
  match if s.learning l f then u.learnDrop (dieOf l) ⟨f.smac.toNat, vid, l⟩ else none with
  | some r => .drop r
  | none =>
    match if f.dmac.toNat.testBit 40 then none else u.findLearn (dieOf l) vid f.dmac.toNat with
    | some i => if bits (u.tableEntry (dieOf l) 3 i) 67 58 = l then .drop 5 else .send (.link (bits (u.tableEntry (dieOf l) 3 i) 67 58)) f
    | none =>
      let g := bits (s.tableEntry (dieOf l) 4 vid) 61 48
      if u.groupOk (dieOf l) g then .send (.list g) f else .drop 6

theorem bridge_eq (s : Blk) (l : Nat) (f : Frame) : s.bridge l f =
    if !(s.tableEntry (dieOf l) 4 (s.vlanOf (dieOf l) l f)).testBit 63 then (.drop 0xB, s)
    else (s.bridged (s.sourceNoted l f) l f, s.sourceNoted l f) := by
  unfold bridge bridged sourceNoted learning
  dsimp only
  refine if_congr Iff.rfl rfl ?_
  generalize (if (s.flag .TIL_FWD_CFG_learn_en (tileOf l) && (s.tableEntry (dieOf l) 4 (s.vlanOf (dieOf l) l f)).testBit 62) = true
    then s.queueLearn ⟨f.smac.toNat, s.vlanOf (dieOf l) l f, l⟩ else s) = u
  cases (if (s.flag .TIL_FWD_CFG_learn_en (tileOf l) && (s.tableEntry (dieOf l) 4 (s.vlanOf (dieOf l) l f)).testBit 62) = true
    then u.learnDrop (dieOf l) ⟨f.smac.toNat, s.vlanOf (dieOf l) l f, l⟩ else none) with
  | some r => rfl
  | none =>
    cases (if f.dmac.toNat.testBit 40 = true then none
      else u.findLearn (dieOf l) (s.vlanOf (dieOf l) l f) f.dmac.toNat) with
    | some i => exact (apply_ite (fun v : Verdict => (v, u)) _ _ _).symm
    | none => exact (apply_ite (fun v : Verdict => (v, u)) _ _ _).symm

/-- What a frame's tail brings about, its check apart (R87, R141). -/
def tailDone (s : Blk) (fid : Nat) (r : FrameRec) : Blk :=
  let op := (xHeader r.frame.data).opcode
  match r.dest with
  | .copies => (s.settle fid).offerAfter r.link
  | .host => s.hostDeliver fid
  | .gneiss => if !memRow op then s.memRequest fid op else if op < 0x60 then s.startReq fid else s
  | .garnet => if 0x10 ≤ op && op ≤ 0x13 then s else s.colReceive fid op
  | _ => s

theorem finishFrame_of_none {fid : Nat} (h : s.frame? fid = none) : s.finishFrame fid = s := by
  unfold finishFrame
  rw [h]

theorem finishFrame_of_some {fid : Nat} {r : FrameRec} (h : s.frame? fid = some r) : s.finishFrame fid =
    (if (r.chkFail && decide (r.dest ≠ .copies)) = true then s.traceFrame fid 4 0 else s).tailDone fid r := by
  unfold finishFrame tailDone
  rw [h] <;> rfl

namespace InOrder

theorem of_spray {tile set c n : Nat} {free : Bool} {key : List Byte} {cells : Nat} {o : Option Nat}
    (h : s.spray tile set c n free key cells = (o, t)) : InOrder s t l := by
  have hs := spray (s := s) (l := l) tile set c n free key cells
  rw [h] at hs
  exact hs

theorem xSpray (n : Nat) (f : Frame) (set : Nat) : InOrder s (s.xSpray m n f set).2 l := by
  unfold Blk.xSpray
  dsimp only
  split
  · exact of_spray ‹_›
  · exact of_spray ‹_›

theorem xUnicast (n : Nat) (f : Frame) : InOrder s (s.xUnicast m n f).2 l := by
  unfold Blk.xUnicast
  dsimp only
  split
  · exact refl s l
  · split
    · split <;> exact refl s l
    · split
      · exact refl s l
      · exact xSpray _ _ _
    · exact refl s l
    · exact refl s l
    · exact refl s l

theorem xForward (n : Nat) (f : Frame) : InOrder s (s.xForward m n f).2 l := by
  rw [xForward_eq]
  split_ifs
  · exact refl s l
  · exact refl s l
  · exact refl s l
  · exact refl s l
  · exact xUnicast _ _

theorem ipForward (c n : Nat) (v6 : Bool) (f : Frame) : InOrder s (s.ipForward m c n v6 f).2 l := by
  unfold Blk.ipForward
  dsimp only
  split
  · exact refl s l
  · split
    · exact refl s l
    · split
      · exact refl s l
      · split
        · exact refl s l
        · split
          · exact of_spray ‹_›
          · exact of_spray ‹_›
        · exact refl s l
        · exact refl s l

theorem bridge (f : Frame) : InOrder s (s.bridge m f).2 l := by
  rw [bridge_eq]
  split
  · exact refl s l
  · exact ite (queueLearn _) (refl s l)

theorem pipeline (c n : Nat) (f : Frame) : InOrder s (s.pipeline m c n f).2 l := by
  unfold Blk.pipeline
  dsimp only
  split
  · exact refl s l
  · split
    · exact refl s l
    · split
      · exact xForward _ _
      · split
        · split
          · split
            · exact ipForward _ _ _ _
            · exact bridge _
          · exact refl s l
        · exact bridge _

theorem verdict (c : Nat) (img : ImageClass) (f : Frame) : InOrder s (s.verdict m c img f).2 l := by
  unfold Blk.verdict
  dsimp only
  split
  · split_ifs
    · exact lookupLost _
    · exact pipeline _ _ _
  · exact pipeline _ _ _

theorem routeFrame (fid c : Nat) (img : ImageClass) (f : Frame) : InOrder s (s.routeFrame fid m c img f) l := by
  have hv := verdict (s := s) (l := l) (m := m) c img f
  have htake : ∀ (u : Blk) dest why, InOrder u (match u.frame? fid with
      | none => u
      | some r => u.putFrame fid { r with dest := dest, why := why }) l := fun u dest why => by
    split
    · exact refl u l
    · exact putFrame _ _
  unfold Blk.routeFrame
  dsimp only
  split <;> rename_i heq <;> rw [heq] at hv <;> refine hv.trans ?_
  · exact ((count _ _ _).trans (traceFrame _ _ _)).trans (voidFrame _)
  · exact makeCopies _ _ _ _ _ _ _ _
  · exact htake _ _ _
  · exact htake _ _ _
  · exact htake _ _ _
  · exact htake _ _ _

theorem tailDone (fid : Nat) (r : FrameRec) : InOrder s (s.tailDone fid r) l := by
  unfold Blk.tailDone
  dsimp only
  split
  · exact (settle _).trans (offerAfter _)
  · exact hostDeliver _
  · split
    next hrow => exact memRequest (by simpa using hrow) _
    next => exact ite (startReq _) (refl s l)
  · split
    next => exact refl s l
    next hop => exact colReceive (by simpa using hop) _
  · exact refl s l

theorem finishFrame (fid : Nat) : InOrder s (s.finishFrame fid) l := by
  cases h : s.frame? fid with
  | none =>
    rw [finishFrame_of_none h]
    exact refl s l
  | some r =>
    rw [finishFrame_of_some h]
    exact (ite (traceFrame _ _ _) (refl s l)).trans (tailDone _ _)

/-- A frame that lands does not change the order of frames on its link. -/
theorem landFrame (f : Frame) (img : ImageClass) (early : Nat) : InOrder s (s.landFrame m f true img true early) l := by
  rw [landFrame_whole]
  exact ((landed f img early).trans (routeFrame _ _ _ _)).trans (finishFrame _)

end InOrder

/-- A frame that lands takes a number. -/
theorem nextFrame_landFrame (s : Blk) (l : Nat) (f : Frame) (img : ImageClass) (early : Nat) :
    s.nextFrame < (s.landFrame l f true img true early).nextFrame := by
  have h : (s.landed l f img early).nextFrame = s.nextFrame + 1 := by rw [(staged_landed s l f img early).eq]
  rw [landFrame_whole]
  have hle := ((InOrder.routeFrame (s := s.landed l f img early) (l := l) (m := l) s.nextFrame (s.landClass l f img) img f).trans
    (.finishFrame s.nextFrame)).nextFrame
  omega

end Sys2Proof.Machine.Blk
end

section
/-!
PROOF. Priority flow control (R69, R70), and what a link does with a frame that arrives, up to the pipeline (R26, R47, R50, R55, R62, R69,
R143): the first two parts of O15.
-/

namespace Sys2Proof.Machine

namespace Blk

variable {s t u : Blk} {l m : Nat}

/-! ### Priority flow control -/

/-- A pause time, honoured. -/
def pausedBy (c quanta paused : Nat) : Nat := if quanta = 0 then paused &&& (255 - 2 ^ c) else paused ||| 2 ^ c

theorem testBit_unpaused {c d : Nat} (hc : c < 8) (hd : d < 8) : (255 - 2 ^ c).testBit d = !decide (c = d) := by
  interval_cases c <;> interval_cases d <;> decide

theorem testBit_pausedBy {c d : Nat} (hc : c < 8) (hd : d < 8) (quanta paused : Nat) : (pausedBy c quanta paused).testBit d =
    if c = d then decide (quanta ≠ 0) else paused.testBit d := by
  unfold pausedBy
  split_ifs with hq hcd hcd
  · subst hcd
    simp [testBit_unpaused hc hc, hq]
  · simp [testBit_unpaused hc hd, hcd]
  · simp [hcd, hq]
  · simp [Nat.testBit_two_pow_of_ne hcd]

theorem ethernetMode_up (hs : s.linkState l = 3) (hm : s.staketu l = false) : s.ethernetMode l = true := by
  unfold ethernetMode
  rw [hm, hs]
  rfl

theorem pfcReceived_enabled (he : s.ethernetMode l = true) {c : Nat} (hb : s.bit .TIL_LNK_PFC_CFG_pfc_rx_en l c = true) (q : Nat) :
    s.pfcReceived l c q = s.updLink l fun r => { r with paused := pausedBy c q r.paused } :=
  if_pos (by rw [he, hb]; rfl)

theorem pfcReceived_leaves (s : Blk) (l c q : Nat) : s.pfcReceived l c q =
    if (s.ethernetMode l && s.bit .TIL_LNK_PFC_CFG_pfc_rx_en l c) = true then
      s.updLink l fun r => { r with paused := pausedBy c q r.paused } else s := rfl

/-- XOFF is sent again for each class in which it is in force. -/
theorem pfcRefresh_eq (s : Blk) (l : Nat) (cs : List Nat) :
    cs.foldl (fun b c => if (b.link l).xoff.testBit c then b.sendPfc l c true else b) s =
      (cs.filter fun c => (s.link l).xoff.testBit c).foldl (fun b c => b.onWire l (.pfc l c 0xFFFF)) s := by
  have h : ∀ b : Blk, b.link l = s.link l →
      cs.foldl (fun b c => if (b.link l).xoff.testBit c then b.sendPfc l c true else b) b =
        (cs.filter fun c => (s.link l).xoff.testBit c).foldl (fun b c => b.onWire l (.pfc l c 0xFFFF)) b := by
    induction cs with
    | nil => exact fun _ _ => rfl
    | cons c cs ih =>
      intro b hb
      rw [List.foldl_cons, hb, List.filter_cons]
      split_ifs with hc
      · exact ih _ ((link_onWire _ _ _).trans hb)
      · exact ih b hb
  exact h s rfl

/-! ### What a link does with a frame first -/

/-- What the decoder counts, and what goes back in loopback (R46, R74). -/
def counted (s : Blk) (l : Nat) (w : Option (BitVec 48)) (f : Frame) (a : Arrival) : Blk :=
  ((s.count .TIL_LNK_FEC_CORR_count l a.corrected).count .TIL_LNK_FEC_SYMERR_count l a.symbols).sendBack l w f

variable {w : Option (BitVec 48)} {f : Frame} {a : Arrival} {img : ImageClass}

theorem within_counted (s : Blk) (l : Nat) (w : Option (BitVec 48)) (f : Frame) (a : Arrival) : Within s (s.counted l w f a)
    fun g _ => counts g ∨ g = .TIL_LNK_FEC_CORR_count ∨ g = .TIL_LNK_FEC_SYMERR_count := by
  have hcount := (Within.count (p := fun g _ => counts g ∨ g = .TIL_LNK_FEC_CORR_count ∨ g = .TIL_LNK_FEC_SYMERR_count) s
    .TIL_LNK_FEC_CORR_count l a.corrected (fun _ _ h => .inl h) (.inr (.inl rfl))).trans
    (Within.count _ .TIL_LNK_FEC_SYMERR_count l a.symbols (fun _ _ h => .inl h) (.inr (.inr rfl)))
  unfold counted sendBack
  split
  · exact hcount.trans (Within.emit _ _)
  · exact hcount

theorem landing_counted : Landing s (s.counted l w f a) :=
  .of_within ((within_counted s l w f a).mono fun g _ h => by
    rcases h with h | rfl | rfl
    · exact .inl h
    · simp [landing]
    · simp [landing])

theorem links_counted : (s.counted l w f a).links = s.links := by rw [(within_counted s l w f a).1]

@[simp] theorem link_counted : (s.counted l w f a).link m = s.link m := by unfold link; rw [links_counted]

theorem fld_counted {g : Fld} (h : ¬ landing g) (i : Nat) : (s.counted l w f a).fld g i = s.fld g i := landing_counted.2 g i h

@[simp] theorem linkState_counted : (s.counted l w f a).linkState m = s.linkState m := fld_counted (by simp [landing, counts]) _

@[simp] theorem staketu_counted : (s.counted l w f a).staketu m = s.staketu m := by
  unfold staketu flag
  rw [fld_counted (by simp [landing, counts])]

/-- A frame, no LCF, arrives whole on a link that is UP. -/
theorem frameReceived_up (he : s.linkExists l = true) (hs : s.linkState l = 3) (hp : a.part = .whole) (hlcf : f.etype.toNat ≠ s.imgLcf) :
    s.frameReceived l w f a img =
      if s.staketu l then (s.counted l w f a).staketuFrame l w f a img else (s.counted l w f a).ethernetFrame l f a img := by
  have hin : s.isIn l .disabled = false := by rw [isIn_eq (c := .up) hs]; rfl
  have himg : (s.counted l w f a).imgLcf = s.imgLcf := by rw [landing_counted.1]
  have h : s.frameReceived l w f a img = if (!s.linkExists l || s.isIn l .disabled) = true then s else
      if (decide (a.part ≠ .tail) && decide (f.etype.toNat = (s.counted l w f a).imgLcf)) = true then
        (s.counted l w f a).lcfArrives l w f a
      else if (s.counted l w f a).flows l = true then
        match a.part, ((s.counted l w f a).link l).partialFrame with
        | .tail, some fid => (s.counted l w f a).staketuTail l fid f.data a
        | .tail, none => s.counted l w f a
        | _, _ => (s.counted l w f a).staketuFrame l w f a img
      else if (s.counted l w f a).ethernetMode l = true then (s.counted l w f a).ethernetFrame l f a img
      else s.counted l w f a := rfl
  rw [h, if_neg (by rw [he, hin]; decide), if_neg (by simp [himg, hlcf])]
  cases hm : s.staketu l with
  | true =>
    rw [if_pos (flows_iff.mpr ⟨.inl (by simpa using hs), by simpa using hm⟩), hp]
    rfl
  | false =>
    rw [if_neg (by simp [flows_iff, hm]), if_pos (ethernetMode_up (by simpa using hs) (by simpa using hm))]
    rfl

/-! ### A data frame in Staketu mode (R55, R62) -/

/-- A link word has been taken in: but for its credit it brings nothing. -/
structure WordTaken (s u : Blk) (l : Nat) : Prop where
  landing : Landing s u
  link : u.link l = { s.link l with held := (u.link l).held, returnsSeen := (u.link l).returnsSeen, lsn := (u.link l).lsn }

theorem WordTaken.inOrder (h : WordTaken s u l) : InOrder s u l :=
  ⟨by rw [h.link], by rw [h.link], by rw [h.landing.1]⟩

theorem creditReceived_quiet (hf : s.flows l = true) (hu : (s.link l).unacked = []) (c : ClassId) (total : BitVec 10) :
    WordTaken s (s.creditReceived l (.word c total)) l := by
  have hres := resumed_pump (s := s.updLink l fun r => credited r c total.toNat) (l := l) (by simp [credited, hu])
  rw [creditReceived_word hf]
  refine ⟨(Landing.updLink _ _).trans (.resumed hres), ?_⟩
  rw [hres.link]
  simp [credited]

/-- A link word that asks for no replay and acknowledges nothing. -/
theorem wordReceived_quiet {w : Nat} (hf : s.flows l = true) (hn : w.testBit 21 = false) (hu : (s.link l).unacked = []) :
    WordTaken s (s.wordReceived l w) l := by
  have hack : s.ackUpTo l (bits w 34 22) = s := by
    unfold ackUpTo
    rw [hu]
    rfl
  have heq : s.wordReceived l w =
      s.creditReceived l (.word ⟨bits w 20 18 % 8, Nat.mod_lt _ (by decide)⟩ (BitVec.ofNat 10 (bits w 17 8))) := by
    unfold wordReceived
    dsimp only
    rw [hn, if_neg Bool.false_ne_true, hack, ite_self]
  rw [heq]
  exact creditReceived_quiet hf hu _ _

/-- Where the number of a data frame stands from the one awaited next (R62). -/
def lsnAhead (s : Blk) (l w : Nat) : Nat := (bits w 47 35 + 8192 - (s.link l).nextLsn) % 8192

theorem lsnAhead_of_turn {w : Nat} (h : bits w 47 35 = (s.link l).nextLsn) : s.lsnAhead l w = 0 := by
  unfold lsnAhead
  omega

/-- A whole data frame with a good link word on a link with retry on that awaits no tail and that none has overtaken. -/
theorem staketuFrame_whole {w : BitVec 48} (hw : goodWord (some w) = some w.toNat) (hu : WordTaken s (s.wordReceived l w.toNat) l)
    (hr : s.flag .TIL_LNK_STATUS_retry_on l = true) (ha : (s.link l).ahead = []) (hp : (s.link l).partialFrame = none)
    (hwhole : a.part = .whole) : s.staketuFrame l (some w) f a img =
      let u := s.wordReceived l w.toNat
      if 4096 ≤ s.lsnAhead l w.toNat then u
      else if s.lsnAhead l w.toNat = 0 then
        if a.errored || a.fcs = .bad then
          (u.updLink l fun r => { r with errored := some (u.linkClass l f img.cls, cellsOf (frameLen f)) }).erroredFrame l
        else u.acceptFrame l f a img
      else if (s.link l).retryClock then u else u.sendNak l := by
  have hretry : (s.wordReceived l w.toNat).flag .TIL_LNK_STATUS_retry_on l = true := by
    rw [← hr, hu.landing.flag (by simp [landing, counts])]
  have hn : ((s.wordReceived l w.toNat).link l).nextLsn = (s.link l).nextLsn := by rw [hu.link]
  have ha' : ((s.wordReceived l w.toNat).link l).ahead = [] := by rw [hu.link, ha]
  have hp' : ((s.wordReceived l w.toNat).link l).partialFrame = none := by rw [hu.link, hp]
  have hc : ((s.wordReceived l w.toNat).link l).retryClock = (s.link l).retryClock := by rw [hu.link]
  unfold staketuFrame lsnAhead
  rw [hw]
  dsimp only
  rw [hretry, hn, ha', hp', hc, hwhole]
  simp

/-- A whole data frame comes on a link in Staketu mode with retry on, its link word good and acknowledging nothing, no earlier frame's
tail being awaited and none having overtaken it. -/
structure DataFrame (s : Blk) (l : Nat) (w : BitVec 48) (f : Frame) (a : Arrival) : Prop where
  linkExists : s.linkExists l = true
  up : s.linkState l = 3
  staketu : s.staketu l = true
  retry : s.flag .TIL_LNK_STATUS_retry_on l = true
  notLcf : f.etype.toNat ≠ s.imgLcf
  good : goodWord (some w) = some w.toNat
  notNak : w.toNat.testBit 21 = false
  unacked : (s.link l).unacked = []
  ahead : (s.link l).ahead = []
  partialFrame : (s.link l).partialFrame = none
  whole : a.part = .whole

/-- What a link in Staketu mode does with a whole data frame (R55, R62). -/
theorem DataFrame.frameReceived {w : BitVec 48} (h : DataFrame s l w f a) : ∃ u, WordTaken s u l ∧ s.frameReceived l (some w) f a img =
      if 4096 ≤ s.lsnAhead l w.toNat then u
      else if s.lsnAhead l w.toNat = 0 then
        if a.errored || a.fcs = .bad then
          (u.updLink l fun r => { r with errored := some (u.linkClass l f img.cls, cellsOf (frameLen f)) }).erroredFrame l
        else u.acceptFrame l f a img
      else if (s.link l).retryClock then u else u.sendNak l := by
  have hlink : (s.counted l (some w) f a).link l = s.link l := link_counted
  have hflows : (s.counted l (some w) f a).flows l = true :=
    flows_iff.mpr ⟨.inl (by rw [linkState_counted, h.up]), by rw [staketu_counted, h.staketu]⟩
  have htaken := wordReceived_quiet hflows h.notNak (by rw [hlink, h.unacked])
  have hretry : (s.counted l (some w) f a).flag .TIL_LNK_STATUS_retry_on l = true := by
    rw [← h.retry, landing_counted.flag (by simp [landing, counts])]
  refine ⟨_, ⟨landing_counted.trans htaken.landing, by rw [htaken.link, hlink]⟩, ?_⟩
  rw [frameReceived_up h.linkExists h.up h.whole h.notLcf, if_pos h.staketu, staketuFrame_whole h.good htaken hretry
    (by rw [hlink, h.ahead]) (by rw [hlink, h.partialFrame]) h.whole, lsnAhead, hlink]
  rfl

/-! #### Delivered, stomped, errored -/

theorem lsnDone_of_none_ahead (h : (s.link l).ahead = []) : (s.lsnDone l).link l = { s.link l with
    nextLsn := ((s.link l).nextLsn + 1) % 8192 } := by
  unfold lsnDone
  rw [link_updLink_self]
  dsimp only
  rw [h]
  simp [List.range_succ]

/-- Frame nextLsn is delivered, none having overtaken it (R62). -/
theorem deliveredLsn_link (h : (s.link l).ahead = []) : (s.deliveredLsn l).link l = { s.link l with
    retryClock := false, early := 0, errored := none, nextLsn := ((s.link l).nextLsn + 1) % 8192 } := by
  unfold deliveredLsn
  rw [lsnDone_of_none_ahead]
  · simp
  · simpa using h

theorem Landing.releaseStaging (tile : Nat) (link : Option Nat) (c n : Nat) : Landing s (s.releaseStaging tile link c n) := by
  unfold Blk.releaseStaging
  split
  · exact .refl s
  · exact ((Landing.setFld (by simp [landing]) _ _).trans (.updLink _ _)).trans (.pfcUpdate _ _)

/-- A stomped frame is discarded, and counted (R143). -/
theorem landing_stomped : ∃ u, Landing s u ∧ InOrder s u l ∧
    s.stompedFrame l f img m = u.count .TIL_CHK_STOMP_RX_count (tileOf l) 1 := by
  exact ⟨_, (Landing.chargeStaging _ _ _ _).trans (.releaseStaging _ _ _ _),
    (InOrder.chargeStaging _ _ _ _).trans (.releaseStaging _ _ _ _), rfl⟩

/-- A NAK is sent, and counted; the retry clock runs (R62). -/
theorem sendNak_leaves (s : Blk) (l : Nat) : ((s.sendNak l).link l) = { s.link l with retryClock := true } ∧
    (s.sendNak l).frames = s.frames ∧
    (s.sendNak l).fld .TIL_LNK_RETRY_count l = min (s.fld .TIL_LNK_RETRY_count l + 1) (2 ^ 64 - 1) := by
  unfold sendNak
  dsimp only
  refine ⟨by simp, ?_, ?_⟩
  · obtain ⟨y, p, h⟩ := lcfNak_eq (s.updLink l fun r => { r with retryClock := true }) l .credit
      { lcfBlank with classVal := classVals ((s.updLink l fun r => { r with retryClock := true }).link l).returned } true
    rw [h, count_frames]
    rfl
  · rw [fld_count_self _ _ _ _ (by simp [counts]) rfl, fld_lcfNak, fld_updLink]

end Blk

open Blk

/-! ### The commands of a data frame -/

section

variable {s : State} {l : LinkId} {w : BitVec 48} {f : Frame} {img : ImageClass} {a : Arrival} {u : Blk}

theorem runs_received {w : Option (BitVec 48)} {b : Blk} {P : State → Prop} (h : s.blk.frameReceived l w f a img = b)
    (hp : P { s with blk := b }) : Runs (.frameReceived l w f a img) s P :=
  runs_of_eq (g := (·.frameReceived l w f a img)) rfl h hp

/-- In its turn and good, it lands, and the next is awaited. -/
theorem accepted_leaves (hu : WordTaken s.blk u l) (ha : (s.blk.link l).ahead = []) (hpart : a.part = .whole) (hf : a.fcs = .good) :
    ((u.acceptFrame l f a img).link l).retryClock = false ∧ ((u.acceptFrame l f a img).link l).early = 0 ∧
      ((u.acceptFrame l f a img).link l).errored = none ∧
      ((u.acceptFrame l f a img).link l).nextLsn = ((s.blk.link l).nextLsn + 1) % 8192 ∧
      s.blk.nextFrame < (u.acceptFrame l f a img).nextFrame := by
  have heq : u.acceptFrame l f a img = (u.landFrame l f true img true (u.link l).early).deliveredLsn l := by
    unfold acceptFrame
    rw [if_neg (by rw [hpart]; decide), if_neg (by rw [hf]; decide)]
  obtain ⟨hlsn, hahead, hnum⟩ := hu.inOrder.trans (InOrder.landFrame (m := l) f img (u.link l).early)
  have hlink := deliveredLsn_link (s := u.landFrame l f true img true (u.link l).early) (l := l) (hahead.trans ha)
  rw [heq, hlink]
  refine ⟨rfl, rfl, rfl, by rw [hlsn], ?_⟩
  exact lt_of_le_of_lt hu.inOrder.nextFrame (nextFrame_landFrame u l f img _)

/-- Stomped, it is discarded, counted, and passed. -/
theorem stomped_leaves (hu : WordTaken s.blk u l) (ha : (s.blk.link l).ahead = []) (hpart : a.part = .whole) (hf : a.fcs = .stomped) :
    ((u.acceptFrame l f a img).link l).nextLsn = ((s.blk.link l).nextLsn + 1) % 8192 ∧
      (u.acceptFrame l f a img).frames = s.blk.frames ∧
      (u.acceptFrame l f a img).fld .TIL_CHK_STOMP_RX_count (tileOf l) =
        min (s.blk.fld .TIL_CHK_STOMP_RX_count (tileOf l) + 1) (2 ^ 64 - 1) := by
  obtain ⟨v, hv, hvo, heq⟩ := landing_stomped (s := u) (l := l) (f := f) (img := img) (m := (u.link l).early)
  have heq : u.acceptFrame l f a img = (v.count .TIL_CHK_STOMP_RX_count (tileOf l) 1).deliveredLsn l := by
    unfold acceptFrame
    rw [if_neg (by rw [hpart]; decide), if_pos hf, heq]
  obtain ⟨hlsn, hahead, -⟩ := hu.inOrder.trans hvo
  have hland := hu.landing.trans hv
  have hlink := deliveredLsn_link (s := v.count .TIL_CHK_STOMP_RX_count (tileOf l) 1) (l := l) (by rw [count_link, hahead, ha])
  rw [heq]
  refine ⟨by rw [hlink, count_link, hlsn], ?_, ?_⟩
  · change (v.count .TIL_CHK_STOMP_RX_count (tileOf l) 1).frames = _
    rw [count_frames, hland.1]
  · change (v.count .TIL_CHK_STOMP_RX_count (tileOf l) 1).fld _ _ = _
    rw [fld_count_self _ _ _ _ (by simp [counts]) rfl, hland.2 _ _ (by simp [landing, counts])]

/-- Errored, it is asked for again, with a NAK. -/
theorem errored_leaves (hu : WordTaken s.blk u l) (hr : s.blk.flag .TIL_LNK_STATUS_retry_on l = true) {g : LinkRec → LinkRec}
    (hg : ∀ r, (g r).nextLsn = r.nextLsn) :
    (((u.updLink l g).erroredFrame l).link l).retryClock = true ∧ ((u.updLink l g).erroredFrame l).frames = s.blk.frames ∧
      (((u.updLink l g).erroredFrame l).link l).nextLsn = (s.blk.link l).nextLsn ∧
      ((u.updLink l g).erroredFrame l).fld .TIL_LNK_RETRY_count l = min (s.blk.fld .TIL_LNK_RETRY_count l + 1) (2 ^ 64 - 1) := by
  have hretry : (u.updLink l g).flag .TIL_LNK_STATUS_retry_on l = true := (hu.landing.flag (by simp [landing, counts]) _).trans hr
  obtain ⟨hlink, hframes, hcount⟩ := sendNak_leaves (u.updLink l g) l
  rw [show (u.updLink l g).erroredFrame l = (u.updLink l g).sendNak l from if_pos hretry, hlink, hframes, hcount, link_updLink_self]
  refine ⟨rfl, hu.landing.frames, ?_, ?_⟩
  · rw [hg, hu.link]
  · rw [fld_updLink, hu.landing.2 _ _ (by simp [landing, counts])]

/-! What becomes of a data frame whose link word acknowledges nothing, by its number (R62). -/

section Numbered

variable (h : DataFrame s.blk l w f a)
include h

theorem runs_dataFrame_behind (hb : 4096 ≤ s.blk.lsnAhead l w.toNat) :
    Runs (.frameReceived l (some w) f a img) s fun t => t.blk.frames = s.blk.frames ∧
      (t.blk.link l).nextLsn = (s.blk.link l).nextLsn ∧ (t.blk.link l).retryClock = (s.blk.link l).retryClock := by
  obtain ⟨u, hu, heq⟩ := h.frameReceived (img := img)
  rw [if_pos hb] at heq
  exact runs_received heq ⟨hu.landing.frames, by rw [hu.link], by rw [hu.link]⟩

variable (hn : bits w.toNat 47 35 = (s.blk.link l).nextLsn)
include hn

theorem runs_dataFrame_good (he : a.errored = false) (hf : a.fcs = .good) :
    Runs (.frameReceived l (some w) f a img) s fun t => (t.blk.link l).retryClock = false ∧ (t.blk.link l).early = 0 ∧
      (t.blk.link l).errored = none ∧ (t.blk.link l).nextLsn = ((s.blk.link l).nextLsn + 1) % 8192 ∧
      s.blk.nextFrame < t.blk.nextFrame := by
  obtain ⟨u, hu, heq⟩ := h.frameReceived (img := img)
  rw [lsnAhead_of_turn hn, if_neg (by decide), if_pos rfl, if_neg (by rw [he, hf]; decide)] at heq
  exact runs_received heq (accepted_leaves hu h.ahead h.whole hf)

theorem runs_dataFrame_stomped (he : a.errored = false) (hf : a.fcs = .stomped) :
    Runs (.frameReceived l (some w) f a img) s fun t =>
      (t.blk.link l).nextLsn = ((s.blk.link l).nextLsn + 1) % 8192 ∧ t.blk.frames = s.blk.frames ∧
      t.blk.fld .TIL_CHK_STOMP_RX_count (tileOf l) = min (s.blk.fld .TIL_CHK_STOMP_RX_count (tileOf l) + 1) (2 ^ 64 - 1) := by
  obtain ⟨u, hu, heq⟩ := h.frameReceived (img := img)
  rw [lsnAhead_of_turn hn, if_neg (by decide), if_pos rfl, if_neg (by rw [he, hf]; decide)] at heq
  exact runs_received heq (stomped_leaves hu h.ahead h.whole hf)

theorem runs_dataFrame_errored (hbad : a.errored = true ∨ a.fcs = .bad) :
    Runs (.frameReceived l (some w) f a img) s fun t =>
      (t.blk.link l).retryClock = true ∧ t.blk.frames = s.blk.frames ∧ (t.blk.link l).nextLsn = (s.blk.link l).nextLsn ∧
      t.blk.fld .TIL_LNK_RETRY_count l = min (s.blk.fld .TIL_LNK_RETRY_count l + 1) (2 ^ 64 - 1) := by
  obtain ⟨u, hu, heq⟩ := h.frameReceived (img := img)
  rw [lsnAhead_of_turn hn, if_neg (by decide), if_pos rfl, if_pos (by simpa using hbad)] at heq
  exact runs_received heq (errored_leaves hu h.retry fun _ => rfl)

end Numbered

end

end Sys2Proof.Machine
end

section
/-!
PROOF. The commands of priority flow control, and the control frames that a link takes in (R50 to R52, R69, R70): the rest of the first two
parts of O15.
-/

namespace Sys2Proof.Machine

namespace Blk

variable {s : Blk} {l : Nat} {f : Frame} {img : ImageClass}

/-- A pause time for a class pauses it, or ends its pause, and touches no other. -/
theorem testBit_pfcReceived (hs : s.linkState l = 3) (hm : s.staketu l = false) {c : Nat}
    (hb : s.bit .TIL_LNK_PFC_CFG_pfc_rx_en l c = true) {d : Nat} (hc : c < 8) (hd : d < 8) (q : Nat) :
    ((s.pfcReceived l d q).link l).paused.testBit c =
      if d = c then decide (q ≠ 0) else (s.link l).paused.testBit c := by
  have he := ethernetMode_up hs hm
  by_cases hdc : d = c
  · subst hdc
    rw [pfcReceived_enabled he hb, link_updLink_self]
    exact testBit_pausedBy hd hd _ _
  · rw [pfcReceived_leaves, if_neg hdc]
    split
    · rw [link_updLink_self]
      exact (testBit_pausedBy hd hc _ _).trans (if_neg hdc)
    · rfl

theorem fld_pfcReceived (c q : Nat) (g : Fld) (i : Nat) : (s.pfcReceived l c q).fld g i = s.fld g i := by
  rw [pfcReceived_leaves]
  split <;> rfl

/-- A PFC frame pauses a class that it names with a pause time. -/
theorem pfcArrives_pauses (hs : s.linkState l = 3) (hm : s.staketu l = false) {c : Nat} (hc : c < 8)
    (hb : s.bit .TIL_LNK_PFC_CFG_pfc_rx_en l c = true) {b : List Byte} (hv : (beAt b 2 2).testBit c = true)
    (hq : beAt b (4 + 2 * c) 2 ≠ 0) : ((s.pfcArrives l b).link l).paused.testBit c = true := by
  have hfold : ∀ (ds : List Nat) (u : Blk), (∀ d ∈ ds, d < 8) → u.linkState l = 3 → u.staketu l = false →
      u.bit .TIL_LNK_PFC_CFG_pfc_rx_en l c = true → c ∈ ds ∨ (u.link l).paused.testBit c = true →
      ((ds.foldl (fun s d => if (beAt b 2 2).testBit d then s.pfcReceived l d (beAt b (4 + 2 * d) 2) else s) u).link l).paused.testBit c
        = true := by
    intro ds
    induction ds with
    | nil => exact fun u _ _ _ _ h => h.resolve_left List.not_mem_nil
    | cons d ds ih =>
      intro u hlt hs hm hb h
      obtain ⟨hd, hds⟩ := List.forall_mem_cons.mp hlt
      have hbit := testBit_pfcReceived hs hm hb hc hd (beAt b (4 + 2 * d) 2)
      rw [List.foldl_cons]
      by_cases hvd : (beAt b 2 2).testBit d = true
      · rw [if_pos hvd]
        refine ih _ hds ((fld_pfcReceived _ _ _ _).trans hs) ?_ ?_ ?_
        · unfold staketu flag at hm ⊢
          rwa [fld_pfcReceived]
        · unfold bit at hb ⊢
          rwa [fld_pfcReceived]
        · by_cases hdc : d = c
          · subst hdc
            exact .inr (by simpa [hq] using hbit)
          · rw [hbit, if_neg hdc]
            exact h.imp (fun h => (List.mem_cons.mp h).resolve_left (Ne.symm hdc)) id
      · rw [if_neg hvd]
        refine ih u hds hs hm hb (h.imp (fun h => (List.mem_cons.mp h).resolve_left ?_) id)
        rintro rfl
        exact hvd hv
  exact hfold (List.range 8) s (fun d hd => List.mem_range.mp hd) hs hm hb (.inl (List.mem_range.mpr hc))

/-- A good LCF with no link word, in Ethernet mode (R50, R54). -/
theorem lcfArrives_good {a : Arrival} (hf : a.fcs = .good) (he : a.errored = false) (hm : (s.link l).mode ≠ 2)
    (hs : s.staketu l = false) (w : Option (BitVec 48)) : s.lcfArrives l w f a = s.lcfReceived l f.data := by
  unfold lcfArrives
  rw [hf, he, hs]
  simp [hm]

end Blk

open Blk

section

variable {s : State} {l : LinkId} {f : Frame} {img : ImageClass} {c : ClassId}

theorem runs_pfcReceived {q : BitVec 16} (hs : s.blk.linkState l = 3) (hm : s.blk.staketu l = false)
    (hb : s.blk.bit .TIL_LNK_PFC_CFG_pfc_rx_en l c = true) :
    Runs (.pfcReceived l c q) s fun t => (t.blk.link l).paused.testBit c = (q ≠ 0) ∧ ∀ f i, t.blk.fld f i = s.blk.fld f i := by
  refine runs_of_eq (g := (·.pfcReceived l c q.toNat)) rfl rfl ⟨?_, fun g i => fld_pfcReceived _ _ _ _⟩
  dsimp only
  rw [testBit_pfcReceived hs hm hb c.isLt c.isLt, if_pos rfl]
  simp [BitVec.toNat_eq]

theorem runs_pfcPauseExpiry (s : State) (l : LinkId) (c : ClassId) :
    Runs (.pfcPauseExpiry l c) s fun t => (t.blk.link l).paused.testBit c = false ∧ ∀ f i, t.blk.fld f i = s.blk.fld f i := by
  refine runs_of_eq (g := (·.updLink l fun r => { r with paused := pausedBy c 0 r.paused })) rfl rfl ⟨?_, fun _ _ => rfl⟩
  dsimp only
  rw [link_updLink_self]
  exact (testBit_pausedBy c.isLt c.isLt 0 _).trans (by simp)

theorem runs_pfcRefreshTimer (he : s.blk.ethernetMode l = true) : Runs (.pfcRefreshTimer l) s fun t =>
    t = { s with blk := ((List.range 8).filter fun c => (s.blk.link l).xoff.testBit c).foldl
                          (fun b c => b.onWire l (.pfc l c 0xFFFF)) s.blk } :=
  runs_of_eq (g := fun b => if b.ethernetMode l then (List.range 8).foldl (fun b c =>
    if (b.link l).xoff.testBit c then b.sendPfc l c true else b) b else b) rfl ((if_pos he).trans (pfcRefresh_eq _ _ _)) rfl

theorem runs_pfcRefreshTimer_idle (he : s.blk.ethernetMode l = false) : Runs (.pfcRefreshTimer l) s fun t => t = s :=
  runs_of_eq (g := fun b => if b.ethernetMode l then (List.range 8).foldl (fun b c =>
    if (b.link l).xoff.testBit c then b.sendPfc l c true else b) b else b) rfl (if_neg (by simp [he])) rfl

/-- A CAP that confirms settles the link, in EXCHANGE, its own direction confirmed. -/
theorem runs_capFrame (he : s.blk.linkExists l = true) (hs : s.blk.linkState l = 2) (hm : s.blk.staketu l = false)
    (hlcf : f.etype.toNat = s.blk.imgLcf) (hmode : (s.blk.link l).mode ≠ 2) (htype : beAt f.data 0 1 = 1)
    (ho : (s.blk.link l).ownConf = true) (hv : (lcfBody f.data).llv ≠ 0) (hc : (lcfBody f.data).conf = true) :
    Runs (.frameReceived l none f goodArrival img) s fun t => t.blk.linkState l = 3 ∧ t.blk.staketu l = true := by
  set u := s.blk.counted l none f goodArrival with hu
  have hdis : s.blk.isIn l .disabled = false := isIn_eq (c := .exchange) hs
  have himg : u.imgLcf = s.blk.imgLcf := by rw [hu, (landing_counted (s := s.blk)).1]
  have hlcf' : (decide (goodArrival.part ≠ .tail) && decide (f.etype.toNat = u.imgLcf)) = true := by
    rw [himg, hlcf]
    simp [goodArrival]
  have hcap : u.lcfReceived l f.data = u.capReceived l (lcfBody f.data) := by
    unfold lcfReceived
    rw [htype]
    rfl
  obtain ⟨v, p, rtt, hsettle, -⟩ := capReceived_settles (s := u) (l := l) (by rw [hu, linkState_counted, hs])
    (by rw [hu, link_counted, ho]) hv hc
  obtain ⟨hstate, hstaketu, -⟩ := settleCap_leaves (s := v) (l := l) (c := p) (rtt := rtt)
  generalize v.settleCap l p rtt = b at hsettle hstate hstaketu
  refine runs_received (b := b) ?_ ⟨hstate, hstaketu⟩
  rw [← hsettle,  ← hcap, ← lcfArrives_good (a := goodArrival) rfl rfl
    (by rw [hu, link_counted]; exact hmode) (by rw [hu, staketu_counted, hm]) none]
  unfold frameReceived
  rw [if_neg (by rw [he, hdis]; decide)]
  exact if_pos hlcf'

/-- A PFC frame pauses the classes that it names. -/
theorem runs_pfcFrame (he : s.blk.linkExists l = true) (hs : s.blk.linkState l = 3) (hm : s.blk.staketu l = false)
    (htype : f.etype = 0x8808) (hlcf : s.blk.imgLcf ≠ 0x8808) (hop : beAt f.data 0 2 = 0x0101)
    (hv : (beAt f.data 2 2).testBit c = true) (hq : beAt f.data (4 + 2 * c) 2 ≠ 0)
    (hb : s.blk.bit .TIL_LNK_PFC_CFG_pfc_rx_en l c = true) :
    Runs (.frameReceived l none f goodArrival img) s fun t => (t.blk.link l).paused.testBit c = true := by
  refine runs_received (b := (s.blk.counted l none f goodArrival).pfcArrives l f.data) ?_ ?_
  · rw [frameReceived_up he hs rfl (by rw [htype]; exact hlcf.symm), hm, if_neg Bool.false_ne_true]
    unfold ethernetFrame
    rw [htype, hop]
    rfl
  · refine pfcArrives_pauses (by rw [linkState_counted, hs]) (by rw [staketu_counted, hm]) c.isLt ?_ hv hq
    unfold bit at hb ⊢
    rwa [fld_counted (by simp [landing, counts])]

end

end Sys2Proof.Machine
end

section
/-!
PROOF. A frame that comes lands in staging, alone of its link, and its tile's pipeline reads what it read before (R26, R55, R82, R126).
-/

namespace Sys2Proof.Machine

namespace Blk

variable {s u v : Blk} {l : Nat} {f : Frame} {img : ImageClass} {r : FrameRec}

theorem tagClass_lt (f : Frame) (c : ClassId) : tagClass f c < 8 := by
  unfold tagClass
  split
  · omega
  · exact c.isLt

theorem linkClass_lt (s : Blk) (l : Nat) (f : Frame) (c : ClassId) : s.linkClass l f c < 8 := by
  unfold linkClass
  split
  · exact Nat.mod_lt _ (by decide)
  · exact tagClass_lt f c

/-- A frame that came on link `l` waits in staging for its pipeline, no other of the link being there: from `s`, of the tables and the
register fields that the pipeline reads, nothing has changed. -/
structure Pending (s v : Blk) (l : Nat) (f : Frame) (r : FrameRec) : Prop where
  eq : v = { s with fields := v.fields, out := v.out, links := v.links, feld := v.feld, linkBusy := v.linkBusy,
                    trcLfsr := v.trcLfsr, trcNext := v.trcNext, nextFrame := s.nextFrame + 1,
                    frames := s.frames.put s.nextFrame r, placed := v.placed, sprayPtr := v.sprayPtr }
  fld : ∀ f i, ¬ landing f → v.fld f i = s.fld f i
  link : r.link = some l
  tile : r.tile = tileOf l
  whole : r.whole = true
  dest : r.dest = .copies
  frame : r.frame = f
  cls : r.cls < 8
  free : ∀ d < 4, s.copy? (4 * s.nextFrame + d) = none
  alone : ∀ kv ∈ s.frames, kv.2.link ≠ some l

namespace Pending

/-- A frame placed on a member of a spray set waits as before (R107, R108). -/
theorem sprayed (k : Pending s v l f r) (h : u = { v with placed := u.placed, sprayPtr := u.sprayPtr }) : Pending s u l f r where
  eq := by
    have heq := k.eq
    rw [heq] at h
    rw [h]
  fld g i hg := by
    rw [h]
    exact k.fld g i hg
  link := k.link
  tile := k.tile
  whole := k.whole
  dest := k.dest
  frame := k.frame
  cls := k.cls
  free := k.free
  alone := k.alone

/-! ### What the pipeline reads -/

section Reads

variable (k : Pending s v l f r)
include k

theorem flag {g : Fld} (hg : ¬ landing g) (i : Nat) : v.flag g i = s.flag g i := by
  unfold Blk.flag
  rw [k.fld g i hg]

theorem isXeirrik (t : Nat) (f : Frame) : v.isXeirrik t f = s.isXeirrik t f := by
  unfold Blk.isXeirrik
  rw [k.fld _ _ (by simp [landing, counts])]

theorem staketu (m : Nat) : v.staketu m = s.staketu m := k.flag (by simp [landing, counts]) m

theorem linkState (m : Nat) : v.linkState m = s.linkState m := k.fld _ _ (by simp [landing, counts])

theorem tables : v.tables = s.tables := by rw [k.eq]

theorem tableEntry (d t i : Nat) : v.tableEntry d t i = s.tableEntry d t i := by
  unfold Blk.tableEntry
  rw [k.tables]

theorem groupOk (d g : Nat) : v.groupOk d g = s.groupOk d g := by
  unfold Blk.groupOk
  rw [k.tableEntry]

theorem mcastTarget (d dst : Nat) : v.mcastTarget d dst = s.mcastTarget d dst := by
  unfold Blk.mcastTarget
  rw [k.groupOk]

theorem prefixLookup (d : Nat) (v6 : Bool) (dst : Nat) : v.prefixLookup d v6 dst = s.prefixLookup d v6 dst := by
  unfold Blk.prefixLookup
  simp only [k.tables, k.tableEntry]

theorem findLearn (d vid mac : Nat) : v.findLearn d vid mac = s.findLearn d vid mac := by
  unfold Blk.findLearn
  simp only [k.tableEntry]

theorem vlanOf (d m : Nat) (f : Frame) : v.vlanOf d m f = s.vlanOf d m f := by
  unfold Blk.vlanOf
  rw [k.tableEntry]

theorem legsBy (td d : Nat) (target : Target) : v.legsBy td d target = s.legsBy td d target := by
  unfold Blk.legsBy
  simp only [k.tableEntry]

theorem mayReflect (d : Nat) (target : Target) : v.mayReflect d target = s.mayReflect d target := by
  unfold Blk.mayReflect
  simp only [k.tableEntry]

theorem liveLinks (n : Nat) : v.liveLinks n = s.liveLinks n := by
  unfold Blk.liveLinks
  simp only [k.fld .D2D_PAIR_STATUS_live_ij _ (by simp [landing, counts]), k.fld .D2D_PAIR_STATUS_live_ji _ (by simp [landing, counts])]

theorem sprayLive (d set : Nat) : v.sprayLive d set = s.sprayLive d set := by
  have he : ∀ m, v.linkExists m = s.linkExists m := fun m => by
    unfold linkExists breakout
    rw [k.fld _ _ (by simp [landing, counts])]
  have hin : ∀ m c, v.isIn m c = s.isIn m c := fun m c => by
    unfold isIn
    rw [k.linkState]
  unfold Blk.sprayLive
  simp only [k.tableEntry, he, hin]

theorem queueFor (m c n : Nat) : v.queueFor m c (.image n) = s.queueFor m c (.image n) := by
  have ho : ∀ p n, v.nodeOwner p n = s.nodeOwner p n := fun p n => by
    unfold nodeOwner
    rw [k.fld _ _ (by simp [landing, counts])]
  unfold Blk.queueFor nodeFor
  simp only [ho, namedNode] <;> rfl

theorem sprayDepth (hp : v.placed = s.placed) (t m c n : Nat) : v.sprayDepth t m c n = s.sprayDepth t m c n := by
  have hnow : v.placedNow t = s.placedNow t := by
    unfold placedNow
    rw [hp, k.eq]
  unfold Blk.sprayDepth
  simp only [k.queueFor, hnow, k.fld .FLD_SUB_DEPTH_cells _ (by simp [landing, counts])]

theorem nextFrame : v.nextFrame = s.nextFrame + 1 := by rw [k.eq]

theorem copies : v.copies = s.copies := by rw [k.eq]

theorem bsl (d : Nat) : v.bsl d = s.bsl d := by
  unfold Blk.bsl
  rw [k.eq]

theorem frames : v.frames = s.frames.put s.nextFrame r := by rw [k.eq]

theorem frame? : v.frame? s.nextFrame = some r := by
  unfold Blk.frame?
  rw [k.frames, Tab.find_put_self]

end Reads

end Pending

/-! ### Landing -/

/-- A good link word is one that came, and its check fits. -/
theorem goodWord_any {w : Option (BitVec 48)} {p : Nat → Bool} (h : (goodWord w).any p = true) :
    ∃ x : BitVec 48, w = some x ∧ goodWord (some x) = some x.toNat ∧ p x.toNat = true := by
  obtain ⟨n, hn, hp⟩ := (Option.any_eq_true _ _).mp h
  obtain ⟨x, hx, rfl⟩ := Option.map_eq_some_iff.mp hn
  obtain ⟨rfl, -⟩ := Option.filter_eq_some_iff.mp hx
  exact ⟨x, rfl, hn, hp⟩

theorem Landing.landClass (h : Landing s u) : u.landClass l f img = s.landClass l f img := by
  have hx : u.isXeirrik (tileOf l) f = s.isXeirrik (tileOf l) f := by
    unfold isXeirrik
    rw [h.2 _ _ (by simp [landing, counts])]
  have hs : u.staketu l = s.staketu l := h.flag (by simp [landing, counts]) l
  unfold Blk.landClass queueClass linkClass
  rw [hx, hs]

/-- A whole frame lands alone of its link. -/
theorem Landing.pending (h : Landing s u) (hfree : ∀ d < 4, s.copy? (4 * s.nextFrame + d) = none)
    (halone : ∀ kv ∈ s.frames, kv.2.link ≠ some l) (early : Nat) :
    ∃ r, Pending s (u.landed l f img early) l f r ∧ (u.landed l f img early).placed = s.placed := by
  have k := h.staged (staged_landed u l f img early)
  refine ⟨_, ⟨?_, k.fld, k.link, k.tile, k.whole, k.dest, rfl, linkClass_lt u l f img.cls, hfree, halone⟩, ?_⟩
  · have heq := k.eq
    rw [heq]
  · rw [k.eq]

theorem Landing.landFrame (h : Landing s u) (early : Nat) : u.landFrame l f true img true early =
    ((u.landed l f img early).routeFrame s.nextFrame l (s.landClass l f img) img f).finishFrame s.nextFrame := by
  have hn : u.nextFrame = s.nextFrame := by rw [h.1]
  rw [landFrame_whole, h.landClass, hn]

end Blk

open Blk

/-- A frame comes: it lands, its pipeline decides it, and it ends its stay or waits; in Staketu mode the link then awaits the next. -/
theorem runs_comes {s : State} {l : LinkId} {w : Option (BitVec 48)} {f : Frame} {img : ImageClass} {P : State → Prop}
    (h : Comes s l w f img) (hlinks : ∀ (b : Blk) x, P { s with blk := b } → P { s with blk := { b with links := x } })
    (hP : ∀ v r, Pending s.blk v l f r → v.placed = s.blk.placed → P { s with blk :=
      (v.routeFrame s.blk.nextFrame l (s.blk.landClass l f img) img f).finishFrame s.blk.nextFrame }) :
    Runs (.frameReceived l w f goodArrival img) s P := by
  obtain ⟨he, hs, hlcf, hpfc, -, -, -, hfree, halone, hmode⟩ := h
  rcases hmode with ⟨hm, rfl⟩ | ⟨hm, hr, hu, ha, hp, hw⟩
  · have hland : Landing s.blk (s.blk.counted l none f goodArrival) := landing_counted
    obtain ⟨r, hr, hplaced⟩ := hland.pending (f := f) (img := img) hfree halone 0
    refine runs_received (b := (s.blk.counted l none f goodArrival).landFrame l f true img true 0) ?_ ?_
    · rw [frameReceived_up he hs rfl hlcf, hm, if_neg Bool.false_ne_true]
      unfold ethernetFrame
      exact if_neg hpfc
    · rw [hland.landFrame]
      exact hP _ _ hr hplaced
  · obtain ⟨w, rfl, hgood, hnak, hlsn⟩ : ∃ x : BitVec 48, w = some x ∧ goodWord (some x) = some x.toNat ∧
        x.toNat.testBit 21 = false ∧ bits x.toNat 47 35 = (s.blk.link l).nextLsn := by
      obtain ⟨x, hx, hgood, hany⟩ := goodWord_any hw
      exact ⟨x, hx, hgood, by simpa using hany⟩
    obtain ⟨u, htaken, heq⟩ := DataFrame.frameReceived (a := goodArrival) (img := img)
      ⟨he, hs, hm, hr, hlcf, hgood, hnak, hu, ha, hp, rfl⟩
    obtain ⟨r, hr, hplaced⟩ := htaken.landing.pending (f := f) (img := img) hfree halone (u.link l).early
    have haccept : u.acceptFrame l f goodArrival img = (u.landFrame l f true img true (u.link l).early).deliveredLsn l := rfl
    have hnext : ∀ b : Blk, b.deliveredLsn l = { b with links := (b.deliveredLsn l).links } := fun _ => rfl
    rw [lsnAhead_of_turn hlsn, if_neg (by decide), if_pos rfl, if_neg (by decide), haccept, hnext, htaken.landing.landFrame] at heq
    exact runs_received heq (hlinks _ _ (hP _ _ hr hplaced))

end Sys2Proof.Machine
end

section
/-!
PROOF. What becomes of a frame alone of its link once its pipeline has decided it: dropped, it leaves staging (R121); its copies ask for
admission, and nothing else is offered (R112, R126 to R128, R154).
-/

namespace Sys2Proof.Machine

theorem Tab.mem_put {α : Type} {t : Tab α} {k : Nat} {v : α} {kv : Nat × α} (h : kv ∈ t.put k v) : kv = (k, v) ∨ kv ∈ t := by
  induction t with
  | nil => exact .inl (List.mem_singleton.mp h)
  | cons a t ih =>
    unfold Tab.put at h
    split_ifs at h
    · rcases List.mem_cons.mp h with h | h
      · exact .inl h
      · exact .inr (List.mem_cons_of_mem _ h)
    · exact List.mem_cons.mp h
    · rcases List.mem_cons.mp h with h | h
      · exact .inr (h ▸ List.mem_cons_self)
      · exact (ih h).imp_right (List.mem_cons_of_mem _)

theorem Tab.mem_del {α : Type} {t : Tab α} {k : Nat} {kv : Nat × α} (h : kv ∈ t.del k) : kv ∈ t ∧ kv.1 ≠ k := by
  induction t with
  | nil => exact absurd h List.not_mem_nil
  | cons a t ih =>
    unfold Tab.del at h
    split_ifs at h with hk
    · exact (ih h).imp_left (List.mem_cons_of_mem _)
    · rcases List.mem_cons.mp h with rfl | h
      · exact ⟨List.mem_cons_self, hk⟩
      · exact (ih h).imp_left (List.mem_cons_of_mem _)

theorem Tab.mem_of_find {α : Type} {t : Tab α} {k : Nat} {v : α} (h : t.find k = some v) : (k, v) ∈ t := by
  induction t with
  | nil => simp [Tab.find] at h
  | cons a t ih =>
    unfold Tab.find at h
    split_ifs at h with hk
    · obtain rfl := Option.some.inj h
      exact hk ▸ List.mem_cons_self
    · exact List.mem_cons_of_mem _ (ih h)

namespace Blk

variable {s t u v w : Blk} {l fid : Nat} {f : Frame} {r : FrameRec}

/-! ### What the keeping of staging and of traces leaves -/

/-- The register fields that a frame's stay in staging and its trace may change. -/
def tidying (g : Fld) : Prop := landing g ∨ g = .JSP_TRC_LOST_count ∨ g = .JSP_INT_trc_lost

/-- From `s` to `t` staging and the trace records may have changed; the copies and the books of Basalt have not. -/
structure Tidied (s t : Blk) : Prop where
  copies : t.copies = s.copies
  basalt : t.basalt = s.basalt
  nextFrame : t.nextFrame = s.nextFrame
  fld : ∀ f i, ¬ tidying f → t.fld f i = s.fld f i

namespace Tidied

theorem refl (s : Blk) : Tidied s s := ⟨rfl, rfl, rfl, fun _ _ _ => rfl⟩

theorem trans (h : Tidied s t) (k : Tidied t u) : Tidied s u :=
  ⟨k.copies.trans h.copies, k.basalt.trans h.basalt, k.nextFrame.trans h.nextFrame,
    fun f i hf => (k.fld f i hf).trans (h.fld f i hf)⟩

theorem of_landing (h : Landing s t) : Tidied s t := by
  refine ⟨?_, ?_, ?_, fun f i hf => h.2 f i fun k => hf (.inl k)⟩ <;> rw [h.1]

theorem of_within (h : Within s t fun f _ => tidying f) : Tidied s t := by
  have ht := h.1
  unfold FldsOut at ht
  refine ⟨?_, ?_, ?_, h.2⟩ <;> rw [ht]

theorem putFrame (k : Nat) (r : FrameRec) : Tidied s (s.putFrame k r) := ⟨rfl, rfl, rfl, fun _ _ _ => rfl⟩
theorem delFrame (k : Nat) : Tidied s (s.delFrame k) := ⟨rfl, rfl, rfl, fun _ _ _ => rfl⟩

theorem releaseStaging (tile : Nat) (link : Option Nat) (c n : Nat) : Tidied s (s.releaseStaging tile link c n) :=
  of_landing (.releaseStaging _ _ _ _)

theorem traceOut (tag : Option TraceTag) (kind point reason out : Nat) (enq : Option (Nat × Nat)) (sel sent : Option Nat) :
    Tidied s (s.traceOut tag kind point reason out enq sel sent) := by
  have hcounts : ∀ g : Fld, counts g → tidying g := fun g h => .inl (.inl h)
  unfold Blk.traceOut
  split
  · exact refl s
  · dsimp only
    split
    · refine of_within ((Within.count _ _ _ _ (fun g _ => hcounts g) (.inr (.inl rfl))).trans
        (Within.raise _ _ _ (fun g hg => ?_) (.inr (.inr rfl))))
      exact hcounts g (by rcases hg with rfl | rfl <;> simp [counts])
    · unfold traceTimes
      split <;> exact ⟨rfl, rfl, rfl, fun _ _ _ => rfl⟩

theorem traceFrame (fid point reason : Nat) : Tidied s (s.traceFrame fid point reason) := by
  unfold Blk.traceFrame
  split
  · exact refl s
  · exact (traceOut _ _ _ _ _ _ _ _).trans (putFrame _ _)

theorem settle (fid : Nat) : Tidied s (s.settle fid) := by
  unfold Blk.settle
  split
  · exact refl s
  · dsimp only
    split
    · split
      · exact ((releaseStaging _ _ _ _).trans (putFrame _ _)).trans (delFrame _)
      · exact (releaseStaging _ _ _ _).trans (putFrame _ _)
    · exact refl s

theorem voidFrame (fid : Nat) : Tidied s (s.voidFrame fid) := by
  unfold Blk.voidFrame
  split
  · exact refl s
  · exact ((releaseStaging _ _ _ _).trans (putFrame _ _)).trans (settle _)

theorem copy? (h : Tidied s t) (key : Nat) : t.copy? key = s.copy? key := by
  unfold Blk.copy?
  rw [h.copies]

theorem bsl (h : Tidied s t) (d : Nat) : t.bsl d = s.bsl d := by
  unfold Blk.bsl
  rw [h.basalt]

end Tidied

/-! ### Frames that leave staging -/

theorem frames_releaseStaging (tile : Nat) (link : Option Nat) (c n : Nat) : (s.releaseStaging tile link c n).frames = s.frames :=
  (Landing.releaseStaging _ _ _ _).frames

theorem frame_traceFrame (h : s.frame? fid = some r) (point reason : Nat) :
    (s.traceFrame fid point reason).frame? fid = some { r with tag := none } := by
  unfold traceFrame
  rw [h, frame_putFrame_self]

/-- Every copy that a frame has is wholly in Basalt. -/
def allWritten (s : Blk) (fid : Nat) : Bool := (List.range 4).all fun d => (s.copy? (4 * fid + d)).all fun c => c.phase = .written

/-- The cells of a frame that no copy needs in staging. -/
def doneCells (s : Blk) (fid : Nat) (r : FrameRec) : Nat :=
  (List.range 4).foldl (fun m d => min m (s.copyDone (4 * fid + d) r.cells)) r.cells

theorem settle_eq (h : s.frame? fid = some r) (hd : r.dest = .copies) : s.settle fid =
    let u := (s.releaseStaging r.tile r.link r.cls (s.doneCells fid r - r.freed)).putFrame fid
      { r with freed := max (s.doneCells fid r) r.freed }
    if (r.whole && s.allWritten fid) = true then u.delFrame fid else u := by
  unfold settle
  rw [h]
  dsimp only
  rw [if_pos hd]
  refine if_congr ?_ rfl rfl
  have hall : ∀ u : Blk, u.copies = s.copies → ((List.range 4).all fun d => match u.copy? (4 * fid + d) with
      | none => true
      | some c => decide (c.phase = .written)) = s.allWritten fid := fun u hu => by
    unfold allWritten copy?
    rw [hu]
    congr 1
    funext d
    cases s.copies.find (4 * fid + d) <;> rfl
  rw [← hall _ (Tidied.releaseStaging _ _ _ _).copies]
  rfl

/-- A frame of copies is forgotten once it is whole and every copy has left it; before, only its freed cells change. -/
theorem settle_frames (h : s.frame? fid = some r) (hd : r.dest = .copies) : ∃ x, (s.settle fid).frames =
    if (r.whole && s.allWritten fid) = true then (s.frames.put fid { r with freed := x }).del fid
    else s.frames.put fid { r with freed := x } := by
  refine ⟨max (s.doneCells fid r) r.freed, ?_⟩
  rw [settle_eq h hd, ← frames_releaseStaging (s := s) r.tile r.link r.cls (s.doneCells fid r - r.freed)]
  exact apply_ite Blk.frames ((r.whole && s.allWritten fid) = true) _ _

theorem settle_forgets (h : s.frame? fid = some r) (hd : r.dest = .copies) (hw : r.whole = true)
    (hc : ∀ d < 4, s.copy? (4 * fid + d) = none) : ∃ x, (s.settle fid).frames = (s.frames.put fid { r with freed := x }).del fid := by
  obtain ⟨x, hx⟩ := settle_frames h hd
  refine ⟨x, hx.trans (if_pos ?_)⟩
  rw [hw, Bool.true_and, allWritten, List.all_eq_true]
  intro d hd
  rw [hc d (List.mem_range.mp hd)]
  rfl

theorem voidFrame_forgets (h : s.frame? fid = some r) (hw : r.whole = true) (hc : ∀ d < 4, s.copy? (4 * fid + d) = none) :
    (s.voidFrame fid).frame? fid = none := by
  unfold voidFrame
  rw [h]
  dsimp only
  obtain ⟨x, hx⟩ := settle_forgets (s := (s.releaseStaging r.tile r.link r.cls (r.cells - r.freed)).putFrame fid
    { r with freed := r.cells, dest := .copies, void := true, tag := none }) frame_putFrame_self rfl hw fun d hd =>
      ((Tidied.releaseStaging _ _ _ _).copy? _).trans (hc d hd)
  unfold frame?
  rw [hx, Tab.find_del_self]

/-- No copy of a frame of link `l` is held: nothing is offered for admission. -/
def Quiet (s : Blk) (l : Nat) : Prop := ∀ kv ∈ s.frames, kv.2.link = some l → ∀ kc ∈ s.copiesOf kv.1, kc.2.phase ≠ .held

theorem copiesOf_congr (h : t.copies = s.copies) (fid : Nat) : t.copiesOf fid = s.copiesOf fid := by
  unfold copiesOf copy?
  rw [h]

theorem Quiet.settle (h : s.Quiet l) (fid : Nat) : (s.settle fid).Quiet l := by
  have hmem : ∀ kv ∈ (s.settle fid).frames, kv.2.link = some l → ∃ x, (kv.1, x) ∈ s.frames ∧ x.link = some l := by
    intro kv
    cases hf : s.frame? fid with
    | none =>
      unfold Blk.settle
      rw [hf]
      exact fun hkv hl => ⟨kv.2, hkv, hl⟩
    | some r =>
      have hput : ∀ x, kv ∈ s.frames.put fid { r with freed := x } → kv.2.link = some l →
          ∃ x, (kv.1, x) ∈ s.frames ∧ x.link = some l := fun x hkv hl => by
        rcases Tab.mem_put hkv with rfl | hkv
        · exact ⟨r, Tab.mem_of_find hf, hl⟩
        · exact ⟨kv.2, hkv, hl⟩
      by_cases hd : r.dest = .copies
      · obtain ⟨x, hx⟩ := settle_frames hf hd
        rw [hx]
        split
        · exact fun hkv => hput x (Tab.mem_del hkv).1
        · exact hput x
      · unfold Blk.settle
        rw [hf]
        dsimp only
        rw [if_neg hd]
        exact fun hkv hl => ⟨kv.2, hkv, hl⟩
  intro kv hkv hl
  obtain ⟨x, hx, hxl⟩ := hmem kv hkv hl
  rw [copiesOf_congr (Tidied.settle fid).copies]
  exact h (kv.1, x) hx hxl

theorem foldl_held {kcs : List (Nat × CopyRec)} (h : ∀ kc ∈ kcs, kc.2.phase ≠ .held) (s : Blk) :
    kcs.foldl (fun s kc => if kc.2.phase = .held then s.ask kc.1 else s) s = s := by
  induction kcs with
  | nil => rfl
  | cons kc kcs ih =>
    obtain ⟨hkc, hkcs⟩ := List.forall_mem_cons.mp h
    rw [List.foldl_cons, if_neg hkc, ih hkcs]

theorem offerUpTo_quiet (h : s.Quiet l) (n c : Nat) : s.offerUpTo n l c = s := by
  cases n with
  | zero => rfl
  | succ n =>
    unfold offerUpTo
    dsimp only
    split
    · rfl
    next fid r hfind =>
      have hmem := List.mem_filter.mp (List.mem_of_find?_eq_some hfind)
      have hl : r.link = some l := by
        have hp := hmem.2
        simp only [Bool.and_eq_true, decide_eq_true_eq] at hp
        exact hp.1.1
      have hany := List.find?_some hfind
      rw [foldl_held (h _ hmem.1 hl), if_pos hany, ite_self]

theorem offerAfter_quiet (h : s.Quiet l) : s.offerAfter (some l) = s := by
  have hfold : ∀ cs : List Nat, cs.foldl (fun s c => s.offer l c) s = s := fun cs => by
    induction cs with
    | nil => rfl
    | cons c cs ih => rw [List.foldl_cons, show s.offer l c = s from offerUpTo_quiet h _ _, ih]
  exact hfold _

/-- The stay of a frame of which nothing is left to offer. -/
theorem finishFrame_quiet (h : s.frame? fid = some r) (hd : r.dest = .copies) (hl : r.link = some l) (hq : s.Quiet l) :
    s.finishFrame fid = s.settle fid := by
  rw [finishFrame_of_some h, hd, if_neg (by simp)]
  unfold tailDone
  rw [hd, hl]
  exact offerAfter_quiet (hq.settle fid)

/-! ### One frame is offered -/

/-- Frame `fid`, of class `c`, whole, is the one frame of link `l` in staging. -/
structure Alone (s : Blk) (l fid c : Nat) : Prop where
  mem : ∃ r, (fid, r) ∈ s.frames ∧ r.link = some l ∧ r.cls = c ∧ r.dest = .copies
  only : ∀ kv ∈ s.frames, kv.2.link = some l → kv.1 = fid ∧ kv.2.cls = c ∧ kv.2.whole = true

/-- The copies of a frame that are held ask for admission. -/
def askAll (s : Blk) (fid : Nat) : Blk := (s.copiesOf fid).foldl (fun s kc => if kc.2.phase = .held then s.ask kc.1 else s) s

theorem heldBack_alone (h : s.Alone l fid c) (hl : r.link = some l) : s.heldBack fid r = false := by
  unfold heldBack
  simp only [List.any_eq_false, Bool.and_eq_true, decide_eq_true_eq, not_and]
  intro f _ hlt
  cases hf : s.frame? f with
  | none => simp
  | some x =>
    have hne : x.link ≠ some l := fun hx => by
      have := (h.only _ (Tab.mem_of_find hf) hx).1
      dsimp only at this
      omega
    simp [hl, hne]

theorem offer_alone (h : s.Alone l fid c) (hu : (s.copiesOf fid).any (fun kc => undecided kc.2) = true)
    (hq : (s.askAll fid).Quiet l) : s.offer l c = s.askAll fid := by
  obtain ⟨r, hmem, hl, hc, hd⟩ := h.mem
  obtain ⟨n, hn⟩ : ∃ n, s.frames.length = n + 1 := Nat.exists_eq_add_one.mpr (List.length_pos_of_mem hmem)
  unfold offer
  rw [hn]
  unfold offerUpTo
  dsimp only
  split
  next hnone =>
    have := List.find?_eq_none.mp hnone (fid, r) (List.mem_filter.mpr ⟨hmem, by simp [hl, hc, hd]⟩)
    exact absurd hu this
  next fid' r' hfind =>
    obtain ⟨hmem', hp⟩ := List.mem_filter.mp (List.mem_of_find?_eq_some hfind)
    simp only [Bool.and_eq_true, decide_eq_true_eq] at hp
    obtain ⟨rfl, -, hw⟩ := h.only _ hmem' hp.1.1
    dsimp only at hw
    rw [if_pos (by rw [hw, heldBack_alone h hp.1.1]; rfl)]
    change (if ((s.askAll fid').copiesOf fid').any _ = true then s.askAll fid' else _) = _
    split
    · rfl
    · exact offerUpTo_quiet hq _ _

theorem offer_other {c d : Nat} (h : s.Alone l fid c) (hd : d ≠ c) : s.offer l d = s := by
  have hnone : (s.frames.filter fun kv => kv.2.link = some l && kv.2.cls = d && kv.2.dest = .copies) = [] := by
    rw [List.filter_eq_nil_iff]
    intro kv hkv
    simp only [Bool.and_eq_true, decide_eq_true_eq, not_and]
    intro hl _
    exact hd (hl.2.symm.trans (h.only kv hkv hl.1).2.1)
  unfold offer
  cases s.frames.length with
  | zero => rfl
  | succ n =>
    unfold offerUpTo
    dsimp only
    rw [hnone]
    rfl

theorem offerAfter_alone {c : Nat} (h : s.Alone l fid c) (hc : c < 8) (hu : (s.copiesOf fid).any (fun kc => undecided kc.2) = true)
    (hq : (s.askAll fid).Quiet l) : s.offerAfter (some l) = s.askAll fid := by
  have hrest : ∀ cs : List Nat, cs.foldl (fun s c => s.offer l c) (s.askAll fid) = s.askAll fid := fun cs => by
    induction cs with
    | nil => rfl
    | cons d cs ih => rw [List.foldl_cons, show (s.askAll fid).offer l d = s.askAll fid from offerUpTo_quiet hq _ _, ih]
  have hfold : ∀ cs : List Nat, c ∈ cs → cs.foldl (fun s c => s.offer l c) s = s.askAll fid := fun cs => by
    induction cs with
    | nil => exact fun hmem => absurd hmem List.not_mem_nil
    | cons d cs ih =>
      intro hmem
      rw [List.foldl_cons]
      by_cases hdc : d = c
      · rw [hdc, offer_alone h hu hq, hrest]
      · rw [offer_other h hdc, ih ((List.mem_cons.mp hmem).resolve_left (Ne.symm hdc))]
  exact hfold _ (List.mem_range.mpr hc)

end Blk

end Sys2Proof.Machine
end

section
/-!
PROOF. What becomes of a frame that has come, by its pipeline's decision (R87, R112, R121, R126 to R128, R154).
-/

namespace Sys2Proof.Machine

namespace Blk

variable {s t u v w : Blk} {l fid key : Nat} {f f' : Frame} {img : ImageClass} {r : FrameRec} {x : CopyRec}

/-! ### Copies are made -/

/-- A copy as it is made (R112). -/
def newCopy (l : Nat) (target : Target) (f : Frame) (cls : Nat) (node : NodeSrc) (tag : Option TraceTag) : CopyRec :=
  { frame := f, cls := cls, node := node, target := target, inLink := some l, tile := tileOf l,
    ncells := cellsOf (frameLen f), phase := .held, stalled := false, sent := 0, landed := 0, wrote := 0, todo := [],
    refs := 0, cells := [], enqueued := false, first := false, turned := false, ftag := 0, chkFail := false, short := false,
    tag := tag, tx := none, ts := false }

/-- The dies for which a frame of a link has a copy (R88, R112). -/
def copyDies (s : Blk) (l : Nat) (target : Target) : List Nat := (List.range 4).filter fun d =>
  (s.legsBy (dieOfTile (tileOf l)) d target).any fun (x : Leg) => some l ≠ some x.1 || s.mayReflect (dieOfTile (tileOf l)) target

/-- The copy of each of these dies is listed. -/
def copied (s : Blk) (fid : Nat) (dies : List Nat) (x : CopyRec) : Blk := dies.foldl (fun s d => s.putCopy (4 * fid + d) x) s

theorem copied_eq (s : Blk) (fid : Nat) (dies : List Nat) (x : CopyRec) : s.copied fid dies x =
    { s with copies := (s.copied fid dies x).copies } := by
  unfold copied
  induction dies generalizing s with
  | nil => rfl
  | cons d dies ih => exact ih (s.putCopy (4 * fid + d) x)

theorem copy_copied (s : Blk) (fid : Nat) (dies : List Nat) (x : CopyRec) (d : Nat) : (s.copied fid dies x).copy? (4 * fid + d) =
    if d ∈ dies then some x else s.copy? (4 * fid + d) := by
  induction dies generalizing s with
  | nil => rfl
  | cons e dies ih =>
    rw [show s.copied fid (e :: dies) x = (s.putCopy (4 * fid + e) x).copied fid dies x from rfl, ih, copy_putCopy]
    by_cases hd : d ∈ dies
    · simp [hd]
    · by_cases hde : d = e
      · simp [hde]
      · simp [hd, hde]

theorem makeCopies_of_link (target : Target) (f' : Frame) (c n : Nat) : u.makeCopies fid target f' c (.image n) (some l) (tileOf l) false =
    let w := u.copied fid (u.copyDies l target) (newCopy l target f' c (.image n) ((u.frame? fid).bind FrameRec.tag))
    if u.copyDies l target = [] then w.settle fid else w.offerAfter (some l) := by
  have hfold : ∀ (dies : List Nat) (b : Blk), b.frame? fid = u.frame? fid → dies.foldl (fun s d => s.putCopy (4 * fid + d)
      (newCopy l target f' c (.image n) ((s.frame? fid).bind FrameRec.tag))) b =
      b.copied fid dies (newCopy l target f' c (.image n) ((u.frame? fid).bind FrameRec.tag)) := fun dies => by
    induction dies with
    | nil => exact fun _ _ => rfl
    | cons d dies ih =>
      intro b hb
      rw [List.foldl_cons, hb]
      exact ih _ hb
  rw [← hfold _ _ rfl]
  rfl

/-! ### Copies ask -/

/-- A copy that has asked its die's allocator, or is to cross first (R128). -/
def asking (key : Nat) (x : CopyRec) : CopyRec := { x with phase := if dieOfTile x.tile = key % 4 then .asked else .toCross }

theorem ask_local (h : s.copy? key = some x) (hd : dieOfTile x.tile = key % 4) : s.ask key =
    (s.putCopy key (asking key x)).updBsl (key % 4) fun b => { b with requests := b.requests ++ [(x.tile, .copy key)] } := by
  unfold ask asking
  rw [h]
  dsimp only
  rw [if_pos hd, if_pos hd]

theorem ask_across (h : s.copy? key = some x) (hd : dieOfTile x.tile ≠ key % 4)
    (hlive : s.liveLinks (dirOf (dieOfTile x.tile) (key % 4)) ≠ 0) : s.ask key = s.putCopy key (asking key x) := by
  unfold ask asking
  rw [h]
  dsimp only
  rw [if_neg hd, if_neg hlive, if_neg hd]

theorem ask_down (h : s.copy? key = some x) (hd : dieOfTile x.tile ≠ key % 4)
    (hlive : s.liveLinks (dirOf (dieOfTile x.tile) (key % 4)) = 0) : s.ask key =
      ((s.traceDrop key 2 2).discardCopy key).count .BSL_DROP_PAIRDOWN_count (dieOfTile x.tile) 1 := by
  unfold ask
  rw [h]
  dsimp only
  rw [if_neg hd, if_pos hlive]

/-- From `s` to `w` copies with these keys have asked for admission, and no frame has changed. -/
structure Asked (s w : Blk) (keys : List Nat) : Prop where
  copy : ∀ k, w.copy? k = if k ∈ keys then (s.copy? k).map (asking k) else s.copy? k
  frames : w.frames = s.frames
  fields : w.fields = s.fields
  nextFrame : w.nextFrame = s.nextFrame

theorem asked_ask (h : s.copy? key = some x)
    (hlive : dieOfTile x.tile = key % 4 ∨ s.liveLinks (dirOf (dieOfTile x.tile) (key % 4)) ≠ 0) : Asked s (s.ask key) [key] := by
  have hput : ∀ k, (s.putCopy key (asking key x)).copy? k = if k ∈ [key] then (s.copy? k).map (asking k) else s.copy? k := fun k => by
    rw [copy_putCopy]
    by_cases hk : k = key
    · simp [hk, h]
    · simp [hk]
  by_cases hd : dieOfTile x.tile = key % 4
  · rw [ask_local h hd]
    exact ⟨hput, rfl, rfl, rfl⟩
  · rw [ask_across h hd (hlive.resolve_left hd)]
    exact ⟨hput, rfl, rfl, rfl⟩

theorem Asked.trans {ks ks' : List Nat} (h : Asked s t ks) (k : Asked t u ks') : Asked s u (ks ++ ks') := by
  refine ⟨fun key => ?_, k.frames.trans h.frames, k.fields.trans h.fields, k.nextFrame.trans h.nextFrame⟩
  rw [k.copy, h.copy]
  have hagain : ∀ x, asking key (asking key x) = asking key x := fun _ => rfl
  by_cases hk : key ∈ ks <;> by_cases hk' : key ∈ ks' <;> simp [hk, hk', hagain, Function.comp_def]

theorem dirOf_lt (a b : Nat) : dirOf a b < 12 := by
  have h : pairOf a b ≤ 5 := by
    unfold pairOf
    split <;> omega
  unfold dirOf
  split <;> omega

/-- Where every pair is live, the copies of all dies ask. -/
theorem asked_foldl {dies : List Nat} (hlive : ∀ k < 12, 0 < s.liveLinks k) (h : ∀ d ∈ dies, (s.copy? (4 * fid + d)).isSome = true) :
    Asked s (dies.foldl (fun s d => s.ask (4 * fid + d)) s) (dies.map (4 * fid + ·)) := by
  induction dies generalizing s with
  | nil => exact ⟨fun _ => rfl, rfl, rfl, rfl⟩
  | cons d dies ih =>
    obtain ⟨hd, hdies⟩ := List.forall_mem_cons.mp h
    obtain ⟨x, hx⟩ := Option.isSome_iff_exists.mp hd
    have hask := asked_ask hx (.inr (hlive _ (dirOf_lt _ _)).ne')
    refine hask.trans (ih (fun k hk => ?_) fun e he => ?_)
    · have : (s.ask (4 * fid + d)).liveLinks k = s.liveLinks k := by
        unfold liveLinks fld
        rw [hask.fields]
      rw [this]
      exact hlive k hk
    · rw [hask.copy]
      split
      · rw [Option.isSome_map]
        exact hdies e he
      · exact hdies e he

/-! ### The copies of a frame that waits -/

section Waiting

variable {c n : Nat} {target : Target} {tag : Option TraceTag}

/-- A frame that waits is the one frame of its link. -/
theorem Pending.alone_copied (k : Pending s u l f r) (dies : List Nat) (x : CopyRec) :
    (u.copied s.nextFrame dies x).Alone l s.nextFrame r.cls := by
  have hf : (u.copied s.nextFrame dies x).frames = s.frames.put s.nextFrame r := by rw [copied_eq, ← k.frames]
  constructor
  · exact ⟨r, by rw [hf]; exact Tab.mem_of_find (Tab.find_put_self _ _ _), k.link, rfl, k.dest⟩
  · intro kv hkv hl
    rw [hf] at hkv
    rcases Tab.mem_put hkv with rfl | hkv
    · exact ⟨rfl, rfl, k.whole⟩
    · exact absurd hl (k.alone kv hkv)

theorem Pending.copy_copied (k : Pending s u l f r) (dies : List Nat) (x : CopyRec) {d : Nat} (hd : d < 4) :
    (u.copied s.nextFrame dies x).copy? (4 * s.nextFrame + d) = if d ∈ dies then some x else none := by
  rw [Blk.copy_copied]
  refine if_congr Iff.rfl rfl ?_
  unfold copy?
  rw [k.copies]
  exact k.free d hd

/-- The copies of a frame that waits are those made, and all are held. -/
theorem Pending.copiesOf_copied (k : Pending s u l f r) (x : CopyRec) :
    (u.copied s.nextFrame (u.copyDies l target) x).copiesOf s.nextFrame =
      (u.copyDies l target).map fun d => (4 * s.nextFrame + d, x) := by
  have hp : ∀ p : Nat → Bool, (u.copied s.nextFrame ((List.range 4).filter p) x).copiesOf s.nextFrame =
      ((List.range 4).filter p).map fun d => (4 * s.nextFrame + d, x) := fun p => by
    unfold copiesOf
    rw [← List.filterMap_eq_map', List.filterMap_filter]
    refine List.filterMap_congr fun d hd => ?_
    rw [k.copy_copied _ _ (List.mem_range.mp hd)]
    by_cases hp : p d = true <;> simp [hp, List.mem_range.mp hd]
  exact hp _

theorem Pending.askAll_copied (k : Pending s u l f r) (hx : x.phase = .held) :
    (u.copied s.nextFrame (u.copyDies l target) x).askAll s.nextFrame =
      (u.copyDies l target).foldl (fun b d => b.ask (4 * s.nextFrame + d)) (u.copied s.nextFrame (u.copyDies l target) x) := by
  unfold askAll
  rw [k.copiesOf_copied, List.foldl_map]
  simp only [hx, if_true]

theorem Pending.undecided_copied (k : Pending s u l f r) (hx : x.phase = .held) (hne : u.copyDies l target ≠ []) :
    ((u.copied s.nextFrame (u.copyDies l target) x).copiesOf s.nextFrame).any (fun kc => undecided kc.2) = true := by
  rw [k.copiesOf_copied, List.any_map]
  obtain ⟨d, hd⟩ := List.exists_mem_of_ne_nil _ hne
  exact List.any_eq_true.mpr ⟨d, hd, by simp [undecided, hx]⟩

/-- The copies of a frame that waits have asked, as `w` has it: nothing more is offered, and its stay ends no sooner than theirs. -/
theorem Pending.asked (k : Pending s u l f r) (hx : x.phase = .held) {dies : List Nat} (hdies : u.copyDies l target = dies)
    (hne : dies ≠ []) (hw : dies.foldl (fun b d => b.ask (4 * s.nextFrame + d)) (u.copied s.nextFrame dies x) = w)
    (hask : Asked (u.copied s.nextFrame dies x) w (dies.map (4 * s.nextFrame + ·))) :
    Tidied w (((u.copied s.nextFrame dies x).offerAfter (some l)).finishFrame s.nextFrame) ∧ w.nextFrame = s.nextFrame + 1 ∧
      ∀ d < 4, w.copy? (4 * s.nextFrame + d) = if d ∈ dies then some (asking (4 * s.nextFrame + d) x) else none := by
  subst hdies
  have halone := k.alone_copied (u.copyDies l target) x
  have hcopy : ∀ d < 4, w.copy? (4 * s.nextFrame + d) =
      if d ∈ u.copyDies l target then some (asking (4 * s.nextFrame + d) x) else none := fun d hd => by
    rw [hask.copy, k.copy_copied _ _ hd]
    by_cases hmem : d ∈ u.copyDies l target <;> simp [hmem]
  have hquiet : w.Quiet l := by
    intro kv hkv hl kc hkc
    rw [hask.frames] at hkv
    rw [(halone.only kv hkv hl).1] at hkc
    obtain ⟨d, hd, hmap⟩ := List.mem_filterMap.mp hkc
    obtain ⟨y, hy, rfl⟩ := Option.map_eq_some_iff.mp hmap
    rw [hcopy d (List.mem_range.mp hd)] at hy
    split at hy
    · obtain rfl := Option.some.inj hy
      dsimp only [asking]
      split <;> decide
    · exact absurd hy (by simp)
  have hframe : w.frame? s.nextFrame = some r := by
    unfold Blk.frame?
    rw [hask.frames, copied_eq]
    exact k.frame?
  have hoffer : (u.copied s.nextFrame (u.copyDies l target) x).offerAfter (some l) = w := by
    rw [← hw, ← k.askAll_copied hx]
    refine offerAfter_alone halone k.cls (k.undecided_copied hx hne) ?_
    rw [k.askAll_copied hx, hw]
    exact hquiet
  refine ⟨?_, ?_, hcopy⟩
  · rw [hoffer, finishFrame_quiet hframe k.dest k.link hquiet]
    exact .settle _
  · rw [hask.nextFrame, copied_eq]
    exact k.nextFrame

theorem frames_traceOut (tag : Option TraceTag) (kind point reason out : Nat) (enq : Option (Nat × Nat)) (sel sent : Option Nat) :
    (s.traceOut tag kind point reason out enq sel sent).frames = s.frames := by
  unfold traceOut
  split
  · rfl
  · dsimp only
    split
    · rw [raise_frames, count_frames]
    · unfold traceTimes
      split <;> rfl

theorem frames_traceDrop (key point reason : Nat) : (s.traceDrop key point reason).frames = s.frames := by
  unfold traceDrop
  split
  · rfl
  · exact frames_traceOut _ _ _ _ _ _ _ _

theorem Tidied.traceDrop (key point reason : Nat) : Tidied s (s.traceDrop key point reason) := by
  unfold Blk.traceDrop
  split
  · exact .refl s
  · exact .traceOut _ _ _ _ _ _ _ _

/-- A copy that is not the host's leaves the block, and its frame's staging follows. -/
theorem discardCopy_leaves (h : s.copy? key = some x) (htx : x.tx = none) : ∃ a : Blk,
    s.discardCopy key = (a.delCopy key).settle (key / 4) ∧ a.copies = s.copies ∧ a.frames = s.frames ∧ a.fields = s.fields ∧
    a.nextFrame = s.nextFrame := by
  unfold discardCopy
  rw [h]
  dsimp only
  rw [htx]
  exact ⟨_, rfl, rfl, rfl, rfl, rfl⟩

/-- A frame's one copy asks for a die whose pair is down (R154): copy and frame are discarded, and counted. -/
theorem ask_down_leaves {d : Nat} (hd : d < 4) (h : s.frame? fid = some r) (hdest : r.dest = .copies) (hw : r.whole = true)
    (hcopies : ∀ e < 4, s.copy? (4 * fid + e) = if e ∈ [d] then some x else none) (htx : x.tx = none) (hsrc : dieOfTile x.tile ≠ d)
    (hdown : s.liveLinks (dirOf (dieOfTile x.tile) d) = 0) :
    (∃ y, (s.ask (4 * fid + d)).frames = (s.frames.put fid { r with freed := y }).del fid) ∧
      (s.ask (4 * fid + d)).nextFrame = s.nextFrame ∧ (s.ask (4 * fid + d)).copy? (4 * fid + d) = none ∧
      (s.ask (4 * fid + d)).fld .BSL_DROP_PAIRDOWN_count (dieOfTile x.tile) =
        min (s.fld .BSL_DROP_PAIRDOWN_count (dieOfTile x.tile) + 1) (2 ^ 64 - 1) := by
  have hmod : (4 * fid + d) % 4 = d := by omega
  have hdiv : (4 * fid + d) / 4 = fid := by omega
  have hcopy : s.copy? (4 * fid + d) = some x := (hcopies d hd).trans (if_pos List.mem_cons_self)
  have htraced : Tidied s (s.traceDrop (4 * fid + d) 2 2) := .traceDrop _ _ _
  obtain ⟨a, hdiscard, hacopies, haframes, hafields, hanext⟩ := discardCopy_leaves ((htraced.copy? _).trans hcopy) htx
  set b := a.delCopy (4 * fid + d) with hb
  have hbframes : b.frames = s.frames := haframes.trans (frames_traceDrop _ _ _)
  have hbcopy : ∀ e < 4, b.copy? (4 * fid + e) = none := fun e he => by
    rw [hb, copy_delCopy]
    split
    · rfl
    · unfold copy?
      rw [hacopies]
      refine (htraced.copy? _).trans ((hcopies e he).trans (if_neg ?_))
      rw [List.mem_singleton]
      rintro rfl
      exact absurd rfl ‹_›
  have hbfld : b.fld .BSL_DROP_PAIRDOWN_count (dieOfTile x.tile) = s.fld .BSL_DROP_PAIRDOWN_count (dieOfTile x.tile) :=
    (fld_congr hafields _ _).trans (htraced.fld _ _ (by simp [tidying, landing, counts]))
  obtain ⟨y, hy⟩ := settle_forgets (s := b) (by unfold frame?; rw [hbframes]; exact h) hdest hw hbcopy
  have hsettled : Tidied b (b.settle fid) := .settle _
  rw [ask_down hcopy (by rwa [hmod]) (by rwa [hmod]), hdiscard, hdiv]
  refine ⟨⟨y, ?_⟩, ?_, ?_, ?_⟩
  · rw [count_frames, hy, hbframes]
  · rw [count_nextFrame, hsettled.nextFrame]
    exact hanext.trans htraced.nextFrame
  · unfold copy?
    rw [count_copies]
    exact (hsettled.copy? _).trans (hbcopy d hd)
  · rw [fld_count_self _ _ _ _ (by simp [counts]) rfl, hsettled.fld _ _ (by simp [tidying, landing, counts]), hbfld]

/-- The one copy of a frame that waits is for a die whose pair is down. -/
theorem Pending.down (k : Pending s u l f r) (hx : x.phase = .held) (htx : x.tx = none) {d : Nat} (hd : d < 4)
    (hdies : u.copyDies l target = [d]) (hsrc : dieOfTile x.tile ≠ d) (hdown : s.liveLinks (dirOf (dieOfTile x.tile) d) = 0) :
    let t := ((u.copied s.nextFrame [d] x).offerAfter (some l)).finishFrame s.nextFrame
    t.nextFrame = s.nextFrame + 1 ∧ t.copy? (4 * s.nextFrame + d) = none ∧ t.fld .BSL_DROP_PAIRDOWN_count (dieOfTile x.tile) =
      min (s.fld .BSL_DROP_PAIRDOWN_count (dieOfTile x.tile) + 1) (2 ^ 64 - 1) := by
  have halone := k.alone_copied [d] x
  have hund := k.undecided_copied (target := target) hx (by rw [hdies]; exact List.cons_ne_nil _ _)
  have hask := k.askAll_copied (target := target) hx
  rw [hdies] at hund hask
  have hfld : ∀ g i, ¬ landing g → (u.copied s.nextFrame [d] x).fld g i = s.fld g i := fun g i hg => by
    rw [copied_eq]
    exact k.fld g i hg
  have hlive : (u.copied s.nextFrame [d] x).liveLinks (dirOf (dieOfTile x.tile) d) = 0 := by
    rw [← hdown, ← k.liveLinks, copied_eq]
    rfl
  have hframe : (u.copied s.nextFrame [d] x).frame? s.nextFrame = some r := by
    rw [copied_eq]
    exact k.frame?
  obtain ⟨⟨y, hframes⟩, hnext, hcopy, hcount⟩ := ask_down_leaves hd hframe k.dest k.whole
    (fun e he => k.copy_copied [d] x he) htx hsrc hlive
  rw [List.foldl_cons, List.foldl_nil] at hask
  rw [← hask] at hframes hnext hcopy hcount
  set W := u.copied s.nextFrame [d] x with hW
  have hquiet : (W.askAll s.nextFrame).Quiet l := by
    intro kv hkv hl
    rw [hframes] at hkv
    obtain ⟨hkv, hne⟩ := Tab.mem_del hkv
    rcases Tab.mem_put hkv with rfl | hkv
    · exact absurd rfl hne
    · exact absurd (halone.only kv hkv hl).1 hne
  have hnone : (W.askAll s.nextFrame).frame? s.nextFrame = none := by
    unfold Blk.frame?
    rw [hframes, Tab.find_del_self]
  dsimp only
  rw [offerAfter_alone halone k.cls hund hquiet, finishFrame_of_none hnone, hcount, hfld _ _ (by simp [landing, counts])]
  refine ⟨hnext.trans ?_, hcopy, rfl⟩
  rw [hW, copied_eq]
  exact k.nextFrame

end Waiting

end Blk

end Sys2Proof.Machine
end

section
/-!
PROOF. The ways that a frame which has come may go, by its pipeline's decision: dropped (R121), on to a link, to a group, or to Garnet
(R87, R91, R112).
-/

namespace Sys2Proof.Machine

/-- A link's tile is on the link's die. -/
theorem dieOfTile_tileOf (l : Nat) : dieOfTile (tileOf l) = dieOf l := by
  unfold dieOfTile tileOf dieOf
  omega

namespace Blk

variable {s u v : Blk} {l fid c : Nat} {f f' : Frame} {img : ImageClass} {r : FrameRec} {target : Target}

/-! ### The decision is carried out (R87) -/

theorem verdict_eq (h : img.badWord = none) : v.verdict l c img f = v.pipeline l c img.node.toNat f := by
  unfold verdict
  rw [h]

theorem routeFrame_drop {reason : Nat} (hb : img.badWord = none) (h : v.pipeline l c img.node.toNat f = (.drop reason, u)) :
    v.routeFrame fid l c img f = ((u.countDrop (tileOf l) reason).traceFrame fid 1 reason).voidFrame fid := by
  unfold routeFrame
  rw [verdict_eq hb, h]

theorem routeFrame_send (hb : img.badWord = none) (h : v.pipeline l c img.node.toNat f = (.send target f', u)) :
    v.routeFrame fid l c img f = u.makeCopies fid target f' c (.image img.node.toNat) (some l) (tileOf l) false := by
  unfold routeFrame
  rw [verdict_eq hb, h]

theorem routeFrame_garnet (hb : img.badWord = none) (h : v.pipeline l c img.node.toNat f = (.garnet, u)) (hr : u.frame? fid = some r) :
    v.routeFrame fid l c img f = u.putFrame fid { r with dest := .garnet, why := 0 } := by
  unfold routeFrame
  rw [verdict_eq hb, h]
  dsimp only
  rw [hr]

end Blk

open Blk

section

variable {s : State} {u : Blk} {l c o n : Nat} {f f' : Frame} {r : FrameRec} {target : Target}

/-- A frame that waits is dropped. -/
theorem droppedFor_of_pending (k : Pending s.blk u l f r) (reason : Nat) : DroppedFor s { s with blk :=
    (((u.countDrop (tileOf l) reason).traceFrame s.blk.nextFrame 1 reason).voidFrame s.blk.nextFrame).finishFrame s.blk.nextFrame }
    l reason := by
  set fid := s.blk.nextFrame with hfid
  have hframe : (u.countDrop (tileOf l) reason).frame? fid = some r := by
    rw [← k.frame?]
    unfold countDrop Blk.frame?
    rw [count_frames]
  have htraced : Tidied (u.countDrop (tileOf l) reason) ((u.countDrop (tileOf l) reason).traceFrame fid 1 reason) := .traceFrame _ _ _
  have hcopies : (u.countDrop (tileOf l) reason).copies = s.blk.copies := by
    unfold countDrop
    rw [count_copies, k.copies]
  have hgone := voidFrame_forgets (frame_traceFrame hframe 1 reason) k.whole fun d hd => by
    rw [htraced.copy?]
    unfold copy?
    rw [hcopies]
    exact k.free d hd
  have htidied := htraced.trans (.voidFrame fid)
  rw [finishFrame_of_none hgone]
  refine ⟨?_, htidied.copies.trans hcopies, hgone, ?_⟩
  · rw [htidied.fld _ _ (by simp [tidying, landing, counts])]
    unfold countDrop
    rw [fld_count_self _ _ _ _ (by simp [counts]) rfl, k.fld _ _ (by simp [landing, counts])]
  · rw [htidied.nextFrame]
    unfold countDrop
    rw [count_nextFrame]
    exact k.nextFrame

theorem copyDies_link (u : Blk) (l : Nat) (ho : dieOf o < 4) : u.copyDies l (.link o) = [dieOf o] := by
  have h : u.copyDies l (.link o) = (List.range 4).filter fun d => decide (dieOf o = d) := by
    unfold copyDies legsBy mayReflect
    refine List.filter_congr fun d _ => ?_
    by_cases hd : dieOf o = d <;> simp [hd, plainLeg]
  rw [h]
  generalize dieOf o = d at ho
  interval_cases d <;> rfl

/-- A frame that waits is sent on to a link. -/
theorem sentOn_of_pending (k : Pending s.blk u l f r) (ho : o < 1024) : SentOn s { s with blk :=
    (u.makeCopies s.blk.nextFrame (.link o) f' c (.image n) (some l) (tileOf l) false).finishFrame s.blk.nextFrame } l o c f' := by
  have hd : dieOf o < 4 := by
    unfold dieOf
    omega
  have hdies := copyDies_link u l hd
  have hmod : (4 * s.blk.nextFrame + dieOf o) % 4 = dieOf o := by omega
  rw [makeCopies_of_link, hdies]
  dsimp only
  rw [if_neg (List.cons_ne_nil _ _)]
  set x := newCopy l (.link o) f' c (.image n) ((u.frame? s.blk.nextFrame).bind FrameRec.tag) with hx
  set W := u.copied s.blk.nextFrame [dieOf o] x with hW
  have hcopy : W.copy? (4 * s.blk.nextFrame + dieOf o) = some x := (k.copy_copied _ x hd).trans (if_pos List.mem_cons_self)
  have hlive : ∀ i, W.liveLinks i = s.blk.liveLinks i := fun i => by
    rw [← k.liveLinks, hW, copied_eq]
    rfl
  have hsent : dieOfTile (tileOf l) = dieOf o ∨ s.blk.liveLinks (dirOf (dieOfTile (tileOf l)) (dieOf o)) ≠ 0 → _ := fun h =>
    k.asked (x := x) rfl hdies (List.cons_ne_nil _ _) rfl (asked_ask hcopy (by rw [hmod, hlive]; exact h))
  unfold SentOn
  dsimp only
  by_cases hlocal : dieOf o = dieOfTile (tileOf l)
  · obtain ⟨htidied, hnext, hcopies⟩ := hsent (.inl hlocal.symm)
    have hrequests : ((W.ask (4 * s.blk.nextFrame + dieOf o)).bsl (dieOf o)).requests =
        (s.blk.bsl (dieOf o)).requests ++ [(tileOf l, .copy (4 * s.blk.nextFrame + dieOf o))] := by
      rw [ask_local hcopy (by rw [hmod]; exact hlocal.symm), bsl_updBsl, hmod, if_pos rfl, ← k.bsl, hW, copied_eq]
      rfl
    rw [if_pos hlocal, htidied.nextFrame, htidied.copy?, hcopies _ hd, if_pos List.mem_cons_self, htidied.bsl]
    exact ⟨hnext, rfl, hrequests⟩
  · rw [if_neg hlocal]
    by_cases hdown : s.blk.liveLinks (dirOf (dieOfTile (tileOf l)) (dieOf o)) = 0
    · rw [if_pos hdown]
      exact k.down (x := x) rfl rfl hd hdies (Ne.symm hlocal) hdown
    · obtain ⟨htidied, hnext, hcopies⟩ := hsent (.inr hdown)
      have hphase : (asking (4 * s.blk.nextFrame + dieOf o) x).phase = .toCross := by
        unfold asking
        rw [hmod]
        exact if_neg (Ne.symm hlocal)
      rw [if_neg hdown, htidied.nextFrame, htidied.copy?, hcopies _ hd, if_pos List.mem_cons_self]
      exact ⟨hnext, rfl, congrArg some hphase⟩

/-- Every pair being live, a frame that waits is sent to a group: it has a copy for each die that it is for, and no other. -/
theorem copies_of_pending (k : Pending s.blk u l f r) (hlive : AllLive s) {d : Nat} (hd : d < 4) :
    (((u.makeCopies s.blk.nextFrame target f' c (.image n) (some l) (tileOf l) false).finishFrame s.blk.nextFrame).copy?
      (4 * s.blk.nextFrame + d)).map (fun x => (x.frame, x.cls, x.target)) =
      if d ∈ u.copyDies l target then some (f', c, target) else none := by
  rw [makeCopies_of_link]
  dsimp only
  set x := newCopy l target f' c (.image n) ((u.frame? s.blk.nextFrame).bind FrameRec.tag) with hx
  set W := u.copied s.blk.nextFrame (u.copyDies l target) x with hW
  have hcopy : ∀ e < 4, W.copy? (4 * s.blk.nextFrame + e) = if e ∈ u.copyDies l target then some x else none :=
    fun e he => k.copy_copied _ x he
  by_cases hne : u.copyDies l target = []
  · have hframe : W.frame? s.blk.nextFrame = some r := by
      rw [hW, copied_eq]
      exact k.frame?
    have hnone : ∀ e < 4, W.copy? (4 * s.blk.nextFrame + e) = none := fun e he => by
      rw [hcopy e he, hne]
      rfl
    obtain ⟨y, hy⟩ := settle_forgets hframe k.dest k.whole hnone
    have hgone : (W.settle s.blk.nextFrame).frame? s.blk.nextFrame = none := by
      unfold Blk.frame?
      rw [hy, Tab.find_del_self]
    rw [if_pos hne, finishFrame_of_none hgone, (Tidied.settle _).copy?, hnone d hd, hne]
    rfl
  · have hWlive : ∀ i < 12, 0 < W.liveLinks i := fun i hi => by
      have : W.liveLinks i = s.blk.liveLinks i := by
        rw [← k.liveLinks, hW, copied_eq]
        rfl
      rw [this]
      exact hlive i hi
    obtain ⟨htidied, -, hcopies⟩ := k.asked (x := x) rfl rfl hne rfl (asked_foldl hWlive fun e he => by
      rw [hcopy e (List.mem_range.mp (List.mem_of_mem_filter he)), if_pos he]
      rfl)
    rw [if_neg hne, htidied.copy?, hcopies d hd]
    split <;> rfl

/-- A frame that waits is taken for Garnet, with an opcode that members send. -/
theorem garnet_of_pending (k : Pending s.blk u l f r) (hop : 0x10 ≤ (xHeader f.data).opcode ∧ (xHeader f.data).opcode ≤ 0x13) :
    (((u.putFrame s.blk.nextFrame { r with dest := .garnet, why := 0 }).finishFrame s.blk.nextFrame).frame? s.blk.nextFrame).map
      (fun r => (r.dest, r.frame, r.whole)) = some (.garnet, f, true) := by
  have hframe : (u.putFrame s.blk.nextFrame { r with dest := .garnet, why := 0 }).frame? s.blk.nextFrame =
      some { r with dest := .garnet, why := 0 } := frame_putFrame_self
  have hwaits : ∀ b : Blk, b.tailDone s.blk.nextFrame { r with dest := .garnet, why := 0 } = b := fun b => by
    unfold tailDone
    dsimp only
    rw [k.frame, if_pos (by simpa using hop)]
  rw [finishFrame_of_some hframe, hwaits, ← k.whole, ← k.frame]
  split
  · rw [frame_traceFrame hframe]
    rfl
  · rw [hframe]
    rfl

end

end Sys2Proof.Machine
end

section
/-!
PROOF. Where a Xeirrik frame that comes goes (R85 to R92, R107, R110): the third part of O15, first half.
-/

namespace Sys2Proof.Machine

namespace Blk

variable {s u v : Blk} {l c n : Nat} {f : Frame} {r : FrameRec} {img : ImageClass}

/-! ### The pipeline's branches (R82) -/

section Pipeline

variable (k : Pending s v l f r) (hp : isPtp f = false) (he : s.flag .TIL_FWD_CFG_fwd_en (tileOf l) = true)
include k hp he

theorem Pending.pipeline_xeirrik (hx : s.isXeirrik (tileOf l) f = true) : v.pipeline l c n f = v.xForward l n f := by
  unfold pipeline
  dsimp only
  rw [hp, k.flag (by simp [landing, counts]), he, k.isXeirrik, hx]
  rfl

theorem Pending.pipeline_router {v6 : Bool} (hx : s.isXeirrik (tileOf l) f = false)
    (hm : s.fld .TIL_FWD_RMAC_rmac (tileOf l) ≠ 0) (hd : f.dmac.toNat = s.fld .TIL_FWD_RMAC_rmac (tileOf l))
    (hk : ipKind f = some v6) (hr : s.flag .TIL_FWD_CFG_route_en (tileOf l) = true) :
    v.pipeline l c n f = v.ipForward l c n v6 f := by
  unfold pipeline
  dsimp only
  rw [hp, k.flag (by simp [landing, counts]), he, k.isXeirrik, hx, k.fld _ _ (by simp [landing, counts]), hd, hk,
    k.flag (by simp [landing, counts]), hr]
  simp [hm]

theorem Pending.pipeline_bridge (hx : s.isXeirrik (tileOf l) f = false) (hm : s.fld .TIL_FWD_RMAC_rmac (tileOf l) = 0) :
    v.pipeline l c n f = v.bridge l f := by
  unfold pipeline
  dsimp only
  rw [hp, k.flag (by simp [landing, counts]), he, k.isXeirrik, hx, k.fld _ _ (by simp [landing, counts]), hm]
  rfl

end Pipeline

/-! ### The header (R85) -/

/-- A Xeirrik frame's header is of version 1 and of the frame's length, its tag of the header's class (R85). -/
structure GoodHeader (s : Blk) (l : Nat) (f : Frame) : Prop where
  ver : (xHeader f.data).ver = 1
  length : badLength f = false
  tag : s.badTag l f = false

theorem badLength_iff {m : Nat} (hm : m = if f.tci.isSome then 54 else 50) : badLength f = true ↔
    frameLen f < m ∨ frameLen f - m < (xHeader f.data).len ∨ (frameLen f ≠ 64 ∧ (xHeader f.data).len ≠ frameLen f - m) := by
  subst hm
  unfold badLength
  simp only [Bool.or_eq_true, Bool.not_eq_true', Bool.or_eq_false_iff, Bool.and_eq_false_iff, decide_eq_true_eq, decide_eq_false_iff_not]
  split <;> omega

theorem badTag_iff : s.badTag l f = true ↔ s.staketu l = false ∧ tagClass f (xHeader f.data).tc ≠ (xHeader f.data).tc := by
  unfold badTag tagClass
  cases f.tci <;> simp

theorem Pending.badTag (k : Pending s v l f r) : v.badTag l f = s.badTag l f := by
  unfold Blk.badTag
  rw [k.staketu]

theorem Pending.xForward_good (k : Pending s v l f r) (h : GoodHeader s l f) : v.xForward l n f =
    if (xHeader f.data).mcast then (v.xMulticast l f, v) else v.xUnicast l n f := by
  rw [xForward_eq, if_neg (not_not.mpr h.ver), if_neg (by simp [h.length]), if_neg (by simp [k.badTag, h.tag])]

theorem landClass_xeirrik (h : s.isXeirrik (tileOf l) f = true) : s.landClass l f img = (xHeader f.data).tc := if_pos h

/-! ### Spray sets (R107) -/

theorem place_leaves (tile m c n cells : Nat) : s.place tile m c n cells = { s with placed := (s.place tile m c n cells).placed } := by
  unfold place
  split <;> rfl

/-- The shallower of two members of a spray set, the one found first where they are equal. -/
def shallower (depth : Nat × Nat → Nat) (b : Option (Nat × Nat × Nat)) (m : Nat × Nat) : Option (Nat × Nat × Nat) :=
  match b with
  | none => some (m.1, m.2, depth m)
  | some x => if depth m < x.2.2 then some (m.1, m.2, depth m) else some x

theorem foldl_shallower {depth : Nat × Nat → Nat} {ms : List (Nat × Nat)} (h : ms ≠ []) :
    ∃ m ∈ ms, ms.foldl (shallower depth) none = some (m.1, m.2, depth m) ∧ ∀ m' ∈ ms, depth m ≤ depth m' := by
  have hfold : ∀ (ms : List (Nat × Nat)) (a : Nat × Nat), ∃ m ∈ a :: ms,
      ms.foldl (shallower depth) (some (a.1, a.2, depth a)) = some (m.1, m.2, depth m) ∧
      ∀ m' ∈ a :: ms, depth m ≤ depth m' := fun ms => by
    induction ms with
    | nil => exact fun a => ⟨a, List.mem_cons_self, rfl, by simp⟩
    | cons b ms ih =>
      intro a
      rw [List.foldl_cons]
      by_cases hb : depth b < depth a
      · obtain ⟨m, hm, heq, hle⟩ := ih b
        refine ⟨m, List.mem_cons_of_mem _ hm, by rw [← heq]; simp [shallower, hb], fun m' hm' => ?_⟩
        rcases List.mem_cons.mp hm' with rfl | hm'
        · exact (hle b List.mem_cons_self).trans hb.le
        · exact hle m' hm'
      · obtain ⟨m, hm, heq, hle⟩ := ih a
        refine ⟨m, ?_, by rw [← heq]; simp [shallower, hb], fun m' hm' => ?_⟩
        · rcases List.mem_cons.mp hm with rfl | hm
          · exact List.mem_cons_self
          · exact List.mem_cons_of_mem _ (List.mem_cons_of_mem _ hm)
        · rcases List.mem_cons.mp hm' with rfl | hm'
          · exact hle m' List.mem_cons_self
          · rcases List.mem_cons.mp hm' with rfl | hm'
            · exact (hle a List.mem_cons_self).trans (not_lt.mp hb)
            · exact hle m' (List.mem_cons_of_mem _ hm')
  obtain ⟨a, rest, rfl⟩ := List.exists_cons_of_ne_nil h
  exact hfold rest a

/-- A frame is placed on a live member of its spray set, the shallowest where it may be sprayed (R107, R108). -/
theorem spray_leaves {tile set c n cells : Nat} {free : Bool} {key : List Byte} (h : s.sprayLive (dieOfTile tile) set ≠ []) :
    ∃ m ∈ s.sprayLive (dieOfTile tile) set, ∃ u, s.spray tile set c n free key cells = (some m.2, u) ∧
      u = { s with placed := u.placed, sprayPtr := u.sprayPtr } ∧
      (free = true → ∀ m' ∈ s.sprayLive (dieOfTile tile) set, s.sprayDepth tile m.2 c n ≤ s.sprayDepth tile m'.2 c n) := by
  unfold spray
  dsimp only
  generalize s.sprayLive (dieOfTile tile) set = live at h
  rw [if_neg h]
  cases free with
  | true =>
    rw [if_pos rfl]
    generalize s.sprayPtr.get 0 (tile * 4096 + set) = ptr
    have hperm : ∀ m, m ∈ live.filter (fun m => ptr ≤ m.1) ++ live.filter (fun m => m.1 < ptr) ↔ m ∈ live := fun m => by
      simp only [List.mem_append, List.mem_filter, decide_eq_true_eq, ← and_or_left]
      exact and_iff_left (le_or_gt _ _)
    have hne : live.filter (fun m => ptr ≤ m.1) ++ live.filter (fun m => m.1 < ptr) ≠ [] := by
      obtain ⟨m, hm⟩ := List.exists_mem_of_ne_nil _ h
      exact List.ne_nil_of_mem ((hperm m).mpr hm)
    obtain ⟨m, hm, heq, hle⟩ := foldl_shallower (depth := fun m => s.sprayDepth tile m.2 c n) hne
    generalize hbest : List.foldl _ none _ = best
    obtain rfl := hbest.symm.trans heq
    refine ⟨m, (hperm m).mp hm, _, rfl, ?_, fun _ m' hm' => hle m' ((hperm m').mpr hm')⟩
    rw [place_leaves]
  | false =>
    rw [if_neg Bool.false_ne_true]
    have hlt : crc16 key % live.length < (live.map (·.2)).length := by
      rw [List.length_map]
      exact Nat.mod_lt _ (List.length_pos_iff.mpr h)
    rw [List.getElem?_eq_getElem hlt, List.getElem_map]
    refine ⟨_, List.getElem_mem _, _, rfl, ?_, fun h => absurd h Bool.false_ne_true⟩
    rw [place_leaves]

theorem sprayLive_lt {d set : Nat} {m : Nat × Nat} (h : m ∈ s.sprayLive d set) : m.2 < 1024 := by
  obtain ⟨j, -, hj⟩ := List.mem_filterMap.mp h
  dsimp only at hj
  split at hj
  · obtain rfl := Option.some.inj hj
    exact Nat.mod_lt _ (by decide)
  · exact absurd hj (by simp)

end Blk

end Sys2Proof.Machine
end

section
/-!
PROOF. A frame that comes, by what its pipeline finds (R82 to R97, R107, R110, R121): the third part of O15.
-/

namespace Sys2Proof.Machine

open Blk

variable {s : State} {l : LinkId} {w : Option (BitVec 48)} {f f' : Frame} {img : ImageClass} {reason o : Nat}

theorem badWord_of_comes (h : Comes s l w f img) : img.badWord = none := by
  obtain ⟨-, -, -, -, -, -, hbad, -⟩ := h
  exact hbad

theorem runs_dropped (h : Comes s l w f img)
    (hp : ∀ v r, Pending s.blk v l f r → v.pipeline l (s.blk.landClass l f img) img.node.toNat f = (.drop reason, v)) :
    Runs (.frameReceived l w f goodArrival img) s fun t => DroppedFor s t l reason := by
  have hbad := badWord_of_comes h
  refine runs_comes h (fun _ _ h => h) fun v r k _ => ?_
  rw [routeFrame_drop hbad (hp v r k)]
  exact droppedFor_of_pending k reason

theorem runs_sentOn (h : Comes s l w f img) (ho : o < 1024)
    (hp : ∀ v r, Pending s.blk v l f r → v.pipeline l (s.blk.landClass l f img) img.node.toNat f = (.send (.link o) f', v)) :
    Runs (.frameReceived l w f goodArrival img) s fun t => SentOn s t l o (s.blk.landClass l f img) f' := by
  have hbad := badWord_of_comes h
  refine runs_comes h (fun _ _ h => h) fun v r k _ => ?_
  rw [routeFrame_send hbad (hp v r k)]
  exact sentOn_of_pending k ho

/-! ### Xeirrik frames -/

section Xeirrik

variable {e : Nat} {g : Target} (h : Comes s l w f img) (hx : s.blk.isXeirrik (tileOf l) f = true)
include h hx

theorem pipeline_of_comes {v : Blk} {r : FrameRec} (k : Pending s.blk v l f r) {c n : Nat} :
    v.pipeline l c n f = v.xForward l n f := by
  obtain ⟨-, -, -, -, hptp, hfwd, -⟩ := h
  exact k.pipeline_xeirrik hptp hfwd hx

theorem runs_badVersion (hv : (xHeader f.data).ver ≠ 1) :
    Runs (.frameReceived l w f goodArrival img) s fun t => DroppedFor s t l 1 :=
  runs_dropped h fun v r k => by rw [pipeline_of_comes h hx k, xForward_eq, if_pos hv]

theorem runs_badLength (hv : (xHeader f.data).ver = 1) (hl : badLength f = true) :
    Runs (.frameReceived l w f goodArrival img) s fun t => DroppedFor s t l 2 :=
  runs_dropped h fun v r k => by rw [pipeline_of_comes h hx k, xForward_eq, if_neg (not_not.mpr hv), if_pos hl]

theorem runs_badTag (hv : (xHeader f.data).ver = 1) (hl : badLength f = false) (ht : s.blk.badTag l f = true) :
    Runs (.frameReceived l w f goodArrival img) s fun t => DroppedFor s t l 3 :=
  runs_dropped h fun v r k => by
    rw [pipeline_of_comes h hx k, xForward_eq, if_neg (not_not.mpr hv), if_neg (by simp [hl]), if_pos (by rw [k.badTag, ht])]

variable (hg : GoodHeader s.blk l f)
include hg

/-! #### For a group -/

section Group

variable (hm : (xHeader f.data).mcast = true)
include hm

theorem pipeline_group {v : Blk} {r : FrameRec} (k : Pending s.blk v l f r) {c n : Nat} :
    v.pipeline l c n f = (v.xMulticast l f, v) := by
  rw [pipeline_of_comes h hx k, k.xForward_good hg, if_pos hm]

theorem runs_group_missing (ht : s.blk.mcastTarget (dieOf l) (xHeader f.data).dst = none) :
    Runs (.frameReceived l w f goodArrival img) s fun t => DroppedFor s t l 6 :=
  runs_dropped h fun v r k => by
    rw [pipeline_group h hx hg hm k, xMulticast, k.mcastTarget, ht]

theorem runs_group_no_hops (ht : s.blk.mcastTarget (dieOf l) (xHeader f.data).dst = some g) (hh : (xHeader f.data).hop = 0) :
    Runs (.frameReceived l w f goodArrival img) s fun t => DroppedFor s t l 4 :=
  runs_dropped h fun v r k => by
    rw [pipeline_group h hx hg hm k, xMulticast, k.mcastTarget, ht]
    dsimp only
    rw [if_pos hh]

theorem runs_group (ht : s.blk.mcastTarget (dieOf l) (xHeader f.data).dst = some g) (hh : (xHeader f.data).hop ≠ 0)
    (hlive : AllLive s) : Runs (.frameReceived l w f goodArrival img) s fun t => ∀ d < 4,
      (t.blk.copy? (4 * s.blk.nextFrame + d)).map (fun x => (x.frame, x.cls, x.target)) =
        if (s.blk.legsBy (dieOf l) d g).any fun x => x.1 ≠ l.val || s.blk.mayReflect (dieOf l) g
          then some (decHop f, (xHeader f.data).tc, g) else none := by
  have hbad := badWord_of_comes h
  refine runs_comes h (fun _ _ h => h) fun v r k _ d hd => ?_
  have hp : v.pipeline l (s.blk.landClass l f img) img.node.toNat f = (.send g (decHop f), v) := by
    rw [pipeline_group h hx hg hm k, xMulticast, k.mcastTarget, ht]
    dsimp only
    rw [if_neg hh]
  rw [routeFrame_send hbad hp]
  refine (copies_of_pending k hlive hd).trans ?_
  rw [landClass_xeirrik hx]
  refine if_congr ?_ rfl rfl
  unfold copyDies
  rw [List.mem_filter, dieOfTile_tileOf, k.legsBy, k.mayReflect, and_iff_right (List.mem_range.mpr hd)]
  simp only [ne_eq, Option.some.injEq, eq_comm]

end Group

/-! #### For one endpoint -/

section Endpoint

variable (hm : (xHeader f.data).mcast = false)
include hm

theorem pipeline_endpoint {v : Blk} {r : FrameRec} (k : Pending s.blk v l f r) {c n : Nat} :
    v.pipeline l c n f = v.xUnicast l n f := by
  rw [pipeline_of_comes h hx k, k.xForward_good hg, if_neg (by simp [hm])]

variable (he : e = s.blk.tableEntry (dieOf l) 0 (xHeader f.data).dst)
include he

theorem runs_endpoint_missing (hv : e.testBit 31 = false) :
    Runs (.frameReceived l w f goodArrival img) s fun t => DroppedFor s t l 5 :=
  runs_dropped h fun v r k => by
    rw [pipeline_endpoint h hx hg hm k, xUnicast, k.tableEntry, ← he]
    rw [if_pos (by simp [hv])]

variable (hv : e.testBit 31 = true)
include hv

theorem runs_link_no_hops (ha : bits e 30 28 = 1) (hh : (xHeader f.data).hop = 0) :
    Runs (.frameReceived l w f goodArrival img) s fun t => DroppedFor s t l 4 :=
  runs_dropped h fun v r k => by
    rw [pipeline_endpoint h hx hg hm k, xUnicast, k.tableEntry, ← he, ha]
    rw [if_neg (by simp [hv]), if_pos hh]
    rfl

theorem runs_link (ha : bits e 30 28 = 1) (hh : (xHeader f.data).hop ≠ 0) : Runs (.frameReceived l w f goodArrival img) s fun t =>
    SentOn s t l (bits e 15 0 % 1024) (xHeader f.data).tc (decHop f) := by
  rw [← landClass_xeirrik (img := img) hx]
  refine runs_sentOn h (Nat.mod_lt _ (by decide)) fun v r k => ?_
  rw [pipeline_endpoint h hx hg hm k, xUnicast, k.tableEntry, ← he, ha]
  rw [if_neg (by simp [hv]), if_neg hh]
  rfl

theorem pipeline_spray (ha : bits e 30 28 = 2) (hh : (xHeader f.data).hop ≠ 0) {v : Blk} {r : FrameRec} (k : Pending s.blk v l f r)
    {c n : Nat} : v.pipeline l c n f = v.xSpray l n f (bits e 15 0 % 4096) := by
  rw [pipeline_endpoint h hx hg hm k, xUnicast, k.tableEntry, ← he, ha]
  rw [if_neg (by simp [hv])]
  exact if_neg hh

theorem runs_spray_dead (ha : bits e 30 28 = 2) (hh : (xHeader f.data).hop ≠ 0)
    (hlive : s.blk.sprayLive (dieOf l) (bits e 15 0 % 4096) = []) :
    Runs (.frameReceived l w f goodArrival img) s fun t => DroppedFor s t l 5 :=
  runs_dropped h fun v r k => by
    rw [pipeline_spray h hx hg hm he hv ha hh k, xSpray, spray, dieOfTile_tileOf, k.sprayLive, hlive]
    rfl

theorem runs_spray (ha : bits e 30 28 = 2) (hh : (xHeader f.data).hop ≠ 0)
    (hlive : s.blk.sprayLive (dieOf l) (bits e 15 0 % 4096) ≠ []) : Runs (.frameReceived l w f goodArrival img) s fun t =>
      ∃ m ∈ s.blk.sprayLive (dieOf l) (bits e 15 0 % 4096), SentOn s t l m.2 (xHeader f.data).tc (decHop f) ∧
        ((xHeader f.data).sprayOk = true → ∀ m' ∈ s.blk.sprayLive (dieOf l) (bits e 15 0 % 4096),
          s.blk.sprayDepth (tileOf l) m.2 (xHeader f.data).tc img.node.toNat ≤
            s.blk.sprayDepth (tileOf l) m'.2 (xHeader f.data).tc img.node.toNat) := by
  have hbad := badWord_of_comes h
  refine runs_comes h (fun _ _ h => h) fun v r k hplaced => ?_
  obtain ⟨m, hmem, u, hu, hsame, hleast⟩ := spray_leaves (s := v) (tile := tileOf l) (set := bits e 15 0 % 4096)
    (c := (xHeader f.data).tc) (n := img.node.toNat) (cells := cellsOf (frameLen f)) (free := (xHeader f.data).sprayOk)
    (key := crcKey [(20, (xHeader f.data).src), (20, (xHeader f.data).dst), (3, (xHeader f.data).tc)])
    (by rw [dieOfTile_tileOf, k.sprayLive]; exact hlive)
  rw [dieOfTile_tileOf, k.sprayLive] at hmem hleast
  have hp : v.pipeline l (s.blk.landClass l f img) img.node.toNat f = (.send (.link m.2) (decHop f), u) := by
    rw [pipeline_spray h hx hg hm he hv ha hh k, xSpray, hu]
  rw [routeFrame_send hbad hp, landClass_xeirrik hx]
  refine ⟨m, hmem, sentOn_of_pending (k.sprayed hsame) (sprayLive_lt hmem), fun hok m' hm' => ?_⟩
  rw [← k.sprayDepth hplaced, ← k.sprayDepth hplaced]
  exact hleast hok m' hm'

variable (ha : bits e 30 28 = 3) (htarget : bits e 15 0 % 4 = 1)
include ha htarget

theorem pipeline_collective {v : Blk} {r : FrameRec} (k : Pending s.blk v l f r) {c n : Nat} : v.pipeline l c n f =
    (if 0x10 ≤ (xHeader f.data).opcode && (xHeader f.data).opcode ≤ 0x3F then .garnet else .drop 7, v) := by
  rw [pipeline_endpoint h hx hg hm k, xUnicast, k.tableEntry, ← he, ha]
  rw [if_neg (by simp [hv]), xLocal, htarget]
  rfl

theorem runs_collective_bad (hop : (xHeader f.data).opcode < 0x10 ∨ 0x3F < (xHeader f.data).opcode) :
    Runs (.frameReceived l w f goodArrival img) s fun t => DroppedFor s t l 7 :=
  runs_dropped h fun v r k => by
    rw [pipeline_collective h hx hg hm he hv ha htarget k, if_neg]
    simp only [Bool.and_eq_true, decide_eq_true_eq]
    omega

theorem runs_collective (hlo : 0x10 ≤ (xHeader f.data).opcode) (hhi : (xHeader f.data).opcode ≤ 0x13) :
    Runs (.frameReceived l w f goodArrival img) s fun t =>
      (t.blk.frame? s.blk.nextFrame).map (fun r => (r.dest, r.frame, r.whole)) = some (.garnet, f, true) := by
  have hbad := badWord_of_comes h
  refine runs_comes h (fun _ _ h => h) fun v r k _ => ?_
  have hp : v.pipeline l (s.blk.landClass l f img) img.node.toNat f = (.garnet, v) := by
    rw [pipeline_collective h hx hg hm he hv ha htarget k, if_pos]
    simp only [Bool.and_eq_true, decide_eq_true_eq]
    omega
  rw [routeFrame_garnet hbad hp k.frame?]
  exact garnet_of_pending k ⟨hlo, hhi⟩

end Endpoint

end Xeirrik

end Sys2Proof.Machine
end

section
/-!
PROOF. IP frames to the router and bridged frames that come (R93 to R97), and O15.
-/

namespace Sys2Proof.Machine

open Blk

variable {s : State} {l : LinkId} {w : Option (BitVec 48)} {f : Frame} {img : ImageClass}

theorem Blk.landClass_tagged {s : Blk} {l : Nat} (hx : s.isXeirrik (tileOf l) f = false) : s.landClass l f img = tagClass f img.cls := by
  unfold landClass queueClass linkClass
  simp [hx]

/-! ### To the router -/

section Router

variable {v6 : Bool} {nh e : Nat} (h : Comes s l w f img) (hx : s.blk.isXeirrik (tileOf l) f = false)
  (hm : s.blk.fld .TIL_FWD_RMAC_rmac (tileOf l) ≠ 0) (hd : f.dmac.toNat = s.blk.fld .TIL_FWD_RMAC_rmac (tileOf l))
  (hk : ipKind f = some v6) (hr : s.blk.flag .TIL_FWD_CFG_route_en (tileOf l) = true)
include h hx hm hd hk hr

theorem pipeline_router_of_comes {v : Blk} {r : FrameRec} (k : Pending s.blk v l f r) {c n : Nat} :
    v.pipeline l c n f = v.ipForward l c n v6 f := by
  obtain ⟨-, -, -, -, hptp, hfwd, -⟩ := h
  exact k.pipeline_router hptp hfwd hx hm hd hk hr

theorem runs_router_missing (hp : s.blk.prefixLookup (dieOf l) v6 (ipDst v6 f.data) = none) :
    Runs (.frameReceived l w f goodArrival img) s fun t => DroppedFor s t l 5 :=
  runs_dropped h fun v r k => by
    rw [pipeline_router_of_comes h hx hm hd hk hr k, ipForward, k.prefixLookup, hp]

variable (hp : s.blk.prefixLookup (dieOf l) v6 (ipDst v6 f.data) = some nh) (he : e = s.blk.tableEntry (dieOf l) 2 nh)
  (hv : e.testBit 63 = true) (ha : bits e 62 60 = 1)
include hp he hv ha

theorem runs_router_expired (ht : ipTtl v6 f.data ≤ 1) :
    Runs (.frameReceived l w f goodArrival img) s fun t => DroppedFor s t l 0xA :=
  runs_dropped h fun v r k => by
    rw [pipeline_router_of_comes h hx hm hd hk hr k, ipForward, k.prefixLookup, hp]
    dsimp only
    rw [k.tableEntry, ← he, if_neg (by simp [hv, ha]), if_pos ht]

theorem runs_router (ht : 1 < ipTtl v6 f.data) (hvid : bits e 79 68 = 0) :
    Runs (.frameReceived l w f goodArrival img) s fun t => SentOn s t l (bits e 47 32 % 1024) (tagClass f img.cls)
      { f with dmac := BitVec.ofNat 48 (bits e 127 80), smac := BitVec.ofNat 48 (s.blk.fld .TIL_FWD_RMAC_rmac (tileOf l)),
               tci := none, data := decTtl v6 f.data } := by
  rw [← landClass_tagged (img := img) hx]
  refine runs_sentOn h (Nat.mod_lt _ (by decide)) fun v r k => ?_
  rw [pipeline_router_of_comes h hx hm hd hk hr k, ipForward, k.prefixLookup, hp]
  dsimp only
  rw [k.tableEntry, ← he, if_neg (by simp [hv, ha]), if_neg (not_le.mpr ht), ha, hvid, k.fld _ _ (by simp [landing, counts])]
  rfl

end Router

/-! ### Bridged -/

section Bridged

variable {vid v : Nat} (h : Comes s l w f img) (hx : s.blk.isXeirrik (tileOf l) f = false)
  (hm : s.blk.fld .TIL_FWD_RMAC_rmac (tileOf l) = 0) (hvid : vid = s.blk.vlanOf (dieOf l) l f)
  (hv : v = s.blk.tableEntry (dieOf l) 4 vid)
include h hx hm hvid hv

theorem pipeline_bridge_of_comes {u : Blk} {r : FrameRec} (k : Pending s.blk u l f r) {c n : Nat} : u.pipeline l c n f =
    if !v.testBit 63 then (.drop 0xB, u) else (u.bridged (u.sourceNoted l f) l f, u.sourceNoted l f) := by
  obtain ⟨-, -, -, -, hptp, hfwd, -⟩ := h
  rw [k.pipeline_bridge hptp hfwd hx hm, bridge_eq, k.vlanOf, k.tableEntry, ← hvid, ← hv]

theorem runs_bridge_missing (hn : v.testBit 63 = false) :
    Runs (.frameReceived l w f goodArrival img) s fun t => DroppedFor s t l 0xB :=
  runs_dropped h fun u r k => by rw [pipeline_bridge_of_comes h hx hm hvid hv k, if_pos (by simp [hn])]

theorem runs_bridge_known {i : Nat} (hn : v.testBit 63 = true) (hlearn : s.blk.flag .TIL_FWD_CFG_learn_en (tileOf l) = false)
    (hucast : f.dmac.toNat.testBit 40 = false) (hi : s.blk.findLearn (dieOf l) vid f.dmac.toNat = some i)
    (hout : bits (s.blk.tableEntry (dieOf l) 3 i) 67 58 ≠ l.val) : Runs (.frameReceived l w f goodArrival img) s fun t =>
      SentOn s t l (bits (s.blk.tableEntry (dieOf l) 3 i) 67 58) (tagClass f img.cls) f := by
  rw [← landClass_tagged (img := img) hx]
  refine runs_sentOn h ?_ fun u r k => ?_
  · unfold bits
    exact Nat.mod_lt _ (by decide)
  · have hlearning : u.learning l f = false := by
      unfold learning
      rw [k.flag (by simp [landing, counts]), hlearn, Bool.false_and]
    have hnoted : u.sourceNoted l f = u := by
      unfold sourceNoted
      rw [hlearning]
      rfl
    rw [pipeline_bridge_of_comes h hx hm hvid hv k, if_neg (by simp [hn]), hnoted, bridged, hlearning, hucast, k.vlanOf,
      k.findLearn, ← hvid, if_neg Bool.false_ne_true, if_neg Bool.false_ne_true, hi]
    dsimp only
    rw [k.tableEntry, if_neg hout]

end Bridged

/-- Settles O15: pause times, data frames and control frames command by command; a frame that comes lands (`runs_comes`), and goes
where its pipeline's decision sends it (`droppedFor_of_pending`, `sentOn_of_pending`, `copies_of_pending`, `garnet_of_pending`). -/
theorem pauseAndFrames : Obligations.PauseAndFrames := by
  unfold Obligations.PauseAndFrames
  refine ⟨⟨?_, ?_, ?_, ?_⟩, ⟨?_, ?_, ?_⟩, ?_, ?_, ?_⟩
  · exact fun s l c q => runs_pfcReceived
  · exact runs_pfcPauseExpiry
  · exact fun s l => runs_pfcRefreshTimer
  · exact fun s l => runs_pfcRefreshTimer_idle
  · intro s l w f img a he hs hm hr hlcf hw hn hu ha hp _ hpart
    have h : DataFrame s.blk l w f a := ⟨he, hs, hm, hr, hlcf, hw, hn, hu, ha, hp, hpart⟩
    exact ⟨runs_dataFrame_good h, runs_dataFrame_stomped h, runs_dataFrame_errored h, runs_dataFrame_behind h⟩
  · exact fun s l f img => runs_capFrame
  · intro s l f img c he hs hm _ htype hlcf hop hv hq hb
    exact runs_pfcFrame he hs hm htype hlcf hop hv hq hb
  · rintro s l w f img _ e m h hx rfl he hm
    have hlength := badLength_iff hm
    have hgood : (xHeader f.data).ver = 1 → m ≤ frameLen f →
        (xHeader f.data).len = frameLen f - m ∨ (frameLen f = 64 ∧ (xHeader f.data).len ≤ frameLen f - m) →
        badLength f = false := fun _ _ _ => by
      rw [← Bool.not_eq_true, hlength]
      omega
    refine ⟨runs_badVersion h hx, fun hv hl => runs_badLength h hx hv (hlength.mpr hl), fun hv hle hlen hs ht =>
      runs_badTag h hx hv (hgood hv hle hlen) (badTag_iff.mpr ⟨hs, ht⟩), fun hv hle hlen htag => ?_⟩
    have hg : GoodHeader s.blk l f := ⟨hv, hgood hv hle hlen, by
      rw [← Bool.not_eq_true, badTag_iff]
      rintro ⟨hs, ht⟩
      rcases htag with h | h
      · exact absurd (hs.symm.trans h) Bool.false_ne_true
      · exact ht h⟩
    refine ⟨runs_group_missing h hx hg, fun g hm ht => ⟨runs_group_no_hops h hx hg hm ht, runs_group h hx hg hm ht⟩,
      fun hm hv => runs_endpoint_missing h hx hg hm he hv, fun hm hv ha => ⟨runs_link_no_hops h hx hg hm he hv ha,
      runs_link h hx hg hm he hv ha⟩, fun hm hv ha hh => ⟨runs_spray_dead h hx hg hm he hv ha hh, runs_spray h hx hg hm he hv ha hh⟩,
      fun hm hv ha ht => ⟨runs_collective_bad h hx hg hm he hv ha ht, runs_collective h hx hg hm he hv ha ht⟩⟩
  · intro s l w f img v6 nh e h hx hm hd hk hr
    exact ⟨runs_router_missing h hx hm hd hk hr, fun hp he hv ha => ⟨runs_router_expired h hx hm hd hk hr hp he hv ha,
      runs_router h hx hm hd hk hr hp he hv ha⟩⟩
  · intro s l w f img vid v h hx hm hvid hv
    exact ⟨runs_bridge_missing h hx hm hvid hv, fun i => runs_bridge_known h hx hm hvid hv⟩

end Sys2Proof.Machine
end

section
/-!
PROOF. The forwarding tables (R88, R101, R103 to R105, R414): what a read of a table returns after a write, the locks, and the records of
the management cores' queue that write or clear entries. They settle O4.
-/

namespace Sys2Proof.Machine

/-- No table is larger than the space of keys that a die's copy of it has. -/
theorem tableSize_le (t : Nat) : tableSize t ≤ 1048576 := by
  unfold tableSize
  split <;> decide

namespace Blk

variable {s t u : Blk} {d tb i j w v l n : Nat}

/-! ### Changes of the tables alone -/

/-- `t` is `s` but for the contents of the tables. -/
def TablesOnly (s t : Blk) : Prop := ∃ x, t = { s with tables := x }

namespace TablesOnly

theorem refl (s : Blk) : TablesOnly s s := ⟨_, rfl⟩

theorem trans (h : TablesOnly s t) (k : TablesOnly t u) : TablesOnly s u := by
  obtain ⟨x, rfl⟩ := h
  obtain ⟨y, rfl⟩ := k
  exact ⟨y, rfl⟩

/-- What each step of a fold keeps, the fold keeps. -/
theorem foldl {β : Type} {g : Blk → β → Blk} (h : ∀ t b, TablesOnly t (g t b)) (bs : List β) (t : Blk) :
    TablesOnly t (bs.foldl g t) := by
  induction bs generalizing t with
  | nil => exact refl t
  | cons b bs ih => exact (h t b).trans (ih _)

theorem putEntry (s : Blk) (d tb i w : Nat) : TablesOnly s (s.putEntry d tb i w) := ⟨_, rfl⟩

theorem putAll (s : Blk) (tb i w : Nat) : TablesOnly s (s.putAll tb i w) := foldl (fun s d => putEntry s d tb i w) _ s

theorem setLearnCount (s : Blk) (l n : Nat) : TablesOnly s (s.setLearnCount l n) := foldl (fun s d => putEntry s d 5 l _) _ s

theorem out (h : TablesOnly s t) : t.out = s.out := by
  obtain ⟨x, rfl⟩ := h
  rfl

theorem learn (h : TablesOnly s t) : t.learn = s.learn := by
  obtain ⟨x, rfl⟩ := h
  rfl

end TablesOnly

/-! ### An entry read after a write (R88, R105) -/

theorem tableEntry_putEntry {e ub : Nat} (ht : tb < 9) (hu : ub < 9) (hi : i < 1048576) (hj : j < 1048576) :
    (s.putEntry d tb i w).tableEntry e ub j = if e = d ∧ ub = tb ∧ j = i then w else s.tableEntry e ub j := by
  have hkey : (e * 9 + ub) * 1048576 + j = (d * 9 + tb) * 1048576 + i ↔ e = d ∧ ub = tb ∧ j = i := by omega
  unfold tableEntry putEntry
  rw [Tab.get_set _ _ _ _ _ _ fun _ => rfl]
  exact if_congr hkey rfl rfl

/-- Every die's copy holds what is written into all. -/
theorem tableEntry_putAll {ub : Nat} (hd : d < 4) (ht : tb < 9) (hu : ub < 9) (hi : i < 1048576) (hj : j < 1048576) :
    (s.putAll tb i w).tableEntry d ub j = if ub = tb ∧ j = i then w else s.tableEntry d ub j := by
  simp only [putAll, List.range_succ, List.range_zero, List.nil_append, List.foldl_append, List.foldl_cons, List.foldl_nil,
    tableEntry_putEntry ht hu hi hj]
  by_cases h : ub = tb ∧ j = i
  · interval_cases d <;> simp [h]
  · simp [h]

/-- A link's count of dynamic entries stands in the link table. -/
theorem tableEntry_setLearnCount (hl : l < 1048576) (ht : tb < 9) (h5 : tb ≠ 5) (hj : j < 1048576) :
    (s.setLearnCount l n).tableEntry d tb j = s.tableEntry d tb j := by
  have hput : ∀ (u : Blk) (e v : Nat), (u.putEntry e 5 l v).tableEntry d tb j = u.tableEntry d tb j := fun u e v => by
    rw [tableEntry_putEntry (by decide) ht hl hj, if_neg fun ⟨_, h, _⟩ => h5 h]
  simp only [setLearnCount, List.range_succ, List.range_zero, List.nil_append, List.foldl_append, List.foldl_cons, List.foldl_nil,
    hput]

/-- The count of the link of an entry changed, or left, as the entry is dynamic or not: table 3 stands. -/
theorem countIf_leaves (s : Blk) (c : Bool) (e n : Nat) :
    TablesOnly s (if c then s.setLearnCount (bits e 67 58) n else s) ∧ ∀ d j, j < 1048576 →
      (if c then s.setLearnCount (bits e 67 58) n else s).tableEntry d 3 j = s.tableEntry d 3 j := by
  have hlink : bits e 67 58 < 1048576 := (Nat.mod_lt _ (by decide)).trans (by decide)
  cases c
  · exact ⟨.refl s, fun _ _ _ => rfl⟩
  · exact ⟨.setLearnCount s _ n, fun _ _ hj => tableEntry_setLearnCount hlink (by decide) (by decide) hj⟩

/-- Before a learning entry is written, only the counts of the links that it leaves and joins have changed (R90). -/
theorem putLearn_eq (s : Blk) (i w : Nat) : ∃ u, s.putLearn i w = u.putAll 3 i w ∧ TablesOnly s u ∧
    ∀ d j, j < 1048576 → u.tableEntry d 3 j = s.tableEntry d 3 j := by
  obtain ⟨hleft, hleftE⟩ := countIf_leaves s (dynamicEntry (s.tableEntry 0 3 i)) (s.tableEntry 0 3 i)
    (s.learnCount (bits (s.tableEntry 0 3 i) 67 58) - 1)
  obtain ⟨hjoin, hjoinE⟩ := countIf_leaves _ (dynamicEntry w) w _
  exact ⟨_, rfl, hleft.trans hjoin, fun d j hj => (hjoinE d j hj).trans (hleftE d j hj)⟩

theorem TablesOnly.putLearn (s : Blk) (i w : Nat) : TablesOnly s (s.putLearn i w) := by
  obtain ⟨u, hu, honly, -⟩ := putLearn_eq s i w
  rw [hu]
  exact honly.trans (.putAll u 3 i w)

theorem tableEntry_putLearn (hd : d < 4) (hi : i < 1048576) (hj : j < 1048576) :
    (s.putLearn i w).tableEntry d 3 j = if j = i then w else s.tableEntry d 3 j := by
  obtain ⟨u, hu, -, hentry⟩ := putLearn_eq s i w
  rw [hu, tableEntry_putAll hd (by decide) (by decide) hi hj, hentry d j hj]
  exact if_congr (and_iff_right rfl) rfl rfl

/-! ### Locks (R101) -/

theorem pathCode_eq (p : Path) : pathCode p = if p = .host then 0 else 1 := by
  cases p <;> rfl

theorem pathCode_eq_one_iff {p : Path} : pathCode p = 1 ↔ p ≠ .host := by
  cases p <;> decide

theorem lockTake_taken {p : Path} (h : s.flag .DMA_TBL_LOCK_locked n = false ∨ (p ≠ .host ∧ s.lockAt.find n = some s.now)) :
    s.lockTake n p = (Blk.setFld { s with lockAt := s.lockAt.put n s.now } .DMA_TBL_LOCK_locked n 1).setFld
      .DMA_TBL_LOCK_holder n (if p = .host then 0 else 1) := by
  rw [← pathCode_eq]
  refine if_neg ?_
  rcases h with h | ⟨hp, ha⟩
  · simp [h]
  · simp [pathCode_eq_one_iff, hp, ha]

theorem lockTake_held {p : Path} (h : s.flag .DMA_TBL_LOCK_locked n = true)
    (hp : p = .host ∨ s.lockAt.find n ≠ some s.now) : s.lockTake n p = s := by
  refine if_pos ?_
  rcases hp with rfl | hp
  · simp [h, pathCode]
  · simp [h, hp]

theorem lockRelease_freed {p : Path} (hn : n ≠ 3) (h : s.flag .DMA_TBL_LOCK_locked n = true)
    (hp : p ≠ .host ∨ s.fld .DMA_TBL_LOCK_holder n = 0) : s.lockRelease n p = s.setFld .DMA_TBL_LOCK_locked n 0 := by
  refine (if_pos ?_).trans (if_neg hn)
  rw [← pathCode_eq_one_iff] at hp
  rcases hp with hp | hp
  · simp [h, hp]
  · cases p <;> simp [h, hp, pathCode]

theorem lockRelease_other (hh : s.fld .DMA_TBL_LOCK_holder n = 1) : s.lockRelease n .host = s :=
  if_neg (by simp [hh, pathCode])

theorem lockTake_leaves {p : Path} (h : s.flag .DMA_TBL_LOCK_locked n = false ∨ (p ≠ .host ∧ s.lockAt.find n = some s.now)) :
    (s.lockTake n p).flag .DMA_TBL_LOCK_locked n = true ∧
      (s.lockTake n p).fld .DMA_TBL_LOCK_holder n = (if p = .host then 0 else 1) := by
  rw [lockTake_taken h]
  refine ⟨?_, ?_⟩
  · unfold flag
    rw [fld_setFld_ne _ _ _ _ _ _ (by decide), fld_setFld_self]
    rfl
  · rw [fld_setFld_self]
    split <;> rfl

/-! ### What the checks of a record let through (R104) -/

theorem room_of_checked {src : TblSource} {r : TblRecord} (h : s.recordStatus src r = 0) (hop : r.op.toNat < 2) :
    r.table.toNat < 9 ∧ r.first.toNat + r.count.toNat ≤ 1048576 := by
  have hkeyed : r.op.toNat ≠ 2 ∧ r.op.toNat ≠ 3 := by omega
  unfold recordStatus at h
  dsimp only at h
  split_ifs at h with htable hkind hroom
  refine ⟨by omega, le_trans (not_lt.mp fun hlt => hroom ?_) (tableSize_le r.table.toNat)⟩
  simp [hkeyed, hlt]

/-! ### Entries applied in turn (R103, R105) -/

/-- A table whose entries a record writes as they are given (R88). -/
abbrev PlainTable (t : Nat) : Prop := t ∈ [0, 2, 4, 6, 7, 8]

/-- A write or clear record's entries from `k`, `n` of them, each in all four die copies. -/
def entriesPut (r : TblRecord) : Nat → Nat → Blk → Blk
  | _, 0, s => s
  | k, n + 1, s => entriesPut r (k + 1) n (s.putAll r.table.toNat (r.first.toNat + k) (bodyEntry r k))

theorem TablesOnly.entriesPut {r : TblRecord} (n : Nat) (k : Nat) (s : Blk) : TablesOnly s (entriesPut r k n s) := by
  induction n generalizing k s with
  | zero => exact refl s
  | succ n ih => exact (putAll s _ _ _).trans (ih _ _)

theorem tableEntry_entriesPut {r : TblRecord} {k : Nat} (hd : d < 4) (ht : r.table.toNat < 9)
    (hroom : r.first.toNat + (k + n) ≤ 1048576) (hj : r.first.toNat + j < 1048576) :
    (entriesPut r k n s).tableEntry d r.table.toNat (r.first.toNat + j) =
      if k ≤ j ∧ j < k + n then bodyEntry r j else s.tableEntry d r.table.toNat (r.first.toNat + j) := by
  induction n generalizing k s with
  | zero => exact (if_neg (by omega)).symm
  | succ n ih =>
    rw [entriesPut, ih (by omega), tableEntry_putAll hd ht ht (by omega) hj]
    rcases Nat.lt_trichotomy j k with h | rfl | h
    · rw [if_neg (by omega), if_neg (by omega), if_neg (by omega)]
    · rw [if_neg (by omega), if_pos ⟨rfl, rfl⟩, if_pos (by omega)]
    · rw [if_neg (by omega : ¬ (_ ∧ r.first.toNat + j = r.first.toNat + k))]
      exact if_congr (by omega) rfl rfl

theorem writeEntry_of_plain (ht : PlainTable tb) : s.writeEntry tb i w = s.putAll tb i w :=
  (if_neg (by rintro rfl; exact absurd ht (by decide))).trans (if_neg (by rintro rfl; exact absurd ht (by decide)))

theorem applyEntry_of_good {r : TblRecord} {k : Nat} (hop : r.op.toNat < 2) (ht : PlainTable r.table.toNat)
    (hgood : entryBad r.table.toNat (bodyEntry r k) = false) :
    s.applyEntry r k = (0, s.putAll r.table.toNat (r.first.toNat + k) (bodyEntry r k)) := by
  have h1 : r.table.toNat ≠ 1 := fun h => absurd (h ▸ ht) (by decide)
  unfold applyEntry
  dsimp only
  split
  · omega
  · omega
  · rw [if_neg h1, if_neg (by simp [hgood]), writeEntry_of_plain ht]

theorem applyEntries_of_good {r : TblRecord} {k : Nat} (hop : r.op.toNat < 2) (ht : PlainTable r.table.toNat)
    (hgood : ∀ j, j < k + n → entryBad r.table.toNat (bodyEntry r j) = false) :
    s.applyEntries r k n = (0, k + n, entriesPut r k n s) := by
  induction n generalizing k s with
  | zero => rfl
  | succ n ih =>
    rw [applyEntries, applyEntry_of_good hop ht (hgood k (by omega))]
    refine (ih fun j hj => hgood j (by omega)).trans ?_
    rw [entriesPut, Nat.add_right_comm]
    rfl

/-- A clear entry is zero, and zero is a reserved encoding of no plain table. -/
theorem entryBad_zero (ht : PlainTable tb) : entryBad tb 0 = false := by
  simp only [PlainTable, List.mem_cons, List.not_mem_nil, or_false] at ht
  rcases ht with rfl | rfl | rfl | rfl | rfl | rfl <;> decide

/-! ### A record of the management cores' queue (R103 to R105, R414) -/

theorem tblTake_waits {r : TblRecord} (h : s.tableLoads ≠ []) :
    s.tblTake .mgmtQueue r = { s with tblWaits := s.tblWaits ++ [r] } := if_pos h

/-- A record that passes the checks ends as its entries do. -/
theorem tblTake_checked {r : TblRecord} {status applied : Nat} (hload : s.tableLoads = []) (h : s.recordStatus .mgmtQueue r = 0)
    (ha : s.applyEntries r 0 r.count.toNat = (status, applied, u)) :
    s.tblTake .mgmtQueue r = u.emit (.tableDone r.tag.toNat status applied) := by
  refine (if_neg (not_not.mpr hload)).trans ?_
  unfold tblRecord
  rw [h, ha]
  rfl

end Blk

open Blk

/-! ### The commands -/

variable {s : State} {n : Fin 9} {p : Path} {r : TblRecord}

theorem runs_lockTake_free (h : s.blk.flag .DMA_TBL_LOCK_locked n = false) :
    Runs (.lockTake n p) s fun t => t.blk.flag .DMA_TBL_LOCK_locked n = true ∧
      t.blk.fld .DMA_TBL_LOCK_holder n = (if p = .host then 0 else 1) ∧
      OnlyFields { s with blk := { s.blk with lockAt := t.blk.lockAt } } t
        [(.DMA_TBL_LOCK_locked, n), (.DMA_TBL_LOCK_holder, n)] := by
  obtain ⟨hlocked, hholder⟩ := lockTake_leaves (p := p) (.inl h)
  refine runs_of_eq (g := (·.lockTake n p)) rfl rfl ⟨hlocked, hholder, rfl, rfl, ?_⟩
  dsimp only
  rw [lockTake_taken (.inl h)]
  exact (Within.setFld _ _ _ _ (by simp)).trans (Within.setFld _ _ _ _ (by simp))

/-- A record waits while a die's copies are loaded, whatever its row. -/
theorem runs_record_waits {i : Instr} {op : BitVec 8} (hi : exec i s = run (·.tblTake .mgmtQueue (withOp r op)) s)
    (h : s.blk.tableLoads ≠ []) :
    Runs i s fun t => ∃ x : TblRecord, x = { r with op := x.op } ∧
      t = { s with blk := { s.blk with tblWaits := s.blk.tblWaits ++ [x] } } := by
  refine runs_of_eq hi (tblTake_waits h) ⟨withOp r op, ?_, rfl⟩
  unfold withOp
  split <;> rfl

/-- A record that writes or clears entries of a plain table, none reserved, applies them all. -/
theorem runs_entriesPut {i : Instr} (hi : exec i s = run (·.tblTake .mgmtQueue r) s) (hload : s.blk.tableLoads = [])
    (hop : r.op.toNat < 2) (ht : PlainTable r.table.toNat) (h : s.blk.recordStatus .mgmtQueue r = 0)
    (hgood : ∀ j < r.count.toNat, entryBad r.table.toNat (bodyEntry r j) = false) {k : Nat} (hk : k < r.count.toNat) (d : DieId) :
    Runs i s fun t =>
      t.blk.tableEntry d r.table.toNat (r.first.toNat + k) = bodyEntry r k ∧
      t.blk.out = .tableDone r.tag.toNat 0 r.count.toNat :: s.blk.out ∧
      t = { s with blk := { s.blk with tables := t.blk.tables, out := t.blk.out } } := by
  obtain ⟨htable, hroom⟩ := room_of_checked h hop
  have happly := applyEntries_of_good (s := s.blk) (k := 0) hop ht (by simpa using hgood)
  rw [Nat.zero_add] at happly
  have hentry := tableEntry_entriesPut (s := s.blk) (k := 0) d.isLt htable (by simpa using hroom) (j := k) (by omega)
  obtain ⟨x, hx⟩ := TablesOnly.entriesPut (r := r) r.count.toNat 0 s.blk
  rw [if_pos (by omega)] at hentry
  refine runs_of_eq hi (tblTake_checked hload h happly) ⟨hentry, ?_, ?_⟩
  · rw [hx]
    rfl
  · dsimp only
    rw [hx]
    rfl

/-- Settles O4: the locks by what `lockTake` and `lockRelease` find; a record that waits; and one that writes or clears, by the entries
that it puts (`applyEntries_of_good`) and what is read of them after (`tableEntry_entriesPut`). -/
theorem tableLocksAndRecords : Obligations.TableLocksAndRecords := by
  unfold Obligations.TableLocksAndRecords
  refine ⟨⟨fun s n p h => runs_lockTake_free h, fun s n p _ hp ha => ?_, fun s n p h hp => ?_, fun s n p hn h hp => ?_,
    fun s n _ hh => ?_⟩, fun s r i h hi => ?_, fun s r k d hload ht hk => ⟨fun h hgood => ?_, fun h => ?_⟩⟩
  · obtain ⟨hlocked, hholder⟩ := lockTake_leaves (.inr ⟨hp, ha⟩)
    exact runs_of_eq (g := (·.lockTake n p)) rfl rfl ⟨hlocked, hholder.trans (if_neg hp)⟩
  · exact runs_of_eq (g := (·.lockTake n p)) rfl (lockTake_held h hp) rfl
  · refine runs_of_eq (g := (·.lockRelease n p)) rfl (lockRelease_freed (fun h3 => hn (Fin.ext h3)) h hp) ⟨?_, rfl, rfl, ?_⟩
    · unfold Blk.flag
      rw [fld_setFld_self]
      rfl
    · exact Within.setFld _ _ _ _ (by simp)
  · exact runs_of_eq (g := (·.lockRelease n .host)) rfl (lockRelease_other hh) rfl
  · simp only [List.mem_cons, List.not_mem_nil, or_false] at hi
    rcases hi with rfl | rfl | rfl | rfl <;> exact runs_record_waits rfl h
  · exact runs_entriesPut (r := { r with op := 0 }) rfl hload Nat.zero_lt_two ht h hgood hk d
  · exact runs_entriesPut (r := { r with op := 1 }) rfl hload Nat.one_lt_two ht h (fun j _ => entryBad_zero ht) hk d

end Sys2Proof.Machine
end

section
/-!
PROOF. The learning table (R98, R99, R103): records of one key, the oldest learn event, and the ageing sweep. They settle O5.
-/

namespace Sys2Proof.Machine

/-- A record that comes with its row's operation is taken as it is. -/
theorem withOp_self {r : TblRecord} {op : BitVec 8} (hop : r.op = op) : withOp r op = r := by
  subst hop
  exact ite_self r

namespace Blk

variable {s u : Blk} {d i k w : Nat} {r : TblRecord}

/-! ### Records of one key (R103) -/

theorem applyEntry_insert_free (hop : r.op = 2) (hgood : entryBad 3 (bodyEntry r k) = false)
    (hnone : s.findLearn 0 (bits (bodyEntry r k) 79 68) (bits (bodyEntry r k) 127 80) = none)
    (hfree : s.freeLearn (bits (bodyEntry r k) 79 68) (bits (bodyEntry r k) 127 80) = some i) :
    s.applyEntry r k = (0, s.putLearn i (bodyEntry r k)) := by
  have hcode : r.op.toNat = 2 := congrArg BitVec.toNat hop
  simp only [applyEntry, hcode, hgood, hnone, hfree, Bool.false_eq_true, if_false]

theorem applyEntry_delete_found (hop : r.op = 3)
    (hfound : s.findLearn 0 (bits (bodyEntry r k) 79 68) (bits (bodyEntry r k) 127 80) = some i) :
    s.applyEntry r k = (0, s.putLearn i 0) := by
  have hcode : r.op.toNat = 3 := congrArg BitVec.toNat hop
  simp only [applyEntry, hcode, hfound]

theorem applyEntries_one (h : s.applyEntry r 0 = (0, u)) : s.applyEntries r 0 1 = (0, 1, u) := by
  rw [applyEntries, h]
  rfl

/-! ### The oldest learn event (R98) -/

theorem learnEvent_cons {e : LearnEvent} {rest : List LearnEvent} (hlock : s.flag .DMA_TBL_LOCK_locked 3 = false)
    (h : s.learn = e :: rest) : s.learnEvent = Blk.learnOne { s with learn := rest } e := by
  unfold learnEvent
  rw [if_neg (by simp [hlock]), h]

theorem learnOne_unknown {e : LearnEvent} (hnone : s.findLearn 0 e.vid e.mac = none) (hlimit : s.atLimit e.link = false)
    (hfree : s.freeLearn e.vid e.mac = some i) : s.learnOne e = s.putLearn i (learnEntry e.mac e.vid e.link false s.seconds16) := by
  unfold learnOne
  rw [hnone]
  dsimp only
  rw [hlimit, hfree, if_neg Bool.false_ne_true]

/-! ### The ageing sweep (R99) -/

/-- The dynamic entries older than age_s, by their index. -/
def agedOut (s : Blk) : List Nat :=
  (s.tables.filter fun kv => kv.1 / 1048576 = 3 && dynamicEntry kv.2 &&
    decide (s.fld .DMA_TBL_AGE_age_s 0 < (s.seconds16 + 65536 - bits kv.2 55 40) % 65536)).map fun kv => kv.1 % 1048576

theorem ageSweep_eq (hage : s.fld .DMA_TBL_AGE_age_s 0 ≠ 0) (hlock : s.flag .DMA_TBL_LOCK_locked 3 = false) :
    s.ageSweep = s.agedOut.foldl (fun s i => s.putLearn i 0) s := if_neg (by simp [hage, hlock])

theorem lt_of_mem_agedOut (h : i ∈ s.agedOut) : i < 1048576 := by
  obtain ⟨kv, -, rfl⟩ := List.mem_map.mp h
  exact Nat.mod_lt _ (by decide)

/-- A dynamic entry is listed in the table, for an unlisted one reads as zero; die 0's copy is the one that the sweep reads. -/
theorem mem_agedOut (hi : i < 1048576) (hdyn : dynamicEntry (s.tableEntry 0 3 i) = true)
    (hold : s.fld .DMA_TBL_AGE_age_s 0 < (s.seconds16 + 65536 - bits (s.tableEntry 0 3 i) 55 40) % 65536) : i ∈ s.agedOut := by
  have hlisted : ((0 * 9 + 3) * 1048576 + i, s.tableEntry 0 3 i) ∈ s.tables := by
    unfold tableEntry Tab.get at hdyn ⊢
    cases hfind : s.tables.find ((0 * 9 + 3) * 1048576 + i) with
    | none =>
      rw [hfind] at hdyn
      exact absurd hdyn (by decide)
    | some e => exact Tab.mem_of_find hfind
  refine List.mem_map.mpr ⟨_, List.mem_filter.mpr ⟨hlisted, ?_⟩, ?_⟩
  · simp only [hdyn, hold, decide_true, Bool.and_true, decide_eq_true_eq]
    omega
  · dsimp only
    omega

/-- An entry that a sweep takes is zero in every die's copy, and stays so as the sweep goes on. -/
theorem tableEntry_swept {is : List Nat} (hd : d < 4) (hi : i < 1048576) (his : ∀ j ∈ is, j < 1048576)
    (h : i ∈ is ∨ s.tableEntry d 3 i = 0) : (is.foldl (fun s j => s.putLearn j 0) s).tableEntry d 3 i = 0 := by
  induction is generalizing s with
  | nil => exact h.resolve_left List.not_mem_nil
  | cons j is ih =>
    refine ih (fun k hk => his k (List.mem_cons_of_mem j hk)) ?_
    rw [tableEntry_putLearn hd (his j List.mem_cons_self) hi]
    rcases (or_congr_left List.mem_cons).mp h with (rfl | h) | h
    · exact .inr (if_pos rfl)
    · exact .inl h
    · exact .inr (by rw [h, ite_self])

end Blk

open Blk

/-! ### The commands -/

variable {s : State} {r : TblRecord} {i w : Nat}

/-- A record of one key that writes an entry of the learning table completes with one entry applied. -/
theorem runs_oneKey {c : Instr} {op : BitVec 8} (hc : exec c s = run (·.tblTake .mgmtQueue (withOp r op)) s)
    (hop : r.op = op) (hload : s.blk.tableLoads = []) (hcount : r.count = 1) (h : s.blk.recordStatus .mgmtQueue r = 0) (hi : i < 262144)
    (hput : s.blk.applyEntry r 0 = (0, s.blk.putLearn i w)) (d : DieId) :
    Runs c s fun t => t.blk.tableEntry d 3 i = w ∧ t.blk.out = .tableDone r.tag.toNat 0 1 :: s.blk.out := by
  have happly : s.blk.applyEntries r 0 r.count.toNat = (0, 1, s.blk.putLearn i w) := by
    rw [hcount]
    exact applyEntries_one hput
  rw [withOp_self hop] at hc
  refine runs_of_eq hc (tblTake_checked hload h happly) ⟨?_, ?_⟩
  · exact (tableEntry_putLearn d.isLt (by omega) (by omega)).trans (if_pos rfl)
  · exact congrArg _ (TablesOnly.putLearn s.blk i w).out

theorem runs_learnEvent_unknown {e : LearnEvent} {rest : List LearnEvent} (hlock : s.blk.flag .DMA_TBL_LOCK_locked 3 = false)
    (h : s.blk.learn = e :: rest) (hi : i < 262144) (hnone : s.blk.findLearn 0 e.vid e.mac = none)
    (hlimit : s.blk.atLimit e.link = false) (hfree : s.blk.freeLearn e.vid e.mac = some i) (d : DieId) :
    Runs .learnEvent s fun t => t.blk.learn = rest ∧
      t.blk.tableEntry d 3 i = learnEntry e.mac e.vid e.link false s.blk.seconds16 := by
  refine runs_of_eq (g := (·.learnEvent)) rfl ((learnEvent_cons hlock h).trans (learnOne_unknown hnone hlimit hfree)) ⟨?_, ?_⟩
  · exact (TablesOnly.putLearn _ _ _).learn
  · exact (tableEntry_putLearn d.isLt (by omega) (by omega)).trans (if_pos rfl)

/-- Settles O5: records by the entry that they put, the learn event by `learnOne_unknown`, and the sweep by what it takes
(`mem_agedOut`) and leaves (`tableEntry_swept`). -/
theorem learningTable : Obligations.LearningTable := by
  unfold Obligations.LearningTable
  refine ⟨fun s r i d hload hcount hi h hgood hnone hfree hop => ?_, fun s r i d hload hcount hi hop h hfound => ?_,
    fun s e rest i d hlock h hi hnone hlimit hfree => runs_learnEvent_unknown hlock h hi hnone hlimit hfree d,
    fun s i d hage hlock hi hdyn hold => ?_⟩
  · have hrec : { r with op := 2 } = r := by rw [← hop]
    rw [hrec] at h hgood
    exact runs_oneKey rfl hop hload hcount h hi (applyEntry_insert_free hop hgood hnone hfree) d
  · exact runs_oneKey rfl hop hload hcount h hi (applyEntry_delete_found hop hfound) d
  · exact runs_of_eq (g := (·.ageSweep)) rfl (ageSweep_eq hage hlock) (tableEntry_swept d.isLt (by omega)
      (fun j => lt_of_mem_agedOut) (.inl (mem_agedOut (by omega) hdyn hold)))

end Sys2Proof.Machine
end

section
/-!
PROOF. A die's allocator (R128, R129, R132 to R134, R139): the order in which it takes its requests, when a copy is admitted, and what
its decision leaves. O6.
-/

namespace Sys2Proof.Machine

/-- One value listed at many keys. -/
theorem Tab.find_foldl_put {α : Type} (v : α) (ns : List Nat) (t : Tab α) (n : Nat) :
    (ns.foldl (fun t n => t.put n v) t).find n = if n ∈ ns then some v else t.find n := by
  induction ns generalizing t with
  | nil => simp
  | cons m ns ih =>
    rw [List.foldl_cons, ih, Tab.find_put]
    by_cases hn : n ∈ ns
    · simp [hn]
    · simp [hn, List.mem_cons]

namespace Blk

variable {s t : Blk} {d key idle n : Nat} {c : CopyRec} {r : Nat × Request}

@[simp] theorem bsl_updBsl_self (g : BasaltDie → BasaltDie) : (s.updBsl d g).bsl d = g (s.bsl d) := by simp [bsl_updBsl]

@[simp] theorem copy_putCopy_self : (s.putCopy key c).copy? key = some c := Tab.find_put_self _ _ _

/-! ### What an allocator judges by (R129) -/

/-- `t` is `s` but for the books of Basalt, in which the cells of die `d` that are not free are the same. -/
structure SameCells (s t : Blk) (d : Nat) : Prop where
  eq : t = { s with basalt := t.basalt }
  cells : (t.bsl d).cells = (s.bsl d).cells

theorem SameCells.trans {u : Blk} (h : SameCells s t d) (k : SameCells t u d) : SameCells s u d :=
  ⟨by rw [k.eq, h.eq], k.cells.trans h.cells⟩

theorem SameCells.updBsl {g : BasaltDie → BasaltDie} (h : ∀ b, (g b).cells = b.cells) : SameCells s (s.updBsl d g) d :=
  ⟨rfl, by rw [bsl_updBsl_self, h]⟩

namespace SameCells

theorem fld (h : SameCells s t d) (f : Fld) (i : Nat) : t.fld f i = s.fld f i := fld_congr (by rw [h.eq]) f i

theorem sliceOff (h : SameCells s t d) (k : Nat) : t.sliceOff k = s.sliceOff k := by
  unfold Blk.sliceOff
  rw [h.fld]

theorem cellOut (h : SameCells s t d) (m : Nat) : t.cellOut d m = s.cellOut d m := by
  unfold Blk.cellOut
  rw [h.sliceOff, h.fld]

theorem usable (h : SameCells s t d) : t.usable d = s.usable d := by
  have hout : t.sliceOut d = s.sliceOut d := by
    funext k
    unfold sliceOut
    rw [h.sliceOff, h.fld]
  unfold Blk.usable retired
  simp only [hout, h.cells, h.cellOut]

theorem usedCells (h : SameCells s t d) (k : Nat) : t.usedCells d k = s.usedCells d k := by
  unfold Blk.usedCells
  rw [h.cells]

theorem freeCount (h : SameCells s t d) : t.freeCount d = s.freeCount d := by
  unfold Blk.freeCount
  rw [h.usable, h.cells]

theorem overCells (h : SameCells s t d) (k m : Nat) : t.overCells d k m = s.overCells d k m := by
  unfold Blk.overCells guaranteed
  rw [h.usedCells, h.fld]

theorem freeShared (h : SameCells s t d) : t.freeShared d = s.freeShared d := by
  unfold Blk.freeShared sharedCells guaranteed
  simp only [h.usable, h.usedCells, h.fld]

theorem admits (h : SameCells s t d) (k m depth : Nat) : t.admits d k m depth = s.admits d k m depth := by
  unfold Blk.admits
  rw [h.overCells, h.freeShared, h.freeCount, h.fld]

theorem freeFrom (h : SameCells s t d) (fuel i m : Nat) : t.freeFrom d fuel i m = s.freeFrom d fuel i m := by
  induction fuel generalizing i m with
  | zero => rfl
  | succ fuel ih => simp only [Blk.freeFrom, ih, h.sliceOff, h.cellOut, h.cells]

theorem pickCells (h : SameCells s t d) (m : Nat) : t.pickCells d m = s.pickCells d m := by
  unfold Blk.pickCells
  rw [h.freeFrom, h.cells]

end SameCells

/-- A copy within its class's guarantee, or within what alpha leaves it of the shared cells, is admitted. -/
theorem admits_of_fits {k depth : Nat} (hn : n ≤ s.freeCount d) (hshared : (s.overCells d k n : Int) ≤ s.freeShared d)
    (halpha : s.overCells d k n = 0 ∨ 8 < s.fld .BSL_POOL_TC_alpha (8 * d + k) ∨
      ((depth + n) * 16 : Int) ≤ 2 ^ s.fld .BSL_POOL_TC_alpha (8 * d + k) * s.freeShared d) : s.admits d k n depth = true := by
  unfold admits alphaOf
  dsimp only
  by_cases h8 : s.fld .BSL_POOL_TC_alpha (8 * d + k) ≤ 8
  · rw [if_pos h8]
    have := halpha.imp_right (·.resolve_left (by omega))
    simpa [hn, hshared] using this
  · simp [if_neg h8, hn, hshared]

/-- One with fewer cells free than it needs, or fewer shared, is refused. -/
theorem admits_of_short {k : Nat} (h : s.freeCount d < n ∨ s.freeShared d < (s.overCells d k n : Int)) (depth : Nat) :
    s.admits d k n depth = false := by
  unfold admits
  dsimp only
  rcases h with h | h
  · simp [show ¬ n ≤ s.freeCount d by omega]
  · simp [show ¬ (s.overCells d k n : Int) ≤ s.freeShared d by omega]

/-- The depth that an allocator judges by is 0, or that of one of the queues. -/
theorem foldl_max_mem (f : Nat → Nat) (qs : List Nat) (m : Nat) : qs.foldl (fun m q => max m (f q)) m ∈ m :: qs.map f := by
  induction qs generalizing m with
  | nil => exact List.mem_singleton_self m
  | cons q qs ih =>
    rw [List.foldl_cons, List.map_cons]
    rcases List.mem_cons.mp (ih (max m (f q))) with h | h
    · rw [h]
      rcases max_choice m (f q) with hm | hm <;> simp [hm]
    · exact List.mem_cons_of_mem _ (List.mem_cons_of_mem _ h)

/-! ### A decision (R132, R133) -/

/-- The depth of the deepest queue that a copy is bound for (R129). -/
def depthOf (s : Blk) (key : Nat) (c : CopyRec) : Nat :=
  ((s.receivers key c).filterMap fun (x : Leg) => s.queueFor x.1 c.cls c.node).foldl (fun m q => max m (s.queueCells (key % 4) q)) 0

/-- A copy as its grant leaves it. -/
def grantedCopy (s : Blk) (key : Nat) (c : CopyRec) : CopyRec :=
  { c with phase := .granted, todo := s.receivers key c, cells := s.pickCells (key % 4) c.ncells, turned := false,
           tag := c.tag.map fun t => { t with adm := some s.now, xdie := dieOfTile c.tile ≠ key % 4 } }

theorem decideCopy_granted (h : s.copy? key = some c) (hin : c.inLink = none) (htx : c.tx = none)
    (hall : s.receivers key c = s.namedLegs (key % 4) c.target) (hne : s.receivers key c ≠ [])
    (hadm : s.admits (key % 4) c.cls c.ncells (s.depthOf key c) = true) : s.decideCopy key =
      (s.putCopy key (s.grantedCopy key c)).ownCells (key % 4) (s.pickCells (key % 4) c.ncells) ⟨false, c.cls⟩ := by
  have hskip : s.skipCopies c ((s.namedLegs (key % 4) c.target).length - (s.receivers key c).length) = s := by
    rw [← hall, Nat.sub_self]
    rfl
  unfold depthOf at hadm
  unfold decideCopy
  rw [h]
  dsimp only
  rw [if_neg hne, if_pos hadm, htx, hin]
  dsimp only
  rw [hskip]
  unfold grantedCopy
  rw [hin, htx]
  rfl

theorem decideCopy_discarded (h : s.copy? key = some c) (hall : s.receivers key c = s.namedLegs (key % 4) c.target)
    (hne : s.receivers key c ≠ []) (hadm : s.admits (key % 4) c.cls c.ncells (s.depthOf key c) = false)
    (hl : s.lossless (key % 4) c.cls = false) : s.decideCopy key =
      (((s.traceDrop key 2 0).lostCopy c).count .BSL_DROP_NOCELL_count (key % 4) 1).discardAndOffer key := by
  have hskip : s.skipCopies c ((s.namedLegs (key % 4) c.target).length - (s.receivers key c).length) = s := by
    rw [← hall, Nat.sub_self]
    rfl
  unfold depthOf at hadm
  unfold decideCopy
  rw [h]
  dsimp only
  rw [if_neg hne, if_neg (by simp [hadm]), if_neg (by simp [hl]), hskip]

@[simp] theorem copy_discardCopy_self : (s.discardCopy key).copy? key = none := by
  unfold discardCopy
  split
  next h => exact h
  next x h =>
    dsimp only
    exact ((Tidied.settle _).copy? _).trans (by simp [copy_delCopy])

/-- What a copy that is lost leaves: its context notes it. -/
theorem lostCopy_eq (s : Blk) (c : CopyRec) : ∃ x, s.lostCopy c = { s with contexts := x } := by
  unfold lostCopy
  split
  · split
    · exact ⟨_, rfl⟩
    · split <;> exact ⟨_, rfl⟩
  · exact ⟨_, rfl⟩

/-- A lossy copy of the block's own that is refused is counted and goes. -/
theorem decideCopy_discarded_leaves (h : s.copy? key = some c) (hin : c.inLink = none)
    (hall : s.receivers key c = s.namedLegs (key % 4) c.target) (hne : s.receivers key c ≠ [])
    (hadm : s.admits (key % 4) c.cls c.ncells (s.depthOf key c) = false) (hl : s.lossless (key % 4) c.cls = false) :
    (s.decideCopy key).copy? key = none ∧ (s.decideCopy key).fld .BSL_DROP_NOCELL_count (key % 4) =
      min (s.fld .BSL_DROP_NOCELL_count (key % 4) + 1) (2 ^ 64 - 1) := by
  obtain ⟨x, hx⟩ := lostCopy_eq (s.traceDrop key 2 0) c
  have hcounted : (((s.traceDrop key 2 0).lostCopy c).count .BSL_DROP_NOCELL_count (key % 4) 1).copy? key = some c := by
    unfold copy?
    rw [count_copies, hx]
    exact ((Tidied.traceDrop _ _ _).copy? _).trans h
  rw [decideCopy_discarded h hall hne hadm hl]
  unfold discardAndOffer
  rw [hcounted]
  dsimp only
  rw [hin]
  refine ⟨copy_discardCopy_self, ((Handled.discardCopy _).fld_eq (by simp [handling, counts]) _).trans ?_⟩
  rw [fld_count_self _ _ _ _ (by simp [counts]) rfl, hx]
  exact congrArg (fun n => min (n + 1) _) ((Handled.traceDrop _ _ _).fld_eq (by simp [handling, counts]) _)

/-! ### A clock of the allocator (R134) -/

theorem flatMap_ite_eq {α : Type} {l : List Nat} {a : Nat} (x : α) (hn : l.Nodup) (h : a ∈ l) :
    (l.flatMap fun k => if k = a then [x] else []) = [x] := by
  induction l with
  | nil => exact absurd h List.not_mem_nil
  | cons b l ih =>
    obtain ⟨hb, hl⟩ := List.nodup_cons.mp hn
    rw [List.flatMap_cons]
    by_cases hab : b = a
    · have hrest : (l.flatMap fun k => if k = a then [x] else []) = [] := by
        rw [List.flatMap_eq_nil_iff]
        rintro k hk
        rw [if_neg]
        rintro rfl
        exact hb (hab ▸ hk)
      rw [if_pos hab, hrest, List.append_nil]
    · rw [if_neg hab, ih hl ((List.mem_cons.mp h).resolve_left (Ne.symm hab)), List.nil_append]

/-- A request alone is the first in turn, wherever the pointer stands. -/
theorem requestOrder_single {b : BasaltDie} (h : b.requests = [r]) (hc : b.carried = []) (ht : r.1 < 32) : requestOrder b = [r] := by
  have hturn : ∀ k ∈ List.range 32, (b.pointer + k) % 32 = r.1 ↔ k = (r.1 + 32 - b.pointer % 32) % 32 := fun k hk => by
    have := List.mem_range.mp hk
    omega
  have hmem : (r.1 + 32 - b.pointer % 32) % 32 ∈ List.range 32 := List.mem_range.mpr (Nat.mod_lt _ (by decide))
  rw [← flatMap_ite_eq r List.nodup_range hmem]
  unfold requestOrder
  refine List.flatMap_congr fun k hk => ?_
  rw [h, hc]
  simp only [← hturn k hk]
  by_cases hk' : (b.pointer + k) % 32 = r.1
  · cases hs : r.2.isSpill <;> simp [hk', hs]
  · simp [hk', Ne.symm hk']

/-- The end of a clock of an allocator: the pointer moves on, and what is undecided is carried over. -/
def clockEnds (s : Blk) (d : Nat) : Blk :=
  s.updBsl d fun b => { b with pointer := (b.pointer + 1) % 32, carried := requestOrder b, requests := [] }

/-- The books of requests of die `d` as its one request is decided, after `idle` clocks without one. -/
def taken (s : Blk) (d idle : Nat) (r : Nat × Request) : Blk :=
  (s.updBsl d fun b => { b with pointer := (b.pointer + idle) % 32 }).updBsl d fun b =>
    if b.carried.contains r then { b with carried := b.carried.erase r } else { b with requests := b.requests.erase r }

theorem decideClock_copy {tile : Nat} (h : (s.bsl d).requests = [(tile, .copy key)]) (hc : (s.bsl d).carried = []) (ht : tile < 32) :
    s.decideClock d idle = ((s.taken d idle (tile, .copy key)).decideCopy key).clockEnds d := by
  unfold decideClock
  dsimp only
  rw [requestOrder_single (r := (tile, .copy key)) (by simpa using h) (by simpa using hc) ht]
  rfl

theorem sameCells_taken : SameCells s (s.taken d idle r) d := by
  have hpointer : SameCells s (s.updBsl d fun b => { b with pointer := (b.pointer + idle) % 32 }) d := .updBsl fun _ => rfl
  exact hpointer.trans (.updBsl fun b => by split <;> rfl)

theorem bsl_taken (hc : (s.bsl d).carried = []) (h : (s.bsl d).requests = [r]) :
    (s.taken d idle r).bsl d = { s.bsl d with pointer := ((s.bsl d).pointer + idle) % 32, requests := [] } := by
  unfold taken
  rw [bsl_updBsl_self, bsl_updBsl_self]
  simp [hc, h]

theorem retryCopy_refused (h : s.copy? key = some c) (hp : c.phase = .refused) (hd : dieOfTile c.tile = key % 4) : s.retryCopy key =
    (s.putCopy key { c with phase := .asked }).updBsl (key % 4) fun b => { b with requests := b.requests ++ [(c.tile, .copy key)] } := by
  have hask : asking key c = { c with phase := .asked } := by
    unfold asking
    rw [if_pos hd]
  unfold retryCopy
  rw [h]
  dsimp only
  rw [if_pos hp, ask_local h hd, hask]

theorem stallCopy_reported (h : s.copy? key = some c) (hp : c.phase = .refused) (ht : c.turned = true) (hs : c.stalled = false)
    (hl : s.lossless (key % 4) c.cls = true) : s.stallCopy key =
      ((s.putCopy key { c with stalled := true }).count .BSL_ADM_STALL_count (key % 4) 1).raise .BSL_INT_stall (key % 4) := by
  unfold stallCopy
  rw [h]
  exact if_pos (by simp [undecided, hp, ht, hs, hl])

end Blk

open Blk

/-! ### The commands -/

section

variable {s : State} {d : DieId} {idle key : Nat} {t : Fin 32} {c : CopyRec}
  (hreq : (s.blk.bsl d).requests = [(t.val, .copy key)]) (hcar : (s.blk.bsl d).carried = []) (hkey : key % 4 = d)
  (hc : s.blk.copy? key = some c) (hin : c.inLink = none) (htx : c.tx = none)
  (hall : s.blk.receivers key c = s.blk.namedLegs d c.target) (hne : s.blk.namedLegs d c.target ≠ [])

include hreq hcar hkey hc hin htx hall hne

theorem runs_admissionRequest_granted (hadm : s.blk.admits d c.cls c.ncells (s.blk.depthOf key c) = true) :
    Runs (.admissionRequest d idle) s fun u =>
      (u.blk.copy? key).map (fun x => (x.phase, x.todo, x.cells)) =
        some (.granted, s.blk.namedLegs d c.target, s.blk.pickCells d c.ncells) ∧
      (u.blk.bsl d).requests = [] ∧
      (∀ n, (u.blk.bsl d).cells.find n =
        if n ∈ s.blk.pickCells d c.ncells then some ⟨false, c.cls⟩ else (s.blk.bsl d).cells.find n) ∧
      (u.blk.bsl d).pointer = ((s.blk.bsl d).pointer + idle + 1) % 32 := by
  set b := s.blk.taken d idle (t.val, .copy key) with hb
  have hsame : SameCells s.blk b d := sameCells_taken
  have hbooks : b.bsl d = { s.blk.bsl d with pointer := ((s.blk.bsl d).pointer + idle) % 32, requests := [] } := bsl_taken hcar hreq
  have hgrant := decideCopy_granted (s := b) hc hin htx (by rw [hkey]; exact hall) (by rw [hb]; exact hall ▸ hne) (by
    rw [hkey, hsame.admits]
    exact hadm)
  rw [hkey, hsame.pickCells] at hgrant
  refine runs_of_eq (g := (·.decideClock d idle)) rfl (decideClock_copy hreq hcar t.isLt) ?_
  rw [← hb, hgrant]
  set g := b.grantedCopy key c with hg
  have hcells : ((b.putCopy key g).ownCells d (s.blk.pickCells d c.ncells) ⟨false, c.cls⟩).bsl d =
      { b.bsl d with cells := (s.blk.pickCells d c.ncells).foldl (fun t n => t.put n ⟨false, c.cls⟩) (s.blk.bsl d).cells } := by
    unfold ownCells
    rw [bsl_updBsl_self, ← hsame.cells]
    rfl
  refine ⟨?_, ?_, fun n => ?_, ?_⟩
  · change ((b.putCopy key g).copy? key).map _ = _
    rw [copy_putCopy_self, hg, ← hall, ← hsame.pickCells, ← hkey]
    rfl
  · unfold clockEnds
    rw [bsl_updBsl_self]
  · unfold clockEnds
    rw [bsl_updBsl_self, hcells]
    exact Tab.find_foldl_put _ _ _ _
  · unfold clockEnds
    rw [bsl_updBsl_self, hcells, hbooks]
    dsimp only
    omega

omit htx in
theorem runs_admissionRequest_discarded (hl : s.blk.lossless d c.cls = false)
    (hadm : s.blk.admits d c.cls c.ncells (s.blk.depthOf key c) = false) :
    Runs (.admissionRequest d idle) s fun u => u.blk.copy? key = none ∧ (u.blk.bsl d).requests = [] ∧
      u.blk.fld .BSL_DROP_NOCELL_count d = min (s.blk.fld .BSL_DROP_NOCELL_count d + 1) (2 ^ 64 - 1) := by
  set b := s.blk.taken d idle (t.val, .copy key) with hb
  have hsame : SameCells s.blk b d := sameCells_taken
  obtain ⟨hgone, hcount⟩ := decideCopy_discarded_leaves (s := b) hc hin (by rw [hkey]; exact hall) (by rw [hb]; exact hall ▸ hne)
    (by rw [hkey, hsame.admits]; exact hadm) (by rw [hkey]; exact hl)
  rw [hkey] at hcount
  refine runs_of_eq (g := (·.decideClock d idle)) rfl (decideClock_copy hreq hcar t.isLt) ⟨hgone, ?_, hcount⟩
  unfold clockEnds
  rw [bsl_updBsl_self]

end

theorem runs_admissionRetry_asks {s : State} {fid : Nat} {d : DieId} {c : CopyRec} (h : s.blk.copy? (4 * fid + d) = some c)
    (hp : c.phase = .refused) (hd : dieOfTile c.tile = d) :
    Runs (.admissionRetry fid d) s fun u => u.blk.copy? (4 * fid + d) = some { c with phase := .asked } ∧
      (u.blk.bsl d).requests = (s.blk.bsl d).requests ++ [(c.tile, .copy (4 * fid + d))] := by
  have hmod : (4 * fid + d) % 4 = d := by omega
  refine runs_of_eq (g := (·.retryCopy (4 * fid + d))) rfl (retryCopy_refused h hp (by rw [hmod]; exact hd)) ⟨?_, ?_⟩
  · exact copy_putCopy_self
  · rw [hmod, bsl_updBsl_self]
    rfl

theorem runs_admissionStall_reports {s : State} {fid : Nat} {d : DieId} {c : CopyRec} (h : s.blk.copy? (4 * fid + d) = some c)
    (hp : c.phase = .refused) (ht : c.turned = true) (hs : c.stalled = false) (hl : s.blk.lossless d c.cls = true) :
    Runs (.admissionStall fid d) s fun u => u.blk.copy? (4 * fid + d) = some { c with stalled := true } ∧
      u.blk.fld .BSL_ADM_STALL_count d = min (s.blk.fld .BSL_ADM_STALL_count d + 1) (2 ^ 64 - 1) ∧
      u.blk.flag .BSL_INT_stall d = true := by
  have hmod : (4 * fid + d) % 4 = d := by omega
  refine runs_of_eq (g := (·.stallCopy (4 * fid + d))) rfl (stallCopy_reported h hp ht hs (by rw [hmod]; exact hl)) ⟨?_, ?_, ?_⟩
  · unfold copy?
    rw [raise_copies, count_copies]
    exact copy_putCopy_self
  · rw [hmod, fld_raise_ne _ _ _ _ _ (by simp [messages]) (by decide), fld_count_self _ _ _ _ (by simp [counts]) rfl, fld_putCopy]
  · rw [hmod]
    exact flag_raise _ _ _ (by simp [messages])

/-- Settles O6: `admits_of_fits` and `admits_of_short` say which copies are admitted, `decideClock_copy` that the one request is decided;
a refused copy asks again (`retryCopy_refused`), and its stall is reported (`stallCopy_reported`). -/
theorem admissionDecided : Obligations.AdmissionDecided := by
  unfold Obligations.AdmissionDecided
  refine ⟨fun s d idle key t c hreq hcar hkey hc hin htx hall hne hfree hshared hfits => ?_,
    fun s d idle key t c hreq hcar hkey hc hin _ hall hne hl hshort => ?_, fun s fid d c => runs_admissionRetry_asks,
    fun s fid d c => runs_admissionStall_reports⟩
  · refine runs_admissionRequest_granted hreq hcar hkey hc hin htx hall hne (admits_of_fits hfree hshared ?_)
    refine hfits.imp_right (·.imp_right fun h => h _ ?_)
    unfold depthOf
    rw [hkey, hall]
    exact foldl_max_mem _ _ 0
  · exact runs_admissionRequest_discarded hreq hcar hkey hc hin hall hne hl (admits_of_short hshort _)

end Sys2Proof.Machine
end

section
/-!
PROOF. Copies that join their queues (R137, R151, R159, R161): what the writing of cells leaves as it was, what an enqueued copy leaves
in its queue, and what the writing of a copy's first and last cells comes to. O7.
-/

namespace Sys2Proof.Machine

namespace Blk

variable {s t u : Blk} {key fid q : Nat} {c : CopyRec} {x : Leg}

@[simp] theorem queue_setQueue_self (es : List QEntry) : (s.setQueue q es).queue q = es :=
  (Tab.get_set s.queues [] [] q q es fun _ => rfl).trans (if_pos rfl)

theorem Handled.queue (h : Handled s t) (q : Nat) : t.queue q = s.queue q := by
  rw [h.1]
  rfl

/-! ### Cells are written -/

/-- From `s` to `t` cells have been written into Basalt, and have left their landing buffers. -/
def CellsWritten (s t : Blk) : Prop := t = { s with basalt := t.basalt, agateDirs := t.agateDirs }

namespace CellsWritten

theorem refl (s : Blk) : CellsWritten s s := rfl

theorem trans (h : CellsWritten s t) (k : CellsWritten t u) : CellsWritten s u := by
  unfold CellsWritten at *
  rw [k, h]

theorem foldl {β : Type} (g : Blk → β → Blk) (h : ∀ t b, CellsWritten t (g t b)) (l : List β) (t : Blk) :
    CellsWritten t (l.foldl g t) := by
  induction l generalizing t with
  | nil => exact refl t
  | cons b l ih => exact (h t b).trans (ih _)

theorem writeCopyCell (key i : Nat) (c : CopyRec) : CellsWritten s (s.writeCopyCell key i c) := by
  unfold Blk.writeCopyCell
  split <;> rfl

theorem unlandCell (key i : Nat) (c : CopyRec) : CellsWritten s (s.unlandCell key i c) := by
  unfold Blk.unlandCell
  dsimp only
  split <;> rfl

/-- The cells of a copy are written, `n` of them. -/
theorem copyCells (key n : Nat) (c : CopyRec) :
    CellsWritten s ((List.range n).foldl (fun s i => (s.writeCopyCell key i c).unlandCell key i c) s) :=
  foldl _ (fun _ i => (writeCopyCell key i c).trans (unlandCell key i c)) _ _

theorem queue (h : CellsWritten s t) (q : Nat) : t.queue q = s.queue q := by rw [h]; rfl
theorem frames (h : CellsWritten s t) : t.frames = s.frames := by rw [h]
theorem copies (h : CellsWritten s t) : t.copies = s.copies := by rw [h]
theorem inService (h : CellsWritten s t) (m : Nat) : t.inService m = s.inService m := by rw [h]; rfl
theorem queueFor (h : CellsWritten s t) (m k : Nat) (src : NodeSrc) : t.queueFor m k src = s.queueFor m k src := by rw [h]; rfl
theorem cutThrough (h : CellsWritten s t) (c : CopyRec) (m : Nat) : t.cutThrough c m = s.cutThrough c m := by rw [h]; rfl

end CellsWritten

/-! ### A copy joins a queue (R161) -/

/-- The block as a copy is about to join its class on a link: its cells are queued, and the class's shaper is counted up to now. -/
def waking (s : Blk) (key : Nat) (c : CopyRec) (l : Nat) : Blk :=
  (if c.enqueued then s else s.enqueueCells (key % 4) c.cells).classWakes l c.cls

theorem queue_waking (l : Nat) : (s.waking key c l).queue q = s.queue q := by
  unfold waking classWakes
  split <;> split <;> rfl

theorem wakeLink_leaves (s : Blk) (l : Nat) : (s.wakeLink l).queues = s.queues ∧ (s.wakeLink l).copies = s.copies := by
  unfold wakeLink
  split
  · unfold sendKeepalive
    obtain ⟨b, p, h⟩ := onWire_leaves ((s.setState l .wake).raise .TIL_LNK_INT_ka_change l) l (.keepalive l true (keepaliveCheck true))
    rw [h]
    exact ⟨raise_queues _ _ _, raise_copies _ _ _⟩
  · exact ⟨rfl, rfl⟩

/-- A copy that has joined a receiver's queue. -/
def enqueuedCopy (c : CopyRec) (x : Leg) : CopyRec := { c with todo := c.todo.erase x, refs := c.refs + 1, enqueued := true }

theorem enqueueAt_eq (h : s.copy? key = some c) (h7 : c.cls ≠ 7) (hs : s.inService x.1 = true)
    (hq : s.queueFor x.1 c.cls c.node = some q) : ∃ e : QEntry, s.enqueueAt key x =
      (((s.waking key c x.1).putCopy key (enqueuedCopy c x)).setQueue q ((s.waking key c x.1).queue q ++ [e])).wakeLink x.1 ∧
        e.copy = key ∧ e.cells = c.ncells := by
  unfold enqueueAt
  rw [h]
  dsimp only
  rw [if_neg (by simp [hs]), hq]
  dsimp only
  rw [if_neg h7]
  exact ⟨_, rfl, rfl, rfl⟩

/-- From `s` to `t` a copy has joined a queue, last. -/
def Joined (s t : Blk) (key q : Nat) (c : CopyRec) : Prop :=
  ∃ e : QEntry, t.queue q = s.queue q ++ [e] ∧ e.copy = key ∧ e.cells = c.ncells

theorem Joined.of_queues (h : Joined t u key q c) (ht : t.queue q = s.queue q) : Joined s u key q c := by
  unfold Joined
  rw [← ht]
  exact h

theorem enqueueAt_joins (h : s.copy? key = some c) (h7 : c.cls ≠ 7) (hs : s.inService x.1 = true)
    (hq : s.queueFor x.1 c.cls c.node = some q) :
    Joined s (s.enqueueAt key x) key q c ∧ (s.enqueueAt key x).copy? key = some (enqueuedCopy c x) := by
  obtain ⟨e, he, hcopy, hcells⟩ := enqueueAt_eq h h7 hs hq
  rw [he]
  obtain ⟨hqueues, hcopies⟩ := wakeLink_leaves
    (((s.waking key c x.1).putCopy key (enqueuedCopy c x)).setQueue q ((s.waking key c x.1).queue q ++ [e])) x.1
  refine ⟨⟨e, ?_, hcopy, hcells⟩, ?_⟩
  · refine (congrArg (Tab.get · [] q) hqueues).trans ?_
    exact (queue_setQueue_self _).trans (congrArg (· ++ [e]) (queue_waking x.1))
  · exact (congrArg (Tab.find · key) hcopies).trans copy_putCopy_self

theorem closeCopy_of_awaited (h : s.copy? key = some c) (hr : c.refs ≠ 0 ∨ c.todo ≠ []) : s.closeCopy key = s := by
  unfold closeCopy
  rw [h]
  exact if_neg (by rcases hr with hr | hr <;> simp [hr])

/-- A copy joins the queue of its one receiver, and its frame's staging follows. -/
theorem enqueue_single (h : s.copy? key = some c) (h7 : c.cls ≠ 7) (hs : s.inService x.1 = true)
    (hq : s.queueFor x.1 c.cls c.node = some q) :
    Joined s ((([x].foldl (fun s l => s.enqueueAt key l) s).closeCopy key).settle fid) key q c ∧
      ((([x].foldl (fun s l => s.enqueueAt key l) s).closeCopy key).settle fid).copy? key = some (enqueuedCopy c x) := by
  obtain ⟨hjoined, hcopy⟩ := enqueueAt_joins h h7 hs hq
  rw [List.foldl_cons, List.foldl_nil, closeCopy_of_awaited hcopy (.inl (Nat.succ_ne_zero _))]
  obtain ⟨e, hqueue, he⟩ := hjoined
  exact ⟨⟨e, ((Handled.settle _).queue q).trans hqueue, he⟩, ((Tidied.settle _).copy? _).trans hcopy⟩

/-! ### The first cell (R137) -/

theorem firstWritten_behind (h : s.behindEarlier key c = true) (hc : s.copy? key = some c) : s.firstWritten key = s := by
  unfold firstWritten
  rw [hc]
  exact if_neg (by simp [h])

theorem firstWritten_again (hc : s.copy? key = some c) (h : c.first = true) : s.firstWritten key = s := by
  unfold firstWritten
  rw [hc]
  exact if_neg (by simp [h])

/-- A copy whose first cell has been written; it goes cut-through to a link or not. -/
def begunCopy (c : CopyRec) (cut : Bool) : CopyRec :=
  { c with first := true, wrote := c.wrote + 1, tag := if cut then c.tag.map fun t => { t with cut := true } else c.tag }

/-- The block with a copy's first cell written, before the copy is put on a queue. -/
def begun (s : Blk) (key : Nat) (c : CopyRec) (cut : Bool) : Blk :=
  ((s.writeCopyCell key 0 c).unlandCell key 0 c).putCopy key (begunCopy c cut)

theorem cellsWritten_first (s : Blk) (key : Nat) (c : CopyRec) :
    CellsWritten s ((s.writeCopyCell key 0 c).unlandCell key 0 c) := (CellsWritten.writeCopyCell _ _ _).trans (.unlandCell _ _ _)

@[simp] theorem copy_begun (cut : Bool) : (s.begun key c cut).copy? key = some (begunCopy c cut) := copy_putCopy_self
theorem queue_begun (cut : Bool) : (s.begun key c cut).queue q = s.queue q := (cellsWritten_first s key c).queue q
theorem inService_begun (cut : Bool) (m : Nat) : (s.begun key c cut).inService m = s.inService m :=
  (cellsWritten_first s key c).inService m
theorem queueFor_begun (cut : Bool) (m k : Nat) (src : NodeSrc) : (s.begun key c cut).queueFor m k src = s.queueFor m k src :=
  (cellsWritten_first s key c).queueFor m k src
theorem frame_begun (cut : Bool) : (s.begun key c cut).frame? fid = s.frame? fid :=
  congrArg (Tab.find · fid) (cellsWritten_first s key c).frames

section First

variable (hc : s.copy? key = some c) (hp : c.phase = .granted) (hf : c.first = false) (hat : s.cellAt key 0 c = true)
  (htodo : c.todo = [x]) (hbehind : s.behindEarlier key c = false)

include hc hp hf hat htodo hbehind

theorem firstWritten_eq : s.firstWritten key =
    (((if s.cutThrough c x.1 then [x] else []).foldl (fun s l => s.enqueueAt key l) (s.begun key c (s.cutThrough c x.1))).closeCopy
      key).settle (key / 4) := by
  have hcut : (s.writeCopyCell key 0 c).cutThrough c x.1 = s.cutThrough c x.1 := (CellsWritten.writeCopyCell key 0 c).cutThrough c x.1
  unfold firstWritten
  rw [hc]
  dsimp only
  rw [if_pos (by simp [hp, hf, hat, hbehind])]
  have hfilter : (c.todo.filter fun (y : Leg) => (s.writeCopyCell key 0 c).cutThrough c y.1) =
      if s.cutThrough c x.1 then [x] else [] := by
    simp only [htodo, List.filter_cons, List.filter_nil, hcut]
  rw [hfilter]
  unfold begun begunCopy
  cases s.cutThrough c x.1 <;> rfl

/-- To a link that it goes to cut-through the copy is enqueued. -/
theorem firstWritten_cut (hcut : s.cutThrough c x.1 = true) (h7 : c.cls ≠ 7) (hs : s.inService x.1 = true)
    (hq : s.queueFor x.1 c.cls c.node = some q) : Joined s (s.firstWritten key) key q c ∧
      (s.firstWritten key).copy? key = some (enqueuedCopy (begunCopy c true) x) := by
  rw [firstWritten_eq hc hp hf hat htodo hbehind, hcut, if_pos rfl]
  obtain ⟨hjoined, hcopy⟩ := enqueue_single (s := s.begun key c true) (fid := key / 4) (copy_begun true) h7
    ((inService_begun _ _).trans hs) ((queueFor_begun _ _ _ _).trans hq)
  exact ⟨hjoined.of_queues (queue_begun true), hcopy⟩

/-- For a link that it does not go to cut-through it waits for its last cell. -/
theorem firstWritten_stored (hcut : s.cutThrough c x.1 = false) : s.firstWritten key = (s.begun key c false).settle (key / 4) := by
  rw [firstWritten_eq hc hp hf hat htodo hbehind, hcut, if_neg (by simp), List.foldl_nil,
    closeCopy_of_awaited (copy_begun false) (.inr (by simp [begunCopy, htodo]))]

end First

/-! ### What the settling of staging leaves of frames and links -/

theorem frame_settle {r : FrameRec} (h : (s.settle fid).frame? fid = some r) :
    ∃ r', s.frame? fid = some r' ∧ r.whole = r'.whole ∧ r.chkFail = r'.chkFail := by
  cases hf : s.frame? fid with
  | none =>
    unfold settle at h
    rw [hf] at h
    exact absurd (hf.symm.trans h) (by simp)
  | some r' =>
    by_cases hd : r'.dest = .copies
    · obtain ⟨y, hy⟩ := settle_frames hf hd
      unfold frame? at h
      rw [hy] at h
      split at h
      · rw [Tab.find_del_self] at h
        exact absurd h (by simp)
      · rw [Tab.find_put_self] at h
        exact ⟨r', rfl, Option.some.inj h ▸ ⟨rfl, rfl⟩⟩
    · unfold settle at h
      rw [hf] at h
      dsimp only at h
      rw [if_neg hd, hf] at h
      exact ⟨r', rfl, Option.some.inj h ▸ ⟨rfl, rfl⟩⟩

theorem fromUp_pfcUpdate (l k m : Nat) : ((s.pfcUpdate l k).link m).fromUp = (s.link m).fromUp := by
  have hxoff : ∀ g : Nat → Nat, ((s.updLink l fun r => { r with xoff := g r.xoff }).link m).fromUp = (s.link m).fromUp := fun g => by
    rw [link_updLink]
    split_ifs with h
    · rw [h]
    · rfl
  unfold pfcUpdate
  dsimp only
  split_ifs
  · rw [sendPfc, link_onWire]
    exact hxoff (· ||| 2 ^ k)
  · rw [sendPfc, link_onWire]
    exact hxoff (· ^^^ 2 ^ k)
  · exact hxoff (· ^^^ 2 ^ k)
  · rfl
  · rfl

theorem fromUp_releaseStaging (tile : Nat) (link : Option Nat) (k n m : Nat) :
    ((s.releaseStaging tile link k n).link m).fromUp = (s.link m).fromUp := by
  unfold releaseStaging
  split
  · rfl
  · rw [fromUp_pfcUpdate, link_updLink]
    split_ifs with h
    · rw [h]
      rfl
    · rfl

theorem fromUp_settle (m : Nat) : ((s.settle fid).link m).fromUp = (s.link m).fromUp := by
  unfold settle
  split
  · rfl
  next r _ =>
    dsimp only
    split
    · split <;> exact fromUp_releaseStaging r.tile r.link r.cls _ m
    · rfl

theorem inService_settle (m : Nat) : (s.settle fid).inService m = s.inService m := by
  have hin : ∀ k, (s.settle fid).isIn m k = s.isIn m k := fun k => by
    unfold isIn linkState
    rw [(Handled.settle fid).fld_eq (by simp [handling, counts])]
  unfold inService
  simp only [hin, fromUp_settle]

theorem queueFor_settle (m k : Nat) (src : NodeSrc) : (s.settle fid).queueFor m k src = s.queueFor m k src := by
  have hfld : ∀ g i, g = .FLD_PORT_SPLIT_nodes ∨ g = .FLD_SRC_NODE_gneiss_node ∨ g = .FLD_SRC_NODE_host_node ∨
      g = .FLD_SRC_NODE_jasper_node → (s.settle fid).fld g i = s.fld g i := by
    rintro g i (rfl | rfl | rfl | rfl) <;> exact (Handled.settle fid).fld_eq (by simp [handling, counts]) i
  unfold queueFor nodeFor namedNode nodeOwner
  simp [hfld]

theorem behindEarlier_congr (h : t.copies = s.copies) : t.behindEarlier key c = s.behindEarlier key c := by
  unfold behindEarlier
  rw [h]

/-- What a copy says of itself does not count among the frames before it (R151). -/
theorem behindEarlier_putCopy {c' : CopyRec} (hl : c'.inLink = c.inLink) (hk : c'.cls = c.cls) (ht : c'.todo = c.todo)
    (h : s.behindEarlier key c = false) : (s.putCopy key c').behindEarlier key c' = false := by
  unfold behindEarlier at *
  rw [hl, hk, ht]
  simp only [Bool.and_eq_false_iff, List.any_eq_false] at h ⊢
  refine h.imp_right fun h kv hkv => ?_
  rcases Tab.mem_put hkv with rfl | hkv
  · simp
  · exact h kv hkv

/-! ### The last cell (R137) -/

/-- A copy that is on its queues joins none as its last cell is written. -/
theorem lastWritten_enqueued (h : (s.firstWritten key).copy? key = some c) (htodo : c.todo = []) (hr : c.refs ≠ 0) (q : Nat) :
    (s.lastWritten key).queue q = (s.firstWritten key).queue q := by
  unfold lastWritten
  dsimp only
  rw [h]
  dsimp only
  split
  · rw [htodo, ite_self, if_neg (by simp), List.foldl_nil, closeCopy_of_awaited copy_putCopy_self]
    rotate_left
    · exact .inl hr
    exact ((Handled.settle _).queue q).trans ((CellsWritten.copyCells key c.ncells c).queue q)
  · rfl

/-- A copy that waits for its last cell is enqueued with it. -/
theorem lastWritten_joins (h : (s.firstWritten key).copy? key = some c) (hp : c.phase = .granted) (hf : c.first = true)
    (hd : dieOfTile c.tile = key % 4) (htodo : c.todo = [x]) (h7 : c.cls ≠ 7) (hchk : c.chkFail = false)
    (hbehind : (s.firstWritten key).behindEarlier key c = false) (hs : (s.firstWritten key).inService x.1 = true)
    (hq : (s.firstWritten key).queueFor x.1 c.cls c.node = some q)
    (hframe : ∀ r, (s.firstWritten key).frame? (key / 4) = some r → r.whole = true ∧ r.chkFail = false) :
    Joined (s.firstWritten key) (s.lastWritten key) key q c := by
  have hwhole : (((s.firstWritten key).frame? (key / 4)).map (·.whole)).getD true = true := by
    cases hr : (s.firstWritten key).frame? (key / 4) with
    | none => rfl
    | some r => exact (hframe r hr).1
  have hgood : (((s.firstWritten key).frame? (key / 4)).map (·.chkFail)).getD c.chkFail = false := by
    cases hr : (s.firstWritten key).frame? (key / 4) with
    | none => exact hchk
    | some r => exact (hframe r hr).2
  have hcells := CellsWritten.copyCells (s := s.firstWritten key) key c.ncells c
  unfold lastWritten
  dsimp only
  rw [h]
  dsimp only
  rw [if_pos (by simp [hp, hf, hwhole, hd, hbehind]), if_pos hd, hgood, if_neg (by simp), if_neg (by simp), htodo]
  set b := (List.range c.ncells).foldl (fun s i => (s.writeCopyCell key i c).unlandCell key i c) (s.firstWritten key) with hb
  set c' : CopyRec := { c with wrote := c.ncells, phase := .written, chkFail := false, todo := [x] } with hc'
  have hjoins := (enqueue_single (s := b.putCopy key c') (fid := key / 4) (x := x) (q := q) copy_putCopy_self h7
    ((hcells.inService x.1).trans hs) ((hcells.queueFor x.1 c.cls c.node).trans hq)).1
  exact Joined.of_queues (t := b.putCopy key c') hjoins (hcells.queue q)

theorem lastWritten_behind (hf : c.first = false) (h : s.behindEarlier key c = true) (hc : s.copy? key = some c) :
    s.lastWritten key = s := by
  unfold lastWritten
  dsimp only
  rw [firstWritten_behind h hc, hc]
  exact if_neg (by simp [hf])

end Blk

open Blk

/-! ### The commands -/

theorem cellAt_of_whole {b : Blk} {key i : Nat} {c : CopyRec} (hd : dieOfTile c.tile = key % 4)
    (hframe : ∀ r, b.frame? (key / 4) = some r → r.whole = true) : b.cellAt key i c = true := by
  unfold cellAt
  rw [if_neg (not_not.mpr hd)]
  cases hr : b.frame? (key / 4) with
  | none => rfl
  | some r => simp [hframe r hr]

/-- A copy of a whole frame of its own die is enqueued as its last cell is written, if it has not been as its first one was. -/
theorem lastWritten_whole {s : Blk} {key q : Nat} {c : CopyRec} {x : Leg} (hc : s.copy? key = some c) (hp : c.phase = .granted)
    (hd : dieOfTile c.tile = key % 4) (htodo : c.todo = [x]) (h7 : c.cls ≠ 7) (hchk : c.chkFail = false)
    (hbehind : s.behindEarlier key c = false) (hs : s.inService x.1 = true) (hq : s.queueFor x.1 c.cls c.node = some q)
    (hframe : ∀ r, s.frame? (key / 4) = some r → r.whole = true ∧ r.chkFail = false) :
    Joined s (s.lastWritten key) key q c := by
  by_cases hf : c.first = true
  · have h := firstWritten_again hc hf
    have hjoins := lastWritten_joins (s := s) (key := key) (c := c) (x := x) (q := q)
    rw [h] at hjoins
    exact hjoins hc hp hf hd htodo h7 hchk hbehind hs hq hframe
  rw [Bool.not_eq_true] at hf
  have hat : s.cellAt key 0 c = true := cellAt_of_whole hd fun r hr => (hframe r hr).1
  by_cases hcut : s.cutThrough c x.1 = true
  · obtain ⟨⟨e, he⟩, hcopy⟩ := firstWritten_cut hc hp hf hat htodo hbehind hcut h7 hs hq
    have hlast := lastWritten_enqueued hcopy (by simp [enqueuedCopy, begunCopy, htodo]) (Nat.succ_ne_zero _) q
    exact ⟨e, hlast.trans he.1, he.2⟩
  · rw [Bool.not_eq_true] at hcut
    have h := firstWritten_stored hc hp hf hat htodo hbehind hcut
    have hjoins := lastWritten_joins (s := s) (key := key) (c := begunCopy c false) (x := x) (q := q)
    rw [h] at hjoins
    have hqueue : ((s.begun key c false).settle (key / 4)).queue q = s.queue q :=
      ((Handled.settle _).queue q).trans (queue_begun false)
    refine Joined.of_queues (hjoins (((Tidied.settle _).copy? _).trans (copy_begun false)) hp rfl hd htodo h7 hchk ?_
      ((inService_settle _).trans ((inService_begun _ _).trans hs))
      ((queueFor_settle _ _ _).trans ((queueFor_begun _ _ _ _).trans hq)) fun r hr => ?_) hqueue
    · rw [behindEarlier_congr (Tidied.settle _).copies]
      refine behindEarlier_putCopy (c := c) rfl rfl rfl ?_
      rw [behindEarlier_congr (cellsWritten_first s key c).copies]
      exact hbehind
    · obtain ⟨r', hr', hwhole, hgood⟩ := frame_settle hr
      rw [hwhole, hgood]
      exact hframe r' ((frame_begun false).symm.trans hr')

/-- Settles O7: the first cell enqueues a copy where it goes cut-through (`firstWritten_cut`), and the last one where it has not been
(`lastWritten_whole`); behind an earlier frame of its link neither does. -/
theorem copiesEnqueued : Obligations.CopiesEnqueued := by
  unfold Obligations.CopiesEnqueued
  refine ⟨fun s fid q d c x hc hp hf hat htodo hbehind hcut h7 hs hq => ?_,
    fun s fid q d c x hc hp hd htodo h7 hchk hbehind hs hq hframe => ?_, fun s fid d c hc hf hbehind => ⟨?_, ?_⟩⟩
  · exact runs_of_eq (g := (·.firstWritten (4 * fid + d))) rfl rfl (firstWritten_cut hc hp hf hat htodo hbehind hcut h7 hs hq).1
  · have hmod : (4 * fid + d) % 4 = d := by omega
    have hdiv : (4 * fid + d) / 4 = fid := by omega
    exact runs_of_eq (g := (·.lastWritten (4 * fid + d))) rfl rfl
      (lastWritten_whole hc hp (by rw [hmod]; exact hd) htodo h7 hchk hbehind hs hq (by rw [hdiv]; exact hframe))
  · exact runs_of_eq (g := (·.firstWritten (4 * fid + d))) rfl (firstWritten_behind hbehind hc) rfl
  · exact runs_of_eq (g := (·.lastWritten (4 * fid + d))) rfl (lastWritten_behind hf hbehind hc) rfl

end Sys2Proof.Machine
end

section
/-!
PROOF. The books of a die's Basalt buffer and its auditor (R144 to R146, R457): the four counts latched, and what a sweep does with a
cell that it finds unowned, or owned twice. O9.
-/

namespace Sys2Proof.Machine

/-- What is listed of a table's changed values, where a value that reads as unlisted has nothing to list. -/
theorem Tab.mem_flatMap_mapV {α β : Type} [DecidableEq α] {t : Tab α} {d : α} {f : Nat → α → α} {g : Nat → α → List β}
    (hd : ∀ k, g k d = []) (n : β) :
    n ∈ (t.mapV d f).flatMap (fun kv => g kv.1 kv.2) ↔ n ∈ t.flatMap fun kv => g kv.1 (f kv.1 kv.2) := by
  unfold Tab.mapV
  simp only [List.mem_flatMap, List.mem_filterMap]
  constructor
  · rintro ⟨kv, ⟨kv', hmem, hkv⟩, hn⟩
    split at hkv
    · exact absurd hkv (by simp)
    · obtain rfl := Option.some.inj hkv
      exact ⟨kv', hmem, hn⟩
  · rintro ⟨kv, hmem, hn⟩
    refine ⟨(kv.1, f kv.1 kv.2), ⟨kv, hmem, if_neg fun h => ?_⟩, hn⟩
    rw [h, hd] at hn
    exact absurd hn List.not_mem_nil

/-- What is not kept is not listed. -/
theorem Tab.find_keep_none {α : Type} {t : Tab α} {p : Nat → α → Bool} {k : Nat} (h : ∀ v, p k v = false) :
    (t.keep p).find k = none := by
  rw [Option.eq_none_iff_forall_ne_some]
  intro v hv
  have hp := (List.mem_filter.mp (Tab.mem_of_find hv)).2
  exact Bool.false_ne_true ((h v).symm.trans hp)

namespace Blk

variable {s t u : Blk} {d cell n : Nat}

/-! ### Who owns a cell (R139, R145) -/

theorem bsl_loseCells (lost : List Nat) (e : Nat) : (s.loseCells d lost).bsl e = s.bsl e := rfl

/-- What remains of lists from each of which the same numbers are taken. -/
theorem mem_flatMap_left {β : Type} {lost : List Nat} {l : List β} {g h : β → List Nat} (hgh : ∀ b, ∀ m, m ∈ h b ↔ m ∈ g b ∧ m ∉ lost) :
    n ∈ l.flatMap h ↔ n ∈ l.flatMap g ∧ n ∉ lost := by
  simp only [List.mem_flatMap, hgh]
  constructor
  · rintro ⟨b, hb, hn, hlost⟩
    exact ⟨⟨b, hb, hn⟩, hlost⟩
  · rintro ⟨⟨b, hb, hn⟩, hlost⟩
    exact ⟨b, hb, hn, hlost⟩

theorem mem_filter_lost {lost cells : List Nat} (m : Nat) : (m ∈ cells.filter fun n => !lost.contains n) ↔ m ∈ cells ∧ m ∉ lost := by
  simp

/-- The cells that a fault takes from their owners are owned no longer, and the others are. -/
theorem mem_ownedCells_loseCells (lost : List Nat) : n ∈ (s.loseCells d lost).ownedCells d ↔ n ∈ s.ownedCells d ∧ n ∉ lost := by
  have hasks : ∀ (asks : List SpillAsk) (m : Nat), m ∈ (asks.map fun a => { a with cells := a.cells.filter fun n => !lost.contains n }).flatMap
      SpillAsk.cells ↔ m ∈ asks.flatMap SpillAsk.cells ∧ m ∉ lost := fun asks m => by
    rw [List.flatMap_map]
    exact mem_flatMap_left fun _ => mem_filter_lost
  have hchunks : ∀ (cs : List ChunkRec) (m : Nat), m ∈ (cs.map fun c => { c with cells := c.cells.filter fun n => !lost.contains n }).flatMap
      ChunkRec.cells ↔ m ∈ cs.flatMap ChunkRec.cells ∧ m ∉ lost := fun cs m => by
    rw [List.flatMap_map]
    exact mem_flatMap_left fun _ => mem_filter_lost
  have hspills := Tab.mem_flatMap_mapV (t := s.spills) (d := [])
    (f := fun t l => if dieOfTile t = d then l.map fun a => { a with cells := a.cells.filter fun n => !lost.contains n } else l)
    (g := fun t l => if dieOfTile t = d then l.flatMap SpillAsk.cells else []) (by simp) n
  have hengines := Tab.mem_flatMap_mapV (t := s.engines) (d := .reset)
    (f := fun t e => if dieOfTile t = d then
        { e with chunks := e.chunks.map fun c => { c with cells := c.cells.filter fun n => !lost.contains n },
                 copies := e.copies.map fun c => { c with cells := c.cells.filter fun n => !lost.contains n } } else e)
    (g := fun t e => if dieOfTile t = d then (e.chunks ++ e.copies).flatMap ChunkRec.cells else []) (by simp [Engine.reset]) n
  unfold ownedCells loseCells
  rw [List.mem_append, List.mem_append, List.mem_append, List.mem_append, or_and_right, or_and_right]
  refine or_congr (or_congr ?_ ?_) ?_
  · rw [List.flatMap_map]
    refine mem_flatMap_left fun kv m => ?_
    dsimp only
    split
    · exact mem_filter_lost m
    · simp
  · refine hspills.trans (mem_flatMap_left fun kv m => ?_)
    split
    · exact hasks _ m
    · simp
  · refine hengines.trans (mem_flatMap_left fun kv m => ?_)
    split
    · rw [List.flatMap_append, List.flatMap_append, List.mem_append, List.mem_append, hchunks, hchunks, or_and_right]
    · simp

/-! ### Error records leave other fields (R455 to R457) -/

/-- The register fields that the report of an error may change. -/
def reporting (g : Fld) : Prop :=
  counts g ∨ g = .MGT_ERR_CNT_count ∨ (∃ k, g = errBit k) ∨ g = .MGT_ERR_LOG_record ∨ g = .MGT_ERR_HEAD_next ∨
    g = .DMA_INT_cpl_full ∨ g = .MGT_MBX_D2H_word ∨ g = .MGT_MBX_D2H_SENT_seq ∨ g = .MGT_MBX_INT_d2h

/-- From `s` to `t` no other register field has changed. -/
def Reported (s t : Blk) : Prop := ∀ f i, ¬ reporting f → t.fld f i = s.fld f i

namespace Reported

theorem refl (s : Blk) : Reported s s := fun _ _ _ => rfl

theorem trans (h : Reported s t) (k : Reported t u) : Reported s u := fun f i hf => (k f i hf).trans (h f i hf)

theorem ite {c : Prop} [Decidable c] (h : Reported s t) (k : Reported s u) : Reported s (if c then t else u) := by
  split
  exacts [h, k]

theorem foldl {β : Type} (g : Blk → β → Blk) (h : ∀ t b, Reported t (g t b)) (l : List β) (t : Blk) : Reported t (l.foldl g t) := by
  induction l generalizing t with
  | nil => exact refl t
  | cons b l ih => exact (h t b).trans (ih _)

/-- A change of anything but the register fields. -/
theorem of_fields (h : t.fields = s.fields) : Reported s t := fun f i _ => fld_congr h f i

theorem setFld {f : Fld} (hf : reporting f) (i v : Nat) : Reported s (s.setFld f i v) := fun _ _ hg =>
  fld_setFld_ne _ _ _ _ _ _ fun h => hg (h ▸ hf)

theorem count {f : Fld} (hf : reporting f) (i n : Nat) : Reported s (s.count f i n) := fun _ _ hg =>
  fld_count_ne _ _ _ _ _ _ (fun h => hg (.inl h)) fun h => hg (h ▸ hf)

theorem raise {f : Fld} (hf : reporting f) (i : Nat) : Reported s (s.raise f i) := fun _ _ hg =>
  fld_raise_ne _ _ _ _ _ (fun h => hg (.inl (by rcases h with rfl | rfl <;> simp [counts]))) fun h => hg (h ▸ hf)

theorem logRecord (bytes : List Byte) : Reported s (s.logRecord bytes) :=
  (foldl _ (fun _ _ => setFld (by simp [reporting]) _ _) _ _).trans (setFld (by simp [reporting]) _ _)

theorem mergeCe (slot : Nat) : Reported s (s.mergeCe slot) := by
  unfold Blk.mergeCe
  exact ite (refl s) (setFld (by simp [reporting]) _ _)

theorem postRecord (ring kind : Nat) (bytes : List Byte) : Reported s (s.postRecord ring kind bytes) := by
  unfold Blk.postRecord postWork
  split
  · refine trans ?_ (raise (by simp [reporting]) _)
    exact of_fields rfl
  · exact of_fields rfl

theorem postMessage (ref cmd status : Nat) (payload : List Byte) : Reported s (s.postMessage ref cmd status payload) := by
  unfold Blk.postMessage putD2h
  exact ((foldl _ (fun _ _ => setFld (by simp [reporting]) _ _) _ _).trans (setFld (by simp [reporting]) _ _)).trans
    (raise (by simp [reporting]) _)

theorem flushEvents (n : Nat) : Reported s (s.flushEvents n) := by
  induction n generalizing s with
  | zero => exact refl s
  | succ n ih =>
    unfold Blk.flushEvents
    split
    · exact refl s
    · refine ite (trans ?_ ih) (refl s)
      refine trans ?_ (postMessage _ _ _ _)
      exact of_fields rfl

theorem postEvent (bytes : List Byte) : Reported s (s.postEvent bytes) := by
  unfold Blk.postEvent
  refine trans ?_ (flushEvents _)
  exact of_fields rfl

theorem answerRecord (cls inst level : Nat) : Reported s (s.answerRecord cls inst level) := by
  unfold Blk.answerRecord
  split
  · exact of_fields rfl
  · split <;> exact of_fields rfl

theorem fatalMarks (cls : Nat) (src : ErrSource) : Reported s (s.fatalMarks cls src) := by
  unfold Blk.fatalMarks
  split <;> exact of_fields rfl

theorem reportError (src : ErrSource) : Reported s (s.reportError src) := by
  have hcounted : ∀ cls : Nat, Reported s ((s.count .MGT_ERR_CNT_count cls 1).raise (errBit cls) 0) := fun cls =>
    (count (by simp [reporting]) _ _).trans (raise (.inr (.inr (.inl ⟨cls, rfl⟩))) _)
  have hkeys : ∀ {w : Blk} ks, Reported s w → Reported s { w with recentCe := ks } := fun ks h => h.trans (of_fields rfl)
  have hpost : ∀ {w : Blk} (c : Bool) ring bytes, Reported s w → Reported s (if c = true then w.postRecord ring 5 bytes else w) :=
    fun c ring bytes h => h.trans (ite (postRecord _ _ _) (refl _))
  unfold Blk.reportError
  dsimp only
  split
  · exact hkeys _ ((hcounted _).trans (mergeCe _))
  · refine trans ?_ (fatalMarks _ _)
    refine trans ?_ (answerRecord _ _ _)
    refine trans ?_ (postEvent _)
    exact hpost _ _ _ (hkeys _ ((hcounted _).trans (logRecord _)))

end Reported

/-! ### A sweep (R145, R146) -/

/-- A cell filled with zeros and put back on the free list. -/
theorem bsl_reclaim : (s.reclaim d cell).bsl d = { s.bsl d with
    cells := (s.bsl d).cells.keep fun n _ => !([cell].contains n), astray := (s.bsl d).astray.filter fun n => !([cell].contains n),
    bytes := (s.bsl d).bytes.keep fun n _ => !([cell].contains n) } := by
  have hbasalt : (s.reclaim d cell).bsl d = ((s.zeroCells d [cell]).freeCells d [cell]).bsl d := by
    unfold reclaim bsl
    rw [raise_basalt, count_basalt]
  rw [hbasalt]
  unfold freeCells zeroCells
  rw [bsl_updBsl_self, bsl_updBsl_self]

theorem fld_reclaim {f : Fld} (h : ¬ counts f) (hc : f ≠ .BSL_AUDIT_RECLAIM_count) (hl : f ≠ .BSL_INT_leak) (i : Nat) :
    (s.reclaim d cell).fld f i = s.fld f i := by
  unfold reclaim
  rw [fld_raise_ne _ _ _ _ _ (fun k => h (by rcases k with rfl | rfl <;> simp [counts])) hl, fld_count_ne _ _ _ _ _ _ h hc]
  rfl

theorem fld_reclaims {f : Fld} (h : ¬ counts f) (hc : f ≠ .BSL_AUDIT_RECLAIM_count) (hl : f ≠ .BSL_INT_leak) (cells : List Nat)
    (i : Nat) : (cells.foldl (fun s c => s.reclaim d c) s).fld f i = s.fld f i := by
  induction cells generalizing s with
  | nil => rfl
  | cons c cells ih => rw [List.foldl_cons, ih, fld_reclaim h hc hl]

theorem reclaim_counts : (s.reclaim d cell).fld .BSL_AUDIT_RECLAIM_count d = min (s.fld .BSL_AUDIT_RECLAIM_count d + 1) (2 ^ 64 - 1) ∧
    (s.reclaim d cell).flag .BSL_INT_leak d = true := by
  refine ⟨?_, flag_raise _ _ _ (by simp [messages])⟩
  unfold reclaim
  rw [fld_raise_ne _ _ _ _ _ (by simp [messages]) (by decide), fld_count_self _ _ _ _ (by simp [counts]) rfl]
  rfl

theorem doubleFound_counts : (s.doubleFound d cell).fld .BSL_AUDIT_DOUBLE_count d = min (s.fld .BSL_AUDIT_DOUBLE_count d + 1) (2 ^ 64 - 1) ∧
    (s.doubleFound d cell).flag .BSL_INT_double d = true := by
  have hbit : ∀ k, errBit k ≠ .BSL_AUDIT_DOUBLE_count ∧ errBit k ≠ .BSL_INT_double := fun k => by
    unfold errBit
    split <;> decide
  have hkept : ∀ f i, f = .BSL_AUDIT_DOUBLE_count ∨ f = .BSL_INT_double → (s.doubleFound d cell).fld f i =
      ((s.count .BSL_AUDIT_DOUBLE_count d 1).raise .BSL_INT_double d).fld f i := fun f i hf => by
    refine Reported.reportError _ f i ?_
    rcases hf with rfl | rfl <;> simp [reporting, counts, fun k => (hbit k).1.symm, fun k => (hbit k).2.symm]
  constructor
  · rw [hkept _ _ (.inl rfl), fld_raise_ne _ _ _ _ _ (by simp [messages]) (by decide), fld_count_self _ _ _ _ (by simp [counts]) rfl]
  · unfold flag
    rw [hkept _ _ (.inr rfl)]
    exact flag_raise _ _ _ (by simp [messages])

/-- What a sweep notes of a die's cells. -/
def swept (s : Blk) (d : Nat) (suspects doubles : List Nat) : Blk :=
  s.updBsl d fun b => { b with astray := doubles, suspects := suspects, doubles := doubles }

@[simp] theorem bsl_swept (suspects doubles : List Nat) : (s.swept d suspects doubles).bsl d =
    { s.bsl d with astray := doubles, suspects := suspects, doubles := doubles } := bsl_updBsl_self _

/-- A sweep that finds the one cell in use unowned. -/
theorem auditSweep_lost {use : CellUse} (hen : s.flag .BSL_AUDIT_CTL_en d = true) (hcells : (s.bsl d).cells = [(cell, use)])
    (hastray : (s.bsl d).astray = []) : s.auditSweep d [cell] [] =
      ((if (s.bsl d).suspects.contains cell then ((s.loseCells d [cell]).reclaim d cell).swept d [] []
        else (s.loseCells d [cell]).swept d [cell] [])).setFld .BSL_AUDIT_STATUS_suspect d 1 := by
  have hunowned : ((s.bsl d).cells.keys.filter fun n => !((s.loseCells d [cell]).ownedCells d).contains n) = [cell] := by
    have hnot : cell ∉ (s.loseCells d [cell]).ownedCells d := fun h =>
      ((mem_ownedCells_loseCells _).mp h).2 (List.mem_singleton_self cell)
    simp [hcells, Tab.keys, hnot]
  unfold auditSweep
  rw [if_pos hen]
  dsimp only
  rw [bsl_loseCells, hunowned, hastray]
  cases h : (s.bsl d).suspects.contains cell
  · simp only [List.filter_cons, List.filter_nil, h]
    rfl
  · simp only [List.filter_cons, List.filter_nil, h]
    simp only [if_true, List.foldl_cons, List.foldl_nil, List.contains_cons, beq_self_eq_true, Bool.true_or, Bool.not_true]
    rfl

/-- A sweep that finds one cell owned though it is on the free list. -/
theorem auditSweep_double (hen : s.flag .BSL_AUDIT_CTL_en d = true) (hastray : (s.bsl d).astray = []) (howned : cell ∈ s.ownedCells d)
    (hnew : (s.bsl d).doubles.contains cell = false) : ∃ (cells suspects : List Nat) (n : Nat), s.auditSweep d [] [cell] =
      (((cells.foldl (fun s c => s.reclaim d c) (s.loseCells d [])).doubleFound d cell).swept d suspects [cell]).setFld
        .BSL_AUDIT_STATUS_suspect d n := by
  have hstill : ((s.loseCells d []).ownedCells d).contains cell = true := by
    rw [List.contains_iff_mem, mem_ownedCells_loseCells]
    exact ⟨howned, List.not_mem_nil⟩
  unfold auditSweep
  rw [if_pos hen]
  dsimp only
  rw [bsl_loseCells, hastray, List.nil_append, List.filter_cons, if_pos hstill, List.filter_nil, (List.nodup_singleton cell).dedup, List.filter_cons,
    if_pos (by simpa using hnew), List.filter_nil, List.foldl_cons, List.foldl_nil]
  exact ⟨_, _, _, rfl⟩

/-- The four counts latched (R144). -/
theorem countSnap_counts (s : Blk) (d : Nat) : (s.countSnap d).fld .BSL_QUEUED_count d = s.queuedCells d % 2 ^ 20 ∧
    (s.countSnap d).fld .BSL_RESERVED_count d = s.reservedCells d % 2 ^ 20 ∧ (s.countSnap d).fld .BSL_RETIRED_count d = s.retired d % 2 ^ 20 ∧
    (s.countSnap d).fld .BSL_FREE_count d = (524288 - s.retired d - s.queuedCells d - s.reservedCells d) % 2 ^ 20 := by
  unfold countSnap usable
  refine ⟨?_, ?_, ?_, ?_⟩
  · rw [fld_setFld_ne _ _ _ _ _ _ (by decide), fld_setFld_ne _ _ _ _ _ _ (by decide), fld_setFld_ne _ _ _ _ _ _ (by decide),
      fld_setFld_self]
    rfl
  · rw [fld_setFld_ne _ _ _ _ _ _ (by decide), fld_setFld_ne _ _ _ _ _ _ (by decide), fld_setFld_self]
    rfl
  · rw [fld_setFld_ne _ _ _ _ _ _ (by decide), fld_setFld_self]
    rfl
  · rw [fld_setFld_self]
    rfl

end Blk

open Blk

/-! ### The commands -/

section

variable {s : State} {d : DieId} {cell : Nat}

theorem runs_countSnap : Runs (.countSnap d) s fun t =>
    t.blk.fld .BSL_QUEUED_count d = s.blk.queuedCells d % 2 ^ 20 ∧ t.blk.fld .BSL_RESERVED_count d = s.blk.reservedCells d % 2 ^ 20 ∧
    t.blk.fld .BSL_RETIRED_count d = s.blk.retired d % 2 ^ 20 ∧
    t.blk.fld .BSL_FREE_count d = (524288 - s.blk.retired d - s.blk.queuedCells d - s.blk.reservedCells d) % 2 ^ 20 ∧
    OnlyFields s t [(.BSL_QUEUED_count, d), (.BSL_RESERVED_count, d), (.BSL_RETIRED_count, d), (.BSL_FREE_count, d)] := by
  obtain ⟨hqueued, hreserved, hretired, hfree⟩ := countSnap_counts s.blk d
  refine runs_of_eq (g := (·.countSnap d)) rfl rfl ⟨hqueued, hreserved, hretired, hfree, rfl, rfl, ?_⟩
  exact (((Within.setFld _ _ _ _ (by simp)).trans (Within.setFld _ _ _ _ (by simp))).trans (Within.setFld _ _ _ _ (by simp))).trans
    (Within.setFld _ _ _ _ (by simp))

theorem runs_auditSweep_lost {use : CellUse} (hen : s.blk.flag .BSL_AUDIT_CTL_en d = true) (hcells : (s.blk.bsl d).cells = [(cell, use)])
    (hastray : (s.blk.bsl d).astray = []) :
    Runs (.auditSweep d [cell] []) s fun t => t.blk.fld .BSL_AUDIT_STATUS_suspect d = 1 ∧
      ((s.blk.bsl d).suspects.contains cell = false → (t.blk.bsl d).suspects = [cell] ∧ (t.blk.bsl d).cells = [(cell, use)]) ∧
      ((s.blk.bsl d).suspects.contains cell = true → (t.blk.bsl d).cells = [] ∧ (t.blk.bsl d).suspects = [] ∧
        (t.blk.bsl d).bytes.find cell = none ∧
        t.blk.fld .BSL_AUDIT_RECLAIM_count d = min (s.blk.fld .BSL_AUDIT_RECLAIM_count d + 1) (2 ^ 64 - 1) ∧
        t.blk.flag .BSL_INT_leak d = true) := by
  refine runs_of_eq (g := (·.auditSweep d [cell] [])) rfl (auditSweep_lost hen hcells hastray) ⟨fld_setFld_self _ _ _ _, fun h => ?_, fun h => ?_⟩
  · rw [h, if_neg (by simp)]
    change ((swept _ _ _ _).bsl d).suspects = _ ∧ ((swept _ _ _ _).bsl d).cells = _
    rw [bsl_swept]
    exact ⟨rfl, hcells⟩
  · rw [h, if_pos rfl]
    obtain ⟨hcount, hleak⟩ := reclaim_counts (s := s.blk.loseCells d [cell]) (d := d) (cell := cell)
    have hbooks := bsl_swept (s := (s.blk.loseCells d [cell]).reclaim d cell) (d := d) [] []
    rw [bsl_reclaim, bsl_loseCells, hcells] at hbooks
    have hfld : ∀ f i, f ≠ .BSL_AUDIT_STATUS_suspect → ((((s.blk.loseCells d [cell]).reclaim d cell).swept d [] []).setFld
        .BSL_AUDIT_STATUS_suspect d 1).fld f i = ((s.blk.loseCells d [cell]).reclaim d cell).fld f i := fun f i hf =>
      fld_setFld_ne _ _ _ _ _ _ hf
    refine ⟨?_, ?_, ?_, (hfld _ _ (by decide)).trans hcount, ?_⟩
    · exact (congrArg BasaltDie.cells hbooks).trans (by simp [Tab.keep])
    · exact congrArg BasaltDie.suspects hbooks
    · exact (congrArg (Tab.find ·.bytes cell) hbooks).trans (Tab.find_keep_none (p := fun n _ => !([cell].contains n)) (by simp))
    · unfold flag
      rw [hfld _ _ (by decide)]
      exact hleak

theorem runs_auditSweep_double (hen : s.blk.flag .BSL_AUDIT_CTL_en d = true) (hastray : (s.blk.bsl d).astray = [])
    (howned : cell ∈ s.blk.ownedCells d) (hnew : (s.blk.bsl d).doubles.contains cell = false) :
    Runs (.auditSweep d [] [cell]) s fun t => (t.blk.bsl d).doubles = [cell] ∧
      t.blk.fld .BSL_AUDIT_DOUBLE_count d = min (s.blk.fld .BSL_AUDIT_DOUBLE_count d + 1) (2 ^ 64 - 1) ∧
      t.blk.flag .BSL_INT_double d = true := by
  obtain ⟨cells, suspects, n, h⟩ := auditSweep_double hen hastray howned hnew
  set b := cells.foldl (fun s c => s.reclaim d c) (s.blk.loseCells d []) with hb
  obtain ⟨hcount, hdouble⟩ := doubleFound_counts (s := b) (d := d) (cell := cell)
  have hkept : b.fld .BSL_AUDIT_DOUBLE_count d = s.blk.fld .BSL_AUDIT_DOUBLE_count d :=
    fld_reclaims (by simp [counts]) (by decide) (by decide) _ _
  have hfld : ∀ f i, f ≠ .BSL_AUDIT_STATUS_suspect → (((b.doubleFound d cell).swept d suspects [cell]).setFld
      .BSL_AUDIT_STATUS_suspect d n).fld f i = (b.doubleFound d cell).fld f i := fun f i hf => fld_setFld_ne _ _ _ _ _ _ hf
  refine runs_of_eq (g := (·.auditSweep d [] [cell])) rfl h ⟨?_, ?_, ?_⟩
  · exact congrArg BasaltDie.doubles (bsl_swept suspects [cell])
  · rw [hfld _ _ (by decide), hcount, hkept]
  · unfold flag
    rw [hfld _ _ (by decide)]
    exact hdouble

end

/-- Settles O9: `countSnap_counts` for the counts latched, and what a sweep comes to that finds a cell unowned (`auditSweep_lost`) or
owned twice (`auditSweep_double`). -/
theorem basaltBooks : Obligations.BasaltBooks := by
  unfold Obligations.BasaltBooks
  exact ⟨fun s d => runs_countSnap, fun s d cell use => runs_auditSweep_lost, fun s d cell => runs_auditSweep_double⟩

end Sys2Proof.Machine
end

section
/-!
PROOF. The states of the directions of an Agate link (R153, R154, R158): which direction a write of a state touches, what a direction
that fails or goes live leaves where its pair stays up, and each command of the state machine.
-/

namespace Sys2Proof.Machine

theorem rxEnd_inj {l m b : Nat} (h : rxEnd l b = rxEnd m b) : l = m := by
  unfold rxEnd at h
  omega

namespace Blk

variable {s t : Blk} {l m b p k : Nat} {c : AgateCode}

/-! ### The state of a direction -/

theorem agIn_congr (h : t.fld .D2D_LNK_STATUS_state (rxEnd l b) = s.fld .D2D_LNK_STATUS_state (rxEnd l b)) :
    t.agIn l b c = s.agIn l b c := by
  unfold agIn
  rw [h]

@[simp] theorem agIn_setAg_self : (s.setAg l b c).agIn l b c = true := by
  unfold agIn setAg
  rw [fld_setFld_self]
  cases c <;> rfl

theorem agIn_setAg_ne {d : AgateCode} (h : rxEnd m k ≠ rxEnd l b) : (s.setAg l b c).agIn m k d = s.agIn m k d :=
  agIn_congr (fld_setFld_idx _ _ _ _ _ _ h)

/-- A direction is in one state. -/
theorem agIn_eq {d : AgateCode} (h : s.agIn l b c = true) : s.agIn l b d = (c == d) := by
  unfold agIn at *
  rw [of_decide_eq_true h]
  cases c <;> cases d <;> rfl

theorem agReady_setAg : (s.setAg l b c).agReady m = s.agReady m := by
  unfold agReady flag domOn setAg
  simp

theorem pairAwake_setAg : (s.setAg l b c).pairAwake p = s.pairAwake p := by
  unfold pairAwake bit setAg
  rw [fld_setFld_ne _ _ _ _ _ _ (by decide)]

/-! ### The counts of a pair (R154, R155) -/

theorem countLive_pos (ha : s.pairAwake p = true) (hk : k < 8) (h : s.agIn (8 * p + k) b .live = true) : s.countLive p b ≠ 0 := by
  unfold countLive
  rw [if_pos ha, ← Nat.pos_iff_ne_zero]
  exact List.length_pos_of_mem (List.mem_filter.mpr ⟨List.mem_range.mpr hk, h⟩)

/-- The register fields that the fresh count of a pair's live links may change, where one is left. -/
def reliving (g : Fld) : Prop :=
  messages g ∨ g = .D2D_PAIR_STATUS_live_ij ∨ g = .D2D_PAIR_STATUS_live_ji ∨ g = .D2D_LNK_STATUS_mgmt ∨ g = .D2D_PAIR_INT_degraded

theorem within_relive (h : s.countLive p b ≠ 0) : Within s (s.relive p b) fun g _ => reliving g := by
  have hcount : ∀ v, Within s (s.setFld (if b = 0 then .D2D_PAIR_STATUS_live_ij else .D2D_PAIR_STATUS_live_ji) p v)
      fun g _ => reliving g := fun v => Within.setFld _ _ _ _ (by unfold reliving; split <;> simp)
  have hmark : ∀ w : Blk, Within w (w.markMgmt p b) fun g _ => reliving g := fun w =>
    Within.foldl _ _ (fun t k _ => Within.setFld _ _ _ _ (by simp [reliving])) w
  have hraise : ∀ (w : Blk) (x : Bool), Within w (if x = true then w.raise .D2D_PAIR_INT_degraded p else w) fun g _ => reliving g :=
    fun w x => by
      split
      · exact Within.raise _ _ _ (fun g hg => .inl hg) (by simp [reliving])
      · exact Within.refl _ _
  unfold relive
  dsimp only
  rw [if_neg (by simp [h])]
  exact ((hcount _).trans (hmark _)).trans (hraise _ _)

theorem fields_placeCell (x : AgateCell) : (s.placeCell p b x).fields = s.fields := by
  unfold placeCell
  split <;> rfl

theorem fields_placeCells (xs : List AgateCell) : (xs.foldl (fun s c => s.placeCell p b c) s).fields = s.fields := by
  induction xs generalizing s with
  | nil => rfl
  | cons x xs ih => rw [List.foldl_cons, ih, fields_placeCell]

/-- Which links of a pair are live is in the registers alone. -/
theorem countLive_congr (h : ∀ f i, f = .RSTC_DIE_RST_die ∨ f = .D2D_LNK_STATUS_state → t.fld f i = s.fld f i) :
    t.countLive p b = s.countLive p b := by
  unfold countLive pairAwake bit agIn
  simp [h]

/-- A direction that leaves LIVE, another of its pair being live: its cells move, and the pair's counts follow. -/
theorem fld_leaveLive (h : s.countLive (l / 8) b ≠ 0) {f : Fld} (hf : ¬ reliving f) (i : Nat) :
    (s.leaveLive l b).fld f i = s.fld f i := by
  have hplaced : ∀ g j, (((s.lane (2 * l + b)).cells.foldl (fun s c => s.placeCell (l / 8) b c)
      (s.updLane (2 * l + b) fun _ => ⟨[], 0⟩))).fld g j = s.fld g j := fun g j => fld_congr (fields_placeCells _) g j
  unfold leaveLive
  dsimp only
  rw [(within_relive (by rwa [countLive_congr fun g j _ => hplaced g j])).2 _ _ hf, hplaced]

/-! ### A direction fails (R153, R158) -/

/-- A direction has failed: counted, and its pair's event raised. -/
def failing (s : Blk) (l b : Nat) : Blk :=
  ((s.setAg l b .failed).count .D2D_LNK_FAILS_count (rxEnd l b) 1).raise .D2D_PAIR_INT_link_fail (l / 8)

theorem fld_failing {f : Fld} (hf : f = .RSTC_DIE_RST_die ∨ f = .D2D_LNK_STATUS_state) (i : Nat) :
    (s.failing l b).fld f i = (s.setAg l b .failed).fld f i := by
  unfold failing
  rcases hf with rfl | rfl <;>
    rw [fld_raise_ne _ _ _ _ _ (by simp [messages]) (by decide), fld_count_ne _ _ _ _ _ _ (by simp [counts]) (by decide)]

@[simp] theorem agIn_failing_self : (s.failing l b).agIn l b .failed = true :=
  (agIn_congr (fld_failing (.inr rfl) _)).trans agIn_setAg_self

theorem agIn_failing_ne (h : rxEnd m k ≠ rxEnd l b) : (s.failing l b).agIn m k c = s.agIn m k c :=
  (agIn_congr (fld_failing (.inr rfl) _)).trans (agIn_setAg_ne h)

theorem flag_failing : (s.failing l b).flag .D2D_PAIR_INT_link_fail (l / 8) = true := flag_raise _ _ _ (by simp [messages])

theorem pairAwake_failing : (s.failing l b).pairAwake p = s.pairAwake p := by
  rw [← pairAwake_setAg (s := s) (l := l) (b := b) (c := .failed)]
  unfold pairAwake bit
  rw [fld_failing (.inl rfl)]

theorem agFail_training (h : s.agIn l b .training = true) : s.agFail l b = s.failing l b := by
  unfold agFail
  rw [agIn_eq (d := .failed) h, agIn_eq (d := .live) h]
  rfl

theorem agFail_live (h : s.agIn l b .live = true) : s.agFail l b = (s.failing l b).leaveLive l b := by
  unfold agFail
  rw [agIn_eq (d := .failed) h, h]
  rfl

/-- A live direction fails, another of its pair being live: it is in FAILED, its event is raised, and no other direction's state
changes. -/
theorem agFail_leaves (h : s.agIn l b .live = true) (hk : k < 8) (hne : 8 * (l / 8) + k ≠ l)
    (hother : s.agIn (8 * (l / 8) + k) b .live = true) (ha : s.pairAwake (l / 8) = true) :
    (s.agFail l b).agIn l b .failed = true ∧ (s.agFail l b).flag .D2D_PAIR_INT_link_fail (l / 8) = true ∧
      ∀ m j c, rxEnd m j ≠ rxEnd l b → (s.agFail l b).agIn m j c = s.agIn m j c := by
  have hlive : (s.failing l b).countLive (l / 8) b ≠ 0 := by
    refine countLive_pos (pairAwake_failing.trans ha) hk ((agIn_failing_ne fun h => ?_).trans hother)
    exact hne (rxEnd_inj h)
  have hstate : ∀ i, ((s.failing l b).leaveLive l b).fld .D2D_LNK_STATUS_state i = (s.failing l b).fld .D2D_LNK_STATUS_state i :=
    fld_leaveLive hlive (by simp [reliving, messages])
  rw [agFail_live h]
  refine ⟨(agIn_congr (hstate _)).trans agIn_failing_self, ?_, fun m j c hmj => (agIn_congr (hstate _)).trans (agIn_failing_ne hmj)⟩
  unfold flag
  rw [fld_leaveLive hlive (by simp [reliving, messages])]
  exact flag_failing

/-! ### Enabled, trained, cleared -/

theorem agStart_ready (hr : s.agReady l = true) (h : s.agIn l b .off = true) : s.agStart l b = s.setAg l b .training := by
  unfold agStart
  rw [hr, h]
  rfl

theorem agStart_not_ready (hr : s.agReady l = false) : s.agStart l b = s := by
  unfold agStart
  rw [hr]
  rfl

theorem agClear_idle (h : s.agIn l b .training = true ∨ s.agIn l b .failed = true) : s.agClear l b = s.setAg l b .off := by
  unfold agClear
  exact if_pos (by simpa using h)

/-- A direction that is trained goes live, and stays so as its pair's links are counted. -/
theorem agTrained_live (h : s.agIn l b .training = true) (ha : s.pairAwake (l / 8) = true) : (s.agTrained l b).agIn l b .live = true := by
  have hcount : (s.setAg l b .live).countLive (l / 8) b ≠ 0 :=
    countLive_pos (k := l % 8) (pairAwake_setAg.trans ha) (by omega) (by rw [Nat.div_add_mod]; exact agIn_setAg_self)
  unfold agTrained
  rw [if_pos h, agIn_congr ((within_relive hcount).2 _ _ (by simp [reliving, messages]))]
  exact agIn_setAg_self

end Blk

open Blk

/-! ### The commands -/

section

variable {s : State} {l : AgateId} {back endJ : Bool}

theorem onlyFields_setAg_setAg {b : Blk} {i : Nat} {c c' : AgateCode} (hb : s.blk.Within b fun g j => (g, j) ∈ [(.D2D_LNK_CTL_en, i)]) :
    OnlyFields s { s with blk := (b.setAg l 0 c).setAg l 1 c' }
      [(.D2D_LNK_CTL_en, i), (.D2D_LNK_STATUS_state, rxEnd l 0), (.D2D_LNK_STATUS_state, rxEnd l 1)] := by
  refine ⟨rfl, rfl, ((hb.mono fun g j h => ?_).trans (Within.setFld _ _ _ _ (by simp))).trans (Within.setFld _ _ _ _ (by simp))⟩
  rw [List.mem_singleton] at h
  exact h ▸ List.mem_cons_self

theorem rxEnd_zero_ne_one (l : Nat) : rxEnd l 0 ≠ rxEnd l 1 := by
  unfold rxEnd
  omega

/-- The states of both directions after each has been written. -/
theorem agIn_setAg_both {b : Blk} {l : Nat} {c : AgateCode} :
    ((b.setAg l 0 c).setAg l 1 c).agIn l 0 c = true ∧ ((b.setAg l 0 c).setAg l 1 c).agIn l 1 c = true :=
  ⟨(agIn_setAg_ne (rxEnd_zero_ne_one l)).trans agIn_setAg_self, agIn_setAg_self⟩

theorem runs_agateEnSet (hen : s.blk.flag .D2D_LNK_CTL_en (2 * l + (1 - dirBit endJ)) = true) (hdom : s.blk.domOn (108 + l) = true)
    (h0 : s.blk.agIn l 0 .off = true) (h1 : s.blk.agIn l 1 .off = true) :
    Runs (.agateEnSet l endJ) s fun t => t.blk.agIn l 0 .training = true ∧ t.blk.agIn l 1 .training = true ∧
      OnlyFields s t [(.D2D_LNK_CTL_en, 2 * l + dirBit endJ), (.D2D_LNK_STATUS_state, rxEnd l 0),
        (.D2D_LNK_STATUS_state, rxEnd l 1)] := by
  set b := s.blk.setFld .D2D_LNK_CTL_en (2 * l + dirBit endJ) 1 with hb
  have hstate : ∀ i, b.fld .D2D_LNK_STATUS_state i = s.blk.fld .D2D_LNK_STATUS_state i := fun i =>
    fld_setFld_ne _ _ _ _ _ _ (by decide)
  have hready : b.agReady l = true := by
    have hdom' : b.domOn (108 + l) = true := by
      unfold domOn at *
      rw [hb, fld_setFld_ne _ _ _ _ _ _ (by decide)]
      exact hdom
    have hset : b.flag .D2D_LNK_CTL_en (2 * l + dirBit endJ) = true := by
      unfold flag
      rw [hb, fld_setFld_self]
      rfl
    have hkept : b.flag .D2D_LNK_CTL_en (2 * l + (1 - dirBit endJ)) = true := by
      unfold flag at *
      rw [hb, fld_setFld_idx _ _ _ _ _ _ (by cases endJ <;> simp [dirBit])]
      exact hen
    unfold agReady
    rw [hdom']
    cases endJ
    · rw [show b.flag .D2D_LNK_CTL_en (2 * l) = true from hset, show b.flag .D2D_LNK_CTL_en (2 * l + 1) = true from hkept]
      rfl
    · rw [show b.flag .D2D_LNK_CTL_en (2 * l) = true from hkept, show b.flag .D2D_LNK_CTL_en (2 * l + 1) = true from hset]
      rfl
  have htrained : s.blk.agEnSet l (dirBit endJ) = (b.setAg l 0 .training).setAg l 1 .training := by
    unfold agEnSet
    rw [← hb, agStart_ready hready ((agIn_congr (hstate _)).trans h0), agStart_ready (agReady_setAg.trans hready)]
    exact (agIn_setAg_ne (rxEnd_zero_ne_one l).symm).trans ((agIn_congr (hstate _)).trans h1)
  exact runs_of_eq (g := (·.agEnSet l (dirBit endJ))) rfl htrained ⟨agIn_setAg_both.1, agIn_setAg_both.2,
    onlyFields_setAg_setAg (Within.setFld _ _ _ _ (by simp))⟩

theorem runs_agateEnClear (h : ∀ b < 2, s.blk.agIn l b .training = true ∨ s.blk.agIn l b .failed = true) :
    Runs (.agateEnClear l endJ) s fun t => t.blk.agIn l 0 .off = true ∧ t.blk.agIn l 1 .off = true ∧
      t.blk.flag .D2D_LNK_CTL_en (2 * l + dirBit endJ) = false ∧
      OnlyFields s t [(.D2D_LNK_CTL_en, 2 * l + dirBit endJ), (.D2D_LNK_STATUS_state, rxEnd l 0),
        (.D2D_LNK_STATUS_state, rxEnd l 1)] := by
  set b := s.blk.setFld .D2D_LNK_CTL_en (2 * l + dirBit endJ) 0 with hb
  have hidle : ∀ k < 2, b.agIn l k .training = true ∨ b.agIn l k .failed = true := fun k hk => by
    have hstate : ∀ c, b.agIn l k c = s.blk.agIn l k c := fun c => agIn_congr (fld_setFld_ne _ _ _ _ _ _ (by decide))
    rw [hstate, hstate]
    exact h k hk
  have hcleared : s.blk.agEnClear l (dirBit endJ) = (b.setAg l 0 .off).setAg l 1 .off := by
    unfold agEnClear
    rw [← hb, agClear_idle (hidle 0 (by decide)), agClear_idle]
    rw [agIn_setAg_ne (rxEnd_zero_ne_one l).symm, agIn_setAg_ne (rxEnd_zero_ne_one l).symm]
    exact hidle 1 (by decide)
  refine runs_of_eq (g := (·.agEnClear l (dirBit endJ))) rfl hcleared ⟨agIn_setAg_both.1, agIn_setAg_both.2, ?_,
    onlyFields_setAg_setAg (Within.setFld _ _ _ _ (by simp))⟩
  unfold flag setAg
  rw [fld_setFld_ne _ _ _ _ _ _ (by decide), fld_setFld_ne _ _ _ _ _ _ (by decide), hb, fld_setFld_self]
  rfl

theorem runs_agateTrained (h : s.blk.agIn l (dirBit back) .training = true) (ha : s.blk.pairAwake (l / 8) = true) :
    Runs (.agateTrained l back) s fun t => t.blk.agIn l (dirBit back) .live = true :=
  runs_of_eq (g := (·.agTrained l (dirBit back))) rfl rfl (agTrained_live h ha)

theorem runs_agateTrainingTimeout (h : s.blk.agIn l (dirBit back) .training = true) :
    Runs (.agateTrainingTimeout l back) s fun t => t.blk.agIn l (dirBit back) .failed = true ∧
      t.blk.flag .D2D_PAIR_INT_link_fail (l / 8) = true :=
  runs_of_eq (g := fun b => if b.agIn l (dirBit back) .training then b.agFail l (dirBit back) else b) rfl
    ((if_pos h).trans (agFail_training h)) ⟨agIn_failing_self, flag_failing⟩

theorem onlyFields_setAg {b : Nat} {c : AgateCode} : OnlyFields s { s with blk := s.blk.setAg l b c } [(.D2D_LNK_STATUS_state, rxEnd l b)] :=
  ⟨rfl, rfl, Within.setFld _ _ _ _ (by simp)⟩

theorem runs_agateDrained (h : s.blk.agIn l (dirBit back) .draining = true) (hempty : (s.blk.lane (2 * l + dirBit back)).cells = []) :
    Runs (.agateDrained l back) s fun t =>
      t.blk.agIn l (dirBit back) (if s.blk.agReady l = true then .training else .off) = true ∧
      OnlyFields s t [(.D2D_LNK_STATUS_state, rxEnd l (dirBit back))] := by
  refine runs_of_eq (g := fun b => if b.agIn l (dirBit back) .draining && (b.lane (2 * l + dirBit back)).cells = [] then
    (b.setAg l (dirBit back) .off).agStart l (dirBit back) else b) rfl (if_pos (by simp [h, hempty])) ?_
  by_cases hr : s.blk.agReady l = true
  · rw [agStart_ready (agReady_setAg.trans hr) agIn_setAg_self, if_pos hr]
    exact ⟨agIn_setAg_self, rfl, rfl, (Within.setFld _ _ _ _ (by simp)).trans (Within.setFld _ _ _ _ (by simp))⟩
  · rw [if_neg hr]
    rw [Bool.not_eq_true] at hr
    rw [agStart_not_ready (agReady_setAg.trans hr)]
    exact ⟨agIn_setAg_self, onlyFields_setAg⟩

theorem runs_agateFailedExpiry (h : s.blk.agIn l (dirBit back) .failed = true) (hr : s.blk.agReady l = true)
    (hauto : s.blk.flag .D2D_LNK_CTL_auto_retrain (rxEnd l (dirBit back)) = true) :
    Runs (.agateFailedExpiry l back) s fun t => t.blk.agIn l (dirBit back) .training = true ∧
      OnlyFields s t [(.D2D_LNK_STATUS_state, rxEnd l (dirBit back))] :=
  runs_of_eq (g := fun b => if b.agIn l (dirBit back) .failed && b.agReady l &&
      b.flag .D2D_LNK_CTL_auto_retrain (rxEnd l (dirBit back)) then b.setAg l (dirBit back) .training else b) rfl
    (if_pos (by simp [h, hr, hauto])) ⟨agIn_setAg_self, onlyFields_setAg⟩

section Live

variable {k : Nat} (h : s.blk.agIn l (dirBit back) .live = true) (hk : k < 8) (hne : 8 * (l / 8) + k ≠ l)
  (hother : s.blk.agIn (8 * (l / 8) + k) (dirBit back) .live = true) (ha : s.blk.pairAwake (l / 8) = true)

include h hk hne hother ha

theorem runs_agateLossOfLock : Runs (.agateLossOfLock l back) s fun t => t.blk.agIn l (dirBit back) .failed = true ∧
    t.blk.flag .D2D_PAIR_INT_link_fail (l / 8) = true := by
  obtain ⟨hfailed, hflag, -⟩ := agFail_leaves h hk hne hother ha
  exact runs_of_eq (g := fun b => if b.agIn l (dirBit back) .live then b.agFail l (dirBit back) else b) rfl (if_pos h) ⟨hfailed, hflag⟩

/-- A retrain of a link of which this direction alone is live. -/
theorem runs_agateRetrain (hthere : s.blk.agIn l (1 - dirBit back) .live = false) :
    Runs (.agateRetrain l) s fun t => t.blk.agIn l (dirBit back) .failed = true ∧
      t.blk.flag .D2D_PAIR_INT_link_fail (l / 8) = true := by
  obtain ⟨hfailed, hflag, hkept⟩ := agFail_leaves h hk hne hother ha
  refine runs_of_eq (g := (·.agRetrain l)) rfl ?_ ⟨hfailed, hflag⟩
  unfold agRetrain
  dsimp only
  cases back
  · have hnow : s.blk.agIn l 0 .live = true := h
    have hnext : (s.blk.agFail l 0).agIn l 1 .live = false := (hkept l 1 .live (rxEnd_zero_ne_one l).symm).trans hthere
    rw [hnow, if_pos rfl, hnext, if_neg Bool.false_ne_true]
    rfl
  · have hnow : s.blk.agIn l 0 .live = false := hthere
    have hnext : s.blk.agIn l 1 .live = true := h
    rw [hnow, if_neg Bool.false_ne_true, hnext, if_pos rfl]
    rfl

end Live

end

end Sys2Proof.Machine
end

section
/-!
PROOF. Cells on the Agate links (R128, R149 to R152): the first cell of a copy as it joins the bundle, a cell as it lands in its stream's
order, credits as they come back, and flits that fail. With the states of the links they settle O8.
-/

namespace Sys2Proof.Machine

/-! ### The header of a cell (R149) -/

/-- A number of two bytes read back where it stands. -/
theorem beAt_beBytes_two (xs ys : List Byte) (v : Nat) : beAt (xs ++ (beBytes 2 v ++ ys)) xs.length 2 = v % 65536 := by
  have hlow : (xs ++ (beBytes 2 v ++ ys)).getD (xs.length + 0) 0 = BitVec.ofNat 8 (v / 256) := by
    simp [beBytes, List.range_succ]
  have hhigh : (xs ++ (beBytes 2 v ++ ys)).getD (xs.length + 1) 0 = BitVec.ofNat 8 v := by
    simp [beBytes, List.range_succ]
  unfold beAt
  rw [show List.range 2 = [0, 1] from rfl, List.foldl_cons, List.foldl_cons, List.foldl_nil, hlow, hhigh, BitVec.toNat_ofNat,
    BitVec.toNat_ofNat]
  omega

namespace Blk

variable {s t : Blk} {k key p b l : Nat} {c : CopyRec} {x : AgateCell}

@[simp] theorem dir_updDir_self (g : AgateDir → AgateDir) : (s.updDir k g).dir k = g (s.dir k) := by simp [dir_updDir]
@[simp] theorem lane_updLane_self (g : AgateLane → AgateLane) : (s.updLane k g).lane k = g (s.lane k) := by simp [lane_updLane]

/-- A header is 32 bytes, with the cell's place in its stream at bytes 2 and 3 and the frame's tag at bytes 10 and 11 (R149). -/
theorem cellHeader_reads (i n len cls tile seq ftag : Nat) (chkFail : Bool) (t : Nat × Nat × Nat × Nat) :
    ((cellHeader i n len cls tile seq ftag chkFail t).length, beAt (cellHeader i n len cls tile seq ftag chkFail t) 2 2,
      beAt (cellHeader i n len cls tile seq ftag chkFail t) 10 2) = (32, seq % 65536, ftag % 65536) := by
  unfold cellHeader
  dsimp only
  refine Prod.ext ?_ (Prod.ext ?_ ?_)
  · simp [length_beBytes]
  · simp only [List.append_assoc]
    rw [← List.append_assoc]
    exact beAt_beBytes_two _ _ _
  · exact (congrArg (beAt · 10 2) (List.append_assoc _ _ _)).trans (beAt_beBytes_two _ _ _)

/-! ### The bundle (R150) -/

/-- Which link a bundle picks depends on its pointer, on the links' states and on what waits there. -/
theorem pickLink_congr (hd : (t.dir (2 * p + b)).pointer = (s.dir (2 * p + b)).pointer) (hf : t.fields = s.fields)
    (hl : t.agateLanes = s.agateLanes) : t.pickLink p b = s.pickLink p b := by
  have hin : ∀ m, t.agIn m b .live = s.agIn m b .live := fun m => agIn_congr (fld_congr hf _ _)
  have hlane : ∀ m, t.lane m = s.lane m := fun m => congrArg (Tab.get · _ m) hl
  unfold pickLink
  simp only [hd, hin, hlane]

theorem credits_placeCell : ((s.placeCell p b x).dir k).credits = (s.dir k).credits := by
  unfold placeCell
  split
  · rfl
  · rw [dir_updDir]
    split_ifs with h
    · rw [h]
      rfl
    · rfl

theorem lane_placeCell {j : Nat} (h : s.pickLink p b = some j) : ((s.placeCell p b x).lane (2 * (8 * p + j) + b)).cells =
    laneInsert (s.lane (2 * (8 * p + j) + b)).cells x := by
  unfold placeCell
  rw [h]
  exact congrArg AgateLane.cells (lane_updLane_self (s := s) fun a => { a with cells := laneInsert a.cells x })

/-- With none of its stream on the links a cell may leave where it has a credit and a live link. -/
theorem mayCross_of_empty {tile cls : Nat} (hc : 0 < vget (s.dir k).credits cls)
    (hlanes : ∀ j < 8, (s.lane (2 * (8 * (k / 2) + j) + k % 2)).cells = []) (hl : 0 < s.liveLinks k) : s.mayCross k tile cls = true := by
  have hnone : ((List.range 8).map fun j => ((s.lane (2 * (8 * (k / 2) + j) + k % 2)).cells.filter (·.tile = tile)).length) =
      (List.range 8).map fun _ => 0 :=
    List.map_congr_left fun j hj => by rw [hlanes j (List.mem_range.mp hj)]; rfl
  unfold mayCross
  dsimp only
  rw [hnone]
  simp [hc, hl]

/-! ### The first cell of a copy (R128, R149) -/

theorem nextTag_eq (s : Blk) (k tile : Nat) : s.nextTag k tile = ((s.dir k).sendTag.get 0 tile,
    s.updDir k fun d => { d with sendTag := d.sendTag.set 0 tile (((s.dir k).sendTag.get 0 tile + 1) % 65536) }) := rfl

/-- The block with a tile's frame numbered, and the credit and the place in its stream of the frame's first cell taken. -/
def crossing (s : Blk) (k tile cls : Nat) : Blk :=
  (s.nextTag k tile).2.updDir k fun d => { d with
    credits := vsub d.credits cls 1, sendSeq := d.sendSeq.set 0 tile (((s.dir k).sendSeq.get 0 tile + 1) % 65536) }

theorem dir_crossing (tile cls : Nat) : ((s.crossing k tile cls).dir k).credits = vsub (s.dir k).credits cls 1 ∧
    ((s.crossing k tile cls).dir k).pointer = (s.dir k).pointer := by
  unfold crossing nextTag
  rw [dir_updDir_self, dir_updDir_self]
  exact ⟨rfl, rfl⟩

theorem crossing_eq (s : Blk) (k tile cls : Nat) : ∃ y, s.crossing k tile cls = { s with agateDirs := y } := ⟨_, rfl⟩

/-- A copy whose first cell has left. -/
def crossingCopy (c : CopyRec) (ftag : Nat) : CopyRec := { c with sent := 1, phase := .crossing, ftag := ftag }

/-- The first cell of a copy, as it leaves. -/
def firstCell (s : Blk) (k key : Nat) (c : CopyRec) (chkFail : Bool) : AgateCell :=
  ⟨key, 0, c.cls, c.tile, (s.dir k).sendSeq.get 0 c.tile, cellHeader 0 c.ncells (frameLen c.frame) c.cls c.tile
    ((s.dir k).sendSeq.get 0 c.tile) ((s.dir k).sendTag.get 0 c.tile) chkFail (targetFields c.target), false⟩

theorem sendCell_first (hk : k = dirOf (dieOfTile c.tile) (key % 4)) (chkFail : Bool) :
    (s.nextTag k c.tile).2.sendCell key 0 c.ncells (frameLen c.frame) c.cls c.tile ((s.dir k).sendTag.get 0 c.tile) chkFail
      (targetFields c.target) = (s.crossing k c.tile c.cls).placeCell (k / 2) (k % 2) (s.firstCell k key c chkFail) := by
  have hseq : ((s.nextTag k c.tile).2.dir k).sendSeq = (s.dir k).sendSeq := by
    rw [nextTag_eq, dir_updDir_self]
  unfold sendCell
  rw [← hk]
  dsimp only
  rw [hseq]
  rfl

theorem copyCell_first (h0 : c.sent = 0) (hp : c.phase = .toCross) (hd : dieOfTile c.tile ≠ key % 4)
    (hk : k = dirOf (dieOfTile c.tile) (key % 4)) (hn : 0 < c.ncells)
    (hhere : ∀ r, s.frame? (key / 4) = some r → r.link = none ∨ 0 < cellsHere r) (hmay : s.mayCross k c.tile c.cls = true) :
    ∃ chkFail, s.copyCell key c = ((s.crossing k c.tile c.cls).placeCell (k / 2) (k % 2) (s.firstCell k key c chkFail)).putCopy
      key (crossingCopy c ((s.dir k).sendTag.get 0 c.tile)) := by
  unfold copyCell
  rw [← hk]
  dsimp only
  cases hr : s.frame? (key / 4) with
  | none =>
    dsimp only
    rw [if_pos (by simp [hp, h0, hd, hn, hmay]), h0, if_pos hp, if_pos rfl, nextTag_eq]
    exact ⟨c.chkFail, congrArg (putCopy · key _) (sendCell_first hk c.chkFail)⟩
  | some r =>
    have hbytes : 0 < if r.link = none then c.ncells else cellsHere r := by
      split
      · exact hn
      · exact (hhere r hr).resolve_left ‹_›
    dsimp only
    rw [if_pos (by simp [hp, h0, hd, hbytes, hmay]), h0, if_pos hp, if_pos rfl, nextTag_eq]
    exact ⟨r.chkFail, congrArg (putCopy · key _) (sendCell_first hk r.chkFail)⟩

/-- The first cell of a copy has a credit taken for it, and a place on the bundle. -/
theorem copyCell_first_leaves {j : Nat} (chkFail : Bool) (hempty : (s.lane (2 * (8 * (k / 2) + j) + k % 2)).cells = [])
    (hpick : s.pickLink (k / 2) (k % 2) = some j) :
    (((s.crossing k c.tile c.cls).placeCell (k / 2) (k % 2) (s.firstCell k key c chkFail)).lane (2 * (8 * (k / 2) + j) + k % 2)).cells =
      [s.firstCell k key c chkFail] := by
  obtain ⟨y, hy⟩ := crossing_eq s k c.tile c.cls
  have hsame : (s.crossing k c.tile c.cls).pickLink (k / 2) (k % 2) = some j := by
    refine (pickLink_congr ?_ (by rw [hy]) (by rw [hy])).trans hpick
    rw [Nat.div_add_mod]
    exact (dir_crossing _ _).2
  have hlane : ((s.crossing k c.tile c.cls).lane (2 * (8 * (k / 2) + j) + k % 2)).cells = [] := by
    rw [hy]
    exact hempty
  rw [lane_placeCell hsame, hlane]
  rfl

/-! ### A cell lands (R150, R151) -/

/-- A cell that nothing awaits is discarded as it comes to its turn. -/
theorem cellReady_lost (hc : s.copy? x.copy = none) (ht : s.transfers.find x.copy = none) : s.cellReady k x = s.takeLanded k x := by
  unfold cellReady
  rw [hc, ht]

/-- A landing buffer whose one cell has come to its turn. -/
def inTurn (s : Blk) (k : Nat) (x : AgateCell) : Blk :=
  s.updDir k fun d => { d with recvSeq := d.recvSeq.set 0 x.tile ((x.seq + 1) % 65536),
                               landing := d.landing.map fun y => if y = x then { y with ready := true } else y }

theorem releaseCells_lost (hland : (s.dir k).landing = [x]) (hseq : x.seq = (s.dir k).recvSeq.get 0 x.tile) (hr : x.ready = false)
    (hc : s.copy? x.copy = none) (ht : s.transfers.find x.copy = none) :
    s.releaseCells k x.tile 1 = (s.inTurn k x).takeLanded k x := by
  have hfind : (s.dir k).landing.find? (fun y => y.tile = x.tile && y.seq = x.seq && !y.ready) = some x := by
    rw [hland, List.find?_cons_of_pos (by simp [hr])]
  unfold releaseCells
  dsimp only
  rw [← hseq, hfind]
  exact cellReady_lost (s := s.inTurn k x) hc ht

/-- The place of a cell of a copy that is gone is free again, and its credit is on its way back. -/
theorem takeLanded_inTurn (hland : (s.dir k).landing = [x]) :
    (((s.inTurn k x).takeLanded k x).dir k).landing = [] ∧
      (((s.inTurn k x).takeLanded k x).dir k).inFlight = vadd (s.dir k).inFlight x.cls 1 ∧
      (((s.inTurn k x).takeLanded k x).dir k).recvSeq.get 0 x.tile = (x.seq + 1) % 65536 := by
  unfold takeLanded inTurn
  rw [dir_updDir_self, dir_updDir_self]
  refine ⟨?_, rfl, (Tab.get_set _ _ _ _ _ _ fun _ => rfl).trans (if_pos rfl)⟩
  simp [hland]

end Blk

open Blk

/-! ### The commands -/

theorem runs_agateCellSend_first {s : State} {fid : Nat} {d : DieId} {c : CopyRec} {k : Nat} (hc : s.blk.copy? (4 * fid + d) = some c)
    (hp : c.phase = .toCross) (h0 : c.sent = 0) (hd : dieOfTile c.tile ≠ d) (hk : k = dirOf (dieOfTile c.tile) d)
    (hcredit : 0 < vget (s.blk.dir k).credits c.cls) (hlanes : ∀ j < 8, (s.blk.lane (2 * (8 * (k / 2) + j) + k % 2)).cells = [])
    (hlive : 0 < s.blk.liveLinks k) (hn : 0 < c.ncells) (hhere : ∀ r, s.blk.frame? fid = some r → r.link = none ∨ 0 < Blk.cellsHere r) :
    Runs (.agateCellSend fid d) s fun u =>
      u.blk.copy? (4 * fid + d) = some { c with sent := 1, phase := .crossing, ftag := (s.blk.dir k).sendTag.get 0 c.tile } ∧
      (u.blk.dir k).credits = vsub (s.blk.dir k).credits c.cls 1 ∧
      ∀ j < 8, s.blk.pickLink (k / 2) (k % 2) = some j →
        (u.blk.lane (2 * (8 * (k / 2) + j) + k % 2)).cells.map (fun x => (x.copy, x.idx, x.cls, x.tile, x.seq)) =
          [(4 * fid + d, 0, c.cls, c.tile, (s.blk.dir k).sendSeq.get 0 c.tile)] ∧
        (u.blk.lane (2 * (8 * (k / 2) + j) + k % 2)).cells.map (fun x => (x.head.length, beAt x.head 2 2, beAt x.head 10 2)) =
          [(32, (s.blk.dir k).sendSeq.get 0 c.tile % 65536, (s.blk.dir k).sendTag.get 0 c.tile % 65536)] := by
  have hmod : (4 * fid + d) % 4 = d := by omega
  have hdiv : (4 * fid + d) / 4 = fid := by omega
  obtain ⟨chkFail, hcell⟩ := copyCell_first (key := 4 * fid + d) h0 hp (by rwa [hmod]) (by rwa [hmod]) hn (by rwa [hdiv])
    (mayCross_of_empty hcredit hlanes hlive)
  have hsend : s.blk.cellSend (4 * fid + d) = s.blk.copyCell (4 * fid + d) c := by
    unfold cellSend
    rw [hc]
  refine runs_of_eq (g := (·.cellSend (4 * fid + d))) rfl (hsend.trans hcell) ⟨copy_putCopy_self, ?_, fun j hj hpick => ?_⟩
  · exact credits_placeCell.trans (dir_crossing _ _).1
  · have hlane := copyCell_first_leaves (key := 4 * fid + d) (c := c) chkFail (hlanes j hj) hpick
    refine ⟨(congrArg (List.map _) hlane).trans rfl, (congrArg (List.map _) hlane).trans ?_⟩
    exact congrArg (fun y => [y]) (cellHeader_reads _ _ _ _ _ _ _ _ _)

theorem runs_agateCellLanded_lost {s : State} {l : AgateId} {back : Bool} {x : AgateCell} {rest : List AgateCell} {k : Nat}
    (hk : k = 2 * (l / 8) + dirBit back) (hcells : (s.blk.lane (2 * l + dirBit back)).cells = x :: rest)
    (hland : (s.blk.dir k).landing = []) (hseq : x.seq = (s.blk.dir k).recvSeq.get 0 x.tile) (hr : x.ready = false)
    (hc : s.blk.copy? x.copy = none) (ht : s.blk.transfers.find x.copy = none) :
    Runs (.agateCellLanded l back) s fun u => (u.blk.lane (2 * l + dirBit back)).cells = rest ∧
      (u.blk.dir k).landing = [] ∧ (u.blk.dir k).inFlight = vadd (s.blk.dir k).inFlight x.cls 1 ∧
      (u.blk.dir k).recvSeq.get 0 x.tile = (x.seq + 1) % 65536 := by
  set b := (s.blk.updLane (2 * l + dirBit back) fun _ => ⟨rest, 0⟩).updDir k fun d => { d with landing := d.landing ++ [x] } with hb
  have hdir : b.dir k = { s.blk.dir k with landing := [x] } := by
    rw [hb, dir_updDir_self]
    change { s.blk.dir k with landing := (s.blk.dir k).landing ++ [x] } = _
    rw [hland]
    rfl
  have hlanded : s.blk.cellLanded l (dirBit back) = (b.inTurn k x).takeLanded k x := by
    unfold cellLanded
    rw [hcells, ← hk]
    dsimp only
    rw [← hb, hdir]
    exact releaseCells_lost (by rw [hdir]) (by rw [hdir]; exact hseq) hr hc ht
  obtain ⟨hempty, hback, hnext⟩ := takeLanded_inTurn (s := b) (k := k) (x := x) (by rw [hdir])
  rw [hdir] at hback
  refine runs_of_eq (g := (·.cellLanded l (dirBit back))) rfl hlanded ⟨?_, hempty, hback, hnext⟩
  exact congrArg AgateLane.cells (lane_updLane_self (s := s.blk) (k := 2 * l + dirBit back) fun _ => ⟨rest, 0⟩)

theorem runs_agateCreditReturn {s : State} {p : PairId} {back : Bool} {c : ClassId} {k : Nat} (hk : k = 2 * p + dirBit back)
    (h : 0 < vget (s.blk.dir k).inFlight c) :
    Runs (.agateCreditReturn p back c) s fun u => (u.blk.dir k).inFlight = vsub (s.blk.dir k).inFlight c 1 ∧
      (u.blk.dir k).credits = vadd (s.blk.dir k).credits c 1 ∧ ∀ f i, u.blk.fld f i = s.blk.fld f i := by
  refine runs_of_eq (g := (·.creditReturn p (dirBit back) c)) rfl rfl ?_
  unfold creditReturn
  rw [← hk, dir_updDir_self, if_pos h]
  exact ⟨rfl, rfl, fun _ _ => rfl⟩

theorem runs_flitCrcFail {s : State} {l : AgateId} {back : Bool} (h : (s.blk.lane (2 * l + dirBit back)).badReplays ≠ 3) :
    Runs (.flitCrcFail l back) s fun u =>
      u.blk.fld .D2D_LNK_CRCERR_count (rxEnd l (dirBit back)) =
        min (s.blk.fld .D2D_LNK_CRCERR_count (rxEnd l (dirBit back)) + 1) (2 ^ 64 - 1) ∧
      u.blk.fld .D2D_LNK_REPLAY_count (rxEnd l (dirBit back)) =
        min (s.blk.fld .D2D_LNK_REPLAY_count (rxEnd l (dirBit back)) + 1) (2 ^ 64 - 1) ∧
      (u.blk.lane (2 * l + dirBit back)).badReplays = (s.blk.lane (2 * l + dirBit back)).badReplays + 1 := by
  set b := s.blk.count .D2D_LNK_CRCERR_count (rxEnd l (dirBit back)) 1 with hb
  refine runs_of_eq (g := (·.flitFail l (dirBit back))) rfl (if_neg h) ⟨?_, ?_, ?_⟩
  · rw [fld_count_ne _ _ _ _ _ _ (by simp [counts]) (by decide)]
    exact fld_count_self _ _ _ _ (by simp [counts]) rfl
  · rw [fld_count_self _ _ _ _ (by simp [counts]) rfl, fld_updLane, ← hb, fld_count_ne _ _ _ _ _ _ (by simp [counts]) (by decide)]
  · unfold lane
    rw [count_agateLanes]
    exact congrArg AgateLane.badReplays (lane_updLane_self (s := b) (k := 2 * l + dirBit back) _)

/-- Settles O8: a lemma for each command, of cells (`copyCell_first`, `releaseCells_lost`), and of the states of a direction, which fails
or goes live as `agFail_leaves` and `agTrained_live` say. -/
theorem agateLinks : Obligations.AgateLinks := by
  unfold Obligations.AgateLinks
  refine ⟨⟨fun s fid d c k => runs_agateCellSend_first, fun s l back x rest k => runs_agateCellLanded_lost,
    fun s p back c k => runs_agateCreditReturn, fun s l back => runs_flitCrcFail⟩, fun s l endJ => runs_agateEnSet,
    fun s l endJ => runs_agateEnClear, fun s l back => runs_agateTrained, fun s l back => runs_agateTrainingTimeout,
    fun s l back => runs_agateDrained, fun s l back => runs_agateFailedExpiry, fun s l back k hlive hk hne hother ha => ?_⟩
  exact ⟨runs_agateLossOfLock hlive hk hne hother ha, runs_agateRetrain hlive hk hne hother ha⟩

end Sys2Proof.Machine
end

section
/-!
PROOF. An engine's oldest request for spill cells as its die's allocator grants it (R134, R208), and a state with two requests for one
frame. It refutes O16.
-/

namespace Sys2Proof.Machine

namespace Blk

variable {s : Blk} {d idle t fid : Nat} {a : SpillAsk}

/-! ### A request alone before its allocator (R134) -/

theorem decideClock_spill {tile : Nat} (h : (s.bsl d).requests = [(tile, .spill t fid)]) (hc : (s.bsl d).carried = [])
    (ht : tile < 32) : s.decideClock d idle = ((s.taken d idle (tile, .spill t fid)).decideSpill t fid).clockEnds d := by
  unfold decideClock
  dsimp only
  rw [requestOrder_single (r := (tile, .spill t fid)) (by simpa using h) (by simpa using hc) ht]
  rfl

/-- A request is put before a die's allocator, unless it lies there already. -/
def putForward (s : Blk) (d : Nat) (r : Nat × Request) : Blk :=
  s.updBsl d fun x => { x with requests := if (x.carried ++ x.requests).contains r then x.requests else x.requests ++ [r] }

theorem sameCells_putForward {r : Nat × Request} : SameCells s (s.putForward d r) d := .updBsl fun _ => rfl

theorem SameCells.spillFits {u : Blk} (h : SameCells s u (dieOfTile t)) (n : Nat) : u.spillFits t n = s.spillFits t n := by
  unfold Blk.spillFits
  rw [h.freeCount, h.overCells, h.freeShared, h.fld, h.fld]

theorem SameCells.spill {u : Blk} (h : SameCells s u d) (n : Nat) : u.spill n = s.spill n := by
  rw [h.eq]
  rfl

/-! ### A grant (R208) -/

/-- A request that has been granted all that it wants. -/
def grantedAsk (cells : List Nat) (a : SpillAsk) : SpillAsk :=
  { a with want := 0, got := a.got + a.want, refused := false, cells := a.cells ++ cells }

theorem spill_updAsk (f : SpillAsk → SpillAsk) :
    (s.updAsk t fid f).spill t = (s.spill t).map fun a => if a.frame = fid then f a else a :=
  (Tab.get_set _ _ _ _ _ _ fun _ => rfl).trans (if_pos rfl)

/-- A grant goes to every request of the frame, each of which is noted as granted what it itself wanted. -/
theorem spill_decideSpill_of_fits (ha : (s.spill t).find? (fun b => b.frame = fid) = some a) (hfits : s.spillFits t a.want = true) :
    (s.decideSpill t fid).spill t =
      (s.spill t).map fun b => if b.frame = fid then grantedAsk (s.pickCells (dieOfTile t) a.want) b else b := by
  unfold decideSpill
  rw [ha]
  dsimp only
  rw [if_pos hfits]
  exact spill_updAsk _

end Blk

open Blk

/-- What the requests of an engine are after SPILL_REQUEST, its die's allocator having no other and granting it. -/
theorem runs_spillRequest_granted {s : State} {t : TileId} {idle : Nat} {a : SpillAsk}
    (hold : (s.blk.spill t).find? (fun a => a.want ≠ 0) = some a) (ha : (s.blk.spill t).find? (fun b => b.frame = a.frame) = some a)
    (hreq : (s.blk.bsl (dieOfTile t)).requests = []) (hcar : (s.blk.bsl (dieOfTile t)).carried = [])
    (hfits : s.blk.spillFits t a.want = true) :
    Runs (.spillRequest t idle) s fun u => u.blk.spill t =
      (s.blk.spill t).map fun b => if b.frame = a.frame then grantedAsk (s.blk.pickCells (dieOfTile t) a.want) b else b := by
  set r : Nat × Request := (t.val, .spill t a.frame) with hr
  have hbooks : (s.blk.putForward (dieOfTile t) r).bsl (dieOfTile t) = { s.blk.bsl (dieOfTile t) with requests := [r] } := by
    unfold putForward
    rw [bsl_updBsl_self]
    simp [hreq, hcar]
  have hsame : SameCells s.blk ((s.blk.putForward (dieOfTile t) r).taken (dieOfTile t) idle r) (dieOfTile t) :=
    sameCells_putForward.trans sameCells_taken
  have hclock := decideClock_spill (s := s.blk.putForward (dieOfTile t) r) (idle := idle) (by rw [hbooks, hr])
    (by rw [hbooks]; exact hcar) t.isLt
  have hgrant := spill_decideSpill_of_fits (s := (s.blk.putForward (dieOfTile t) r).taken (dieOfTile t) idle r)
    (by rw [hsame.spill]; exact ha) (by rw [hsame.spillFits]; exact hfits)
  rw [hsame.spill, hsame.pickCells] at hgrant
  refine runs_of_eq (g := fun b => (b.putForward (dieOfTile t) r).decideClock (dieOfTile t) idle) ?_ hclock hgrant
  change execSpillRequest t idle s = _
  unfold execSpillRequest run
  dsimp only
  rw [hold]
  rfl

/-- After reset, engine 0 has two requests for frame 5: the older wants one cell, the other two. -/
def twoAsks : State :=
  { State.reset with blk := { Blk.reset with spills := [(0, [⟨5, 1, 0, false, []⟩, ⟨5, 2, 0, false, []⟩])] } }

/-- Refutes O16: of two requests for one frame (`twoAsks`) each is granted what it itself wants, 1 cell and 2
(`spill_decideSpill_of_fits`), and not both what the older one wants. -/
theorem not_contributionsAndSpill : ¬ Obligations.ContributionsAndSpill := by
  unfold Obligations.ContributionsAndSpill
  rintro ⟨-, hspill, -⟩
  have hfits : twoAsks.blk.spillFits (0 : TileId) 1 = true := by decide +kernel
  obtain ⟨u, hu, hclaimed, -⟩ := (hspill twoAsks 0 0 ⟨5, 1, 0, false, []⟩ rfl rfl rfl rfl).1 hfits
  obtain ⟨v, hv, hgranted⟩ := runs_spillRequest_granted (s := twoAsks) (t := 0) (idle := 0) (a := ⟨5, 1, 0, false, []⟩)
    rfl rfl rfl rfl hfits
  obtain rfl : u = v := by simpa using hu.symm.trans hv
  have hgot := congrArg (List.map SpillAsk.got) (hclaimed.symm.trans hgranted)
  exact absurd hgot (by decide)

end Sys2Proof.Machine
end

section
/-!
PROOF. What work on the chunks of an engine leaves as it was (R194 to R196, R210), and the release of a complete chunk (R195, R196, R206):
O17.
-/

namespace Sys2Proof.Machine

/-- The bytes of a Xeirrik frame of the block's own after its header and check are its payload and padding (R84, R140). -/
theorem drop_xFrame_data (dmac smac : Nat) (x : XOwn) :
    (xFrame dmac smac x).data.drop 32 = x.payload ++ (xFrame dmac smac x).data.drop (32 + x.payload.length) := by
  have hhead : ∀ (h c p q : List Byte), h.length = 28 → c.length = 4 →
      (h ++ c ++ p ++ q).drop 32 = p ++ (h ++ c ++ p ++ q).drop (32 + p.length) := fun h c p q hh hc => by
    have hlen : (h ++ c).length = 32 := by rw [List.length_append, hh, hc]
    rw [← List.drop_drop, List.append_assoc (h ++ c), ← hlen, List.drop_left, List.drop_left]
  refine hhead _ _ _ _ ?_ (length_beBytes _ _)
  simp [length_beBytes]

namespace Blk

variable {s t : Blk} {n m : Nat} {id : ChunkId} {c : ChunkRec} {k : CtxRec}

/-! ### Entries of a chunk table (R195, R196) -/

@[simp] theorem engine_updEngine_self (g : Engine → Engine) : (s.updEngine n g).engine n = g (s.engine n) := by simp [engine_updEngine]

theorem chunkAt_congr (h : t.engine n = s.engine n) (id : ChunkId) : t.chunkAt n id = s.chunkAt n id := by
  unfold chunkAt
  rw [h]

theorem chunkAt_retireChunk_self : (s.retireChunk n id).chunkAt n id = none := by
  unfold chunkAt retireChunk
  rw [engine_updEngine_self, List.find?_eq_none]
  intro x hx
  simpa using (List.mem_filter.mp hx).2

theorem log_retireChunk_self : ((s.retireChunk n id).engine n).log = (id :: (s.engine n).log).take 4096 := by
  unfold retireChunk
  rw [engine_updEngine_self]

/-- Space given back is of register fields and of Basalt's books (R210). -/
theorem freeSpace_eq (n : Nat) (c : ChunkRec) : ∃ x y, s.freeSpace n c = { s with fields := x, basalt := y } := by
  unfold freeSpace
  split <;> exact ⟨_, _, rfl⟩

/-! ### A release (R195, R196, R206) -/

/-- The complete chunk of a context and a number, where an engine has one. -/
abbrev Complete (s : Blk) (n ctx chunk : Nat) (c : ChunkRec) : Prop :=
  (s.engine n).chunks.find? (fun c => c.id.ctx = ctx && c.id.chunk = chunk && c.full) = some c

theorem releaseChunk_failed {ctx chunk : Nat} (h : s.Complete n ctx chunk c) (hs : c.status ≠ 0) (tr : ReleaseTrouble)
    (cp : EngineTrouble) : s.releaseChunk n ctx chunk tr cp = s.retireChunk n c.id := by
  unfold releaseChunk
  rw [h]
  exact if_pos hs

theorem releaseGood_unaudited (ha : c.audit = none) :
    s.releaseGood n c .none .none = s.releaseResult n { c with audit := none } false := by
  unfold releaseGood
  simp [ha, noteTrouble, releaseChecks]

theorem releaseChunk_good {ctx chunk : Nat} (h : s.Complete n ctx chunk c) (hs : c.status = 0) (hn : s.active n = true)
    (ha : c.audit = none) : s.releaseChunk n ctx chunk .none .none = s.releaseResult n { c with audit := none } false := by
  unfold releaseChunk
  rw [h]
  dsimp only
  rw [if_neg (not_not.mpr hs), ha, if_pos (by simp [hn]), releaseGood_unaudited ha]

/-- The block as a released chunk leaves it, before its result is handed on. -/
def unlisted (s : Blk) (n : Nat) (c : ChunkRec) : Blk := ((s.freeSpace n c).retireChunk n c.id).count .GRN_RELEASED_count n 1

theorem engine_unlisted (m : Nat) : (s.unlisted n c).engine m = ((s.freeSpace n c).retireChunk n c.id).engine m :=
  (FldsOut.count _ _ _ _).engine m

theorem ctx_unlisted (k : Nat) : (s.unlisted n c).ctx? k = s.ctx? k := by
  obtain ⟨x, y, h⟩ := freeSpace_eq (s := s) n c
  refine ((FldsOut.count _ _ _ _).ctx k).trans ?_
  rw [h]
  rfl

theorem repl_unlisted : (s.unlisted n c).repl = s.repl := by
  obtain ⟨x, y, h⟩ := freeSpace_eq (s := s) n c
  unfold unlisted
  rw [count_repl, h]
  rfl

theorem log_unlisted : ((s.unlisted n c).engine n).log = (c.id :: (s.engine n).log).take 4096 := by
  obtain ⟨x, y, h⟩ := freeSpace_eq (s := s) n c
  rw [engine_unlisted, log_retireChunk_self, h]
  rfl

theorem chunkAt_unlisted : (s.unlisted n c).chunkAt n c.id = none :=
  (chunkAt_congr (engine_unlisted n) _).trans chunkAt_retireChunk_self

/-- The result of a live context's chunk is handed on, with some flags. -/
theorem releaseResult_live (ha : c.audit = none) (hk : s.ctx? c.id.ctx = some k) (hl : k.state ≠ .failing) (he : k.epoch = c.id.epoch) :
    ∃ flags, s.releaseResult n c false = (s.unlisted n c).handResult n c k (roundChunk c).1 flags := by
  have hctx : (s.unlisted n c).ctx? c.id.ctx = some k := ctx_unlisted _ |>.trans hk
  unfold releaseResult
  generalize roundChunk c = p
  obtain ⟨payload, fl⟩ := p
  dsimp only
  rw [ha]
  unfold unlisted at hctx
  dsimp only
  rw [hctx]
  dsimp only
  rw [if_pos (by simp [hl, he])]
  exact ⟨_, rfl⟩

/-- The frame that carries a chunk's result (R206). -/
def resultOwn (s : Blk) (n : Nat) (c : ChunkRec) (k : CtxRec) (payload : List Byte) (flags : Nat) : XOwn where
  etype := s.fld .TIL_FWD_CFG_xeirrik_etype n
  sprayOk := false
  mcast := false
  dst := 0
  tc := 5
  src := bits k.entry 31 12
  hop := bits k.entry 55 52
  opcode := 0x18
  seq := c.id.chunk
  opArea := ColArea.bytes ⟨c.id.ctx / 65536, c.id.ctx % 65536, k.epoch, 0, c.id.chunk, c.fmt, c.op, c.elems, flags⟩
  payload := payload

/-- A result goes to replication as a frame of the block's own; the context counts the chunk; the journal may grow (R206, R219). -/
theorem handResult_form (payload : List Byte) (flags : Nat) :
    ∃ (i : ReplItem) (k' : CtxRec) (fr : Nat) (j : List JournalItem),
      i.frame = (s.ownFrame (s.resultOwn n c k payload flags)).1 ∧ k'.chunksOk = k.chunksOk + 1 ∧
      s.handResult n c k payload flags = { s with
        fresh := fr
        repl := s.repl.set .reset n { s.repl.get .reset n with garnet := (s.repl.get .reset n).garnet ++ [i] }
        contexts := s.contexts.put c.id.ctx k'
        journal := j } := by
  by_cases h : k.entry.testBit 126 = true
  · refine ⟨_, _, _, _, ?_, ?_, (if_pos h : _)⟩
    all_goals rfl
  · refine ⟨_, _, _, s.journal, ?_, ?_, (if_neg h : _)⟩
    all_goals rfl

/-- A result goes to replication as a frame's payload, and the context counts the chunk (R206). -/
theorem handResult_leaves (payload : List Byte) (flags : Nat) :
    (∀ m, (s.handResult n c k payload flags).engine m = s.engine m) ∧
      ((s.handResult n c k payload flags).ctx? c.id.ctx).map CtxRec.chunksOk = some (k.chunksOk + 1) ∧
      ∃ i : ReplItem, ((s.handResult n c k payload flags).repl.get .reset n).garnet = (s.repl.get .reset n).garnet ++ [i] ∧
        (i.frame.data.drop 32).take payload.length = payload := by
  obtain ⟨i, k', fr, j, hi, hk', h⟩ := handResult_form (s := s) (n := n) (c := c) (k := k) payload flags
  rw [h]
  refine ⟨fun m => rfl, ?_, i, ?_, ?_⟩
  · exact (congrArg (Option.map _) (Tab.find_put_self ..)).trans (congrArg some hk')
  · exact congrArg ReplTile.garnet ((Tab.get_set _ _ _ _ _ _ fun _ => rfl).trans (if_pos rfl))
  · rw [hi]
    refine (congrArg (List.take _) (drop_xFrame_data _ _ (s.resultOwn n c k payload flags))).trans ?_
    exact List.take_left

end Blk

open Blk

/-- Settles O17. A good chunk's release frees its space and entry and hands its rounded result on; a failed one's only frees the entry. -/
theorem chunksReleased : Obligations.ChunksReleased := by
  unfold Obligations.ChunksReleased
  intro s t g q n c hc
  refine ⟨fun k hs hn ha hk hl he => ?_, fun tr hs => ?_⟩
  · obtain ⟨flags, hres⟩ := releaseResult_live (c := { c with audit := none }) rfl hk hl he
    obtain ⟨heng, hctx, i, hrepl, hi⟩ := handResult_leaves (s := s.blk.unlisted t { c with audit := none }) (n := t)
      (c := { c with audit := none }) (k := k) (roundChunk { c with audit := none }).1 flags
    refine runs_of_eq (g := (·.releaseChunk t (ctxNum g.toNat q.toNat) n.toNat .none .none)) rfl
      ((releaseChunk_good hc hs hn ha).trans hres) ⟨?_, ?_, hctx, i, ?_, hi⟩
    · exact (chunkAt_congr (heng t) c.id).trans chunkAt_unlisted
    · exact (congrArg Engine.log (heng t)).trans log_unlisted
    · rw [repl_unlisted] at hrepl
      exact hrepl
  · exact runs_of_eq (g := (·.releaseChunk t (ctxNum g.toNat q.toNat) n.toNat tr.engine tr.copy)) rfl
      (releaseChunk_failed hc hs _ _) ⟨chunkAt_retireChunk_self, log_retireChunk_self, rfl⟩

end Sys2Proof.Machine
end

section
/-!
PROOF. The states of an engine (R214 to R218): an engine that leaves ACTIVE gives up its audits, its requests and perhaps its chunks, and
all of it is work on registers and tables that no state of an engine depends on. Part of O18.
-/

namespace Sys2Proof.Machine

namespace Blk

variable {s t u : Blk}

/-! ### Work on the chunks and the requests of engines (R208 to R210, R217) -/

/-- The register fields that work on the chunks and the requests of engines may change. -/
def working (g : Fld) : Prop :=
  counts g ∨ g = .GRN_SPILL_USED_cells ∨ g = .GRN_SCR_USED_lines ∨ g = .GRN_STATUS_chunks ∨ g = .GRN_FAILED_count ∨
    g = .GRN_IST_STATUS_busy ∨ g = .GRN_STATUS_subst

/-- From `s` to `t` no other register field has changed, nor what an engine does once it is empty. -/
structure EngineWork (s t : Blk) : Prop where
  fld : ∀ f i, ¬ working f → t.fld f i = s.fld f i
  retest : ∀ n, (t.engine n).retest = (s.engine n).retest

@[simp] theorem engine_setFld (f : Fld) (i v n : Nat) : (s.setFld f i v).engine n = s.engine n := rfl

/-- A change of an engine shows in its count of chunks alone (R221). -/
theorem fld_updEngine_ne (n : Nat) (g : Engine → Engine) (f : Fld) (i : Nat) (h : f ≠ .GRN_STATUS_chunks) :
    (s.updEngine n g).fld f i = s.fld f i := fld_setFld_ne _ _ _ _ _ _ h

namespace EngineWork

theorem refl (s : Blk) : EngineWork s s := ⟨fun _ _ _ => rfl, fun _ => rfl⟩

theorem trans (h : EngineWork s t) (k : EngineWork t u) : EngineWork s u :=
  ⟨fun f i hf => (k.fld f i hf).trans (h.fld f i hf), fun n => (k.retest n).trans (h.retest n)⟩

theorem ite {c : Prop} [Decidable c] (h : EngineWork s t) (k : EngineWork s u) : EngineWork s (if c then t else u) := by
  split
  exacts [h, k]

theorem foldl {β : Type} (g : Blk → β → Blk) (h : ∀ t b, EngineWork t (g t b)) (l : List β) (t : Blk) :
    EngineWork t (l.foldl g t) := by
  induction l generalizing t with
  | nil => exact refl t
  | cons b l ih => exact (h t b).trans (ih _)

/-- A change of anything but the register fields and the engines. -/
theorem of_same (hf : t.fields = s.fields) (he : t.engines = s.engines) : EngineWork s t :=
  ⟨fun f i _ => fld_congr hf f i, fun n => by unfold engine; rw [he]⟩

theorem setFld {f : Fld} (hf : working f) (i v : Nat) : EngineWork s (s.setFld f i v) :=
  ⟨fun _ _ hg => fld_setFld_ne _ _ _ _ _ _ fun h => hg (h ▸ hf), fun _ => rfl⟩

theorem count {f : Fld} (hf : working f) (i n : Nat) : EngineWork s (s.count f i n) :=
  ⟨fun _ _ hg => fld_count_ne _ _ _ _ _ _ (fun h => hg (.inl h)) fun h => hg (h ▸ hf),
    fun m => congrArg Engine.retest ((FldsOut.count _ _ _ _).engine m)⟩

/-- An engine's tables change, and the count of its chunks with them (R221). -/
theorem updEngine (n : Nat) (g : Engine → Engine) (hg : ∀ e, (g e).retest = e.retest) : EngineWork s (s.updEngine n g) := by
  refine ⟨fun f i hf => fld_updEngine_ne _ _ _ _ fun h => hf (by simp [h, working]), fun m => ?_⟩
  rw [engine_updEngine]
  split
  · subst m
    exact hg _
  · rfl

theorem spillGive (n k : Nat) (cells : List Nat) : EngineWork s (s.spillGive n k cells) :=
  (setFld (by simp [working]) _ _).trans (of_same rfl rfl)

theorem freeSpace (n : Nat) (c : ChunkRec) : EngineWork s (s.freeSpace n c) :=
  ite (spillGive _ _ _) (setFld (by simp [working]) _ _)

theorem dropCopyOf (n : Nat) (id : ChunkId) : EngineWork s (s.dropCopyOf n id) := by
  unfold Blk.dropCopyOf
  split
  · exact refl s
  · exact (freeSpace n _).trans (updEngine n _ fun _ => rfl)

theorem putChunk (n : Nat) (c : ChunkRec) : EngineWork s (s.putChunk n c) := updEngine n _ fun _ => rfl

theorem abandonAudit (n : Nat) (c : ChunkRec) : EngineWork s (s.abandonAudit n c) := by
  unfold Blk.abandonAudit
  split
  · exact refl s
  · exact (dropCopyOf _ _).trans (putChunk _ _)

theorem abandonAudits (n : Nat) : EngineWork s (s.abandonAudits n) := by
  unfold Blk.abandonAudits
  extract_lets s₁ s₂
  have h₁ : EngineWork s s₁ := foldl _ (fun _ _ => dropCopyOf _ _) _ _
  have h₂ : EngineWork s₁ s₂ := foldl _ (fun _ _ => abandonAudit _ _) _ _
  refine (h₁.trans h₂).trans (foldl _ (fun t m => ?_) _ _)
  split
  · exact updEngine m _ fun _ => rfl
  · exact refl t

theorem endAsks (n : Nat) (p : SpillAsk → Bool) : EngineWork s (s.endAsks n p) :=
  (foldl _ (fun _ _ => spillGive _ _ _) _ _).trans (of_same rfl rfl)

theorem chunkFailed (id : ChunkId) (status : Nat) : EngineWork s (s.chunkFailed id status) := by
  unfold Blk.chunkFailed
  split
  · exact refl s
  · exact ite (of_same rfl rfl) (refl s)

theorem failChunk (n : Nat) (c : ChunkRec) (status : Nat) : EngineWork s (s.failChunk n c status) := by
  unfold Blk.failChunk
  extract_lets s₁ s₂
  have h₁ : EngineWork s s₁ := by
    unfold s₁
    split
    · exact refl s
    · exact dropCopyOf _ _
  have h₂ : EngineWork s s₂ := (h₁.trans (freeSpace _ _)).trans (putChunk _ _)
  exact (h₂.trans (count (by simp [working]) _ _)).trans (chunkFailed _ _)

end EngineWork

/-- An engine that leaves ACTIVE is EVACUATING, and tests itself once it is empty where it is told to (R214 to R216). -/
theorem leaveActive_leaves (n : Nat) (retest : Bool) :
    (∀ f i, ¬ working f → (s.leaveActive n retest).fld f i = (s.setFld .GRN_STATUS_state n 2).fld f i) ∧
      ((s.leaveActive n retest).engine n).retest = retest := by
  unfold leaveActive
  extract_lets s₁ s₂ s₃ u s₄
  have h₃ : EngineWork (s.setFld .GRN_STATUS_state n 2) s₃ :=
    ((EngineWork.abandonAudits n).trans (.ite (.setFld (by simp [working]) _ _) (.refl _))).trans (.endAsks _ _)
  have h₄ : ∀ f i, ¬ working f → s₄.fld f i = s₃.fld f i := fun f i hf => by
    unfold s₄
    rw [fld_setFld_ne _ _ _ _ _ _ fun h => hf (by simp [h, working]), fld_updEngine_ne _ _ _ _ fun h => hf (by simp [h, working])]
  have hmark : (s₄.engine n).retest = retest := by
    unfold s₄
    rw [engine_setFld, engine_updEngine_self]
  have hfail : ∀ l : List ChunkRec,
      EngineWork s₄ (if u.isSome = true then s₄ else l.foldl (fun s c => s.failChunk n c 4) s₄) := fun l =>
    .ite (.refl _) (.foldl _ (fun _ _ => .failChunk _ _ _) _ _)
  exact ⟨fun f i hf => ((hfail _).fld f i hf).trans ((h₄ f i hf).trans (h₃.fld f i hf)), ((hfail _).retest n).trans hmark⟩

theorem state_leaveActive (n : Nat) (retest : Bool) : (s.leaveActive n retest).fld .GRN_STATUS_state n = 2 := by
  rw [(leaveActive_leaves n retest).1 _ _ (by simp [working, counts]), fld_setFld_self]
  rfl

/-! ### The end of an engine's states (R215, R218) -/

theorem bit_setBit (f : Fld) (i b : Nat) (hb : b < f.info.width) : (s.setBit f i b true).bit f i b = true := by
  unfold bit setBit
  rw [if_pos rfl, fld_setFld_self, Nat.testBit_mod_two_pow, Nat.testBit_or, Nat.testBit_two_pow_self]
  simp [hb]

theorem fld_setBit_ne (f : Fld) (i b : Nat) (v : Bool) (g : Fld) (j : Nat) (h : g ≠ f) : (s.setBit f i b v).fld g j = s.fld g j :=
  fld_setFld_ne _ _ _ _ _ _ h

/-- An error record leaves an engine's state, its event and the failed engines as they are (R455). -/
theorem fld_reportError_garnet (src : ErrSource) {f : Fld} (hf : f ∈ [.GRN_STATUS_state, .GRN_INT_quarantined, .GRN_IST_FAIL_fail])
    (i : Nat) : (s.reportError src).fld f i = s.fld f i := by
  refine Reported.reportError src f i ?_
  have hbit : ∀ k, f ≠ errBit k := fun k => by
    rintro rfl
    unfold errBit at hf
    split at hf <;> simp at hf
  simp only [List.mem_cons, List.not_mem_nil, or_false] at hf
  rcases hf with rfl | rfl | rfl <;> simp [reporting, counts, hbit]

theorem quarantine_active {n : Nat} (h : s.active n = true) : s.quarantine n = s.leaveActive n false := if_pos h

theorem quarantine_inactive {n : Nat} (h : s.active n = false) : s.quarantine n = s := if_neg (by simp [h])

/-- An engine without chunks has nothing to move out (R216). -/
theorem evacuate_empty {n : Nat} (h : s.fld .GRN_STATUS_state n = 2) (hc : (s.engine n).chunks = []) :
    s.evacuate n = if (s.engine n).retest then s.setFld .GRN_STATUS_state n 3
      else (s.setFld .GRN_STATUS_state n 4).raise .GRN_INT_quarantined n := by
  unfold evacuate
  rw [if_pos h, hc]
  rfl

theorem selfTestDone_pass {n : Nat} (h : s.fld .GRN_STATUS_state n = 3) (ho : s.openElsewhere n = false) :
    s.selfTestDone n true =
      ((s.setFld .GRN_STATUS_state n 1).setFld .GRN_STATUS_subst n 0).updEngine n fun e => { e with subst := none } := by
  unfold selfTestDone
  rw [if_pos h, if_pos rfl, ho]
  rfl

theorem selfTestDone_fail {n : Nat} (h : s.fld .GRN_STATUS_state n = 3) : s.selfTestDone n false =
    (((s.setFld .GRN_STATUS_state n 4).raise .GRN_INT_quarantined n).setBit .GRN_IST_FAIL_fail 0 n true).reportError (.selfTest n) := by
  unfold selfTestDone
  rw [if_pos h]
  rfl

/-- Whether the idle-slot pass is over is no register field. -/
theorem Within.atIst {p : Fld → Nat → Prop} (h : Within s t p) (o : Bool) :
    Within { s with istOver := o } { t with istOver := o } p := by
  refine ⟨?_, h.2⟩
  have hsame := h.1
  unfold FldsOut at hsame ⊢
  rw [hsame]

/-- What an idle-slot turn leaves before it moves on: its engine is marked starved where its pass is not over (R218). -/
def starved (s : Blk) (e : Nat) : Blk := if !s.istOver && s.active e then s.setBit .GRN_IST_STARVED_starved 0 e true else s

theorem starved_within (e : Nat) : Within s (s.starved e) fun f i => (f, i) = (.GRN_IST_STARVED_starved, 0) := by
  unfold starved
  split
  · exact Within.setFld _ _ _ _ rfl
  · exact Within.refl _ _

/-- The idle-slot test at the engine after `e` (R218). -/
def turned (s : Blk) (e : Nat) : Blk :=
  ((s.starved e).setFld .GRN_IST_STATUS_engine 0 ((e + 1) % 32)).setFld .GRN_IST_STATUS_busy 0 (if s.active ((e + 1) % 32) then 1 else 0)

theorem istTurn_enabled (h : s.flag .GRN_IST_CTL_en 0 = true) {e : Nat} (he : e = s.fld .GRN_IST_STATUS_engine 0) :
    s.istTurn = { s.turned e with istOver := false } := by
  have hstate : (s.starved e).active ((e + 1) % 32) = s.active ((e + 1) % 32) := by
    unfold active
    rw [(starved_within e).2 _ _ (by simp)]
  unfold turned
  rw [← hstate]
  subst he
  unfold istTurn
  rw [if_pos h]
  rfl

theorem engine_turned (e : Nat) : (s.turned e).fld .GRN_IST_STATUS_engine 0 = (e + 1) % 32 := by
  unfold turned
  rw [fld_setFld_ne _ _ _ _ _ _ (by decide), fld_setFld_self]
  exact Nat.mod_eq_of_lt (Nat.mod_lt _ (by decide))

theorem busy_turned (e : Nat) : (s.turned e).flag .GRN_IST_STATUS_busy 0 = s.active ((e + 1) % 32) := by
  unfold turned flag
  rw [fld_setFld_self]
  cases s.active ((e + 1) % 32) <;> rfl

theorem starved_turned {e : Nat} (ho : s.istOver = false) (ha : s.active e = true) (he : e < 32) :
    (s.turned e).bit .GRN_IST_STARVED_starved 0 e = true := by
  unfold turned bit starved
  rw [fld_setFld_ne _ _ _ _ _ _ (by decide), fld_setFld_ne _ _ _ _ _ _ (by decide), if_pos (by simp [ho, ha])]
  exact bit_setBit _ _ _ he

theorem turned_within (e : Nat) : Within s (s.turned e) fun f i =>
    (f, i) ∈ [(Fld.GRN_IST_STARVED_starved, 0), (.GRN_IST_STATUS_engine, 0), (.GRN_IST_STATUS_busy, 0)] :=
  (((starved_within e).mono fun f i h => by simp [h]).trans (Within.setFld _ _ _ _ (by simp))).trans (Within.setFld _ _ _ _ (by simp))

/-- What an idle-slot pass leaves that ends (R218). -/
def passed (s : Blk) : Blk := { (s.setFld .GRN_IST_STATUS_busy 0 0).count .GRN_IST_PASSES_count 0 1 with istOver := true }

theorem istDone_ends (h : s.flag .GRN_IST_CTL_en 0 = true) (ho : s.istOver = false) {e : Nat}
    (he : e = s.fld .GRN_IST_STATUS_engine 0) (ha : s.active e = true) (pass : Bool) : s.istDone pass =
      if pass then s.passed else ((s.passed.setBit .GRN_IST_FAIL_fail 0 e true).reportError (.selfTest e)).leaveActive e false := by
  subst he
  unfold istDone
  rw [if_pos (by simp [h, ho, ha])]
  rfl

/-- A pass that ends is counted, and the engine is busy no longer. -/
theorem passed_leaves : s.passed.flag .GRN_IST_STATUS_busy 0 = false ∧
    s.passed.fld .GRN_IST_PASSES_count 0 = min (s.fld .GRN_IST_PASSES_count 0 + 1) (2 ^ 64 - 1) ∧
    Within { s with istOver := true } s.passed fun f i =>
      (f, i) ∈ [(Fld.GRN_IST_STATUS_busy, 0), (.GRN_IST_PASSES_count, 0)] ∨ counts f := by
  have hwithin : Within s ((s.setFld .GRN_IST_STATUS_busy 0 0).count .GRN_IST_PASSES_count 0 1) fun f i =>
      (f, i) ∈ [(Fld.GRN_IST_STATUS_busy, 0), (.GRN_IST_PASSES_count, 0)] ∨ counts f :=
    (Within.setFld _ _ _ _ (by simp)).trans (Within.count _ _ _ _ (fun _ _ h => .inr h) (by simp))
  have hfld : ∀ f i, s.passed.fld f i = ((s.setFld .GRN_IST_STATUS_busy 0 0).count .GRN_IST_PASSES_count 0 1).fld f i :=
    fun f i => fld_congr rfl f i
  refine ⟨?_, ?_, hwithin.atIst true⟩
  · unfold flag
    rw [hfld, fld_count_ne _ _ _ _ _ _ (by simp [counts]) (by decide), fld_setFld_self]
    rfl
  · rw [hfld, fld_count_self _ _ _ _ (by simp [counts]) rfl, fld_setFld_ne _ _ _ _ _ _ (by decide)]

end Blk

open Blk

/-! ### The commands -/

variable {s : State}

theorem runs_quarantine {t : TileId} (h : s.blk.active t = true) :
    Runs (.quarantine t) s fun u => u.blk.fld .GRN_STATUS_state t = 2 ∧ (u.blk.engine t).retest = false := by
  refine runs_of_eq (g := (·.quarantine t)) rfl (quarantine_active h) ?_
  dsimp only
  exact ⟨state_leaveActive _ _, (leaveActive_leaves _ _).2⟩

theorem runs_quarantine_inactive {t : TileId} (h : s.blk.active t = false) : Runs (.quarantine t) s fun u => u = s :=
  runs_of_eq (g := (·.quarantine t)) rfl (quarantine_inactive h) rfl

theorem runs_garnetRelease {t : TileId} (h : s.blk.fld .GRN_STATUS_state t = 4) :
    Runs (.garnetRelease t) s fun u => u.blk.fld .GRN_STATUS_state t = 3 ∧ OnlyFields s u [(.GRN_STATUS_state, t)] :=
  runs_of_eq (g := (·.unquarantine t)) rfl (if_pos h) ⟨fld_setFld_self .., rfl, rfl, Within.setFld _ _ _ _ (by simp)⟩

theorem runs_evacuationDone {t : TileId} (h : s.blk.fld .GRN_STATUS_state t = 2) (hc : (s.blk.engine t).chunks = []) :
    Runs (.evacuationDone t) s fun u =>
      ((s.blk.engine t).retest = true → u.blk.fld .GRN_STATUS_state t = 3 ∧ OnlyFields s u [(.GRN_STATUS_state, t)]) ∧
      ((s.blk.engine t).retest = false → u.blk.fld .GRN_STATUS_state t = 4 ∧ u.blk.flag .GRN_INT_quarantined t = true ∧
        OnlyFieldsIrq s u [(.GRN_STATUS_state, t), (.GRN_INT_quarantined, t)]) := by
  refine runs_of_eq (g := (·.evacuate t)) rfl (evacuate_empty h hc) ⟨fun hr => ?_, fun hr => ?_⟩
  · rw [if_pos hr]
    exact ⟨fld_setFld_self .., rfl, rfl, Within.setFld _ _ _ _ (by simp)⟩
  · rw [if_neg (by simp [hr])]
    refine ⟨?_, flag_raise _ _ _ (by simp [messages]), onlyFieldsIrq_raise (by simp) (Within.setFld _ _ _ _ (by simp))⟩
    exact (fld_raise_ne _ _ _ _ _ (by simp [messages]) (by decide)).trans (fld_setFld_self ..)

theorem runs_selftestDone_pass {t : TileId} (h : s.blk.fld .GRN_STATUS_state t = 3) (ho : s.blk.openElsewhere t = false) :
    Runs (.selftestDone t true) s fun u => u.blk.active t = true ∧ u.blk.fld .GRN_STATUS_subst t = 0 ∧
      (u.blk.engine t).subst = none := by
  refine runs_of_eq (g := (·.selfTestDone t true)) rfl (selfTestDone_pass h ho) ⟨decide_eq_true ?_, ?_, ?_⟩
  · rw [fld_updEngine_ne _ _ _ _ (by decide), fld_setFld_ne _ _ _ _ _ _ (by decide), fld_setFld_self]
    rfl
  · rw [fld_updEngine_ne _ _ _ _ (by decide), fld_setFld_self]
    rfl
  · rw [engine_updEngine_self]

theorem runs_selftestDone_fail {t : TileId} (h : s.blk.fld .GRN_STATUS_state t = 3) :
    Runs (.selftestDone t false) s fun u => u.blk.fld .GRN_STATUS_state t = 4 ∧
      u.blk.flag .GRN_INT_quarantined t = true ∧ u.blk.bit .GRN_IST_FAIL_fail 0 t = true := by
  refine runs_of_eq (g := (·.selfTestDone t false)) rfl (selfTestDone_fail h) ⟨?_, ?_, ?_⟩
  · rw [fld_reportError_garnet _ (by simp), fld_setBit_ne _ _ _ _ _ _ (by decide),
      fld_raise_ne _ _ _ _ _ (by simp [messages]) (by decide), fld_setFld_self]
    rfl
  · unfold flag
    rw [fld_reportError_garnet _ (by simp), fld_setBit_ne _ _ _ _ _ _ (by decide)]
    exact flag_raise _ _ _ (by simp [messages])
  · unfold bit
    rw [fld_reportError_garnet _ (by simp)]
    exact bit_setBit _ _ _ t.isLt

theorem runs_istTurnExpiry {e : Nat} (h : s.blk.flag .GRN_IST_CTL_en 0 = true) (he : e = s.blk.fld .GRN_IST_STATUS_engine 0) :
    Runs .istTurnExpiry s fun u => u.blk.fld .GRN_IST_STATUS_engine 0 = (e + 1) % 32 ∧
      u.blk.flag .GRN_IST_STATUS_busy 0 = s.blk.active ((e + 1) % 32) ∧ u.blk.istOver = false ∧
      (s.blk.istOver = false → s.blk.active e = true → e < 32 → u.blk.bit .GRN_IST_STARVED_starved 0 e = true) ∧
      OnlyFields { s with blk := { s.blk with istOver := false } } u
        [(.GRN_IST_STARVED_starved, 0), (.GRN_IST_STATUS_engine, 0), (.GRN_IST_STATUS_busy, 0)] := by
  exact runs_of_eq (g := (·.istTurn)) rfl (istTurn_enabled h he)
    ⟨engine_turned e, busy_turned e, rfl, starved_turned, rfl, rfl, (turned_within e).atIst false⟩

theorem runs_istPassDone_pass {e : Nat} (h : s.blk.flag .GRN_IST_CTL_en 0 = true) (he : e = s.blk.fld .GRN_IST_STATUS_engine 0)
    (ho : s.blk.istOver = false) (ha : s.blk.active e = true) :
    Runs (.istPassDone true) s fun u => u.blk.flag .GRN_IST_STATUS_busy 0 = false ∧
      u.blk.fld .GRN_IST_PASSES_count 0 = min (s.blk.fld .GRN_IST_PASSES_count 0 + 1) (2 ^ 64 - 1) ∧
      OnlyFieldsCnt { s with blk := { s.blk with istOver := true } } u
        [(.GRN_IST_STATUS_busy, 0), (.GRN_IST_PASSES_count, 0)] := by
  have hend := (istDone_ends h ho he ha true).trans (if_pos rfl)
  obtain ⟨hbusy, hcount, hwithin⟩ := passed_leaves (s := s.blk)
  exact runs_of_eq (g := (·.istDone true)) rfl hend ⟨hbusy, hcount, rfl, rfl, hwithin⟩

theorem runs_istPassDone_fail {e : Nat} (h : s.blk.flag .GRN_IST_CTL_en 0 = true) (he : e = s.blk.fld .GRN_IST_STATUS_engine 0)
    (ho : s.blk.istOver = false) (ha : s.blk.active e = true) (hlt : e < 32) :
    Runs (.istPassDone false) s fun u => u.blk.fld .GRN_STATUS_state e = 2 ∧ u.blk.bit .GRN_IST_FAIL_fail 0 e = true := by
  have hend := (istDone_ends h ho he ha false).trans (if_neg Bool.false_ne_true)
  refine runs_of_eq (g := (·.istDone false)) rfl hend ?_
  dsimp only
  refine ⟨state_leaveActive _ _, ?_⟩
  · unfold bit
    rw [(leaveActive_leaves _ _).1 _ _ (by simp [working, counts]), fld_setFld_ne _ _ _ _ _ _ (by decide),
      fld_reportError_garnet _ (by simp)]
    exact bit_setBit _ _ _ hlt

end Sys2Proof.Machine
end

section
/-!
PROOF. The replication logic (R28, R29): which input a clock takes, and the copies made of it where every die pair has a live link (R112,
R126 to R128). The rest of O18, and O18 itself.
-/

namespace Sys2Proof.Machine

namespace Blk

variable {s t u : Blk} {fid tile : Nat} {link : Option Nat} {target : Target} {f : Frame} {cls : Nat} {node : NodeSrc}

/-! ### The input that is taken (R29) -/

theorem takeSource_nil {r : ReplTile} {k : Nat} (hk : k < 3) (h : r.source k = []) : takeSource r k = none := by
  obtain ⟨garnet, restore, pieces, last⟩ := r
  have hcases : k = 0 ∨ k = 1 ∨ k = 2 := by omega
  rcases hcases with rfl | rfl | rfl
  all_goals
    obtain rfl := h
    rfl

theorem takeSource_cons {r : ReplTile} {k : Nat} {i : ReplItem} {rest : List ReplItem} (hk : k < 3) (h : r.source k = i :: rest) :
    ∃ r', takeSource r k = some (i, r') ∧ r'.last = k ∧ r'.source k = rest ∧ ∀ j < 3, j ≠ k → r'.source j = r.source j := by
  obtain ⟨garnet, restore, pieces, last⟩ := r
  have hcases : ∀ j < 3, j = 0 ∨ j = 1 ∨ j = 2 := fun j hj => by omega
  rcases hcases k hk with rfl | rfl | rfl
  all_goals
    obtain rfl := h
    refine ⟨_, rfl, rfl, rfl, fun j hj hne => ?_⟩
    rcases hcases j hj with rfl | rfl | rfl <;> simp [ReplTile.source] at hne ⊢

/-- A search finds the first number with an answer. -/
theorem findSome_range {α : Type} {n m : Nat} {g : Nat → Option α} {x : α} (hm : m < n) (hnone : ∀ k < m, g k = none)
    (hsome : g m = some x) : (List.range n).findSome? g = some x := by
  rw [List.findSome?_eq_some_iff]
  refine ⟨List.range m, m, (List.range (n - m - 1)).map (m + 1 + ·), ?_, hsome, fun k hk => hnone k (List.mem_range.mp hk)⟩
  rw [show n = m + (1 + (n - m - 1)) by omega, List.range_add, List.range_add]
  simp [Function.comp_def, Nat.add_assoc]

/-- The replication logic takes the input of the first source that has one, after the source served last (R29). -/
theorem replicationTake_first {n m : Nat} {i : ReplItem} {rest : List ReplItem} {r : ReplTile} (hr : r = s.repl.get .reset n)
    (hm : m < 3) (hi : r.source ((r.last + 1 + m) % 3) = i :: rest) (hnone : ∀ k < m, r.source ((r.last + 1 + k) % 3) = []) :
    ∃ r' : ReplTile, s.replicationTake n = ({ s with repl := s.repl.set .reset n r' }).replicate n i ∧
      r'.last = (r.last + 1 + m) % 3 ∧ r'.source ((r.last + 1 + m) % 3) = rest ∧
      ∀ j < 3, j ≠ (r.last + 1 + m) % 3 → r'.source j = r.source j := by
  have hlt : ∀ k, (r.last + 1 + k) % 3 < 3 := fun k => Nat.mod_lt _ (by decide)
  obtain ⟨r', htake, hkept⟩ := takeSource_cons (hlt m) hi
  refine ⟨r', ?_, hkept⟩
  unfold replicationTake
  dsimp only
  rw [← hr, findSome_range hm (fun k hk => takeSource_nil (hlt k) (hnone k hk)) htake]

/-! ### Copies are offered for admission (R126 to R128) -/

/-- What a copy sends, and where to. -/
def sends (x : CopyRec) : Frame × Nat × Target := (x.frame, x.cls, x.target)

/-- From `s` to `t` copies may have been offered for admission: there are the same ones, of the same frames. -/
structure Offered (s t : Blk) : Prop where
  copy : ∀ key, (t.copy? key).map sends = (s.copy? key).map sends
  repl : t.repl = s.repl
  nextFrame : t.nextFrame = s.nextFrame
  liveLinks : ∀ k, t.liveLinks k = s.liveLinks k

namespace Offered

theorem refl (s : Blk) : Offered s s := ⟨fun _ => rfl, rfl, rfl, fun _ => rfl⟩

theorem trans (h : Offered s t) (k : Offered t u) : Offered s u :=
  ⟨fun key => (k.copy key).trans (h.copy key), k.repl.trans h.repl, k.nextFrame.trans h.nextFrame,
    fun n => (k.liveLinks n).trans (h.liveLinks n)⟩

theorem live (h : Offered s t) (hs : ∀ k < 12, 0 < s.liveLinks k) : ∀ k < 12, 0 < t.liveLinks k := fun k hk => by
  rw [h.liveLinks]
  exact hs k hk

/-- Steps that offer copies while every pair is live do so together. -/
theorem foldl {β : Type} (g : Blk → β → Blk) (h : ∀ t b, (∀ k < 12, 0 < t.liveLinks k) → Offered t (g t b)) (l : List β)
    (t : Blk) (ht : ∀ k < 12, 0 < t.liveLinks k) : Offered t (l.foldl g t) := by
  induction l generalizing t with
  | nil => exact refl t
  | cons b l ih => exact (h t b ht).trans (ih _ ((h t b ht).live ht))

theorem putCopy {key : Nat} {x y : CopyRec} (h : s.copy? key = some x) (hy : sends y = sends x) : Offered s (s.putCopy key y) := by
  refine ⟨fun k => ?_, rfl, rfl, fun _ => rfl⟩
  rw [copy_putCopy]
  split
  next hk => rw [hk, h, Option.map_some, Option.map_some, hy]
  next => rfl

/-- Where every pair is live, a copy that asks is not discarded. -/
theorem ask (hs : ∀ k < 12, 0 < s.liveLinks k) (key : Nat) : Offered s (s.ask key) := by
  cases h : s.copy? key with
  | none =>
    rw [show s.ask key = s by unfold Blk.ask; rw [h]]
    exact refl s
  | some x =>
    by_cases hd : dieOfTile x.tile = key % 4
    · rw [ask_local h hd]
      have hput : Offered s (s.putCopy key (asking key x)) := putCopy h rfl
      exact hput.trans ⟨fun _ => rfl, rfl, rfl, fun _ => rfl⟩
    · rw [ask_across h hd (hs _ (dirOf_lt _ _)).ne']
      exact putCopy h rfl

theorem offerUpTo (n l c : Nat) (hs : ∀ k < 12, 0 < s.liveLinks k) : Offered s (s.offerUpTo n l c) := by
  induction n generalizing s with
  | zero => exact refl s
  | succ n ih =>
    unfold Blk.offerUpTo
    dsimp only
    split
    · exact refl s
    next fid r _ =>
      split
      · have hasked : Offered s ((s.copiesOf fid).foldl (fun s kc => if kc.2.phase = .held then s.ask kc.1 else s) s) := by
          refine foldl _ (fun t kc ht => ?_) _ _ hs
          split
          · exact ask ht _
          · exact refl t
        split
        · exact hasked
        · exact hasked.trans (ih (hasked.live hs))
      · exact refl s

theorem offerAfter (hs : ∀ k < 12, 0 < s.liveLinks k) (link : Option Nat) : Offered s (s.offerAfter link) := by
  cases link with
  | none => exact refl s
  | some l => exact foldl _ (fun _ _ ht => offerUpTo _ _ _ ht) _ _ hs

/-- Staging that is settled leaves the copies as they are. -/
theorem settle (fid : Nat) : Offered s (s.settle fid) := by
  have htidied : Tidied s (s.settle fid) := .settle fid
  have hlive : ∀ k, (s.settle fid).liveLinks k = s.liveLinks k := fun k => by
    unfold Blk.liveLinks
    rw [htidied.fld _ _ (by simp [tidying, landing, counts]), htidied.fld _ _ (by simp [tidying, landing, counts])]
  refine ⟨fun key => congrArg _ (htidied.copy? key), ?_, htidied.nextFrame, hlive⟩
  rw [(Handled.settle fid).1]

end Offered

/-! ### The copies made of a frame (R112) -/

/-- The dies for which a frame, of a link or the block's own, has a copy. -/
def targetDies (s : Blk) (link : Option Nat) (tile : Nat) (target : Target) : List Nat := (List.range 4).filter fun d =>
  (s.legsBy (dieOfTile tile) d target).any fun (x : Leg) => link ≠ some x.1 || s.mayReflect (dieOfTile tile) target

/-- A frame that may go back on its link has a copy for each die that its target names a link on. -/
theorem mem_targetDies (h : link = none ∨ s.mayReflect (dieOfTile tile) target = true) {d : Nat} (hd : d < 4) :
    d ∈ s.targetDies link tile target ↔ s.legsBy (dieOfTile tile) d target ≠ [] := by
  have hany : ∀ x : Leg, (link ≠ some x.1 || s.mayReflect (dieOfTile tile) target) = true := fun x => by
    rcases h with rfl | h
    · rfl
    · rw [h, Bool.or_true]
  unfold targetDies
  rw [List.mem_filter, List.mem_range, and_iff_right hd]
  simp only [hany]
  cases s.legsBy (dieOfTile tile) d target <;> simp

/-- The copy of a frame as it is made. -/
def madeCopy (link : Option Nat) (tile : Nat) (target : Target) (f : Frame) (cls : Nat) (node : NodeSrc) (chkFail : Bool)
    (tag : Option TraceTag) : CopyRec :=
  { newCopy 0 target f cls node tag with inLink := link, tile := tile, chkFail := chkFail }

/-- Every copy of a frame is made alike. -/
theorem madeCopies_eq (chkFail : Bool) (dies : List Nat) (b : Blk) (hb : b.frame? fid = s.frame? fid) :
    dies.foldl (fun w d => w.putCopy (4 * fid + d)
        (madeCopy link tile target f cls node chkFail ((w.frame? fid).bind FrameRec.tag))) b =
      b.copied fid dies (madeCopy link tile target f cls node chkFail ((s.frame? fid).bind FrameRec.tag)) := by
  induction dies generalizing b with
  | nil => rfl
  | cons d dies ih =>
    rw [List.foldl_cons, hb]
    exact ih _ hb

/-- The copies of a frame are listed and, where every pair is live, offered. -/
theorem makeCopies_offers (chkFail : Bool) (hs : ∀ k < 12, 0 < s.liveLinks k) : ∃ x, sends x = (f, cls, target) ∧
    Offered (s.copied fid (s.targetDies link tile target) x) (s.makeCopies fid target f cls node link tile chkFail) := by
  refine ⟨madeCopy link tile target f cls node chkFail ((s.frame? fid).bind FrameRec.tag), rfl, ?_⟩
  have hmade := madeCopies_eq (s := s) (fid := fid) (link := link) (tile := tile) (target := target) (f := f) (cls := cls)
    (node := node) chkFail (s.targetDies link tile target) s rfl
  have hlive : ∀ k < 12, 0 < (s.copied fid (s.targetDies link tile target)
      (madeCopy link tile target f cls node chkFail ((s.frame? fid).bind FrameRec.tag))).liveLinks k := by
    rw [copied_eq]
    exact hs
  rw [← hmade] at hlive ⊢
  cases link with
  | none => exact Offered.foldl _ (fun _ _ ht => .ask ht _) _ _ hlive
  | some l =>
    unfold makeCopies
    dsimp only
    split
    · exact Offered.settle fid
    · exact Offered.offerAfter hlive (some l)

/-- Each die on which the target names a link has its copy, and no other (R112). -/
theorem makeCopies_copies (chkFail : Bool) (hs : ∀ k < 12, 0 < s.liveLinks k)
    (hback : link = none ∨ s.mayReflect (dieOfTile tile) target = true) (hnone : ∀ d < 4, s.copy? (4 * fid + d) = none) :
    (s.makeCopies fid target f cls node link tile chkFail).repl = s.repl ∧
      (s.makeCopies fid target f cls node link tile chkFail).nextFrame = s.nextFrame ∧
      ∀ d < 4, ((s.makeCopies fid target f cls node link tile chkFail).copy? (4 * fid + d)).map sends =
        if s.legsBy (dieOfTile tile) d target ≠ [] then some (f, cls, target) else none := by
  obtain ⟨x, hx, ho⟩ := makeCopies_offers (fid := fid) (link := link) (tile := tile) (target := target) (f := f) (cls := cls)
    (node := node) chkFail hs
  have hcopied := copied_eq s fid (s.targetDies link tile target) x
  refine ⟨ho.repl.trans (by rw [hcopied]), ho.nextFrame.trans (by rw [hcopied]), fun d hd => ?_⟩
  rw [ho.copy, copy_copied, ← hx]
  by_cases h : s.legsBy (dieOfTile tile) d target ≠ []
  · rw [if_pos ((mem_targetDies hback hd).mpr h), if_pos h, Option.map_some]
  · rw [if_neg (mt (mem_targetDies hback hd).mp h), if_neg h, hnone d hd, Option.map_none]

/-- A frame that the tile makes itself is the next of the block's, and is copied to every die of its target (R28). -/
theorem replicate_own {i : ReplItem} (hi : i.piece = none) (hs : ∀ k < 12, 0 < s.liveLinks k)
    (hnone : ∀ d < 4, s.copy? (4 * s.nextFrame + d) = none) :
    (s.replicate tile i).repl = s.repl ∧ (s.replicate tile i).nextFrame = s.nextFrame + 1 ∧
      ∀ d < 4, ((s.replicate tile i).copy? (4 * s.nextFrame + d)).map sends =
        if s.legsBy (dieOfTile tile) d i.target ≠ [] then some (i.frame, i.cls, i.target) else none := by
  unfold replicate
  rw [hi]
  dsimp only
  unfold emitFrame
  extract_lets fid s₁ s₂
  obtain ⟨hrepl, hnext, hcopy⟩ := makeCopies_copies (s := s₂) (fid := fid) (link := none) (tile := tile) (f := i.frame) (cls := i.cls)
    (node := i.node) false hs (.inl rfl) hnone
  have hsettle := Offered.settle (s := s₂.makeCopies fid i.target i.frame i.cls i.node none tile false) fid
  exact ⟨hsettle.repl.trans hrepl, hsettle.nextFrame.trans hnext, fun d hd => (hsettle.copy _).trans (hcopy d hd)⟩

/-- A piece keeps the place of its frame in staging (R29). -/
theorem replicate_piece {i : ReplItem} {r : FrameRec} {n : Nat} (hi : i.piece = some fid) (hr : s.frame? fid = some r)
    (hback : s.mayReflect (dieOfTile r.tile) i.target = true) (hs : ∀ k < 12, 0 < s.liveLinks k)
    (hnone : ∀ d < 4, s.copy? (4 * fid + d) = none) :
    (s.replicate n i).repl = s.repl ∧ (s.replicate n i).nextFrame = s.nextFrame ∧
      ∀ d < 4, ((s.replicate n i).copy? (4 * fid + d)).map sends =
        if s.legsBy (dieOfTile r.tile) d i.target ≠ [] then some (i.frame, i.cls, i.target) else none := by
  unfold replicate
  rw [hi]
  dsimp only
  rw [hr]
  exact makeCopies_copies (s := s.putFrame fid { r with dest := .copies }) false hs (.inr hback) hnone

end Blk

open Blk

/-! ### The command -/

variable {s : State} {t : TileId} {r : ReplTile} {i : ReplItem} {rest : List ReplItem} {m : Nat}

/-- A clock of the replication logic: its input leaves its source, and what becomes of it leaves the sources as they are. -/
theorem runs_replicationTake {n : Nat} {Q : Blk → Prop} (hr : r = s.blk.repl.get .reset t) (hm : m < 3)
    (hi : r.source ((r.last + 1 + m) % 3) = i :: rest) (hnone : ∀ k < m, r.source ((r.last + 1 + k) % 3) = [])
    (hdone : ∀ x, (({ s.blk with repl := x } : Blk).replicate t i).repl = x ∧
      (({ s.blk with repl := x } : Blk).replicate t i).nextFrame = n ∧
      Q (({ s.blk with repl := x } : Blk).replicate t i)) :
    Runs (.replicationTake t) s fun u => (u.blk.repl.get .reset t).last = (r.last + 1 + m) % 3 ∧
      (u.blk.repl.get .reset t).source ((r.last + 1 + m) % 3) = rest ∧
      (∀ j < 3, j ≠ (r.last + 1 + m) % 3 → (u.blk.repl.get .reset t).source j = r.source j) ∧ u.blk.nextFrame = n ∧ Q u.blk := by
  obtain ⟨r', htake, hlast, hsource, hothers⟩ := replicationTake_first hr hm hi hnone
  obtain ⟨hrepl, hnext, hQ⟩ := hdone (s.blk.repl.set .reset t r')
  have hget : ((({ s.blk with repl := s.blk.repl.set .reset t r' } : Blk).replicate t i).repl.get .reset t) = r' := by
    rw [hrepl, Tab.get_set _ _ _ _ _ _ fun _ => rfl, if_pos rfl]
  refine runs_of_eq (g := (·.replicationTake t)) rfl htake ⟨?_, ?_, ?_, hnext, hQ⟩
  · exact (congrArg ReplTile.last hget).trans hlast
  · exact (congrArg (ReplTile.source · _) hget).trans hsource
  · exact fun j hj hne => (congrArg (ReplTile.source · j) hget).trans (hothers j hj hne)

/-- Settles O18: each state of an engine by its command, and a clock of the replication logic by the input that it takes. -/
theorem enginesAndReplication : Obligations.EnginesAndReplication := by
  unfold Obligations.EnginesAndReplication
  refine ⟨⟨fun s t => runs_quarantine, fun s t => runs_quarantine_inactive, fun s t => runs_garnetRelease,
    fun s t => runs_evacuationDone, fun s t h => ⟨runs_selftestDone_pass h, runs_selftestDone_fail h⟩, fun s e h he =>
      ⟨runs_istTurnExpiry h he, fun ho ha => ⟨runs_istPassDone_pass h he ho ha, runs_istPassDone_fail h he ho ha⟩⟩⟩, ?_⟩
  intro s t r i rest m j hr hm hj hi hnone hlive
  subst hj
  refine ⟨fun hp hfree => ?_, fun fid fr hp hfr hback hfree => ?_⟩
  · exact runs_replicationTake
      (Q := fun b => CopiedTo s { s with blk := b } s.blk.nextFrame (dieOfTile t) i.target i.frame i.cls)
      hr hm hi hnone fun x => replicate_own (s := { s.blk with repl := x }) hp hlive hfree
  · exact runs_replicationTake (Q := fun b => CopiedTo s { s with blk := b } fid (dieOfTile fr.tile) i.target i.frame i.cls)
      hr hm hi hnone fun x => replicate_piece (s := { s.blk with repl := x }) hp hfr hback hlive hfree

end Sys2Proof.Machine
end

section
/-!
PROOF. Descriptors of the collective command queues (R229 to R232, R252, R253, R477): when one starts, what its start leaves as it was, and
how one that opens no context ends. Those of kinds 0x01 to 0x05 open contexts (R240, R243). They settle O19.
-/

namespace Sys2Proof.Machine

namespace Blk

variable {s t : Blk} {q kind status g i n : Nat} {d : ColDesc} {w : Bytes64}

/-! ### A queue's head passes its descriptor (R231) -/

theorem fld_cqAdvance_ne {f : Fld} (hf : f ≠ .DMA_CQ_HEAD_head) (i : Nat) : (s.cqAdvance q).fld f i = s.fld f i :=
  fld_setFld_ne _ _ _ _ _ _ hf

theorem fld_cqAdvance_head : (s.cqAdvance q).fld .DMA_CQ_HEAD_head q = (s.fld .DMA_CQ_HEAD_head q + 1) % 2 ^ 32 :=
  fld_setFld_self ..

@[simp] theorem ctx_cqAdvance (k : Nat) : (s.cqAdvance q).ctx? k = s.ctx? k := rfl
@[simp] theorem groupState_cqAdvance : (s.cqAdvance q).groupState g = s.groupState g := rfl
@[simp] theorem groupBusy_cqAdvance : (s.cqAdvance q).groupBusy g = s.groupBusy g := rfl
@[simp] theorem groupEntry_cqAdvance (m : Nat) : (s.cqAdvance q).groupEntry m g = s.groupEntry m g := rfl
@[simp] theorem memberEntry_cqAdvance (m : Nat) : (s.cqAdvance q).memberEntry m i = s.memberEntry m i := rfl

@[simp] theorem liveDie_cqAdvance : (s.cqAdvance q).liveDie = s.liveDie := by
  simp only [liveDie, domOn, fld_cqAdvance_ne (f := .PWR_DOM_STATUS_state) (by decide)]

@[simp] theorem group_cqAdvance : (s.cqAdvance q).group g = s.group g := by simp only [group, liveDie_cqAdvance, groupEntry_cqAdvance]

@[simp] theorem groupValid_cqAdvance : (s.cqAdvance q).groupValid g = s.groupValid g := by simp only [groupValid, group_cqAdvance]

@[simp] theorem inRun_cqAdvance : (s.cqAdvance q).inRun i n = s.inRun i n := by
  simp only [inRun, liveDie_cqAdvance]
  rfl

@[simp] theorem fieldsOk_cqAdvance : (s.cqAdvance q).fieldsOk kind d = s.fieldsOk kind d := by
  simp only [fieldsOk, groupValid_cqAdvance, group_cqAdvance]

@[simp] theorem newCtx_cqAdvance : (s.cqAdvance q).newCtx kind d = s.newCtx kind d := by
  simp only [newCtx, flag, group_cqAdvance, groupState_cqAdvance, memberEntry_cqAdvance, liveDie_cqAdvance,
    fld_cqAdvance_ne (f := .SHL_GRP_MAP_valid) (by decide), fld_cqAdvance_ne (f := .SHL_GRP_MAP_stream) (by decide)]
  rfl

@[simp] theorem liveLinks_cqAdvance (k : Nat) : (s.cqAdvance q).liveLinks k = s.liveLinks k := by
  unfold liveLinks
  rw [fld_cqAdvance_ne (by decide), fld_cqAdvance_ne (by decide)]

@[simp] theorem pathDown_cqAdvance (c : CtxRec) : (s.cqAdvance q).pathDown c = s.pathDown c := by
  simp only [pathDown, liveLinks_cqAdvance]

/-- A descriptor that may start does so, and the queue's head passes it. -/
theorem start_of_mayStart (h : s.mayStart q d = true) {cond : Bool} (hc : cond = true) (f : Blk → Blk) :
    s.start q d cond f = f (s.cqAdvance q) := if_pos (by rw [h, hc]; rfl)

/-- One that may not waits, and nothing changes. -/
theorem start_of_waits (h : s.mayStart q d = false) (cond : Bool) (f : Blk → Blk) : s.start q d cond f = s := if_neg (by simp [h])

/-! ### A descriptor ends (R252, R253) -/

theorem Within.ite {p : Fld → Nat → Prop} (c : Prop) [Decidable c] (h : Within s t p) : Within s (if c then t else s) p := by
  split
  exacts [h, .refl s p]

/-- What the end of a descriptor of a failing status may change beside the count and the event of every failure. -/
def failureFields : List Fld := [.COL_INT_fence_timeout, .COL_INT_desc_err, .COL_TOKEN_value]

theorem within_signal (ok : Bool) : Within s (s.signal d ok) fun f _ => f = .COL_TOKEN_value := by
  unfold signal
  split
  exacts [.refl s _, .setFld s _ _ _ rfl]

/-- A descriptor that fails is counted and reported, before its token (R252). -/
theorem within_descEnds_failed (h : status ≠ 0) :
    Within ((s.count .COL_FAILED_count 0 1).raise .COL_INT_ctx_fail 0) (s.descEnds d status)
      fun f _ => messages f ∨ f ∈ failureFields := by
  have hraise : ∀ (u : Blk) f, f ∈ failureFields → Within u (u.raise f 0) fun f _ => messages f ∨ f ∈ failureFields :=
    fun u f hf => .raise u f 0 (fun _ => .inl) (.inr hf)
  unfold descEnds
  rw [if_neg h]
  refine (Within.ite _ (hraise _ .COL_INT_fence_timeout (by decide))).trans
    ((Within.ite _ (hraise _ .COL_INT_desc_err (by decide))).trans ((within_signal _).mono fun f _ hf => .inr ?_))
  rw [hf]
  decide

theorem fld_descEnds_head : (s.descEnds d status).fld .DMA_CQ_HEAD_head q = s.fld .DMA_CQ_HEAD_head q := by
  by_cases h : status = 0
  · rw [h, descEnds_zero, fld_signal (by decide), fld_count_ne _ _ _ _ _ _ (by simp [counts]) (by decide)]
  · rw [(within_descEnds_failed h).2 _ _ (by simp [messages, failureFields]), fld_raise_ne _ _ _ _ _ (by simp [messages]) (by decide),
      fld_count_ne _ _ _ _ _ _ (by simp [counts]) (by decide)]

theorem fld_descEnds_completed : (s.descEnds d 0).fld .COL_COMPLETED_count 0 = min (s.fld .COL_COMPLETED_count 0 + 1) (2 ^ 64 - 1) := by
  rw [descEnds_zero, fld_signal (by decide), fld_count_self _ _ _ _ (by simp [counts]) rfl]

theorem descEnds_failed (h : status ≠ 0) :
    (s.descEnds d status).fld .COL_FAILED_count 0 = min (s.fld .COL_FAILED_count 0 + 1) (2 ^ 64 - 1) ∧
      (s.descEnds d status).flag .COL_INT_ctx_fail 0 = true := by
  have hw := (within_descEnds_failed (s := s) (d := d) h).2
  constructor
  · rw [hw _ _ (by simp [messages, failureFields]), fld_raise_ne _ _ _ _ _ (by simp [messages]) (by decide),
      fld_count_self _ _ _ _ (by simp [counts]) rfl]
  · rw [flag, hw _ _ (by simp [messages, failureFields])]
    exact flag_raise _ _ _ (by simp [messages])

/-- A descriptor's record, 32 bytes (R252). -/
def descRecord (kind : Nat) (d : ColDesc) (status : Nat) : List Byte :=
  beBytes 1 status ++ beBytes 1 kind ++ beBytes 2 d.group.toNat ++ beBytes 2 d.seq.toNat ++ beBytes 2 0 ++
    beBytes 4 d.tag.toNat ++ List.replicate 20 0

theorem endDesc_of_room (h : s.cplFull = false) :
    s.endDesc kind d status = (s.placeRecord d.cring.toNat ⟨1, descRecord kind d status⟩).descEnds d status := postWork_of_room h

theorem endDesc_of_full (h : s.cplFull = true) : s.endDesc kind d status =
    ({ s with cplHeld := s.cplHeld ++ [⟨d.cring.toNat, ⟨1, descRecord kind d status⟩, .desc d status⟩] } : Blk).raise
      .DMA_INT_cpl_full 0 := postWork_of_full (by decide) h

theorem fld_placeRecord (ring : Nat) (x : CplRec) (f : Fld) (i : Nat) : (s.placeRecord ring x).fld f i = s.fld f i := rfl

/-- The end of a descriptor changes the records that wait, register fields and what has been sent, and nothing else. -/
theorem endDesc_eq (s : Blk) (kind : Nat) (d : ColDesc) (status : Nat) : ∃ wait held fields out,
    s.endDesc kind d status = { s with cplWait := wait, cplHeld := held, fields := fields, out := out } := by
  cases h : s.cplFull with
  | false => exact ⟨_, _, _, _, (endDesc_of_room h).trans (fldsOut_descEnds d status)⟩
  | true => exact ⟨_, _, _, _, (endDesc_of_full h).trans (FldsOut.raise _ .DMA_INT_cpl_full 0)⟩

@[simp] theorem contexts_endDesc : (s.endDesc kind d status).contexts = s.contexts := by
  obtain ⟨wait, held, fields, out, h⟩ := endDesc_eq s kind d status
  rw [h]

@[simp] theorem groups_endDesc : (s.endDesc kind d status).groups = s.groups := by
  obtain ⟨wait, held, fields, out, h⟩ := endDesc_eq s kind d status
  rw [h]

@[simp] theorem members_endDesc : (s.endDesc kind d status).members = s.members := by
  obtain ⟨wait, held, fields, out, h⟩ := endDesc_eq s kind d status
  rw [h]

@[simp] theorem groupHw_endDesc : (s.endDesc kind d status).groupHw = s.groupHw := by
  obtain ⟨wait, held, fields, out, h⟩ := endDesc_eq s kind d status
  rw [h]

@[simp] theorem fences_endDesc : (s.endDesc kind d status).fences = s.fences := by
  obtain ⟨wait, held, fields, out, h⟩ := endDesc_eq s kind d status
  rw [h]

/-- A descriptor has ended once the block that its head has passed it in, changed in other parts or not, places its record. -/
theorem descEnded_endDesc {s : State} {q : QueueId} (hfull : s.blk.cplFull = false)
    (hfields : t.fields = (s.blk.cqAdvance q).fields) (hheld : t.cplHeld = s.blk.cplHeld) (hwait : t.cplWait = s.blk.cplWait) :
    DescEnded s { s with blk := t.endDesc kind d status } q kind d status := by
  have hfld : ∀ ring x f i, f ≠ .DMA_CQ_HEAD_head → (t.placeRecord ring x).fld f i = s.blk.fld f i := fun ring x f i hf => by
    rw [fld_placeRecord, fld_congr hfields, fld_cqAdvance_ne hf]
  unfold DescEnded
  dsimp only
  rw [endDesc_of_room ((cplFull_congr hheld hwait).trans hfull)]
  refine ⟨?_, ?_, ?_, fun h => ?_⟩
  · rw [(fldsOut_descEnds d status).cplWait, ← hwait]
    exact (Tab.get_set _ _ _ _ _ _ fun _ => rfl).trans (if_pos rfl)
  · rw [fld_descEnds_head, fld_placeRecord, fld_congr hfields, fld_cqAdvance_head]
  · rintro rfl
    rw [fld_descEnds_completed, hfld _ _ _ _ (by decide)]
  · rw [← hfld d.cring.toNat ⟨1, descRecord kind d status⟩ .COL_FAILED_count 0 (by decide)]
    exact descEnds_failed h

/-! ### A descriptor runs by its kind (R230) -/

theorem runDesc_opening (hk : kind ∈ [1, 2, 3, 4, 5]) (h : descKind w = kind) (data : Option (List Byte)) :
    s.runDesc q w data = s.openCtx q kind (colDesc w) := by
  unfold runDesc
  rw [h]
  simp only [List.mem_cons, List.not_mem_nil, or_false] at hk
  rcases hk with rfl | rfl | rfl | rfl | rfl <;> rfl

/-! ### A context opens, or its descriptor ends with the check that it fails (R231, R243) -/

/-- The block with the context of descriptor `d` open. -/
def opened (s : Blk) (q kind : Nat) (d : ColDesc) : Blk :=
  (({ s.cqAdvance q with nextWork := s.nextWork + 1 }.putCtx (ctxNum d.group.toNat d.seq.toNat) (s.newCtx kind d)).updGroup
    d.group.toNat fun h => { h with open_ := h.open_ + 1 }).setFld .COL_STATUS_open 0 (s.fld .COL_STATUS_open 0 + 1)

theorem openCtx_of_waits (h : s.mayStart q d = false) : s.openCtx q kind d = s := by
  unfold openCtx
  exact start_of_waits h _ _

theorem openCtx_of_start (h : s.mayStart q d = true) (hroom : s.roomFor d.group.toNat = true) : s.openCtx q kind d =
    if s.fieldsOk kind d = false then (s.cqAdvance q).endDesc kind d 0x10
    else if s.groupValid d.group.toNat = false then (s.cqAdvance q).endDesc kind d 0x11
    else if (s.ctx? (ctxNum d.group.toNat d.seq.toNat)).isSome then (s.cqAdvance q).endDesc kind d 0x12
    else if s.pathDown (s.newCtx kind d) then (s.cqAdvance q).endDesc kind d 5
    else s.opened q kind d := by
  have hopen : (s.cqAdvance q).fld .COL_STATUS_open 0 = s.fld .COL_STATUS_open 0 := fld_cqAdvance_ne (by decide) 0
  unfold openCtx
  dsimp only
  rw [start_of_mayStart h hroom]
  simp only [fieldsOk_cqAdvance, groupValid_cqAdvance, ctx_cqAdvance, newCtx_cqAdvance, pathDown_cqAdvance, hopen,
    Bool.not_eq_true']
  rfl

theorem groupState_updGroup (f : GroupHw → GroupHw) (j : Nat) :
    (s.updGroup g f).groupState j = if j = g then f (s.groupState g) else s.groupState j := Tab.get_set _ _ _ _ _ _ fun _ => rfl

@[simp] theorem groupState_updGroup_self (f : GroupHw → GroupHw) : (s.updGroup g f).groupState g = f (s.groupState g) :=
  (groupState_updGroup f g).trans (if_pos rfl)

theorem ctx_opened : (s.opened q kind d).ctx? (ctxNum d.group.toNat d.seq.toNat) = some (s.newCtx kind d) := Tab.find_put_self _ _ _

theorem groupState_opened : ((s.opened q kind d).groupState d.group.toNat).open_ = (s.groupState d.group.toNat).open_ + 1 :=
  congrArg GroupHw.open_ (groupState_updGroup_self (s := s) fun h => { h with open_ := h.open_ + 1 })

theorem fld_open_opened (h : s.roomFor d.group.toNat = true) :
    (s.opened q kind d).fld .COL_STATUS_open 0 = s.fld .COL_STATUS_open 0 + 1 := by
  have hroom : s.fld .COL_STATUS_open 0 < 16384 := by
    unfold roomFor at h
    simp only [Bool.and_eq_true, decide_eq_true_eq] at h
    exact h.2
  unfold opened
  rw [fld_setFld_self]
  exact Nat.mod_eq_of_lt (lt_trans (Nat.add_lt_add_right hroom 1) (by decide))

/-- Beside the tables of the contexts and of their groups, the opening changes two register fields alone. -/
theorem within_opened (ht : t = s.opened q kind d) :
    Within { s with contexts := t.contexts, groupHw := t.groupHw, nextWork := t.nextWork } t
      fun f i => (f, i) ∈ [(Fld.COL_STATUS_open, 0), (.DMA_CQ_HEAD_head, q)] := by
  subst ht
  refine ⟨rfl, fun f i hf => ?_⟩
  simp only [List.mem_cons, List.not_mem_nil, or_false, Prod.mk.injEq, not_or] at hf
  unfold opened
  rw [fld_setFld, if_neg hf.1]
  exact (fld_setFld ..).trans (if_neg hf.2)

end Blk

open Blk

/-! ### The commands -/

variable {s : State} {q : QueueId} {w : Bytes64} {kind : Nat} {i : Instr}

/-- The commands that open contexts differ in the kind of their descriptor alone. -/
theorem runs_opening (h : (kind, i) ∈ [(1, Instr.allReduce q w), (2, Instr.reduceScatter q w), (3, Instr.allGather q w),
    (4, Instr.broadcast q w), (5, Instr.barrier q w)]) (hk : descKind w = kind) {b : Blk} {P : State → Prop}
    (hb : s.blk.openCtx q kind (colDesc w) = b) (hp : P { s with blk := b }) : Runs i s P := by
  have hrun : kind ∈ [1, 2, 3, 4, 5] ∧ exec i s = run (·.runDesc q w none) s := by
    simp only [List.mem_cons, List.not_mem_nil, or_false, Prod.mk.injEq] at h
    rcases h with ⟨rfl, rfl⟩ | ⟨rfl, rfl⟩ | ⟨rfl, rfl⟩ | ⟨rfl, rfl⟩ | ⟨rfl, rfl⟩
    all_goals exact ⟨by decide, rfl⟩
  exact runs_of_eq hrun.2 ((runDesc_opening hrun.1 hk none).trans hb) hp

/-- Settles O19: a descriptor waits (`openCtx_of_waits`), ends with the first check that it fails (`descEnded_endDesc`), or opens its
context (`opened`). -/
theorem contextsStart : Obligations.ContextsStart := by
  unfold Obligations.ContextsStart
  refine ⟨?_, ?_⟩
  · intro s q w d kind i hi hd hk hstart hroom hfields hvalid hctx hpath
    subst hd
    have hopens : s.blk.openCtx q kind (colDesc w) = s.blk.opened q kind (colDesc w) := by
      simp [openCtx_of_start hstart hroom, hfields, hvalid, hctx, hpath]
    exact runs_opening hi hk hopens
      ⟨ctx_opened, groupState_opened, fld_open_opened hroom, rfl, rfl, within_opened rfl⟩
  · intro s q w d kind i hi hd hk
    subst hd
    refine ⟨fun hwait => runs_opening hi hk (openCtx_of_waits hwait) rfl, fun hstart hroom hfull => ?_⟩
    have hends : ∀ status, s.blk.openCtx q kind (colDesc w) = (s.blk.cqAdvance q).endDesc kind (colDesc w) status →
        Runs i s fun t => DescEnded s t q kind (colDesc w) status := fun status h =>
      runs_opening hi hk h (descEnded_endDesc hfull rfl rfl rfl)
    refine ⟨fun hfields => hends _ ?_, fun hfields hvalid => hends _ ?_, fun hfields hvalid hctx => hends _ ?_,
      fun hfields hvalid hctx hpath => hends _ ?_⟩
    · simp [openCtx_of_start hstart hroom, hfields]
    · simp [openCtx_of_start hstart hroom, hfields, hvalid]
    · simp [openCtx_of_start hstart hroom, hfields, hvalid, hctx]
    · simp [openCtx_of_start hstart hroom, hfields, hvalid, hctx, hpath]

end Sys2Proof.Machine
end

section
/-!
PROOF. The descriptors that end at once (R230, R248, R253, R413, R477): ABORT, NOP and those of a reserved kind; and a token written
(R232). They settle O20.
-/

namespace Sys2Proof.Machine

namespace Blk

variable {s : Blk} {q kind status : Nat} {d : ColDesc} {w : Bytes64} {data : Option (List Byte)} {c : CtxRec}

/-! ### Tokens (R232) -/

theorem fld_signal_token (h : d.sigTok ≠ 0xFFFF) : (s.signal d true).fld .COL_TOKEN_value (d.sigTok.toNat % 4096) =
    (s.fld .COL_TOKEN_value (d.sigTok.toNat % 4096) + 1) % 2 ^ 32 := by
  unfold signal
  rw [if_neg (by simpa using h)]
  exact fld_setFld_self ..

/-- A descriptor that ends well raises its token (R253). -/
theorem fld_endDesc_token (hfull : s.cplFull = false) (h : d.sigTok ≠ 0xFFFF) :
    (s.endDesc kind d 0).fld .COL_TOKEN_value (d.sigTok.toNat % 4096) =
      (s.fld .COL_TOKEN_value (d.sigTok.toNat % 4096) + 1) % 2 ^ 32 := by
  rw [endDesc_of_room hfull, descEnds_zero, fld_signal_token h, fld_count_ne _ _ _ _ _ _ (by simp [counts]) (by decide),
    fld_placeRecord]

/-- With the pending buffer full, the record of a descriptor is held, its end waits, and the host is told (R477). -/
theorem endDesc_held (hfull : s.cplFull = true) :
    (((s.cqAdvance q).endDesc kind d status).cplHeld.map fun x => (x.ring, x.work)) =
        (s.cplHeld.map fun x => (x.ring, x.work)) ++ [(d.cring.toNat, .desc d status)] ∧
      ((s.cqAdvance q).endDesc kind d status).contexts = s.contexts ∧
      ((s.cqAdvance q).endDesc kind d status).cplWait = s.cplWait ∧
      ((s.cqAdvance q).endDesc kind d status).fld .COL_COMPLETED_count 0 = s.fld .COL_COMPLETED_count 0 ∧
      ((s.cqAdvance q).endDesc kind d status).fld .DMA_CQ_HEAD_head q = (s.fld .DMA_CQ_HEAD_head q + 1) % 2 ^ 32 ∧
      ((s.cqAdvance q).endDesc kind d status).flag .DMA_INT_cpl_full 0 = true := by
  have hheld : (s.cqAdvance q).cplFull = true := hfull
  rw [endDesc_of_full hheld]
  refine ⟨?_, ?_, ?_, ?_, ?_, flag_raise _ _ _ (by simp [messages])⟩
  · rw [raise_cplHeld, List.map_append]
    rfl
  · rw [raise_contexts]
    rfl
  · rw [raise_cplWait]
    rfl
  · rw [fld_raise_ne _ _ _ _ _ (by simp [messages]) (by decide)]
    exact fld_cqAdvance_ne (by decide) 0
  · rw [fld_raise_ne _ _ _ _ _ (by simp [messages]) (by decide)]
    exact fld_cqAdvance_head

/-! ### NOP and the reserved kinds (R230) -/

theorem runDesc_nop (h : descKind w = 0xF) (hs : s.mayStart q (colDesc w) = true) :
    s.runDesc q w data = (s.cqAdvance q).endDesc 0xF (colDesc w) 0 := by
  unfold runDesc
  rw [h]
  exact start_of_mayStart hs rfl _

theorem runDesc_reserved (h : descKind w ∉ [1, 2, 3, 4, 5, 8, 9, 0xA, 0xB, 0xC, 0xF]) (hs : s.mayStart q (colDesc w) = true) :
    s.runDesc q w data = (s.cqAdvance q).endDesc (descKind w) (colDesc w) 0x10 := by
  unfold runDesc
  generalize descKind w = k at h ⊢
  simp only [List.mem_cons, List.not_mem_nil, or_false, not_or] at h
  dsimp only
  split
  case h_12 => exact start_of_mayStart hs rfl _
  all_goals omega

/-! ### ABORT (R248) -/

theorem runDesc_abort (h : descKind w = 8) : s.runDesc q w data = s.abortCtx q (colDesc w) := by
  simp only [runDesc, h]

theorem fail_of_running (hs : c.state ≠ .failing) (hr : c.recorded = false) (n : Nat) :
    c.fail n = { c with state := .failing, status := if c.marked then 6 else n } := if_neg (by simp [hs, hr])

theorem abortCtx_of_running (h : s.mayStart q d = true) (hc : s.ctx? (ctxNum d.group.toNat d.seq.toNat) = some c)
    (hs : c.state ≠ .failing) (hr : c.recorded = false) :
    s.abortCtx q d = ((s.cqAdvance q).putCtx (ctxNum d.group.toNat d.seq.toNat) (c.fail 4)).endDesc 8 d 0 := by
  unfold abortCtx
  dsimp only
  rw [start_of_mayStart h rfl, ctx_cqAdvance, hc]
  exact if_neg (by simp [hs, hr])

theorem abortCtx_of_ended (h : s.mayStart q d = true) (hc : s.ctx? (ctxNum d.group.toNat d.seq.toNat) = none ∨
    s.ctx? (ctxNum d.group.toNat d.seq.toNat) = some c ∧ (c.state = .failing ∨ c.recorded = true)) :
    s.abortCtx q d = (s.cqAdvance q).endDesc 8 d 0x14 := by
  unfold abortCtx
  dsimp only
  rw [start_of_mayStart h rfl, ctx_cqAdvance]
  rcases hc with hc | ⟨hc, hend⟩
  · rw [hc]
  · rw [hc]
    exact if_pos (by simpa using hend)

end Blk

open Blk

/-- Settles O20: an ABORT by the context that it finds, NOP and the reserved kinds by the room for their record, and a token written. -/
theorem abortsAndTokens : Obligations.AbortsAndTokens := by
  unfold Obligations.AbortsAndTokens
  refine ⟨?_, ?_, ?_⟩
  · intro s q w d c hd hk hstart hfull
    subst hd
    refine ⟨fun hc hs hr => ?_, fun hc => ?_⟩
    · refine runs_of_eq (g := (·.runDesc q w none)) rfl ((runDesc_abort hk).trans (abortCtx_of_running hstart hc hs hr))
        ⟨descEnded_endDesc hfull rfl rfl rfl, ?_⟩
      rw [← fail_of_running hs hr]
      exact (congrArg (Tab.find · _) contexts_endDesc).trans ctx_putCtx_self
    · exact runs_of_eq (g := (·.runDesc q w none)) rfl ((runDesc_abort hk).trans (abortCtx_of_ended hstart hc))
        ⟨descEnded_endDesc hfull rfl rfl rfl, contexts_endDesc⟩
  · intro s q w d hd hstart
    subst hd
    refine ⟨fun hk hfull => ?_, fun hk hfull => ?_, fun hk hfull => ?_⟩
    · exact runs_of_eq (g := (·.runDesc q w none)) rfl (runDesc_nop hk hstart) (endDesc_held hfull)
    · refine runs_of_eq (g := (·.runDesc q w none)) rfl (runDesc_nop hk hstart)
        ⟨descEnded_endDesc hfull rfl rfl rfl, contexts_endDesc, fun hsig => ?_⟩
      exact (fld_endDesc_token (s := s.blk.cqAdvance q) hfull hsig).trans (by rw [fld_cqAdvance_ne (by decide)])
    · exact runs_of_eq (g := (·.runDesc q w none)) rfl (runDesc_reserved hk hstart)
        ⟨descEnded_endDesc hfull rfl rfl rfl, contexts_endDesc⟩
  · intro s k v
    exact runs_of_eq (g := (·.setFld .COL_TOKEN_value k v.toNat)) rfl rfl
      ⟨(fld_setFld_self ..).trans (Nat.mod_eq_of_lt v.isLt), rfl, rfl, .setFld _ _ _ _ (List.mem_singleton.mpr rfl)⟩

end Sys2Proof.Machine
end

section
/-!
PROOF. Groups and members (R223 to R225, R240 to R242): an entry is written into every die's copy, GROUP_SET and GROUP_CLEAR advance the
group's epoch, and REBIND fences its group until the member is replaced or the time is up. They settle O21.
-/

namespace Sys2Proof.Machine

/-! ### Bits and bytes of entries -/

theorem testBit_bits (v hi lo b : Nat) : (bits v hi lo).testBit b = (decide (b < hi + 1 - lo) && v.testBit (lo + b)) := by
  unfold bits
  rw [Nat.testBit_mod_two_pow, Nat.testBit_div_two_pow, Nat.add_comm lo b]

/-- A field of bits taken away leaves zeros in its place. -/
theorem testBit_sub_bits {v hi lo : Nat} (h : lo ≤ hi) (b : Nat) :
    (v - bits v hi lo * 2 ^ lo).testBit b = (v.testBit b && !(lo ≤ b && b ≤ hi)) := by
  have hsplit : v - bits v hi lo * 2 ^ lo = 2 ^ (hi + 1) * (v / 2 ^ (hi + 1)) + v % 2 ^ lo := by
    have hpow : 2 ^ (hi + 1) = 2 ^ lo * 2 ^ (hi + 1 - lo) := by
      rw [← Nat.pow_add]
      congr 1
      omega
    have hlow := Nat.div_add_mod v (2 ^ lo)
    have hmid := Nat.div_add_mod (v / 2 ^ lo) (2 ^ (hi + 1 - lo))
    rw [Nat.div_div_eq_div_mul, ← hpow] at hmid
    have hv : v = 2 ^ (hi + 1) * (v / 2 ^ (hi + 1)) + bits v hi lo * 2 ^ lo + v % 2 ^ lo := by
      calc v = 2 ^ lo * (v / 2 ^ lo) + v % 2 ^ lo := hlow.symm
        _ = 2 ^ lo * (2 ^ (hi + 1 - lo) * (v / 2 ^ (hi + 1)) + bits v hi lo) + v % 2 ^ lo := by rw [← hmid]; rfl
        _ = _ := by rw [hpow]; ring
    omega
  have hlt : v % 2 ^ lo < 2 ^ (hi + 1) :=
    lt_of_lt_of_le (Nat.mod_lt _ (Nat.two_pow_pos lo)) (Nat.pow_le_pow_right (by decide) (by omega))
  rw [hsplit, Nat.testBit_two_pow_mul_add _ hlt, Nat.testBit_mod_two_pow, Nat.testBit_div_two_pow]
  by_cases hb : b < hi + 1
  · rw [if_pos hb]
    by_cases hl : b < lo
    · simp [hl, Nat.not_le.mpr hl]
    · simp [hl, Nat.not_lt.mp hl, Nat.lt_succ_iff.mp hb]
  · rw [if_neg hb, Nat.sub_add_cancel (Nat.not_lt.mp hb)]
    simp [show ¬ b ≤ hi by omega]

theorem beAt_lt (bs : List Byte) (lo n : Nat) : beAt bs lo n < 256 ^ n := by
  unfold beAt
  induction n with
  | zero => exact Nat.one_pos
  | succ n ih =>
    have hbyte := (bs.getD (lo + n) 0).isLt
    rw [List.range_succ, List.foldl_append, List.foldl_cons, List.foldl_nil, Nat.pow_succ]
    omega

namespace Blk

variable {s : Blk} {q g i j n e m : Nat} {d : ColDesc} {w : Bytes64} {data : Option (List Byte)}

/-! ### An entry read after a write into all four dies' copies (R223, R225) -/

/-- One value written at several keys. -/
theorem get_setAll (t : Tab Nat) (f : Nat → Nat) (v : Nat) (ds : List Nat) (k : Nat) :
    (ds.foldl (fun (t : Tab Nat) d => t.set 0 (f d) v) t).get 0 k = if ∃ d ∈ ds, k = f d then v else t.get 0 k := by
  induction ds generalizing t with
  | nil => simp
  | cons d ds ih =>
    rw [List.foldl_cons, ih, Tab.get_set _ _ _ _ _ _ fun _ => rfl]
    simp only [List.exists_mem_cons_iff]
    by_cases h : ∃ d ∈ ds, k = f d
    · rw [if_pos h, if_pos (.inr h)]
    · simp [h]

/-- A group entry as it is stored: the bits that the hardware keeps elsewhere are zero (R224, R225). -/
def storedGroup (v : Nat) : Nat :=
  v % 2 ^ 128 - (if (v % 2 ^ 128).testBit 125 then 2 ^ 125 else 0) - bits v 79 72 * 2 ^ 72

theorem storedGroup_eq (v : Nat) : storedGroup v =
    (v % 2 ^ 128 - bits (v % 2 ^ 128) 125 125 * 2 ^ 125) -
      bits (v % 2 ^ 128 - bits (v % 2 ^ 128) 125 125 * 2 ^ 125) 79 72 * 2 ^ 72 := by
  have hfence : (if (v % 2 ^ 128).testBit 125 then 2 ^ 125 else 0) = bits (v % 2 ^ 128) 125 125 * 2 ^ 125 := by
    have hbit : bits (v % 2 ^ 128) 125 125 = ((v % 2 ^ 128).testBit 125).toNat := (Nat.toNat_testBit _ _).symm
    rw [hbit]
    cases (v % 2 ^ 128).testBit 125 <;> rfl
  have hepoch : bits v 79 72 = bits (v % 2 ^ 128 - bits (v % 2 ^ 128) 125 125 * 2 ^ 125) 79 72 := by
    refine Nat.eq_of_testBit_eq fun b => ?_
    rw [testBit_bits, testBit_bits, testBit_sub_bits (le_refl 125), Nat.testBit_mod_two_pow]
    by_cases hb : b < 8
    · simp [hb, show 72 + b < 128 by omega, show ¬ 125 ≤ 72 + b by omega]
    · simp [hb]
  rw [storedGroup, hfence, ← hepoch]

theorem testBit_storedGroup {b : Nat} (hb : b < 128) (v : Nat) :
    (storedGroup v).testBit b = (v.testBit b && b ≠ 125 && !(72 ≤ b && b ≤ 79)) := by
  rw [storedGroup_eq, testBit_sub_bits (by decide), testBit_sub_bits (le_refl 125), Nat.testBit_mod_two_pow]
  have hfence : (decide (125 ≤ b) && decide (b ≤ 125)) = decide (b = 125) := by
    rw [← Bool.decide_and]
    exact decide_eq_decide.mpr (by omega)
  simp [hb, hfence]

theorem groupEntry_putGroup (hm : m < 4) : (s.putGroup g e).groupEntry m g = storedGroup e :=
  (get_setAll s.groups (fun d => 4096 * d + g) (storedGroup e) (List.range 4) (4096 * m + g)).trans
    (if_pos ⟨m, List.mem_range.mpr hm, rfl⟩)

theorem memberEntry_putMember_self (hm : m < 4) : (s.putMember i e).memberEntry m i = e % 2 ^ 64 :=
  (get_setAll s.members (fun d => 65536 * d + i) (e % 2 ^ 64) (List.range 4) (65536 * m + i)).trans
    (if_pos ⟨m, List.mem_range.mpr hm, rfl⟩)

theorem memberEntry_putMember_ne (hi : i < 65536) (hj : j < 65536) (h : j ≠ i) :
    (s.putMember i e).memberEntry m j = s.memberEntry m j :=
  (get_setAll s.members (fun d => 65536 * d + i) (e % 2 ^ 64) (List.range 4) (65536 * m + j)).trans
    (if_neg fun ⟨d, _, hd⟩ => h (by omega))

/-- Entries `i` on of the member table are written, `n` of them. -/
def putMembers (s : Blk) (i n : Nat) (v : Nat → Nat) : Blk := (List.range n).foldl (fun s k => s.putMember (i + k) (v k)) s

theorem putMembers_succ (v : Nat → Nat) : s.putMembers i (n + 1) v = (s.putMembers i n v).putMember (i + n) (v n) := by
  rw [putMembers, List.range_succ, List.foldl_append]
  rfl

theorem putMembers_eq (s : Blk) (i n : Nat) (v : Nat → Nat) : ∃ x, s.putMembers i n v = { s with members := x } := by
  induction n with
  | zero => exact ⟨_, rfl⟩
  | succ n ih =>
    obtain ⟨x, hx⟩ := ih
    rw [putMembers_succ, hx]
    exact ⟨_, rfl⟩

theorem memberEntry_putMembers {v : Nat → Nat} (hm : m < 4) (hroom : i + n ≤ 65536) {k : Nat} (hk : k < n) :
    (s.putMembers i n v).memberEntry m (i + k) = v k % 2 ^ 64 := by
  induction n with
  | zero => omega
  | succ n ih =>
    rw [putMembers_succ]
    by_cases h : k = n
    · rw [h, memberEntry_putMember_self hm]
    · rw [memberEntry_putMember_ne (by omega) (by omega) (by omega), ih (by omega) (by omega)]

@[simp] theorem groupState_endDesc {kind status : Nat} : (s.endDesc kind d status).groupState g = s.groupState g :=
  congrArg (Tab.get · _ g) groupHw_endDesc

@[simp] theorem groupEntry_endDesc {kind status : Nat} : (s.endDesc kind d status).groupEntry m g = s.groupEntry m g :=
  congrArg (Tab.get · 0 _) groups_endDesc

@[simp] theorem memberEntry_endDesc {kind status : Nat} : (s.endDesc kind d status).memberEntry m i = s.memberEntry m i :=
  congrArg (Tab.get · 0 _) members_endDesc

/-! ### The descriptors of groups and members, by what they find (R241, R242) -/

theorem runDesc_rebind (h : descKind w = 9) : s.runDesc q w data = s.rebind q (colDesc w) := by
  simp only [runDesc, h]

theorem runDesc_groupSet (h : descKind w = 0xA) : s.runDesc q w data = s.groupSet q (colDesc w) data := by
  simp only [runDesc, h]

theorem runDesc_groupClear (h : descKind w = 0xB) : s.runDesc q w data = s.groupClear q (colDesc w) := by
  simp only [runDesc, h]

theorem runDesc_memberSet (h : descKind w = 0xC) : s.runDesc q w data = s.memberSet q (colDesc w) data := by
  simp only [runDesc, h]

/-- The descriptor `d` of a REBIND has fenced its group. -/
def withFence (s : Blk) (q : Nat) (d : ColDesc) : Blk :=
  { (s.cqAdvance q).updGroup d.group.toNat fun h => { h with fenced := true } with
    fences := s.fences.put d.group.toNat ⟨d, d.member.toNat % 1024, beAt d.args 0 8⟩ }

theorem groupState_withFence : (s.withFence q d).groupState d.group.toNat = { s.groupState d.group.toNat with fenced := true } :=
  groupState_updGroup_self (s := s) fun h => { h with fenced := true }

theorem fence_withFence : (s.withFence q d).fences.find d.group.toNat = some ⟨d, d.member.toNat % 1024, beAt d.args 0 8⟩ :=
  Tab.find_put_self _ _ _

/-- A REBIND that passes its checks fences its group, and waits (R241). -/
theorem rebind_of_good (h : s.mayStart q d = true) (hfence : (s.groupState d.group.toNat).fenced = false)
    (hvalid : s.groupValid d.group.toNat = true) (hmember : d.member.toNat % 1024 < (groupRun (s.group d.group.toNat)).1)
    (hentry : (beAt d.args 0 8).testBit 63 = true) : s.rebind q d = s.withFence q d := by
  unfold rebind
  dsimp only
  rw [start_of_mayStart h (by simp [hfence]), groupValid_cqAdvance, group_cqAdvance, if_neg (by simp [hvalid]),
    if_neg (Nat.not_le.mpr hmember), if_neg (by simp [hentry])]
  rfl

/-- The entry of a group at rest is written, and the group's epoch advances (R240, R242). -/
def groupWritten (s : Blk) (q g e : Nat) : Blk := ((s.cqAdvance q).putGroup g e).nextEpoch g

theorem groupEntry_groupWritten (hm : m < 4) : (s.groupWritten q g e).groupEntry m g = storedGroup e :=
  groupEntry_putGroup (s := s.cqAdvance q) hm

theorem epoch_groupWritten : ((s.groupWritten q g e).groupState g).epoch = ((s.groupState g).epoch + 1) % 256 :=
  congrArg GroupHw.epoch (groupState_updGroup_self _)

theorem groupClear_of_rest (h : s.mayStart q d = true) (hbusy : s.groupBusy d.group.toNat = false) :
    s.groupClear q d = (s.groupWritten q d.group.toNat 0).endDesc 0xB d 0 := by
  unfold groupClear
  dsimp only
  rw [start_of_mayStart h rfl, groupBusy_cqAdvance, if_neg (by simp [hbusy])]
  rfl

/-- A group whose members are all there, within the tables, is written (R242). -/
theorem groupSet_of_good {bs : List Byte} {first : Nat} (h : s.mayStart q d = true) (hbusy : s.groupBusy d.group.toNat = false)
    (he : e = beAt bs 0 16) (hrun : (n, first) = groupRun e) (haddr : d.addr ≠ 0) (hn : 1 ≤ n ∧ n ≤ 1024)
    (hroom : first + n ≤ 65536)
    (hhomes : 1 ≤ bits e 61 56 ∧ bits e 61 56 ≤ 32)
    (hmembers : ∀ m < n, (s.memberEntry s.liveDie (first + m)).testBit 63 = true) :
    s.groupSet q d (some bs) = (s.groupWritten q d.group.toNat e).endDesc 0xA d 0 := by
  subst he
  unfold groupSet
  dsimp only
  rw [start_of_mayStart h rfl, groupBusy_cqAdvance, if_neg (by simp [hbusy]), ← hrun]
  dsimp only
  rw [liveDie_cqAdvance, if_neg haddr, if_neg (by simp only [Bool.or_eq_true, decide_eq_true_eq]; omega), if_neg]
  · rfl
  · rw [Bool.not_eq_true, List.any_eq_false]
    intro m hm
    rw [memberEntry_cqAdvance, hmembers m (List.mem_range.mp hm)]
    decide

/-- Entries that no valid group uses are written (R242). -/
theorem memberSet_of_good {bs : List Byte} {first : Nat} (h : s.mayStart q d = true) (hfirst : first = beAt d.args 0 4)
    (hn : n = beAt d.args 4 2) (hpos : 1 ≤ n) (hmax : n ≤ 1024) (hroom : first + n ≤ 65536) (hfree : s.inRun first n = false)
    (haddr : d.addr ≠ 0) : s.memberSet q d (some bs) =
      ((s.cqAdvance q).putMembers first n fun k => beAt (bs.drop (8 * k)) 0 8).endDesc 0xC d 0 := by
  unfold memberSet
  rw [start_of_mayStart h rfl, ← hfirst, ← hn]
  dsimp only
  rw [if_neg (by simp only [Bool.or_eq_true, decide_eq_true_eq]; omega), inRun_cqAdvance, if_neg (by simp [hfree]), if_neg haddr]
  rfl

/-! ### A fence is cleared (R241) -/

/-- The fence of group `g` is gone, and the group is fenced no longer. -/
def unfenced (s : Blk) (g : Nat) : Blk :=
  { s.updGroup g fun h => { h with fenced := false } with fences := s.fences.del g }

theorem fence_unfenced : (s.unfenced g).fences.find g = none := Tab.find_del_self _ _

theorem groupState_unfenced : (s.unfenced g).groupState g = { s.groupState g with fenced := false } :=
  groupState_updGroup_self (s := s) fun h => { h with fenced := false }

theorem rebindCommit_of_idle {f : Fence} (hf : s.fences.find g = some f) (ho : (s.groupState g).open_ = 0) : s.rebindCommit g =
    (((s.putMember ((groupRun (s.group g)).2 + f.member) f.entry).nextEpoch g).unfenced g).endDesc 9 f.desc 0 := by
  unfold rebindCommit
  rw [hf]
  exact if_neg (not_not.mpr ho)

theorem fenceTimeout_of_open {f : Fence} (hf : s.fences.find g = some f) (ho : (s.groupState g).open_ ≠ 0) :
    s.fenceTimeout g = (s.unfenced g).endDesc 9 f.desc 0x16 := by
  unfold fenceTimeout
  rw [hf]
  exact if_neg ho

/-- A REBIND that is given up is reported (R241). -/
theorem flag_endDesc_timeout {kind : Nat} (hfull : s.cplFull = false) : (s.endDesc kind d 0x16).flag .COL_INT_fence_timeout 0 = true := by
  have hends : ∀ u : Blk, u.descEnds d 0x16 = (((u.count .COL_FAILED_count 0 1).raise .COL_INT_ctx_fail 0).raise
      .COL_INT_fence_timeout 0).signal d false := fun _ => rfl
  rw [endDesc_of_room hfull, hends, flag, fld_signal (by decide)]
  exact flag_raise _ _ _ (by simp [messages])

end Blk

open Blk

/-! ### The commands -/

theorem runs_rebindCommit {s : State} {g : BitVec 12} {f : Fence} (hf : s.blk.fences.find g.toNat = some f)
    (ho : (s.blk.groupState g.toNat).open_ = 0) (die : DieId) :
    Runs (.rebindCommit g) s fun t => (t.blk.groupState g.toNat).fenced = false ∧ t.blk.fences.find g.toNat = none ∧
      (t.blk.groupState g.toNat).epoch = ((s.blk.groupState g.toNat).epoch + 1) % 256 ∧
      t.blk.memberEntry die ((groupRun (s.blk.group g.toNat)).2 + f.member) = f.entry % 2 ^ 64 := by
  have hepoch : ∀ b : Blk, (b.nextEpoch g.toNat).groupState g.toNat =
      { b.groupState g.toNat with epoch := ((b.groupState g.toNat).epoch + 1) % 256 } := fun b => groupState_updGroup_self _
  refine runs_of_eq (g := (·.rebindCommit g.toNat)) rfl (rebindCommit_of_idle hf ho) ?_
  dsimp only
  rw [groupState_endDesc, fences_endDesc, memberEntry_endDesc, groupState_unfenced, hepoch]
  exact ⟨rfl, fence_unfenced, rfl, memberEntry_putMember_self die.isLt⟩

theorem runs_fenceTimeout {s : State} {g : BitVec 12} {f : Fence} (hf : s.blk.fences.find g.toNat = some f)
    (ho : (s.blk.groupState g.toNat).open_ ≠ 0) :
    Runs (.fenceTimeout g) s fun t => (t.blk.groupState g.toNat).fenced = false ∧ t.blk.fences.find g.toNat = none ∧
      (t.blk.groupState g.toNat).epoch = (s.blk.groupState g.toNat).epoch ∧
      (s.blk.cplFull = false → t.blk.flag .COL_INT_fence_timeout 0 = true) := by
  refine runs_of_eq (g := (·.fenceTimeout g.toNat)) rfl (fenceTimeout_of_open hf ho) ?_
  dsimp only
  rw [groupState_endDesc, fences_endDesc, groupState_unfenced]
  exact ⟨rfl, fence_unfenced, rfl, fun hfull => flag_endDesc_timeout (s := s.blk.unfenced g.toNat) hfull⟩

/-- Settles O21: REBIND by its fence and by what clears it; GROUP_SET and GROUP_CLEAR by the entry that they write (`groupWritten`);
MEMBER_SET by the entries that it writes (`putMembers`). -/
theorem groupsWritten : Obligations.GroupsWritten := by
  unfold Obligations.GroupsWritten
  refine ⟨?_, fun s g f die hf => ⟨fun ho => runs_rebindCommit hf ho die, runs_fenceTimeout hf⟩, ?_, ?_⟩
  · intro s q w d hd hk hstart hfence hvalid hmember hentry
    subst hd
    exact runs_of_eq (g := (·.runDesc q w none)) rfl
      ((runDesc_rebind hk).trans (rebind_of_good hstart hfence hvalid hmember hentry))
      ⟨congrArg GroupHw.fenced groupState_withFence, fence_withFence⟩
  · intro s q w d die hd hstart hfull hbusy
    subst hd
    refine ⟨fun hk => ?_, fun bs e n first hk he hrun haddr hpos hmax hroom hhome hhomes hmembers => ?_⟩
    · refine runs_of_eq (g := (·.runDesc q w none)) rfl ((runDesc_groupClear hk).trans (groupClear_of_rest hstart hbusy))
        ⟨?_, descEnded_endDesc hfull rfl rfl rfl, ?_⟩
      · exact groupEntry_endDesc.trans (groupEntry_groupWritten die.isLt)
      · exact (congrArg GroupHw.epoch groupState_endDesc).trans epoch_groupWritten
    · refine runs_of_eq (g := (·.runDesc q w (some bs))) rfl ((runDesc_groupSet hk).trans
        (groupSet_of_good hstart hbusy he hrun haddr ⟨hpos, hmax⟩ hroom ⟨hhome, hhomes⟩ hmembers))
        ⟨descEnded_endDesc hfull rfl rfl rfl, ?_, fun b hb => ?_⟩
      · exact (congrArg GroupHw.epoch groupState_endDesc).trans epoch_groupWritten
      · dsimp only
        rw [groupEntry_endDesc, groupEntry_groupWritten die.isLt, testBit_storedGroup hb]
  · intro s q w d die bs first n k hd hk hstart hfull haddr hfirst hn hmax hroom hfree hlt
    subst hd
    obtain ⟨x, hx⟩ := putMembers_eq (s.blk.cqAdvance q) first n fun k => beAt (bs.drop (8 * k)) 0 8
    refine runs_of_eq (g := (·.runDesc q w (some bs))) rfl ((runDesc_memberSet hk).trans
      (memberSet_of_good hstart hfirst hn (by omega) hmax hroom hfree haddr))
      ⟨descEnded_endDesc hfull (by rw [hx]) (by rw [hx]; rfl) (by rw [hx]; rfl), ?_⟩
    dsimp only
    rw [memberEntry_endDesc, memberEntry_putMembers die.isLt hroom hlt]
    exact Nat.mod_eq_of_lt (beAt_lt _ 0 8)

end Sys2Proof.Machine
end

section
/-!
PROOF. What Gneiss sends (R30, R126, R265 to R267, R294): a frame of the block's own, or the answer of a request, leaves the store, its
requests and every other function as they were; and the number of a frame that has left staging is not used again.
-/

namespace Sys2Proof.Machine.Blk

variable {s t u : Blk} {p q : Fld → Prop}

/-! ### What a frame of the block's own leaves -/

/-- `t` is `s` but for what the handling of frames and the choice of a link change; of the register fields only those of `p` may
differ. -/
def Sends (p : Fld → Prop) (s t : Blk) : Prop :=
  t = { s with fields := t.fields, out := t.out, links := t.links, frames := t.frames, copies := t.copies, transfers := t.transfers,
               nextFrame := t.nextFrame, basalt := t.basalt, agateDirs := t.agateDirs, linkBusy := t.linkBusy,
               linkDrops := t.linkDrops, hostTx := t.hostTx, rings := t.rings, trcBuf := t.trcBuf, fresh := t.fresh, txts := t.txts,
               servo := t.servo, sprayPtr := t.sprayPtr, placed := t.placed } ∧
  ∀ f i, ¬ p f → t.fld f i = s.fld f i

/-- The register fields that the end of a request may change (R282). -/
def answering (g : Fld) : Prop :=
  handling g ∨ g = .GNS_REQ_OK_count ∨ g = .GNS_REQ_ERR_count ∨ g = .GNS_INT_mem_err

namespace Sends

theorem refl (p : Fld → Prop) (s : Blk) : Sends p s s := ⟨rfl, fun _ _ _ => rfl⟩

theorem trans (h : Sends p s t) (k : Sends p t u) : Sends p s u := by
  refine ⟨?_, fun f i hf => (k.2 f i hf).trans (h.2 f i hf)⟩
  have hu := k.1
  rw [h.1] at hu
  exact hu

theorem mono (h : Sends p s t) (hpq : ∀ f, p f → q f) : Sends q s t := ⟨h.1, fun f i hf => h.2 f i fun hp => hf (hpq f hp)⟩

theorem ite {c : Prop} [Decidable c] (h : Sends p s t) (k : Sends p s u) : Sends p s (if c then t else u) := by
  split
  exacts [h, k]

/-- What each step of a fold keeps, the fold keeps. -/
theorem foldl {β : Type} (g : Blk → β → Blk) (h : ∀ t b, Sends p t (g t b)) (l : List β) (t : Blk) : Sends p t (l.foldl g t) := by
  induction l generalizing t with
  | nil => exact refl p t
  | cons b l ih => exact (h t b).trans (ih _)

theorem of_handled (h : Handled s t) : Sends handling s t := by
  refine ⟨?_, h.2⟩
  have ht := h.1
  rw [ht]

theorem of_within (h : Within s t fun f _ => p f) : Sends p s t := by
  refine ⟨?_, h.2⟩
  have ht := h.1
  unfold FldsOut at ht
  rw [ht]

theorem fld_eq (h : Sends p s t) {f : Fld} (hf : ¬ p f) (i : Nat) : t.fld f i = s.fld f i := h.2 f i hf
theorem hbm (h : Sends p s t) : t.hbm = s.hbm := by rw [h.1]
theorem lineMeta (h : Sends p s t) : t.lineMeta = s.lineMeta := by rw [h.1]
theorem stale (h : Sends p s t) : t.stale = s.stale := by rw [h.1]
theorem hot (h : Sends p s t) : t.hot = s.hot := by rw [h.1]
theorem regions (h : Sends p s t) : t.regions = s.regions := by rw [h.1]
theorem updates (h : Sends p s t) : t.updates = s.updates := by rw [h.1]
theorem nextReq (h : Sends p s t) : t.nextReq = s.nextReq := by rw [h.1]
theorem ownWrites (h : Sends p s t) : t.ownWrites = s.ownWrites := by rw [h.1]
theorem gateways (h : Sends p s t) : t.gateways = s.gateways := by rw [h.1]

theorem place (tile l c n cells : Nat) : Sends handling s (s.place tile l c n cells) := by
  unfold Blk.place
  split
  exacts [refl _ s, ⟨rfl, fun _ _ _ => rfl⟩]

theorem spray (tile set c n : Nat) (free : Bool) (key : List Byte) (cells : Nat) :
    Sends handling s (s.spray tile set c n free key cells).2 := by
  unfold Blk.spray
  dsimp only
  split
  · exact refl _ s
  · split
    · split
      · exact refl _ s
      · exact trans ⟨rfl, fun _ _ _ => rfl⟩ (place _ _ _ _ _)
    · split
      · exact refl _ s
      · exact place _ _ _ _ _

theorem endpointLink (tile dst c : Nat) (f : Frame) : Sends handling s (s.endpointLink tile dst c f).2 := by
  unfold Blk.endpointLink
  dsimp only
  split
  · exact refl _ s
  · split
    · exact refl _ s
    · exact spray _ _ _ _ _ _ _
    · exact refl _ s

theorem sendTo (tile dst tc : Nat) (f : Frame) : Sends handling s (s.sendTo tile dst tc f) := by
  have h := endpointLink (s := s) tile dst tc f
  unfold Blk.sendTo
  split
  next heq => rwa [heq] at h
  next heq =>
    rw [heq] at h
    exact h.trans (of_handled (.emitFrame _ _ _ _ _))

theorem free (w : Nat) : Sends handling s (s.free w).2 := ⟨rfl, fun _ _ _ => rfl⟩

theorem respOpcode (op : Nat) : Sends handling s (s.respOpcode op).2 := by
  unfold Blk.respOpcode
  split_ifs
  exacts [refl _ s, refl _ s, refl _ s, free 2]

theorem respond (r : MemReq) (status : Nat) (payload : List Byte) : Sends handling s (s.respond r status payload) := by
  unfold Blk.respond
  dsimp only
  exact (((respOpcode _).trans (free _)).trans (of_handled (.ownFrame _))).trans (sendTo _ _ _ _)

/-- A request that ends is counted and answered (R267, R282). -/
theorem endReq (r : MemReq) (payload : List Byte) : Sends answering s (s.endReq r payload) := by
  have hcount : Sends answering s (if r.status = 0 then s.count .GNS_REQ_OK_count 0 1 else s.count .GNS_REQ_ERR_count 0 1) :=
    ite (of_within (.count s _ _ _ (fun _ _ h => .inl (.inl h)) (.inr (.inl rfl))))
      (of_within (.count s _ _ _ (fun _ _ h => .inl (.inl h)) (.inr (.inr (.inl rfl)))))
  have hraise : ∀ v : Blk, Sends answering v (if r.status = 0xC then v.raise .GNS_INT_mem_err 0 else v) := fun v =>
    ite (of_within (.raise v _ _ (fun _ h => .inl (Handled.handling_messages h)) (.inr (.inr (.inr rfl))))) (refl _ v)
  unfold Blk.endReq
  dsimp only
  exact (hcount.trans (hraise _)).trans (ite (refl _ _) ((respond _ _ _).mono fun _ h => .inl h))

/-- A frame leaves staging for its function, and the frames behind it go on. -/
theorem doneWith_kept (fid : Nat) : ∃ w o, Sends handling { s with memWait := w, ordWait := o } (s.doneWith fid) := by
  unfold Blk.doneWith
  split
  · exact ⟨_, _, refl _ s⟩
  · exact ⟨_, _, of_handled ((Handled.dropFrame _).trans (.offerAfter _))⟩

end Sends

/-! ### The counts of requests (R282) -/

/-- A request that fails is counted once among the failed ones. -/
theorem fld_endReq_failed {r : MemReq} (h : r.status ≠ 0) (payload : List Byte) :
    (s.endReq r payload).fld .GNS_REQ_ERR_count 0 = min (s.fld .GNS_REQ_ERR_count 0 + 1) (2 ^ 64 - 1) := by
  have hraise : ∀ v : Blk, (if r.status = 0xC then v.raise .GNS_INT_mem_err 0 else v).fld .GNS_REQ_ERR_count 0 =
      v.fld .GNS_REQ_ERR_count 0 := fun v => by
    split
    · exact fld_raise_ne _ _ _ _ _ (by simp [messages]) (by decide)
    · rfl
  unfold endReq
  dsimp only
  rw [if_neg h, if_neg (by simp [h]), (Sends.respond _ _ _).fld_eq (by simp [handling, counts]), hraise,
    fld_count_self _ _ _ _ (by simp [counts]) rfl]

/-- A READ that succeeds is counted once among those. -/
theorem fld_endReq_read {r : MemReq} (h : r.status = 0) (hop : r.opcode = 0x40) (payload : List Byte) :
    (s.endReq r payload).fld .GNS_REQ_OK_count 0 = min (s.fld .GNS_REQ_OK_count 0 + 1) (2 ^ 64 - 1) := by
  unfold endReq
  dsimp only
  rw [if_neg (by simp [hop]), (Sends.respond _ _ _).fld_eq (by simp [handling, counts]), if_neg (by rw [h]; decide), if_pos h,
    fld_count_self _ _ _ _ (by simp [counts]) rfl]

/-! ### The numbers of frames -/

/-- What is in staging in `t` was there in `s`. -/
structure KeepsGone (s t : Blk) : Prop where
  nextFrame : s.nextFrame ≤ t.nextFrame
  gone : ∀ fid, s.frame? fid = none → t.frame? fid = none

namespace KeepsGone

theorem refl (s : Blk) : KeepsGone s s := ⟨le_refl _, fun _ h => h⟩

theorem trans (h : KeepsGone s t) (k : KeepsGone t u) : KeepsGone s u :=
  ⟨h.nextFrame.trans k.nextFrame, fun fid hs => k.gone fid (h.gone fid hs)⟩

theorem ite {c : Prop} [Decidable c] (h : KeepsGone s t) (k : KeepsGone s u) : KeepsGone s (if c then t else u) := by
  split
  exacts [h, k]

theorem foldl {β : Type} (g : Blk → β → Blk) (h : ∀ t b, KeepsGone t (g t b)) (l : List β) (t : Blk) :
    KeepsGone t (l.foldl g t) := by
  induction l generalizing t with
  | nil => exact refl t
  | cons b l ih => exact (h t b).trans (ih _)

/-- What touches neither the frames nor their numbers. -/
theorem of_same (hf : t.frames = s.frames) (hn : t.nextFrame = s.nextFrame) : KeepsGone s t :=
  ⟨hn.ge, fun fid h => by unfold frame? at h ⊢; rw [hf, h]⟩

theorem of_fldsOut (h : FldsOut s t) : KeepsGone s t := by
  unfold FldsOut at h
  exact of_same (by rw [h]) (by rw [h])

theorem settle (fid : Nat) : KeepsGone s (s.settle fid) := by
  refine ⟨(Tidied.settle fid).nextFrame.ge, fun k hk => ?_⟩
  cases hf : s.frame? fid with
  | none =>
    unfold Blk.settle
    rwa [hf]
  | some r =>
    by_cases hd : r.dest = .copies
    · obtain ⟨x, hx⟩ := settle_frames hf hd
      have hne : k ≠ fid := fun h => by simp [h, hf] at hk
      unfold frame? at hk ⊢
      rw [hx]
      split
      · rw [Tab.find_del, if_neg hne, Tab.find_put, if_neg hne, hk]
      · rw [Tab.find_put, if_neg hne, hk]
    · unfold Blk.settle
      rw [hf]
      dsimp only
      rwa [if_neg hd]

theorem advanceRing (r n : Nat) : KeepsGone s (s.advanceRing r n) := by
  have hpending : ∀ v : Blk, KeepsGone v (v.ringPending r) := fun v => by
    unfold Blk.ringPending
    dsimp only
    split
    · exact of_same rfl rfl
    · exact trans (t := v.putRing r { v.ring r with pend := true }) (of_same rfl rfl)
        (of_fldsOut (Within.fireVector (p := fun _ _ => True) _ _ fun _ _ => trivial).1)
  unfold Blk.advanceRing
  dsimp only
  refine trans (t := Blk.putRing _ _ _) (of_same ?_ ?_) (ite (hpending _) (refl _))
  · split <;> rfl
  · split <;> rfl

theorem txDone (r status : Nat) : KeepsGone s (s.txDone r status) := by
  unfold Blk.txDone
  split
  · exact refl s
  · refine trans ?_ (advanceRing _ _)
    exact of_same rfl rfl

theorem discardCopy (key : Nat) : KeepsGone s (s.discardCopy key) := by
  unfold Blk.discardCopy
  split
  · exact refl s
  · dsimp only
    refine trans (t := Blk.delCopy _ _) ?_ (settle _)
    split
    · split
      · refine trans (t := Blk.txDone _ _ _) (trans ?_ (txDone _ _)) (of_same rfl rfl)
        exact of_same rfl rfl
      · exact of_same rfl rfl
    · exact of_same rfl rfl

theorem ask (key : Nat) : KeepsGone s (s.ask key) := by
  unfold Blk.ask
  split
  · exact refl s
  · dsimp only
    split_ifs
    · exact of_same rfl rfl
    · exact ((of_same (frames_traceDrop _ _ _) (Tidied.traceDrop _ _ _).nextFrame).trans (discardCopy _)).trans
        (of_fldsOut (.count _ _ _ _))
    · exact of_same rfl rfl

theorem offerUpTo (n l c : Nat) : KeepsGone s (s.offerUpTo n l c) := by
  induction n generalizing s with
  | zero => exact refl s
  | succ n ih =>
    unfold Blk.offerUpTo
    dsimp only
    split
    · exact refl s
    next fid r _ =>
      have hask : KeepsGone s ((s.copiesOf fid).foldl (fun s kc => if kc.2.phase = .held then s.ask kc.1 else s) s) :=
        foldl _ (fun t kc => ite (ask _) (refl t)) _ _
      exact ite (hask.trans (ite (refl _) ih)) (refl s)

theorem offerAfter (link : Option Nat) : KeepsGone s (s.offerAfter link) := by
  unfold Blk.offerAfter
  split
  · exact refl s
  · exact foldl _ (fun t c => offerUpTo _ _ _) _ _

theorem makeCopies (fid : Nat) (target : Target) (f : Frame) (cls : Nat) (node : NodeSrc) (tile : Nat) (chkFail : Bool) :
    KeepsGone s (s.makeCopies fid target f cls node none tile chkFail) := by
  unfold Blk.makeCopies
  dsimp only
  refine trans ?_ (foldl _ (fun _ _ => ask _) _ _)
  refine foldl _ (fun _ _ => ?_) _ s
  exact of_same rfl rfl

theorem place (tile l c n cells : Nat) : KeepsGone s (s.place tile l c n cells) := by
  rw [place_leaves]
  exact of_same rfl rfl

theorem spray (tile set c n : Nat) (free : Bool) (key : List Byte) (cells : Nat) :
    KeepsGone s (s.spray tile set c n free key cells).2 := by
  unfold Blk.spray
  dsimp only
  split
  · exact refl s
  · split
    · split
      · exact refl s
      · refine trans ?_ (place _ _ _ _ _)
        exact of_same rfl rfl
    · split
      · exact refl s
      · exact place _ _ _ _ _

theorem endpointLink (tile dst c : Nat) (f : Frame) : KeepsGone s (s.endpointLink tile dst c f).2 := by
  unfold Blk.endpointLink
  dsimp only
  split
  · exact refl s
  · split
    · exact refl s
    · exact spray _ _ _ _ _ _ _
    · exact refl s

end KeepsGone

/-- From `s` to `t` no frame has come back under a number already given out. -/
structure NoReturn (s t : Blk) : Prop where
  nextFrame : s.nextFrame ≤ t.nextFrame
  gone : ∀ fid < s.nextFrame, s.frame? fid = none → t.frame? fid = none

namespace NoReturn

theorem of_keeps (h : KeepsGone s t) : NoReturn s t := ⟨h.nextFrame, fun fid _ hs => h.gone fid hs⟩

theorem refl (s : Blk) : NoReturn s s := of_keeps (.refl s)

theorem trans (h : NoReturn s t) (k : NoReturn t u) : NoReturn s u :=
  ⟨h.nextFrame.trans k.nextFrame, fun fid hn hs => k.gone fid (hn.trans_le h.nextFrame) (h.gone fid hn hs)⟩

theorem ite {c : Prop} [Decidable c] (h : NoReturn s t) (k : NoReturn s u) : NoReturn s (if c then t else u) := by
  split
  exacts [h, k]

theorem of_fldsOut (h : FldsOut s t) : NoReturn s t := of_keeps (.of_fldsOut h)

/-- A frame of the block's own takes the next number. -/
theorem emitFrame (tile : Nat) (target : Target) (f : Frame) (cls : Nat) (node : NodeSrc) :
    NoReturn s (s.emitFrame tile target f cls node) := by
  have hput : ∀ r : FrameRec, NoReturn s (({ s with nextFrame := s.nextFrame + 1 } : Blk).putFrame s.nextFrame r) := fun r =>
    ⟨Nat.le_succ _, fun fid hn h => by rw [frame_putFrame, if_neg hn.ne]; exact h⟩
  exact ((hput _).trans (of_keeps (.makeCopies _ _ _ _ _ _ _))).trans (of_keeps (.settle _))

theorem sendTo (tile dst tc : Nat) (f : Frame) : NoReturn s (s.sendTo tile dst tc f) := by
  have h := of_keeps (.endpointLink (s := s) tile dst tc f)
  unfold Blk.sendTo
  split
  next heq => rwa [heq] at h
  next heq =>
    rw [heq] at h
    exact h.trans (emitFrame _ _ _ _ _)

theorem respond (r : MemReq) (status : Nat) (payload : List Byte) : NoReturn s (s.respond r status payload) := by
  have hfree : ∀ (v : Blk) w, NoReturn v (v.free w).2 := fun v _ => of_keeps (.of_same rfl rfl)
  have hframe : ∀ (v : Blk) x, NoReturn v (v.ownFrame x).2 := fun v _ => of_keeps (.of_same rfl rfl)
  have hop : NoReturn s (s.respOpcode r.opcode).2 := by
    unfold respOpcode
    split_ifs
    exacts [refl s, refl s, refl s, hfree s 2]
  unfold Blk.respond
  dsimp only
  refine trans ?_ (sendTo _ _ _ _)
  refine trans ?_ (hframe _ _)
  exact hop.trans (hfree _ _)

theorem endReq (r : MemReq) (payload : List Byte) : NoReturn s (s.endReq r payload) := by
  have hcount : ∀ f, NoReturn s (s.count f 0 1) := fun f => of_fldsOut (.count s f 0 1)
  have hraise : ∀ v : Blk, NoReturn v (if r.status = 0xC then v.raise .GNS_INT_mem_err 0 else v) := fun v =>
    ite (of_fldsOut (.raise v _ 0)) (refl v)
  unfold Blk.endReq
  dsimp only
  exact ((ite (hcount _) (hcount _)).trans (hraise _)).trans (ite (refl _) (respond _ _ _))

end NoReturn

/-- A frame that its function has taken is in staging no more. -/
theorem frame_doneWith (fid : Nat) : (s.doneWith fid).frame? fid = none := by
  unfold doneWith
  split
  · assumption
  · exact (KeepsGone.offerAfter _).gone fid (frame_dropFrame fid)

end Sys2Proof.Machine.Blk
end

section
/-!
PROOF. Requests and responses at the store (R265 to R269, R275, R282, R294, R295): what a request in its turn does, by the checks that
it passes; the bytes of a line written and read; a WRITE of the spine's own sent again; a stack's stale blocks. They settle O23.
-/

namespace Sys2Proof.Machine

namespace Blk

variable {s t u : Blk} {fid op : Nat} {r : FrameRec} {q : MemReq}

/-! ### A frame that its function takes leaves the store as it is -/

@[simp] theorem hbm_doneWith : (s.doneWith fid).hbm = s.hbm := by
  obtain ⟨_, _, h⟩ := Sends.doneWith_kept (s := s) fid
  exact h.hbm

@[simp] theorem updates_doneWith : (s.doneWith fid).updates = s.updates := by
  obtain ⟨_, _, h⟩ := Sends.doneWith_kept (s := s) fid
  exact h.updates

@[simp] theorem ownWrites_doneWith : (s.doneWith fid).ownWrites = s.ownWrites := by
  obtain ⟨_, _, h⟩ := Sends.doneWith_kept (s := s) fid
  exact h.ownWrites

theorem fld_doneWith {f : Fld} (hf : ¬ handling f) (i : Nat) : (s.doneWith fid).fld f i = s.fld f i := by
  obtain ⟨_, _, h⟩ := Sends.doneWith_kept (s := s) fid
  exact h.fld_eq hf i

theorem nextFrame_doneWith (fid : Nat) : s.nextFrame ≤ (s.doneWith fid).nextFrame := (InOrder.doneWith (l := 0) fid).nextFrame

/-- A request that fails is answered: its frame is gone, and it has no effect on the store. -/
theorem fails_leaves (h : fid < s.nextFrame) (hq : q.status ≠ 0) :
    ((s.doneWith fid).endReq q []).frame? fid = none ∧ ((s.doneWith fid).endReq q []).hbm = s.hbm ∧
      ((s.doneWith fid).endReq q []).updates = s.updates ∧
      ((s.doneWith fid).endReq q []).fld .GNS_REQ_ERR_count 0 = min (s.fld .GNS_REQ_ERR_count 0 + 1) (2 ^ 64 - 1) := by
  have hend := Sends.endReq (s := s.doneWith fid) q []
  refine ⟨(NoReturn.endReq _ _).gone fid (h.trans_le (nextFrame_doneWith fid)) (frame_doneWith fid), ?_, ?_, ?_⟩
  · rw [hend.hbm, hbm_doneWith]
  · rw [hend.updates, updates_doneWith]
  · rw [fld_endReq_failed hq, fld_doneWith (by simp [handling, counts])]

/-! ### A request in its turn (R126, R265, R268) -/

/-- A whole and good frame of opcode `op` is a request to the store, no earlier frame holds it back, and its cells have crossed to the
dies of its lines. -/
structure Ready (s : Blk) (fid op : Nat) (r : FrameRec) : Prop where
  frame : s.frame? fid = some r
  dest : r.dest = .gneiss
  whole : r.whole = true
  good : r.chkFail = false
  opcode : (xHeader r.frame.data).opcode = op
  first : s.heldBack fid r = false
  crossed : (s.reqDies (s.memReqOf r) (xHeader r.frame.data).dst).all (s.crossed fid r) = true

/-- The status of the first check that the request of a frame fails; 0: none. -/
def statusOf (s : Blk) (r : FrameRec) : Nat := s.memStatus (s.memReqOf r) (xHeader r.frame.data).dst (xHeader r.frame.data).len

/-- The payload of a request's frame. -/
def payloadOf (r : FrameRec) : List Byte := (r.frame.data.drop 32).take (xHeader r.frame.data).len

theorem noteOrder_eq (s : Blk) (fid : Nat) (q : MemReq) : ∃ o, s.noteOrder fid q = { s with ordWait := o } := by
  unfold noteOrder
  split
  exacts [⟨_, rfl⟩, ⟨_, rfl⟩]

theorem noteOrder_of_ne (h : q.opcode ≠ 0x41) : s.noteOrder fid q = s := by simp [noteOrder, h]

theorem memRequest_of_ready (h : s.Ready fid op r) : s.memRequest fid op =
    if s.statusOf r ≠ 0 then
      (((if (s.statusOf r = 7 && (s.memReqOf r).opcode = 0x41 && (s.region (reqRange (s.memReqOf r)).1).mode = 1) = true then
        (s.noteOrder fid (s.memReqOf r)).count .GNS_CKP_LATE_WR_count 0 1 else s.noteOrder fid (s.memReqOf r)).doneWith fid).endReq
          { s.memReqOf r with status := s.statusOf r } [])
    else (s.noteOrder fid (s.memReqOf r)).takeReq fid (s.memReqOf r) (payloadOf r) := by
  obtain ⟨o, ho⟩ := noteOrder_eq s fid (s.memReqOf r)
  have hcross : (({ s with ordWait := o } : Blk).reqDies (s.memReqOf r) (xHeader r.frame.data).dst).all
      (({ s with ordWait := o } : Blk).crossed fid r) = true := h.crossed
  unfold memRequest
  rw [h.frame]
  dsimp only
  rw [if_pos (by simp [h.dest, h.whole, h.opcode]), if_neg (by simp [h.first]), if_neg (by simp [h.good]), ho,
    if_neg (by simp [hcross])]
  rfl

/-- A request that fails a check is answered with the check's status (R267, R268). -/
theorem memRequest_of_failed (h : s.Ready fid op r) (hn : fid < s.nextFrame) (hst : s.statusOf r ≠ 0) :
    (s.memRequest fid op).frame? fid = none ∧ (s.memRequest fid op).hbm = s.hbm ∧ (s.memRequest fid op).updates = s.updates ∧
      (s.memRequest fid op).fld .GNS_REQ_ERR_count 0 = min (s.fld .GNS_REQ_ERR_count 0 + 1) (2 ^ 64 - 1) := by
  obtain ⟨o, ho⟩ := noteOrder_eq s fid (s.memReqOf r)
  rw [memRequest_of_ready h, if_pos hst, ho]
  split
  · obtain ⟨hgone, hhbm, hupd, hcount⟩ := fails_leaves (s := ({ s with ordWait := o } : Blk).count .GNS_CKP_LATE_WR_count 0 1)
      (q := { s.memReqOf r with status := s.statusOf r }) (fid := fid) (by rwa [count_nextFrame]) hst
    rw [count_hbm] at hhbm
    rw [count_updates] at hupd
    rw [fld_count_ne _ _ _ _ _ _ (by simp [counts]) (by decide)] at hcount
    exact ⟨hgone, hhbm, hupd, hcount⟩
  · exact fails_leaves (s := { s with ordWait := o }) hn hst

theorem memRequest_of_passed (h : s.Ready fid op r) (hst : s.statusOf r = 0) :
    s.memRequest fid op = (s.noteOrder fid (s.memReqOf r)).takeReq fid (s.memReqOf r) (payloadOf r) := by
  rw [memRequest_of_ready h, if_neg (not_not.mpr hst)]

/-! ### READ (R269, R270) -/

/-- A line of which no copy is poisoned needs no repair (R451). -/
theorem repairLine_of_clean {xs : List Nat} (h : ∀ x ∈ xs, (s.meta_ x).poison = false) : s.repairLine xs = s := by
  unfold repairLine
  split
  · rfl
  · rw [List.filter_eq_nil_iff.mpr fun x hx => by simp [h x hx]]
    rfl

theorem repairRange_of_clean {i off len : Nat}
    (h : ∀ n ∈ linesOf off len, ∀ x ∈ (s.region i).copies n, (s.meta_ x).poison = false) : s.repairRange i off len = s := by
  unfold repairRange
  generalize linesOf off len = ns at h
  induction ns with
  | nil => rfl
  | cons n ns ih =>
    rw [List.foldl_cons, repairLine_of_clean (h n List.mem_cons_self)]
    exact ih fun m hm => h m (List.mem_cons_of_mem n hm)

/-- A READ that passes is answered at once with what its range reads as, and changes no byte where no line is poisoned. -/
theorem takeRead_leaves {rn off len never : Nat} {bs : List Byte} {a b c : Bool} (hn : fid < s.nextFrame) (hop : q.opcode = 0x40)
    (hq : q.status = 0) (hr : (rn, off, len) = reqRange q) (hread : s.readRange rn off len = .ok bs a b c never)
    (hclean : ∀ n ∈ linesOf off len, ∀ x ∈ (s.region rn).copies n, (s.meta_ x).poison = false) :
    (s.takeRead fid q).frame? fid = none ∧ (s.takeRead fid q).hbm = s.hbm ∧ (s.takeRead fid q).updates = s.updates ∧
      (s.takeRead fid q).fld .GNS_REQ_OK_count 0 = min (s.fld .GNS_REQ_OK_count 0 + 1) (2 ^ 64 - 1) ∧
      (s.takeRead fid q).fld .GNS_NW_READS_count 0 = min (s.fld .GNS_NW_READS_count 0 + never) (2 ^ 64 - 1) := by
  have htake : s.takeRead fid q =
      ((s.doneWith fid).count .GNS_NW_READS_count 0 never).endReq { q with nwAny := a, nwAll := b, copy2 := c } bs := by
    unfold takeRead
    rw [← hr]
    dsimp only
    rw [hread, repairRange_of_clean hclean]
  have hcounted : NoReturn (s.doneWith fid) ((s.doneWith fid).count .GNS_NW_READS_count 0 never) := .of_fldsOut (.count _ _ _ _)
  have hend := Sends.endReq (s := (s.doneWith fid).count .GNS_NW_READS_count 0 never) { q with nwAny := a, nwAll := b, copy2 := c } bs
  rw [htake]
  refine ⟨(hcounted.trans (.endReq _ _)).gone fid (hn.trans_le (nextFrame_doneWith fid)) (frame_doneWith fid), ?_, ?_, ?_, ?_⟩
  · rw [hend.hbm, count_hbm, hbm_doneWith]
  · rw [hend.updates, count_updates, updates_doneWith]
  · rw [fld_endReq_read (r := { q with nwAny := a, nwAll := b, copy2 := c }) hq hop,
      fld_count_ne _ _ _ _ _ _ (by simp [counts]) (by decide), fld_doneWith (by simp [handling, counts])]
  · rw [hend.fld_eq (by simp [answering, handling, counts]), fld_count_self _ _ _ _ (by simp [counts]) rfl,
      fld_doneWith (by simp [handling, counts])]

theorem takeReq_read (hop : q.opcode = 0x40) (payload : List Byte) : s.takeReq fid q payload = s.takeRead fid q := if_pos hop

/-! ### Responses to the spine (R282, R294, R295) -/

/-- A response answers a WRITE of the spine's own by the req_id that it carries. -/
theorem writeResp_eq (hf : s.frame? fid = some r) (hd : r.dest = .gneiss) (hw : r.whole = true) (hc : r.chkFail = false)
    (hop : (xHeader r.frame.data).opcode = 0x61) {id : Nat} (hid : id = bits (beAt r.frame.data 16 12) 31 16) :
    (s.ownWrites.find id = none → s.writeResp fid = (s.doneWith fid).count .GNS_STRAY_count 0 1) ∧
    (∀ w k, s.ownWrites.find id = some w → w.kind = .notify k → bits (beAt r.frame.data 16 12) 47 40 = 0 →
      s.writeResp fid = { s.doneWith fid with ownWrites := (s.doneWith fid).ownWrites.del id }) := by
  subst hid
  have hown : (s.doneWith fid).ownWrites = s.ownWrites := ownWrites_doneWith
  unfold writeResp
  rw [hf]
  dsimp only
  rw [if_pos (by simp [hd, hw, hop]), if_neg (by simp [hc]), hown]
  refine ⟨fun hnone => by rw [hnone], fun w k hsome hk hst => ?_⟩
  simp only [hsome, hk, hst]

theorem strayResp_eq (hf : s.frame? fid = some r) (hd : r.dest = .gneiss) (hw : r.whole = true) (hc : r.chkFail = false)
    (hop : (xHeader r.frame.data).opcode = op) : s.strayResp fid op = (s.doneWith fid).count .GNS_STRAY_count 0 1 := by
  unfold strayResp
  rw [hf]
  dsimp only
  rw [if_pos (by simp [hd, hw, hop]), if_neg (by simp [hc])]

/-- A WRITE of the spine's own that is sent again has one more try. -/
theorem ownWrites_respTimeout {id : Nat} {w : OwnWrite} (h : s.ownWrites.find id = some w)
    (ht : w.tries < s.fld .GNS_CKP_CFG_retries 0) :
    (s.respTimeout id).ownWrites.find id = some { w with tries := w.tries + 1 } := by
  unfold respTimeout
  rw [h]
  dsimp only
  rw [if_pos ht, resendOwn, (Sends.sendTo _ _ _ _).ownWrites]
  exact Tab.find_put_self _ _ _

/-! ### The bytes and the metadata of a line -/

/-- Writes at keys that differ: each is read at its key. -/
theorem get_foldl_set_mem {β : Type} (g : β → Nat) (w : β → Byte) (bs : List β) (t : Tab Byte) (hn : (bs.map g).Nodup) {b : β}
    (hb : b ∈ bs) : (bs.foldl (fun (t : Tab Byte) b => t.set 0 (g b) (w b)) t).get 0 (g b) = w b := by
  induction bs generalizing t with
  | nil => exact absurd hb List.not_mem_nil
  | cons c bs ih =>
    rw [List.map_cons, List.nodup_cons] at hn
    rw [List.foldl_cons]
    rcases List.mem_cons.mp hb with rfl | hb
    · rw [get_foldl_set_ne _ _ _ _ _ fun c hc h => hn.1 (List.mem_map.mpr ⟨c, hc, h.symm⟩), Tab.get_set _ _ _ _ _ _ fun _ => rfl,
        if_pos rfl]
    · exact ih _ hn.2 hb

/-- A line reads as what was written to it. -/
theorem lineBytes_putBytes_self {bs : List Byte} (h : bs.length = 256) (x : Nat) : (s.putBytes x bs).lineBytes x = bs := by
  refine List.ext_getElem (by simp [lineBytes, h]) fun k hk _ => ?_
  have hlt : k < 256 := by simpa [lineBytes] using hk
  have hkeys : (((List.range 256).zip bs).map fun kb => 256 * x + kb.1).Nodup := by
    rw [show (fun kb : Nat × Byte => 256 * x + kb.1) = (fun k => 256 * x + k) ∘ Prod.fst from rfl, ← List.map_map,
      List.map_fst_zip (by simp [h])]
    exact List.nodup_range.map fun a b hab => Nat.add_left_cancel hab
  have hmem : (k, bs[k]) ∈ (List.range 256).zip bs :=
    List.mem_iff_getElem.mpr ⟨k, by simp [h, hlt], by simp⟩
  have hget : (s.putBytes x bs).hbm.get 0 (256 * x + k) = bs[k] :=
    get_foldl_set_mem (fun kb : Nat × Byte => 256 * x + kb.1) (fun kb => kb.2) _ s.hbm hkeys hmem
  simpa [lineBytes] using hget

theorem lineBytes_putBytes_ne {x y : Nat} (h : y ≠ x) (bs : List Byte) : (s.putBytes x bs).lineBytes y = s.lineBytes y := by
  unfold lineBytes
  refine List.map_congr_left fun k hk => putBytes_get_ne _ _ _ _ ?_
  rw [List.mem_range] at hk
  omega

theorem lineBytes_of_hbm (h : t.hbm = s.hbm) (x : Nat) : t.lineBytes x = s.lineBytes x := by simp [lineBytes, h]

theorem length_lineBytes (x : Nat) : (s.lineBytes x).length = 256 := by simp [lineBytes]

@[simp] theorem lineBytes_putMeta (x y : Nat) (m : LineMeta) : (s.putMeta x m).lineBytes y = s.lineBytes y := rfl

/-! ### Stale blocks (R275) -/

/-- Line `k` of block `b` is copied from block `o`; a line of a retired row stays so (R451). -/
def copyLine (b o : Nat) (s : Blk) (k : Nat) : Blk :=
  (s.putBytes (16 * b + k) (s.lineBytes (16 * o + k))).putMeta (16 * b + k)
    { s.meta_ (16 * o + k) with
      poison := (s.meta_ (16 * o + k)).poison || (s.meta_ (16 * b + k)).retired, retired := (s.meta_ (16 * b + k)).retired }

theorem lineBytes_copyLine (b o k y : Nat) : (s.copyLine b o k).lineBytes y =
    if y = 16 * b + k then s.lineBytes (16 * o + k) else s.lineBytes y := by
  unfold copyLine
  rw [lineBytes_putMeta]
  split
  next h => rw [h, lineBytes_putBytes_self (length_lineBytes _)]
  next h => exact lineBytes_putBytes_ne h _

/-- Lines copied from another block read as there; every other line reads as before. -/
theorem lineBytes_copyLines {b o : Nat} (_h : o ≠ b) {n : Nat} (hn : n ≤ 16) (y : Nat) :
    ((List.range n).foldl (copyLine b o) s).lineBytes y =
      if y / 16 = b ∧ y % 16 < n then s.lineBytes (16 * o + y % 16) else s.lineBytes y := by
  induction n generalizing y with
  | zero => simp
  | succ n ih =>
    have hsrc : ((List.range n).foldl (copyLine b o) s).lineBytes (16 * o + n) = s.lineBytes (16 * o + n) := by
      rw [ih (by omega), if_neg (by omega)]
    rw [List.range_succ, List.foldl_append, List.foldl_cons, List.foldl_nil, lineBytes_copyLine, hsrc]
    by_cases hy : y = 16 * b + n
    · rw [if_pos hy, if_pos (by omega), show y % 16 = n by omega]
    · rw [if_neg hy, ih (by omega)]
      exact if_congr (by omega) rfl rfl

/-- Block `b` is copied from block `o`. -/
def copyBlock (s : Blk) (b o : Nat) : Blk := (List.range 16).foldl (copyLine b o) s

theorem lineBytes_copyBlock {b o k : Nat} (h : o ≠ b) (hk : k < 16) :
    (s.copyBlock b o).lineBytes (16 * b + k) = s.lineBytes (16 * o + k) := by
  unfold copyBlock
  rw [lineBytes_copyLines h le_rfl, if_pos (by omega), show (16 * b + k) % 16 = k by omega]

/-- The one stale block of a stack powered again is copied from the live copy. -/
theorem staleCopied_single {st b o : Nat} {kv : Nat × RegionRec} (hup : s.stackUp st = true)
    (hb : (s.stale.keys.filter fun b => b % 12 = st) = [b])
    (hreg : s.regions.find? (fun kv => kv.2.valid && kv.2.dup && kv.2.base ≤ b && b < kv.2.base + kv.2.blocks) = some kv)
    (ho : o = if (b - kv.2.base) % 12 < 6 then b + 6 else b - 6) (hlive : s.liveLine (16 * o) = true) :
    s.staleCopied st = { s.copyBlock b o with stale := s.stale.set false b false } := by
  unfold staleCopied
  rw [if_pos hup, hb, List.foldl_cons, List.foldl_nil, hreg]
  dsimp only
  rw [← ho, if_pos hlive]
  rfl

end Blk

open Blk

/-! ### The commands -/

/-- The commands on a request to the store differ in the opcode that they take alone. -/
theorem exec_of_memory {fid op : Nat} {i : Instr} (h : (op, i) ∈ [(0x40, Instr.read fid), (0x41, Instr.write fid),
    (0x48, Instr.add fid), (0x49, Instr.fetchAdd fid), (0x4A, Instr.swap fid), (0x4B, Instr.cas fid), (0x4C, Instr.fetchOr fid),
    (0x4D, Instr.fetchAnd fid)]) (s : State) : exec i s = run (·.memRequest fid op) s := by
  fin_cases h <;> rfl

variable {s : State} {fid op : Nat} {r : FrameRec}

theorem runs_read {i : Instr} {rn off len never : Nat} {bs : List Byte} {a b c : Bool} (hi : exec i s = run (·.memRequest fid op) s)
    (h : s.blk.Ready fid op r) (hn : fid < s.blk.nextFrame) (hst : s.blk.statusOf r = 0) (hop : op = 0x40)
    (hr : (rn, off, len) = Blk.reqRange (s.blk.memReqOf r)) (hread : s.blk.readRange rn off len = .ok bs a b c never)
    (hclean : ∀ n ∈ Blk.linesOf off len, ∀ x ∈ (s.blk.region rn).copies n, (s.blk.meta_ x).poison = false) :
    Runs i s fun t => t.blk.frame? fid = none ∧ t.blk.hbm = s.blk.hbm ∧ t.blk.updates = s.blk.updates ∧
      t.blk.fld .GNS_REQ_OK_count 0 = min (s.blk.fld .GNS_REQ_OK_count 0 + 1) (2 ^ 64 - 1) ∧
      t.blk.fld .GNS_NW_READS_count 0 = min (s.blk.fld .GNS_NW_READS_count 0 + never) (2 ^ 64 - 1) := by
  have hop' : (s.blk.memReqOf r).opcode = 0x40 := h.opcode.trans hop
  refine runs_of_eq hi ((memRequest_of_passed h hst).trans ?_) (takeRead_leaves hn hop' rfl hr hread hclean)
  exact (congrArg (Blk.takeReq · fid _ _) (noteOrder_of_ne (by simp [hop']))).trans (takeReq_read hop' _)

theorem runs_stray {i : Instr} {g : Blk → Blk} (hi : exec i s = run g s)
    (hg : g s.blk = (s.blk.doneWith fid).count .GNS_STRAY_count 0 1) :
    Runs i s fun t => t.blk.frame? fid = none ∧ t.blk.hbm = s.blk.hbm ∧
      t.blk.fld .GNS_STRAY_count 0 = min (s.blk.fld .GNS_STRAY_count 0 + 1) (2 ^ 64 - 1) := by
  refine runs_of_eq hi hg ⟨?_, ?_, ?_⟩
  · exact (KeepsGone.of_fldsOut (.count _ _ _ _)).gone fid (frame_doneWith fid)
  · exact (count_hbm _ _ _ _).trans hbm_doneWith
  · exact (fld_count_self _ _ _ _ (by simp [counts]) rfl).trans (by rw [fld_doneWith (by simp [handling, counts])])

theorem runs_staleBlocksCopied {stack : Fin 12} {b o : Nat} {kv : Nat × RegionRec} (hup : s.blk.stackUp stack = true)
    (hb : (s.blk.stale.keys.filter fun b => b % 12 = stack.val) = [b])
    (hreg : s.blk.regions.find? (fun kv => kv.2.valid && kv.2.dup && kv.2.base ≤ b && b < kv.2.base + kv.2.blocks) = some kv)
    (ho : o = if (b - kv.2.base) % 12 < 6 then b + 6 else b - 6) (hne : o ≠ b) (hlive : s.blk.liveLine (16 * o) = true) :
    Runs (.staleBlocksCopied stack) s fun t => t.blk.stale.get false b = false ∧
      ∀ k < 16, t.blk.lineBytes (16 * b + k) = s.blk.lineBytes (16 * o + k) := by
  have hcopied := staleCopied_single hup hb hreg ho hlive
  have hstale : (s.blk.staleCopied stack).stale.get false b = false := by
    rw [hcopied, Tab.get_set _ _ _ _ _ _ fun _ => rfl, if_pos rfl]
  have hhbm : (s.blk.staleCopied stack).hbm = (s.blk.copyBlock b o).hbm := by rw [hcopied]
  exact runs_of_eq (g := (·.staleCopied stack.val)) rfl rfl
    ⟨hstale, fun k hk => (lineBytes_of_hbm hhbm _).trans (lineBytes_copyBlock hne hk)⟩

/-- Settles O23: a request by the checks that it passes, a response by the WRITE that it answers, and the stale blocks of a stack. -/
theorem memoryRequests : Obligations.MemoryRequests := by
  unfold Obligations.MemoryRequests
  refine ⟨?_, ?_, ?_, ?_⟩
  · intro s fid op st r i q h hmem hf hn hdest hwhole hgood hh hop hfirst hq hcross hst
    subst hh hq hst
    have hready : s.blk.Ready fid op r := ⟨hf, hdest, hwhole, hgood, hop, hfirst, hcross⟩
    refine ⟨fun hbad => ?_, fun rn off len bs a b c never hok hread hr hmode hrange hclean => ?_⟩
    · exact runs_of_eq (exec_of_memory hmem s) rfl (memRequest_of_failed hready hn hbad)
    · exact runs_read (exec_of_memory hmem s) hready hn hok hread hr hrange hclean
  · intro s fid r hf hd hw hc
    refine ⟨fun id k w hop hid hst hfind hk => ?_, fun i hi => ?_⟩
    · subst hid
      exact runs_of_eq (g := (·.writeResp fid)) rfl ((writeResp_eq hf hd hw hc hop rfl).2 w k hfind hk hst)
        ⟨frame_doneWith fid, Tab.find_del_self _ _⟩
    · obtain ⟨hop, rfl, hnone⟩ | ⟨hop, rfl⟩ | ⟨hop, rfl⟩ := hi
      · exact runs_stray (g := (·.writeResp fid)) rfl ((writeResp_eq hf hd hw hc hop rfl).1 hnone)
      · exact runs_stray (g := (·.strayResp fid 0x60)) rfl (strayResp_eq hf hd hw hc hop)
      · exact runs_stray (g := (·.strayResp fid 0x68)) rfl (strayResp_eq hf hd hw hc hop)
  · exact fun s id w hw ht => runs_of_eq (g := (·.respTimeout id.toNat)) rfl rfl (ownWrites_respTimeout hw ht)
  · exact fun s stack b o kv hup hb hreg ho hne hlive => runs_staleBlocksCopied hup hb hreg ho hne hlive

end Sys2Proof.Machine
end

section
/-!
PROOF. Stores and atomics (R258, R265, R270 to R273, R275, R276): the entries that a request takes in the queues of its lines' dies; the waits
of an ordered store; a store that goes to its gateway.
-/

namespace Sys2Proof.Machine

namespace Blk

variable {s t u : Blk} {fid op : Nat} {r : FrameRec} {q : MemReq} {p : Fld → Prop}

/-! ### The update queues (R272, R283) -/

theorem updQueue_putUpdates (d e : Nat) (l : List UpdEntry) :
    (s.putUpdates d l).updQueue e = if e = d then l else s.updQueue e := by
  unfold putUpdates updQueue
  simp only [setFld_updates]
  exact Tab.get_set _ _ _ _ _ _ fun _ => rfl

theorem putUpdates_kept (d : Nat) (l : List UpdEntry) :
    Sends (fun f => f = .GNS_CQ_STATUS_used ∨ f = .GNS_CQ_STATUS_peak) { s with updates := s.updates.set [] d l } (s.putUpdates d l) :=
  .of_within ((Within.setFld _ _ _ _ (.inl rfl)).trans (Within.setFld _ _ _ _ (.inr rfl)))

/-- Those of the entries `es` that go to die `d` join its queue. -/
def enqueue (es : List (Nat × UpdEntry)) (s : Blk) (d : Nat) : Blk :=
  if (es.filter fun e => e.1 = d).length = 0 then s
  else s.putUpdates d (s.updQueue d ++ (es.filter fun e => e.1 = d).map Prod.snd)

theorem updQueue_enqueue (es : List (Nat × UpdEntry)) (d e : Nat) : (s.enqueue es d).updQueue e =
    if e = d then s.updQueue e ++ (es.filter fun x => x.1 = e).map Prod.snd else s.updQueue e := by
  unfold enqueue
  split
  next h =>
    split
    next he =>
      subst he
      rw [List.length_eq_zero_iff.mp h, List.map_nil, List.append_nil]
    · rfl
  · rw [updQueue_putUpdates]
    split
    next he => rw [he]
    · rfl

theorem enqueue_kept (es : List (Nat × UpdEntry)) (d : Nat) : (s.enqueue es d).hbm = s.hbm ∧ (s.enqueue es d).nextReq = s.nextReq := by
  unfold enqueue
  split
  · exact ⟨rfl, rfl⟩
  · exact ⟨(putUpdates_kept _ _).hbm, (putUpdates_kept _ _).nextReq⟩

theorem enqueues_kept (es : List (Nat × UpdEntry)) (ds : List Nat) :
    (ds.foldl (enqueue es) s).hbm = s.hbm ∧ (ds.foldl (enqueue es) s).nextReq = s.nextReq := by
  induction ds generalizing s with
  | nil => exact ⟨rfl, rfl⟩
  | cons d ds ih => exact ⟨ih.1.trans (enqueue_kept es d).1, ih.2.trans (enqueue_kept es d).2⟩

theorem updQueue_enqueues (es : List (Nat × UpdEntry)) {ds : List Nat} (h : ds.Nodup) {e : Nat} (he : e ∈ ds) :
    (ds.foldl (enqueue es) s).updQueue e = s.updQueue e ++ (es.filter fun x => x.1 = e).map Prod.snd := by
  have hother : ∀ (ds : List Nat) (v : Blk), e ∉ ds → (ds.foldl (enqueue es) v).updQueue e = v.updQueue e := fun ds => by
    induction ds with
    | nil => exact fun _ _ => rfl
    | cons d ds ih =>
      intro v hd
      rw [List.mem_cons, not_or] at hd
      rw [List.foldl_cons, ih _ hd.2, updQueue_enqueue, if_neg hd.1]
  induction ds generalizing s with
  | nil => exact absurd he List.not_mem_nil
  | cons d ds ih =>
    rw [List.nodup_cons] at h
    rw [List.foldl_cons]
    rcases List.mem_cons.mp he with rfl | he
    · rw [hother _ _ h.1, updQueue_enqueue, if_pos rfl]
    · rw [ih h.2 he, updQueue_enqueue, if_neg fun hd : e = d => h.1 (hd ▸ he)]

/-! ### A store or atomic takes its entries (R265, R271, R272) -/

@[simp] theorem nextReq_doneWith : (s.doneWith fid).nextReq = s.nextReq := by
  obtain ⟨_, _, h⟩ := Sends.doneWith_kept (s := s) fid
  exact h.nextReq

@[simp] theorem gateways_doneWith : (s.doneWith fid).gateways = s.gateways := by
  obtain ⟨_, _, h⟩ := Sends.doneWith_kept (s := s) fid
  exact h.gateways

/-- A store or atomic that does not wait, of a region that no gateway serves and all of whose lines are live, is queued. -/
theorem takeReq_of_live {rn off len : Nat} (hop : q.opcode ≠ 0x40) (hr : (rn, off, len) = reqRange q) (hw : s.mustWait fid = false)
    (hm : (s.region rn).mode ≠ 3) (hl : ∀ n ∈ linesOf off len, ∃ x ∈ (s.region rn).copies n, s.liveLine x = true)
    (payload : List Byte) : s.takeReq fid q payload = s.takeUpdate fid q payload := by
  have hany : ((linesOf off len).any fun n => !(((s.region rn).copies n).any fun x => s.liveLine x)) = false := by
    rw [List.any_eq_false]
    intro n hn
    obtain ⟨x, hx, hlx⟩ := hl n hn
    simpa using ⟨x, hx, hlx⟩
  unfold takeReq
  rw [← hr]
  dsimp only
  rw [if_neg hop, if_neg (by simp [hw]), if_neg hm, if_neg (by simp [hany])]

theorem takeReq_of_mustWait (hop : q.opcode ≠ 0x40) (hw : s.mustWait fid = true) (payload : List Byte) :
    s.takeReq fid q payload = s := by
  unfold takeReq
  dsimp only
  rw [if_neg hop, if_pos hw]

theorem takeReq_of_gateway {rn off len : Nat} (hop : q.opcode ≠ 0x40) (hr : (rn, off, len) = reqRange q) (hw : s.mustWait fid = false)
    (hm : (s.region rn).mode = 3) (payload : List Byte) :
    s.takeReq fid q payload = (s.doneWith fid).passThrough (s.region rn).gw q off payload := by
  unfold takeReq
  rw [← hr]
  dsimp only
  rw [if_neg hop, if_neg (by simp [hw]), if_pos hm]

/-- With room for its entries in every die's queue, a store or atomic takes them, and its frame is gone. -/
theorem takeUpdate_leaves {payload : List Byte}
    (hfree : ∀ k < 4, (s.entriesOf q s.nextReq payload).filter (fun e => e.1 = k) ≠ [] →
      s.entriesFree k q.tile ((s.entriesOf q s.nextReq payload).filter fun e => e.1 = k).length = true) :
    (s.takeUpdate fid q payload).frame? fid = none ∧ (s.takeUpdate fid q payload).hbm = s.hbm ∧
      (s.takeUpdate fid q payload).nextReq = s.nextReq + 1 ∧
      ∀ d < 4, (s.takeUpdate fid q payload).updQueue d =
        s.updQueue d ++ ((s.entriesOf q s.nextReq payload).filter fun e => e.1 = d).map Prod.snd := by
  generalize hes : s.entriesOf q s.nextReq payload = es at hfree
  have hnone : (List.range 4).find? (fun d => (es.filter fun e => e.1 = d).length ≠ 0 &&
      !s.entriesFree d q.tile (es.filter fun e => e.1 = d).length) = none := by
    rw [List.find?_eq_none]
    intro d hd
    by_cases h : es.filter (fun e => e.1 = d) = []
    · simp [h]
    · simp [hfree d (List.mem_range.mp hd) h]
  obtain ⟨v, hv, hq, hn, hh⟩ : ∃ v : Blk, s.takeUpdate fid q payload = ((List.range 4).foldl (enqueue es) v).doneWith fid ∧
      v.updates = s.updates ∧ v.nextReq = s.nextReq + 1 ∧ v.hbm = s.hbm := by
    refine ⟨{ s with nextReq := s.nextReq + 1, requests := s.requests.put s.nextReq { q with remaining := es.length, nwAll := true },
                     ordTaken := s.ordTaken.set 0 q.bucket (s.ordTaken.get 0 q.bucket + 1) }, ?_, rfl, rfl, rfl⟩
    unfold takeUpdate
    dsimp only
    rw [hes, hnone]
    rfl
  obtain ⟨hkh, hkn⟩ := enqueues_kept (s := v) es (List.range 4)
  rw [hv]
  refine ⟨frame_doneWith fid, by rw [hbm_doneWith, hkh, hh], by rw [nextReq_doneWith, hkn, hn], fun d hd => ?_⟩
  have hsame : v.updQueue d = s.updQueue d := by rw [updQueue, hq, updQueue]
  rw [updQueue, updates_doneWith, ← updQueue, updQueue_enqueues es List.nodup_range (List.mem_range.mpr hd), hsame]

/-- The order that a request notes does not turn on which requests wait for entries. -/
theorem noteOrder_memWait (w : List Nat) : ({ s with memWait := w } : Blk).noteOrder fid q = { s.noteOrder fid q with memWait := w } := by
  unfold noteOrder
  split <;> rfl

/-- A request without an entry that requests again does what it would at its first try (R272). -/
theorem memRetry_eq (h : s.Ready fid op r) (hw : s.memWait.contains fid = true) :
    s.memRetry fid = ({ s with memWait := s.memWait.filter fun f => f ≠ fid } : Blk).memRequest fid op := by
  unfold memRetry
  rw [if_pos hw, h.frame, ← h.opcode]

/-- Fewer requests that wait for entries hold no frame back that was not held back before. -/
theorem Ready.of_memWait (h : s.Ready fid op r) : ({ s with memWait := s.memWait.filter fun f => f ≠ fid } : Blk).Ready fid op r where
  frame := h.frame
  dest := h.dest
  whole := h.whole
  good := h.good
  opcode := h.opcode
  crossed := h.crossed
  first := by
    have hfirst := h.first
    unfold heldBack at hfirst ⊢
    rw [List.any_eq_false] at hfirst ⊢
    intro f hf
    refine hfirst f ?_
    simp only [List.mem_append, List.mem_filter] at hf ⊢
    exact hf.imp_left fun hw => hw.imp_left And.left

/-- A request that has passed its checks takes its entries, at its first try or requesting again. -/
theorem memRequest_queues {rn off len : Nat} (h : s.Ready fid op r) (hst : s.statusOf r = 0) (hop : op ≠ 0x40)
    (hr : (rn, off, len) = reqRange (s.memReqOf r)) (hm : (s.region rn).mode ≠ 3)
    (hw : (s.noteOrder fid (s.memReqOf r)).mustWait fid = false)
    (hl : ∀ n ∈ linesOf off len, ∃ x ∈ (s.region rn).copies n, s.liveLine x = true)
    (hfree : ∀ k < 4, (s.entriesOf (s.memReqOf r) s.nextReq (payloadOf r)).filter (fun e => e.1 = k) ≠ [] →
      s.entriesFree k (s.memReqOf r).tile
        ((s.entriesOf (s.memReqOf r) s.nextReq (payloadOf r)).filter fun e => e.1 = k).length = true) :
    (s.memRequest fid op).frame? fid = none ∧ (s.memRequest fid op).hbm = s.hbm ∧ (s.memRequest fid op).nextReq = s.nextReq + 1 ∧
      ∀ d < 4, (s.memRequest fid op).updQueue d = s.updQueue d ++
        ((s.entriesOf (s.memReqOf r) s.nextReq (payloadOf r)).filter fun e => e.1 = d).map Prod.snd := by
  have hop' : (s.memReqOf r).opcode ≠ 0x40 := fun h' => hop (h.opcode.symm.trans h')
  obtain ⟨o, ho⟩ := noteOrder_eq s fid (s.memReqOf r)
  rw [memRequest_of_passed h hst]
  rw [ho] at hw ⊢
  rw [takeReq_of_live (s := { s with ordWait := o }) hop' hr hw hm hl]
  exact takeUpdate_leaves (s := { s with ordWait := o }) hfree

/-- One that requests again takes its entries as at the first try. -/
theorem memRetry_queues {rn off len : Nat} (h : s.Ready fid op r) (hwaits : s.memWait.contains fid = true) (hst : s.statusOf r = 0)
    (hop : op ≠ 0x40) (hr : (rn, off, len) = reqRange (s.memReqOf r)) (hm : (s.region rn).mode ≠ 3)
    (hw : (s.noteOrder fid (s.memReqOf r)).mustWait fid = false)
    (hl : ∀ n ∈ linesOf off len, ∃ x ∈ (s.region rn).copies n, s.liveLine x = true)
    (hfree : ∀ k < 4, (s.entriesOf (s.memReqOf r) s.nextReq (payloadOf r)).filter (fun e => e.1 = k) ≠ [] →
      s.entriesFree k (s.memReqOf r).tile
        ((s.entriesOf (s.memReqOf r) s.nextReq (payloadOf r)).filter fun e => e.1 = k).length = true) :
    (s.memRetry fid).frame? fid = none ∧ (s.memRetry fid).hbm = s.hbm ∧ (s.memRetry fid).nextReq = s.nextReq + 1 ∧
      ∀ d < 4, (s.memRetry fid).updQueue d = s.updQueue d ++
        ((s.entriesOf (s.memReqOf r) s.nextReq (payloadOf r)).filter fun e => e.1 = d).map Prod.snd := by
  rw [memRetry_eq h hwaits]
  refine memRequest_queues (s := { s with memWait := s.memWait.filter fun f => f ≠ fid }) h.of_memWait hst hop hr hm ?_ hl hfree
  exact (congrArg (Blk.mustWait · fid) (noteOrder_memWait _)).trans hw

/-! ### An ordered store (R271) -/

/-- An ordered store that finds predecessors of its bucket pending notes their count and waits. -/
theorem memRequest_waits (h : s.Ready fid op r) (hst : s.statusOf r = 0) (hop : op = 0x41) (hnone : s.ordWait.find fid = none)
    (hbit : (s.memReqOf r).area.testBit 2 = true)
    (hlt : s.ordApplied.get 0 (s.memReqOf r).bucket < s.ordTaken.get 0 (s.memReqOf r).bucket) :
    s.memRequest fid op =
      { s with ordWait := s.ordWait.put fid ((s.memReqOf r).bucket, s.ordTaken.get 0 (s.memReqOf r).bucket) } := by
  have hop' : (s.memReqOf r).opcode = 0x41 := h.opcode.trans hop
  have hnote : s.noteOrder fid (s.memReqOf r) =
      { s with ordWait := s.ordWait.put fid ((s.memReqOf r).bucket, s.ordTaken.get 0 (s.memReqOf r).bucket) } :=
    if_pos (by simp [hop', hbit, hnone])
  rw [memRequest_of_passed h hst, hnote]
  refine takeReq_of_mustWait (by simp [hop']) ?_ _
  simp [mustWait, Tab.find_put_self, hlt]

/-- An ordered store goes on waiting while predecessors are pending. -/
theorem memRequest_goesOnWaiting {b goal : Nat} (h : s.Ready fid op r) (hst : s.statusOf r = 0) (hop : op ≠ 0x40)
    (hsome : s.ordWait.find fid = some (b, goal)) (hlt : s.ordApplied.get 0 b < goal) : s.memRequest fid op = s := by
  have hnote : s.noteOrder fid (s.memReqOf r) = s := if_neg (by simp [hsome])
  rw [memRequest_of_passed h hst, hnote]
  exact takeReq_of_mustWait (fun h' => hop (h.opcode.symm.trans h')) (by simp [mustWait, hsome, hlt]) _

/-- An ordered store whose wait runs out is answered with ORDER_TIMEOUT. -/
theorem orderTimeout_eq (hf : s.frame? fid = some r) (hw : s.mustWait fid = true) :
    s.orderTimeout fid = (s.doneWith fid).endReq { s.memReqOf r with status := 0xF } [] := by
  obtain ⟨w, hsome⟩ : ∃ w, s.ordWait.find fid = some w := by
    cases h : s.ordWait.find fid with
    | none => simp [mustWait, h] at hw
    | some w => exact ⟨w, rfl⟩
  unfold orderTimeout
  rw [hsome, hf]
  exact if_pos hw

/-! ### A store to a pass-through region (R276) -/

theorem Sends.with_gateways (h : Sends p s t) (w : Tab GwRec) : Sends p { s with gateways := w } { t with gateways := w } := by
  refine ⟨?_, h.2⟩
  have ht := h.1
  rw [ht]

theorem Sends.gwEmit (g : Nat) (x : GwPacket) : Sends handling s (s.gwEmit g x) := by
  have hspray := Sends.spray (s := s) x.tile
  unfold Blk.gwEmit
  dsimp only
  split
  · exact refl _ s
  · split
    · exact of_handled (.emitFrame _ _ _ _ _)
    · split
      next heq => exact (congrArg Prod.snd heq ▸ hspray _ _ _ _ _ _ :)
      next heq => exact (congrArg Prod.snd heq ▸ hspray _ _ _ _ _ _ :).trans (of_handled (.emitFrame _ _ _ _ _))
    · exact refl _ s

theorem gateway_putGateway (g h : Nat) (x : GwRec) : (s.putGateway g x).gateway h = if h = g then x else s.gateway h :=
  Tab.get_set _ _ _ _ _ _ fun _ => rfl

/-- Packets of a gateway sent: of the store's state only the gateways may differ, and no store of theirs is ended. -/
def Posts (s t : Blk) : Prop :=
  Sends handling { s with gateways := t.gateways } t ∧ ∀ g, (t.gateway g).stores = (s.gateway g).stores

theorem Posts.refl (s : Blk) : Posts s s := ⟨.refl _ s, fun _ => rfl⟩

theorem Posts.trans (h : Posts s t) (k : Posts t u) : Posts s u :=
  ⟨(h.1.with_gateways u.gateways).trans k.1, fun g => (k.2 g).trans (h.2 g)⟩

theorem Sends.gwFrame (g tile psn opcode va total : Nat) (first : Bool) (payload : List Byte) :
    Sends handling s (s.gwFrame g tile psn opcode va total first payload).2 := (free 160).trans (free 32)

theorem Sends.gateway_eq (h : Sends p s t) (g : Nat) : t.gateway g = s.gateway g := by rw [gateway, h.gateways, gateway]

theorem Posts.of_sends (h : Sends handling s t) : Posts s t := by
  refine ⟨?_, fun g => by rw [h.gateway_eq]⟩
  rw [h.gateways]
  exact h

theorem Posts.putGateway {g : Nat} {x : GwRec} (h : x.stores = (s.gateway g).stores) : Posts s (s.putGateway g x) := by
  refine ⟨.refl _ _, fun k => ?_⟩
  rw [gateway_putGateway]
  split
  next he => rw [h, he]
  · rfl

theorem Posts.gwPacket (g tile va total k n : Nat) (job : Bool) (payload : List Byte) :
    Posts s (s.gwPacket g tile va total k n job payload) := by
  unfold Blk.gwPacket
  dsimp only
  generalize (if n = 1 then 0x0A else if k = 0 then 0x06 else if k + 1 = n then 0x08 else 0x07) = opcode
  have hframe := Sends.gwFrame (s := s) g tile (s.gateway g).psn opcode va total (k = 0) payload
  generalize s.gwFrame g tile (s.gateway g).psn opcode va total (k = 0) payload = fv at hframe
  obtain ⟨f, v⟩ := fv
  have hstores : ∀ x : GwRec, x.stores = (s.gateway g).stores → Posts s (v.putGateway g x) := fun x hx =>
    (of_sends hframe).trans (putGateway (by rw [hx, hframe.gateway_eq]))
  split
  · exact hstores _ rfl
  · refine (hstores _ ?_).trans (of_sends (.gwEmit _ _))
    rfl

theorem Posts.gwWrite (g tile va : Nat) (job : Bool) (bs : List Byte) : Posts s (s.gwWrite g tile va job bs) := by
  unfold Blk.gwWrite
  dsimp only
  generalize List.range _ = ks
  generalize 128 * 2 ^ (s.gateway g).pmtu = mtu
  induction ks generalizing s with
  | nil => exact refl s
  | cons k ks ih => exact (gwPacket _ _ _ _ _ _ _ _).trans ih

/-- A pass-through store is noted with its gateway, behind those before it. -/
theorem passThrough_eq {g off : Nat} {bs : List Byte} (h : s.gwLive g = true) :
    ∃ v, Posts { s with ordTaken := s.ordTaken.set 0 q.bucket (s.ordTaken.get 0 q.bucket + 1) } v ∧ s.passThrough g q off bs =
      v.putGateway g { v.gateway g with stores := (v.gateway g).stores ++ [⟨q, psnAdd (v.gateway g).psn (2 ^ 24 - 1)⟩] } :=
  ⟨_, .gwWrite _ _ _ _ _, by unfold passThrough; rw [if_neg (by simp [h])]⟩

theorem passThrough_leaves {g off : Nat} {bs : List Byte} (h : s.gwLive g = true) : (s.passThrough g q off bs).hbm = s.hbm ∧
    ∃ x, ((s.passThrough g q off bs).gateway g).stores = (s.gateway g).stores ++ [x] ∧ x.req = q := by
  obtain ⟨v, ⟨hsent, hstores⟩, hv⟩ := passThrough_eq (q := q) (off := off) (bs := bs) h
  have hold : (v.gateway g).stores = (s.gateway g).stores := hstores g
  rw [hv, gateway_putGateway, if_pos rfl]
  exact ⟨hsent.hbm, ⟨q, _⟩, by rw [hold], rfl⟩

/-- A store to a pass-through region, of a gateway that takes packets, goes to it. -/
theorem memRequest_passesOn {rn off len : Nat} (h : s.Ready fid op r) (hst : s.statusOf r = 0) (hop : op ≠ 0x40)
    (hr : (rn, off, len) = reqRange (s.memReqOf r)) (hm : (s.region rn).mode = 3)
    (hw : (s.noteOrder fid (s.memReqOf r)).mustWait fid = false) (hlive : s.gwLive (s.region rn).gw = true) :
    (s.memRequest fid op).hbm = s.hbm ∧ ∃ x, ((s.memRequest fid op).gateway (s.region rn).gw).stores =
      (s.gateway (s.region rn).gw).stores ++ [x] ∧ x.req = s.memReqOf r := by
  have hop' : (s.memReqOf r).opcode ≠ 0x40 := fun h' => hop (h.opcode.symm.trans h')
  obtain ⟨o, ho⟩ := noteOrder_eq s fid (s.memReqOf r)
  rw [memRequest_of_passed h hst]
  rw [ho] at hw ⊢
  rw [takeReq_of_gateway (s := { s with ordWait := o }) hop' hr hw hm]
  obtain ⟨v, hv, hgws, hhbm⟩ : ∃ v : Blk, v = ({ s with ordWait := o } : Blk).doneWith fid ∧
      v.gateways = s.gateways ∧ v.hbm = s.hbm :=
    ⟨_, rfl, gateways_doneWith, hbm_doneWith⟩
  have hgw : ∀ g, v.gateway g = s.gateway g := fun g => by rw [gateway, hgws, gateway]
  obtain ⟨hkept, x, hx, hq⟩ := passThrough_leaves (s := v) (q := s.memReqOf r) (off := off) (bs := payloadOf r)
    (g := (s.region rn).gw) (by rwa [gwLive, hgw])
  rw [← hv]
  exact ⟨hkept.trans hhbm, x, by rw [← hgw]; exact hx, hq⟩

end Blk
end Sys2Proof.Machine
end

section
/-!
PROOF. Updates applied (R258, R265, R270, R273, R275): the copies of a line written to HBM, a line held in the hot-line buffer, and what
the line reads as after either. With the entries and the waits above they settle O24.
-/

namespace Sys2Proof.Machine

namespace Blk

variable {s t u : Blk} {p : Fld → Prop}

/-! ### What a line reads as turns on the store alone (R258, R270, R275) -/

/-- `t` holds the same lines as `s`, on stacks that serve alike. -/
structure SameLines (s t : Blk) : Prop where
  regions : t.regions = s.regions
  hot : t.hot = s.hot
  lineMeta : t.lineMeta = s.lineMeta
  hbm : t.hbm = s.hbm
  live : ∀ x, t.liveLine x = s.liveLine x

theorem SameLines.readStored (h : SameLines s t) (i n : Nat) : t.readStored i n = s.readStored i n := by
  have hregion : t.region i = s.region i := by rw [region, h.regions, region]
  have hmeta : t.meta_ = s.meta_ := funext fun x => by rw [meta_, h.lineMeta, meta_]
  have hbytes : t.lineBytes = s.lineBytes := funext fun x => lineBytes_of_hbm h.hbm x
  have hlive : t.liveLine = s.liveLine := funext h.live
  simp only [Blk.readStored, storeLine, secondServes, neverWritten, hregion, hmeta, hbytes, hlive, h.hot]
  rfl

theorem Sends.liveLine (h : Sends p s t) (hp : ¬ p .PWR_DOM_STATUS_state) (x : Nat) : t.liveLine x = s.liveLine x := by
  unfold Blk.liveLine stackUp domOn
  rw [h.fld_eq hp, h.fld_eq hp, h.stale]

theorem SameLines.of_sends (h : Sends p s t) (hp : ¬ p .PWR_DOM_STATUS_state) : SameLines s t :=
  ⟨h.regions, h.hot, h.lineMeta, h.hbm, h.liveLine hp⟩

/-! ### The copies of a line (R258, R275) -/

/-- What a write leaves as the metadata of a copy. -/
def writtenMeta (h : HotLine) (m : LineMeta) : LineMeta :=
  { written := true, region := h.region, gen := h.gen, epoch := h.epoch, poison := m.retired, retired := m.retired }

/-- One copy of a line is written, or its block marked stale. -/
def writeCopy (h : HotLine) (s : Blk) (x : Nat) : Blk :=
  if s.liveLine x then (s.putBytes x h.bytes).putMeta x (writtenMeta h (s.meta_ x))
  else if 1 < h.copies.length && !s.stale.get false (x / 16) then
    ({ s with stale := s.stale.set false (x / 16) true }).count .GNS_STALE_count (lineDie x) 1
  else s

theorem writeCopies_eq (h : HotLine) : s.writeCopies h = h.copies.foldl (writeCopy h) s := rfl

/-- From `s` to `t` the live ones of the copies `xs` have been written. -/
structure CopiesWritten (h : HotLine) (xs : List Nat) (s t : Blk) : Prop where
  regions : t.regions = s.regions
  hot : t.hot = s.hot
  updates : t.updates = s.updates
  live : ∀ y, t.liveLine y = s.liveLine y
  meta_eq : ∀ y, t.meta_ y = if y ∈ xs ∧ s.liveLine y = true then writtenMeta h (s.meta_ y) else s.meta_ y
  bytes : ∀ y, t.lineBytes y = if y ∈ xs ∧ s.liveLine y = true then h.bytes else s.lineBytes y
  outside : ∀ a, a / 256 ∉ xs → t.hbm.get 0 a = s.hbm.get 0 a

theorem meta_putMeta (x y : Nat) (m : LineMeta) : (s.putMeta x m).meta_ y = if y = x then m else s.meta_ y :=
  Tab.get_set _ _ _ _ _ _ fun _ => rfl

theorem writtenMeta_idem (h : HotLine) (m : LineMeta) : writtenMeta h (writtenMeta h m) = writtenMeta h m := rfl

theorem CopiesWritten.nil (h : HotLine) (s : Blk) : CopiesWritten h [] s s :=
  ⟨rfl, rfl, rfl, fun _ => rfl, fun _ => by simp, fun _ => by simp, fun _ _ => rfl⟩

theorem CopiesWritten.cons {h : HotLine} {x : Nat} {xs : List Nat} (a : CopiesWritten h [x] s t) (b : CopiesWritten h xs t u) :
    CopiesWritten h (x :: xs) s u where
  regions := b.regions.trans a.regions
  hot := b.hot.trans a.hot
  updates := b.updates.trans a.updates
  live y := (b.live y).trans (a.live y)
  meta_eq y := by
    rw [b.meta_eq, a.meta_eq, a.live]
    grind [writtenMeta_idem]
  bytes y := by
    rw [b.bytes, a.bytes, a.live]
    grind
  outside a' ha := by
    rw [List.mem_cons, not_or] at ha
    rw [b.outside a' ha.2, a.outside a' (by simp [ha.1])]

/-- A live line shares its block with live lines alone. -/
theorem liveLine_of_block {x y : Nat} (h : x / 16 = y / 16) : s.liveLine x = s.liveLine y := by
  simp only [Blk.liveLine, lineStack, h]

theorem CopiesWritten.writeCopy {h : HotLine} (hlen : h.bytes.length = 256) (x : Nat) : CopiesWritten h [x] s (s.writeCopy h x) := by
  by_cases hx : s.liveLine x = true
  · have hw : s.writeCopy h x = (s.putBytes x h.bytes).putMeta x (writtenMeta h (s.meta_ x)) := if_pos hx
    rw [hw]
    refine ⟨rfl, rfl, rfl, fun _ => rfl, fun y => ?_, fun y => ?_, fun a ha => ?_⟩
    · rw [meta_putMeta]
      by_cases hy : y = x
      · simp [hy, hx]
      · rw [if_neg hy, if_neg (by simp [hy])]
        rfl
    · rw [lineBytes_putMeta]
      by_cases hy : y = x
      · simp [hy, hx, lineBytes_putBytes_self hlen]
      · rw [lineBytes_putBytes_ne hy, if_neg (by simp [hy])]
    · exact putBytes_get_ne _ _ _ _ (by simpa using ha)
  · have hnot : ∀ y, ¬ (y ∈ [x] ∧ s.liveLine y = true) := by
      rintro y ⟨hy, hl⟩
      exact hx (List.mem_singleton.mp hy ▸ hl)
    have hw : s.writeCopy h x = if (1 < h.copies.length && !s.stale.get false (x / 16)) = true then
        ({ s with stale := s.stale.set false (x / 16) true }).count .GNS_STALE_count (lineDie x) 1 else s := if_neg hx
    rw [hw]
    split
    · refine ⟨count_regions _ _ _ _, count_hot _ _ _ _, count_updates _ _ _ _, fun y => ?_, fun y => ?_, fun y => ?_, fun a _ => ?_⟩
      · unfold Blk.liveLine stackUp domOn
        rw [fld_count_ne _ _ _ _ _ _ (by simp [counts]) (by decide), fld_count_ne _ _ _ _ _ _ (by simp [counts]) (by decide),
          count_stale, Tab.get_set _ _ _ _ _ _ fun _ => rfl]
        split
        next hb =>
          have hy : s.liveLine y = false := by rw [liveLine_of_block hb, Bool.eq_false_iff]; exact hx
          unfold Blk.liveLine stackUp domOn at hy
          rw [Bool.not_true, Bool.and_false]
          exact hy.symm
        · rfl
      · rw [if_neg (hnot y), meta_, count_lineMeta, meta_]
      · rw [if_neg (hnot y)]
        exact lineBytes_of_hbm (count_hbm _ _ _ _) y
      · rw [count_hbm]
    · exact ⟨rfl, rfl, rfl, fun _ => rfl, fun y => (if_neg (hnot y)).symm, fun y => (if_neg (hnot y)).symm, fun _ _ => rfl⟩

theorem CopiesWritten.writeCopies {h : HotLine} (hlen : h.bytes.length = 256) : CopiesWritten h h.copies s (s.writeCopies h) := by
  rw [writeCopies_eq]
  generalize h.copies = xs
  induction xs generalizing s with
  | nil => exact nil h s
  | cons x xs ih => exact cons (writeCopy hlen x) ih

/-- A line that has been written, and is held in no buffer, reads as what was written. -/
theorem CopiesWritten.readStored {h : HotLine} {i n : Nat} (hw : CopiesWritten h ((s.region i).copies n) s t) (hr : h.region = i)
    (hg : h.gen = (s.region i).gen) (hhot : s.hot.find (s.storeLine i n) = none)
    (hx : ∃ x ∈ (s.region i).copies n, s.liveLine x = true ∧ (s.meta_ x).retired = false) :
    ∃ c2, t.readStored i n = .ok h.bytes false c2 := by
  have hregion : t.region i = s.region i := by rw [region, hw.regions, region]
  have hlive : t.liveLine = s.liveLine := funext hw.live
  cases hfind : (((s.region i).copies n).filter fun x => s.liveLine x).find? (fun x => !(t.meta_ x).poison) with
  | none =>
    obtain ⟨x, hmem, hl, hret⟩ := hx
    have hp := List.find?_eq_none.mp hfind x (List.mem_filter.mpr ⟨hmem, hl⟩)
    rw [hw.meta_eq, if_pos ⟨hmem, hl⟩, writtenMeta, hret] at hp
    simp at hp
  | some x =>
    have hmem := List.mem_filter.mp (List.mem_of_find?_eq_some hfind)
    have hnever : t.neverWritten x i (s.region i).gen = false := by
      unfold neverWritten
      rw [hw.meta_eq, if_pos hmem, writtenMeta]
      simp [hr, hg]
    have hbytes : t.lineBytes x = h.bytes := by rw [hw.bytes, if_pos hmem]
    refine ⟨((s.region i).copies n).head? ≠ some x, ?_⟩
    unfold Blk.readStored storeLine at *
    simp only [hregion, hlive, hw.hot, hhot, hfind, hnever, hbytes]
    simp

/-- A line held in the buffer for its region as it is reads as it stands there. -/
theorem readStored_of_held {h : HotLine} {i n : Nat} (hhot : s.hot.find (s.storeLine i n) = some h) (hr : h.region = i)
    (hg : h.gen = (s.region i).gen) (hlive : ((s.region i).copies n).filter (fun x => s.liveLine x) ≠ []) :
    s.readStored i n = .ok h.bytes false (s.secondServes ((s.region i).copies n)) := by
  unfold readStored
  simp [hhot, hr, hg, hlive]

/-! ### An update applied (R265, R270, R273) -/

/-- The end of an entry leaves the store. -/
theorem entryDone_kept (e : UpdEntry) (status : Nat) (prior : List Byte) (never c2 : Bool) :
    ∃ rq oa, Sends answering { s with requests := rq, ordApplied := oa } (s.entryDone e status prior never c2) := by
  unfold entryDone
  split
  · exact ⟨_, _, .refl _ s⟩
  · dsimp only
    split
    · exact ⟨_, _, .endReq _ _⟩
    · exact ⟨_, s.ordApplied, .refl _ _⟩

theorem entryDone_same (e : UpdEntry) (status : Nat) (prior : List Byte) (never c2 : Bool) :
    SameLines s (s.entryDone e status prior never c2) ∧ (s.entryDone e status prior never c2).updates = s.updates ∧
      ∀ i, (s.entryDone e status prior never c2).fld .GNS_COMBINED_count i = s.fld .GNS_COMBINED_count i := by
  obtain ⟨rq, oa, h⟩ := entryDone_kept (s := s) e status prior never c2
  exact ⟨⟨h.regions, h.hot, h.lineMeta, h.hbm, h.liveLine (by simp [answering, handling, counts])⟩, h.updates,
    h.fld_eq (by simp [answering, handling, counts])⟩

/-- An entry of a region as it was, on a line that reads and that some copy takes, is applied to what the line reads as. -/
theorem applyEntryTo_eq {d : Nat} {e : UpdEntry} {more never c2 : Bool} {bs : List Byte} (hv : (s.region e.region).valid = true)
    (hg : (s.region e.region).gen = e.gen) (hm : (s.region e.region).mode ≠ 1) (hread : s.readStored e.region e.line = .ok bs never c2)
    (hx : ∃ x ∈ (s.region e.region).copies e.line, s.liveLine x = true ∧ (s.meta_ x).retired = false) :
    ∃ prior nw second, s.applyEntryTo d e more =
      (s.updateLine d e.region e.line 0 (e.onto bs) more).entryDone e 0 prior nw second := by
  obtain ⟨x, hmem, hl, hret⟩ := hx
  have hlive : ((s.region e.region).copies e.line).filter (fun x => s.liveLine x) ≠ [] :=
    List.ne_nil_of_mem (List.mem_filter.mpr ⟨hmem, hl⟩)
  have hretired : s.allRetired e.region e.line = false := by
    unfold allRetired
    rw [List.all_eq_false]
    exact ⟨x, List.mem_filter.mpr ⟨hmem, hl⟩, by simp [hret]⟩
  have hepoch : s.absorbEpoch e.region e.line = (0, none) := if_pos hm
  unfold applyEntryTo
  dsimp only
  rw [if_neg (by simp [hv, hg]), if_neg hlive, if_neg (by simp [hretired]), hepoch, hread]
  exact ⟨_, _, _, rfl⟩

/-- An entry of a region since cleared or retagged is done, with no effect. -/
theorem applyEntryTo_changed {d : Nat} {e : UpdEntry} {more : Bool}
    (h : (s.region e.region).valid = false ∨ (s.region e.region).gen ≠ e.gen) :
    s.applyEntryTo d e more = s.entryDone e 0xD [] false false := by
  unfold applyEntryTo
  exact if_pos (by simpa using h)

theorem writeBack_of_none {x : Nat} (h : s.hot.find x = none) : s.writeBack x = s := by
  unfold writeBack
  rw [h]

/-- A line with more updates pending, and room in the die's buffer, is held there, and HBM is not written. -/
theorem updateLine_held {d i n : Nat} {bs : List Byte}
    (hroom : ((s.hot.find (s.storeLine i n)).isSome || (s.hot.filter fun kv => kv.2.die = d).length < 4096) = true)
    (hlive : ((s.region i).copies n).filter (fun x => s.liveLine x) ≠ []) :
    (s.updateLine d i n 0 bs true).updates = s.updates ∧
      (s.updateLine d i n 0 bs true).hbm = s.hbm ∧
      (s.updateLine d i n 0 bs true).hot.find (s.storeLine i n) = some (s.lineWith d i n 0 bs) ∧
      (∃ c2, (s.updateLine d i n 0 bs true).readStored i n = .ok bs false c2) ∧
      (s.updateLine d i n 0 bs true).fld .GNS_COMBINED_count d = min (s.fld .GNS_COMBINED_count d + 1) (2 ^ 64 - 1) := by
  obtain ⟨v, hv, hhot, hregions⟩ : ∃ v : Blk, v = { s with hot := s.hot.put (s.storeLine i n) (s.lineWith d i n 0 bs) } ∧
      v.hot.find (s.storeLine i n) = some (s.lineWith d i n 0 bs) ∧ v.regions = s.regions :=
    ⟨_, rfl, Tab.find_put_self _ _ _, rfl⟩
  have hsame : SameLines v (v.count .GNS_COMBINED_count d 1) :=
    .of_sends (.of_within (.count (p := fun f _ => counts f ∨ f = .GNS_COMBINED_count) _ _ _ _ (fun _ _ h => .inl h) (.inr rfl)))
      (by simp [counts])
  have hupdate : s.updateLine d i n 0 bs true = v.count .GNS_COMBINED_count d 1 := by
    unfold updateLine
    rw [if_pos (by simpa using hroom), hv]
  have hregion : v.region i = s.region i := by rw [region, hregions, region]
  have hstore : v.storeLine i n = s.storeLine i n := by rw [storeLine, hregion, storeLine]
  have hread : v.readStored i n = .ok bs false (v.secondServes ((v.region i).copies n)) :=
    readStored_of_held (h := s.lineWith d i n 0 bs) (by rw [hstore, hhot]) rfl (by rw [hregion]; rfl) (by rw [hregion, hv]; exact hlive)
  rw [hupdate]
  refine ⟨by rw [count_updates, hv], by rw [hsame.hbm, hv], by rw [hsame.hot, hhot], ⟨_, (hsame.readStored i n).trans hread⟩, ?_⟩
  rw [fld_count_self _ _ _ _ (by simp [counts]) rfl, hv]
  rfl

/-- A line with no more updates pending, or no room in the buffer, is written to its live copies, and held in no buffer. -/
theorem updateLine_written {d i n : Nat} {bs : List Byte} {more : Bool} (hlen : bs.length = 256)
    (hroom : (more && ((s.hot.find (s.storeLine i n)).isSome || (s.hot.filter fun kv => kv.2.die = d).length < 4096)) = false)
    (hx : ∃ x ∈ (s.region i).copies n, s.liveLine x = true ∧ (s.meta_ x).retired = false) :
    (s.updateLine d i n 0 bs more).updates = s.updates ∧
      (s.updateLine d i n 0 bs more).hot.find (s.storeLine i n) = none ∧
      (∃ c2, (s.updateLine d i n 0 bs more).readStored i n = .ok bs false c2) ∧
      ∀ a, (∀ x ∈ (s.region i).copies n, a / 256 ≠ x) → (s.updateLine d i n 0 bs more).hbm.get 0 a = s.hbm.get 0 a := by
  obtain ⟨v, hv, hhot⟩ : ∃ v : Blk, v = { s with hot := s.hot.del (s.storeLine i n) } ∧ v.hot.find (s.storeLine i n) = none :=
    ⟨_, rfl, Tab.find_del_self _ _⟩
  have hregion : v.region i = s.region i := by rw [hv]; rfl
  have hstore : v.storeLine i n = s.storeLine i n := by rw [storeLine, hregion, storeLine]
  have hw : CopiesWritten (s.lineWith d i n 0 bs) ((v.region i).copies n) v (v.writeCopies (s.lineWith d i n 0 bs)) := by
    rw [hregion]
    exact .writeCopies hlen
  have hread : ∃ c2, (v.writeCopies (s.lineWith d i n 0 bs)).readStored i n = .ok bs false c2 :=
    hw.readStored rfl (by rw [hregion]; rfl) (by rw [hstore, hhot]) (by rw [hregion, hv]; exact hx)
  have hupdate : s.updateLine d i n 0 bs more = v.writeCopies (s.lineWith d i n 0 bs) := by
    unfold updateLine
    rw [if_neg (by simpa using hroom), hv]
  rw [hupdate]
  refine ⟨by rw [hw.updates, hv], by rw [hw.hot, hhot], hread, fun a ha => ?_⟩
  rw [hw.outside a fun hmem => ha _ (hregion ▸ hmem) rfl, hv]

/-- An entry leaves its die's queue for its line; with the last one of the line, the line leaves the buffer. -/
theorem updateApply_eq {d pos : Nat} {e : UpdEntry} {more : Bool} (he : (s.updQueue d)[pos]? = some e)
    (hfirst : ∀ x ∈ (s.updQueue d).take pos, ¬ (x.store = e.store))
    (hmore : more = ((s.updQueue d).drop (pos + 1)).any fun x => x.store = e.store) :
    s.updateApply d pos = if more then (s.putUpdates d ((s.updQueue d).eraseIdx pos)).applyEntryTo d e more
      else ((s.putUpdates d ((s.updQueue d).eraseIdx pos)).applyEntryTo d e more).writeBack e.store := by
  have hnone : ((s.updQueue d).take pos).any (fun x => x.store = e.store) = false := by
    rw [List.any_eq_false]
    exact fun x hx => by simpa using hfirst x hx
  unfold updateApply
  dsimp only
  rw [he]
  dsimp only
  rw [if_neg (by simp [hnone]), hmore]

/-- An entry that leaves its die's queue leaves the store. -/
theorem putUpdates_same (d : Nat) (l : List UpdEntry) : SameLines s (s.putUpdates d l) ∧ (s.putUpdates d l).updQueue d = l ∧
    ∀ i, (s.putUpdates d l).fld .GNS_COMBINED_count i = s.fld .GNS_COMBINED_count i := by
  have hkept := putUpdates_kept (s := s) d l
  exact ⟨⟨hkept.regions, hkept.hot, hkept.lineMeta, hkept.hbm, hkept.liveLine (by decide)⟩,
    by rw [updQueue_putUpdates, if_pos rfl], hkept.fld_eq (by decide)⟩

/-- Die `d` has applied an update to line `n` of region `i`: the line reads as `bs`, HBM outside its copies as it did, and all of HBM
where the line is held in the buffer. -/
structure Applied (d i n : Nat) (bs : List Byte) (more : Bool) (s t : Blk) : Prop where
  updates : t.updates = s.updates
  reads : ∃ c2, t.readStored i n = .ok bs false c2
  outside : ∀ a, (∀ x ∈ (s.region i).copies n, a / 256 ≠ x) → t.hbm.get 0 a = s.hbm.get 0 a
  gone : more = false → t.hot.find (s.storeLine i n) = none
  held : more = true → (s.hot.filter fun kv => kv.2.die = d).length < 4096 →
    t.hbm = s.hbm ∧ t.hot.find (s.storeLine i n) = some (s.lineWith d i n 0 bs) ∧
      t.fld .GNS_COMBINED_count d = min (s.fld .GNS_COMBINED_count d + 1) (2 ^ 64 - 1)

theorem Applied.updateLine {d i n : Nat} {bs : List Byte} (more : Bool) (hlen : bs.length = 256)
    (hx : ∃ x ∈ (s.region i).copies n, s.liveLine x = true ∧ (s.meta_ x).retired = false) :
    Applied d i n bs more s (s.updateLine d i n 0 bs more) := by
  by_cases hroom : (more && ((s.hot.find (s.storeLine i n)).isSome || (s.hot.filter fun kv => kv.2.die = d).length < 4096)) = true
  · obtain ⟨rfl, hroom⟩ := Bool.and_eq_true_iff.mp hroom
    obtain ⟨x, hmem, hl, -⟩ := hx
    obtain ⟨hupd, hhbm, hhot, hread, hcount⟩ := updateLine_held (d := d) (bs := bs) hroom
      (List.ne_nil_of_mem (List.mem_filter.mpr ⟨hmem, hl⟩))
    exact ⟨hupd, hread, fun a _ => by rw [hhbm], fun h => absurd h (by decide), fun _ _ => ⟨hhbm, hhot, hcount⟩⟩
  · obtain ⟨hupd, hhot, hread, houtside⟩ := updateLine_written (d := d) hlen (by simpa using hroom) hx
    refine ⟨hupd, hread, houtside, fun _ => hhot, fun hmore hlt => absurd ?_ hroom⟩
    simp [hmore, hlt]

/-- What leaves the lines, the queues and the count of combined updates keeps an update applied. -/
theorem Applied.of_same {d i n : Nat} {bs : List Byte} {more : Bool} (h : Applied d i n bs more s t) (hsame : SameLines t u)
    (hupd : u.updates = t.updates) (hcount : ∀ k, u.fld .GNS_COMBINED_count k = t.fld .GNS_COMBINED_count k) :
    Applied d i n bs more s u where
  updates := hupd.trans h.updates
  reads := by rw [hsame.readStored]; exact h.reads
  outside := by rw [hsame.hbm]; exact h.outside
  gone := by rw [hsame.hot]; exact h.gone
  held := by rw [hsame.hbm, hsame.hot, hcount]; exact h.held

/-- The first update of its line, of a region as it was, is applied. -/
theorem updateApply_applied {d pos : Nat} {e : UpdEntry} {never c2 : Bool} {bs : List Byte} (he : (s.updQueue d)[pos]? = some e)
    (hfirst : ∀ x ∈ (s.updQueue d).take pos, ¬ (x.store = e.store)) (hv : (s.region e.region).valid = true)
    (hg : (s.region e.region).gen = e.gen) (hm : (s.region e.region).mode ≠ 1) (hread : s.readStored e.region e.line = .ok bs never c2)
    (hlen : (e.onto bs).length = 256)
    (hx : ∃ x ∈ (s.region e.region).copies e.line, s.liveLine x = true ∧ (s.meta_ x).retired = false)
    (hstore : e.store = s.storeLine e.region e.line) :
    Applied d e.region e.line (e.onto bs) (((s.updQueue d).drop (pos + 1)).any fun x => x.store = e.store)
      (s.putUpdates d ((s.updQueue d).eraseIdx pos)) (s.updateApply d pos) := by
  obtain ⟨hput, -, -⟩ := putUpdates_same (s := s) d ((s.updQueue d).eraseIdx pos)
  rw [updateApply_eq he hfirst rfl]
  generalize s.putUpdates d ((s.updQueue d).eraseIdx pos) = v at hput
  generalize (((s.updQueue d).drop (pos + 1)).any fun x => x.store = e.store) = more
  have hregion : v.region e.region = s.region e.region := by rw [region, hput.regions, region]
  have hx' : ∃ x ∈ (v.region e.region).copies e.line, v.liveLine x = true ∧ (v.meta_ x).retired = false := by
    obtain ⟨x, hmem, hl, hr⟩ := hx
    exact ⟨x, by rwa [hregion], by rwa [hput.live], by rwa [meta_, hput.lineMeta]⟩
  obtain ⟨prior, nw, second, happly⟩ := applyEntryTo_eq (d := d) (more := more) (by rwa [hregion]) (by rwa [hregion]) (by rwa [hregion])
    ((hput.readStored _ _).trans hread) hx'
  obtain ⟨hdone, hupd, hcount⟩ := entryDone_same (s := v.updateLine d e.region e.line 0 (e.onto bs) more) e 0 prior nw second
  have happlied := (Applied.updateLine (d := d) more hlen hx').of_same hdone hupd hcount
  rw [happly]
  split
  · exact happlied
  next hmore =>
    rwa [writeBack_of_none]
    rw [hstore, ← happlied.gone (by simpa using hmore), storeLine, storeLine, hregion]

/-- An update for a region since cleared or retagged leaves its queue with no effect. -/
theorem updateApply_changed {d pos : Nat} {e : UpdEntry} (he : (s.updQueue d)[pos]? = some e)
    (hfirst : ∀ x ∈ (s.updQueue d).take pos, ¬ (x.store = e.store))
    (h : (s.region e.region).valid = false ∨ (s.region e.region).gen ≠ e.gen) (hhot : s.hot.find e.store = none) :
    (s.updateApply d pos).updQueue d = (s.updQueue d).eraseIdx pos ∧ (s.updateApply d pos).hbm = s.hbm ∧
      (s.updateApply d pos).lineMeta = s.lineMeta := by
  obtain ⟨hput, hqueue, -⟩ := putUpdates_same (s := s) d ((s.updQueue d).eraseIdx pos)
  rw [updateApply_eq he hfirst rfl]
  generalize s.putUpdates d ((s.updQueue d).eraseIdx pos) = v at hput hqueue
  have hregion : v.region e.region = s.region e.region := by rw [region, hput.regions, region]
  obtain ⟨hdone, hupd, -⟩ := entryDone_same (s := v) e 0xD [] false false
  rw [applyEntryTo_changed (by rwa [hregion]), writeBack_of_none (by rw [hdone.hot, hput.hot, hhot]), ite_self]
  exact ⟨by rw [← hqueue, updQueue, hupd, updQueue], hdone.hbm.trans hput.hbm, hdone.lineMeta.trans hput.lineMeta⟩

end Blk

open Blk

/-- Settles O24: a store or atomic queued, waiting or passed on; an update applied, or void. -/
theorem memoryUpdates : Obligations.MemoryUpdates := by
  unfold Obligations.MemoryUpdates
  refine ⟨?_, ?_⟩
  · intro s fid op r i q h rn off len payload hmem hf hn hdest hwhole hgood hh hop hfirst hq hcross hst hr hpay
    subst hh hq hpay
    have hready : s.blk.Ready fid op r := ⟨hf, hdest, hwhole, hgood, hop, hfirst, hcross⟩
    have hexec : exec i s = run (·.memRequest fid op) s := exec_of_memory (List.mem_cons_of_mem _ hmem) s
    have hne : op ≠ 0x40 := by
      rintro rfl
      simp at hmem
    refine ⟨fun d hm hw hl hfree j hj => ?_, fun hnone hop41 hbit hlt => ?_, fun b goal hsome hlt => ?_, fun hw => ?_,
      fun hm hw hlive => ?_⟩
    · obtain rfl | ⟨rfl, hwaits⟩ := hj
      · obtain ⟨hgone, hhbm, hnext, hqueue⟩ := memRequest_queues hready hst hne hr hm hw hl hfree
        exact runs_of_eq hexec rfl ⟨hgone, hhbm, hnext, hqueue d d.isLt⟩
      · obtain ⟨hgone, hhbm, hnext, hqueue⟩ := memRetry_queues hready hwaits hst hne hr hm hw hl hfree
        exact runs_of_eq (g := (·.memRetry fid)) rfl rfl ⟨hgone, hhbm, hnext, hqueue d d.isLt⟩
    · exact runs_of_eq hexec (memRequest_waits hready hst hop41 hnone hbit hlt) rfl
    · exact runs_of_eq hexec (memRequest_goesOnWaiting hready hst hne hsome hlt) rfl
    · exact runs_of_eq (g := (·.orderTimeout fid)) rfl (orderTimeout_eq hf hw) (fails_leaves hn (by simp))
    · exact runs_of_eq hexec rfl (memRequest_passesOn hready hst hne hr hm hw hlive)
  · intro s d pos e he hfirst
    refine ⟨fun bs never c2 hv hg hm hread hlen hx hstore => ?_, fun hchanged hhot => ?_⟩
    · have h := updateApply_applied he hfirst hv hg hm hread hlen hx hstore
      obtain ⟨hput, hqueue, hcount⟩ := putUpdates_same (s := s.blk) d.val ((s.blk.updQueue d).eraseIdx pos)
      have hregion : (s.blk.putUpdates d ((s.blk.updQueue d).eraseIdx pos)).region e.region = s.blk.region e.region := by
        rw [region, hput.regions, region]
      refine runs_of_eq (g := (·.updateApply d pos)) rfl rfl ⟨?_, h.reads, fun a ha => ?_, fun hmore hroom => ?_⟩
      · rw [updQueue, h.updates, ← updQueue, hqueue]
      · rw [h.outside a (by rwa [hregion]), hput.hbm]
      · obtain ⟨hhbm, hhot, hcnt⟩ := h.held (by simpa using hmore) (by rwa [hput.hot])
        refine ⟨hhbm.trans hput.hbm, ?_, by rw [hcnt, hcount]⟩
        rw [hstore, storeLine, ← hregion, ← storeLine, hhot, lineWith, hregion, hg]
    · exact runs_of_eq (g := (·.updateApply d pos)) rfl rfl (updateApply_changed he hfirst hchanged hhot)

end Sys2Proof.Machine
end

section
/-!
PROOF. The work of shards and gateways (R281, R292 to R296): what ends a job or a pass-through store, or brings a shard to a level, leaves
the store, its regions and its gateways as they were.
-/

namespace Sys2Proof.Machine.Blk

variable {s t u : Blk} {p : Fld → Prop}

/-- `t` is `s` but for register fields, the handling of frames, and the shards, records and WRITEs of the spine's own that a job's end
may change. -/
def JobEnds (s t : Blk) : Prop :=
  t = { s with fields := t.fields, out := t.out, links := t.links, frames := t.frames, copies := t.copies, transfers := t.transfers,
               nextFrame := t.nextFrame, basalt := t.basalt, agateDirs := t.agateDirs, linkBusy := t.linkBusy,
               linkDrops := t.linkDrops, hostTx := t.hostTx, rings := t.rings, trcBuf := t.trcBuf, fresh := t.fresh, txts := t.txts,
               servo := t.servo, sprayPtr := t.sprayPtr, placed := t.placed, shards := t.shards, ownWrites := t.ownWrites,
               nextOwn := t.nextOwn, cplWait := t.cplWait, cplHeld := t.cplHeld, ordApplied := t.ordApplied }

namespace JobEnds

theorem refl (s : Blk) : JobEnds s s := rfl

theorem trans (h : JobEnds s t) (k : JobEnds t u) : JobEnds s u := by
  unfold JobEnds at h k ⊢
  rw [h] at k
  exact k

theorem ite {c : Prop} [Decidable c] (h : JobEnds s t) (k : JobEnds s u) : JobEnds s (if c then t else u) := by
  split
  exacts [h, k]

theorem foldl {β : Type} (g : Blk → β → Blk) (h : ∀ t b, JobEnds t (g t b)) (l : List β) (t : Blk) : JobEnds t (l.foldl g t) := by
  induction l generalizing t with
  | nil => exact refl t
  | cons b l ih => exact (h t b).trans (ih _)

theorem of_sends (h : Sends p s t) : JobEnds s t := by
  have ht := h.1
  unfold JobEnds
  rw [ht]

theorem of_fldsOut (h : FldsOut s t) : JobEnds s t := by
  unfold FldsOut at h
  unfold JobEnds
  rw [h]

theorem count (f : Fld) (i n : Nat) : JobEnds s (s.count f i n) := of_fldsOut (.count s f i n)
theorem raise (f : Fld) (i : Nat) : JobEnds s (s.raise f i) := of_fldsOut (.raise s f i)

theorem regions (h : JobEnds s t) : t.regions = s.regions := by rw [h]
theorem sweeps (h : JobEnds s t) : t.sweeps = s.sweeps := by rw [h]
theorem gateways (h : JobEnds s t) : t.gateways = s.gateways := by rw [h]

theorem gateway_eq (h : JobEnds s t) (g : Nat) : t.gateway g = s.gateway g := by rw [gateway, h.gateways, gateway]

/-- A record is placed, or held (R477). -/
theorem postWork (ring kind : Nat) (bytes : List Byte) (w : HeldWork) : JobEnds s (s.postWork ring kind bytes w id) := by
  unfold Blk.postWork
  split
  · refine trans ?_ (raise _ _)
    exact rfl
  · exact rfl

theorem putShard (i : Nat) (r : ShardRec) : JobEnds s (s.putShard i r) := rfl

theorem dropOwn (k : OwnKind) : JobEnds s (s.dropOwn k) := rfl

theorem sendOwn (kind : OwnKind) (tile dst src tag offset : Nat) (payload : List Byte) :
    JobEnds s (s.sendOwn kind tile dst src tag offset payload) := by
  have hown : ∀ {v : Blk} n w, JobEnds s v → JobEnds s { v with nextOwn := n, ownWrites := w } := fun _ _ h => h.trans rfl
  unfold Blk.sendOwn
  dsimp only
  refine trans (hown _ _ ?_) (of_sends (.sendTo _ _ _ _))
  refine trans ?_ (of_sends (.of_handled (.ownFrame _)))
  exact of_sends (.free 32)

theorem sendNotice (i bit : Nat) : JobEnds s (s.sendNotice i bit) := by
  unfold Blk.sendNotice
  exact ite (sendOwn _ _ _ _ _ _ _) (refl s)

theorem shardEvent (i status : Nat) : JobEnds s (s.shardEvent i status) := postWork _ _ _ _

theorem reached (i level : Nat) : JobEnds s (s.reached i level) := by
  unfold Blk.reached
  exact (((putShard _ _).trans (count _ _ _)).trans (shardEvent _ _)).trans (sendNotice _ _)

theorem stopMirror (i : Nat) : JobEnds s (s.stopMirror i) := (putShard _ _).trans (dropOwn _)

theorem drainDone (i status : Nat) : JobEnds s (s.drainDone i status) := by
  unfold Blk.drainDone
  dsimp only
  split
  · exact refl s
  · refine ite ?_ ?_
    · exact ((putShard _ _).trans (stopMirror _)).trans (reached _ _)
    · exact (((putShard _ _).trans (putShard _ _)).trans (shardEvent _ _)).trans (raise _ _)

/-- A job ends with its record, or its drain (R281, R296). -/
theorem endJob (g : Nat) (o : JobOwner) (status acked : Nat) : JobEnds s (s.endJob g o status acked) := by
  have hraised : JobEnds s (if status = 4 then s.raise .GNS_INT_mem_err 0 else s) := ite (raise _ _) (refl s)
  cases o with
  | ring cring tag => exact hraised.trans (postWork _ _ _ _)
  | shard i => exact hraised.trans (drainDone _ _)

theorem storeEnds (q : MemReq) : JobEnds s (s.storeEnds q) := by
  unfold Blk.storeEnds
  refine trans ?_ (of_sends (.endReq q []))
  exact rfl

end JobEnds

end Sys2Proof.Machine.Blk
end

section
/-!
PROOF. The commands on regions (R262 to R264, R273, R281, R292, R303, R314): a region set, cleared or retagged, what ends with it, and the
sweep of its lines. They settle O25.
-/

namespace Sys2Proof.Machine

namespace Blk

variable {s t u : Blk} {p : Fld → Prop}

/-! ### What leaves the regions and their sweeps -/

/-- From `s` to `t` the regions and the sweeps under way are as they were. -/
structure KeepsRegions (s t : Blk) : Prop where
  regions : t.regions = s.regions
  sweeps : t.sweeps = s.sweeps

namespace KeepsRegions

theorem refl (s : Blk) : KeepsRegions s s := ⟨rfl, rfl⟩

theorem trans (h : KeepsRegions s t) (k : KeepsRegions t u) : KeepsRegions s u :=
  ⟨k.regions.trans h.regions, k.sweeps.trans h.sweeps⟩

theorem ite {c : Prop} [Decidable c] (h : KeepsRegions s t) (k : KeepsRegions s u) : KeepsRegions s (if c then t else u) := by
  split
  exacts [h, k]

theorem foldl {β : Type} (g : Blk → β → Blk) (h : ∀ t b, KeepsRegions t (g t b)) (l : List β) (t : Blk) :
    KeepsRegions t (l.foldl g t) := by
  induction l generalizing t with
  | nil => exact refl t
  | cons b l ih => exact (h t b).trans (ih _)

theorem region_eq (h : KeepsRegions s t) (i : Nat) : t.region i = s.region i := by rw [region, h.regions, region]

theorem of_jobEnds (h : JobEnds s t) : KeepsRegions s t := ⟨h.regions, h.sweeps⟩

theorem of_fldsOut (h : FldsOut s t) : KeepsRegions s t := of_jobEnds (.of_fldsOut h)

theorem setFld (f : Fld) (i v : Nat) : KeepsRegions s (s.setFld f i v) := ⟨rfl, rfl⟩
theorem count (f : Fld) (i n : Nat) : KeepsRegions s (s.count f i n) := of_jobEnds (.count f i n)
theorem raise (f : Fld) (i : Nat) : KeepsRegions s (s.raise f i) := of_jobEnds (.raise f i)
theorem putShard (i : Nat) (r : ShardRec) : KeepsRegions s (s.putShard i r) := ⟨rfl, rfl⟩
theorem putGateway (g : Nat) (r : GwRec) : KeepsRegions s (s.putGateway g r) := ⟨rfl, rfl⟩

/-! An error's report (R455 to R457, R483, R485). -/

theorem logRecord (bytes : List Byte) : KeepsRegions s (s.logRecord bytes) := by
  unfold Blk.logRecord
  exact (foldl _ (fun _ _ => setFld _ _ _) _ _).trans (setFld _ _ _)

theorem flushEvents (n : Nat) : KeepsRegions s (s.flushEvents n) := by
  induction n generalizing s with
  | zero => exact refl s
  | succ n ih =>
    have hmessage : ∀ (v : Blk) a b c e, KeepsRegions v (v.postMessage a b c e) := fun v a b c e =>
      ((foldl _ (fun _ _ => setFld _ _ _) _ _).trans (setFld _ _ _)).trans (raise _ _)
    unfold Blk.flushEvents
    split
    · exact refl s
    · refine ite (trans ?_ ih) (refl s)
      refine trans ?_ (hmessage _ _ _ _ _)
      exact ⟨rfl, rfl⟩

theorem postEvent (bytes : List Byte) : KeepsRegions s (s.postEvent bytes) := by
  unfold Blk.postEvent
  refine trans ?_ (flushEvents _)
  exact ⟨rfl, rfl⟩

theorem answerRecord (cls inst level : Nat) : KeepsRegions s (s.answerRecord cls inst level) := by
  unfold Blk.answerRecord
  split
  · exact ⟨rfl, rfl⟩
  · split <;> exact ⟨rfl, rfl⟩

theorem fatalMarks (cls : Nat) (src : ErrSource) : KeepsRegions s (s.fatalMarks cls src) := by
  unfold Blk.fatalMarks
  split <;> exact ⟨rfl, rfl⟩

theorem reportError (src : ErrSource) : KeepsRegions s (s.reportError src) := by
  have hcounted : ∀ cls : Nat, KeepsRegions s ((s.count .MGT_ERR_CNT_count cls 1).raise (errBit cls) 0) := fun cls =>
    (count _ _ _).trans (raise _ _)
  have hkeys : ∀ {w : Blk} ks, KeepsRegions s w → KeepsRegions s { w with recentCe := ks } := fun ks h => h.trans ⟨rfl, rfl⟩
  have hmerge : ∀ (w : Blk) n, KeepsRegions w (w.mergeCe n) := fun w n => ite (refl w) (setFld _ _ _)
  have hpost : ∀ {w : Blk} (c : Bool) ring bytes, KeepsRegions s w →
      KeepsRegions s (if c = true then w.postRecord ring 5 bytes else w) := fun c ring bytes h =>
    h.trans (ite (of_jobEnds (.postWork _ _ _ _)) (refl _))
  unfold Blk.reportError
  dsimp only
  split
  · exact hkeys _ ((hcounted _).trans (hmerge _ _))
  · refine trans ?_ (fatalMarks _ _)
    refine trans ?_ (answerRecord _ _ _)
    refine trans ?_ (postEvent _)
    exact hpost _ _ _ (hkeys _ ((hcounted _).trans (logRecord _)))

theorem repairRange (i off len : Nat) : KeepsRegions s (s.repairRange i off len) := by
  have hput : ∀ (w : Blk) x bs m, KeepsRegions w ((w.putBytes x bs).putMeta x m) := fun _ _ _ _ => ⟨rfl, rfl⟩
  unfold Blk.repairRange
  refine foldl _ (fun v n => ?_) _ _
  unfold Blk.repairLine
  split
  · exact refl v
  · exact foldl _ (fun w x => (hput _ _ _ _).trans (reportError _)) _ _

/-! Jobs and shards (R281, R292, R314). -/

theorem gwIdle (g : Nat) : KeepsRegions s (s.gwIdle g) := by
  unfold Blk.gwIdle
  exact ite (putGateway _ _) (refl s)

theorem gwWrite (g tile va : Nat) (job : Bool) (bs : List Byte) : KeepsRegions s (s.gwWrite g tile va job bs) := by
  obtain ⟨hsent, -⟩ := Posts.gwWrite (s := s) g tile va job bs
  exact ⟨hsent.regions, (JobEnds.of_sends hsent).sweeps⟩

theorem runJobs (g n : Nat) : KeepsRegions s (s.runJobs g n) := by
  induction n generalizing s with
  | zero => exact refl s
  | succ n ih =>
    have hfail : ∀ (v : Blk) o status, KeepsRegions v ((v.endJob g o status 0).runJobs g n) := fun v o status =>
      (of_jobEnds (.endJob _ _ _ _)).trans ih
    unfold Blk.runJobs
    dsimp only
    split
    · exact refl s
    · split
      · split
        · exact (putGateway _ _).trans (hfail _ _ _)
        · split
          · exact (putGateway _ _).trans (hfail _ _ _)
          · exact (putGateway _ _).trans (hfail _ _ _)
          · exact (((putGateway _ _).trans (repairRange _ _ _)).trans (gwWrite _ _ _ _ _)).trans (putGateway _ _)
      · exact gwIdle _

theorem stopDrain (i : Nat) : KeepsRegions s (s.stopDrain i) := by
  unfold Blk.stopDrain
  exact ((putShard _ _).trans (putGateway _ _)).trans (gwIdle _)

theorem failShard (i status : Nat) : KeepsRegions s (s.failShard i status) := by
  unfold Blk.failShard
  exact (((((of_jobEnds (.stopMirror _)).trans (stopDrain _)).trans (putShard _ _)).trans (of_jobEnds (.shardEvent _ _))).trans
    (count _ _ _)).trans (raise _ _)

theorem streamsLost (i : Nat) : KeepsRegions s (s.streamsLost i) := by
  unfold Blk.streamsLost
  refine foldl _ (fun v k => ite ?_ (refl v)) _ _
  refine trans (trans ?_ (setFld _ _ _)) (raise _ _)
  exact ⟨rfl, rfl⟩

theorem gwRegionChanged (i : Nat) : KeepsRegions s (s.gwRegionChanged i) := by
  unfold Blk.gwRegionChanged
  refine foldl _ (fun v g => ?_) _ _
  dsimp only
  split
  · exact refl v
  · exact ite (((putGateway _ _).trans (of_jobEnds (.endJob _ _ _ _))).trans (runJobs _ _)) (refl v)

/-- What ends with a region leaves the regions. -/
theorem regionChanged (i : Nat) : KeepsRegions s (s.regionChanged i) := by
  have hrestores : KeepsRegions s (s.restoresChanged i) := ⟨rfl, rfl⟩
  unfold Blk.regionChanged
  exact ((hrestores.trans (foldl _ (fun _ _ => failShard _ _) _ _)).trans (streamsLost _)).trans (gwRegionChanged _)

end KeepsRegions

/-! ### The command that runs (R262, R263) -/

/-- A command of GNS_CMD that runs ends with its result. -/
theorem gnsRun_eq {op i result : Nat} {f : Blk → Nat → Nat × Blk} (h : s.gnsCmd = some (op, i)) (hf : f s i = (result, t)) :
    s.gnsRun op f = t.gnsEnd result := by
  unfold gnsRun
  rw [h]
  dsimp only
  rw [if_pos rfl, hf]

theorem result_gnsEnd {result : Nat} (h : result < 256) : (s.gnsEnd result).fld .GNS_CMD_STATUS_result 0 = result := by
  unfold gnsEnd
  rw [fld_setFld_ne _ _ _ _ _ _ (by decide), fld_setFld_self, Nat.mod_eq_of_lt]
  exact h

theorem region_putRegion (i j : Nat) (r : RegionRec) : (s.putRegion i r).region j = if j = i then r else s.region j :=
  Tab.get_set _ _ _ _ _ _ fun _ => rfl

/-- The region that RGN_SET writes from GNS_CMD_DATA. -/
def newRegion (s : Blk) (i : Nat) : RegionRec :=
  let b := s.gnsData
  let b0 := beAt b 0 1
  { valid := b0.testBit 7, mode := bits b0 6 4, dup := b0.testBit 3, rd := b0.testBit 2, wr := b0.testBit 1, at_ := b0.testBit 0,
    gen := ((s.region i).gen + 1) % 256, owner := beAt b 2 2, eid := beAt b 4 3 / 16, base := beAt b 8 4 % 2 ^ 28,
    blocks := beAt b 12 4 % 2 ^ 22, gw := beAt b 16 1, epoch := 0 }

/-- RGN_SET succeeds only on a region that is not valid, and writes it. -/
theorem rgnSet_ok {i : Nat} (h : (s.rgnSet i).1 = 0) : (s.region i).valid = false ∧ s.rgnSet i = (0, s.putRegion i (s.newRegion i)) := by
  unfold rgnSet at h ⊢
  dsimp only at h ⊢
  split at h
  · simp at h
  next hvalid =>
    split at h
    · simp at h
    · split at h
      · simp at h
      · split at h
        · simp at h
        next hbad hshared hgw =>
          rw [if_neg hvalid, if_neg hbad, if_neg hshared, if_neg hgw]
          exact ⟨by simpa using hvalid, rfl⟩

theorem rgnSet_valid {i : Nat} (h : (s.region i).valid = true) : s.rgnSet i = (3, s) := by
  unfold rgnSet
  exact if_pos h

/-- The region that RGN_RETAG writes, its generation still as it was. -/
def retagged (s : Blk) (i : Nat) : RegionRec :=
  let b := s.gnsData
  let b0 := beAt b 0 1
  { s.region i with rd := b0.testBit 2, wr := b0.testBit 1, at_ := b0.testBit 0, owner := beAt b 2 2, epoch := 0 }

theorem rgnRetag_valid {i : Nat} (h : (s.region i).valid = true) : s.rgnRetag i = (0, s.nextGen i (s.retagged i)) := if_pos h

theorem rgnClear_valid {i : Nat} (h : (s.region i).valid = true) :
    s.rgnClear i = (0, s.nextGen i { s.region i with valid := false }) := if_pos h

/-- A region's generation moves on, its sweep is noted, and what ends with it leaves both. -/
theorem nextGen_leaves (i : Nat) (r : RegionRec) :
    ((s.nextGen i r).gnsEnd 0).region i = { r with gen := ((s.region i).gen + 1) % 256 } ∧
      ((s.nextGen i r).gnsEnd 0).sweeps.find i = some ⟨(s.region i).gen, (s.region i).base, (s.region i).blocks⟩ := by
  have hkept : KeepsRegions (({ s with
      sweeps := s.sweeps.put i ⟨(s.region i).gen, (s.region i).base, (s.region i).blocks⟩ } : Blk).putRegion i
        { r with gen := ((s.region i).gen + 1) % 256 }) (s.nextGen i r) := .regionChanged i
  have hend : ∀ v : Blk, KeepsRegions v (v.gnsEnd 0) := fun _ => ⟨rfl, rfl⟩
  refine ⟨((hkept.trans (hend _)).region_eq i).trans ?_, ?_⟩
  · rw [region_putRegion, if_pos rfl]
  · rw [(hkept.trans (hend _)).sweeps]
    exact Tab.find_put_self _ _ _

/-! ### A zeroing sweep (R264, R273) -/

/-- The lines that a sweep zeroes: those that still name the old generation, on stacks that serve. -/
def lineSwept (s : Blk) (i : Nat) (w : Sweep) (x : Nat) : Bool :=
  (s.meta_ x).written && (s.meta_ x).region = i && (s.meta_ x).gen = w.gen && w.base ≤ x / 16 && x / 16 < w.base + w.blocks &&
    s.stackUp (lineStack x)

/-- What a sweep leaves of a line's metadata: a line of a retired row stays poisoned (R451). -/
def sweptMeta (m : LineMeta) : LineMeta := { LineMeta.reset with poison := m.retired, retired := m.retired }

theorem find_of_above {α : Type} {m : Nat} {l : Tab α} (h : Tab.above m l) : l.find m = none := by
  rw [Option.eq_none_iff_forall_ne_some]
  exact fun v hv => (h _ (Tab.mem_of_find hv)).false

/-- What a key reads as once every listed value has been changed. -/
theorem get_mapV {α : Type} [DecidableEq α] {d : α} {l : Tab α} (hwf : l.wf (fun _ => d) = true) (f : Nat → α → α) {k : Nat}
    (hd : f k d = d) : (l.mapV d f).get d k = f k (l.get d k) := by
  induction l with
  | nil => exact hd.symm
  | cons a l ih =>
    obtain ⟨j, v⟩ := a
    obtain ⟨-, habove, hrest⟩ := (Tab.wf_cons _ _ _ _).mp hwf
    have hl := ih hrest
    unfold Tab.get at hl ⊢
    by_cases hj : j = k
    · subst hj
      rw [find_of_above habove, Option.getD_none, hd] at hl
      by_cases hv : f j v = d
      · simpa [Tab.mapV, Tab.find, hv] using hl
      · simp [Tab.mapV, Tab.find, hv]
    · by_cases hv : f j v = d
      · simpa [Tab.mapV, Tab.find, hv, hj] using hl
      · simpa [Tab.mapV, Tab.find, hv, hj] using hl

theorem sweepDone_eq {i : Nat} {w : Sweep} (h : s.sweeps.find i = some w) : s.sweepDone i =
    ({ s with hot := s.hot.keep fun _ (h : HotLine) => !(h.region = i && h.gen = w.gen),
              hbm := s.hbm.keep fun a _ => !s.lineSwept i w (a / 256),
              lineMeta := s.lineMeta.mapV .reset fun x m => if s.lineSwept i w x then sweptMeta m else m,
              sweeps := s.sweeps.del i } : Blk).raise .GNS_INT_sweep_done 0 := by
  unfold sweepDone
  rw [h]
  rfl

/-- Every line reads zero where the sweep took it, and as before elsewhere. -/
theorem lineBytes_sweepDone {i : Nat} {w : Sweep} (h : s.sweeps.find i = some w) (x : Nat) :
    (s.sweepDone i).lineBytes x = if s.lineSwept i w x then List.replicate 256 0 else s.lineBytes x := by
  have hget : ∀ k < 256, (s.sweepDone i).hbm.get 0 (256 * x + k) = if s.lineSwept i w x then 0 else s.hbm.get 0 (256 * x + k) := by
    intro k hk
    rw [sweepDone_eq h, raise_hbm]
    unfold Tab.get Tab.keep
    rw [find_filter_key s.hbm (fun a => !s.lineSwept i w (a / 256)), show (256 * x + k) / 256 = x by omega]
    cases s.lineSwept i w x <;> rfl
  unfold lineBytes
  rw [List.map_congr_left fun k hk => hget k (List.mem_range.mp hk)]
  split
  · rw [List.map_const', List.length_range]
  · rfl

theorem meta_sweepDone {i : Nat} {w : Sweep} (h : s.sweeps.find i = some w) (hwf : s.lineMeta.wf (fun _ => .reset) = true) (x : Nat) :
    (s.sweepDone i).meta_ x = if s.lineSwept i w x then sweptMeta (s.meta_ x) else s.meta_ x := by
  have hreset : (if s.lineSwept i w x = true then sweptMeta .reset else .reset) = .reset := ite_self _
  rw [sweepDone_eq h, meta_, raise_lineMeta]
  exact get_mapV hwf (fun x m => if s.lineSwept i w x then sweptMeta m else m) hreset

theorem sweeps_sweepDone {i : Nat} {w : Sweep} (h : s.sweeps.find i = some w) : (s.sweepDone i).sweeps.find i = none := by
  rw [sweepDone_eq h, raise_sweeps]
  exact Tab.find_del_self _ _

/-- No buffer holds a line of the old generation any more. -/
theorem hot_sweepDone {i : Nat} {w : Sweep} (h : s.sweeps.find i = some w) :
    ∀ kv ∈ (s.sweepDone i).hot, ¬ (kv.2.region = i ∧ kv.2.gen = w.gen) := by
  rw [sweepDone_eq h, raise_hot]
  intro kv hkv
  have hp := (List.mem_filter.mp hkv).2
  exact not_and_or.mpr (by simpa using hp)

end Blk

open Blk

/-- Settles O25: RGN_SET; RGN_CLEAR and RGN_RETAG; the sweep of the old generation. -/
theorem regionsManaged : Obligations.RegionsManaged := by
  unfold Obligations.RegionsManaged
  refine ⟨fun s i hcmd => ⟨fun hok => ?_, fun hvalid => ?_⟩, ?_, ?_⟩
  · obtain ⟨hfree, hset⟩ := rgnSet_ok hok
    have hregion : ((s.blk.putRegion i (s.blk.newRegion i)).gnsEnd 0).region i = s.blk.newRegion i :=
      (region_putRegion _ _ _).trans (if_pos rfl)
    refine runs_of_eq (g := (·.gnsRun 1 Blk.rgnSet)) rfl (gnsRun_eq hcmd hset) ⟨rfl, result_gnsEnd (by decide), hfree, ?_⟩
    dsimp only
    rw [hregion]
    exact ⟨rfl, rfl, rfl, rfl, rfl, rfl⟩
  · exact runs_of_eq (g := (·.gnsRun 1 Blk.rgnSet)) rfl (gnsRun_eq hcmd (rgnSet_valid hvalid)) ⟨rfl, result_gnsEnd (by decide), rfl⟩
  · intro s i op c hmem hcmd
    obtain ⟨hc, hop⟩ | ⟨hc, hop⟩ : (c = .rgnClear ∧ op = 2) ∨ (c = .rgnRetag ∧ op = 3) := by simpa [and_comm] using hmem
    · subst hc hop
      refine ⟨fun hvalid => ?_, fun hvalid => ?_⟩
      · refine runs_of_eq (g := (·.gnsRun 2 Blk.rgnClear)) rfl (gnsRun_eq hcmd (rgnClear_valid hvalid)) ?_
        obtain ⟨hregion, hsweep⟩ := nextGen_leaves (s := s.blk) i { s.blk.region i with valid := false }
        dsimp only at hregion ⊢
        rw [hregion]
        exact ⟨result_gnsEnd (by decide), rfl, rfl, hsweep, fun h => absurd h (by decide)⟩
      · exact runs_of_eq (g := (·.gnsRun 2 Blk.rgnClear)) rfl (gnsRun_eq hcmd (if_neg (by simp [hvalid])))
          ⟨result_gnsEnd (by decide), rfl, rfl⟩
    · subst hc hop
      refine ⟨fun hvalid => ?_, fun hvalid => ?_⟩
      · refine runs_of_eq (g := (·.gnsRun 3 Blk.rgnRetag)) rfl (gnsRun_eq hcmd (rgnRetag_valid hvalid)) ?_
        obtain ⟨hregion, hsweep⟩ := nextGen_leaves (s := s.blk) i (s.blk.retagged i)
        dsimp only at hregion ⊢
        rw [hregion]
        exact ⟨result_gnsEnd (by decide), rfl, hvalid, hsweep, fun _ => ⟨rfl, rfl⟩⟩
      · exact runs_of_eq (g := (·.gnsRun 3 Blk.rgnRetag)) rfl (gnsRun_eq hcmd (if_neg (by simp [hvalid])))
          ⟨result_gnsEnd (by decide), rfl, rfl⟩
  · intro s i w x old hw hwf hold
    have hold' : old = s.blk.lineSwept i.toNat w x := hold
    refine runs_of_eq (g := (·.sweepDone i.toNat)) rfl rfl ⟨sweeps_sweepDone hw, ?_, hot_sweepDone hw, fun h => ?_, fun h => ?_⟩
    · rw [sweepDone_eq hw]
      exact flag_raise _ _ _ (by simp [messages])
    · rw [lineBytes_sweepDone hw, meta_sweepDone hw hwf, ← hold', if_pos h, if_pos h]
      exact ⟨rfl, rfl⟩
    · rw [lineBytes_sweepDone hw, meta_sweepDone hw hwf, ← hold', if_neg (by simp [h]), if_neg (by simp [h])]
      exact ⟨rfl, rfl⟩

end Sys2Proof.Machine
end

section
/-!
PROOF. Gateways and the partition of the store (R262, R276 to R281, R286): what GNS_CMD sets and clears, a job posted, what an
acknowledgement settles, what is sent again, and how a gateway fails. They settle O26.
-/

namespace Sys2Proof.Machine

namespace Blk

variable {s t u : Blk} {g : Nat}

/-! ### GNS_CMD on gateways (R262, R277) -/

/-- The gateway that GW_SET writes from GNS_CMD_DATA. -/
def newGateway (s : Blk) : GwRec :=
  let b := s.gnsData
  { GwRec.reset with
    valid := (beAt b 0 1).testBit 7, v6 := (beAt b 0 1).testBit 6, nh := beAt b 2 2 % 2 ^ 14, dqpn := beAt b 4 4 % 2 ^ 24,
    sqpn := beAt b 8 4 % 2 ^ 24, rkey := beAt b 12 4, rva := beAt b 16 8,
    dip := beAt b 24 16, sip := beAt b 40 16,
    pmtu := beAt b 56 1, retryCnt := beAt b 57 1 % 8, timeout := beAt b 58 1 % 32, rnrRetry := beAt b 59 1 % 8,
    rate := beAt b 60 2, cur := beAt b 60 2 }

theorem gwSet_ok (h : (s.gwSet g).1 = 0) : s.gwSet g = (0, s.putGateway g s.newGateway) := by
  unfold gwSet at h ⊢
  dsimp only at h ⊢
  split at h
  · simp at h
  next hindex =>
    split at h
    · simp at h
    · split at h
      · simp at h
      next hbad hworks =>
        rw [if_neg hindex, if_neg hbad, if_neg hworks]
        rfl

theorem gwSet_index (h : 255 < g) : s.gwSet g = (2, s) := if_pos h

theorem gwClear_ok (hg : g ≤ 255) (hw : s.gwWorks g = false)
    (hr : ∀ kv ∈ s.regions, ¬ (kv.2.valid = true ∧ kv.2.mode = 3 ∧ kv.2.gw = g)) :
    s.gwClear g = (0, s.putGateway g { s.gateway g with valid := false }) := by
  have hnone : (s.regions.any fun kv => kv.2.valid && kv.2.mode = 3 && kv.2.gw = g) = false := by
    rw [List.any_eq_false]
    intro kv hkv
    simpa [and_assoc] using hr kv hkv
  unfold gwClear
  rw [if_neg (by omega), if_neg (by simp [hw, hnone])]

theorem gwClear_works (hg : g ≤ 255) (hw : s.gwWorks g = true) : s.gwClear g = (6, s) := by
  unfold gwClear
  rw [if_neg (by omega), if_pos (by simp [hw])]

theorem gateway_gnsEnd (s : Blk) (result g : Nat) : (s.gnsEnd result).gateway g = s.gateway g := rfl

/-! ### The partition (R286) -/

theorem partWrite_ok {m a : Nat} (h : m + a ≤ 576) (hr : ∀ kv ∈ s.regions, kv.2.valid = false) : s.partWrite m a =
    ((s.setFld .GNS_PART_mem_gib 0 m).setFld .GNS_PART_abs_gib 0 a).setFld .GNS_PART_STATUS_jrn_gib 0 (576 - m - a) := by
  unfold partWrite
  dsimp only
  refine if_pos ?_
  rw [Bool.and_eq_true, decide_eq_true_eq, Bool.not_eq_true', List.any_eq_false]
  exact ⟨h, fun kv hkv => by simp [hr kv hkv]⟩

theorem partWrite_past {m a : Nat} (h : 576 < m + a) : s.partWrite m a = s.raise .GNS_PART_STATUS_reject 0 := by
  unfold partWrite
  exact if_neg (by simp [h])

/-! ### Jobs (R281, R469) -/

theorem gateway_putGateway_self (x : GwRec) : (s.putGateway g x).gateway g = x := (gateway_putGateway g g x).trans (if_pos rfl)

theorem ringPending_reported (r : Nat) : Reported s (s.ringPending r) := by
  have hfire : ∀ v : Blk, Reported v (v.fireVector (v.fld .DMA_RING_CFG_vector r)) := fun v f i hf =>
    (Within.fireVector (p := fun f _ => counts f) _ _ fun g hg => by rcases hg with rfl | rfl <;> simp [counts]).2 f i
      fun hc => hf (.inl hc)
  unfold Blk.ringPending
  dsimp only
  split
  · exact .of_fields rfl
  · refine Reported.trans ?_ (hfire _)
    exact .of_fields rfl

/-- A ring's head moves on by the entries taken. -/
theorem fld_advanceRing_head (r n : Nat) :
    (s.advanceRing r n).fld .DMA_RING_HEAD_head r = (s.fld .DMA_RING_HEAD_head r + n) % 2 ^ 32 := by
  have hmoved : Reported (s.setFld .DMA_RING_HEAD_head r (s.fld .DMA_RING_HEAD_head r + n)) (s.advanceRing r n) := by
    have hput : ∀ (v : Blk) b, Reported v (v.putRing r b) := fun _ _ => .of_fields rfl
    have hemit : ∀ (v : Blk) o, Reported v (v.emit o) := fun _ _ => .of_fields rfl
    unfold Blk.advanceRing
    dsimp only
    refine Reported.trans (Reported.trans (.ite (hemit _ _) (.refl _)) (hput _ _)) (.ite (ringPending_reported _) (.refl _))
  have herr : ∀ k, Fld.DMA_RING_HEAD_head ≠ errBit k := fun k => by unfold errBit; split <;> decide
  rw [hmoved _ _ (by simp [reporting, counts, herr])]
  exact fld_setFld_self ..

/-- A gateway with a job in hand starts no other. -/
theorem runJobs_of_running {n : Nat} (h : (s.gateway g).running.isSome = true) : s.runJobs g (n + 1) = s := by
  have hidle : s.gwIdle g = s := if_neg (by simp [Option.isNone_eq_false_iff.mpr h])
  obtain ⟨x, hx⟩ := Option.isSome_iff_exists.mp h
  unfold runJobs
  dsimp only
  rw [hx, hidle, ite_self]

/-- A job posted behind one that runs is queued. -/
theorem postJob_queued {j : GwJob} (hv : (s.gateway g).valid = true) (hr : (s.gateway g).running.isSome = true)
    (hroom : (s.gateway g).jobs.length + s.jobsHeld g < 15) (hstate : (s.gateway g).state ≠ 2) :
    s.postJob g j false = s.putGateway g { s.gateway g with jobs := (s.gateway g).jobs ++ [j], state := 1 } := by
  unfold postJob
  dsimp only
  rw [if_neg (by simp [hv, hr]; omega), if_neg hstate]
  exact runJobs_of_running (by rw [gateway_putGateway_self]; exact hr)

/-- A job of a host's ends with its record, where the pending buffer has room. -/
theorem endJob_ring {cring tag status acked : Nat} (hst : status ≠ 4) (h : s.cplFull = false) :
    s.endJob g (.ring cring tag) status acked = s.placeRecord cring
      ⟨3, beBytes 1 status ++ beBytes 1 g ++ beBytes 2 0 ++ beBytes 4 tag ++ beBytes 8 acked⟩ := by
  unfold endJob
  dsimp only
  rw [if_neg hst, postWork_of_room h]
  rfl

/-- The entry at the head of a JOB ring is taken: the ring was served last, and the gateways and the records are as they were. -/
structure JobTaken (r : Nat) (s t : Blk) : Prop where
  gateways : t.gateways = s.gateways
  cplHeld : t.cplHeld = s.cplHeld
  cplWait : t.cplWait = s.cplWait
  turn : t.jobTurn = some r
  head : t.fld .DMA_RING_HEAD_head r = (s.fld .DMA_RING_HEAD_head r + 1) % 2 ^ 32

theorem JobTaken.advanceRing (r : Nat) : JobTaken r s (({ s with jobTurn := some r } : Blk).advanceRing r 1) := by
  have hkept := (Handled.advanceRing (s := { s with jobTurn := some r }) r 1).1
  refine ⟨?_, ?_, ?_, ?_, fld_advanceRing_head r 1⟩ <;> rw [hkept]

theorem JobTaken.gateway_eq {r : Nat} (h : JobTaken r s t) (g : Nat) : t.gateway g = s.gateway g := by rw [gateway, h.gateways, gateway]

theorem JobTaken.cplFull {r : Nat} (h : JobTaken r s t) : t.cplFull = s.cplFull := by
  unfold Blk.cplFull cplCount
  rw [h.cplHeld, h.cplWait]

theorem postJob_invalid {cring tag : Nat} {j : GwJob} (hv : (s.gateway g).valid = false) (ho : j.owner = .ring cring tag)
    (h : s.cplFull = false) : s.postJob g j false = s.placeRecord cring
      ⟨3, beBytes 1 1 ++ beBytes 1 g ++ beBytes 2 0 ++ beBytes 4 tag ++ beBytes 8 0⟩ := by
  unfold postJob
  dsimp only
  rw [if_pos (by simp [hv]), ho]
  exact endJob_ring (by decide) h

theorem cplWait_placeRecord (ring : Nat) (x : CplRec) :
    (s.placeRecord ring x).cplWait.get [] ring = s.cplWait.get [] ring ++ [x] := by
  refine (Tab.get_set _ _ _ _ _ _ fun _ => rfl).trans (if_pos rfl)

/-! ### Acknowledgements (R276, R281) -/

/-- A gateway with no job queued starts none: at most it is idle again. -/
theorem runJobs_of_noJobs {n : Nat} (hr : (s.gateway g).running = none) (hj : (s.gateway g).jobs = []) :
    ((s.runJobs g n).gateway g).running = none ∧ (s.runJobs g n).cplWait = s.cplWait := by
  have hidle : ((s.gwIdle g).gateway g).running = none ∧ (s.gwIdle g).cplWait = s.cplWait := by
    unfold gwIdle
    dsimp only
    split
    · exact ⟨by rw [gateway_putGateway_self]; exact hr, rfl⟩
    · exact ⟨hr, rfl⟩
  cases n with
  | zero => exact ⟨hr, rfl⟩
  | succ n =>
    unfold runJobs
    dsimp only
    rw [hr, hj]
    split
    · exact ⟨hr, rfl⟩
    · exact hidle

/-- The gateway once the first `k` packets sent are acknowledged. -/
def acked (x : GwRec) (run : GwRun) (k : Nat) : GwRec :=
  { x with
    sent := x.sent.drop k, tries := 0, rnrTries := 0, stores := []
    running := some { run with acked := run.acked + (((x.sent.take k).filter GwPacket.job).map GwPacket.bytes).sum } }

theorem gwAck_eq {psn k : Nat} {x : GwRun} (hc : covered (s.gateway g).sent psn = some k) (hr : (s.gateway g).running = some x)
    (hs : (s.gateway g).stores = []) : s.gwAck g psn = (s.putGateway g (acked (s.gateway g) x k)).gwSettle g := by
  unfold gwAck
  dsimp only
  rw [hc]
  dsimp only
  rw [hs, hr]
  rfl

/-- A job with packets still unacknowledged stays in hand. -/
theorem gwSettle_of_pending {x : GwRun} (hr : (s.gateway g).running = some x) (hp : ∃ p ∈ (s.gateway g).sent, p.psn = x.last) :
    s.gwSettle g = s := by
  unfold gwSettle
  dsimp only
  rw [hr]
  exact if_pos (by simpa using hp)

/-- A job whose last packet is acknowledged ends with its record. -/
theorem gwSettle_ends {x : GwRun} {cring tag : Nat} (hr : (s.gateway g).running = some x) (hj : (s.gateway g).jobs = [])
    (hp : ∀ p ∈ (s.gateway g).sent, p.psn ≠ x.last) (ho : x.job.owner = .ring cring tag) (h : s.cplFull = false) :
    ((s.gwSettle g).gateway g).running = none ∧
      ∃ bs, (s.gwSettle g).cplWait.get [] cring = s.cplWait.get [] cring ++ [⟨3, bs⟩] ∧ bs.take 1 = beBytes 1 0 := by
  have hsettle : s.gwSettle g = ((s.putGateway g { s.gateway g with running := none }).placeRecord cring
      ⟨3, beBytes 1 0 ++ beBytes 1 g ++ beBytes 2 0 ++ beBytes 4 tag ++ beBytes 8 x.acked⟩).runJobs g
        ((s.gateway g).jobs.length + 1) := by
    unfold gwSettle
    dsimp only
    rw [hr]
    dsimp only
    rw [if_neg (by simpa using hp), ho, endJob_ring (s := s.putGateway g _) (by decide) h]
  have hgw : ((s.putGateway g { s.gateway g with running := none }).placeRecord cring
      ⟨3, beBytes 1 0 ++ beBytes 1 g ++ beBytes 2 0 ++ beBytes 4 tag ++ beBytes 8 x.acked⟩).gateway g =
        { s.gateway g with running := none } := gateway_putGateway_self _
  obtain ⟨hrun, hwait⟩ := runJobs_of_noJobs (n := (s.gateway g).jobs.length + 1) (by rw [hgw]) (by rw [hgw]; exact hj)
  rw [hsettle]
  refine ⟨hrun, _, by rw [hwait, cplWait_placeRecord]; rfl, ?_⟩
  simp [length_beBytes]

/-! ### Sending again, and failing (R277, R278, R280) -/

/-- A NAK that names the oldest packet acknowledges none. -/
theorem gwBefore_of_none {psn : Nat} (h : covered (s.gateway g).sent (psnAdd psn (2 ^ 24 - 1)) = none) : s.gwBefore g psn = s := by
  unfold gwBefore gwAck
  dsimp only
  rw [h]

theorem gateway_gwResend (psn k : Nat) : (s.gwResend g psn).gateway k = s.gateway k := by
  have hkept : ∀ (ps : List GwPacket) (v : Blk), Sends handling v (ps.foldl (fun s p => s.gwEmit g p) v) := fun ps v =>
    Sends.foldl _ (fun v p => Sends.gwEmit g p) ps v
  exact (hkept _ s).gateway_eq k

theorem gateway_gwRetry {psn : Nat} (hs : (s.gateway g).sent ≠ []) (h : (s.gateway g).tries < (s.gateway g).retryCnt) :
    (s.gwRetry g psn).gateway g = { s.gateway g with tries := (s.gateway g).tries + 1 } := by
  unfold gwRetry
  dsimp only
  rw [if_neg hs, if_neg (by omega), gateway_gwResend, gateway_putGateway_self]

theorem gwRetry_spent {psn : Nat} (hs : (s.gateway g).sent ≠ []) (h : (s.gateway g).retryCnt ≤ (s.gateway g).tries) :
    s.gwRetry g psn = s.gwFail g 6 := by
  unfold gwRetry
  dsimp only
  rw [if_neg hs, if_pos h]

/-- A gateway that fails has nothing in hand any more (R280). -/
theorem gwFail_leaves (status : Nat) : ((s.gwFail g status).gateway g).state = 2 ∧ ((s.gwFail g status).gateway g).sent = [] ∧
    (s.gwFail g status).flag .GNS_INT_gw_fail 0 = true := by
  obtain ⟨v, hv, hends⟩ : ∃ v, s.gwFail g status = v.raise .GNS_INT_gw_fail 0 ∧ JobEnds (s.putGateway g { s.gateway g with
      state := 2, jobs := [], running := none, stores := [], sent := [], rnrFrom := none }) v := by
    refine ⟨_, rfl, JobEnds.trans ?_ (.foldl _ (fun _ _ => .storeEnds _) _ _)⟩
    refine JobEnds.trans ?_ (.foldl _ (fun _ _ => .endJob _ _ _ _) _ _)
    split
    · exact .refl _
    · exact .endJob _ _ _ _
  have hgw := ((hends.trans (.raise .GNS_INT_gw_fail 0)).gateway_eq g).trans (gateway_putGateway_self _)
  rw [hv]
  exact ⟨by rw [hgw], by rw [hgw], flag_raise _ _ _ (by simp [messages])⟩

end Blk

open Blk

variable {s : State} {g : Nat}

/-! ### The commands -/

theorem runs_gwSet (h : s.blk.gnsCmd = some (4, g)) :
    ((s.blk.gwSet g).1 = 0 → Runs .gwSet s fun t => t.blk.gnsCmd = none ∧ t.blk.fld .GNS_CMD_STATUS_result 0 = 0 ∧
      t.blk.gateway g = s.blk.newGateway) ∧
    (255 < g → Runs .gwSet s fun t => t.blk.fld .GNS_CMD_STATUS_result 0 = 2 ∧ t.blk.gateways = s.blk.gateways) := by
  refine ⟨fun hok => ?_, fun hg => ?_⟩
  · exact runs_of_eq (g := (·.gnsRun 4 Blk.gwSet)) rfl (gnsRun_eq h (gwSet_ok hok))
      ⟨rfl, result_gnsEnd (by decide), (gateway_gnsEnd _ _ _).trans (gateway_putGateway_self _)⟩
  · exact runs_of_eq (g := (·.gnsRun 4 Blk.gwSet)) rfl (gnsRun_eq h (gwSet_index hg)) ⟨result_gnsEnd (by decide), rfl⟩

theorem runs_gwClear (h : s.blk.gnsCmd = some (5, g)) (hg : g ≤ 255) :
    (s.blk.gwWorks g = false → (∀ kv ∈ s.blk.regions, ¬ (kv.2.valid = true ∧ kv.2.mode = 3 ∧ kv.2.gw = g)) →
      Runs .gwClear s fun t => t.blk.fld .GNS_CMD_STATUS_result 0 = 0 ∧ (t.blk.gateway g).valid = false) ∧
    (s.blk.gwWorks g = true →
      Runs .gwClear s fun t => t.blk.fld .GNS_CMD_STATUS_result 0 = 6 ∧ t.blk.gateways = s.blk.gateways) := by
  refine ⟨fun hw hr => ?_, fun hw => ?_⟩
  · have hgw := (gateway_gnsEnd (s.blk.putGateway g { s.blk.gateway g with valid := false }) 0 g).trans (gateway_putGateway_self _)
    exact runs_of_eq (g := (·.gnsRun 5 Blk.gwClear)) rfl (gnsRun_eq h (gwClear_ok hg hw hr))
      ⟨result_gnsEnd (by decide), congrArg GwRec.valid hgw⟩
  · exact runs_of_eq (g := (·.gnsRun 5 Blk.gwClear)) rfl (gnsRun_eq h (gwClear_works hg hw)) ⟨result_gnsEnd (by decide), rfl⟩

theorem runs_partWrite {v : BitVec 32} {m a : Nat} (hm : m = v.toNat % 1024) (ha : a = v.toNat / 1024 % 1024) :
    (m + a ≤ 576 → (∀ kv ∈ s.blk.regions, kv.2.valid = false) →
      Runs (.partWrite v) s fun t => t.blk.fld .GNS_PART_mem_gib 0 = m ∧ t.blk.fld .GNS_PART_abs_gib 0 = a ∧
        t.blk.fld .GNS_PART_STATUS_jrn_gib 0 = 576 - m - a ∧
        OnlyFields s t [(.GNS_PART_mem_gib, 0), (.GNS_PART_abs_gib, 0), (.GNS_PART_STATUS_jrn_gib, 0)]) ∧
    (576 < m + a →
      Runs (.partWrite v) s fun t => t.blk.flag .GNS_PART_STATUS_reject 0 = true ∧
        OnlyFieldsIrq s t [(.GNS_PART_STATUS_reject, 0)]) := by
  have hexec : exec (.partWrite v) s = run (·.partWrite m a) s := by
    have hlow : bits v.toNat 9 0 = m := by simp [bits, hm]
    have hhigh : bits v.toNat 19 10 = a := by simp [bits, ha]
    rw [← hlow, ← hhigh]
    rfl
  refine ⟨fun h hr => ?_, fun h => ?_⟩
  · refine runs_of_eq hexec (partWrite_ok h hr) ⟨?_, ?_, ?_, rfl, rfl, ?_⟩
    · refine (fld_setFld_ne _ _ _ _ _ _ (by decide)).trans ((fld_setFld_ne _ _ _ _ _ _ (by decide)).trans ?_)
      exact (fld_setFld_self ..).trans (Nat.mod_eq_of_lt (by rw [hm]; exact Nat.mod_lt _ (by decide)))
    · refine (fld_setFld_ne _ _ _ _ _ _ (by decide)).trans ?_
      exact (fld_setFld_self ..).trans (Nat.mod_eq_of_lt (by rw [ha]; exact Nat.mod_lt _ (by decide)))
    · exact (fld_setFld_self ..).trans (Nat.mod_eq_of_lt (show 576 - m - a < 1024 by omega))
    · exact ((Within.setFld _ _ _ _ (by simp)).trans (Within.setFld _ _ _ _ (by simp))).trans (Within.setFld _ _ _ _ (by simp))
  · exact runs_of_eq hexec (partWrite_past h) ⟨flag_raise _ _ _ (by simp [messages]), onlyFieldsIrq_raise (by simp) (Within.refl _ _)⟩

/-! Jobs (R281, R469). -/

variable {ring : RingId} {w : Bytes32} {j : Nat}

/-- The job that an entry of a JOB ring posts. -/
def ringJob (j : Nat) : GwJob := ⟨bits j 239 224, bits j 223 192, bits j 191 128, bits j 127 64, .ring (bits j 25 16) (bits j 63 32)⟩

/-- The entry of the JOB ring in turn is taken, and its job posted. -/
theorem exec_gneissJob (hj : j = w.toNat) (hturn : s.blk.jobRing = some ring.val) : ∃ a, JobTaken ring s.blk a ∧
    exec (.gneissJob ring w) s = .next { s with blk := a.postJob (bits j 255 248) (ringJob j) false } := by
  refine ⟨_, .advanceRing _, ?_⟩
  subst hj
  show execGneissJob ring w s = _
  unfold execGneissJob run
  dsimp only
  rw [if_pos hturn]
  rfl

theorem exec_gneissJob_otherRing (h : s.blk.jobRing ≠ some ring.val) : exec (.gneissJob ring w) s = .next s := by
  show execGneissJob ring w s = _
  unfold execGneissJob run
  dsimp only
  rw [if_neg h]

theorem runs_gneissJob_queued (hj : j = w.toNat) (hg : g = bits j 255 248) (hturn : s.blk.jobRing = some ring.val)
    (hv : (s.blk.gateway g).valid = true) (hr : (s.blk.gateway g).running.isSome = true)
    (hroom : (s.blk.gateway g).jobs.length + s.blk.jobsHeld g < 15) (hstate : (s.blk.gateway g).state ≠ 2) :
    Runs (.gneissJob ring w) s fun t => (t.blk.gateway g).jobs = (s.blk.gateway g).jobs ++ [ringJob j] ∧
      t.blk.jobTurn = some ring.val ∧ t.blk.fld .DMA_RING_HEAD_head ring = (s.blk.fld .DMA_RING_HEAD_head ring + 1) % 2 ^ 32 := by
  subst hg
  obtain ⟨a, ha, hexec⟩ := exec_gneissJob hj hturn
  have hgw := ha.gateway_eq (bits j 255 248)
  have hheld : a.jobsHeld (bits j 255 248) = s.blk.jobsHeld (bits j 255 248) := by rw [jobsHeld, ha.cplHeld, jobsHeld]
  rw [postJob_queued (by rwa [hgw]) (by rwa [hgw]) (by rwa [hgw, hheld]) (by rwa [hgw])] at hexec
  refine ⟨_, hexec, ?_, ha.turn, ha.head⟩
  dsimp only
  rw [gateway_putGateway_self, hgw]

theorem runs_gneissJob_invalid (hj : j = w.toNat) (hg : g = bits j 255 248) (hturn : s.blk.jobRing = some ring.val)
    (hv : (s.blk.gateway g).valid = false) (hfull : s.blk.cplFull = false) :
    Runs (.gneissJob ring w) s fun t => t.blk.gateways = s.blk.gateways ∧
      t.blk.cplWait.get [] (bits j 25 16) = s.blk.cplWait.get [] (bits j 25 16) ++
        [⟨3, beBytes 1 1 ++ beBytes 1 g ++ beBytes 2 0 ++ beBytes 4 (bits j 63 32) ++ beBytes 8 0⟩] := by
  subst hg
  obtain ⟨a, ha, hexec⟩ := exec_gneissJob hj hturn
  rw [postJob_invalid (by rwa [ha.gateway_eq]) rfl (by rwa [ha.cplFull])] at hexec
  refine ⟨_, hexec, ha.gateways, ?_⟩
  dsimp only
  rw [cplWait_placeRecord, ha.cplWait]

/-! The reliable transport (R276 to R281). -/

variable {gw : GatewayId} {psn : BitVec 24}

theorem runs_roceAck_bad : Runs (.roceAck gw psn true) s fun t => OnlyFieldsCnt s t [(.GNS_GW_DISCARD_count, 0)] ∧
    t.blk.fld .GNS_GW_DISCARD_count 0 = min (s.blk.fld .GNS_GW_DISCARD_count 0 + 1) (2 ^ 64 - 1) :=
  runs_of_eq (g := Blk.gwDiscard) rfl rfl
    ⟨⟨rfl, rfl, .count _ _ _ _ (fun _ _ h => .inr h) (.inl (by simp))⟩, fld_count_self _ _ _ _ (by simp [counts]) rfl⟩

theorem exec_roceAck (hlive : s.blk.gwLive gw = true) {k : Nat} {x : GwRun}
    (hc : covered (s.blk.gateway gw).sent psn.toNat = some k) (hr : (s.blk.gateway gw).running = some x)
    (hs : (s.blk.gateway gw).stores = []) : ∃ g : Blk → Blk, exec (.roceAck gw psn false) s = run g s ∧
      g s.blk = (s.blk.putGateway gw (acked (s.blk.gateway gw) x k)).gwSettle gw :=
  ⟨fun b => if b.gwLive gw then b.gwAck gw psn.toNat else b, rfl, (if_pos hlive).trans (gwAck_eq hc hr hs)⟩

theorem runs_roceAck_pending (hlive : s.blk.gwLive gw = true) {k : Nat} {x : GwRun}
    (hc : covered (s.blk.gateway gw).sent psn.toNat = some k) (hr : (s.blk.gateway gw).running = some x)
    (hs : (s.blk.gateway gw).stores = []) (hp : ∃ p ∈ (s.blk.gateway gw).sent.drop k, p.psn = x.last) :
    Runs (.roceAck gw psn false) s fun t => t.blk.gateway gw = acked (s.blk.gateway gw) x k := by
  obtain ⟨f, hexec, hf⟩ := exec_roceAck hlive hc hr hs
  have hgw := gateway_putGateway_self (s := s.blk) (g := gw) (acked (s.blk.gateway gw) x k)
  rw [gwSettle_of_pending (x := { x with acked := _ }) (by rw [hgw]; rfl) (by rw [hgw]; exact hp)] at hf
  exact runs_of_eq hexec hf hgw

theorem runs_roceAck_ends (hlive : s.blk.gwLive gw = true) {k cring tag : Nat} {x : GwRun}
    (hc : covered (s.blk.gateway gw).sent psn.toNat = some k) (hr : (s.blk.gateway gw).running = some x)
    (hj : (s.blk.gateway gw).jobs = []) (hs : (s.blk.gateway gw).stores = [])
    (hp : ∀ p ∈ (s.blk.gateway gw).sent.drop k, p.psn ≠ x.last) (ho : x.job.owner = .ring cring tag) (h : s.blk.cplFull = false) :
    Runs (.roceAck gw psn false) s fun t => (t.blk.gateway gw).running = none ∧
      ∃ bs, t.blk.cplWait.get [] cring = s.blk.cplWait.get [] cring ++ [⟨3, bs⟩] ∧ bs.take 1 = beBytes 1 0 := by
  obtain ⟨f, hexec, hf⟩ := exec_roceAck hlive hc hr hs
  have hgw := gateway_putGateway_self (s := s.blk) (g := gw) (acked (s.blk.gateway gw) x k)
  exact runs_of_eq hexec hf (gwSettle_ends (s := s.blk.putGateway gw (acked (s.blk.gateway gw) x k))
    (x := { x with acked := x.acked + ((((s.blk.gateway gw).sent.take k).filter GwPacket.job).map GwPacket.bytes).sum })
    (by rw [hgw]; rfl) (by rw [hgw]; exact hj) (by rw [hgw]; exact hp) ho h)

/-- A NAK of a lost packet sends again while tries are left; another fails the gateway. -/
theorem runs_roceNak {nak : RoceNak} (hlive : s.blk.gwLive gw = true)
    (hc : covered (s.blk.gateway gw).sent (psnAdd psn.toNat (2 ^ 24 - 1)) = none) {P : State → Prop}
    (hp : P { s with blk := if seqError nak then s.blk.gwRetry gw psn.toNat else s.blk.gwFail gw 5 }) : Runs (.roceNak gw psn nak) s P := by
  refine runs_of_eq (g := fun b => if b.gwLive gw then if seqError nak then (b.gwBefore gw psn.toNat).gwRetry gw psn.toNat
    else (b.gwBefore gw psn.toNat).gwFail gw 5 else b) rfl ?_ hp
  rw [if_pos hlive, gwBefore_of_none hc]

theorem runs_ackTimeout {p : GwPacket} {ps : List GwPacket} (hlive : s.blk.gwLive gw = true)
    (hs : (s.blk.gateway gw).sent = p :: ps) {P : State → Prop} (hp : P { s with blk := s.blk.gwRetry gw p.psn }) :
    Runs (.ackTimeout gw) s P := by
  have hexec : exec (.ackTimeout gw) s = run (fun b => b.gwRetry gw p.psn) s := by
    show execAckTimeout gw s = _
    unfold execAckTimeout run
    dsimp only
    rw [hs]
    dsimp only
    rw [if_pos hlive]
  exact runs_of_eq hexec rfl hp

theorem runs_rnrNak (hlive : s.blk.gwLive gw = true)
    (hc : covered (s.blk.gateway gw).sent (psnAdd psn.toNat (2 ^ 24 - 1)) = none) :
    Runs (.rnrNak gw psn) s fun t => t.blk.gateway gw = { s.blk.gateway gw with rnrFrom := some psn.toNat } := by
  have hexec : exec (.rnrNak gw psn) s = run (fun b => b.putGateway gw { b.gateway gw with rnrFrom := some psn.toNat }) s := by
    show execRnrNak gw psn s = _
    unfold execRnrNak run
    dsimp only
    rw [if_pos hlive, gwBefore_of_none hc]
  exact runs_of_eq hexec rfl (gateway_putGateway_self _)

theorem runs_rnrTimer {n : Nat} (hn : (s.blk.gateway gw).rnrFrom = some n) :
    ((s.blk.gateway gw).rnrRetry = 7 ∨ (s.blk.gateway gw).rnrTries < (s.blk.gateway gw).rnrRetry →
      Runs (.rnrTimer gw) s fun t =>
        t.blk.gateway gw = { s.blk.gateway gw with rnrFrom := none, rnrTries := (s.blk.gateway gw).rnrTries + 1 }) ∧
    ((s.blk.gateway gw).rnrRetry ≠ 7 → (s.blk.gateway gw).rnrRetry ≤ (s.blk.gateway gw).rnrTries →
      ∀ P : State → Prop, P { s with blk := s.blk.gwFail gw 6 } → Runs (.rnrTimer gw) s P) := by
  have hexec : exec (.rnrTimer gw) s = .next { s with blk :=
      if ((s.blk.gateway gw).rnrRetry ≠ 7 && (s.blk.gateway gw).rnrRetry ≤ (s.blk.gateway gw).rnrTries) = true then s.blk.gwFail gw 6
      else (s.blk.putGateway gw
        { s.blk.gateway gw with rnrFrom := none, rnrTries := (s.blk.gateway gw).rnrTries + 1 }).gwResend gw n } := by
    show execRnrTimer gw s = _
    unfold execRnrTimer run
    dsimp only
    rw [hn]
  refine ⟨fun h => ⟨_, hexec, ?_⟩, fun h7 hspent P hp => ⟨_, hexec, ?_⟩⟩
  · dsimp only
    rw [if_neg (by simp only [ne_eq, Bool.and_eq_true, decide_eq_true_eq]; omega), gateway_gwResend, gateway_putGateway_self]
  · rwa [if_pos (by simp [h7, hspent])]

/-- Settles O26: GNS_CMD on gateways and the partition; jobs, acknowledgements, NAKs, timers and the rate. -/
theorem gateways : Obligations.Gateways := by
  unfold Obligations.Gateways
  refine ⟨⟨fun s g h => ?_, fun s g h hg => runs_gwClear h hg, fun s v m a hm ha => runs_partWrite hm ha⟩,
    fun s ring w j g hj hg hturn => ⟨?_, ?_⟩, ?_, fun _ _ _ => runs_roceAck_bad, ?_, ?_, ?_, ?_⟩
  · obtain ⟨hok, hindex⟩ := runs_gwSet h
    refine ⟨fun h0 => ?_, hindex⟩
    obtain ⟨t, ht, hcmd, hresult, hgw⟩ := hok h0
    exact ⟨t, ht, hcmd, hresult, by rw [hgw]; exact ⟨rfl, rfl, rfl, rfl, rfl⟩⟩
  · exact fun hv hr hroom hstate => runs_gneissJob_queued hj hg hturn hv hr hroom hstate
  · exact fun hv hfull => runs_gneissJob_invalid hj hg hturn hv hfull
  · exact fun s ring w h => ⟨s, exec_gneissJob_otherRing h, rfl⟩
  · intro s g psn k x hlive hc hr hj hs
    refine ⟨fun hp => ?_, fun cring tag hp ho h => runs_roceAck_ends hlive hc hr hj hs hp ho h⟩
    obtain ⟨t, ht, hgw⟩ := runs_roceAck_pending hlive hc hr hs hp
    exact ⟨t, ht, by dsimp only; rw [hgw]; exact ⟨rfl, rfl, rfl⟩⟩
  · intro s g psn p ps hlive hsent hpsn hc
    have hne : (s.blk.gateway g).sent ≠ [] := by rw [hsent]; exact List.cons_ne_nil _ _
    refine ⟨fun ht => ⟨runs_roceNak hlive hc (gateway_gwRetry hne ht), runs_ackTimeout hlive hsent (gateway_gwRetry hne ht)⟩,
      fun ht => runs_ackTimeout hlive hsent ?_, runs_rnrNak hlive hc, runs_roceNak hlive hc (gwFail_leaves 5)⟩
    obtain ⟨hstate, -, hflag⟩ := gwFail_leaves (s := s.blk) (g := g) 6
    rw [gwRetry_spent hne ht]
    exact ⟨hstate, hflag⟩
  · intro s g n hn
    obtain ⟨hagain, hspent⟩ := runs_rnrTimer hn
    refine ⟨fun h => ?_, fun h7 h => hspent h7 h _ ?_⟩
    · obtain ⟨t, ht, hgw⟩ := hagain h
      exact ⟨t, ht, by dsimp only; rw [hgw]; exact ⟨rfl, rfl⟩⟩
    · obtain ⟨hstate, -, hflag⟩ := gwFail_leaves (s := s.blk) (g := g) 6
      exact ⟨hstate, hflag⟩
  · exact fun s g hlive => ⟨runs_of_eq rfl (if_pos hlive) ⟨congrArg GwRec.cur (gateway_putGateway_self _), rfl⟩,
      runs_of_eq rfl (if_pos hlive) ⟨congrArg GwRec.cur (gateway_putGateway_self _), rfl⟩⟩

end Sys2Proof.Machine
end
